-- ==== Sys2Proof/Word.lean ====
section
/-! DEFINITION. The node's word and byte types (00_scope R10: every register is 32 bits wide and little-endian). -/

namespace Sys2Proof

/-- A register's content (00 R10). -/
abbrev Word := BitVec 32

/-- One byte of a record, an image, a message or a buffer. -/
abbrev Byte := BitVec 8

/-- A sparse table: key and entry, keys strictly rising, no entry equal to what an unlisted key reads as.
The operations and the canonical form are in Machine/Ops.lean. -/
abbrev Tbl (α : Type) := List (Nat × α)

end Sys2Proof
end

