-- ==== Sys2Proof/Machine/State/Can.lean ====
section
/-! DEFINITION. State of the CAN FD controllers (13_can_controllers) and of the message engine's queues (14 R326). -/

namespace Sys2Proof.Machine

/-- A CAN frame on the bus (13 Table 13.1). -/
structure CanFrame where
  ide : Bool
  id : Nat
  fdf : Bool
  brs : Bool
  esi : Bool
  rtr : Bool
  dlc : Nat
  data : List Byte
  deriving DecidableEq, Repr

/-- A stored frame: its matching entry (255 for NOMATCH) and TS at its start of frame (R305). -/
structure RxFrame where
  frame : CanFrame
  entry : Nat
  ts : Word
  deriving DecidableEq, Repr

/-- A host message in the host queue (R308). -/
structure HostMsg where
  frame : CanFrame
  tag : Nat
  attempts : Nat := 0
  deriving DecidableEq, Repr

/-- A node message in a node queue (14 R326): class, type, SUB, retry limit and the frame. -/
structure NodeMsg where
  cls : Nat
  typ : Nat
  sub : Nat
  src : Nat
  retry : Nat
  data : List Byte
  deriving DecidableEq, Repr

/-- What a loaded transmit buffer holds. -/
inductive TxBody where
  | host (m : HostMsg) (retry : Nat)
  | node (m : NodeMsg)
  deriving DecidableEq, Repr

/-- A loaded transmit buffer (CAN_TXB). -/
structure TxBuf where
  body : TxBody
  attempts : Nat := 0
  /-- In transmission (CAN_TXB.INTX). -/
  intx : Bool := false
  /-- A FLUSH was taken up while it was in transmission (R310). -/
  flushed : Bool := false
  deriving DecidableEq, Repr

/-- A completion entry (Table 13.5). -/
structure Completion where
  tag : Nat
  attempts : Nat
  status : Nat
  ts : Word
  id : Word
  deriving DecidableEq, Repr

/-- Fault confinement and activity of a controller (CAN_STAT.STATE). -/
inductive CanState where
  | off
  | active
  | passive
  | busOff
  | recovering
  | searching
  | integrating
  deriving DecidableEq, Repr

/-- One controller (13 R296 to R322). -/
structure CanCtl where
  state : CanState := .off
  /-- Mode in force (Table 13.3). -/
  mode : Nat := 0
  tec : Nat := 0
  rec_ : Nat := 0
  lec : Nat := 0
  lecData : Bool := false
  trxFlt : Bool := false
  txdTmo : Bool := false
  idcoll : Bool := false
  alone : Bool := false
  ackRun : Nat := 0
  /-- CAN_IDCOLL identifier word, where stored. -/
  collId : Option Word := none
  /-- Identifiers of the collision errors of the last second, with the CK_TB instant of the last of each (R317). -/
  colls : List (Word × Nat) := []
  cntRx : Word := 0
  cntTx : Word := 0
  busoffs : Nat := 0
  pxe : Nat := 0
  errs : Nat := 0
  rejs : Nat := 0
  ovfH : Nat := 0
  ovfB : Nat := 0
  ovfA : Nat := 0
  /-- Rate detection (R302). -/
  rdLocked : Bool := false
  rdCand : Nat := 0
  rdFrames : Nat := 0
  rdSwitches : Nat := 0
  /-- CK_TB instant from which the dwell at the candidate counts: its start or its last counted frame. -/
  rdSince : Nat := 0
  /-- Acceptance words written of late: offset, former value, and CK_TB instant of the end of the command (R301). -/
  fltOld : List (Nat × Word × Option Nat) := []
  /-- CAN_CTRL. -/
  txprio : Bool := false
  retry : Nat := 31
  /-- CK_TB instant of the configuration write under which it integrates. -/
  since : Nat := 0
  fifoA : List RxFrame := []
  fifoB : List RxFrame := []
  hpb : List RxFrame := []
  hostQ : List HostMsg := []
  nodeQ : List NodeMsg := []
  txc : List Completion := []
  b0 : Option TxBuf := none
  b1 : Option TxBuf := none
  b2 : Option TxBuf := none
  /-- Buffer loaded last, for cyclic order (R309). -/
  lastLoad : Nat := 2
  /-- Buffer last completed, for the order in which TXPRIO = 1 offers them (R309). -/
  lastDone : Nat := 2
  /-- A configuration write waits for the end of the frame being sent; the controller could receive before the last one (R301). -/
  cfgPend : Bool := false
  wasRx : Bool := false
  /-- Node messages discarded since the last record and CK_TB instant of that record (14 R326). -/
  qDisc : Nat := 0
  qRecAt : Option Nat := none
  deriving DecidableEq, Repr

/-- CAN_TSREF: TS and node time at the last B (R319), the same for every controller. -/
structure TsRef where
  /-- CK_TB instant at which TS stood at 0 (R318). -/
  zero : Nat := 0
  count : Word := 0
  tai : Nat := 0
  deriving DecidableEq, Repr

end Sys2Proof.Machine
end

