-- ==== Sys2Proof/Machine/State/Alarms.lean ====
section
/-! DEFINITION. State of the alarm engine (08) and of the duty engineer call (09). -/

namespace Sys2Proof.Machine

/-- Alert states (08 Table 08.7). -/
inductive AlertState where
  | normal
  | actUnack
  | actSilenced
  | actAck
  | actTransferred
  | rectUnack
  deriving DecidableEq, Repr

/-- One alarm point (08 R167 to R189, 09 R200, R206). -/
structure Point where
  raw : Bool := false
  cond : Bool := false
  active : Bool := false
  state : AlertState := .normal
  held : Bool := false
  supp : Bool := false
  shelved : Bool := false
  cfgErr : Nat := 0
  disabled : Bool := true
  time : Nat := 0
  runStart : Nat := 0
  onCnt : Nat := 0
  offCnt : Nat := 0
  /-- QUAL at the last activation. -/
  qual : Nat := 0
  /-- Last W + 1 unheld results and their carried instants, newest first (R172). -/
  roc : List (Int × Nat) := []
  /-- Frames left of the silence timer and of shelving. -/
  silLeft : Nat := 0
  shelLeft : Nat := 0
  /-- S of the frame in which suppression last ended, where it ever did (R174). -/
  suppEnd : Option Nat := none
  /-- Call age and frames since the transfer (09 R200, R206). -/
  age : Nat := 0
  xfr : Nat := 0
  /-- The transfer was applied since the last evaluation: its frame does not count. -/
  xfrNew : Bool := false
  /-- The transfer has run out: the point calls again (09 R206). -/
  again : Bool := false
  /-- Its fields, or its channel's configuration, have changed since the reset: CFG_ERR is judged afresh (R175). -/
  checked : Bool := false
  /-- S of the frames in which its shelving last ended by expiry and in which a CAN or bridge command last changed it
  (Table 08.13, as the other module of a pair tells of them). -/
  expiredAt : Option Nat := none
  /-- S of the frame of its last new activation (R183): its ALF carries TIME (14 R337). -/
  entered : Option Nat := none
  remoteAt : Option Nat := none
  deriving DecidableEq, Repr

/-- A first-out or a candidate for it (08 R190). -/
structure FirstOut where
  qual : Nat
  time : Nat
  point : Nat
  node : Nat
  remote : Bool
  deriving DecidableEq, Repr

/-- One group (08 R181, R190 to R193). -/
structure AlmGroup where
  suppressing : Bool := false
  /-- Frames passed since the last frame in which the source was true; none: never since the configuration (R181). -/
  passed : Option Nat := none
  /-- The suppression's configuration has taken effect and its source has not been readable since (R181). -/
  fresh : Bool := false
  /-- Every local member was NORMAL in the last frame (R193). -/
  allNormal : Bool := true
  fo : Option FirstOut := none
  stable : Bool := false
  uncert : Bool := false
  /-- T_R. -/
  reset : Nat := 0
  /-- Frames since the last first-out change; none: no change yet. -/
  since : Option Nat := none
  deriving DecidableEq, Repr

/-- A remote first-out candidate waiting for its frame (08 R192). -/
structure RemoteFo where
  /-- Frame in which its reception ended. -/
  tag : Nat
  srcGroup : Nat
  cand : FirstOut
  deriving DecidableEq, Repr

/-- One call station (09 R198, Table 09.3). -/
structure Station where
  /-- LINK: 0 unconfigured, 1 UP, 2 LOST. -/
  link : Nat := 0
  missed : Nat := 0
  replies : Nat := 0
  awaiting : Bool := false
  ind : Nat := 0
  /-- The indication has changed and is to be sent (R198). -/
  due : Bool := false
  /-- NODE_DOWN is what the station was told last (R212). -/
  down : Bool := false
  /-- KSEQ of the last key applied (14 R333). -/
  kseq : Option Nat := none
  deriving DecidableEq, Repr

/-- Engineer-alone watch (09 Table 09.2). -/
inductive Watch where
  | off
  | running
  | prewarn
  | alarm
  deriving DecidableEq, Repr

/-- The call (09 R199 to R212). -/
structure Call where
  stage : Nat := 0
  floor : Nat := 1
  /-- FLOOR of the next frame (R203). -/
  floorNext : Nat := 1
  accSrc : Nat := 0
  accValid : Bool := false
  watch : Watch := .off
  /-- Frames since the last reset in the present watch state. -/
  watchCnt : Nat := 0
  /-- The watch was reset or started since the last evaluation: its frame does not count. -/
  watchNew : Bool := false
  brLost : Bool := false
  /-- CK_TB instant of the last HBT. -/
  lastHbt : Option Nat := none
  summary : Bool := false
  oldest : Nat := 0
  oldestAge : Nat := 0
  ncall : Nat := 0
  nxfr : Nat := 0
  deriving DecidableEq, Repr

/-- What the alarm engine counts for the ALM page (08 Table 08.11). -/
structure AlmCounts where
  cmdCnt : Nat := 0
  /-- What ALM_CMD_CNT takes when the command in progress ends (R186). -/
  next : Option Nat := none
  active : Nat := 0
  unack : Nat := 0
  shelved : Nat := 0
  supp : Nat := 0
  deriving DecidableEq, Repr

end Sys2Proof.Machine
end

