-- ==== Sys2Proof/Machine/State/Safety.lean ====
section
/-! DEFINITION. State of the trip fabric, the safety inputs, functions and outputs (10_safety_functions). -/

namespace Sys2Proof.Machine

/-- One copy of the trip fabric (10 R215 to R221). -/
structure FabCopy where
  /-- Trip latches, one bit a function (reset all ones, SAF_LATCH). -/
  latch : BitVec 64 := BitVec.allOnes 64
  /-- Latches and fast demands as captured at the last B (R220). -/
  capL : BitVec 64 := BitVec.allOnes 64
  capD : BitVec 64 := 0
  /-- Check value over the fabric image equals the commit's (SAF_FAB_CPY.CRC_OK). -/
  crcOk : Bool := false
  /-- Consecutive frames in which this copy differed from the other two (R220). -/
  dis : Nat := 0
  /-- Agreed in the last frame (SAF_FAB_CPY.AGREE). -/
  agree : Bool := false
  excluded : Bool := false
  deriving DecidableEq, Repr

/-- One copy's evaluator of one safety input pair (10 R223 to R226). Instants are CK_TB. -/
structure Evaluator where
  /-- Instant the present discrepancy began. -/
  disSince : Option Nat := none
  /-- Instant it ended, where no tick has yet seen the end (R224). -/
  agreeAt : Option Nat := none
  discFlt : Bool := false
  /-- Tick at which DISC_FLT latched. -/
  discAt : Nat := 0
  safeSeen : Bool := false
  stupOk : Bool := false
  /-- Instant of the last event that took STUP_OK away (R226). -/
  stupAt : Nat := 0
  /-- Instant since which both channels have been in their safe states. -/
  safeSince : Option Nat := none
  deriving DecidableEq, Repr

/-- What the lanes keep of one safety input pair: the votes captured at B (R222) and the instant of SIN_T. -/
structure PairSt where
  permit : Bool := false
  discFlt : Bool := false
  safeSeen : Bool := false
  stupOk : Bool := false
  a : Bool := false
  b : Bool := false
  dcnt : Nat := 0
  /-- Voted PERMIT as it stands, and TAI instant of its last change (SIN_T). -/
  live : Bool := false
  time : Nat := 0
  deriving DecidableEq, Repr

/-- States of a safety function (SAF_SF_ST.STATE). -/
inductive SfState where
  | off
  | locked
  | tripped
  | ready
  | active
  deriving DecidableEq, Repr

/-- One safety function as the lanes hold it (10 R222, R234 to R240). -/
structure SafetyFn where
  state : SfState := .off
  /-- SAF_SF_ST.CAUSE (Table 10.8), reset 12. -/
  cause : Nat := 12
  slow : Bool := false
  /-- DEMAND of the last evaluation. -/
  dem : Bool := false
  /-- SAF_SF_T. -/
  time : Nat := 0
  /-- TAI instant at which the second copy's latch set (R240). -/
  fastT : Nat := 0
  /-- The latch clear of R235 waits for the next B. -/
  clearPend : Bool := false
  /-- Reset channel: the last frame's result where its status was VALID, and the carried instants of the first and the
  last result of the present run of 1 (R236). -/
  chPrev : Option Bool := none
  chFirst : Option Nat := none
  chLast : Nat := 0
  fbWait : Bool := false
  stupWait : Bool := false
  deriving DecidableEq, Repr

/-- What an output's switches do (10 R228): off, waiting for the energisation test of this B, in the test, conducting. -/
inductive OutPhase where
  | off
  | due
  | testing
  | on
  deriving DecidableEq, Repr

/-- One safety output (10 R227 to R233). Instants are CK_TB. -/
structure Output where
  phase : OutPhase := .off
  /-- Switches as they stood at the last B or event. -/
  hs : Bool := false
  ls : Bool := false
  /-- The voted lane command applied at the last B, and the one the lanes have computed for the next. -/
  cmd : Bool := false
  next : Bool := false
  /-- Start of the energisation test. -/
  etStart : Nat := 0
  /-- A pulse is running; its switch is the low side; it ends at pulseEnd, which stays after the end. -/
  pulse : Bool := false
  pulseLs : Bool := false
  pulseEnd : Nat := 0
  /-- A pulse has failed, and its verdict stands once no demand has come within 50 us after it (R231). -/
  verdict : Bool := false
  soFlt : Bool := false
  fltCode : Nat := 0
  /-- Instant of the last fault the monitor of R229 found. -/
  monAt : Nat := 0
  fbFlt : Bool := false
  fbSeen : Bool := false
  /-- Expected feedback: operated; instant of its last change; instant since which the feedback has not met it. -/
  expect : Bool := false
  expectAt : Nat := 0
  misSince : Option Nat := none
  vplus : Nat := 0
  vminus : Nat := 0
  cur : Nat := 0
  passed : Nat := 0
  last : Nat := 0
  nextLs : Bool := false
  /-- Instant the next pulse is due. -/
  nextDue : Option Nat := none
  /-- CK_TB instant: the first B from it on begins the pulse of a commanded SO_TEST (R230). -/
  soTest : Option Nat := none
  /-- The running pulse was given by the command in progress. -/
  byCmd : Bool := false
  /-- Energised by a take of the claim: the first pulse of each switch is due at once (R239). -/
  quick : Bool := false
  deriving DecidableEq, Repr

/-- A supply of the safety outputs (SOUT_VS). -/
structure VSupply where
  volt : Nat := 0
  low : Bool := false
  deriving DecidableEq, Repr

/-- The safety part of the node (10). -/
structure Safety where
  copy0 : FabCopy := {}
  copy1 : FabCopy := {}
  copy2 : FabCopy := {}
  /-- Key copy * 256 + pair. -/
  evals : Tbl Evaluator := []
  pairs : Tbl PairSt := []
  fns : Tbl SafetyFn := []
  outs : Tbl Output := []
  vs : Tbl VSupply := []
  /-- Feedback inputs: FB_VAL (R233). -/
  fb : Tbl Bool := []
  /-- SAF_FAB_CRC. -/
  fabCrc : Word := 0
  /-- Node demand (SAF_STAT.NODE_DEM). -/
  nodeDem : Bool := false
  /-- The module drove its outputs at the last B. -/
  drove : Bool := true
  failed : Bool := false
  /-- Functions of a reset commanded by the host, taken up at the last B (R236). -/
  resets : Option (List Nat) := none
  /-- Copy the next fabric test walks (R220). -/
  testCopy : Nat := 0
  deriving DecidableEq, Repr

end Sys2Proof.Machine
end

