-- ==== Sys2Proof/Machine/State/Duplex.lean ====
section
/-! DEFINITION. State of the duplex claim logic and the cross-links (12_duplex_pairs). -/

namespace Sys2Proof.Machine

/-- Drive states (DPX_STAT.DRIVE). -/
inductive Drive where
  | off
  | on
  | clamp
  deriving DecidableEq, Repr

/-- One claim line: DPX_LINES fields and the last three frames in which the partner showed itself (12 R278, R279).
Results: 0 WON, 1 LOST, 2 FAULT. -/
structure ClaimLine where
  pres : Bool := false
  hist : Nat := 0
  oCode : Nat := 0
  oRes : Nat := 0
  tCode : Nat := 0
  tRes : Nat := 0
  deriving DecidableEq, Repr

/-- A cross-link (12 R295). -/
structure XLink where
  phy : Bool := false
  /-- A message, good or bad, has come in the frame; frames in a row without one. -/
  heard : Bool := false
  quiet : Nat := 0
  up : Bool := false
  /-- A good heartbeat of the frame has come. -/
  got : Bool := false
  badRun : Nat := 0
  goodRun : Nat := 0
  bad : Nat := 0
  miss : Nat := 0
  delay : Nat := 0
  deriving DecidableEq, Repr

/-- The fields of a heartbeat, 48 bytes as Table 12.5 lays them out (12 R281). -/
structure HbHead where
  frame : Nat := 0
  oclaim : Nat := 0
  tclaim : Nat := 0
  posA : Bool := false
  ohold : Bool := false
  thold : Bool := false
  take : Bool := false
  seen : Bool := false
  plost : Bool := false
  yield_ : Bool := false
  synced : Bool := false
  drive : Nat := 0
  lines : Nat := 0
  lstate : Nat := 0
  check : Word := 0
  fw : Nat := 0x0100
  inrole : Nat := 0
  stime : Nat := 0
  deriving DecidableEq, Repr

/-- One channel of the partner's results (12 R290, R291): channel, value before scaling in the trim unit, published value and
status byte; of an AI_RTD the measured excitation current, nA, 0 where none has been measured (Table 12.8). -/
structure PeerResult where
  ch : Nat
  x : Int
  val : Int
  stat : Nat
  exc : Int := 0
  deriving DecidableEq, Repr

/-- The state exchanged after a heartbeat in the same frame, whose layout is internal to the pair (12 R281; 06 R142, 08 R188,
09 R212, 10 R239). -/
structure PeerState where
  /-- NODE_ADDR of the sender. -/
  addr : Nat := 253
  /-- Frame period, ns (R274). -/
  period : Nat := 1000000
  /-- READY ranks that are not FAULTY, one bit a rank (R289). -/
  ready : Nat := 0
  results : List PeerResult := []
  /-- Setpoints taken up: channel and value. -/
  sets : List (Nat × Nat) := []
  points : Tbl Point := []
  groups : Tbl AlmGroup := []
  remoteFos : List RemoteFo := []
  call : Call := {}
  stations : Tbl Station := []
  duty : Nat := 31
  fns : Tbl SafetyFn := []
  pairs : Tbl PairSt := []
  souts : Tbl Output := []
  deriving DecidableEq, Repr

/-- The partner's heartbeat with the state that followed it. -/
structure Heartbeat extends PeerState where
  head : HbHead := {}
  deriving DecidableEq, Repr

/-- Comparison of one channel with the partner's result (12 R291). -/
structure PairCmp where
  run : Nat := 0
  agree : Nat := 0
  set : Bool := false
  deriving DecidableEq, Repr

/-- The duplex part of the node (12). -/
structure Duplex where
  /-- POS strap: false A, true B. -/
  posB : Bool := false
  drive : Drive := .off
  ohold : Bool := false
  thold : Bool := false
  tenureO : Nat := 0
  tenureT : Nat := 0
  /-- Numbers of the frames at the last two boundaries. -/
  lastFrame : Nat := 0
  prevFrame : Nat := 0
  /-- Claim numbers sent in the last arbitrations, and the frames of these. -/
  claim : Nat := 0
  tclaim : Nat := 0
  arbO : Option Nat := none
  arbT : Option Nat := none
  pclaim : Nat := 0
  ptclaim : Nat := 0
  lineA : ClaimLine := {}
  lineB : ClaimLine := {}
  /-- Frames whose heartbeat carried this module's TAKE (R283). -/
  takes : List Nat := []
  /-- Frames whose heartbeat showed the partner's TAKE. -/
  seen : List Nat := []
  /-- Node address of the position-A module, as exchanged. -/
  addrA : Option Nat := none
  /-- The partner's heartbeat as last received. -/
  hb : Option Heartbeat := none
  /-- Frame for which the heartbeat check has been made (R282). -/
  checked : Option Nat := none
  consecMiss : Nat := 0
  consecRx : Nat := 0
  missed : Nat := 0
  plost : Bool := false
  peer : Bool := false
  /-- Consecutive frames with the holder's heartbeat and state (R287). -/
  syncRun : Nat := 0
  synced : Bool := false
  /-- It was SYNCED at the check before the present run of missed heartbeats (R283, R288). -/
  wasSynced : Bool := false
  inelig : Nat := 1
  /-- Frame and CK_TB instant of the last entry to CLAMP. -/
  clampFrame : Nat := 0
  clampAt : Nat := 0
  /-- DPX_CMD HANDOVER in progress: CK_TB instant of its acceptance; YIELD; the frame at whose B the stages steered off. -/
  handover : Option Nat := none
  yield_ : Bool := false
  handB : Option Nat := none
  /-- Ranks carried, ranks released and not yet taken by the partner, ranks the partner has been seen to carry. -/
  carried : Nat := 0
  released : Nat := 0
  pHad : Nat := 0
  /-- Ranks a CARRY names, and the CK_TB instant from which on the first B takes it up. -/
  carry : Option (Nat × Nat) := none
  /-- Frames in which A's rank r has not been READY. -/
  notReady : Tbl Nat := []
  swOut : Nat := 0
  swTime : Nat := 0
  swCause : Nat := 0
  /-- TAI of the B of the last output change. -/
  swT : Nat := 0
  pmm : Tbl PairCmp := []
  x0 : XLink := {}
  x1 : XLink := {}
  deriving DecidableEq, Repr

end Sys2Proof.Machine
end

