-- ==== Sys2Proof/Machine/State/Host.lean ====
section
/-! DEFINITION. State of the page headers, commands, interrupts, the management processor and the mirror
(02_host_interface), and of the recorder (15_event_recorder). -/

namespace Sys2Proof.Machine

/-- The header of one page (02 Tables 02.6 to 02.9), but for what each path has of its own. -/
structure Header where
  /-- PAGE_CTRL (Table 02.6). -/
  ctrl : Word := 0
  /-- PAGE_STAT.HOLD_EXP. -/
  holdExp : Bool := false
  /-- LOCK.LOCKED (R42). -/
  locked : Bool := false
  irqStat : Word := 0
  irqEn : Word := 0
  /-- SEQ_DEV.DSEQ (R46). -/
  dseq : BitVec 16 := 0
  deriving DecidableEq, Repr

/-- What a path has of its own on one page (16 R375): HSEQ, ECHO and CMD_RES. -/
structure PathSeq where
  hseq : BitVec 16 := 0
  echo : BitVec 16 := 0
  /-- Table 02.10. -/
  cmdRes : Nat := 0
  deriving DecidableEq, Repr

/-- An accepted command in progress on a page (R44, R45). -/
structure Command where
  path : Nat
  off : Nat
  value : Word
  hseq : BitVec 16
  /-- How it will end: some true DONE, some false FAILED, none while undecided. -/
  result : Option Bool
  /-- CK_TB instant of its acceptance, and the instant before which it does not end (16 R369, R371; 02 Table 02.12). -/
  since : Nat := 0
  notBefore : Nat := 0
  /-- The lanes take its effect up at a B, so it ends at a RESULT_READY; that RESULT_READY has come (R45). -/
  lanes : Bool := false
  shown : Bool := false
  /-- Parameters taken at the acceptance where a later instant needs them (R43). -/
  params : List Nat := []
  deriving DecidableEq, Repr

/-- What the lanes take up at a boundary (R45), with the parameters the command took at its write (R43). -/
inductive LaneAct where
  | alm (op tgt index arg : Nat)
  | call (op : Nat)
  | duty (e : Nat)
  | lane (v : Word)
  | acqClear
  /-- RNK_CMD of a rank, and DPX_CMD CLEAR: their counters clear. -/
  | rnkClear (r : Nat)
  | dpxClear
  /-- An RWL parameter takes its value; an RWS parameter is staged; the account and HSEQ of the write, for its log entry. -/
  | param (key : Nat) (v : Word) (account : Nat) (hseq : BitVec 16)
  | stage (key : Nat) (v : Word) (account : Nat) (hseq : BitVec 16)
  /-- TB_CMD STEP, and SET_TOD with its TAI and the CK_TB instant of its acceptance (03 R63, R71). -/
  | tbStep
  | setTod (tai since : Nat)
  /-- SAF_CMD RESET, RESET_ALL and SO_TEST with their function or output (10 Table 10.11). -/
  | saf (op i : Nat)
  /-- REC_CMD CAP_TRIG of a capture definition (15 R355). -/
  | capTrig (d : Nat)
  /-- NODE_CTRL GOTO, by the state's code (17 R389). -/
  | goto (st : Nat)
  /-- LCH_CMD with its parameters (03 R79). -/
  | launch (op entry tgt : Nat) (act arg : Word)
  deriving DecidableEq, Repr

/-- A command that waits for its boundary (R45). -/
structure Waiting where
  /-- CK_TB instant 5 us after its acceptance: the first B at or after it takes the command up. -/
  due : Nat
  page : Nat
  act : LaneAct
  deriving DecidableEq, Repr

/-- The state of one MSI-X vector (R40): its table entry's message address and data words and mask (Table 02.1, BAR4), its
PBA bit and the condition last seen. -/
structure Vector_ where
  addr : Nat := 0
  data : Word := 0
  masked : Bool := true
  pending : Bool := false
  cond : Bool := false
  deriving DecidableEq, Repr

/-- Management processor states (Table 02.13, MGT_STATE.STATE). -/
inductive MpState where
  | boot
  | run
  | stopped
  | resetting
  deriving DecidableEq, Repr

/-- The management processor (R55, R57) and the bad-access capture (R38). -/
structure Mgt where
  state : MpState := .boot
  /-- MGT_STATE.WDOG. -/
  wdog : Bool := false
  restarts : Nat := 0
  /-- Percent, as last measured (R55). -/
  load : Nat := 0
  peak : Nat := 0
  dram : Nat := 0
  shed : Nat := 0
  /-- It has been in RUN since the node reset. -/
  booted : Bool := false
  /-- CK_TB instant it last left RUN, or of the node reset: what its registers show stays as at it (01 R18). -/
  downAt : Nat := 0
  /-- CK_TB instant of the last rise of the shed level. -/
  lastRaise : Option Nat := none
  /-- CK_TB instant since which the load has stayed at or below 70 %. -/
  lowSince : Option Nat := none
  /-- MGT_BADACC and MGT_BADACC_CNT (R38). -/
  badAcc : Word := 0
  badCnt : Nat := 0
  deriving DecidableEq, Repr

/-- The result mirror (R51 to R54) and the PCI Express link (R34). -/
structure Mirror where
  /-- MGT_MIRR_HEAD. -/
  head : Word := 0
  /-- Frame number of the newest block; none before the first. -/
  last : Option Nat := none
  /-- The next block carries FLAGS.GAP (R52, R72, R74): a published frame was not written, or a step or a change of period
  fell between. -/
  gap : Bool := false
  /-- MGT_MIRR_CTRL, _HADDR, _HSIZE in effect since the last voted boundary (R54). -/
  hostEn : Bool := false
  haddr : Nat := 0
  hsize : Nat := 16
  /-- The link stands in L0 (R34). -/
  linkUp : Bool := true
  deriving DecidableEq, Repr

/-- The endpoint's configuration space as the host has written it (Table 02.1, 17 R397). But for Bus Master Enable no
function of the node depends on it (R34). -/
structure Endpoint where
  /-- Bus Master Enable (R34): the spec gives no reset value, and the model takes 0 at State.reset and after PERST_N (DESIGN
  CHOICE, log entry 79). -/
  busMaster : Bool := false
  memSpace : Bool := false
  bar0 : Nat := 0
  bar2 : Nat := 0
  bar4 : Nat := 0
  /-- Power state D3hot; else D0. -/
  d3hot : Bool := false
  /-- MSI-X Enable. -/
  msixEn : Bool := false
  /-- Advanced Error Reporting status words: the node sends no error message (R38). -/
  aerUnc : Word := 0
  aerCor : Word := 0
  deriving DecidableEq, Repr

/-- A record before Scarab stages it (15 Table 15.1): all that its origin gives. -/
structure Rec where
  typ : Nat
  /-- ORIGIN, Table 15.2. -/
  origin : Nat
  page : Nat
  time : Nat
  payload : List Byte
  /-- CONT (captures only). -/
  cont : Bool := false
  /-- Change log slot whose RSEQ this record gives (16 Table 16.3). -/
  logSlot : Option Nat := none
  /-- Capture definition a capture record belongs to. -/
  cap : Option Nat := none
  /-- Last RSEQ to remove, in the CLEAR record of a clearing (R359). -/
  clearTo : Option Nat := none
  deriving DecidableEq, Repr

/-- A staged record: RSEQ, LINK and CRC are given at staging (R347). -/
structure SRec where
  rseq : Nat
  link : Nat
  crc : Nat
  /-- FLAGS at staging (Table 15.2). -/
  flags : Nat
  mram : Bool := false
  body : Rec
  deriving DecidableEq, Repr

/-- What OVERRUN will report (R353). -/
structure Overrun where
  records : Nat := 0
  bytes : Nat := 0
  first : Nat := 0
  last : Nat := 0
  captures : Nat := 0
  deriving DecidableEq, Repr

/-- REC_STAT.STORE. -/
inductive Store where
  | flash
  | mram
  | none
  deriving DecidableEq, Repr

/-- REC_CAP_ST.STATE. -/
inductive CapState where
  | idle
  | armed
  | capturing
  | done
  | aborted
  deriving DecidableEq, Repr

/-- One channel slot of a capture definition: the ring of the rank's output-rate stream and the samples taken
since the trigger (R354, R355). Each sample is the value and the status byte. -/
structure CapSlot where
  ring : List (Int × Nat) := []
  /-- Samples held at the trigger (PRE). -/
  pre : Nat := 0
  /-- Samples of the capture not yet staged, oldest first. -/
  buf : List (Int × Nat) := []
  /-- Samples from sample 0 on that had left the ring when the trigger was detected (log entry 106). -/
  skip : Nat := 0
  /-- Samples staged. -/
  sent : Nat := 0
  deriving DecidableEq, Repr

/-- A capture definition's state (R354, R355). -/
structure Capture where
  state : CapState := .idle
  parts : Nat := 0
  capid : Nat := 0
  trigT : Nat := 0
  slots : Tbl CapSlot := []
  /-- Next PART number. -/
  nextPart : Nat := 1
  deriving DecidableEq, Repr

/-- REC_TOKEN (R359). -/
structure Token where
  value : Word
  /-- CK_TB instant at which it lapses. -/
  deadline : Nat
  path : Nat
  deriving DecidableEq, Repr

/-- Scarab (15 R345 to R365, R435). -/
structure Recorder where
  nextRseq : Nat := 1
  /-- RSEQ of the newest record staged (REC_LAST). -/
  lastRseq : Nat := 0
  /-- CRC field of the record staged last: the next LINK. -/
  lastCrc : Nat := 0
  /-- Records of other origins that have reached Scarab and are not yet staged (R351). -/
  waiting : List Rec := []
  /-- Lane records of the frame under evaluation. -/
  laneRecs : List Rec := []
  /-- The records of the frame under way have been staged: a record of another origin is staged as it arrives (R351). -/
  frameStaged : Bool := false
  /-- Staged and not committed, oldest first. -/
  staging : List SRec := []
  flash : List SRec := []
  mram : List SRec := []
  ready : Bool := false
  store : Store := .flash
  mramOk : Bool := true
  /-- Instant a freeze began and the instant it ends at the latest (R356). -/
  frozen : Option (Nat × Nat) := none
  loss : Bool := false
  wear : Nat := 0
  /-- Segments erased (R360). -/
  erases : Nat := 0
  segs : Nat := 8192
  retired : Nat := 0
  disc : Nat := 0
  overrun : Option Overrun := none
  token : Option Token := none
  /-- What the CLEAR whose record has been staged or discarded ends with, until its command takes it over (R359). -/
  clearDone : Option Bool := none
  rdValid : Bool := false
  /-- The READ in progress: FROM, REC_P_MAX and REC_COMMIT as it was accepted (R357). -/
  rdReq : Option (Nat × Nat × Nat) := none
  /-- The read buffer of BAR2 (15 R357, 02 Table 02.3): its bytes from the first on; the bytes after them read 0. -/
  readBuf : List Byte := []
  /-- CK_TB instants of the records staged in the last second, newest first; and their greatest number since the last read of
  REC_RATE (Table 15.7). -/
  stagedAt : List Nat := []
  ratePeak : Nat := 0
  caps : Tbl Capture := []
  /-- Records lost at the last power loss: first and last RSEQ (R363). -/
  lost : Option (Nat × Nat) := none
  /-- Highest RSEQ ever committed and CRC of that record, kept for LINK (R363). -/
  committed : Nat := 0
  deriving DecidableEq, Repr

end Sys2Proof.Machine
end

