-- ==== Sys2Proof/Machine/State/Lanes.lean ====
section
/-! DEFINITION. State of the three lanes, their votes, exclusions and reintegration (11_lanes_and_voting). -/

namespace Sys2Proof.Machine

/-- One lane (11 R248 to R272, Table 11.9). -/
structure Lane where
  /-- LANE_Ln.PHASE (Table 11.6). -/
  phase : Nat := 1
  cause : Nat := 0
  /-- CK_TB instants of the failed attempts (R266). -/
  attempts : List Nat := []
  /-- Consecutive frames in which the lane disagreed at all (R253), in its digest or vector, with its boundary excluded,
  and without its message. -/
  disagree : Nat := 0
  dig : Nat := 0
  bnd : Nat := 0
  missing : Nat := 0
  /-- Its boundary was excluded from the last boundary vote (R24). -/
  bx : Bool := false
  /-- Consecutive frames in which it received no good message (Table 11.5, ISOLATED). -/
  iso : Nat := 0
  /-- The lane asks for its exclusion, with this cause; its message carries the request (R254). -/
  request : Option Nat := none
  carried : Bool := false
  /-- Its watchdog has expired (R262). -/
  wdog : Bool := false
  /-- LANE_CMD EXCLUDE: the frame that takes it up. -/
  host : Option Nat := none
  /-- Its self-test has passed and it waits for a boundary (R263). -/
  tested : Bool := false
  /-- Passed shadow frames (R265). -/
  shadow : Nat := 0
  /-- Slices of the transfer received, frames since its first, and CK_TB instant of its first (R264). -/
  slices : Nat := 0
  sliceFrames : Nat := 0
  sliceAt : Nat := 0
  /-- LANE_MEM. -/
  ce : Nat := 0
  ue : Nat := 0
  pass : Nat := 0
  /-- LANE_RLF: one bit a rank. -/
  rlf : Nat := 0
  /-- CK_TB instant at which its present phase began (R263). -/
  since : Nat := 0
  /-- Digest that it sent in the last frame voted on (R257). -/
  sent : Option Nat := none
  /-- Every other voting lane requested its reset in the last frame: it sends nothing (R262). -/
  held : Bool := false
  /-- Words corrected in its last two scrub passes, the newer first (R269). -/
  scrub1 : List Nat := []
  scrub2 : List Nat := []
  /-- A word was corrected in 3 consecutive passes: a hard fault of its SRAM, which the lane's reset does not mend and its self-test
  finds (R269). -/
  hard : Bool := false
  /-- CK_TB instant of its last exchange message (R262). -/
  lastMsg : Option Nat := none
  deriving DecidableEq, Repr

/-- One lane-to-lane link (LANE_LINK). -/
structure LaneLink where
  up : Bool := false
  bad : Nat := 0
  good : Nat := 0
  err : Nat := 0
  deriving DecidableEq, Repr

/-- An element of a lane's frame image: area (11 Table 11.3), number within the area, and content. The layout of an area is
internal to the lanes (R252). -/
structure ImagePart where
  area : Nat
  elem : Nat
  bytes : List Byte
  deriving DecidableEq, Repr

/-- LSTATE of an exchange message (11 Table 11.2). -/
structure LState where
  /-- Member mask that the sender proposes for the next frame, and the survivor where the mask names one lane. -/
  members : Nat := 7
  surv : Nat := 0
  /-- The sender's own exclusion request, with its cause (R254). -/
  request : Option Nat := none
  /-- Reset requests for the other lanes, one bit a lane. -/
  resets : Nat := 0
  deriving DecidableEq, Repr

/-- What IDENT finds (11 R257): the digest recomputed over the stored image, the static tables against their committed
values, no self-check failure. -/
structure Ident where
  digest : Nat
  tables : Bool
  self : Bool
  deriving DecidableEq, Repr

/-- What one lane sends in the output exchange (11 Table 11.2), with the frame image it stands for: DIGEST is the CRC-64 of
the image and VECTOR its areas 7, 8 and 11. -/
structure ExchMsg where
  lane : Nat
  /-- Frame number of the header. -/
  frame : Nat
  /-- Its CRC-32C and its length are good. -/
  good : Bool := true
  image : List ImagePart := []
  /-- DIGEST as sent, where that is not the CRC-64 of the image. -/
  wrong : Option Nat := none
  /-- RELAY: lane and digest, for the lanes heard. -/
  relay : List (Nat × Nat) := []
  lstate : LState := {}
  /-- The lane marks its message and its commands of the frame invalid (R254). -/
  invalid : Bool := false
  /-- IDENT, after an unresolved frame. -/
  ident : Option Ident := none
  deriving DecidableEq, Repr

/-- The lane state that a vote names for the next frame (R259). -/
structure NextLanes where
  state : Nat
  mask : Nat
  surv : Nat
  announced : Bool
  /-- Member mask and survivor that the majority of the valid copies names to the receivers (R255). -/
  counted : Nat
  countedSurv : Nat
  deriving DecidableEq, Repr

/-- The lanes as a whole (11). -/
structure LaneSt where
  /-- Table 11.4: 0 TMR, 1 DUAL, 2 SINGLE, 3 NONE. -/
  state : Nat := 3
  /-- Voting lanes, one bit a lane. -/
  mask : Nat := 0
  surv : Nat := 0
  announced : Bool := false
  /-- Member mask and survivor in force at the receivers, one bit a lane (R255). -/
  counted : Nat := 0
  countedSurv : Nat := 0
  /-- What the last vote names for the frame that the next boundary begins. -/
  next : Option NextLanes := none
  /-- Lanes whose commands of the last voted frame are valid, one bit a lane (R254, R255). -/
  cmds : Nat := 0
  /-- Copies of the frame that agree; 1 for the announced survivor, 0 where no receiver acts (R255). -/
  copies : Nat := 0
  lastUnres : Bool := false
  unres : Nat := 0
  excl : Nat := 0
  /-- Degraded time, ns (R260). -/
  degNs : Nat := 0
  /-- CK_TB instant of the present TMR (R260). -/
  tmrSince : Option Nat := none
  degExp : Bool := false
  /-- LANE_DIFF: lane, area, element; and LANE_DIFF_FRAME. -/
  diff : Option (Nat × Nat × Nat) := none
  diffFrame : Nat := 0
  exclT : Nat := 0
  l01 : LaneLink := {}
  l12 : LaneLink := {}
  l20 : LaneLink := {}
  /-- Exchange messages of the frame: receiver and message. -/
  msgs : List (Nat × ExchMsg) := []
  /-- The input exchange and the boundary of the frame have happened; its evaluation is done; its vote is held; it is
  resolved; the counted result images agree; RESULT_READY has come. -/
  inDone : Bool := false
  bDone : Bool := false
  evalDone : Bool := false
  voted : Bool := false
  resolved : Bool := false
  imagesOk : Bool := false
  ready : Bool := false
  deriving DecidableEq, Repr

end Sys2Proof.Machine
end

