-- ==== Sys2Proof/Syntax.lean ====
section
/-! DEFINITION. The commands of the block: one constructor per row of spec/opcode_table.json. The first operand of each
is, or names in its field `t`, the CK_TB instant of the command in ns (log entry 1). -/

namespace Sys2Proof

open Machine (ExchMsg PeerState CanFrame Endpoint)

/-- What a rank measures of one channel at S (04, 05, 06, 07). -/
structure ChSample where
  ch : Nat
  /-- Filtered value the rank delivers in this frame, trim unit of 05 Table 05.5 before lead correction; it describes
  S - d F. DI modes: loop current at S, 0.1 uA. AI_RTD on an observing rank: HI - SN over the nominal current (12 Table 12.8). -/
  raw : Int := 0
  /-- Readback conversion at S, same unit (07 R155); AO modes 0.1 uA. -/
  rb : Int := 0
  /-- Terminals against GC at S, mV (04 R90). -/
  ex : Int := 0
  hi : Int := 0
  lo : Int := 0
  sn : Int := 0
  /-- AO modes: the pass stage or the store is unable to hold the rail (06 R138). -/
  unable : Bool := false
  /-- V_HI at S, 10 mV, and junction temperature, 0.1 degree C (06 R135, R139). -/
  vhi : Nat := 0
  tj : Int := 0
  /-- Samples of the output-rate stream since the last S (15 R354): value and status. -/
  stream : List (Int × Nat) := []
  deriving DecidableEq, Repr

/-- What a rank measures of one group at S (04 Table 04.10, 06 R136). -/
structure GroupSample where
  vsup : Nat := 0
  vstore : Nat := 0
  /-- Sum of the currents that its channels draw from the rail (18 Table 18.3), uA. -/
  cur : Nat := 0
  supOk : Bool := true
  isoOk : Bool := true
  cjMc : Int := 0
  cjFlt : Bool := false
  deriving DecidableEq, Repr

/-- What a rank measures of itself at S. -/
structure RankSample where
  rank : Nat
  temp : Int := 0
  g0 : GroupSample := {}
  g1 : GroupSample := {}
  g2 : GroupSample := {}
  g3 : GroupSample := {}
  deriving DecidableEq, Repr

/-- The supplies as the power supervisor measures them (17 Table 17.9): feeds and store 10 mV, powers 0.1 W. -/
structure SupplySample where
  va : Nat := 0
  vb : Nat := 0
  inW : Nat := 0
  loopW : Nat := 0
  holdV : Nat := 0
  deriving DecidableEq, Repr

/-- What the SOUT block measures of one safety output (10 Table 10.13): terminals 10 mV, load current mA. -/
structure SoutSample where
  so : Nat
  vplus : Nat := 0
  vminus : Nat := 0
  cur : Nat := 0
  deriving DecidableEq, Repr

/-- What the node measures at a voted boundary beside what it computes: each lane's own boundary less S, ns (R24);
the fabric copies' differences (10 R219, R220); copies of stage commands that arrived unlike (06 R131). -/
structure BoundaryIn where
  lane0 : Int := 15
  lane1 : Int := 15
  lane2 : Int := 15
  /-- Fabric copies whose check value fails, one bit a copy. -/
  fabCrcBad : Nat := 0
  /-- Fabric copies whose captured state a fault of their own makes differ from both others, one bit a copy. -/
  fabDiff : Nat := 0
  /-- Lane commands of safety outputs that arrived unlike (01 R17, 10 R219): output, lane, the command that reached the block;
  lanes not listed sent the lanes' command. -/
  soCopies : List (Nat × Nat × Option Bool) := []
  /-- Safety outputs measured afresh (10 R245). -/
  souts : List SoutSample := []
  /-- Supplies of the safety outputs measured afresh: supply, 10 mV. -/
  vs : List (Nat × Nat) := []
  /-- Stage copies: channel, lane, code that reached the stage; lanes not listed sent the lanes' command. -/
  copies : List (Nat × Nat × Option Nat) := []
  /-- Supplies, where measured afresh. -/
  supply : Option SupplySample := none
  /-- The cold plate changes by no more than 10 K/h (03 R68). -/
  plateSteady : Bool := true
  deriving DecidableEq, Repr

/-- A Sync and delay exchange with the master heard on one port, and what the messages of that master carry (03 R61, R66). -/
structure PtpExchange where
  port : Nat
  domain : Nat := 0
  p2p : Bool := false
  udp : Bool := false
  /-- The master's data set of the best master clock algorithm of IEEE 1588 as one number, the better the lower. -/
  ds : Nat := 0
  /-- An Announce of it has come since the last exchange. -/
  announce : Bool := true
  /-- Master - node, ns. -/
  offset : Int
  /-- currentUtcOffset where valid. -/
  utc : Option Int := none
  /-- Best master clock algorithm in this node's favour (R84). -/
  bmcaOwn : Bool := false
  deriving DecidableEq, Repr

/-- What a rank measures in a channel's diagnostic slot (07 Table 07.1), by the slot's kind and the mode:
ZERO, REF_H, REF_L and the off-pulse of DI_PAIR: readings of the sigma-delta converter (a) and of the readback converter (b),
in the trim unit of 05 Table 05.5, DI modes 0.1 uA;
EXC: the excitation (a): SUP24 and wetting mV, bridge excitation uV, RTD current nA, AI_TC bias mV with the pull current in
0.1 nA (b);
LEAD: the lead a drop of a 3-wire RTD as a resistance (a), mOhm;
RES: deviation of the two resistors from each other (a), 1e-6;
RB_X: deviation of the sigma-delta converter (a) and of the readback converter (b) from the reference each measures, 1e-6;
CMPDAC: the outputs of the high (a) and the low threshold DAC (b), 1/40960 of the trim unit. -/
structure SlotResult where
  a : Int := 0
  b : Int := 0
  deriving DecidableEq, Repr

/-- An error a CAN controller detects (13 R312 to R317). -/
structure CanErr where
  /-- CAN_LEC code 1 to 6 (Table 13.7). -/
  code : Nat
  dataPhase : Bool := false
  /-- Transmit buffer that sent the frame; none while receiving. -/
  buf : Option Nat := none
  /-- Bit error after the arbitration field (R317). -/
  collision : Bool := false
  /-- Acknowledge error of an error-passive transmitter with no dominant bit in its passive flag (R316). -/
  quiet : Bool := false
  /-- Of the rules of ISO 11898-1 that R312 names: a stuff error during arbitration at a recessive stuff bit; a bit error in the
  receiver's own error or overload flag; a dominant first bit after a receiver's flag; runs of dominant bits after a flag, beyond
  those it allows, of 8 each. -/
  stuffArb : Bool := false
  flagBit : Bool := false
  domFirst : Bool := false
  domRuns : Nat := 0
  deriving DecidableEq, Repr

/-- A Cicada SYNC or FOLLOW, or any node message as a controller delivers it to the engine (14 R324, R327). -/
structure MsgHead where
  ctrl : Nat
  src : Nat
  deriving DecidableEq, Repr

/-- An entry of a RESULT message (14 Table 14.5). -/
structure ResultEntry where
  ch : Nat
  stat : Nat
  dly : Nat
  val : Int
  deriving DecidableEq, Repr

/-- What a module reads of one claim line in an arbitration (12 R277, R279): a fault of Table 12.4 other than CONT, or
the partner's claim number, 0 where it sends none. -/
structure LineSense where
  aCode : Nat := 0
  aPeer : Nat := 0
  bCode : Nat := 0
  bPeer : Nat := 0
  deriving DecidableEq, Repr

/-- A serial or Ethernet port on which a sentence arrived (14 R336, R341). -/
inductive AlertPort where
  | eth (n : Nat)
  | ser (n : Nat)
  deriving DecidableEq, Repr

/-- How a sentence arrived: its port, whether checksum and format are good, and the SFI of its tag block (14 R336). -/
structure RxHead where
  port : AlertPort
  ok : Bool := true
  sfi : Word := 0
  deriving DecidableEq, Repr

/-- A vector's entry of the MSI-X table as the host writes it (02 R38, R40, Table 02.1). -/
structure MsixEntry where
  mask : Bool := false
  /-- Message address, 64 bits, and message data. -/
  addr : Nat := 0
  data : Word := 0
  deriving DecidableEq, Repr

/-- How far a restart of the management processor has come: to BOOT only, or to RUN (02 R57; log entry 86). -/
structure MpRestart where
  t : Nat
  booting : Bool := false
  deriving DecidableEq, Repr

/-- An edge of PPS_IN (03 R63). -/
structure PpsEdge where
  t : Nat
  falling : Bool := false
  deriving DecidableEq, Repr

/-- What a SYNC says of its sender's time: quality and interval code (14 Table 14.2). -/
structure SyncFlags where
  qual : Nat := 0
  int : Nat := 0
  deriving DecidableEq, Repr

/-- What a command sentence of the bridge asks: its letter and the alert's identifier (14 R340). -/
structure AcnAsk where
  letter : Char := 'Q'
  ident : Nat := 0
  deriving DecidableEq, Repr

/-- A request on a management connection that is no WRITE (16 Table 16.2): OP, offset and value as they come. A READ has OP 1 and
value 0. -/
structure MgmtReq where
  op : Nat := 1
  off : Nat
  value : Word := 0
  deriving DecidableEq, Repr

/-- A COMMIT: the path it comes on, and whether the three lanes' check values are equal (16 R377). -/
structure CommitOn where
  path : Nat
  agree : Bool := true
  deriving DecidableEq, Repr

/-- Configuration copies in flash whose check fails at start-up (17 R399). -/
structure CopyFaults where
  a : Bool := false
  b : Bool := false
  deriving DecidableEq, Repr

/-- The commands, in the order of the table. -/
inductive Instr where
  | hostRegisterWrite (t off : Nat) (v : Word)
  | badAccess (t : Nat) (bar2 wr : Bool) (addr : Nat)
  | lockWrite (t page : Nat) (v : Word)
  | irqStatClear (t page : Nat) (v : Word)
  | irqEnWrite (t page : Nat) (v : Word)
  | msixUnmask (t vector : Nat) (e : MsixEntry)
  | pairLowRead (t off : Nat)
  | pairHighWrite (t off : Nat) (v : Word)
  | pairLowWrite (t off : Nat) (v : Word)
  | holdWrite (t page : Nat) (v : Word)
  | holdExpire (t page : Nat)
  | commandEnd (t page : Nat)
  | mgtMpreset (t : Nat)
  | mgtBadclr (t : Nat)
  | mgtLoadRead (t load dram : Nat)
  | mpWatchdogExpire (t : Nat)
  | mpStop (t : Nat)
  | mpRestartDone (r : MpRestart)
  | shedRaise (t load : Nat)
  | shedLower (t load : Nat)
  | mirrorBlockWrite (t : Nat)
  | pcieLinkLoss (t : Nat)
  | pcieLinkReturn (t : Nat) (cfg : Endpoint)
  | perstNAssert (t : Nat)
  | sampleInstant (t : Nat) (chs : List ChSample) (rks : List RankSample)
  | rankTransfer (t lane rank : Nat) (crcOk : Bool) (frame : Nat)
  | inputExchange (t : Nat) (alt : List (Nat × Nat))
  | votedBoundary (t : Nat) (inp : BoundaryIn)
  | outputExchange (t dest : Nat) (msg : ExchMsg)
  | dovetailVote (t : Nat) (image0 image1 image2 : Word) (sliceMiss : Bool)
  | resultReady (t : Nat)
  | ptpMessage (t : Nat) (x : PtpExchange)
  | canSyncReceived (t : Nat) (h : MsgHead) (seq sof : Nat) (q : SyncFlags)
  | canFollowReceived (t : Nat) (h : MsgHead) (seq tai qual : Nat)
  | ppsEdge (e : PpsEdge)
  | zdaReceived (t port utc : Nat)
  | sourceLost (t src : Nat) (announce : Bool)
  | sourceSwitch (t : Nat)
  | acqTimeout (t : Nat)
  | tbStep (t : Nat)
  | tbSetTod (t : Nat)
  | cktbFail (t : Nat)
  | storedTimeWrite (t : Nat)
  | periodChange (t : Nat)
  | syncSend (t : Nat)
  | followSend (t ctrl : Nat)
  | lchArm (t entry : Nat)
  | lchCancel (t entry : Nat)
  | rnkCmdClear (t rank : Nat)
  | comparatorCrossing (t ch : Nat) (sigHi sigLo : Int) (copies : Nat)
  | wireBreakConfirm (t ch : Nat)
  | repairConfirm (t ch : Nat)
  | excitationLimit (t ch : Nat)
  | excitationLimitEnd (t ch : Nat)
  | diagSlot (t : Nat) (results : List (Nat × SlotResult))
  | thermalLimit (t ch : Nat) (on : Bool)
  | aoSetWrite (t ch : Nat) (v : Word)
  | clampTimeout (t : Nat)
  | almAck (t tgt index : Nat)
  | almSilence (t tgt index : Nat)
  | almShelve (t tgt index : Nat)
  | almUnshelve (t tgt index : Nat)
  | almFoReset (t tgt index : Nat)
  | almTransfer (t tgt index : Nat)
  | onDelayExpire (t point : Nat)
  | offDelayExpire (t point : Nat)
  | releaseExpire (t group : Nat)
  | silenceTimerExpire (t point : Nat)
  | shelveExpire (t point : Nat)
  | foStable (t group : Nat)
  | alarmRefresh (t : Nat)
  | alarmMessageReceived (t : Nat) (h : MsgHead) (point group state time qual : Nat) (active refresh : Bool)
  | resultMessageReceived (t : Nat) (h : MsgHead) (sample period qual : Nat) (entries : List ResultEntry)
  | peerStale (t entry : Nat)
  | acqCmdClear (t : Nat)
  | rcmdAck (t : Nat) (h : MsgHead) (dest tgt index rseq : Nat)
  | rcmdSilence (t : Nat) (h : MsgHead) (dest tgt index rseq : Nat)
  | stationPoll (t : Nat)
  | stnReply (t : Nat) (h : MsgHead) (stn : Nat)
  | stnAccept (t : Nat) (h : MsgHead) (stn kseq : Nat)
  | stnSilence (t : Nat) (h : MsgHead) (stn kseq : Nat)
  | stnAck (t : Nat) (h : MsgHead) (stn kseq : Nat)
  | stnWatchReset (t : Nat) (h : MsgHead) (stn kseq : Nat)
  | stnWatchOn (t : Nat) (h : MsgHead) (stn kseq : Nat)
  | stnWatchOff (t : Nat) (h : MsgHead) (stn kseq : Nat)
  | stnDutySet (t : Nat) (h : MsgHead) (stn kseq arg : Nat)
  | callStageEscalate (t point : Nat)
  | transferExpire (t point : Nat)
  | watchPrewarn (t : Nat)
  | watchAlarm (t : Nat)
  | callWatchOn (t : Nat)
  | callWatchOff (t : Nat)
  | callWatchReset (t : Nat)
  | callDuty (t : Nat) (v : Word)
  | bridgeHbtReceived (t : Nat) (rx : RxHead)
  | bridgeLinkLost (t : Nat)
  | alfRepeat (t : Nat)
  | alcSend (t : Nat)
  | hbtSend (t : Nat)
  | acnAck (t : Nat) (rx : RxHead) (ident inst : Nat)
  | acnSilence (t : Nat) (rx : RxHead) (ident inst : Nat)
  | acnTransfer (t : Nat) (rx : RxHead) (ident inst : Nat)
  | acnRequest (t : Nat) (rx : RxHead) (ask : AcnAsk) (inst : Nat)
  | safReset (t fn : Nat)
  | safResetAll (t : Nat)
  | safSoTest (t so : Nat)
  | fabricTest (t : Nat)
  | energisationTest (t so : Nat)
  | energisationTestDone (t so : Nat) (code : Nat)
  | testPulse (t so : Nat)
  | testPulseEnd (t so : Nat) (code : Nat)
  | soMonitorFault (t so : Nat) (ls : Bool) (vplus vminus cur : Nat)
  | soOverload (t so : Nat) (cur : Nat)
  | vsLowChange (t vs volt : Nat)
  | fbSettle (t fb : Nat) (level : Bool)
  | fbTimeout (t so : Nat)
  | discrepancyTimeout (t pair copy : Nat)
  | laneWatchdog (t lane : Nat)
  | laneSelfFault (t lane cause : Nat)
  | scrubPass (t lane : Nat) (words : List Nat) (ue : Nat) (tablesOk : Bool)
  | laneResetEnd (t lane : Nat)
  | laneSelftestDone (t lane : Nat) (ok : Bool)
  | transferTimeout (t lane : Nat)
  | lanesResume (t : Nat)
  | degLimitExpire (t : Nat)
  | degCountReset (t : Nat)
  | laneRetry (t lane : Nat)
  | laneExclude (t lane : Nat)
  | laneClear (t : Nat)
  | outputArbitration (t : Nat) (l : LineSense)
  | timeArbitration (t : Nat) (l : LineSense)
  | presencePulse (t : Nat) (aPres bPres : Bool) (aTerm bTerm : Bool)
  | heartbeatSend (t : Nat)
  | heartbeatReceived (t xl : Nat) (bytes : List Byte) (delay : Nat) (peer : PeerState)
  | heartbeatMiss (t : Nat)
  | dpxHandover (t : Nat)
  | handoverTimeout (t : Nat)
  | dpxCarry (t : Nat)
  | dpxClear (t : Nat)
  | carrierTakeTimeout (t rank : Nat)
  | xlCmdClear (t xl : Nat)
  | canFrameReceived (t ctrl sof : Nat) (f : CanFrame)
  | rdDwellTimeout (t ctrl : Nat)
  | canError (t ctrl : Nat) (e : CanErr)
  | canProtocolException (t ctrl : Nat)
  | canTxComplete (t ctrl buf sof : Nat)
  | canRecoveryDone (t ctrl : Nat)
  | canIntegrationDone (t ctrl : Nat)
  | txdTimeout (t ctrl : Nat)
  | trxFault (t group : Nat)
  | canTxPush (t ctrl : Nat) (v : Word)
  | canRxPop (t ctrl fifo : Nat)
  | canTxcPop (t ctrl : Nat)
  | canCtrlNone (t ctrl : Nat) (txprio : Bool) (retry : Nat)
  | canRecover (t ctrl : Nat) (txprio : Bool) (retry : Nat)
  | canFlush (t ctrl : Nat) (txprio : Bool) (retry : Nat) (intx : Option Nat)
  | canClear (t ctrl : Nat) (txprio : Bool) (retry : Nat)
  | canHeartbeatSend (t : Nat)
  | ethLinkChange (t port : Nat) (up : Bool) (speed : Nat)
  | ethCmdClear (t port : Nat)
  | trendStoppedSend (t : Nat)
  | tlsConnect (t path : Nat)
  | tlsClose (t path : Nat)
  | mgmtRead (t path : Nat) (q : MgmtReq)
  | mgmtWrite (t path off : Nat) (v : Word)
  | arpIcmpRequest (t port : Nat) (echo : Bool) (addr : Nat)
  | serRxLost (t port : Nat)
  | serCmdClear (t port : Nat)
  | recordCommit (t : Nat)
  | overrunRecord (t : Nat)
  | recFreeze (t : Nat)
  | recThaw (t : Nat)
  | freezeExpire (t : Nat)
  | recRead (t : Nat)
  | recToken (t : Nat)
  | recClear (t : Nat)
  | tokenExpire (t : Nat)
  | recCapTrig (t index : Nat)
  | recArm (t index : Nat)
  | recDisarm (t index : Nat)
  | recClearFlags (t : Nat)
  | captureEnd (t index : Nat)
  | recRateRead (t path : Nat)
  | flashFail (t reason : Nat)
  | mramFail (t : Nat)
  | blockRetire (t block : Nat) (spare : Bool)
  | segmentErase (t cycles : Nat)
  | recorderReady (t : Nat) (flashOk mramOk : Bool)
  | cfgOpen (t path : Nat)
  | cfgClose (t path : Nat)
  | cfgChpw (t path : Nat)
  | cfgCommit (t : Nat) (c : CommitOn)
  | cfgDiscard (t path : Nat)
  | cfgAcctSet (t path : Nat)
  | cfgAcctDel (t path : Nat)
  | cfgKick (t path : Nat)
  | cfgUnlock (t path : Nat)
  | cfgConfirm (t path : Nat) (v : Word)
  | lockoutExpire (t account : Nat)
  | sessionTimeout (t path : Nat)
  | confirmWindowExpire (t : Nat)
  | configFlashWrite (t : Nat) (ok : Bool)
  | gotoStandby (t : Nat)
  | gotoConfig (t : Nat)
  | gotoRun (t : Nat)
  | gotoSafe (t : Nat)
  | nodeResetCmd (t : Nat)
  | rstNAssert (t : Nat)
  | powerUp (t : Nat) (feedA feedB : Bool)
  | startupPhaseEnd (t lanesOk : Nat) (bad : CopyFaults) (posB : Bool)
  | rankSelftestDone (t rank code : Nat)
  | rankEnableWrite (t : Nat) (v : Word)
  | feedLost (t : Nat) (feedB : Bool)
  | feedPresent (t : Nat) (feedB : Bool)
  | shutdown (t : Nat)
  | hwdogExpire (t : Nat)
  | nodeKick (t : Nat)
  | trxFltClear (t group : Nat)
  | rstNRelease (t : Nat)
  deriving DecidableEq, Repr

end Sys2Proof
end

