-- ==== Sys2Proof/Decode.lean ====
section
/-! DEFINITION. Commands from the table's bits: spec/opcode_table.json gives no row any bits. -/

namespace Sys2Proof

/-- The command a word spells by the table's bits (log entry 9): none, as no row of the table has a field. -/
def decodeTableWord (_nbits _w : Nat) : Option Instr := none

end Sys2Proof
end

