-- ==== Sys2Proof/Config.lean ====
section
/-! DEFINITION. What a module fixes (factory values) and the values the spec leaves open: constants without a body. -/

namespace Sys2Proof.Config

/-- FREE VALUE (log entry 2). The k-th random word the node draws: recorder clearing tokens (15 R359). -/
opaque randomWord : Nat → Word

/-- FREE VALUE (log entry 2). The k-th salt of 16 random bytes (16 R368). -/
opaque saltBits : Nat → BitVec 128

/-- The k-th salt, as a number. -/
def salt (k : Nat) : Nat := (saltBits k).toNat

/-- FREE VALUE (log entry 3). The k-th character of the initial password of account 0, counted from 0x20 (16 R366, R368). -/
opaque labelChar : Nat → Fin 95

/-- The initial password of account 0, printed on the module's label: 10 characters of 0x20 to 0x7E (16 R366). -/
def labelPassword : List Byte := (List.range 10).map (fun k => BitVec.ofNat 8 (0x20 + (labelChar k).val))

/-- FREE VALUE (log entry 5). What the node takes for E (05 R110) outside the range over which IEC 60584-1 defines the
function of a type: type code of CHN_MODE.SENSOR and temperature in m degree C to fV. -/
opaque tcOutside : Nat → Int → Int

/-- FREE VALUE (log entry 90). Threshold span of the fixed thresholds of the DI modes, 0.1 uA: the spec states that of 04 R98
for the other modes alone, and 07 R158 judges the DAC outputs by it. -/
opaque diThresholdSpan : Nat

/-- FREE VALUE (log entry 6). The value a result takes where the spec states none, by channel and count drawn. -/
opaque openValue : Nat → Int

/-- FREE VALUE. What the serial number exceeds 1 by. -/
opaque serialLessOne : Fin 4294967294

/-- The serial number, never 0 and never 0xFFFFFFFF (17 Table 17.7). -/
def serial : Word := BitVec.ofNat 32 (serialLessOne.val + 1)

/-- Factory values of the module (17 Table 17.7, 16 Table 16.7, 14 Table 14.14). -/
opaque fwMinor : Byte
opaque fingerprint : Nat → Word
opaque macLow : Nat → Word
opaque macHigh : Nat → BitVec 16

/-- DESIGN CHOICE (log entry 7): the module is an LK5120-TA (00 R3). -/
def markXA : Bool := false

end Sys2Proof.Config
end

