-- ==== Sys2Proof/Machine/State/Channels.lean ====
section
/-! DEFINITION. State of ranks, channels, results and peers (04, 05), loop outputs (06) and channel diagnostics (07). -/

namespace Sys2Proof.Machine

/-- One group of a rank (04 Table 04.10, 06 R136, R137): supply and store as last measured. -/
structure Group where
  /-- 10 mV. -/
  vsup : Nat := 0
  /-- Current that its channels draw from the rail (18 R412), uA. -/
  cur : Nat := 0
  vstore : Nat := 0
  supOk : Bool := false
  isoOk : Bool := false
  /-- Highest compliance demand, 10 mV (06 R136). -/
  demand : Nat := 0
  /-- The store at S of the frame that ended at the last B (06 R144). -/
  vstoreWas : Nat := 0
  cjMc : Int := 0
  cjFlt : Bool := false
  deriving DecidableEq, Repr

/-- One rank (04 Table 04.10, 01 R15, 17 R394, R400). -/
structure Rank where
  powered : Bool := false
  ready : Bool := false
  faulty : Bool := false
  /-- No content could be chosen in the frame (11 R249). -/
  noUse : Bool := false
  observe : Bool := false
  /-- Held unpowered after a failed self-test (17 R400). -/
  failed : Bool := false
  selftest : Nat := 0
  /-- Lane links that delivered the last frame's transfer correctly, one bit a lane. -/
  up : Nat := 0
  err0 : Nat := 0
  err1 : Nat := 0
  err2 : Nat := 0
  /-- 0.1 degree C. -/
  temp : Int := 0
  /-- Highest since power-on; none before the first measurement. -/
  peak : Option Int := none
  g0 : Group := {}
  g1 : Group := {}
  g2 : Group := {}
  g3 : Group := {}
  /-- Lanes with a good copy of this frame's transfer, one bit a lane. -/
  good : Nat := 0
  /-- Lanes that have received a transfer this frame. -/
  got : Nat := 0
  deriving DecidableEq, Repr

/-- A channel's front end as its rank sees it (04, 07). -/
structure Front where
  /-- Filtered value in the trim unit of Table 05.5 before lead correction; DI modes: loop current, 0.1 uA. -/
  raw : Int := 0
  /-- Readback conversion at S, same unit. -/
  rb : Int := 0
  /-- Lead a drop of a 3-wire RTD, mOhm (04 R89, slot kind 4). -/
  lead : Int := 0
  /-- A terminal outside its window, held until every one lies 0.2 V inside (07 R157). -/
  window : Bool := false
  /-- Excitation at its limit (04 R92). -/
  excLim : Bool := false
  /-- Break confirmed and its repair not yet confirmed (07 R150, R152); CK_TB instant of the confirmation. -/
  open_ : Bool := false
  openAt : Nat := 0
  /-- Consecutive frames of AI_TC at or above +79 mV (07 R153). -/
  tcHigh : Nat := 0
  /-- CK_TB instant of the S that found this signature gone. -/
  tcEnd : Nat := 0
  /-- The status of the frame's transfer, formed at the cut at S + 100 us (07 R150). -/
  cutOpen : Bool := false
  cutExc : Bool := false
  /-- Comparator sides that hold the output at 1 (04 R95). -/
  hiSet : Bool := false
  loSet : Bool := false
  /-- The three copies of the comparator output at the fabric input. -/
  cmp0 : Bool := false
  cmp1 : Bool := false
  cmp2 : Bool := false
  /-- Copies that follow their comparator, one bit a copy: a faulty one does not (07 R158). -/
  follow : Nat := 7
  /-- The copies as they stood at S (07 R158). -/
  s0 : Bool := false
  s1 : Bool := false
  s2 : Bool := false
  /-- Copies held during an off-pulse and 10 us after it: CK_TB instant the hold ends (07 R148). -/
  holdUntil : Nat := 0
  /-- CK_TB instants of settling events the rank has timestamped and no frame has taken up, as they came (05 R116). -/
  tes : List Nat := []
  /-- AO modes: the pass stage or the store cannot hold the rail (06 R138). -/
  unable : Bool := false
  /-- AI_RTD on an observing rank: the carrier's measured excitation current, nA; 0 where none has come (12 Table 12.8). -/
  peerExc : Int := 0
  deriving DecidableEq, Repr

/-- What the lanes keep of one channel's acquisition (05 R105 to R117, 07 R155). -/
structure Acq where
  /-- Last result published with VALID = 1 since the mode was taken up (R114). -/
  held : Int := 0
  ovr : Bool := false
  /-- v(k) of the last frame, and for how many frames in a row it has been so, at most 256 (R105). -/
  v : Nat := 0
  vRun : Nat := 0
  /-- Debounced result before INV. -/
  deb : Nat := 0
  /-- Settling instant te in force, CK_TB (R116). -/
  te : Option Nat := none
  /-- Majority of the comparator copies at the last S instants, newest first; none where the lanes received none (07 R158). -/
  maj : List (Option Bool) := []
  /-- Value of R109 before R111, and whether the channel's rank delivered this frame (trim unit). -/
  y : Int := 0
  /-- Readback samples of the last d frames, newest first; none where the lanes received none (07 R155). -/
  rbs : List (Option Int) := []
  /-- x of the previous result (07 R155). -/
  prevX : Int := 0
  mmCnt : Nat := 0
  agree : Nat := 0
  mismatch : Bool := false
  bandShort : Bool := false
  bandBreak : Bool := false
  deriving DecidableEq, Repr

/-- A published result (05 Table 05.9). -/
structure Result where
  val : Int := 0
  stat : Nat := 4
  /-- Result delay d; none: the delay of the factory filter in the frame (ResHead.offDly). -/
  dly : Option Nat := none
  deriving DecidableEq, Repr

/-- A channel's diagnostics (07 Table 07.7, R156 to R159). -/
structure Diag where
  /-- Kind to repeat at the channel's next slot. -/
  repeat_ : Option Nat := none
  lastSlot : Nat := 0
  /-- CK_TB instant at which the channel's own slot ends (R147). -/
  slotEnd : Nat := 0
  /-- What the rank's slots have found: excitation out of tolerance, reference fault, threshold DAC fault (R156, R158). -/
  excTol : Bool := false
  refFlt : Bool := false
  dacFlt : Bool := false
  /-- EXC_TOL and REF_FLT in the status of the frame's transfer (R156). -/
  cutTol : Bool := false
  cutRef : Bool := false
  cmpFlt : Bool := false
  xshort : Bool := false
  /-- Consecutive frames with unequal copies, and with a majority against the result. -/
  cmpNeq : Nat := 0
  cmpDiff : Nat := 0
  /-- Kept on the even channel of a pair: failed pulses in a row and passing pulses in a row. -/
  failRow : Nat := 0
  passRow : Nat := 0
  /-- Faults of Table 07.5 as the last frame routed them, one bit each (R160); bit 7 is 1 where the rank is neither unpowered
nor FAULTY. -/
  faults : Nat := 0
  /-- DG_STAT as the lanes' last evaluation of the channel gave it (02 R50). -/
  stat : Word := 0
  /-- AI_RTD: excitation current as the last check measured it, nA; 0 where none has (12 Table 12.8). -/
  exc : Int := 0
  deriving DecidableEq, Repr

/-- AO_STAT.OSTATE (06 Table 06.3, R132). -/
inductive OState where
  | off
  | normal
  | failLow
  | failHigh
  | hold
  | zero
  | clamp
  | standby
  | nomaj
  deriving DecidableEq, Repr

/-- A loop output (06 R129 to R145). -/
structure Stage where
  /-- AO_SET as last taken up. -/
  set : Nat := 0
  /-- Accepted writes not yet taken up, oldest first: value and CK_TB instant (R130). -/
  pend : List (Nat × Nat) := []
  /-- Code applied at the last B. -/
  code : Nat := 0
  /-- Code applied at the B before. -/
  prevCode : Nat := 0
  lastNormal : Nat := 0
  ostate : OState := .off
  /-- OSTATE at the B before. -/
  prevO : OState := .off
  copies : Nat := 0
  enabled : Bool := false
  clipped : Bool := false
  /-- The lanes' command of the frame: code and the mark NORMAL or a safe level. -/
  cmd : Nat := 0
  mark : OState := .normal
  /-- Consecutive B without a majority (R131). -/
  noMaj : Nat := 0
  compliance : Bool := false
  thermal : Bool := false
  mismatch : Bool := false
  dis : Nat := 0
  agree : Nat := 0
  /-- V_HI at S, 10 mV, and junction temperature, 0.1 degree C. -/
  vhi : Nat := 0
  tj : Int := 0
  /-- The stage limits at its temperature limit (R139). -/
  limiting : Bool := false
  /-- Readback, V_HI and junction temperature at S of the frame that ended at the last B (R144). -/
  rbWas : Int := 0
  vhiWas : Nat := 0
  tjWas : Int := 0
  deriving DecidableEq, Repr

/-- A peer entry (05 R121, R122). -/
structure Peer where
  val : Int := 0
  stat : Nat := 4
  qual : Nat := 3
  tai : Nat := 0
  /-- A message has been received since reset. -/
  has : Bool := false
  age : Nat := 65535
  stale : Bool := true
  deriving DecidableEq, Repr

/-- A published entry as received (05 R121): channel, status, value and carried instant. -/
structure PeerEntry where
  ch : Nat
  stat : Nat
  val : Int
  tai : Nat
  deriving DecidableEq, Repr

/-- A RESULT message that waits for its frame (05 R121). -/
structure PeerMsg where
  /-- Frame in which its reception ended. -/
  tag : Nat
  src : Nat
  qual : Nat
  entries : List PeerEntry
  deriving DecidableEq, Repr

/-- The header of the RES buffer (05 Table 05.9). -/
structure ResHead where
  frame : Nat := 0
  sample : Nat := 0
  period : Nat := 0
  lanes : Nat := 0
  active : Bool := false
  /-- Delay of the factory filter at F of the frame. -/
  offDly : Nat := 0
  deriving DecidableEq, Repr

end Sys2Proof.Machine
end

