-- ==== Sys2Proof/Machine/State/Net.lean ====
section
/-! DEFINITION. State of the Ethernet and serial ports and the alert formatter (14_messages_and_networks), and what a
step sends out of the node. -/

namespace Sys2Proof.Machine

/-- Alerts the formatter presents (14 Table 14.12). -/
inductive Alert where
  | point (k : Nat)
  | summary
  | callFault
  | watch
  deriving DecidableEq, Repr

/-- A sentence (14 Table 14.11) with the fields the spec gives it. -/
inductive Sentence where
  /-- ALF: identifier, instance, category, state and priority letters, UTC in ns, text. -/
  | alf (ident inst : Nat) (cat state prio : Char) (utc : Nat) (text : List Char)
  /-- ALC: at most 4 entries of identifier, instance and state letter. -/
  | alc (entries : List (Nat × Nat × Char))
  /-- ARC: refused command letter, identifier and instance. -/
  | arc (cmd : Char) (ident inst : Nat)
  /-- HBT with its status letter. -/
  | hbt (status : Char)
  deriving DecidableEq, Repr

/-- A trend datagram (14 Table 14.13). -/
structure TrendMsg where
  decimated : Bool
  stopped : Bool
  gap : Bool
  node : Nat
  stream : Nat
  frame : Nat
  s : Nat
  f : Nat
  first : Nat
  entries : List (Int × Nat × Nat)
  deriving DecidableEq, Repr

/-- What this module sends on a port as PTP master (03 R61, R84): Announce with clockClass 248 and priority1, Sync in two
steps. -/
structure PtpTx where
  domain : Nat
  prio1 : Nat
  clockClass : Nat := 248
  twoStep : Bool := true
  p2p : Bool
  udp : Bool
  /-- logSyncInterval. -/
  logSync : Int
  deriving DecidableEq, Repr

/-- What leaves the node in one step. -/
inductive Out where
  /-- An MSI-X message (02 R40). -/
  | msix (vector : Nat)
  /-- A sentence on ETH port n with its group, UDP port, SFI and line count, or on SER port n with its talker. -/
  | eth (port : Nat) (group : Word) (udp : Nat) (sfi : Word) (line : Nat) (m : Sentence)
  | ser (port talker : Nat) (m : Sentence)
  /-- A trend datagram to a destination and UDP port. -/
  | trend (port : Nat) (dest : Word) (udp : Nat) (m : TrendMsg)
  /-- What the module sends on ETH port n as PTP master. -/
  | ptp (port : Nat) (m : PtpTx)
  /-- A mirror block copied to host memory at an address (02 R51). -/
  | hostBlock (addr frame : Nat)
  /-- Management reply: path, status (16 Table 16.7) and value. -/
  | mgmt (path status : Nat) (value : Word)
  /-- ARP reply or ICMP echo reply (14 R335). -/
  | arp (port : Nat)
  | icmp (port : Nat)
  /-- A heartbeat, and the state that follows it, on both cross-links (12 R281). -/
  | hb (bytes : List Byte) (peer : PeerState)
  /-- The value a register read returned, where the read itself is a command of the table. -/
  | read (value : Word)
  deriving DecidableEq, Repr

/-- One Ethernet port. -/
structure EthPort where
  link : Bool := false
  speed : Nat := 0
  anDone : Bool := false
  full : Bool := false
  tx : Word := 0
  acn : Nat := 0
  bad : Nat := 0
  tr : Word := 0
  /-- Next datagram of stream 0 or 1 carries GAP. -/
  gap0 : Bool := false
  gap1 : Bool := false
  /-- ALF waiting (R337). -/
  queue : List Alert := []
  /-- CK_TB second and ALF sentences sent in it (R337). -/
  sec : Nat := 0
  secCnt : Nat := 0
  deriving DecidableEq, Repr

/-- One serial port. -/
structure SerPort where
  /-- CK_TB instant of the last valid sentence. -/
  lastOk : Option Nat := none
  ok : Nat := 0
  bad : Nat := 0
  tx : Word := 0
  queue : List Alert := []
  deriving DecidableEq, Repr

/-- The formatter's own alerts of the call (14 R337, 09 R208): state by Table 08.7. -/
structure OwnAlert where
  cond : Bool := false
  state : AlertState := .normal
  time : Nat := 0
  deriving DecidableEq, Repr

/-- A remote command applied in the frame and its reply, sent after the vote (14 R334). -/
structure Reply where
  ctrl : Nat
  dest : Nat
  result : Nat
  op : Nat
  index : Nat
  rseq : Nat
  changed : Nat
  deriving DecidableEq, Repr

/-- A remote command as its engine received it (08 R185): RCMD, a station key, or an ACN. -/
inductive RemoteAct where
  | rcmd (ctrl src dest op tgt index rseq : Nat)
  /-- Key 0 ACCEPT, 1 SILENCE, 2 ACK, 3 watch reset, 4 watch on, 5 watch off, 6 duty engineer. -/
  | key (ctrl src stn key kseq arg : Nat)
  /-- ACN with its letter: 0 A, 1 S, 2 O. -/
  | acn (letter : Nat) (a : Alert)
  deriving DecidableEq, Repr

/-- Its frame and instant of reception; `order` puts CAN before the bridge, and lower numbers first. -/
structure Remote where
  tag : Nat
  at_ : Nat
  order : Nat
  act : RemoteAct
  deriving DecidableEq, Repr

/-- An alert as the formatter last presented it: state code and node time. -/
structure Shown where
  state : Nat
  time : Nat
  deriving DecidableEq, Repr

/-- The network part of the node (14). -/
structure Net where
  /-- CK_TB instant of the last ADDR_DUP record (14 R327). -/
  dupAt : Option Nat := none
  eth : Tbl EthPort := []
  ser : Tbl SerPort := []
  /-- Line count of tag blocks, 1 to 999. -/
  line : Nat := 1
  /-- Point alerts presented. -/
  presented : Tbl (Option Shown) := []
  /-- Remote commands that wait for the next evaluation, in the order of R185. -/
  remote : List Remote := []
  summary : OwnAlert := {}
  callFault : OwnAlert := {}
  watch : OwnAlert := {}
  /-- SEQ of the last ALARM message (R330, ALM_SEQ). -/
  almSeq : Nat := 0
  /-- Changes of R189 of the frame, point order, that wait for the vote. -/
  almChanges : List Nat := []
  /-- Last RSEQ applied of each SRC (R334). -/
  rseqs : Tbl (Option Nat) := []
  replies : List Reply := []
  /-- Refresh of R330: the point it goes on from, and CK_TB instants of the round's start and of its last part. -/
  refCursor : Nat := 0
  refStart : Option Nat := none
  refLast : Option Nat := none
  /-- The full set of present alerts is to be sent (09 R209). -/
  resend : Bool := false
  /-- CK_TB instants of the last ALF repetition, ALC, HBT and STOPPED datagrams (R336, R340). -/
  alfAt : Option Nat := none
  alcAt : Option Nat := none
  hbtAt : Option Nat := none
  stopAt : Option Nat := none
  deriving DecidableEq, Repr

end Sys2Proof.Machine
end

