-- ==== Sys2Proof/Machine/State/Time.lean ====
section
/-! DEFINITION. State of the time base and the launch table (03_time_and_frames), of configuration and security
(16_configuration_security) and of the node's states, start-up and power (17_states_startup_reset). -/

namespace Sys2Proof.Machine

/-- Time base states (Table 03.2, TB_STAT.STATE). -/
inductive TbState where
  | free
  | acquiring
  | locked
  | holdover
  deriving DecidableEq, Repr

/-- Discipline sources (TB_STAT.SRC). -/
inductive TimeSrc where
  | ptp
  | can
  | pps
  | partner
  deriving DecidableEq, Repr

/-- What the time base keeps of one source (R66). -/
structure Source where
  qualified : Bool := false
  /-- CK_TB instant since which it has been qualified. -/
  since : Nat := 0
  /-- Consecutive good exchanges, pairs or edges. -/
  good : Nat := 0
  /-- The offsets of the last exchanges, newest first, at most 8 (PTP, R66). -/
  offs : List Int := []
  /-- Last measured source - node offset, ns. -/
  offset : Int := 0
  /-- ETH, CAN or SER instance. -/
  port : Nat := 0
  /-- CK_TB instant of the last edge, pair or exchange. -/
  last : Option Nat := none
  /-- Interval of its messages, ns: the SYNC interval its sender states (CAN). -/
  interval : Nat := 125000000
  deriving DecidableEq, Repr

/-- A Cicada SYNC kept for its FOLLOW (R62): start-of-frame stamp and quality. -/
structure SyncMsg where
  seq : Nat
  /-- CK_TB instant of the start of frame. -/
  sof : Nat
  /-- CK_TB instant of reception. -/
  at_ : Nat
  qual : Nat
  deriving DecidableEq, Repr

/-- A sender of Cicada SYNC as last heard (R83): its quality, CK_TB instant and interval, ns. -/
structure Sender where
  qual : Nat
  at_ : Nat
  interval : Nat
  deriving DecidableEq, Repr

/-- The PTP master heard on a port (R61): its data set of the best master clock algorithm as one number, the better the
lower; CK_TB instants of its last Announce and of its last exchange. -/
structure PtpPort where
  ds : Nat
  annAt : Nat
  syncAt : Nat
  deriving DecidableEq, Repr

/-- A mapping of CK_TB to node time and the instant at which it ended: offset, and the slew of its frame. -/
structure TimeMap where
  until_ : Nat
  off : Int
  slewBy : Int
  slewFrom : Nat
  period : Nat
  deriving DecidableEq, Repr

/-- The time base, Cicada (03 R58 to R76). -/
structure TimeBase where
  /-- Mappings of CK_TB to node time that were in force before the present one, the newest first (13 R318). -/
  maps : List TimeMap := []
  state : TbState := .acquiring
  sel : Option TimeSrc := none
  port : Nat := 0
  ptp : Source := {}
  can : Source := {}
  pps : Source := {}
  partner : Source := {}
  /-- TB_OFFSET. -/
  offset : Int := 0
  /-- TB_FREQ, 0.001 ppm. -/
  freq : Int := 0
  /-- The corrections of the last 1000 s (R64): CK_TB instant and value, newest first. -/
  freqs : List (Nat × Int) := []
  /-- CK_TB instant holdover began. -/
  holdSince : Option Nat := none
  /-- TB_EST_ERR at the start of holdover or while locked, ns; none before the first lock. -/
  estErr : Option Nat := none
  /-- CK_TB instant of the present LOCKED state (R68). -/
  lockedSince : Option Nat := none
  /-- The cold plate has changed by no more than 10 K/h: at the last boundary, in holdover at every boundary since its
  start (R68). -/
  plateSteady : Bool := true
  /-- TB_STAT.TIME_FAR with the pending offset (R71). -/
  timeFar : Option Int := none
  /-- Offset still to slew after the frame under way, ns (R70). -/
  slew : Int := 0
  /-- A slew ran in the frame under way (R72). -/
  slewed : Bool := false
  /-- CK_TB instant CK_TB failed (R69). -/
  ckFail : Option Nat := none
  /-- TAI ns the next PPS edge marks, from ZDA or TB_TOD (R63); a message has named it since the last edge. -/
  tod : Option Nat := none
  todFresh : Bool := false
  /-- A step of this offset is applied at the next B (R65, R71, R72). -/
  stepPend : Option Int := none
  steps : Nat := 0
  slews : Nat := 0
  /-- Pending change of period: SEL and the instant T, node time (R74). -/
  pendPeriod : Option (Nat × Nat) := none
  /-- Cicada sender followed (R83). -/
  canMaster : Option Nat := none
  /-- SYNC messages received that await their FOLLOW, key controller * 256 + sender. -/
  syncs : Tbl (Option SyncMsg) := []
  /-- Senders of SYNC, by address (R83). -/
  senders : Tbl (Option Sender) := []
  /-- PTP masters, by port (R61). -/
  ptpPorts : Tbl (Option PtpPort) := []
  /-- SYNC messages sent and not yet followed, per controller: sequence and start of frame (R82, 14 R328). -/
  sent : Tbl (Option (Nat × Option Nat)) := []
  /-- Cicada sequence of the next SYNC sent, and CK_TB instant of the last one sent (R82). -/
  syncSeq : Nat := 0
  syncAt : Option Nat := none
  /-- CK_TB instant at which start-up began (R65), and at which phase 4 began to wait for LOCKED (R64). -/
  startAt : Nat := 0
  acqAt : Option Nat := none
  /-- Stored time in the MRAM (R65); none where it cannot be read. -/
  stored : Option Nat := some 0
  /-- Lane counters: own boundary less S, ns (R24, R76). -/
  lane0 : Int := 0
  lane1 : Int := 0
  lane2 : Int := 0
  /-- What each lane has trimmed its counter by, ns a frame (R76). -/
  trim0 : Int := 0
  trim1 : Int := 0
  trim2 : Int := 0
  /-- PTP best master clock algorithm in this node's favour (R84). -/
  ptpMaster : Bool := false
  deriving DecidableEq, Repr

/-- Launch entry states (Table 03.6). -/
inductive LaunchState where
  | free
  | armed
  | fired
  | late
  | cancelled
  | void
  | noeffect
  deriving DecidableEq, Repr

/-- A launch entry (R79). -/
structure Launch where
  state : LaunchState := .free
  tgt : Nat := 0
  /-- Layout of LCH_P_ACT. -/
  act : Word := 0
  arg : Word := 0
  /-- The module held the output claim at B of frame N (Table 03.6). -/
  held : Bool := true
  deriving DecidableEq, Repr

/-- An account (16 R366). -/
structure Account where
  en : Bool := false
  name : List Byte := []
  level : Nat := 0
  salt : Nat := 0
  hash : Nat := 0
  mustchg : Bool := false
  fails : Nat := 0
  /-- CK_TB instant at which a lock ends (R369). -/
  lockUntil : Option Nat := none
  deriving DecidableEq, Repr

/-- An open session of a path (16 R372 to R374). -/
structure Session where
  account : Nat
  level : Nat
  /-- CK_TB instant of the last accepted command. -/
  last : Nat
  deriving DecidableEq, Repr

/-- What an accepted CHPW stores: the account, the level of the session that gave it, the new salt and hash (16 R371). -/
structure NewPassword where
  account : Nat
  level : Nat
  salt : Nat
  hash : Nat
  deriving DecidableEq, Repr

/-- The PENDING image (16 R377, R378); its values are the staged values, which cannot change meanwhile. -/
structure Pending where
  check : Word
  /-- CK_TB instant at which the confirmation window closes. -/
  until_ : Nat
  unequal : Nat := 0
  /-- A CONFIRM with the equal value has been accepted (R379). -/
  confirmed : Bool := false
  /-- The first copy has been written and verified: the image takes effect at the next B (R379). -/
  verified : Bool := false
  /-- The first copy has been written; the other is due once the image has taken effect. -/
  first : Bool := false
  /-- SEL of the period that the image records (R381). -/
  period : Nat := 2
  deriving DecidableEq, Repr

/-- A change log entry (16 Table 16.3). -/
structure LogEntry where
  time : Nat
  param : Nat
  old : Word
  new : Word
  account : Nat
  stage : Nat
  hseq : BitVec 16
  rseq : Nat := 0
  deriving DecidableEq, Repr

/-- What registers of the CFG page show while the management processor is down: their values at the stop (01 R18). -/
structure MpHeld where
  log : Tbl (Option LogEntry) := []
  logCount : Nat := 0
  dirty : Bool := false
  /-- TB_PERIOD.SEL, for CFG_STAT.PERIOD_MM. -/
  period : Nat := 2
  deriving DecidableEq, Repr

/-- One copy of the configuration in flash (16 R383). -/
structure FlashCopy where
  valid : Bool := false
  gen : Nat := 0
  regs : Tbl Word := []
  accounts : Tbl Account := []
  check : Word := 0
  /-- SEL of the period its image records. -/
  imagePeriod : Nat := 2
  deriving DecidableEq, Repr

/-- Sessions, accounts, commit and configuration flash (16 R366 to R383). -/
structure Config where
  /-- What the CFG page shows while the management processor is down. -/
  mpHeld : Option MpHeld := none
  accounts : Tbl Account := []
  sessions : Tbl (Option Session) := []
  pend : Option Pending := none
  /-- CFG_RESULT.REASON of each path. -/
  result : Tbl Nat := []
  /-- CFG_CFAIL: check number and index. -/
  cfail : Nat × Nat := (0, 0)
  log : Tbl (Option LogEntry) := []
  logCount : Nat := 0
  copyA : FlashCopy := {}
  copyB : FlashCopy := {}
  /-- Phase 2 of start-up has read them since the reset: CFG_STAT and CFG_LOG_E show their reset values before (00 R12). -/
  loaded : Bool := false
  dirty : Bool := false
  factory : Bool := false
  /-- CFG_CHECK: check value of the active image. -/
  check : Word := 0
  /-- An accepted CHPW whose new hash the configuration flash does not hold yet (R371). -/
  chpw : Option NewPassword := none
  /-- SEL of the period recorded in the active image (R381). -/
  imagePeriod : Nat := 2
  gen : Nat := 0
  /-- Lockout state of each account, attempts and the CK_TB instant of the lock's end, as configuration flash holds it whether or
  not a copy is valid (R369, 17 R396). -/
  locks : Tbl (Nat × Option Nat) := []
  /-- One copy has been written and the other is due (R379, R383): the copy that is due is B. -/
  half : Option Bool := none
  /-- CFG_P_PW and CFG_P_OLDPW words, key 16 * path + i, i = 0 to 7 and 8 to 15. -/
  pw : Tbl Word := []
  /-- TLS connections standing, paths 1 to 4. -/
  tls : Tbl Bool := []
  deriving DecidableEq, Repr

/-- Node states (17 Table 17.1). -/
inductive NodeState where
  | init
  | standby
  | config
  | run
  | safe
  deriving DecidableEq, Repr

/-- The node's state, start-up and reset (17 R388 to R400). -/
structure NodeSt where
  state : NodeState := .init
  /-- NODE_STAT.PHASE (Table 17.4). -/
  phase : Nat := 1
  rstCause : Nat := 1
  safeCause : Nat := 0
  refuse : Nat := 0
  boot : Nat := 0
  /-- CK_TB instant start-up ended (NODE_UPTIME). -/
  upSince : Nat := 0
  /-- CK_TB instant the host watchdog count last restarted (R393). -/
  kickAt : Nat := 0
  /-- NODE_FAULT.HWDOG. -/
  hwdogFault : Bool := false
  /-- NODE_RSTEST code of each rank (R400). -/
  rstest : Tbl Nat := []
  /-- Ranks whose self-test of phase 3 is over, one bit a rank (R399). -/
  rsDone : Nat := 0
  /-- A reset source is still asserted (RST_N low, R399). -/
  held : Bool := false
  /-- Cause of an automatic entry to SAFE that waits for the next B (R391). -/
  safePend : Option Nat := none
  deriving DecidableEq, Repr

/-- Feeds and supplies (17 R402 to R404, 18 R433). -/
structure Power where
  aOk : Bool := false
  bOk : Bool := false
  pfail : Bool := false
  /-- CK_TB instant both feeds were lost. -/
  pfailAt : Nat := 0
  va : Nat := 0
  vb : Nat := 0
  inW : Nat := 0
  loopW : Nat := 0
  holdV : Nat := 0
  holdOk : Bool := false
  /-- The backlog of staged records at the power-fail was 256 KiB or less (15 R363). -/
  backlogOk : Bool := false
  /-- RSEQ up to which the power-fail commit is sure (R363): staged at the power-fail or within the following 5 ms. -/
  sure : Nat := 0
  /-- The rails have been shut down (R403). -/
  off : Bool := false
  /-- CK_TB instant of the last shutdown: the marker holds from here (R432). -/
  offAt : Option Nat := none
  deriving DecidableEq, Repr

end Sys2Proof.Machine
end

