-- ==== Sys2Proof/Machine/State.lean ====
section
/-! DEFINITION. The state of the node, all the spec gives it (INVENTORY.md, State), the reasons a step can stop, and
the state after reset. -/

namespace Sys2Proof.Machine

/-- The node: everything but the shadow copies the pages show and the queue of commands. -/
structure Node where
  /-- CK_TB instant of the latest event, ns since the reset; it never steps (03 R72). -/
  now : Nat := 0
  /-- Node time less `now` (03 R58, R65): TAI(t) = t + taiOff, but for the slew of the frame under way. -/
  taiOff : Int := 1000000000
  /-- Slew of the frame under way (03 R70): the CK_TB instant it runs from and what it adds over one F, ns. -/
  slewFrom : Nat := 0
  slewBy : Int := 0
  /-- Frame number n of the frame under way (03 R59). -/
  frame : Nat := 0
  /-- F in ns (03 R74). -/
  period : Nat := 1000000
  /-- S of the frame under way, TAI ns. -/
  sampleT : Nat := 0
  /-- CK_TB instant of the last S, and of the last B. -/
  sAt : Nat := 0
  bAt : Nat := 0
  /-- Registers that hold a written value: key BAR0 offset + select * 2^20 (16 Table 16.3 PARAM). -/
  regs : Tbl Word := []
  /-- Staged values of RWS registers (16 R376), same keys. -/
  staged : Tbl (Option Word) := []
  /-- Page headers, by page. -/
  headers : Tbl Header := []
  /-- Sequence state of the paths: key page + 256 * path (16 R375). -/
  seqs : Tbl PathSeq := []
  /-- Commands in progress, by page. -/
  cmds : Tbl (Option Command) := []
  /-- Accepted commands that the lanes have yet to take up, oldest first (02 R45). -/
  acts : List Waiting := []
  vectors : Tbl Vector_ := []
  endpoint : Endpoint := {}
  /-- What reads of a parameter, and reads of its staged value under VIEW, still return between the B that takes a write up
  and its RESULT_READY (02 R45). -/
  unshown : Tbl (Option Word) := []
  unshownStaged : Tbl (Option Word) := []
  /-- Holding registers: reads by page, writes by the pair's low offset (02 R49). -/
  readHold : Tbl (Option Word) := []
  writeHold : Tbl (Option Word) := []
  mgt : Mgt := {}
  mirror : Mirror := {}
  rec_ : Recorder := {}
  tb : TimeBase := {}
  launches : Tbl Launch := []
  lchLast : Nat := 0
  ranks : Tbl Rank := []
  fronts : Tbl Front := []
  acqs : Tbl Acq := []
  diags : Tbl Diag := []
  stages : Tbl Stage := []
  /-- Results of the frame by channel, and their header (05 Table 05.9). -/
  res : Tbl Result := []
  resHead : ResHead := {}
  /-- ACQ_STAT.LATE. -/
  late : Nat := 0
  peers : Tbl Peer := []
  /-- RESULT messages received. -/
  peerMsgs : List PeerMsg := []
  points : Tbl Point := []
  groups : Tbl AlmGroup := []
  remoteFos : List RemoteFo := []
  /-- Points of other nodes whose ACTIVE the last message of them reported as 1; key 8192 * node + point (08 R192). -/
  remoteActs : Tbl Bool := []
  almCnt : AlmCounts := {}
  call : Call := {}
  stations : Tbl Station := []
  safety : Safety := {}
  lanes : Tbl Lane := []
  laneSt : LaneSt := {}
  duplex : Duplex := {}
  cans : Tbl CanCtl := []
  tsRef : TsRef := {}
  net : Net := {}
  config : Config := {}
  nodeSt : NodeSt := {}
  power : Power := {}
  /-- Interrupt bits (page, bit) that wait for the refresh that shows their cause, at B and at RESULT_READY (02 R50). -/
  dueB : List (Nat × Nat) := []
  dueR : List (Nat × Nat) := []
  /-- MODEL: number of free values drawn so far (log entry 2). -/
  free : Nat := 0
  /-- MODEL: what left the node in the latest step. -/
  outs : List Out := []
  deriving DecidableEq, Repr

/-- A page under PAGE_CTRL.HOLD, or released from it and not yet refreshed again (02 R50). -/
structure HoldSt where
  /-- Copies of the words refreshed at B, and at RESULT_READY, once frozen. -/
  b : Option Node := none
  r : Option Node := none
  /-- The copy is renewed at its next refresh instant. -/
  bDue : Bool := true
  rDue : Bool := true
  /-- HOLD is 1. -/
  held : Bool := true
  /-- CK_TB instant of the write of HOLD. -/
  since : Nat
  deriving DecidableEq, Repr

/-- The machine: the node, the copies its pages show, the mirror ring, and the queue of commands that wait. -/
structure State where
  node : Node := {}
  /-- The node at the last voted boundary and at the last RESULT_READY: what shadow words show (02 R50). -/
  atB : Node := {}
  atR : Node := {}
  holds : Tbl (Option HoldSt) := []
  /-- The result mirror ring in BAR2 (02 R51, Table 02.3); an unlisted byte reads 0. -/
  bar2 : List Host.Cell := []
  /-- Commands that wait, first in, first out. -/
  pending : List Instr := []
  deriving DecidableEq, Repr

/-- Reasons the machine stops with a fault. The spec gives the node no stop of its own: every bad access and every
refused command completes (02 R38, R44). No meaning raises one; safe. -/
inductive Fault where
  /-- Raised by no meaning; the type must not be empty. Safe. -/
  | none
  deriving DecidableEq, Repr

/-- Reasons a command is refused by the model. -/
inductive Refusal where
  /-- Raised only by an arm of `exec` whose meaning is not written. Safe. -/
  | notModelled (mnemonic : String)
  deriving DecidableEq, Repr

/-- The node right after reset (00 R12, 17 R396, R399): every register at its Reset column value, start-up in
phase 1, no command waiting. -/
def State.reset : State := {}

end Sys2Proof.Machine
end

