-- ==== Sys2Proof/Machine/Ops.lean ====
section
/-! DEFINITION. The named operations: sparse tables, bit fields, BAR2 memory, the node's tables, time, interrupts. -/

namespace Sys2Proof.Machine

/-! Sparse tables -/

/-- Entry of key k, where one is listed. -/
def lookup {α : Type} (t : Tbl α) (k : Nat) : Option α :=
  match t with
  | [] => none
  | (j, v) :: r => if j = k then some v else lookup r k

/-- Entry of key k; an unlisted key reads d. -/
def tget {α : Type} (d : α) (t : Tbl α) (k : Nat) : α := (lookup t k).getD d

/-- The table without key k. -/
def erase {α : Type} (t : Tbl α) (k : Nat) : Tbl α :=
  match t with
  | [] => []
  | (j, v) :: r => if j = k then erase r k else (j, v) :: erase r k

/-- Key k put in its place in a table that does not list it. -/
def insertKey {α : Type} (t : Tbl α) (k : Nat) (v : α) : Tbl α :=
  match t with
  | [] => [(k, v)]
  | (j, w) :: r => if k < j then (k, v) :: (j, w) :: r else (j, w) :: insertKey r k v

/-- Write of key k: a value equal to what an unlisted key reads removes the entry. -/
def tset {α : Type} [DecidableEq α] (d : α) (t : Tbl α) (k : Nat) (v : α) : Tbl α :=
  if v = d then erase t k else insertKey (erase t k) k v

/-- Change of the entry of key k. -/
def tmod {α : Type} [DecidableEq α] (d : α) (t : Tbl α) (k : Nat) (f : α → α) : Tbl α :=
  tset d t k (f (tget d t k))

/-- The canonical form: keys strictly rising, no entry equal to what an unlisted key reads. -/
def twf {α : Type} [DecidableEq α] (d : Nat → α) (t : Tbl α) : Bool :=
  match t with
  | [] => true
  | [(k, v)] => decide (v ≠ d k)
  | (k, v) :: (j, w) :: r => decide (v ≠ d k) && decide (k < j) && twf d ((j, w) :: r)

/-- Every listed key, in order. -/
def keys {α : Type} (t : Tbl α) : List Nat := t.map Prod.fst

/-- Change of every key of a list. -/
def tmodAll {α : Type} [DecidableEq α] (d : α) (t : Tbl α) (ks : List Nat) (f : Nat → α → α) : Tbl α :=
  ks.foldl (fun t k => tmod d t k (f k)) t

/-! Bit fields -/

/-- Bits hi to lo of a word. -/
def fld (w : Word) (hi lo : Nat) : Nat := (w.toNat >>> lo) % 2 ^ (hi + 1 - lo)

/-- Bit i of a word. -/
def bit (w : Word) (i : Nat) : Bool := w.getLsbD i

/-- Bits hi to lo read as a signed number. -/
def sfld (w : Word) (hi lo : Nat) : Int :=
  let v := fld w hi lo
  let n := hi + 1 - lo
  if v < 2 ^ (n - 1) then v else (v : Int) - 2 ^ n

/-- 1 for true. -/
def b2n (b : Bool) : Nat := if b then 1 else 0

/-- A word of fields: value, lowest bit, width; a value is cut to its width. -/
def packN (fs : List (Nat × Nat × Nat)) : Nat :=
  fs.foldl (fun a f => a + (f.1 % 2 ^ f.2.2) * 2 ^ f.2.1) 0

/-- As a register word. -/
def pack (fs : List (Nat × Nat × Nat)) : Word := BitVec.ofNat 32 (packN fs)

/-- A signed number as w bits of two's complement. -/
def intBits (w : Nat) (i : Int) : Nat := (i % (2 ^ w : Nat)).toNat

/-- A register word of a signed number. -/
def wordI (i : Int) : Word := BitVec.ofInt 32 i

/-- A count that stops at its highest value. -/
def sat (m v : Nat) : Nat := min m v

/-- A signed 32-bit value, saturating. -/
def satI (i : Int) : Int := max (-2147483648) (min 2147483647 i)

/-- Low and high word of a 64-bit number. -/
def lo32 (n : Nat) : Word := BitVec.ofNat 32 n
def hi32 (n : Nat) : Word := BitVec.ofNat 32 (n / 4294967296)

/-- Bit k of a set held as a number. -/
def nbit (s k : Nat) : Bool := s.testBit k

/-- A set held as a number, of the members of a list. -/
def bitSet (ks : List Nat) : Nat := ks.foldl (fun a k => if a.testBit k then a else a + 2 ^ k) 0

/-- Set or clear bit k of a set held as a number. -/
def setBit (s k : Nat) (b : Bool) : Nat :=
  if s.testBit k = b then s else if b then s + 2 ^ k else s - 2 ^ k

/-- Members below n of a set held as a number. -/
def members (s n : Nat) : List Nat := (List.range n).filter (fun k => s.testBit k)

/-- Little-endian bytes of a number. -/
def bytesLE (count n : Nat) : List Byte :=
  (List.range count).map (fun i => BitVec.ofNat 8 (n / 256 ^ i))

/-- The number of little-endian bytes. -/
def numLE : List Byte → Nat
  | [] => 0
  | b :: r => b.toNat + 256 * numLE r

/-- The bytes of a signed number. -/
def bytesI (count : Nat) (i : Int) : List Byte := bytesLE count (intBits (8 * count) i)

/-- The list cut or filled with 0 to a length. -/
def padTo (n : Nat) (l : List Byte) : List Byte := (l ++ List.replicate (n - l.length) 0).take n

/-- Rounded division, halves away from 0 (05 R109, 06 R125). -/
def divRound (a : Int) (b : Nat) : Int :=
  if a < 0 then -(((-a) * 2 + b) / (2 * b)) else (a * 2 + b) / (2 * b)

/-- Division rounded up. -/
def divUp (a b : Nat) : Nat := (a + b - 1) / b

/-! BAR2 memory (02 Table 02.3): cells of non-zero bytes, addresses strictly rising -/

/-- The byte at an address: an unlisted byte reads 0. -/
def memRead (m : List Host.Cell) (a : Nat) : Byte := tget 0 m a

/-- The canonical form of the memory. -/
def memWf (m : List Host.Cell) : Bool := twf (fun _ => (0 : Byte)) m

/-- The non-zero cells of bytes from an address on. -/
def cellsOf (a : Nat) : List Byte → List Host.Cell
  | [] => []
  | b :: r => if b = 0 then cellsOf (a + 1) r else (a, b) :: cellsOf (a + 1) r

/-- A range of the memory replaced: bytes from lo on, every other byte of the range 0. -/
def memReplace (m : List Host.Cell) (lo hi : Nat) (bs : List Byte) : List Host.Cell :=
  m.filter (fun c => c.1 < lo) ++ cellsOf lo (bs.take (hi - lo)) ++ m.filter (fun c => hi ≤ c.1)

/-- Bytes from an address on. -/
def memBytes (m : List Host.Cell) (a n : Nat) : List Byte := (List.range n).map (fun i => memRead m (a + i))

/-! The node's tables -/

def headerOf (n : Node) (p : Nat) : Header := tget {} n.headers p
def seqOf (n : Node) (path p : Nat) : PathSeq := tget {} n.seqs (p + 256 * path)
def cmdOf (n : Node) (p : Nat) : Option Command := tget none n.cmds p
def vectorOf (n : Node) (v : Nat) : Vector_ := tget {} n.vectors v
def rankOf (n : Node) (r : Nat) : Rank := tget {} n.ranks r
def frontOf (n : Node) (ch : Nat) : Front := tget {} n.fronts ch
def acqOf (n : Node) (ch : Nat) : Acq := tget {} n.acqs ch
def diagOf (n : Node) (ch : Nat) : Diag := tget {} n.diags ch
def stageOf (n : Node) (ch : Nat) : Stage := tget {} n.stages ch
def resOf (n : Node) (ch : Nat) : Result := tget {} n.res ch
def peerOf (n : Node) (i : Nat) : Peer := tget {} n.peers i
def pointOf (n : Node) (k : Nat) : Point := tget {} n.points k
def groupOf (n : Node) (g : Nat) : AlmGroup := tget {} n.groups g
def stationOf (n : Node) (k : Nat) : Station := tget {} n.stations k
def launchOf (n : Node) (e : Nat) : Launch := tget {} n.launches e
def laneOf (n : Node) (l : Nat) : Lane := tget {} n.lanes l
def canOf (n : Node) (c : Nat) : CanCtl := tget {} n.cans c
def fnOf (n : Node) (k : Nat) : SafetyFn := tget {} n.safety.fns k
def outputOf (n : Node) (k : Nat) : Output := tget {} n.safety.outs k
def pairOf (n : Node) (k : Nat) : PairSt := tget {} n.safety.pairs k
def evalOf (n : Node) (c k : Nat) : Evaluator := tget {} n.safety.evals (256 * c + k)
def ethOf (n : Node) (p : Nat) : EthPort := tget {} n.net.eth p
def serOf (n : Node) (p : Nat) : SerPort := tget {} n.net.ser p
def capOf (n : Node) (k : Nat) : Capture := tget {} n.rec_.caps k
def accountOf (n : Node) (a : Nat) : Account := tget {} n.config.accounts a
def sessionOf (n : Node) (path : Nat) : Option Session := tget none n.config.sessions path

def modHeader (n : Node) (p : Nat) (f : Header → Header) : Node := { n with headers := tmod {} n.headers p f }
def modSeq (n : Node) (path p : Nat) (f : PathSeq → PathSeq) : Node :=
  { n with seqs := tmod {} n.seqs (p + 256 * path) f }
def setCmd (n : Node) (p : Nat) (c : Option Command) : Node := { n with cmds := tset none n.cmds p c }
def modRank (n : Node) (r : Nat) (f : Rank → Rank) : Node := { n with ranks := tmod {} n.ranks r f }
def modFront (n : Node) (ch : Nat) (f : Front → Front) : Node := { n with fronts := tmod {} n.fronts ch f }
def modAcq (n : Node) (ch : Nat) (f : Acq → Acq) : Node := { n with acqs := tmod {} n.acqs ch f }
def modDiag (n : Node) (ch : Nat) (f : Diag → Diag) : Node := { n with diags := tmod {} n.diags ch f }
def modStage (n : Node) (ch : Nat) (f : Stage → Stage) : Node := { n with stages := tmod {} n.stages ch f }
def setRes (n : Node) (ch : Nat) (r : Result) : Node := { n with res := tset {} n.res ch r }
def modPeer (n : Node) (i : Nat) (f : Peer → Peer) : Node := { n with peers := tmod {} n.peers i f }
def modPoint (n : Node) (k : Nat) (f : Point → Point) : Node := { n with points := tmod {} n.points k f }
def modGroup (n : Node) (g : Nat) (f : AlmGroup → AlmGroup) : Node := { n with groups := tmod {} n.groups g f }
def modStation (n : Node) (k : Nat) (f : Station → Station) : Node :=
  { n with stations := tmod {} n.stations k f }
def modLaunch (n : Node) (e : Nat) (f : Launch → Launch) : Node := { n with launches := tmod {} n.launches e f }
def modLane (n : Node) (l : Nat) (f : Lane → Lane) : Node := { n with lanes := tmod {} n.lanes l f }
def modCan (n : Node) (c : Nat) (f : CanCtl → CanCtl) : Node := { n with cans := tmod {} n.cans c f }
def modFn (n : Node) (k : Nat) (f : SafetyFn → SafetyFn) : Node :=
  { n with safety := { n.safety with fns := tmod {} n.safety.fns k f } }
def modOutput (n : Node) (k : Nat) (f : Output → Output) : Node :=
  { n with safety := { n.safety with outs := tmod {} n.safety.outs k f } }
def modPair (n : Node) (k : Nat) (f : PairSt → PairSt) : Node :=
  { n with safety := { n.safety with pairs := tmod {} n.safety.pairs k f } }
def modEval (n : Node) (c k : Nat) (f : Evaluator → Evaluator) : Node :=
  { n with safety := { n.safety with evals := tmod {} n.safety.evals (256 * c + k) f } }
def modEth (n : Node) (p : Nat) (f : EthPort → EthPort) : Node :=
  { n with net := { n.net with eth := tmod {} n.net.eth p f } }
def modSer (n : Node) (p : Nat) (f : SerPort → SerPort) : Node :=
  { n with net := { n.net with ser := tmod {} n.net.ser p f } }
def modCap (n : Node) (k : Nat) (f : Capture → Capture) : Node :=
  { n with rec_ := { n.rec_ with caps := tmod {} n.rec_.caps k f } }
def modAccount (n : Node) (a : Nat) (f : Account → Account) : Node :=
  { n with config := { n.config with accounts := tmod {} n.config.accounts a f } }
def setSession (n : Node) (path : Nat) (s : Option Session) : Node :=
  { n with config := { n.config with sessions := tset none n.config.sessions path s } }

/-! Time (03 R58, R59) -/

/-- What the slew of the frame under way has added at a CK_TB instant (03 R70): it runs evenly over one F. -/
def slewPart (n : Node) (t : Nat) : Int := n.slewBy * (min (t - n.slewFrom) n.period : Nat) / n.period

/-- Node time at a CK_TB instant: TAI ns. -/
def taiAt (n : Node) (t : Nat) : Nat := ((t : Int) + n.taiOff + slewPart n t).toNat

/-- Node time at an instant gone by, under the mapping then in force (13 R318). -/
def taiPast (n : Node) (t : Nat) : Nat :=
  match (n.tb.maps.filter (fun m => decide (t < m.until_))).getLast? with
  | some m => ((t : Int) + m.off + m.slewBy * (min (t - m.slewFrom) m.period : Nat) / m.period).toNat
  | none => taiAt n t

/-- Node time now. -/
def taiNow (n : Node) : Nat := taiAt n n.now

/-- Instant at which the lanes' evaluation of the frame is done: S plus the offset of 01 Table 01.2. It dates what the
evaluation detects (log entry 41). -/
def evalTime (n : Node) : Nat :=
  n.sampleT + (if n.period = 250000 then 175000 else if n.period = 500000 then 300000 else 400000)

/-- Start of an event: CK_TB never runs back, and the outputs of the step before are gone. -/
def begin_ (n : Node) (t : Nat) : Node := { n with now := max n.now t, outs := [] }

/-- Emission. -/
def emit (n : Node) (o : Out) : Node := { n with outs := n.outs ++ [o] }

/-- F in ns of a code of TB_PERIOD.SEL (03 Table 03.7). -/
def periodOf (sel : Nat) : Nat :=
  match sel with
  | 0 => 250000
  | 1 => 500000
  | 2 => 1000000
  | 3 => 2000000
  | 4 => 5000000
  | 5 => 10000000
  | 6 => 20000000
  | 7 => 50000000
  | 8 => 100000000
  | _ => 1000000

/-- Frames in whole seconds, rounded as 09 R198 does. -/
def framesPerSec (n : Node) : Nat := (2000000000 + n.period) / (2 * n.period)

/-! Interrupts (02 R39 to R41, R46) -/

/-- An event sets a bit of the page's IRQ_STAT and counts in DSEQ, whether or not the bit was 1 (02 R46). -/
def irqHeader (b : Nat) (h : Header) : Header :=
  { h with irqStat := h.irqStat ||| BitVec.ofNat 32 (2 ^ b), dseq := h.dseq + 1 }

/-- An event of a page. -/
def raise (n : Node) (p b : Nat) : Node := modHeader n p (irqHeader b)

/-- An event whose cause a shadow word shows from the next B on (02 R50). -/
def raiseB (n : Node) (p b : Nat) : Node := { n with dueB := n.dueB ++ [(p, b)] }

/-- An event whose cause a shadow word shows from the next RESULT_READY on (02 R50). -/
def raiseR (n : Node) (p b : Nat) : Node := { n with dueR := n.dueR ++ [(p, b)] }

/-- Event where a condition holds. -/
def raiseIf (c : Bool) (n : Node) (p b : Nat) : Node := if c then raise n p b else n
def raiseBIf (c : Bool) (n : Node) (p b : Nat) : Node := if c then raiseB n p b else n
def raiseRIf (c : Bool) (n : Node) (p b : Nat) : Node := if c then raiseR n p b else n

/-- Pages of a vector (02 Table 02.4), vectors 0 to 39. -/
def pagesOf (v : Nat) : List Nat :=
  match v with
  | 0 => [0x00]
  | 1 => 0x02 :: (List.range 16).map (· + 0x20)
  | 2 => 0x09 :: (List.range 16).map (· + 0x30)
  | 3 => 0x08 :: (List.range 12).map (· + 0x60)
  | 4 => [0x04]
  | 5 => [0x06]
  | 6 => [0x05]
  | 7 => [0x01]
  | 8 => 0x03 :: (List.range 16).map (· + 0x10)
  | 9 => [0x07]
  | 10 => [0x0A]
  | 11 => [0x0C]
  | 12 => (List.range 4).map (· + 0x58)
  | 13 => (List.range 2).map (· + 0x5C)
  | 14 => (List.range 2).map (· + 0x5E)
  | 15 => [0x0D]
  | v => if v < 40 then [0x40 + (v - 16)] else []

/-- Vector of a page (02 Table 02.4); a page without one answers 64. -/
def vectorOfPage (p : Nat) : Nat :=
  ((List.range 40).find? (fun v => (pagesOf v).contains p)).getD 64

/-- IRQ_STAT and IRQ_EN of a page have a common bit. -/
def pageIrq (n : Node) (p : Nat) : Bool :=
  let h := headerOf n p
  decide (h.irqStat &&& h.irqEn ≠ 0)

/-- CAN_HPB_CTRL.IEN of a controller (13 R306); its register lies at 0x09C of page 0x40 + c. -/
def hpbEnabled (n : Node) (c : Nat) : Bool := bit (tget 0 n.regs ((0x40 + c) * 4096 + 0x9C)) 0

/-- The condition of a vector (02 R40, 13 R306). -/
def condition (n : Node) (v : Nat) : Bool :=
  if v < 40 then (pagesOf v).any (pageIrq n)
  else hpbEnabled n (v - 40) && !(canOf n (v - 40)).hpb.isEmpty

/-- One vector as its condition stands now: on a rise, or where `again` holds and the condition stays 1, the message is
sent, or the PBA bit set where the vector is masked (02 R40). Whether a message is sent, and the vector. -/
def vectorStep (n : Node) (again : Bool) (v : Nat) : Bool × Vector_ :=
  let x := vectorOf n v
  let c := condition n v
  let fire := c && (!x.cond || again)
  (fire && !x.masked, { x with cond := c, pending := x.pending || (fire && x.masked) })

/-- Every vector settled: messages sent for the conditions that rose, and again for the vectors of `again`. -/
def settleWith (again : List Nat) (n : Node) : Node :=
  { n with
    vectors := tmodAll {} n.vectors (List.range 64) (fun v _ => (vectorStep n (again.contains v) v).2),
    outs := n.outs ++ ((List.range 64).filter (fun v => (vectorStep n (again.contains v) v).1)).map Out.msix }

/-- The end of every event. -/
def settle (n : Node) : Node := settleWith [] n

/-! Free values -/

/-- The next free value's number. -/
def drawn (n : Node) : Node := { n with free := n.free + 1 }

/-! Events on the state -/

/-- An event that acts on the node alone: the instant is taken up, the node changes, the interrupts settle. -/
def onNode (s : State) (t : Nat) (f : Node → Node) : State := { s with node := settle (f (begin_ s.node t)) }

/-- A measured quantity outside its range reads the nearer end of the range (18 R433). -/
def clampI (lo hi x : Int) : Int := max lo (min hi x)

/-- An event on the whole machine. -/
def onState (s : State) (t : Nat) (f : State → State) : State :=
  let s := f { s with node := begin_ s.node t }
  { s with node := settle s.node }

end Sys2Proof.Machine
end

