-- ==== Sys2Proof/Machine/Hash.lean ====
section
/-! DEFINITION. The password hash of 16 R368: PBKDF2-HMAC-SHA-256 with 200 000 iterations, a derived key of 32 bytes and a salt
of 16 bytes. The spec names the algorithms; their content is PRESUMED from FIPS 180-4, RFC 2104 and RFC 8018 (log entry 3). -/

namespace Sys2Proof.Machine

/-! SHA-256 -/

/-- Round constants. -/
def shaK0 : List Word :=
  [0x428A2F98, 0x71374491, 0xB5C0FBCF, 0xE9B5DBA5, 0x3956C25B, 0x59F111F1, 0x923F82A4, 0xAB1C5ED5,
   0xD807AA98, 0x12835B01, 0x243185BE, 0x550C7DC3, 0x72BE5D74, 0x80DEB1FE, 0x9BDC06A7, 0xC19BF174]
def shaK1 : List Word :=
  [0xE49B69C1, 0xEFBE4786, 0x0FC19DC6, 0x240CA1CC, 0x2DE92C6F, 0x4A7484AA, 0x5CB0A9DC, 0x76F988DA,
   0x983E5152, 0xA831C66D, 0xB00327C8, 0xBF597FC7, 0xC6E00BF3, 0xD5A79147, 0x06CA6351, 0x14292967]
def shaK2 : List Word :=
  [0x27B70A85, 0x2E1B2138, 0x4D2C6DFC, 0x53380D13, 0x650A7354, 0x766A0ABB, 0x81C2C92E, 0x92722C85,
   0xA2BFE8A1, 0xA81A664B, 0xC24B8B70, 0xC76C51A3, 0xD192E819, 0xD6990624, 0xF40E3585, 0x106AA070]
def shaK3 : List Word :=
  [0x19A4C116, 0x1E376C08, 0x2748774C, 0x34B0BCB5, 0x391C0CB3, 0x4ED8AA4A, 0x5B9CCA4F, 0x682E6FF3,
   0x748F82EE, 0x78A5636F, 0x84C87814, 0x8CC70208, 0x90BEFFFA, 0xA4506CEB, 0xBEF9A3F7, 0xC67178F2]
def shaK : List Word := shaK0 ++ shaK1 ++ shaK2 ++ shaK3

/-- The eight words of the state. -/
structure ShaState where
  a : Word
  b : Word
  c : Word
  d : Word
  e : Word
  f : Word
  g : Word
  h : Word
  deriving DecidableEq, Repr

def shaInit : ShaState where
  a := 0x6A09E667
  b := 0xBB67AE85
  c := 0x3C6EF372
  d := 0xA54FF53A
  e := 0x510E527F
  f := 0x9B05688C
  g := 0x1F83D9AB
  h := 0x5BE0CD19

def bigSigma0 (x : Word) : Word := x.rotateRight 2 ^^^ x.rotateRight 13 ^^^ x.rotateRight 22
def bigSigma1 (x : Word) : Word := x.rotateRight 6 ^^^ x.rotateRight 11 ^^^ x.rotateRight 25
def smallSigma0 (x : Word) : Word := x.rotateRight 7 ^^^ x.rotateRight 18 ^^^ (x >>> 3)
def smallSigma1 (x : Word) : Word := x.rotateRight 17 ^^^ x.rotateRight 19 ^^^ (x >>> 10)

/-- One round with its constant and its word of the schedule. -/
def shaRound (s : ShaState) (kw : Word × Word) : ShaState :=
  let t1 := s.h + bigSigma1 s.e + ((s.e &&& s.f) ^^^ (~~~s.e &&& s.g)) + kw.1 + kw.2
  let t2 := bigSigma0 s.a + ((s.a &&& s.b) ^^^ (s.a &&& s.c) ^^^ (s.b &&& s.c))
  { a := t1 + t2, b := s.a, c := s.b, d := s.c, e := s.d + t1, f := s.e, g := s.f, h := s.g }

/-- The schedule, newest word first: one word more from the last sixteen. -/
def shaExtend : Nat → List Word → List Word
  | 0, ws => ws
  | k + 1, ws =>
    shaExtend k ((smallSigma1 (ws.getD 1 0) + ws.getD 6 0 + smallSigma0 (ws.getD 14 0) + ws.getD 15 0) :: ws)

/-- Big-endian words of bytes. -/
def wordsBE : List Byte → List Word
  | x :: y :: z :: w :: r => (x ++ y ++ z ++ w) :: wordsBE r
  | _ => []

/-- Big-endian bytes of a word. -/
def bytesBE (w : Word) : List Byte := (bytesLE 4 w.toNat).reverse

/-- One block of 64 bytes. -/
def shaBlock (s : ShaState) (block : List Byte) : ShaState :=
  let u := (shaK.zip (shaExtend 48 (wordsBE block).reverse).reverse).foldl shaRound s
  { a := s.a + u.a, b := s.b + u.b, c := s.c + u.c, d := s.d + u.d,
    e := s.e + u.e, f := s.f + u.f, g := s.g + u.g, h := s.h + u.h }

/-- A message with its padding: a one bit, zeros, and its length in bits as 64 bits. -/
def shaPad (m : List Byte) : List Byte :=
  m ++ [0x80] ++ List.replicate ((119 - m.length % 64) % 64) 0 ++ (bytesLE 8 (8 * m.length)).reverse

/-- Blocks of 64 bytes. -/
def shaBlocks : Nat → List Byte → ShaState → ShaState
  | 0, _, s => s
  | k + 1, bs, s => shaBlocks k (bs.drop 64) (shaBlock s (bs.take 64))

def sha256 (m : List Byte) : List Byte :=
  let p := shaPad m
  let s := shaBlocks (p.length / 64) p shaInit
  [s.a, s.b, s.c, s.d, s.e, s.f, s.g, s.h].flatMap bytesBE

/-! HMAC and PBKDF2 -/

/-- HMAC-SHA-256: the key padded to a block. -/
def hmacSha256 (key m : List Byte) : List Byte :=
  let k := padTo 64 (if key.length ≤ 64 then key else sha256 key)
  sha256 (k.map (· ^^^ 0x5C) ++ sha256 (k.map (· ^^^ 0x36) ++ m))

/-- Further iterations: the last U and the sum so far. -/
def pbkdfLoop (pw : List Byte) : Nat → List Byte → List Byte → List Byte
  | 0, _, t => t
  | k + 1, u, t =>
    let v := hmacSha256 pw u
    pbkdfLoop pw k v (t.zipWith (· ^^^ ·) v)

/-- PBKDF2 with a derived key of one block, 32 bytes. -/
def pbkdf2 (iterations : Nat) (pw salt : List Byte) : List Byte :=
  let u := hmacSha256 pw (salt ++ [0, 0, 0, 1])
  pbkdfLoop pw (iterations - 1) u u

/-- What the node stores of a password (16 R368): the derived key under a salt of 16 bytes, as a number. -/
@[irreducible] def pwHash (pw : List Byte) (salt : Nat) : Nat := numLE (pbkdf2 200000 pw (bytesLE 16 salt))

end Sys2Proof.Machine
end

