-- ==== Sys2Proof/Machine/Crc.lean ====
section
/-! DEFINITION. CRC-32C as 15 R346 states it (polynomial 0x1EDC6F41 bit-reflected, initial value and final XOR all ones),
and CRC-64 as 11 R252 states it (polynomial of ECMA-182, initial value 0, no reflection). -/

namespace Sys2Proof.Machine

/-- One bit of the reflected register. -/
def crcBit (c : Nat) : Nat := if c % 2 = 1 then (c / 2) ^^^ 0x82F63B78 else c / 2

/-- One byte. -/
def crcByte (c : Nat) (b : Byte) : Nat :=
  crcBit (crcBit (crcBit (crcBit (crcBit (crcBit (crcBit (crcBit (c ^^^ b.toNat))))))))

/-- CRC-32C of bytes in order. -/
def crc32c (bs : List Byte) : Nat := (bs.foldl crcByte 0xFFFFFFFF) ^^^ 0xFFFFFFFF

/-- One bit of the CRC-64 register. -/
def crc64Bit (c : Nat) : Nat :=
  if 0x8000000000000000 ≤ c then (2 * c - 0x10000000000000000) ^^^ 0x42F0E1EBA9EA3693 else 2 * c

/-- One byte. -/
def crc64Byte (c : Nat) (b : Byte) : Nat :=
  crc64Bit (crc64Bit (crc64Bit (crc64Bit (crc64Bit (crc64Bit (crc64Bit (crc64Bit (c ^^^ (b.toNat * 0x100000000000000)))))))))

/-- CRC-64 of bytes in order. -/
def crc64 (bs : List Byte) : Nat := bs.foldl crc64Byte 0

end Sys2Proof.Machine
end

