-- ==== Sys2Proof/Machine/Regs.lean ====
section
/-! DEFINITION. The registers of every page a write can reach (the register tables of 02 to 19): where they lie, their
type, session level, node states, implemented bits and the value they hold where nothing has been written (the Reset
column; for `cfg` the factory value of 16 R434, Table 16.10). -/

namespace Sys2Proof.Machine

/-- Access types (00 Table 00.4); `cmd` is a command register, whose checks stand in Commands.lean. -/
inductive RegType where
  | rw
  | rwl
  | rws
  | wo
  | cmd
  deriving DecidableEq, Repr

/-- A register, or a block of n1 by n2 registers: register (i, j) lies at base + i * s1 + j * s2. -/
structure RegRow where
  base : Nat
  n1 : Nat := 1
  s1 : Nat := 4
  n2 : Nat := 1
  s2 : Nat := 4
  typ : RegType
  level : Nat := 0
  /-- Node states that admit a write: one bit a code of 17 Table 17.1. -/
  states : Nat := 31
  mask : Nat := 0xFFFFFFFF
  init : Nat := 0
  deriving DecidableEq, Repr

/-- The row holds offset o. -/
def rowHas (r : RegRow) (o : Nat) : Bool :=
  decide (r.base ≤ o) &&
    (let d := o - r.base
     let i := d / r.s1
     let e := d % r.s1
     if r.n2 = 1 then decide (i < r.n1) && e == 0
     else decide (i < r.n1) && e % r.s2 == 0 && decide (e / r.s2 < r.n2))

/-- 17 Table 17.7. -/
def rowsNode : List RegRow :=
  [{ base := 0x48, typ := .rwl, level := 3, states := 6, mask := 0xFF, init := 253 },
   { base := 0x54, typ := .cmd },
   { base := 0x60, typ := .rwl, level := 3, states := 6, mask := 0xFFFF },
   { base := 0x64, typ := .wo },
   { base := 0x70, typ := .rwl, level := 3, states := 6, mask := 1 }]

/-- 03 Table 03.7. -/
def rowsTb : List RegRow :=
  [{ base := 0x64, typ := .rwl, level := 3, states := 4, mask := 0xF, init := 2 },
   { base := 0x68, typ := .rwl, level := 2, mask := 0x00010777, init := 0x21 },
   { base := 0x6C, typ := .rwl, level := 2, mask := 0xFF033FFF, init := 0x80000000 },
   { base := 0x70, typ := .rwl, level := 2, init := 0xFF000000 },
   { base := 0x74, typ := .rwl, level := 2, mask := 0xFFFF0007 },
   { base := 0x78, typ := .rwl, level := 2, mask := 0xFFFF, init := 37 },
   { base := 0x7C, typ := .rwl, level := 2, mask := 0x0FFF007F, init := 0x0264000A },
   { base := 0x80, typ := .rwl, level := 2, mask := 0xFF, init := 60 },
   { base := 0x84, typ := .cmd },
   { base := 0x88, n1 := 2, typ := .rw }]

/-- 05 Table 05.10. -/
def rowsAcq : List RegRow :=
  [{ base := 0x44, typ := .rwl, level := 3, states := 4 },
   { base := 0x50, typ := .cmd },
   { base := 0x80, n1 := 16, typ := .rwl, level := 3, states := 4 },
   { base := 0x100, n1 := 64, typ := .rwl, level := 3, states := 4, mask := 0x81FFFFFF }]

/-- 11 Table 11.9. -/
def rowsLane : List RegRow :=
  [{ base := 0x50, typ := .rws, level := 3, states := 4, mask := 0x3FF, init := 72 },
   { base := 0x88, typ := .cmd }]

/-- 12 Table 12.9. -/
def rowsDpx : List RegRow :=
  [{ base := 0x58, typ := .rws, level := 3, states := 4, mask := 0x33, init := 0x10 },
   { base := 0x5C, typ := .cmd },
   { base := 0x60, typ := .rw, mask := 0xFFFF }]

/-- 16 Table 16.7. -/
def rowsCfg : List RegRow :=
  [{ base := 0x54, typ := .cmd },
   { base := 0x5C, typ := .cmd },
   { base := 0x60, typ := .rw, mask := 0x0701070F },
   { base := 0x70, n1 := 4, typ := .rw },
   { base := 0x80, n1 := 8, typ := .wo },
   { base := 0xA4, typ := .rwl, level := 4, mask := 0xFFFF, init := 15 },
   { base := 0xB0, typ := .rw, mask := 0x7FF },
   { base := 0x300, n1 := 8, typ := .wo }]

/-- 15 Table 15.7. -/
def rowsRec : List RegRow :=
  [{ base := 0x68, typ := .rwl, level := 2, mask := 0x3FF, init := 60 },
   { base := 0x70, typ := .cmd },
   { base := 0x74, typ := .cmd },
   { base := 0x78, n1 := 2, typ := .rw },
   { base := 0x80, typ := .rw, mask := 0x01FFFFFF },
   { base := 0x84, typ := .rw },
   { base := 0x100, n1 := 8, s1 := 0x40, typ := .rwl, level := 2, states := 12, mask := 0x831FFF1F, init := 1 },
   { base := 0x110, n1 := 8, s1 := 0x40, n2 := 8, typ := .rwl, level := 2, states := 12, mask := 0x81FF81FF }]

/-- 09 Table 09.3. -/
def rowsCall : List RegRow :=
  [{ base := 0x40, typ := .rwl, level := 2, states := 4, mask := 0x3F7, init := 0x150 },
   { base := 0x44, typ := .rwl, level := 2, states := 12, mask := 0xFFFF, init := 180 },
   { base := 0x48, typ := .rwl, level := 2, states := 12, mask := 0xFFFF, init := 300 },
   { base := 0x4C, typ := .rwl, level := 2, states := 12, mask := 0xFF, init := 10 },
   { base := 0x50, typ := .rwl, level := 2, states := 12, mask := 0xFF00FF, init := 0x3001B },
   { base := 0x54, typ := .rwl, level := 2, states := 4, mask := 0x3F00FF, init := 10 },
   { base := 0x58, typ := .cmd, init := 31 },
   { base := 0x5C, typ := .cmd },
   { base := 0x80, n1 := 8, typ := .rwl, level := 2, states := 4 },
   { base := 0x100, n1 := 16, typ := .rwl, level := 2, states := 4, mask := 0x871F0FFF }]

/-- 10 Table 10.11. -/
def rowsSaf : List RegRow :=
  [{ base := 0x44, typ := .cmd },
   { base := 0x100, n1 := 64, typ := .rws, level := 3, states := 4, mask := 0xBF0001FF },
   { base := 0x600, n1 := 64, s1 := 0x20, typ := .rws, level := 3, states := 4, mask := 0xE003FE00 },
   { base := 0x604, n1 := 64, s1 := 0x20, typ := .rws, level := 3, states := 4 },
   { base := 0x608, n1 := 64, s1 := 0x20, n2 := 4, typ := .rws, level := 3, states := 4, mask := 0x9FFF9FFF }]

/-- 08 Table 08.11. -/
def rowsAlm : List RegRow :=
  [{ base := 0x40, typ := .rwl, level := 2, states := 4, mask := 0x0FFF0FFF, init := 0x03E801E0 },
   { base := 0x44, typ := .rwl, level := 2, states := 4, mask := 0xFFFFFF },
   { base := 0x48, typ := .cmd },
   { base := 0x4C, typ := .rw },
   { base := 0x60, typ := .rw, mask := 0xFF },
   { base := 0x64, typ := .rwl, level := 2, states := 4, mask := 0xE000FFFF },
   { base := 0x68, typ := .rwl, level := 2, states := 12, mask := 0xFFFFFF },
   { base := 0x6C, typ := .rwl, level := 2, states := 4, mask := 0x80FF00FF },
   { base := 0xA0, typ := .rw, mask := 0x3FF },
   { base := 0xA4, n1 := 2, typ := .rwl, level := 2, states := 4 },
   { base := 0xAC, typ := .rwl, level := 2, states := 4, mask := 0x800007F7 },
   { base := 0xB0, n1 := 2, typ := .rwl, level := 2, states := 12, mask := 0xFFFFFF },
   { base := 0xB8, typ := .rwl, level := 2, states := 4, mask := 0x7FF03 }]

/-- 03 Table 03.9. -/
def rowsLch : List RegRow :=
  [{ base := 0x40, n1 := 2, typ := .rw },
   { base := 0x48, typ := .rw, mask := 0x01FF000F },
   { base := 0x4C, typ := .rw },
   { base := 0x50, typ := .cmd }]

/-- 19 Table 19.2. -/
def rowsLgc : List RegRow := [{ base := 0x40, typ := .rw, mask := 3 }]

/-- 02 Table 02.13. -/
def rowsMgt : List RegRow :=
  [{ base := 0x48, typ := .rw, mask := 7 },
   { base := 0x50, typ := .rw, mask := 1 },
   { base := 0x58, typ := .rw, mask := 0xFFFFF000 },
   { base := 0x5C, typ := .rw },
   { base := 0x60, typ := .rw, mask := 0x7FF, init := 16 },
   { base := 0x6C, typ := .cmd }]

/-- 17 Table 17.9. -/
def rowsPwr : List RegRow := [{ base := 0x50, typ := .rwl, level := 2, states := 30, mask := 0xFFFF }]

/-- 04 Tables 04.10, 04.12; 05 Table 05.3; 06 Table 06.8; 07 Table 07.7. -/
def rowsRnk : List RegRow :=
  [{ base := 0x70, typ := .cmd },
   { base := 0x100, n1 := 32, s1 := 0x20, typ := .rws, level := 3, states := 4, mask := 0xFFF },
   { base := 0x104, n1 := 32, s1 := 0x20, typ := .rws, level := 3, states := 4, mask := 0x001F7FF1 },
   { base := 0x108, n1 := 32, s1 := 0x20, typ := .rws, level := 3, states := 4, mask := 7 },
   { base := 0x10C, n1 := 32, s1 := 0x20, typ := .rws, level := 3, states := 4, mask := 0xFFFF0FFF },
   { base := 0x110, n1 := 32, s1 := 0x20, typ := .rws, level := 3, states := 4 },
   { base := 0x114, n1 := 32, s1 := 0x20, typ := .rws, level := 3, states := 4, mask := 0x00FF0307, init := 0x102 },
   { base := 0x118, n1 := 32, s1 := 0x20, typ := .rws, level := 3, states := 4 },
   { base := 0x500, n1 := 32, typ := .rw, mask := 0x3FFFF },
   { base := 0x800, n1 := 32, typ := .rws, level := 3, states := 4, mask := 0x83 }]

/-- 08 Table 08.10. -/
def rowsAlp : List RegRow :=
  [{ base := 0x44, typ := .rw, mask := 0xFF },
   { base := 0x48, typ := .rwl, level := 2, states := 4, mask := 0x83FFFF07 },
   { base := 0x4C, typ := .rwl, level := 2, states := 12 },
   { base := 0x50, n1 := 3, typ := .rwl, level := 2, states := 12, mask := 0xFFFFFF },
   { base := 0x5C, typ := .rwl, level := 2, states := 4, mask := 0x7FF03 }]

/-- 13 Table 13.7. -/
def rowsCan : List RegRow :=
  [{ base := 0x40, typ := .rwl, level := 2, states := 6, mask := 0x10FF032F, init := 0x00140020 },
   { base := 0x44, typ := .rwl, level := 2, states := 6, mask := 0xFFFF7F7F, init := 0x01450A0A },
   { base := 0x48, typ := .rwl, level := 2, states := 6, mask := 0x1F1F0F0F, init := 0x010E0505 },
   { base := 0x4C, typ := .rwl, level := 2, states := 6, mask := 0x8000007F, init := 0x8000001E },
   { base := 0x50, typ := .cmd, init := 31 },
   { base := 0x9C, typ := .rw, mask := 1 },
   { base := 0xA0, typ := .rwl, level := 2, states := 6, mask := 0x80000703, init := 0x80000202 },
   { base := 0xA4, typ := .rwl, level := 2, states := 6, mask := 0x80000703, init := 0x80000302 },
   { base := 0xA8, typ := .rwl, level := 2, states := 6, mask := 0x80000703, init := 0x80000403 },
   { base := 0xAC, typ := .rwl, level := 2, states := 6, mask := 0x80000703, init := 0x80000101 },
   { base := 0xB0, typ := .rwl, level := 2, states := 6, mask := 0x80000703, init := 0x80000003 },
   { base := 0xB4, typ := .rwl, level := 2, states := 6, mask := 0x80000703, init := 0x80000002 },
   { base := 0xB8, typ := .rwl, level := 2, states := 6, mask := 0x80000703, init := 0x80000001 },
   { base := 0xBC, typ := .rwl, level := 2, states := 6, mask := 0x80000703, init := 0x80000000 },
   { base := 0x150, typ := .wo },
   { base := 0x1D0, typ := .wo },
   { base := 0x250, typ := .wo },
   { base := 0x280, typ := .rw, mask := 0x3FFFFFFF },
   { base := 0x284, typ := .rw, mask := 0xDF00 },
   { base := 0x288, typ := .rw, mask := 0xFFFF },
   { base := 0x290, n1 := 16, typ := .rw },
   { base := 0x2D0, typ := .wo },
   { base := 0x310, typ := .wo },
   { base := 0x400, n1 := 64, s1 := 8, typ := .rwl, level := 2, states := 30, mask := 0x3FFFFFFF },
   { base := 0x404, n1 := 64, s1 := 8, typ := .rwl, level := 2, states := 30 }]

/-- 14 Table 14.14. -/
def rowsEth : List RegRow :=
  [{ base := 0x4C, typ := .rwl, level := 2, states := 4 },
   { base := 0x50, typ := .rwl, level := 2, states := 4, mask := 0x3F, init := 24 },
   { base := 0x54, typ := .rwl, level := 2, states := 4 },
   { base := 0x58, typ := .rwl, level := 2, states := 4, mask := 0xF },
   { base := 0x5C, typ := .rwl, level := 2, states := 4, mask := 0xFFFF3FFF, init := 0x44520001 },
   { base := 0x60, typ := .rwl, level := 2, states := 4, init := 0xEFC00001 },
   { base := 0x64, typ := .rwl, level := 2, states := 4, mask := 0xFFFF, init := 60001 },
   { base := 0x68, typ := .rwl, level := 2, states := 4 },
   { base := 0x6C, typ := .rwl, level := 2, states := 4, mask := 0xFFFF, init := 5120 },
   { base := 0x70, n1 := 2, s1 := 16, typ := .rwl, level := 2, states := 12 },
   { base := 0x74, n1 := 2, s1 := 16, typ := .rwl, level := 2, states := 12, mask := 0xFFFF00FF },
   { base := 0x78, n1 := 2, s1 := 16, typ := .rwl, level := 2, states := 12, mask := 0x7F01FF, init := 0x10000 },
   { base := 0x9C, typ := .cmd }]

/-- 14 Table 14.16. -/
def rowsSer : List RegRow :=
  [{ base := 0x44, typ := .rwl, level := 2, states := 4, mask := 0x80FFFF33, init := 0x00445200 },
   { base := 0x50, typ := .cmd }]

/-- 12 Table 12.11. -/
def rowsXl : List RegRow := [{ base := 0x4C, typ := .cmd }]

/-- 10 Table 10.12. -/
def rowsTrip : List RegRow :=
  [{ base := 0x100, n1 := 16, s1 := 0x60, n2 := 16, typ := .rws, level := 3, states := 4 },
   { base := 0x140, n1 := 16, s1 := 0x60, n2 := 8, typ := .rws, level := 3, states := 4 }]

/-- 10 Table 10.13. -/
def rowsSout : List RegRow :=
  [{ base := 0x100, n1 := 8, s1 := 0x20, typ := .rws, level := 3, states := 4, mask := 0xC3FF003F },
   { base := 0x104, n1 := 8, s1 := 0x20, typ := .rws, level := 3, states := 4, mask := 0xC01F01FF }]

/-- 10 Table 10.14. -/
def rowsSin : List RegRow :=
  [{ base := 0x100, n1 := 64, s1 := 0x10, typ := .rws, level := 3, states := 4, mask := 0xE007FFFF }]

/-- Block code of a page (02 Table 02.2); 0 for a reserved page. -/
def blockOf (p : Nat) : Nat :=
  if p ≤ 0x0D then p + 1
  else if p < 0x10 then 0
  else if p < 0x20 then 0x10
  else if p < 0x30 then 0x11
  else if p < 0x40 then 0x12
  else if p < 0x58 then 0x13
  else if p < 0x5C then 0x14
  else if p < 0x5E then 0x15
  else if p < 0x60 then 0x16
  else if p < 0x64 then 0x17
  else if p < 0x68 then 0x18
  else if p < 0x6C then 0x19
  else 0

/-- Instance of a page within its block (02 R36). -/
def instOf (p : Nat) : Nat :=
  if p < 0x10 then 0
  else if p < 0x40 then p % 16
  else if p < 0x58 then p - 0x40
  else if p < 0x5C then p - 0x58
  else if p < 0x5E then p - 0x5C
  else if p < 0x60 then p - 0x5E
  else p % 4

/-- The rows of a page. -/
def rowsOf (p : Nat) : List RegRow :=
  match blockOf p with
  | 0x01 => rowsNode
  | 0x02 => rowsTb
  | 0x03 => rowsAcq
  | 0x04 => rowsLane
  | 0x05 => rowsDpx
  | 0x06 => rowsCfg
  | 0x07 => rowsRec
  | 0x08 => rowsCall
  | 0x09 => rowsSaf
  | 0x0A => rowsAlm
  | 0x0B => rowsLch
  | 0x0C => rowsLgc
  | 0x0D => rowsMgt
  | 0x0E => rowsPwr
  | 0x10 => rowsRnk
  | 0x12 => rowsAlp
  | 0x13 => rowsCan
  | 0x14 => rowsEth
  | 0x15 => rowsSer
  | 0x16 => rowsXl
  | 0x17 => rowsTrip
  | 0x18 => rowsSout
  | 0x19 => rowsSin
  | _ => []

/-- The register at offset o of page p, where a write can reach one. -/
def rowAt (p o : Nat) : Option RegRow := (rowsOf p).find? (fun r => rowHas r o)

/-- PAGE_ID (02 Table 02.5, 19 R429). -/
def pageId (p : Nat) : Word :=
  if blockOf p = 0 then 0 else pack [(blockOf p, 24, 8), (instOf p, 16, 8), (1, 8, 8)]

/-- PAGE_CAP (19 Table 19.1). -/
def pageCap (p : Nat) : Nat :=
  match blockOf p with
  | 0x01 => 0x0000006F
  | 0x02 => 0x0000074F
  | 0x03 => 0x00400167
  | 0x04 => 0x0003082F
  | 0x05 => 0x0001042F
  | 0x06 => 0x00100697
  | 0x07 => 0x0008051F
  | 0x08 => 0x00100927
  | 0x09 => 0x0040032F
  | 0x0A => 0x14000227
  | 0x0B => 0x00000A0F
  | 0x0D => 0x00000B07
  | 0x0E => 0x00100F4F
  | 0x10 => 0x0020086F
  | 0x11 => 0x00200100
  | 0x12 => 0x01000247
  | 0x13 => 0x01C0004F + (16 + instOf p) * 256
  | 0x14 => 0x00020C4F
  | 0x15 => 0x00000D4F
  | 0x16 => 0x00000E0D
  | 0x17 => 0x0010036F
  | 0x18 => 0x0008036F
  | 0x19 => 0x0040036F
  | _ => 0

def hasSeq (p : Nat) : Bool := (pageCap p).testBit 0
def hasLock (p : Nat) : Bool := (pageCap p).testBit 1
def hasIrq (p : Nat) : Bool := (pageCap p).testBit 2
def hasShadow (p : Nat) : Bool := (pageCap p).testBit 3
def mpDep (p : Nat) : Bool := (pageCap p).testBit 4

/-- Value of a register that nothing has written: key as in Node.regs, its select part ignored. -/
def regInit (key : Nat) : Word :=
  let a := key % 1048576
  match rowAt (a / 4096) (a % 4096) with
  | some r => BitVec.ofNat 32 r.init
  | none => 0

/-- The active value of a register. -/
def reg (n : Node) (key : Nat) : Word := (lookup n.regs key).getD (regInit key)

/-- A register written. -/
def setReg (n : Node) (key : Nat) (v : Word) : Node := { n with regs := tset (regInit key) n.regs key v }

/-- The staged value of a register, where one is staged (16 R376). -/
def stagedOf (n : Node) (key : Nat) : Option Word := tget none n.staged key

/-- The value a commit judges: the staged value, or the active one (16 R377). -/
def regStaged (n : Node) (key : Nat) : Word := (stagedOf n key).getD (reg n key)

/-- Offsets: BAR0 offset of offset o of page p. -/
def at_ (p o : Nat) : Nat := p * 4096 + o

/-- Configuration registers of a channel: rank page, channel block (04 Table 04.12, 05 Table 05.3). -/
def chnKey (ch o : Nat) : Nat := at_ (0x10 + ch / 32) (0x100 + 0x20 * (ch % 32) + o)

/-- Key of a window register of slot i of ALP page p, of a derived point j, or of a group g (16 Table 16.3). -/
def selKey (sel key : Nat) : Nat := sel * 1048576 + key

end Sys2Proof.Machine
end

