-- ==== Sys2Proof/Machine/Operands.lean ====
section
/-! DEFINITION. What commands read of the node: its state codes, address, quality, holder, lanes, paths and times. -/

namespace Sys2Proof.Machine

/-- Code of a node state (17 Table 17.1). -/
def stateCode : NodeState → Nat
  | .init => 0
  | .standby => 1
  | .config => 2
  | .run => 3
  | .safe => 4

/-- The node's state code. -/
def nodeCode (n : Node) : Nat := stateCode n.nodeSt.state

def isRun (n : Node) : Bool := decide (n.nodeSt.state = .run)
def isConfig (n : Node) : Bool := decide (n.nodeSt.state = .config)

/-- CONFIG, RUN or SAFE: the lanes acquire and evaluate (08 R168). -/
def operational (n : Node) : Bool := decide (2 ≤ nodeCode n)

/-- A set of node states, one bit a code, holds the present one. -/
def inStates (n : Node) (m : Nat) : Bool := m.testBit (nodeCode n)

/-- DPX_CFG.EN: the module is one of a pair (12 R273). -/
def paired (n : Node) : Bool := bit (reg n (at_ 4 0x58)) 0

/-- The module is single or holds the output claim. -/
def holder (n : Node) : Bool := !paired n || n.duplex.ohold

/-- The module follows the holder's evaluation: it does not hold, and the last heartbeat it received showed a holder
(08 R188, 09 R212, 10 R239). -/
def follows (n : Node) : Bool :=
  paired n && !n.duplex.ohold && (match n.duplex.hb with | some h => h.head.ohold | none => false)

/-- The module is single or holds the time-class claim (03 R84). -/
def timeHolder (n : Node) : Bool := !paired n || n.duplex.thold

/-- The module is single or position A. -/
def posA (n : Node) : Bool := !paired n || !n.duplex.posB

/-- NODE_ADDR.ADDR. -/
def nodeAddr (n : Node) : Nat := fld (reg n (at_ 0 0x48)) 7 0

/-- TB_STAT.STATE. -/
def tbCode : TbState → Nat
  | .free => 0
  | .acquiring => 1
  | .locked => 2
  | .holdover => 3

/-- TB_STAT.SRC. -/
def srcCode : Option TimeSrc → Nat
  | none => 0
  | some .ptp => 1
  | some .can => 2
  | some .pps => 3
  | some .partner => 4

/-- Holdover at 0.5 ppm: LOCKED for at least 1 h before, cold plate steady (03 R68). -/
def holdFine (n : Node) : Bool :=
  n.tb.plateSteady &&
    (match n.tb.holdSince, n.tb.lockedSince with
     | some h, some l => decide (l + 3600000000000 ≤ h)
     | _, _ => false)

/-- TB_EST_ERR in ns at an instant; none before the first lock (03 R68, R69). -/
def estErrAt (n : Node) (t : Nat) : Option Nat :=
  n.tb.estErr.map (fun e =>
    match n.tb.ckFail with
    | some c => e + (t - c) * 20 / 1000000
    | none =>
      match n.tb.holdSince with
      | some h => if holdFine n then e + (t - h) / 2000000 else e + (t - h) * 2 / 1000000
      | none => e)

/-- TB_STAT.QUAL (03 R67, R69); 3 until the first lock (R65). -/
def qual (n : Node) : Nat :=
  if n.tb.ckFail.isSome then 2
  else if n.tb.timeFar.isSome then 3
  else
    match n.tb.state with
    | .locked => 0
    | .holdover =>
      match estErrAt n n.now with
      | some e => if e ≤ 100000 then 1 else 2
      | none => 3
    | _ => 3

/-- Lane state codes (11 Table 11.4). -/
def lanesTmr (n : Node) : Bool := n.laneSt.state == 0
def lanesDual (n : Node) : Bool := n.laneSt.state == 1
def lanesSingle (n : Node) : Bool := n.laneSt.state == 2
def lanesNone (n : Node) : Bool := n.laneSt.state == 3

/-- Frames of a number of nanoseconds, rounded down. -/
def framesOf (n : Node) (ns : Nat) : Nat := ns / n.period

/-- The mode of a channel (CHN_MODE.SEL) and its fields (04 Table 04.12). -/
def chnMode (n : Node) (ch : Nat) : Word := reg n (chnKey ch 0x00)
def chnSel (n : Node) (ch : Nat) : Nat := fld (chnMode n ch) 3 0
def chnSensor (n : Node) (ch : Nat) : Nat := fld (chnMode n ch) 7 4
def chnRange (n : Node) (ch : Nat) : Nat := fld (chnMode n ch) 9 8
def chnWiring (n : Node) (ch : Nat) : Nat := fld (chnMode n ch) 11 10
def chnCfg (n : Node) (ch : Nat) : Word := reg n (chnKey ch 0x04)
def chnExc (n : Node) (ch : Nat) : Nat := fld (reg n (chnKey ch 0x08)) 2 0
def chnCmp (n : Node) (ch : Nat) : Word := reg n (chnKey ch 0x0C)
def chnAux (n : Node) (ch : Nat) : Word := reg n (chnKey ch 0x10)
def chnFilt (n : Node) (ch : Nat) : Word := reg n (chnKey ch 0x14)
def chnScale (n : Node) (ch : Nat) : Word := reg n (chnKey ch 0x18)
def dgCfg (n : Node) (ch : Nat) : Word := reg n (at_ (0x10 + ch / 32) (0x800 + 4 * (ch % 32)))

/-- Safety function and output registers (10 Tables 10.11 to 10.14). -/
def sfCfg (n : Node) (k : Nat) : Word := reg n (at_ 8 (0x600 + 0x20 * k))
def sfOut (n : Node) (k : Nat) : Word := reg n (at_ 8 (0x604 + 0x20 * k))
def sfSlow (n : Node) (k w : Nat) : Word := reg n (at_ 8 (0x608 + 0x20 * k + 4 * w))
def aoMap (n : Node) (e : Nat) : Word := reg n (at_ 8 (0x100 + 4 * e))
def soCfg (n : Node) (o : Nat) : Word := reg n (at_ (0x64 + o / 8) (0x100 + 0x20 * (o % 8)))
def soFb (n : Node) (o : Nat) : Word := reg n (at_ (0x64 + o / 8) (0x104 + 0x20 * (o % 8)))
def sinCfg (n : Node) (k : Nat) : Word := reg n (at_ (0x68 + k / 64) (0x100 + 0x10 * (k % 64)))
def tripCmp (n : Node) (k w : Nat) : Word := reg n (at_ (0x60 + k / 16) (0x100 + 0x60 * (k % 16) + 4 * w))
def tripSin (n : Node) (k w : Nat) : Word := reg n (at_ (0x60 + k / 16) (0x140 + 0x60 * (k % 16) + 4 * w))

/-- Function k is enabled. -/
def sfEn (n : Node) (k : Nat) : Bool := bit (sfCfg n k) 31

/-- Enabled functions, ascending. -/
def enabledFns (n : Node) : List Nat :=
  n.regs.filterMap (fun e => if 0x8600 ≤ e.1 ∧ e.1 < 0x8E00 ∧ e.1 % 0x20 = 0 ∧ bit e.2 31 then some ((e.1 - 0x8600) / 0x20) else none)

/-- Enabled pairs, ascending (SIN_CFG.EN). -/
def enabledPairs (n : Node) : List Nat :=
  n.regs.filterMap (fun e =>
    if 0x68000 ≤ e.1 ∧ e.1 < 0x6C000 ∧ 0x100 ≤ e.1 % 4096 ∧ e.1 % 4096 < 0x500 ∧ e.1 % 0x10 = 0 ∧ bit e.2 31 then
      some (64 * ((e.1 / 4096) - 0x68) + (e.1 % 4096 - 0x100) / 0x10)
    else none)

/-- Enabled outputs, ascending (SO_CFG.EN). -/
def enabledOuts (n : Node) : List Nat :=
  n.regs.filterMap (fun e =>
    if 0x64000 ≤ e.1 ∧ e.1 < 0x68000 ∧ 0x100 ≤ e.1 % 4096 ∧ e.1 % 4096 < 0x200 ∧ e.1 % 0x20 = 0 ∧ bit e.2 31 then
      some (8 * ((e.1 / 4096) - 0x64) + (e.1 % 4096 - 0x100) / 0x20)
    else none)

/-- Controller registers (13 Table 13.7). -/
def canReg (n : Node) (c o : Nat) : Word := reg n (at_ (0x40 + c) o)

/-- Path constants: the host link is path 0 (16 R372). -/
def hostPath : Nat := 0

/-- The level of the session of a path, where one is open. -/
def sessionLevel (n : Node) (path : Nat) : Option Nat := (sessionOf n path).map (·.level)

/-- A path's session may give a command of a level (16 R366, R370): level 0 needs an open session only. -/
def levelOk (n : Node) (path need : Nat) : Bool :=
  match sessionOf n path with
  | some s => decide (need ≤ s.level) && !(accountOf n s.account).mustchg
  | none => false

/-- The management processor is in RUN. -/
def mpRun (n : Node) : Bool := decide (n.mgt.state = .run)

end Sys2Proof.Machine
end

