-- ==== Sys2Proof/Machine/Records.lean ====
section
/-! DEFINITION. Records: their layout (15 Tables 15.1, 15.2), how events raise them (15 Table 15.3) and how Scarab stages
them (15 R347, R350, R351, R353). -/

namespace Sys2Proof.Machine

/-- Origins (15 Table 15.2 SRC.ORIGIN). -/
def oLanes : Nat := 0
def oMp : Nat := 1
def oScarab : Nat := 2
def oFabric : Nat := 3
def oCan : Nat := 4
def oCicada : Nat := 5

/-- Bytes of a record's payload with its padding. -/
def padded (p : List Byte) : List Byte := p ++ List.replicate ((4 - p.length % 4) % 4) 0

/-- LEN. -/
def recLen (r : Rec) : Nat := 32 + (padded r.payload).length

/-- The bytes of a staged record up to its CRC (15 Table 15.1). -/
def recBody (s : SRec) : List Byte :=
  bytesLE 2 (recLen s.body) ++ bytesLE 2 s.body.typ ++ bytesLE 2 s.flags ++
  bytesLE 2 (s.body.origin * 4096 + s.body.page) ++ bytesLE 8 s.rseq ++ bytesLE 8 s.body.time ++
  bytesLE 4 s.link ++ padded s.body.payload

/-- The whole record. -/
def recBytes (s : SRec) : List Byte := recBody s ++ bytesLE 4 s.crc

/-- Bytes of records. -/
def bytesOf (l : List SRec) : Nat := (l.map (fun s => recLen s.body)).sum

/-- Bytes of staged records. -/
def stagedBytes (n : Node) : Nat := bytesOf n.rec_.staging

/-- Free staging for records: 3 MiB less the staged bytes (15 R351). -/
def freeStaging (n : Node) : Nat := 3145728 - stagedBytes n

/-- Admission of a record by its type (15 R351). -/
def admits (n : Node) (r : Rec) : Bool :=
  let f := freeStaging n
  if r.typ = 11 then decide (1048576 ≤ f) && !n.power.pfail
  else if [1, 9, 13, 14, 15, 16].contains r.typ then decide (262144 ≤ f)
  else decide (recLen r ≤ f)

/-- FLAGS of a record staged now with a VOTE code (15 Table 15.2). -/
def recFlags (n : Node) (r : Rec) (vote : Nat) : Nat :=
  b2n (holder n) * 128 + b2n (posA n) * 64 + qual n * 16 + b2n r.cont * 8 +
  b2n (decide (n.rec_.store = .mram)) * 4 + vote

/-- A capture record's CAPID: the header takes its own RSEQ, a part the header's (15 Table 15.5). -/
def withCapId (n : Node) (rseq : Nat) (r : Rec) : Rec :=
  match r.cap with
  | none => r
  | some d =>
    let hdr := numLE ((r.payload.drop 4).take 2) = 0
    let id := if hdr then rseq % 4294967296 else (capOf n d).capid
    { r with payload := bytesLE 4 id ++ r.payload.drop 4 }

/-- What the staging of a record does beside the record: the change log entry and the capture definition that name it. -/
def afterStage (n : Node) (rseq : Nat) (r : Rec) : Node :=
  let n := match r.logSlot with
    | none => n
    | some k => { n with config := { n.config with
        log := tmod none n.config.log k (fun e => e.map (fun e => { e with rseq := rseq })) } }
  match r.cap with
  | none => n
  | some d => modCap n d (fun c =>
      { c with parts := c.parts + 1,
               capid := if numLE ((r.payload.drop 4).take 2) = 0 then rseq % 4294967296 else c.capid })

def modRec (n : Node) (f : Recorder → Recorder) : Node := { n with rec_ := f n.rec_ }

/-! Stores (15 R352, R357, R359) -/

/-- The failure record pinned in the MRAM (15 R361). -/
def pinned (s : SRec) : Bool := s.body.typ == 17 && decide (s.body.payload.head? = some 1)

/-- The MRAM ring: the oldest records not pinned are overwritten past 1 MiB less the pinned 4 KiB (15 R361). -/
def mramTrim (fuel : Nat) (l : List SRec) : List SRec :=
  match fuel with
  | 0 => l
  | f + 1 =>
    if bytesOf (l.filter (fun s => !pinned s)) ≤ 1044480 then l
    else
      match l.find? (fun s => !pinned s) with
      | some x => mramTrim f (l.erase x)
      | none => l

/-- The records, in order, that fit in so many bytes. -/
def fitting (left : Nat) : List SRec → List SRec
  | [] => []
  | s :: r => if recLen s.body ≤ left then s :: fitting (left - recLen s.body) r else []

/-- What the ring of usable segments still takes (15 R360). -/
def flashRoom (n : Node) : Nat := n.rec_.segs * 1048576 - bytesOf n.rec_.flash

/-- The staged records `now_` committed, in RSEQ order, to the store in use (15 R352); `later` stay staged, and so does what
the segments of the flash do not take before the next erasure (15 R360). -/
def commitSome (n : Node) (now_ later : List SRec) : Node :=
  modRec n (fun r =>
    match r.store with
    | .none => r
    | .flash =>
      let f := fitting (flashRoom n) now_
      { r with flash := r.flash ++ f, staging := now_.drop f.length ++ later,
               committed := (f.getLast?.map (·.rseq)).getD r.committed }
    | .mram =>
      let m := r.mram ++ now_
      { r with mram := mramTrim m.length m, staging := later,
               committed := (now_.getLast?.map (·.rseq)).getD r.committed })

/-- The staged records with RSEQ up to `q` committed. -/
def commitTo (n : Node) (q : Nat) : Node :=
  commitSome n (n.rec_.staging.filter (fun s => decide (s.rseq ≤ q))) (n.rec_.staging.filter (fun s => !decide (s.rseq ≤ q)))

/-- Records of both stores in RSEQ order (15 R357). -/
def insertRec (x : SRec) : List SRec → List SRec
  | [] => [x]
  | y :: r => if x.rseq ≤ y.rseq then x :: y :: r else y :: insertRec x r
def committedRecs (n : Node) : List SRec := n.rec_.mram.foldl (fun l x => insertRec x l) n.rec_.flash

/-- RSEQ of the newest committed record. -/
def newestCommitted (n : Node) : Nat :=
  max ((n.rec_.flash.map (·.rseq)).foldl max 0) ((n.rec_.mram.map (·.rseq)).foldl max 0)

/-- What a CLEAR up to an RSEQ removes: every committed record up to it but CLEAR records (15 R359). -/
def goes (last : Nat) (s : SRec) : Bool := decide (s.rseq ≤ last) && s.body.typ != 8

/-- The payload of a CLEAR: FIRST, LAST, LASTCRC and COUNT of what it removes, and the account. -/
def clearPayload (n : Node) (last : Nat) (account : List Byte) : List Byte :=
  let rem := (committedRecs n).filter (goes last)
  bytesLE 8 ((rem.head?.map (·.rseq)).getD 0) ++ bytesLE 8 ((rem.getLast?.map (·.rseq)).getD 0) ++
  bytesLE 4 ((rem.getLast?.map (·.crc)).getD 0) ++ bytesLE 4 rem.length ++ account

/-- The CLEAR record gets its range as it is staged. -/
def withRange (n : Node) (r : Rec) : Rec :=
  match r.clearTo with
  | none => r
  | some last => { r with payload := clearPayload n last (r.payload.drop 24) }

/-- The CLEAR record, staged at RSEQ `q`, is committed first, and then its range goes from both stores. One that no store takes,
or that staging did not admit, removes nothing, and its command ends FAILED (15 R359; log entry 107). -/
def finishClear (n : Node) (q : Option Nat) (r : Rec) : Node :=
  match r.clearTo with
  | none => n
  | some last =>
    let n := match q with
      | some q => commitTo n q
      | none => n
    let ok := (n.rec_.flash ++ n.rec_.mram).any (fun s => some s.rseq == q)
    let keep := fun (l : List SRec) => if ok then l.filter (fun s => !goes last s) else l
    modRec n (fun r => { r with flash := keep r.flash, mram := keep r.mram, clearDone := some ok })

/-- A discard (15 R351, R353): counted, and a capture one of whose parts is discarded ends ABORTED. -/
def discardRec (n : Node) (r : Rec) : Node :=
  let tai := taiNow n
  let first := n.rec_.overrun.isNone
  let o := n.rec_.overrun.getD { first := tai }
  let ab := match r.cap with
    | some d => decide ((capOf n d).state = .capturing)
    | none => false
  let o := { o with records := o.records + 1, bytes := o.bytes + recLen r, last := tai, captures := o.captures + b2n ab }
  let n := { n with rec_ := { n.rec_ with disc := sat 4294967295 (n.rec_.disc + 1), overrun := some o } }
  let n := raiseIf first n 6 3
  match r.cap with
  | some d => if ab then raiseB (modCap n d (fun c => { c with state := .aborted, slots := [] })) 6 1 else n
  | none => n

/-- A further part of a capture that was aborted is not staged (15 R351). -/
def cancelled (n : Node) (r : Rec) : Bool :=
  match r.cap with
  | some d => decide ((capOf n d).state = .aborted)
  | none => false

/-- A record staged within 5 ms of a power-fail is committed before the rails go off, and what was staged before it with it,
since commits go in RSEQ order (15 R363, R347; log entry 19). -/
def sureOf (n : Node) (q : Nat) : Node :=
  if n.power.pfail && decide (n.now ≤ n.power.pfailAt + 5000000) then
    { n with power := { n.power with sure := q } }
  else n

/-- Records staged in the last second (15 Table 15.7). -/
def rateNow (n : Node) : Nat := (n.rec_.stagedAt.takeWhile (fun t => decide (n.now < t + 1000000000))).length

/-- One more record staged. -/
def countStaged (n : Node) : Node :=
  let l := n.now :: n.rec_.stagedAt.takeWhile (fun t => decide (n.now < t + 1000000000))
  { n with rec_ := { n.rec_ with stagedAt := l, ratePeak := max n.rec_.ratePeak l.length } }

/-- Scarab stages one record: RSEQ, LINK and CRC in staging order (15 R347). -/
def stageRec (n : Node) (vote : Nat) (r : Rec) : Node :=
  if cancelled n r then n
  else if !admits n r then finishClear (discardRec n r) none r
  else
    let q := n.rec_.nextRseq
    let r' := withRange n (withCapId n q r)
    let s : SRec := { rseq := q, link := n.rec_.lastCrc, crc := 0, flags := recFlags n r vote,
                      mram := decide (n.rec_.store = .mram), body := r' }
    let c := crc32c (recBody s)
    let n := { n with rec_ := { n.rec_ with
      nextRseq := q + 1, lastRseq := q, lastCrc := c, staging := n.rec_.staging ++ [{ s with crc := c }] } }
    finishClear (afterStage (countStaged (sureOf n q)) q r') (some q) r'

/-- An event's record goes to the lanes' list of the frame, or to Scarab in order of arrival: it waits for the vote of its
frame, after which it is staged at once (15 R350, R351). -/
def note (n : Node) (r : Rec) : Node :=
  if r.origin = oLanes then { n with rec_ := { n.rec_ with laneRecs := n.rec_.laneRecs ++ [r] } }
  else if n.rec_.frameStaged && n.rec_.ready then stageRec n 3 r
  else { n with rec_ := { n.rec_ with waiting := n.rec_.waiting ++ [r] } }

/-- A record where a condition holds. -/
def noteIf (c : Bool) (n : Node) (r : Rec) : Node := if c then note n r else n

/-- Several, in order. -/
def stageRecs (n : Node) (vote : Nat) (rs : List Rec) : Node := rs.foldl (fun n r => stageRec n vote r) n

/-- VOTE code of a lane record (15 Table 15.2, 11 R255). -/
def laneVote (n : Node) : Nat := if lanesSingle n then 2 else if n.laneSt.copies = 3 then 0 else 1

/-- A CLEAR that has been carried out, or could not be, gives its command its end. -/
def settleClear (n : Node) : Node :=
  match n.rec_.clearDone with
  | some ok => setCmd (modRec n (fun r => { r with clearDone := none })) 6
      ((cmdOf n 6).map (fun c => { c with result := some ok }))
  | none => n

/-- The records that wait for Scarab are staged in order of arrival; those of the lanes kept since before READY with the vote of
now (15 R350, R435). -/
def stageWaiting (n : Node) : Node :=
  let ws := n.rec_.waiting
  let n := modRec n (fun r => { r with waiting := [] })
  settleClear (ws.foldl (fun n r => stageRec n (if r.origin = oLanes then laneVote n else 3) r) n)

/-- Lane records of the frame that no vote delivers: each is a discard (15 R350, R353). -/
def discardLanes (n : Node) : Node :=
  let ls := n.rec_.laneRecs
  ls.foldl discardRec (modRec n (fun r => { r with laneRecs := [] }))

/-- The staging of a frame (15 R351): the lane records where the vote is resolved, then the others; nothing before READY
but the keeping in order (15 R435). Lane records of an unresolved vote are discarded (15 R350). -/
def stageFrame (n : Node) (resolved : Bool) : Node :=
  let n := if resolved then n else discardLanes n
  let ls := n.rec_.laneRecs
  let n := modRec n (fun r => { r with laneRecs := [], frameStaged := true })
  if n.rec_.ready then stageWaiting (stageRecs n (laneVote n) ls)
  else modRec n (fun r => { r with waiting := r.waiting ++ ls })

/-! Payloads (15 Table 15.3) -/

def byteOf (k : Nat) : Byte := BitVec.ofNat 8 k
def wordBytes (w : Word) : List Byte := bytesLE 4 w.toNat

/-- The page of a point: ALP for the limit points, ALM for derived ones (08 R168). -/
def ptPage (k : Nat) : Nat := if k < 4096 then 0x30 + k / 256 else 9

/-- The page an ALARM record concerns: that of the point; ALM for first-out; CALL for what the engineer call does. -/
def almRecPage (event index : Nat) : Nat :=
  if event = 4 ∨ event = 5 then 9 else if 6 ≤ event ∧ event ≤ 11 then 7 else ptPage index

/-- ALARM, of the lanes at S of the frame. -/
def recAlarm (n : Node) (event index old new source q time : Nat) : Rec :=
  { typ := 1, origin := oLanes, page := almRecPage event index, time := n.sampleT,
    payload := [byteOf event, 0] ++ bytesLE 2 index ++ [byteOf old, byteOf new, byteOf source, byteOf q] ++
               bytesLE 8 time }

/-- TRIP, at SAF_SF_T. -/
def recTrip (time fn cause : Nat) (st : Word) : Rec :=
  { typ := 2, origin := oLanes, page := 0x08, time := time,
    payload := [byteOf fn, byteOf cause, 0, 0] ++ wordBytes st ++ bytesLE 8 0 }

/-- SAFETY_FAULT, at its detection. -/
def recSafety (time kind : Nat) (set : Bool) (index code page : Nat) (st : Word) : Rec :=
  { typ := 3, origin := oLanes, page := page, time := time,
    payload := [byteOf kind, byteOf (b2n set)] ++ bytesLE 2 index ++ [byteOf code, 0, 0, 0] ++ wordBytes st }

/-- LANE; NONE is Scarab's. -/
def recLane (n : Node) (event lane old new cause area elem : Nat) : Rec :=
  { typ := 4, origin := if event = 4 then oScarab else oLanes, page := 0x03, time := taiNow n,
    payload := [byteOf event, byteOf lane, byteOf old, byteOf new, byteOf cause, byteOf area] ++ bytesLE 2 elem ++
               bytesLE 4 n.frame }

/-- DUPLEX, at B of the change. -/
def recDuplex (n : Node) (event old new cause index : Nat) (st : Word) : Rec :=
  { typ := 5, origin := oLanes, page := 0x04, time := taiAt n n.bAt,
    payload := [byteOf event, byteOf old, byteOf new, byteOf cause] ++ bytesLE 2 index ++ [0, 0] ++ wordBytes st }

/-- CHANGE. -/
def recChange (e : LogEntry) (origin slot : Nat) : Rec :=
  { typ := 6, origin := origin, page := (e.param % 1048576) / 4096, time := e.time,
    payload := [byteOf e.account, byteOf e.stage] ++ bytesLE 2 e.hseq.toNat ++ bytesLE 4 e.param ++
               wordBytes e.old ++ wordBytes e.new,
    logSlot := some slot }

/-- SESSION. -/
def recSession (n : Node) (event level account : Nat) (check : Word) (num ch : Nat) : Rec :=
  { typ := 7, origin := oMp, page := 0x05, time := taiNow n,
    payload := [byteOf event, byteOf level, byteOf account, 0] ++ wordBytes check ++ bytesLE 2 num ++ bytesLE 2 ch }

/-- CLEAR up to an RSEQ. -/
def recClearRec (n : Node) (last account : Nat) : Rec :=
  { typ := 8, origin := oMp, page := 0x06, time := taiNow n, clearTo := some last,
    payload := List.replicate 24 0 ++ [byteOf account, 0, 0, 0] }

/-- TIME. -/
def recTime (n : Node) (reason : Nat) (old : List Byte) (new : Nat) (f : Nat) : Rec :=
  { typ := 9, origin := oCicada, page := 0x01, time := taiNow n,
    payload := [byteOf reason, byteOf (tbCode n.tb.state), byteOf (srcCode n.tb.sel), byteOf (qual n)] ++
               padTo 8 old ++ bytesLE 8 new ++ bytesLE 4 f }

/-- POWER (17 Table 17.6); byte 3 of a state change holds SAFE_CAUSE. -/
def recPower (n : Node) (event detail b2 b3 lost0 lost1 : Nat) : Rec :=
  { typ := 10, origin := oScarab, page := if event = 6 ∨ event = 4 ∨ event = 5 then 0x00 else 0x0D, time := taiNow n,
    payload := [byteOf event, byteOf detail, byteOf b2, byteOf b3] ++ bytesLE 8 lost0 ++ bytesLE 8 lost1 }

/-- OVERRUN. -/
def recOverrun (n : Node) (o : Overrun) : Rec :=
  { typ := 12, origin := oScarab, page := 0x06, time := taiNow n,
    payload := bytesLE 4 o.records ++ bytesLE 4 o.bytes ++ bytesLE 8 o.first ++ bytesLE 8 o.last ++
               bytesLE 4 o.captures }

/-- COMMAND. -/
def recCommand (n : Node) (page : Nat) (c : Command) (res : Nat) : Rec :=
  { typ := 13, origin := if mpDep page then oMp else oFabric, page := page, time := taiNow n,
    payload := bytesLE 2 c.hseq.toNat ++ [byteOf res, 0] ++ bytesLE 4 (c.off % 4096) ++ wordBytes c.value }

/-- COMM. -/
def recComm (n : Node) (event ctrl : Nat) (w : Word) : Rec :=
  { typ := 14, origin := oCan, page := 0x40 + ctrl, time := taiNow n,
    payload := [byteOf event, byteOf ctrl, 0, 0] ++ wordBytes w }

/-- MP. -/
def recMp (n : Node) (event old new : Nat) (wdog : Bool) : Rec :=
  { typ := 15, origin := if event = 3 then oMp else oFabric, page := 0x0C, time := taiNow n,
    payload := [byteOf event, byteOf old, byteOf new, byteOf (b2n wdog)] }

/-- S of a frame of the running grid. -/
def frameS (n : Node) (k : Nat) : Nat := ((n.sampleT : Int) + ((k : Int) - n.frame) * n.period).toNat

/-- LAUNCH, at S of frame N. -/
def recLaunch (n : Node) (entry state act tgt : Nat) (arg : Word) : Rec :=
  { typ := 16, origin := oLanes, page := 0x0A, time := frameS n tgt,
    payload := [byteOf entry, byteOf state, byteOf act, 0] ++ bytesLE 8 tgt ++ wordBytes arg }

/-- RECORDER. -/
def recRecorder (n : Node) (event reason val : Nat) : Rec :=
  { typ := 17, origin := oScarab, page := 0x06, time := taiNow n,
    payload := [byteOf event, byteOf reason, 0, 0] ++ bytesLE 4 val ++ bytesLE 8 (newestCommitted n) }

end Sys2Proof.Machine
end

