-- ==== Sys2Proof/Machine/Commands.lean ====
section
/-! DEFINITION. The command protocol of the pages (02 R42 to R46): the order of the checks, acceptance, the end of a
command, the change log (16 R376) and the range of every field of a parameter register. -/

namespace Sys2Proof.Machine

/-- What an owning chapter asks of a command: its code names a command, the node state admits it, the session suffices,
and every other value is in range. -/
structure CmdCheck where
  code : Bool := true
  state : Bool := true
  level : Bool := true
  value : Bool := true
  /-- The management processor takes it: false where new sessions are shed (02 Table 02.12). -/
  mp : Bool := true
  deriving DecidableEq, Repr

/-- How a command write is judged (02 R44): `refuse` carries the CMD_RES code. -/
inductive Verdict where
  | duplicate
  | refuse (code : Nat)
  | accept
  deriving DecidableEq, Repr

/-- While the lanes are in NONE, pages without MP_DEP other than LANE, MGT and NODE refuse commands (11 R261). -/
def shutPage (n : Node) (p : Nat) : Bool := lanesNone n && !mpDep p && p != 0 && p != 3 && p != 0x0C

/-- The judgement of a command write, checks in the order of 02 R44. -/
def judge (n : Node) (path p : Nat) (c : CmdCheck) : Verdict :=
  let q := seqOf n path p
  if q.hseq = q.echo then .duplicate
  else if q.hseq ≠ q.echo + 1 then .refuse 7
  else if (headerOf n p).locked then .refuse 8
  else if (cmdOf n p).isSome then .refuse 3
  else if (mpDep p && !mpRun n) || !c.mp then .refuse 6
  else if !c.code then .refuse 9
  else if !c.state || shutPage n p then .refuse 4
  else if !c.level then .refuse 5
  else if !c.value then .refuse 9
  else .accept

/-- CMD_RES of a path's page. -/
def setCmdRes (n : Node) (path p code : Nat) : Node := modSeq n path p (fun q => { q with cmdRes := code })

/-- The restart of a session's timeout at an accepted command (16 R374). -/
def touchSession (n : Node) (path : Nat) : Node :=
  match sessionOf n path with
  | some s => setSession n path (some { s with last := n.now })
  | none => n

/-- Acceptance (02 R44): ECHO, BUSY, CMD_RES. -/
def acceptCmd (n : Node) (path p off : Nat) (v : Word) : Node :=
  let h := (seqOf n path p).hseq
  let n := modSeq n path p (fun q => { q with echo := h, cmdRes := 1 })
  let n := setCmd n p (some { path := path, off := off, value := v, hseq := h, result := none, since := n.now })
  touchSession n path

/-- How the command in progress on a page will end. -/
def resolveCmd (n : Node) (p : Nat) (r : Option Bool) : Node :=
  setCmd n p ((cmdOf n p).map (fun c => { c with result := r }))

/-- The lanes take the effect of the command in progress up at a B (02 R45). -/
def byLanes (n : Node) (p : Nat) : Node := setCmd n p ((cmdOf n p).map (fun c => { c with lanes := true }))

/-- The owning chapter gives the command in progress an end of its own: it ends once its outcome is decided (02 R45). -/
def ownEnd (n : Node) (p : Nat) : Node := setCmd n p ((cmdOf n p).map (fun c => { c with lanes := false }))

/-- The command in progress does not end before an instant. -/
def delayCmd (n : Node) (p at_ : Nat) : Node :=
  setCmd n p ((cmdOf n p).map (fun c => { c with notBefore := at_ }))

/-- A command write: judged, and on acceptance its effect (the effect answers how the command will end). -/
def runCommand (n : Node) (path p off : Nat) (v : Word) (c : CmdCheck) (eff : Node → Node × Option Bool) : Node :=
  match judge n path p c with
  | .duplicate => n
  | .refuse code => setCmdRes n path p code
  | .accept =>
    let r := eff (acceptCmd n path p off v)
    resolveCmd r.1 p r.2

/-- An effect that always ends DONE. -/
def done (f : Node → Node) : Node → Node × Option Bool := fun n => (f n, some true)

/-- The passwords of a path: cleared at the end of every command of the CFG page, accepted or refused (16 R368, R371). -/
def clearPasswords (n : Node) (path : Nat) : Node :=
  { n with config := { n.config with pw := n.config.pw.filter (fun e => e.1 / 16 ≠ path) } }

/-- The confirmation window runs from the end of the COMMIT (16 R377). -/
def commitWindow (n : Node) (c : Command) (ok : Bool) : Node :=
  if ok && c.off % 4096 == 0x5C && fld c.value 3 0 == 4 then
    { n with config := { n.config with pend := n.config.pend.map (fun p => { p with until_ := n.now + 600000000000 }) } }
  else n

/-- The command in progress may end now (02 R45): its earliest end has come, and what the lanes took up has been followed by
a RESULT_READY, or the bound of 3 F has passed. -/
def mayEnd (n : Node) (c : Command) : Bool :=
  decide (c.notBefore ≤ n.now) && (!c.lanes || c.shown || decide (c.since + 3 * n.period ≤ n.now))

/-- What pages still show of parameters, the parameters of page p apart (02 R45). -/
def showPage (n : Node) (p : Nat) : Node :=
  { n with unshown := n.unshown.filter (fun e => e.1 % 1048576 / 4096 ≠ p),
           unshownStaged := n.unshownStaged.filter (fun e => e.1 % 1048576 / 4096 ≠ p) }

/-- The end of the command in progress on a page (02 R45, R46): BUSY clears, CMD_RES, CMD_DONE with its DSEQ, and the
COMMAND record. A command whose outcome is not decided, or whose earliest end lies ahead, does not end. A READ leaves a valid
buffer only while the management processor runs (01 R19). -/
def endCommand (n : Node) (p : Nat) : Node :=
  match cmdOf n p with
  | none => n
  | some c =>
    match c.result with
    | none => n
    | some ok =>
      if mayEnd n c = false then n
      else
        let res := if ok then 2 else 10
        let n := setCmd (showPage n p) p none
        let n := setCmdRes n c.path p res
        let n := note n (recCommand n p c res)
        let n := if ok && p == 6 && c.off % 4096 == 0x74 && fld c.value 3 0 == 1 then
            { n with rec_ := { n.rec_ with rdValid := mpRun n, rdReq := none } } else n
        let n := if p = 5 then commitWindow (clearPasswords n c.path) c ok else n
        raise n p 31

/-! The boundary that takes a command up (02 R45) -/

/-- The first B at or after this CK_TB instant takes up what is accepted now. -/
def takeUpAt (n : Node) : Nat := n.now + 5000

/-- S of the frame whose B is the first to follow the present instant by at least 5 us: B falls 15 ns after S at the earliest
(01 R24). It dates the log entry of a write that no B takes up (16 R376; log entry 85). -/
def takeUpS (n : Node) : Nat :=
  n.sampleT + (if takeUpAt n ≤ n.sAt + n.period + 15 then 1 else 2) * n.period

/-- Acceptance of a command that the lanes take up: its effect waits for the boundary (02 R45). -/
def defer (p : Nat) (a : LaneAct) (n : Node) : Node × Option Bool :=
  ({ byLanes n p with acts := n.acts ++ [{ due := takeUpAt n, page := p, act := a }] }, none)

/-! The change log (16 R376, Table 16.3) -/

/-- One entry: into the ring of 2048, and to the recorder as a CHANGE record. -/
def logChange (n : Node) (e : LogEntry) (origin : Nat) : Node :=
  let slot := n.config.logCount % 2048
  let n := { n with config := { n.config with
    log := tset none n.config.log slot (some e), logCount := (n.config.logCount + 1) % 4294967296 } }
  note n (recChange e origin slot)

/-- The account a path's changes are logged under. -/
def pathAccount (n : Node) (path : Nat) : Nat :=
  match sessionOf n path with
  | some s => s.account
  | none => 0xFE

/-- Entry for a path's write. -/
def changeEntry (n : Node) (path p key : Nat) (old new : Word) (stage : Nat) : LogEntry :=
  { time := takeUpS n, param := key, old := old, new := new, account := pathAccount n path, stage := stage,
    hseq := (seqOf n path p).echo }

/-- An accepted write of an RWL parameter: the value in effect, the log, and the flash write due (16 R376, R383). -/
def writeParam (n : Node) (path p key : Nat) (v : Word) : Node :=
  let old := reg n key
  let n := logChange n (changeEntry n path p key old v 0) oMp
  let n := setReg n key v
  { n with config := { n.config with dirty := true } }

/-- A change the node makes by itself (13 R303): logged under 0xFE. -/
def writeByNode (n : Node) (key : Nat) (v : Word) (origin : Nat) : Node :=
  let e : LogEntry := { time := takeUpS n, param := key, old := reg n key, new := v, account := 0xFE, stage := 0, hseq := 0 }
  let n := logChange n e origin
  let n := setReg n key v
  { n with config := { n.config with dirty := true } }

/-- An image is PENDING (16 R378). -/
def imagePending (n : Node) : Bool := n.config.pend.isSome

/-! Field ranges -/

/-- Nominal and data bit times in mtq (13 R298). -/
def nomBit (v : Word) : Nat := (fld v 31 24 + 1) * (1 + fld v 23 16 + fld v 14 8)
def dataBit (v : Word) : Nat := (fld v 28 24 + 1) * (1 + fld v 20 16 + fld v 11 8)

/-- Bit timing of a controller (13 R298): rates of Table 13.1, SJW no longer than TSEG2, 8 quanta with FDOE, delay
compensation above 1 Mbit/s. -/
def timingOk (nbt dbt tdc : Word) (fdoe : Bool) : Bool :=
  let nb := nomBit nbt
  let db := dataBit dbt
  decide (1 ≤ fld nbt 23 16 ∧ 1 ≤ fld nbt 14 8 ∧ 1 ≤ fld nbt 6 0 ∧ 1 ≤ fld dbt 20 16 ∧ 1 ≤ fld dbt 11 8 ∧
    1 ≤ fld dbt 3 0) &&
  decide (80 ≤ nb ∧ nb ≤ 4000) && decide (db ≤ nb ∧ 16 ≤ db) &&
  decide (fld nbt 6 0 ≤ fld nbt 14 8 ∧ fld dbt 3 0 ≤ fld dbt 11 8) &&
  (!fdoe || decide (8 ≤ 1 + fld nbt 23 16 + fld nbt 14 8 ∧ 8 ≤ 1 + fld dbt 20 16 + fld dbt 11 8)) &&
  (decide (80 ≤ db) || (bit tdc 31 && decide (1 ≤ fld tdc 6 0)))

/-- A letter A to Z. -/
def isLetter (k : Nat) : Bool := decide (65 ≤ k ∧ k ≤ 90)

/-- A window register of an alarm page enables a slot 4 to 7 (08 R176, R179). -/
def highSlotKey (key : Nat) (v : Word) : Bool :=
  let off := key % 1048576
  decide (0x30 ≤ off / 4096 ∧ off / 4096 < 0x40) && off % 4096 == 0x48 && decide (4 ≤ key / 1048576 % 8) && bit v 31

/-- A slot 4 to 7 has EN = 1 in the active or the staged configuration (08 R176). -/
def highSlotOn (n : Node) : Bool :=
  n.regs.any (fun e => highSlotKey e.1 e.2) ||
    n.staged.any (fun e => match e.2 with | some v => highSlotKey e.1 v | none => false)

/-- Ranges of the node's own pages: NODE, TB, ACQ, LANE, CFG, REC, CALL, ALM (17, 03, 05, 11, 16, 15, 09, 08). -/
def valueOkLow (n : Node) (p o : Nat) (v : Word) : Bool :=
  match p, o with
  | 0, 0x48 => decide (fld v 7 0 ≤ 253)
  | 1, 0x64 => decide (fld v 3 0 ≤ 8) && (decide (fld v 3 0 ≠ 0) || !highSlotOn n)
  | 1, 0x74 => decide (fld v 2 1 ≠ 3)
  | 1, 0x7C => decide (fld v 27 25 ≤ 4 ∧ 10 ≤ fld v 24 16 ∧ fld v 24 16 ≤ 500 ∧ 1 ≤ fld v 6 0 ∧ fld v 6 0 ≤ 100)
  | 1, 0x80 => decide (1 ≤ fld v 7 0)
  | 2, o => !(decide (0x100 ≤ o) && bit v 31) || decide (fld v 7 0 ≤ 253 ∧ 1 ≤ fld v 15 8)
  | 3, 0x50 => decide (1 ≤ fld v 9 0 ∧ fld v 9 0 ≤ 720)
  | 5, 0xA4 => decide (fld v 15 8 ≤ 240 ∧ 1 ≤ fld v 7 0 ∧ fld v 7 0 ≤ 120)
  | 6, 0x68 => decide (1 ≤ fld v 9 0 ∧ fld v 9 0 ≤ 600)
  | 6, o =>
    if 0x100 ≤ o ∧ (o - 0x100) % 0x40 = 0 then
      decide (fld v 25 24 ≤ 2 ∧ 1 ≤ fld v 4 0 ∧ fld v 4 0 ≤ 16 ∧
        fld v 20 8 ≤ (if fld v 25 24 = 2 then 63 else 5119))
    else true
  | 7, 0x40 => decide (1 ≤ fld v 9 8 ∧ 1 ≤ fld v 7 6 ∧ 1 ≤ fld v 5 4)
  | 7, 0x44 => decide (30 ≤ fld v 15 0 ∧ fld v 15 0 ≤ 3600 ∧ fld v 15 0 < fld (reg n (at_ 7 0x48)) 15 0)
  | 7, 0x48 => decide (60 ≤ fld v 15 0 ∧ fld v 15 0 ≤ 7200 ∧ fld (reg n (at_ 7 0x44)) 15 0 < fld v 15 0)
  | 7, 0x4C => decide (1 ≤ fld v 7 0 ∧ fld v 7 0 ≤ 120)
  | 7, 0x50 => decide (1 ≤ fld v 23 16 ∧ fld v 23 16 ≤ 10 ∧ 1 ≤ fld v 7 0 ∧ fld v 7 0 ≤ 60)
  | 7, 0x54 => decide (1 ≤ fld v 7 0 ∧ fld v 7 0 ≤ 60)
  | 7, o =>
    if 0x100 ≤ o then
      decide (fld v 26 24 ≤ 3 ∧ fld v 20 16 ≤ 23 ∧ fld v 7 0 ≤ 253) && (decide (fld v 26 24 = 0) || decide (fld v 11 8 = 0))
    else true
  | 9, 0x40 => decide (1 ≤ fld v 27 16 ∧ 1 ≤ fld v 11 0 ∧ fld v 11 0 ≤ 1440)
  | 9, 0x64 => !bit v 31 || decide (fld v 15 13 ≠ 0)
  | 9, 0x6C => decide (fld v 23 16 ≤ 253)
  | 9, 0xAC => decide (fld v 2 0 ≤ 3)
  | _, _ => true

/-- Ranges of the rank, alarm, CAN and ETH pages (04, 05, 08, 13, 14). -/
def valueOkHigh (n : Node) (p o : Nat) (v : Word) : Bool :=
  match blockOf p with
  | 0x10 =>
    if o < 0x100 then true
    else if o < 0x500 then
      match (o - 0x100) % 0x20 with
      | 0x00 => decide (fld v 3 0 ≤ 9)
      | 0x04 => decide (fld v 5 4 ≤ 2)
      | 0x08 => decide (fld v 2 0 ≤ 4)
      | 0x14 => decide (fld v 2 0 ≤ 5)
      | _ => true
    else true
  | 0x12 =>
    if o = 0x48 then
      !(bit v 31 && decide (4 ≤ (reg n (at_ p 0x44)).toNat % 8) && decide (n.period = 250000))
    else true
  | 0x13 =>
    let c := instOf p
    match o with
    | 0x40 => decide (1 ≤ fld v 23 16 ∧ fld v 3 0 ≤ 4)
    | 0x44 => timingOk v (canReg n c 0x48) (canReg n c 0x4C) (bit (canReg n c 0x40) 5)
    | 0x48 => timingOk (canReg n c 0x44) v (canReg n c 0x4C) (bit (canReg n c 0x40) 5)
    | 0x4C => timingOk (canReg n c 0x44) (canReg n c 0x48) v (bit (canReg n c 0x40) 5)
    | o =>
      if 0xA0 ≤ o ∧ o ≤ 0xBC then decide (fld v 10 8 ≤ 4)
      else if 0x400 ≤ o ∧ (o - 0x400) % 8 = 0 then bit v 29 || (decide (fld v 28 11 = 0) && decide (fld (canReg n c (o + 4)) 28 11 = 0))
      else if 0x400 ≤ o then bit (canReg n c (o - 4)) 29 || decide (fld v 28 11 = 0)
      else true
  | 0x14 =>
    match o with
    | 0x50 => decide (8 ≤ fld v 5 0 ∧ fld v 5 0 ≤ 30)
    | 0x5C => decide (fld v 13 0 ≤ 9999) && isLetter (fld v 23 16) && isLetter (fld v 31 24)
    | 0x78 => decide (1 ≤ fld v 22 16 ∧ fld v 22 16 ≤ 64 ∧ fld v 8 0 + fld v 22 16 ≤ 512)
    | 0x88 => decide (1 ≤ fld v 22 16 ∧ fld v 22 16 ≤ 64 ∧ fld v 8 0 + fld v 22 16 ≤ 512)
    | _ => true
  | _ => true

/-- Every field of a parameter register is in range. -/
def valueOk (n : Node) (p o : Nat) (v : Word) : Bool :=
  if p < 0x10 then valueOkLow n p o v else valueOkHigh n p o v

end Sys2Proof.Machine
end

