-- ==== Sys2Proof/Machine/HostLink.lean ====
section
/-! DEFINITION. Page headers, interrupts, holds, register pairs and bad accesses (02 R38 to R50). -/

namespace Sys2Proof.Machine

/-! Shadow copies (02 R50) -/

/-- PAGE_CTRL.VIEW exists on the pages with RWS registers (04 R99, 08 R194, 10 R242, 11 R274, 12 R295). -/
def hasView (p : Nat) : Bool := [0x04, 0x05, 0x09, 0x0A, 0x10, 0x12, 0x17, 0x18, 0x19].contains (blockOf p)

/-- PAGE_CTRL.VIEW of a page. -/
def viewStaged (n : Node) (p : Nat) : Bool := hasView p && bit (headerOf n p).ctrl 16

/-- The page keeps frozen copies of the words refreshed at B, or at RESULT_READY, at their next refresh instant. -/
def frozenB (s : State) (p : Nat) : Bool :=
  match tget none s.holds p with
  | some h => !h.bDue
  | none => false
def frozenR (s : State) (p : Nat) : Bool :=
  match tget none s.holds p with
  | some h => !h.rDue
  | none => false

/-- A page's copies at the refresh at B of the node `n`: a page under HOLD freezes with it, a released one shows the
refreshed words again. -/
def holdB (n : Node) (h : HoldSt) : HoldSt :=
  if h.bDue then (if h.held then { h with b := some n, bDue := false } else { h with b := none }) else h

/-- At the refresh at RESULT_READY. -/
def holdR (n : Node) (h : HoldSt) : HoldSt :=
  if h.rDue then (if h.held then { h with r := some n, rDue := false } else { h with r := none }) else h

/-- A released page that shows no frozen copy any more is as one that never held. -/
def holdOver (h : HoldSt) : Bool := !h.held && h.b.isNone && h.r.isNone

/-- HOLD ends: each copy stands until its next refresh instant. -/
def holdFree (h : HoldSt) : HoldSt := { h with held := false, bDue := true, rDue := true }

/-- The pages' copies, those over left out. -/
def holdsNow (t : Tbl (Option HoldSt)) (f : HoldSt → HoldSt) : Tbl (Option HoldSt) :=
  tmodAll none t (keys t) (fun _ x => x.bind (fun h => if holdOver (f h) then none else some (f h)))

/-- HOLD of page p written 0, or released by the node. -/
def releaseHold (s : State) (p : Nat) : State :=
  match tget none s.holds p with
  | some h => { s with holds := tset none s.holds p (if holdOver (holdFree h) then none else some (holdFree h)) }
  | none => s

/-- Interrupt bits whose refresh has come; those of frozen pages stay due. -/
def flushDue (n : Node) (due : List (Nat × Nat)) (frozen : Nat → Bool) : Node :=
  due.foldl (fun n e => if frozen e.1 then n else raise n e.1 e.2) n

/-- The refresh at B: shadow words take the node's values, and a page that holds freezes with them. -/
def refreshB (s : State) : State :=
  let due := s.node.dueB
  let n := flushDue { s.node with dueB := due.filter (fun e => frozenB s e.1) } due (frozenB s)
  { s with node := n, atB := n, holds := holdsNow s.holds (holdB n) }

/-- The refresh at RESULT_READY. -/
def refreshR (s : State) : State :=
  let due := s.node.dueR
  let n := flushDue { s.node with dueR := due.filter (fun e => frozenR s e.1) } due (frozenR s)
  { s with node := n, atR := n, holds := holdsNow s.holds (holdR n) }

/-! Header writes -/

/-- SEQ_HOST (02 Table 02.9): the number of the path's next command. -/
def writeSeqHost (n : Node) (path p : Nat) (v : Word) : Node :=
  if hasSeq p then modSeq n path p (fun q => { q with hseq := v.setWidth 16 }) else n

/-- LOCK (02 R42). -/
def writeLock (n : Node) (p : Nat) (v : Word) : Node :=
  if hasLock p && fld v 31 16 == 0x4C4B then modHeader n p (fun h => { h with locked := bit v 0 }) else n

/-- IRQ_STAT, W1C (00 R11). -/
def writeIrqStat (n : Node) (p : Nat) (v : Word) : Node :=
  if hasIrq p then modHeader n p (fun h => { h with irqStat := h.irqStat &&& ~~~v }) else n

/-- IRQ_EN. -/
def writeIrqEn (n : Node) (p : Nat) (v : Word) : Node :=
  if hasIrq p then modHeader n p (fun h => { h with irqEn := v }) else n

/-- PAGE_CTRL on the state: HOLD freezes or releases the page's copies, VIEW is kept where the page has it (02 R50). -/
def writePageCtrl (s : State) (p : Nat) (v : Word) : State :=
  let hold := hasShadow p && bit v 0
  let ctrl : Word := pack [(b2n hold, 0, 1), (b2n (hasView p && bit v 16), 16, 1)]
  let n := modHeader s.node p (fun h => { h with ctrl := ctrl, holdExp := if hold then false else h.holdExp })
  if blockOf p = 0 ∨ blockOf p = 0x0C then s
  else if hold then
    match tget none s.holds p with
    | some h => { s with node := n, holds := tset none s.holds p (some (if h.held then h else { h with held := true, since := s.node.now })) }
    | none => { s with node := n, holds := tset none s.holds p (some { since := s.node.now }) }
  else releaseHold { s with node := n } p

/-- A header register written, but for PAGE_CTRL. -/
def writeHeader (n : Node) (path p o : Nat) (v : Word) : Node :=
  match o with
  | 0x10 => writeIrqStat n p v
  | 0x14 => writeIrqEn n p v
  | 0x18 => writeSeqHost n path p v
  | 0x20 => writeLock n p v
  | _ => n

/-! Register pairs (02 R49) -/

/-- Low offsets of the 64-bit RW pairs. -/
def pairLow (p o : Nat) : Bool :=
  (p == 1 && o == 0x88) || (p == 0x0A && o == 0x40) || (p == 6 && o == 0x78) || (p == 0x0C && o == 0x58)

/-- High offsets of the pairs. -/
def pairHigh (p o : Nat) : Bool := decide (4 ≤ o) && pairLow p (o - 4)

/-- The implemented bits of a value written at an offset. -/
def maskAt (p o : Nat) (v : Word) : Word :=
  match rowAt p o with
  | some r => v &&& BitVec.ofNat 32 r.mask
  | none => v

/-- Low word: into the holding register only. -/
def writePairLow (n : Node) (p o : Nat) (v : Word) : Node :=
  { n with writeHold := tset none n.writeHold (at_ p o) (some (maskAt p o v)) }

/-- High word: both halves take effect together, and the holding register takes the low half in effect. -/
def writePairHigh (n : Node) (p o : Nat) (v : Word) : Node :=
  let lo := at_ p (o - 4)
  let w := (tget none n.writeHold lo).getD (reg n lo)
  let n := setReg (setReg n lo w) (at_ p o) (maskAt p o v)
  { n with writeHold := tset none n.writeHold lo none }

/-- The 64-bit value of an RW pair. -/
def pairValue (n : Node) (p o : Nat) : Nat := (reg n (at_ p o)).toNat + 4294967296 * (reg n (at_ p (o + 4))).toNat

/-- A write to a locked page's register that is no command sets CMD_RES to LOCKED (02 R42). -/
def lockedWrite (n : Node) (path p : Nat) : Node := setCmdRes n path p 8

/-! Meanings of the rows -/

/-- BAD_ACCESS (02 R38): captured where none is, counted, BADACC. -/
def badAccessNode (n : Node) (bar2 wr : Bool) (addr : Nat) : Node :=
  let w := pack [(1, 31, 1), (b2n bar2, 30, 1), (b2n wr, 29, 1), (addr, 0, 26)]
  let m := n.mgt
  let n := { n with mgt := { m with badAcc := if bit m.badAcc 31 then m.badAcc else w, badCnt := sat 65535 (m.badCnt + 1) } }
  let n := if wr then n else emit n (.read 0xFFFFFFFF)
  raise n 0x0C 3

def execBadAccess (t : Nat) (bar2 wr : Bool) (addr : Nat) (s : State) : Host.Outcome State Fault Refusal :=
  .next (onNode s t (fun n => badAccessNode n bar2 wr addr))

/-- LOCK_WRITE (02 R42). -/
def execLockWrite (t page : Nat) (v : Word) (s : State) : Host.Outcome State Fault Refusal :=
  .next (onNode s t (fun n => writeLock n page v))

/-- Vectors that serve a page (02 Table 02.4): a CAN page has a second one. -/
def vectorsOfPage (p : Nat) : List Nat :=
  vectorOfPage p :: (if 0x40 ≤ p ∧ p < 0x58 then [40 + (p - 0x40)] else [])

/-- A write of IRQ_STAT or IRQ_EN: the page's vectors send again where their condition stays 1 (02 R40). -/
def irqWrite (s : State) (t page : Nat) (f : Node → Node) : State :=
  { s with node := settleWith (vectorsOfPage page) (f (begin_ s.node t)) }

/-- IRQ_STAT_CLEAR (02 R40). -/
def execIrqStatClear (t page : Nat) (v : Word) (s : State) : Host.Outcome State Fault Refusal :=
  .next (irqWrite s t page (fun n => writeIrqStat n page v))

/-- IRQ_EN_WRITE (02 R40). -/
def execIrqEnWrite (t page : Nat) (v : Word) (s : State) : Host.Outcome State Fault Refusal :=
  .next (irqWrite s t page (fun n => writeIrqEn n page v))

/-- A vector's entry of the MSI-X table in BAR4 written (Table 02.1): message address and data. -/
def setEntry (n : Node) (v addr : Nat) (data : Word) : Node :=
  if 64 ≤ v then n
  else { n with vectors := tmod {} n.vectors v (fun x => { x with addr := addr % 18446744073709551616, data := data }) }

/-- A word of BAR4 (Table 02.1): the entries of the MSI-X table, 16 bytes a vector, and the PBA. -/
def bar4Read (n : Node) (off : Nat) : Word :=
  if off < 0x400 then
    let x := vectorOf n (off / 16)
    match off % 16 with
    | 0 => lo32 x.addr
    | 4 => hi32 x.addr
    | 8 => x.data
    | _ => pack [(b2n x.masked, 0, 1)]
  else if 0x2000 ≤ off ∧ off < 0x2008 then
    BitVec.ofNat 32 (bitSet ((List.range 32).filter (fun i => (vectorOf n (8 * (off - 0x2000) + i)).pending)))
  else 0

/-- A word of the configuration space (Table 02.1): IDs, class code, command, base addresses; and the capabilities in the
formats of the PCI Express Base Specification: power management (D0, D3hot), PCI Express (payload 256 B, read request 512
B, 5.0 GT/s x1, no ASPM), MSI-X (64 vectors, table and PBA in BAR4), Advanced Error Reporting. Where the capabilities lie
is PRESUMED (log entry 82). -/
def pcieRead (n : Node) (off : Nat) : Word :=
  let e := n.endpoint
  match off with
  | 0x00 => pack [(0x5120, 16, 16), (0x1D7E, 0, 16)]
  | 0x04 => pack [(1, 20, 1), (b2n e.busMaster, 2, 1), (b2n e.memSpace, 1, 1)]
  | 0x34 => 0x40
  | 0x40 => pack [(3, 16, 3), (0x50, 8, 8), (1, 0, 8)]
  | 0x44 => pack [(if e.d3hot then 3 else 0, 0, 2)]
  | 0x50 => pack [(2, 16, 4), (0x90, 8, 8), (0x10, 0, 8)]
  | 0x54 => pack [(1, 15, 1), (1, 0, 3)]
  | 0x58 => pack [(2, 12, 3)]
  | 0x5C => pack [(1, 4, 6), (2, 0, 4)]
  | 0x90 => pack [(b2n e.msixEn, 31, 1), (63, 16, 11), (0x11, 0, 8)]
  | 0x94 => 4
  | 0x98 => 0x2004
  | 0x100 => pack [(1, 16, 4), (1, 0, 16)]
  | 0x104 => e.aerUnc
  | 0x110 => e.aerCor
  | 0x08 => pack [(0x088000, 8, 24)]
  | 0x10 => pack [(e.bar0 / 1048576, 20, 12)]
  | 0x18 => pack [(e.bar2 / 67108864, 26, 6), (0xC, 0, 4)]
  | 0x1C => hi32 e.bar2
  | 0x20 => pack [(e.bar4 / 16384, 14, 18)]
  | 0x2C => pack [(if Sys2Proof.Config.markXA then 2 else 1, 16, 16), (0x1D7E, 0, 16)]
  | _ => 0

/-- Vector control of BAR4 (02 R40): on unmasking, the message goes where the condition is still 1, else the PBA bit
clears. -/
def maskVector (n : Node) (v : Nat) (mask : Bool) : Node :=
  let x := vectorOf n v
  let c := condition n v
  if 64 ≤ v then n
  else if mask then { n with vectors := tset {} n.vectors v { x with masked := true } }
  else
    let n' := { n with vectors := tset {} n.vectors v { x with masked := false, pending := false, cond := c } }
    if x.masked && x.pending && c then emit n' (.msix v) else n'

/-- MSIX_UNMASK (02 R40): the host writes the vector's entry, its mask with it. -/
def execMsixUnmask (t vector : Nat) (e : MsixEntry) (s : State) : Host.Outcome State Fault Refusal :=
  .next (onNode s t (fun n => maskVector (setEntry n vector e.addr e.data) vector e.mask))

/-- A write to a half of an RW pair under the page's lock (02 R42, R49). -/
def writePair (n : Node) (path p o : Nat) (v : Word) : Node :=
  if (headerOf n p).locked then lockedWrite n path p
  else if pairLow p o then writePairLow n p o v
  else if pairHigh p o then writePairHigh n p o v
  else n

/-- PAIR_HIGH_WRITE (02 R49). -/
def execPairHighWrite (t off : Nat) (v : Word) (s : State) : Host.Outcome State Fault Refusal :=
  .next (onNode s t (fun n => if pairHigh (off / 4096) (off % 4096) then writePair n hostPath (off / 4096) (off % 4096) v else n))

/-- PAIR_LOW_WRITE (02 R49). -/
def execPairLowWrite (t off : Nat) (v : Word) (s : State) : Host.Outcome State Fault Refusal :=
  .next (onNode s t (fun n => if pairLow (off / 4096) (off % 4096) then writePair n hostPath (off / 4096) (off % 4096) v else n))

/-- HOLD_WRITE (02 R50). -/
def execHoldWrite (t page : Nat) (v : Word) (s : State) : Host.Outcome State Fault Refusal :=
  .next (writePageCtrl { s with node := settle (begin_ s.node t) } page v)

/-- HOLD_EXPIRE (02 R50): a HOLD of 256 F is released by the node, and HOLD_EXP is set. -/
def holdExpire (s : State) (p : Nat) : State :=
  match tget none s.holds p with
  | some h =>
    if h.held ∧ h.since + 256 * s.node.period ≤ s.node.now then
      releaseHold { s with node := modHeader s.node p (fun h => { h with ctrl := h.ctrl &&& ~~~(1 : Word), holdExp := true }) } p
    else s
  | none => s

def execHoldExpire (t page : Nat) (s : State) : Host.Outcome State Fault Refusal :=
  .next (holdExpire { s with node := settle (begin_ s.node t) } page)

end Sys2Proof.Machine
end

