-- ==== Sys2Proof/Machine/CfgSec.lean ====
section
/-! DEFINITION. Accounts, passwords, sessions and the discarding of staged values (16 R366 to R378). -/

namespace Sys2Proof.Machine

/-! Sessions (16 R372 to R374) -/

/-- The path of the editing session (level 2 or above). -/
def editPath (n : Node) : Option Nat :=
  (List.range 5).find? (fun p => match sessionOf n p with | some s => decide (2 ≤ s.level) | none => false)

/-- A path's CFG_RESULT reason. -/
def setReason (n : Node) (path reason : Nat) : Node :=
  { n with config := { n.config with result := tset 0 n.config.result path reason } }

/-- Account and HSEQ of a command's log entries; the node's own (16 R376, Table 16.3). -/
abbrev LogBy := Nat × BitVec 16
def byNode : LogBy := (0xFE, 0)
def byPath (n : Node) (path : Nat) : LogBy := (pathAccount n path, (seqOf n path 5).echo)

/-- STAGE 3 entries: every staged value that differs from the active one (16 R376). No B takes a discard up: its TIME is that of
the next (log entry 85). -/
def logDiscards (n : Node) (who : LogBy) : Node :=
  n.staged.foldl (fun n e =>
    match e.2 with
    | some v =>
      if v = reg n e.1 then n
      else logChange n { time := takeUpS n, param := e.1, old := v, new := reg n e.1, account := who.1, stage := 3, hseq := who.2 } oMp
    | none => n) n

/-- A COMMIT in progress whose image is discarded ends FAILED (16 R377, R378); no reason of Table 16.8 covers it, and it is given
NO_IMAGE (DESIGN CHOICE, log entry 16). -/
def failCommit (n : Node) : Node :=
  match cmdOf n 5 with
  | some c => if c.off % 4096 = 0x5C ∧ fld c.value 3 0 = 4 then resolveCmd (setReason n c.path 8) 5 (some false) else n
  | none => n

/-- A value that waits for the B that stages it. -/
def isStage (w : Waiting) : Bool :=
  match w.act with
  | .stage .. => true
  | _ => false

/-- Values accepted and not yet staged go with the staged ones, and their writes end FAILED (log entry 17). -/
def dropStages (n : Node) : Node :=
  (n.acts.filter isStage).foldl (fun n w => resolveCmd n w.page (some false)) { n with acts := n.acts.filter (fun w => !isStage w) }

/-- Every staged value discarded. -/
def dropValues (n : Node) (who : LogBy) : Node := { dropStages (logDiscards n who) with staged := [] }

/-- Every staged value and any PENDING image discarded, unless its CONFIRM has been accepted (16 R374, R378); account and level
of the editing session for the record, and who is logged. -/
def discardImage (n : Node) (account level : Nat) (who : LogBy) : Node :=
  match n.config.pend with
  | some p =>
    if p.confirmed then n
    else
      let n := failCommit (dropValues n who)
      let n := { n with config := { n.config with pend := none } }
      note n (recSession n 8 level account p.check 0 0)
  | none => dropValues n who

/-- The end of a path's session: event 2, 3 or 10; any end but CLOSE sets SESS_END (16 R374). `who`: the command
that ends it, or the node. -/
def endSession (n : Node) (path event : Nat) (close : Bool) (who : LogBy) : Node :=
  match sessionOf n path with
  | none => n
  | some s =>
    let n := if 2 ≤ s.level then discardImage n s.account s.level who else n
    let n := note n (recSession n event s.level s.account n.config.check 0 0)
    let n := setSession n path none
    let n := { n with rec_ := { n.rec_ with token := match n.rec_.token with
      | some k => if k.path = path then none else some k
      | none => none } }
    raiseIf (!close) n 5 2

/-- Sessions of an account end (16 R367). -/
def endSessionsOf (who : LogBy) (n : Node) (a : Nat) : Node :=
  (List.range 5).foldl (fun n p =>
    match sessionOf n p with
    | some s => if s.account = a then endSession n p 2 false who else n
    | none => n) n

/-- Every session ends. -/
def endAllSessions (n : Node) (event : Nat) : Node :=
  (List.range 5).foldl (fun n p => endSession n p event false byNode) n

/-- FAILED with a reason. -/
def failWith (n : Node) (path reason : Nat) : Node × Option Bool := (setReason n path reason, some false)

/-! Passwords and lockout (16 R368 to R371) -/

/-- Bytes of eight password registers, ending at the first zero byte. -/
def pwBytes (n : Node) (path base : Nat) : List Byte :=
  let bs := (List.range 8).flatMap (fun i => bytesLE 4 (tget 0 n.config.pw (16 * path + base + i)).toNat)
  bs.takeWhile (· ≠ 0)

/-- Character classes of a password: upper case, lower case, digit, other. -/
def charClass (b : Byte) : Nat :=
  let k := b.toNat
  if 65 ≤ k ∧ k ≤ 90 then 0 else if 97 ≤ k ∧ k ≤ 122 then 1 else if 48 ≤ k ∧ k ≤ 57 then 2 else 3

/-- Lower case of a letter. -/
def lowerByte (b : Byte) : Byte := if 65 ≤ b.toNat ∧ b.toNat ≤ 90 then b + 32 else b

/-- R368: length, characters, classes, differs from the name. -/
def pwRule (pw name : List Byte) : Bool :=
  decide (8 ≤ pw.length ∧ pw.length ≤ 32) &&
  pw.all (fun b => decide (0x20 ≤ b.toNat ∧ b.toNat ≤ 0x7E)) &&
  decide (3 ≤ ((List.range 4).filter (fun c => pw.any (fun b => charClass b == c))).length) &&
  decide (pw.map lowerByte ≠ name.map lowerByte)

/-- Attempt count and lock of an account: in the active accounts and in configuration flash, its copies and what it holds where no
copy is valid (16 R369, 17 R396). -/
def setLock (n : Node) (a fails : Nat) (until_ : Option Nat) : Node :=
  let f : Account → Account := fun x => { x with fails := fails, lockUntil := until_ }
  let c := n.config
  { n with config := { c with
    accounts := tmod {} c.accounts a f,
    locks := tset (0, none) c.locks a (fails, until_),
    copyA := { c.copyA with accounts := tmod {} c.copyA.accounts a f },
    copyB := { c.copyB with accounts := tmod {} c.copyB.accounts a f } } }

/-- The lock of an account has run out (16 R369). -/
def lockOver (n : Node) (a : Nat) : Bool :=
  match (accountOf n a).lockUntil with
  | some u => decide (u ≤ n.now)
  | none => false

/-- A failed attempt on an account (16 R369): counted, recorded; the fifth locks for 15 min. An account whose lock has run
out has five attempts again. -/
def failedAttempt (n : Node) (a : Nat) : Node :=
  let k := (if lockOver n a then 0 else (accountOf n a).fails) + 1
  let lvl := (accountOf n a).level
  let n := note n (recSession n 4 lvl a 0 0 0)
  if k < 5 then setLock n a k none
  else
    let n := setLock n a 5 (some (n.now + 900000000000))
    let n := note n (recSession n 5 lvl a 0 0 0)
    raise n 5 3

/-- The account is locked now. -/
def isLocked (n : Node) (a : Nat) : Bool :=
  match (accountOf n a).lockUntil with
  | some u => decide (n.now < u)
  | none => false

/-- A password matches an account's hash. -/
def pwMatches (x : Account) (pw : List Byte) : Bool := decide (pwHash pw x.salt = x.hash)

/-- A new hash under a new salt. -/
def newPassword (n : Node) (a : Nat) (pw : List Byte) (mustchg : Bool) : Node :=
  let s := Config.salt n.free
  let n := drawn n
  let n := modAccount n a (fun x => { x with salt := s, hash := pwHash pw s, mustchg := mustchg })
  { n with config := { n.config with dirty := true } }

/-- CFG_P_ACCT and its fields (16 Table 16.7). -/
def pAcct (n : Node) : Word := reg n (at_ 5 0x60)

/-! The commands of CFG_CMD -/

/-- OPEN (16 R373): tests in order LOCKED, BAD_CRED, LEVEL_HIGH, EDIT_BUSY; a failure ends no earlier than 1 s. -/
def cfgOpenEff (path : Nat) (n : Node) : Node × Option Bool :=
  let n := endSession n path 2 false (byPath n path)
  let a := fld (pAcct n) 3 0
  let lv := fld (pAcct n) 10 8
  let x := accountOf n a
  let late := fun (m : Node) (reason : Nat) => failWith (delayCmd m 5 (m.now + 1000000000)) path reason
  if x.en && isLocked n a then late n 2
  else if !x.en then late n 1
  else if !pwMatches x (pwBytes n path 0) then late (failedAttempt n a) 1
  else if x.level < lv then late n 5
  else if 2 ≤ lv ∧ (editPath n).isSome then late n 3
  else
    let n := if x.fails = 0 then n else setLock n a 0 none
    let n := setSession n path (some { account := a, level := lv, last := n.now })
    (note n (recSession n 1 lv a n.config.check 0 0), some true)

/-- CLOSE (16 R374). -/
def cfgCloseEff (path : Nat) (n : Node) : Node × Option Bool := (endSession n path 2 true (byPath n path), some true)

/-- CHPW (16 R371): the first step that applies. In step 4 the command ends once the new hash, under its new salt, stands
in configuration flash. -/
def cfgChpwEff (path : Nat) (n : Node) : Node × Option Bool :=
  match sessionOf n path with
  | none => failWith n path 1
  | some s =>
    let a := s.account
    let x := accountOf n a
    let old := pwBytes n path 8
    let new := pwBytes n path 0
    if isLocked n a then failWith n path 2
    else if !pwMatches x old then failWith (delayCmd (failedAttempt n a) 5 (n.now + 1000000000)) path 1
    else if !pwRule new x.name || decide (new = old) then failWith n path 4
    else
      let salt := Config.salt n.free
      let x : NewPassword := { account := a, level := s.level, salt := salt, hash := pwHash new salt }
      let n := drawn n
      ({ n with config := { n.config with chpw := some x } }, none)

/-- DISCARD (16 R378). -/
def cfgDiscardEff (path : Nat) (n : Node) : Node × Option Bool :=
  match n.config.pend with
  | none => failWith n path 8
  | some _ =>
    (discardImage n (pathAccount n path) ((sessionLevel n path).getD 0) (byPath n path), some true)

/-- An enabled level-4 account remains where account a becomes x (16 R367). -/
def superRemains (n : Node) (a : Nat) (x : Account) : Bool :=
  (List.range 16).any (fun k => let y := if k = a then x else accountOf n k; y.en && y.level == 4)

/-- The name given in CFG_P_NAME: 1 to 16 printable characters, zero-padded (16 R366). -/
def nameBytes (n : Node) : List Byte :=
  (List.range 4).flatMap (fun i => bytesLE 4 (reg n (at_ 5 (0x70 + 4 * i))).toNat)
def nameOk (n : Node) : Bool :=
  let bs := nameBytes n
  let nm := bs.takeWhile (· ≠ 0)
  decide (1 ≤ nm.length) && nm.all (fun b => decide (0x20 ≤ b.toNat ∧ b.toNat ≤ 0x7E)) &&
  (bs.drop nm.length).all (· = 0)

/-- What the command in progress on the CFG page keeps for its end: the accounts whose sessions it ends (16 R367). -/
def keepParams (n : Node) (l : List Nat) : Node :=
  setCmd n 5 ((cmdOf n 5).map (fun c => { c with params := l }))

/-- ACCT_SET (16 R367, R368, R370). -/
def cfgAcctSetEff (path : Nat) (n : Node) : Node × Option Bool :=
  let a := fld (pAcct n) 3 0
  let x := accountOf n a
  let name := (nameBytes n).takeWhile (· ≠ 0)
  let y : Account := { x with en := bit (pAcct n) 16, level := fld (pAcct n) 10 8, name := name }
  let pw := pwBytes n path 0
  if !superRemains n a y then failWith n path 11
  else if !pwRule pw name then failWith n path 4
  else
    let n := modAccount n a (fun _ => y)
    let n := newPassword n a pw true
    (if x.level ≠ y.level ∨ x.en ≠ y.en then keepParams n [a] else n, some true)

/-- ACCT_DEL (16 R367). -/
def cfgAcctDelEff (path : Nat) (n : Node) : Node × Option Bool :=
  let a := fld (pAcct n) 3 0
  if !superRemains n a {} then failWith n path 11
  else
    let n := setLock (modAccount n a (fun _ => {})) a 0 none
    let n := { n with config := { n.config with dirty := true } }
    (keepParams n [a], some true)

/-- KICK (16 R374): another path's session ends; none there, or the own path, gives NO_SESSION (log entry 20). -/
def cfgKickEff (path : Nat) (n : Node) : Node × Option Bool :=
  let q := fld (pAcct n) 26 24
  if q = path ∨ (sessionOf n q).isNone then failWith n path 12
  else (endSession n q 2 false (byPath n path), some true)

/-- UNLOCK (16 R369). -/
def cfgUnlockEff (_ : Nat) (n : Node) : Node × Option Bool := (setLock n (fld (pAcct n) 3 0) 0 none, some true)

/-- A session is open on the path, MUSTCHG or not (16 R370). -/
def anySession (n : Node) (path : Nat) : Bool := (sessionOf n path).isSome

/-- CFG_STAT.DIRTY: a change, or the other copy after it, is still to be written (16 R383). -/
def dirtyShown (c : Config) : Bool :=
  c.dirty || (c.half.isSome && (match c.pend with | some p => !p.first | none => true))

/-! Expiries -/

/-- LOCKOUT_EXPIRE (16 R369); accounts are the management processor's, and stand while it is down (01 R18). -/
def lockoutExpire (n : Node) (a : Nat) : Node := if mpRun n && lockOver n a then setLock n a 0 none else n

/-- The instant a path's session times out; none where it does not (16 R374). -/
def timeoutAt (n : Node) (path : Nat) : Option Nat :=
  match sessionOf n path with
  | none => none
  | some s =>
    let tmo := reg n (at_ 5 0xA4)
    if 2 ≤ s.level then if imagePending n then none else some (s.last + fld tmo 7 0 * 60000000000)
    else if fld tmo 15 8 = 0 then none else some (s.last + fld tmo 15 8 * 60000000000)

/-- SESSION_TIMEOUT. -/
def sessionTimeout (n : Node) (path : Nat) : Node :=
  match timeoutAt n path with
  | some u => if u ≤ n.now then endSession n path 3 false byNode else n
  | none => n

/-- An image that is not confirmed and whose window closes at an instant that `past` admits. -/
def windowClosed (n : Node) (past : Nat → Bool) : Bool :=
  match n.config.pend with
  | some p => !p.confirmed && past p.until_
  | none => false

/-- The node discards what is staged; the record tells the editing session. -/
def discardEdit (n : Node) : Node :=
  match editPath n with
  | some p => discardImage n (pathAccount n p) ((sessionLevel n p).getD 0) byNode
  | none => discardImage n 0xFE 0 byNode

/-- The end of the confirmation window (16 R378). -/
def endWindow (n : Node) (past : Nat → Bool) : Node :=
  if windowClosed n past then
    raise (discardEdit n) 5 5
  else n

/-- CONFIRM_WINDOW_EXPIRE (16 R378). -/
def confirmWindowExpire (n : Node) : Node := endWindow n (fun u => decide (u ≤ n.now))

/-- The end of TLS connection p ends its session (16 R374). -/
def tlsClose (n : Node) (path : Nat) : Node :=
  let n := endSession n path 2 false byNode
  { n with config := { n.config with tls := tset false n.config.tls path false } }

def execLockoutExpire (t account : Nat) (s : State) : Host.Outcome State Fault Refusal :=
  .next (onNode s t (fun n => lockoutExpire n account))

def execSessionTimeout (t path : Nat) (s : State) : Host.Outcome State Fault Refusal :=
  .next (onNode s t (fun n => sessionTimeout n path))

def execConfirmWindowExpire (t : Nat) (s : State) : Host.Outcome State Fault Refusal :=
  .next (onNode s t confirmWindowExpire)

def execTlsClose (t path : Nat) (s : State) : Host.Outcome State Fault Refusal :=
  .next (onNode s t (fun n => if 1 ≤ path ∧ path ≤ 4 then tlsClose n path else n))

/-- The management service runs on some port (14 R335). -/
def mgmtSvc (n : Node) : Bool := (List.range 4).any (fun p => let w := reg n (at_ (0x58 + p) 0x58); bit w 0 && bit w 3)

/-- A management request reaches the node: a path 1 to 4 whose connection stands, a port that still runs the service
(14 R335; a connection does not say on which it came, log entry 105), and the processor that serves it. -/
def mgmtUp (n : Node) (path : Nat) : Bool :=
  decide (1 ≤ path ∧ path ≤ 4) && tget false n.config.tls path && mgmtSvc n && mpRun n

/-- The status of a request (16 R372, Table 16.2): no session, a bad access, or done. An open session has level 0 at
least, so status 3 does not arise. -/
def mgmtStatus (n : Node) (path off : Nat) (opens : Bool) : Nat :=
  if (sessionOf n path).isNone && !opens then 2 else if off % 4 ≠ 0 then 1 else 0

/-- A command of the CFG page as a path gives it (16 R372, R375): the host link's as it is, a management connection's as its WRITE,
with the response; without a session a connection may only OPEN. -/
def served (n : Node) (path : Nat) (opens : Bool) (f : Node → Node) : Node :=
  if path = hostPath then f n
  else if !mgmtUp n path then n
  else
    let st := mgmtStatus n path 0 opens
    emit (if st = 2 then n else f n) (.mgmt path st 0)

/-- TLS_CONNECT (14 Table 14.10, 16 R375): at most 4 connections, on a port that runs the service, refused at shed
level 4 and above and while the management processor is not in RUN. -/
def tlsConnect (n : Node) (path : Nat) : Node :=
  if 1 ≤ path ∧ path ≤ 4 ∧ mgmtSvc n ∧ mpRun n ∧ n.mgt.shed < 4 then
    { n with config := { n.config with tls := tset false n.config.tls path true } }
  else n

def execTlsConnect (t path : Nat) (s : State) : Host.Outcome State Fault Refusal :=
  .next (onNode s t (fun n => tlsConnect n path))

end Sys2Proof.Machine
end

