-- ==== Sys2Proof/Machine/Recorder.lean ====
section
/-! DEFINITION. Scarab: commits, freezes, reads, clearing, captures and failures (15 R351 to R365, R435). -/

namespace Sys2Proof.Machine

/-! Commits -/

/-- Every staged record committed. -/
def commitAll (n : Node) : Node := commitSome n n.rec_.staging []

/-- RECORD_COMMIT: nothing while frozen (15 R356) or before READY. -/
def recordCommit (n : Node) : Node :=
  if n.rec_.frozen.isSome || !n.rec_.ready then n else commitAll n

/-- REC_OLDEST and REC_COMMIT; 0 until READY (15 R435). -/
def oldestRetained (n : Node) : Nat := ((committedRecs n).head?.map (·.rseq)).getD 0

/-- OVERRUN_RECORD (15 R353): once 1 MiB of staging is free and no freeze is in force. -/
def overrunRecord (n : Node) : Node :=
  match n.rec_.overrun with
  | some o =>
    if n.rec_.frozen.isNone && n.rec_.ready && decide (1048576 ≤ freeStaging n) then
      let n := modRec n (fun r => { r with overrun := none })
      stageRec n 3 (recOverrun n o)
    else n
  | none => n

/-! Freeze (15 R356) -/

/-- The failure record is committed first, pinned in the MRAM, once no freeze holds commits back (15 R361). -/
def pinFail (n : Node) : Node :=
  if n.rec_.frozen.isNone && decide (n.rec_.store = .mram) then
    modRec n (fun r => { r with
      mram := r.mram ++ r.staging.filter pinned, staging := r.staging.filter (fun s => !pinned s) })
  else n

def freezeEff (n : Node) : Node × Option Bool :=
  if n.rec_.frozen.isSome then (n, some false)
  else
    let n := modRec n (fun r => { r with frozen := some (n.now, n.now + fld (reg n (at_ 6 0x68)) 9 0 * 1000000000) })
    (note n (recRecorder n 5 0 0), some true)

/-- The end of a freeze: cause 0 host, 1 limit, 2 power-fail. -/
def thaw (n : Node) (cause : Nat) : Node :=
  match n.rec_.frozen with
  | none => n
  | some (b, _) =>
    let n := pinFail (modRec n (fun r => { r with frozen := none }))
    let n := note n (recRecorder n 6 cause ((n.now - b) / 1000000))
    raiseB n 6 2

def thawEff (n : Node) : Node × Option Bool :=
  if n.rec_.frozen.isNone then (n, some false) else (thaw n 0, some true)

/-- FREEZE_EXPIRE. -/
def freezeExpire (n : Node) : Node :=
  match n.rec_.frozen with
  | some (_, e) => if e ≤ n.now then thaw n 1 else n
  | none => n

/-! Reading (15 R357, Table 15.6) -/

/-- The records a READ copies: in order from FROM, while they fit; and whether it stopped at the limit. -/
def takeFit (max used : Nat) : List SRec → List SRec × Bool
  | [] => ([], false)
  | s :: r =>
    let u := used + recLen s.body
    if max < u then ([], true)
    else
      let p := takeFit max u r
      (s :: p.1, p.2)

/-- REC_P_MAX, 0 meaning the whole buffer. -/
def readMax (n : Node) : Nat :=
  let m := fld (reg n (at_ 6 0x80)) 24 0
  if m = 0 then 0x01FFFFC0 else m

/-- The read buffer with the records from an RSEQ on, up to REC_COMMIT at the read, while they fit; GAP also where records of
that range were erased while the copy ran. -/
def copyRecs (n : Node) (from_ max newest : Nat) (erased : Bool) : List Byte :=
  let oldest := oldestRetained n
  let p := takeFit max 0 ((committedRecs n).filter (fun s => decide (from_ ≤ s.rseq) && decide (s.rseq ≤ newest)))
  let rs := p.1
  let body := rs.flatMap recBytes
  let gap := decide (from_ < oldest) || erased
  let merged := rs.any (fun s => s.mram)
  [0x4C, 0x4B, 0x52, 0x42] ++ bytesLE 4 (b2n gap + 2 * b2n merged + 4 * b2n p.2) ++
  bytesLE 8 ((rs.head?.map (·.rseq)).getD 0) ++ bytesLE 8 ((rs.getLast?.map (·.rseq)).getD 0) ++
  bytesLE 4 rs.length ++ bytesLE 4 body.length ++ bytesLE 8 oldest ++ bytesLE 8 newest ++
  List.replicate 16 0 ++ body

/-- The buffer as READ fills it. -/
def readBuffer (n : Node) : List Byte := copyRecs n (pairValue n 6 0x78) (readMax n) (newestCommitted n) false

/-- READ: the buffer is not valid from the acceptance to the end of the command. At shed level 3 and above the copy runs at
1 MiB/s (02 R55), so the command does not end before its copy time. -/
def readEff (n : Node) : Node × Option Bool :=
  let b := (readBuffer n).take 0x02000000
  let n := modRec n (fun r => { r with
    rdValid := false, readBuf := b, rdReq := some (pairValue n 6 0x78, readMax n, newestCommitted n) })
  (if 3 ≤ n.mgt.shed then delayCmd n 6 (n.now + (b.length - 64) * 1000000000 / 1048576) else n, some true)

/-! Clearing (15 R359) -/

/-- TOKEN: a new random token, 60 s, for the session of the path. -/
def tokenEff (path : Nat) (n : Node) : Node × Option Bool :=
  let v := Config.randomWord n.free
  let n := drawn n
  (modRec n (fun r => { r with token := some { value := v, deadline := n.now + 60000000000, path := path } }), some true)

/-- The token given is the one in force for this path. -/
def tokenOk (n : Node) (path : Nat) : Bool :=
  match n.rec_.token with
  | some k => decide (k.value = reg n (at_ 6 0x84)) && decide (n.now < k.deadline) && k.path == path
  | none => false

/-- CLEAR: its record takes its place in the order of R351, and its range goes as that record is staged and committed; the
command ends then. -/
def clearEff (path : Nat) (n : Node) : Node × Option Bool :=
  if !tokenOk n path then (n, some false)
  else
    let n := modRec n (fun r => { r with token := none })
    let n := note n (recClearRec n (pairValue n 6 0x78) (pathAccount n path))
    (modRec n (fun r => { r with clearDone := none }), n.rec_.clearDone)

/-- TOKEN_EXPIRE. -/
def tokenExpire (n : Node) : Node :=
  match n.rec_.token with
  | some k => if k.deadline ≤ n.now then modRec n (fun r => { r with token := none }) else n
  | none => n

/-! Captures (15 R354, R355) -/

def capCfg (n : Node) (d : Nat) : Word := reg n (at_ 6 (0x100 + 0x40 * d))

/-- Channels of a definition: slot and channel, for the slots used among the first NCH. -/
def capSlots (n : Node) (d : Nat) : List (Nat × Nat) :=
  (List.range (fld (capCfg n d) 4 0)).filterMap (fun i =>
    let w := reg n (at_ 6 (0x110 + 0x40 * d + 4 * (i / 2)))
    if i % 2 = 0 then (if bit w 15 then some (i, fld w 8 0) else none)
    else (if bit w 31 then some (i, fld w 24 16) else none))

/-- Output rate of a channel's stream, samples a second (15 R354, 05 R103). -/
def streamRate (n : Node) (ch : Nat) : Nat :=
  if chnSel n ch = 8 ∨ chnSel n ch = 9 then 8000
  else 250 * 2 ^ fld (chnFilt n ch) 2 0

/-- CHN_FILT.RATE, or the code of 8000 S/s in DI modes. -/
def rateCode (n : Node) (ch : Nat) : Nat :=
  if chnSel n ch = 8 ∨ chnSel n ch = 9 then 5 else fld (chnFilt n ch) 2 0

/-- Ring bytes of a definition. -/
def ringBytes (n : Node) (d : Nat) : Nat := ((capSlots n d).map (fun e => streamRate n e.2 * 4)).sum

/-- ARM is in range: the rings of the ARMED definitions and this one fit 1 MiB, and no named channel is in OFF. -/
def armOk (n : Node) (d : Nat) : Bool :=
  let others := (List.range 8).filter (fun k => decide (k ≠ d) && decide ((capOf n k).state = .armed))
  decide ((others.map (ringBytes n)).sum + ringBytes n d ≤ 1048576) &&
  (capSlots n d).all (fun e => decide (chnSel n e.2 ≠ 0))

def armEff (d : Nat) (n : Node) : Node × Option Bool :=
  (modCap n d (fun c => { c with state := .armed, slots := [] }), some true)

def disarmEff (d : Nat) (n : Node) : Node × Option Bool :=
  (modCap n d (fun c => { c with state := .idle, slots := [] }), some true)

/-- Samples of one slot in a capture: PRE and POST, less those that had left the ring at the trigger. -/
def slotTotal (rate : Nat) (x : CapSlot) : Nat := x.pre + 4 * rate - x.skip

/-- Records of a capture: header and parts (NPARTS). -/
def capParts (n : Node) (d : Nat) (slots : Tbl CapSlot) : Nat :=
  1 + ((capSlots n d).map (fun e => divUp (slotTotal (streamRate n e.2) (tget {} slots e.1)) 240)).sum

/-- One slot at a trigger at T, in the frame of sample instant S: up to 1 s of samples before sample 0, as the ring holds them, and
those from sample 0 on (15 R355). Samples from sample 0 on that are no longer held are missing, and there is no PRE then
(DESIGN CHOICE, log entry 106). -/
def splitSlot (rate s t : Nat) (x : CapSlot) : CapSlot :=
  let per := 1000000000 / rate
  let newest := s / per * per
  let first := divUp t per * per
  let after := if first ≤ newest then (newest - first) / per + 1 else 0
  let pre := (x.ring.drop after).take rate
  { ring := [], pre := pre.length, buf := pre.reverse ++ (x.ring.take after).reverse, skip := after - x.ring.length, sent := 0 }

/-- The parts a slot can give: whole parts of 240 samples, and the last one when the capture is complete. -/
def partsOf (total : Nat) (fuel : Nat) (x : CapSlot) : List (Nat × List (Int × Nat)) × CapSlot :=
  match fuel with
  | 0 => ([], x)
  | f + 1 =>
    let left := total - x.sent
    let size := min 240 left
    if size = 0 ∨ x.buf.length < size then ([], x)
    else
      let p := partsOf total f { x with buf := x.buf.drop size, sent := x.sent + size }
      ((x.sent, x.buf.take size) :: p.1, p.2)

/-- Payload of a data part (15 Table 15.5); the CAPID is set at staging. -/
def partPayload (part slot : Nat) (first : Int) (xs : List (Int × Nat)) : List Byte :=
  bytesLE 4 0 ++ bytesLE 2 part ++ [byteOf slot, byteOf (xs.foldl (fun a e => a ||| e.2) 0)] ++
  bytesI 4 first ++ bytesLE 2 xs.length ++ [0, 0] ++ xs.flatMap (fun e => bytesI 4 e.1)

/-- Every part that is complete, slot by slot, as lane records of the frame. -/
def flushCapture (n : Node) (d : Nat) : Node :=
  let c0 := capOf n d
  let nparts := capParts n d c0.slots
  (capSlots n d).foldl (fun n e =>
    let c := capOf n d
    let x := tget {} c.slots e.1
    let rate := streamRate n e.2
    let p := partsOf (slotTotal rate x) (x.buf.length / 240 + 1) x
    let n := p.1.foldl (fun n q =>
      let c := capOf n d
      let per := 1000000000 / rate
      let first := (q.1 : Int) + x.skip - x.pre
      let inst := ((divUp c.trigT per : Int) + first) * per
      let r : Rec := { typ := 11, origin := oLanes, page := 6, time := inst.toNat,
                       payload := partPayload c.nextPart e.1 first q.2, cont := decide (c.nextPart + 1 < nparts),
                       cap := some d }
      modCap (note n r) d (fun c => { c with nextPart := c.nextPart + 1 })) n
    modCap n d (fun c => { c with slots := tset {} c.slots e.1 p.2 })) n

/-- The parts completed in a frame (15 R355), definition by definition. -/
def flushCaptures (n : Node) : Node :=
  (List.range 8).foldl (fun n d => if (capOf n d).state = .capturing then flushCapture n d else n) n

/-- A trigger of an ARMED definition (15 R355): header record, with the definition's TIDX, then the parts already complete. -/
def triggerCap (n : Node) (d kind t : Nat) : Node :=
  let c := capOf n d
  if c.state ≠ .armed then n
  else
    let sl := capSlots n d
    let slots : Tbl CapSlot := sl.foldl (fun a e =>
      tset {} a e.1 (splitSlot (streamRate n e.2) n.sampleT t (tget {} c.slots e.1))) []
    let nparts := capParts n d slots
    let payload := bytesLE 4 0 ++ bytesLE 2 0 ++ bytesLE 2 nparts ++ [byteOf d, byteOf kind] ++
      bytesLE 2 (fld (capCfg n d) 20 8) ++
      bytesLE 8 t ++ [byteOf sl.length, 0, 0, 0] ++
      sl.flatMap (fun e => bytesLE 2 e.2 ++ [byteOf (rateCode n e.2), 0] ++
        bytesLE 2 (tget {} slots e.1).pre ++ bytesLE 2 (4 * streamRate n e.2))
    let n := modCap n d (fun c =>
      { c with state := .capturing, parts := 0, trigT := t, slots := slots, nextPart := 1 })
    let n := note n { typ := 11, origin := oLanes, page := 6, time := t, payload := payload,
                      cont := decide (1 < nparts), cap := some d }
    raiseB (flushCapture n d) 6 0

/-- The stream samples of a channel reach the rings of the definitions that name it (15 R354). A ring keeps 2 s, so that it still
holds the 1 s before T where a trigger is detected up to 1 s after T (log entry 106). -/
def pushStream (n : Node) (ch : Nat) (xs : List (Int × Nat)) : Node :=
  if xs.isEmpty then n
  else
    (List.range 8).foldl (fun n d =>
      let c := capOf n d
      if c.state = .armed ∨ c.state = .capturing then
        (capSlots n d).foldl (fun n e =>
          if e.2 = ch then
            modCap n d (fun c =>
              let x := tget {} c.slots e.1
              let x := if c.state = .armed then { x with ring := (xs.reverse ++ x.ring).take (2 * streamRate n ch) }
                else { x with buf := (x.buf ++ xs).take (slotTotal (streamRate n ch) x - x.sent) }
              { c with slots := tset {} c.slots e.1 x })
          else n) n
      else n) n

/-- Every record of a capture has been staged. -/
def captureFull (n : Node) (d : Nat) : Bool :=
  let c := capOf n d
  decide (c.state = .capturing) && c.parts == capParts n d c.slots

/-- CAPTURE_END (15 R355): ARMED again with empty rings where REARM = 1, DONE otherwise. -/
def captureEnd (n : Node) (d : Nat) : Node :=
  if captureFull n d then
    let rearm := bit (capCfg n d) 31
    let n := modCap n d (fun c =>
      { c with state := if rearm then .armed else .done, slots := [] })
    raiseB n 6 1
  else n

/-- CAP_TRIG taken up: T is S of the frame that takes the command up (15 R355). -/
def capTrigTake (d : Nat) (n : Node) : Node × Option Bool := (triggerCap n d 3 n.sampleT, some true)

def clearFlagsEff (n : Node) : Node × Option Bool := (modRec n (fun r => { r with loss := false }), some true)

/-! Failures (15 R360 to R362) -/

/-- Staged records chained afresh from a link, with FLAGS.MRAM set (15 R361; log entry 21). -/
def rechain (link : Nat) : List SRec → List SRec
  | [] => []
  | s :: r =>
    let s := { s with link := link, flags := if s.flags.testBit 2 then s.flags else s.flags + 4, mram := true }
    let c := crc32c (recBody s)
    { s with crc := c } :: rechain c r

/-- CRC of the newest committed record; 0 where there is none. -/
def newestCrc (n : Node) : Nat := ((committedRecs n).getLast?.map (·.crc)).getD 0

/-- Node time at the start (03 R65): the stored time + 1 s, rounded up to 100 ms; where the MRAM cannot be read, the TIME of
the newest committed record in flash (DESIGN CHOICE, log entry 88: as it is, not rounded); else 0. -/
def startTime (n : Node) : Nat :=
  match if n.rec_.mramOk then n.tb.stored else none with
  | some x => divUp (x + 1000000000) 100000000 * 100000000
  | none => ((n.rec_.flash.getLast?).map (·.body.time)).getD 0

/-- A MRAM found unreadable before the node begins to acquire: node time runs from the fallback instead (03 R65). -/
def restartTime (n : Node) : Node :=
  if n.nodeSt.state = .init ∧ n.tb.acqAt.isNone then { n with taiOff := (startTime n : Int) - n.tb.startAt } else n

/-- The flash has failed (15 R361): its record, and the staged records made ready for the MRAM. -/
def flashFail (n : Node) (reason : Nat) : Node :=
  if n.rec_.store ≠ .flash then n
  else if n.rec_.mramOk then
    let n := modRec n (fun r => { r with store := .mram })
    let n := if n.rec_.ready then stageRec n 3 (recRecorder n 1 reason 0) else note n (recRecorder n 1 reason 0)
    let st := rechain (newestCrc n) n.rec_.staging
    let n := modRec n (fun r => { r with staging := st, lastCrc := (st.getLast?.map (·.crc)).getD r.lastCrc })
    raiseB (pinFail n) 6 4
  else
    let n := modRec n (fun r => { r with store := .none })
    let n := note n (recRecorder n 1 reason 0)
    raiseB n 6 4

/-- FLASH_FAIL: programming, an operation's time or the check of a segment header failed. Reason 3, the capacity, comes of
BLOCK_RETIRE. -/
def flashFails (n : Node) (reason : Nat) : Node := if [1, 2, 4].contains reason then flashFail n reason else n

/-- MRAM_FAIL (15 R362). -/
def mramFail (n : Node) : Node :=
  if !n.rec_.mramOk then n else
  let was := n.rec_.store
  let n := modRec n (fun r => { r with mramOk := false, mram := [], store := if r.store = .mram then .none else r.store })
  let n := note n (recRecorder n 2 0 0)
  let n := { n with tb := { n.tb with stored := none } }
  raiseBIf (decide (was = .mram)) n 6 4

/-- BLOCK_RETIRE (15 R360): without spares a segment leaves the ring, and so does one for each later block, since the spares have
then run out; below 1 GiB the flash has failed (R361). How many spares there are the spec does not say. -/
def blockRetire (n : Node) (block : Nat) (spare : Bool) : Node :=
  let n := modRec n (fun r => { r with retired := sat 65535 (r.retired + 1), segs := if spare ∧ r.segs = 8192 then r.segs else r.segs - 1 })
  let n := note n (recRecorder n 4 0 block)
  if n.rec_.segs < 1024 then flashFail n 3 else n

/-- The records of the oldest MiB. -/
def dropMiB (fuel left : Nat) (l : List SRec) : List SRec :=
  match fuel, l with
  | 0, l => l
  | _, [] => []
  | f + 1, s :: r => if recLen s.body ≤ left then dropMiB f (left - recLen s.body) r else s :: r

/-- Segments that hold records, the one at the write point among them. -/
def usedSegs (n : Node) : Nat := divUp (bytesOf n.rec_.flash) 1048576

/-- Scarab needs to erase (15 R360): a further segment taken into use would leave fewer than two erased ones ahead; and a commit
is possible (R356, R361). -/
def eraseDue (n : Node) : Bool :=
  n.rec_.frozen.isNone && decide (n.rec_.store = .flash) && decide (n.rec_.segs ≤ usedSegs n + 2)

/-- Percent of the 30 000 rated cycles used by the most worn block: the ring's own count, or the count of that block where
replaced blocks have made it higher (15 R360; log entry 109). -/
def wearPct (r : Recorder) (cycles : Nat) : Nat := max cycles (divUp r.erases r.segs) * 100 / 30000

/-- A READ in progress skips what has been erased, with GAP (15 R357). -/
def skipErased (was n : Node) : Node :=
  match n.rec_.rdReq with
  | none => n
  | some (f, m, u) =>
    let lost := was.rec_.flash.any (fun s => decide (f ≤ s.rseq ∧ s.rseq ≤ u) && !n.rec_.flash.contains s)
    if lost then modRec n (fun r => { r with readBuf := (copyRecs n f m u true).take 0x02000000 }) else n

/-- SEGMENT_ERASE (15 R360): the oldest segment's records go; at 80 % wear a record and WEAR, once. -/
def segmentErase (n : Node) (cycles : Nat) : Node :=
  if !eraseDue n then n
  else
    let before := n.rec_.wear
    let n := skipErased n (modRec n (fun r => { r with
      flash := dropMiB r.flash.length 1048576 r.flash, erases := r.erases + 1,
      wear := max before (sat 255 (wearPct { r with erases := r.erases + 1 } cycles)) }))
    if before < 80 ∧ 80 ≤ n.rec_.wear then raiseB (note n (recRecorder n 7 0 n.rec_.wear)) 6 5 else n

/-- The store in use once the start-up test of the flash is over (15 R361): flash again with its record, or its failure, of which
the scan names the read-back of segment headers (reason 4; DESIGN CHOICE, log entry 110); else what the MRAM allows. -/
def openStores (n : Node) (flashOk : Bool) : Node :=
  let was := n.rec_.store
  let other : Store := if n.rec_.mramOk then .mram else .none
  if flashOk then
    if was = .flash then n
    else raiseB (stageRec (modRec n (fun r => { r with store := .flash })) 3 (recRecorder n 3 0 0)) 6 4
  else if was = .flash then flashFail n 4
  else raiseBIf (decide (was ≠ other)) (modRec n (fun r => { r with store := other })) 6 4

/-- A start without a readable MRAM (15 R362): nothing of it is read, and its failure has its record. -/
def loseMram (n : Node) : Node :=
  restartTime { modRec n (fun r => { r with mramOk := false, mram := [] }) with tb := { n.tb with stored := none } }

/-- RECORDER_READY (15 R435, R361, R362): both stores scanned; the records kept since phase 1 take their RSEQ. An MRAM that could
not be read now or before does not know the next RSEQ, which goes on 2^20 above the highest in flash. -/
def recorderReady (n : Node) (flashOk mramOk : Bool) : Node :=
  if n.rec_.ready then n
  else
    let was := n.rec_.mramOk
    let n := if mramOk then n else loseMram n
    let top := newestCommitted n
    let next := if mramOk && was then n.rec_.nextRseq else top + 1048576
    let n := modRec n (fun r => { r with
      ready := true, mramOk := mramOk, lastCrc := newestCrc n, committed := top, nextRseq := next,
      lastRseq := if mramOk && was then next - 1 else top })
    let n := stageWaiting n
    let n := if was && !mramOk then stageRec n 3 (recRecorder n 2 0 0) else n
    openStores n flashOk

/-! Meanings -/

def execRecordCommit (t : Nat) (s : State) : Host.Outcome State Fault Refusal := .next (onNode s t recordCommit)
def execOverrunRecord (t : Nat) (s : State) : Host.Outcome State Fault Refusal := .next (onNode s t overrunRecord)
def execFreezeExpire (t : Nat) (s : State) : Host.Outcome State Fault Refusal := .next (onNode s t freezeExpire)
def execTokenExpire (t : Nat) (s : State) : Host.Outcome State Fault Refusal := .next (onNode s t tokenExpire)
def execCaptureEnd (t index : Nat) (s : State) : Host.Outcome State Fault Refusal :=
  .next (onNode s t (fun n => if index < 8 then captureEnd n index else n))
def execFlashFail (t reason : Nat) (s : State) : Host.Outcome State Fault Refusal :=
  .next (onNode s t (fun n => flashFails n reason))
def execMramFail (t : Nat) (s : State) : Host.Outcome State Fault Refusal := .next (onNode s t mramFail)
def execBlockRetire (t block : Nat) (spare : Bool) (s : State) : Host.Outcome State Fault Refusal :=
  .next (onNode s t (fun n => blockRetire n block spare))
def execSegmentErase (t cycles : Nat) (s : State) : Host.Outcome State Fault Refusal :=
  .next (onNode s t (fun n => segmentErase n cycles))
def execRecorderReady (t : Nat) (flashOk mramOk : Bool) (s : State) : Host.Outcome State Fault Refusal :=
  .next (onNode s t (fun n => recorderReady n flashOk mramOk))

end Sys2Proof.Machine
end

