-- ==== Sys2Proof/Machine/TimeBase.lean ====
section
/-! DEFINITION. The time base: discipline sources, selection, slews and steps, holdover (03 R60 to R74). -/

namespace Sys2Proof.Machine

def modTb (n : Node) (f : TimeBase → TimeBase) : Node := { n with tb := f n.tb }

/-- TB_CTRL.STEP_THR in ns. -/
def stepThr (n : Node) : Nat := fld (reg n (at_ 1 0x7C)) 6 0 * 1000000

/-- The module disciplines from its own sources: single, time-class holder, or both cross-links down (03 R84). -/
def ownSources (n : Node) : Bool := timeHolder n || (!n.duplex.x0.up && !n.duplex.x1.up)

/-- Priority of a source in TB_SRC_CFG; the partner's time counts alone where the module follows it (03 R66, R84). -/
def srcPriority (n : Node) (s : TimeSrc) : Nat :=
  let w := reg n (at_ 1 0x68)
  match s with
  | .ptp => if ownSources n then fld w 2 0 else 0
  | .can => if ownSources n then fld w 6 4 else 0
  | .pps => if ownSources n then fld w 10 8 else 0
  | .partner => if ownSources n then 0 else 1

def sourceOf (n : Node) : TimeSrc → Source
  | .ptp => n.tb.ptp
  | .can => n.tb.can
  | .pps => n.tb.pps
  | .partner => n.tb.partner

def modSource (n : Node) (s : TimeSrc) (f : Source → Source) : Node :=
  modTb n (fun t =>
    match s with
    | .ptp => { t with ptp := f t.ptp }
    | .can => { t with can := f t.can }
    | .pps => { t with pps := f t.pps }
    | .partner => { t with partner := f t.partner })

/-- Qualified and enabled. -/
def usable (n : Node) (s : TimeSrc) : Bool := (sourceOf n s).qualified && decide (srcPriority n s ≠ 0)

/-- The better of two choices: lower priority, on a tie the one that comes first in the order PPS, PTP, CAN (03 R66). -/
def better (n : Node) (a : Option TimeSrc) (b : TimeSrc) : Option TimeSrc :=
  if usable n b then
    match a with
    | none => some b
    | some x => if srcPriority n b < srcPriority n x then some b else some x
  else a

/-- The source the node would select now. -/
def bestSource (n : Node) : Option TimeSrc := [TimeSrc.pps, .ptp, .can, .partner].foldl (better n) none

/-- Accuracy to the source of 03 Table 03.1, ns: what TB_EST_ERR starts at. DESIGN CHOICE (log entry 88): the table states
none to the partner, and its 50 ns between the two modules stands in. -/
def srcAccuracy : TimeSrc → Nat
  | .ptp => 100
  | .can => 500
  | .pps => 100
  | .partner => 50

/-- A slew is in progress (TB_STAT.SLEWING). -/
def slewing (n : Node) : Bool := n.tb.slew != 0 || n.slewBy != 0

/-- A slew begins or goes on: what is left of the offset once the frame under way has run (03 R70). -/
def startSlew (n : Node) (off : Int) : Node :=
  let rest := n.slewBy - slewPart n n.now
  modTb n (fun t => { t with slew := off - rest, slews := if !slewing n && off != 0 then sat 65535 (t.slews + 1) else t.slews })

/-- The slew of the frame under way becomes part of the phase, and ends. -/
def endRamp (n : Node) : Node := { n with taiOff := n.taiOff + slewPart n n.now, slewBy := 0 }

/-- The phase is kept from here on. -/
def stopSlew (n : Node) : Node := modTb (endRamp n) (fun t => { t with slew := 0 })

/-- The time-weighted mean of the corrections of the last 1000 s before an instant (03 R64): `upto` is the instant from
which the newest one of the list no longer held. -/
def meanFreq (from_ upto : Nat) (acc : Int) (total : Nat) : List (Nat × Int) → Int
  | [] => if total = 0 then 0 else divRound acc total
  | (t, f) :: r =>
    let a := max t from_
    if t ≤ from_ ∨ r = [] then (if total + (upto - a) = 0 then f else divRound (acc + f * (upto - a : Nat)) (total + (upto - a)))
    else meanFreq from_ a (acc + f * (upto - a : Nat)) (total + (upto - a)) r

/-- The corrections that still count, one older than 1000 s included. -/
def recentFreqs (from_ : Nat) : List (Nat × Int) → List (Nat × Int)
  | [] => []
  | (t, f) :: r => if t ≤ from_ then [(t, f)] else (t, f) :: recentFreqs from_ r

/-- A correction from now on: a free value, as the spec states no control law (log entry 6). -/
def takeFreq (n : Node) : Node :=
  let f := satI (Config.openValue n.free)
  drawn (modTb n (fun t => { t with freq := f, freqs := (n.now, f) :: recentFreqs (n.now - 1000000000000) t.freqs }))

/-- State LOCKED (03 R65): record 1, LOCKED. -/
def enterLocked (n : Node) (s : TimeSrc) : Node :=
  if n.tb.state = .locked then modTb n (fun t => { t with estErr := some (srcAccuracy s) })
  else
    let n := modTb n (fun t => { t with state := .locked, lockedSince := some n.now, holdSince := none,
                                        estErr := some (srcAccuracy s), timeFar := none })
    let n := note n (recTime n 1 (bytesI 8 n.tb.offset) 0 n.period)
    raiseB n 1 0

/-- TIME_FAR with its offset (03 R71): record 5, IRQ; until the step the state is ACQUIRING. -/
def setFar (n : Node) (off : Int) : Node :=
  let n := modTb n (fun t => { t with timeFar := some off, state := .acquiring })
  let n := note n (recTime n 5 (bytesI 8 off) 0 n.period)
  raiseB n 1 4

/-- A step that still waits for its boundary as RUN is entered: in RUN the node never steps by itself, and the offset awaits
the host as TIME_FAR (03 R71). -/
def stepToFar (n : Node) : Node :=
  match n.tb.stepPend with
  | some off => setFar (modTb n (fun t => { t with stepPend := none })) off
  | none => n

/-- A measured offset of the selected source (03 R65, R70, R71): slew, step outside RUN, or TIME_FAR in RUN with the phase
kept. DESIGN CHOICE (log entry 88): a later offset within STEP_THR ends TIME_FAR, and a step that waits, without a STEP. -/
def useOffset (n : Node) (s : TimeSrc) (off : Int) : Node :=
  let n := takeFreq (modTb n (fun t => { t with offset := satI off }))
  if off.natAbs ≤ stepThr n then
    let n := modTb n (fun t => { t with timeFar := none, stepPend := none })
    startSlew (enterLocked n s) off
  else if isRun n then
    let n := stopSlew n
    if n.tb.timeFar.isSome then modTb n (fun t => { t with timeFar := some off })
    else setFar n off
  else modTb (stopSlew n) (fun t => { t with stepPend := some off })

/-- A source becomes the selected one: record 2, SRC_CHG, and its offset is used (03 R65, R73). -/
def selectSource (n : Node) (s : TimeSrc) : Node :=
  let x := sourceOf n s
  let st := n.tb.state
  let n := modTb n (fun t => { t with sel := some s, port := x.port,
                                      state := if st = .free then .acquiring else st })
  let n := note n (recTime n 2 (bytesI 8 n.tb.offset) 0 n.period)
  let n := raiseB n 1 2
  useOffset n s x.offset

/-- A measurement of a source: used where the source is selected; a source that qualifies is selected where none is. -/
def afterMeasure (n : Node) (s : TimeSrc) : Node :=
  if n.tb.sel = some s then
    useOffset (modTb n (fun t => { t with port := (sourceOf n s).port })) s (sourceOf n s).offset
  else
    match n.tb.sel, bestSource n with
    | none, some b => selectSource n b
    | _, _ => n

/-- The source qualifies (03 R66). -/
def qualify (n : Node) (s : TimeSrc) : Node :=
  modSource n s (fun x => if x.qualified then x else { x with qualified := true, since := n.now })

/-- Offsets lie within 1 us of each other. -/
def within1us (l : List Int) : Bool :=
  match l with
  | [] => true
  | x :: r => decide ((r.foldl max x) - (r.foldl min x) ≤ 1000)

/-- Ports on which PTP runs. -/
def ptpRuns (n : Node) (p : Nat) : Bool := nbit (fld (reg n (at_ 1 0x6C)) 11 8) p

/-- A message of the domain, the profile and the transport that TB_PTP_CFG selects, on a port that runs PTP (03 R61). -/
def ptpTaken (n : Node) (x : PtpExchange) : Bool :=
  let w := reg n (at_ 1 0x6C)
  n.tb.ckFail.isNone && ptpRuns n x.port && x.domain == fld w 7 0 && x.p2p == bit w 13 && x.udp == bit w 12

/-- Four Sync intervals of TB_PTP_CFG (03 R66), ns. -/
def syncSilence (n : Node) : Nat := 4 * (125000000 * 2 ^ fld (reg n (at_ 1 0x6C)) 17 16)

/-- Three announce-receipt timeouts of 6 s (03 R66, log entry 89), ns. -/
def announceSilence : Nat := 18000000000

/-- The master of a port is heard: neither its Announce nor its Sync has been silent for as long as R66 allows. -/
def masterHeard (n : Node) (m : PtpPort) : Bool :=
  decide (n.now < m.annAt + announceSilence) && decide (n.now < m.syncAt + syncSilence n)

/-- The port whose master wins the best master clock algorithm among those heard; on a tie the lower port. -/
def bestPort (n : Node) : Option Nat :=
  ((List.range 4).filterMap (fun p => match tget none n.tb.ptpPorts p with
    | some m => if ptpRuns n p && masterHeard n m then some (m.ds, p) else none
    | none => none)).foldl (fun (a : Option (Nat × Nat)) e =>
      match a with | none => some e | some b => if e.1 < b.1 then some e else some b) none |>.map Prod.snd

/-- What a port hears of its master: none where the algorithm favours this node. -/
def hearMaster (n : Node) (x : PtpExchange) : Node :=
  modTb n (fun t => { t with ptpPorts := tmod none t.ptpPorts x.port (fun m =>
    if x.bmcaOwn then none
    else some { ds := x.ds, syncAt := n.now, annAt := match m with | some y => if x.announce then n.now else y.annAt | none => n.now }) })

/-- This module is PTP master on a port (03 R84): Announce and two-step Sync go out. -/
def ptpAdvertise (n : Node) (p : Nat) : Node :=
  let w := reg n (at_ 1 0x6C)
  emit (modTb n (fun t => { t with ptpMaster := true })) (.ptp p {
    domain := fld w 7 0, prio1 := fld w 31 24, p2p := bit w 13, udp := bit w 12, logSync := (fld w 17 16 : Int) - 3 })

/-- An exchange with the master that the node follows (03 R66): 8 within 1 us of each other qualify; another port starts the
run afresh. -/
def ptpFollow (n : Node) (x : PtpExchange) : Node :=
  let fresh := n.tb.ptp.port != x.port
  let n := modSource n .ptp (fun p => { p with
    offs := (x.offset :: (if fresh then [] else p.offs)).take 8, offset := x.offset, port := x.port,
    good := if fresh then 1 else sat 65535 (p.good + 1), last := some n.now })
  let p := n.tb.ptp
  let n := if p.offs.length = 8 ∧ within1us p.offs then qualify n .ptp else n
  afterMeasure n .ptp

/-- TB_UTC_OFS while LOCKED to PTP (03 R61). -/
def takeUtc (n : Node) (u : Option Int) : Node :=
  match u with
  | some u =>
    let w : Word := BitVec.ofNat 32 (intBits 16 u)
    if n.tb.state = .locked ∧ n.tb.sel = some .ptp ∧ reg n (at_ 1 0x78) ≠ w then writeByNode n (at_ 1 0x78) w oMp
    else n
  | none => n

/-- PTP_MESSAGE (03 R61, R66, R84): time comes from the port whose master wins; where the algorithm favours this node, it
may be master. -/
def ptpExchange (n : Node) (x : PtpExchange) : Node :=
  if !ptpTaken n x then n
  else
    let n := hearMaster n x
    if x.bmcaOwn then
      if timeHolder n && bit (reg n (at_ 1 0x68)) 16 then ptpAdvertise n x.port else modTb n (fun t => { t with ptpMaster := false })
    else
      let n := modTb n (fun t => { t with ptpMaster := false })
      if bestPort n = some x.port then takeUtc (ptpFollow n x) x.utc else n

/-- Interval of a code of TB_CTRL.SYNC_INT, ns. -/
def syncInterval (code : Nat) : Nat := 62500000 * 2 ^ min code 4

/-- A sender of quality 0 that is not lost: it has been heard within 4 of its intervals (03 R66, R83). -/
def senderOk (n : Node) (x : Sender) : Bool := x.qual == 0 && decide (n.now < x.at_ + 4 * x.interval)

/-- The sender followed (03 R83): TB_CAN_CFG.MASTER, or the lowest address among senders of quality 0. -/
def canFollowed (n : Node) : Option Nat :=
  let m := fld (reg n (at_ 1 0x70)) 31 24
  if m ≠ 255 then some m
  else
    match n.tb.canMaster with
    | some a => some a
    | none => (n.tb.senders.find? (fun e => match e.2 with | some x => senderOk n x | none => false)).map Prod.fst

/-- A SYNC of a sender: kept for its FOLLOW. One that comes before the last one of the followed sender has its FOLLOW breaks
the run of pairs (03 R66). -/
def takeSync (n : Node) (ctrl src seq sof q int : Nat) : Node :=
  let k := ctrl * 256 + src
  let open_ := (tget none n.tb.syncs k).isSome
  let n := modTb n (fun t => { t with
    syncs := tset none t.syncs k (some { seq := seq, sof := sof, at_ := n.now, qual := q }),
    senders := tset none t.senders src (some { qual := q, at_ := n.now, interval := syncInterval int }) })
  if open_ && canFollowed n == some src then modSource n .can (fun c => { c with good := 0 }) else n

/-- A pair of SYNC and FOLLOW (03 R62, R66): no more than 10 ms apart; 4 in a row qualify. -/
def canPair (n : Node) (ctrl src seq tai : Nat) : Node :=
  let k := ctrl * 256 + src
  match tget none n.tb.syncs k with
  | none => n
  | some y =>
    let n := modTb n (fun t => { t with syncs := tset none t.syncs k none })
    if y.seq ≠ seq ∨ y.at_ + 10000000 < n.now then
      if canFollowed n = some src then modSource n .can (fun c => { c with good := 0 }) else n
    else if canFollowed n ≠ some src || n.tb.ckFail.isSome then n
    else
      let off : Int := (tai : Int) - taiPast n y.sof
      let int := match tget none n.tb.senders src with | some x => x.interval | none => 125000000
      let n := modTb n (fun t => { t with canMaster := some src })
      let n := modSource n .can (fun c => { c with
        offset := off, port := ctrl, good := sat 65535 (c.good + 1), last := some n.now, interval := int })
      let n := if 4 ≤ n.tb.can.good then qualify n .can else n
      afterMeasure n .can

/-- Edges missed since the last one, where no message has named this one afresh. -/
def missedEdges (n : Node) : Nat :=
  match n.tb.pps.last with
  | some l => if n.tb.todFresh then 0 else (n.now - l + 500000000) / 1000000000 - 1
  | none => 0

/-- PPS_EDGE (03 R63, R66): an edge of the kind TB_PPS_CFG.EDGE selects, less its cable delay, marks the second that the
time of day names; without a message for it, the second counted on from the last one named. -/
def ppsEdge (n : Node) (falling : Bool) : Node :=
  let w := reg n (at_ 1 0x74)
  if n.tb.ckFail.isSome || falling != bit w 0 then n
  else
    let here : Int := taiAt n (n.now - fld w 31 16)
    let regular := match n.tb.pps.last with
      | some l => decide (((n.now : Int) - l - 1000000000).natAbs ≤ 100000)
      | none => false
    match n.tb.tod with
    | none => modSource n .pps (fun p => { p with good := 0, last := some n.now })
    | some d =>
      let d := d + missedEdges n * 1000000000
      let n := modTb n (fun t => { t with tod := some (d + 1000000000), todFresh := false })
      let n := modSource n .pps (fun p =>
        { p with good := if regular then sat 65535 (p.good + 1) else 1, offset := (d : Int) - here, last := some n.now,
                 port := if fld w 2 1 = 1 then 1 else 0 })
      let n := if 3 ≤ n.tb.pps.good then qualify n .pps else n
      afterMeasure n .pps

/-- A time of day names the next edge; one that differs from the second expected is not consistent (03 R66). -/
def setTod (n : Node) (tai : Nat) : Node :=
  let same := match n.tb.tod with | some d => d == tai | none => false
  let n := modTb n (fun t => { t with tod := some tai, todFresh := true })
  if same then n else modSource n .pps (fun p => { p with good := 0 })

/-- ZDA_RECEIVED (03 R58, R63): UTC second of the next edge, on the port TB_PPS_CFG.TOD names. -/
def zdaReceived (n : Node) (port utc : Nat) : Node :=
  let cfg := reg n (at_ (0x5C + port) 0x44)
  if 2 ≤ port || !bit cfg 31 || !bit cfg 5 then n
  else
    let n := modSer n port (fun s => { s with lastOk := some n.now, ok := sat 65535 (s.ok + 1) })
    if fld (reg n (at_ 1 0x74)) 2 1 = port then
      setTod n (((utc : Int) + sfld (reg n (at_ 1 0x78)) 15 0).toNat * 1000000000)
    else n

/-- Holdover (03 R64, R68): record 3, HOLDOVER; the frequency is held at its mean, and TB_EST_ERR grows from here. DESIGN
CHOICE (log entry 88): the loss of the selected source with none to replace it is this event alone, no change of source; it
clears TIME_FAR, and a step that waits is dropped. -/
def enterHoldover (n : Node) : Node :=
  let from_ := n.now - 1000000000000
  let f := if n.tb.freqs = [] then n.tb.freq else meanFreq from_ n.now 0 0 n.tb.freqs
  let n := modTb (stopSlew n) (fun t => { t with
    state := .holdover, sel := none, port := 0, holdSince := some n.now, timeFar := none, stepPend := none,
    freq := f, freqs := (n.now, f) :: recentFreqs from_ t.freqs })
  let n := note n (recTime n 3 (bytesI 8 n.tb.offset) 0 n.period)
  raiseB n 1 1

/-- The sources by TB_STAT.SRC code. -/
def srcOfCode : Nat → Option TimeSrc
  | 1 => some .ptp
  | 2 => some .can
  | 3 => some .pps
  | 4 => some .partner
  | _ => none

/-- The selected source can no longer be used: another qualified source, or holdover (03 R64, R66). -/
def leaveSource (n : Node) : Node :=
  match bestSource n with
  | some b => selectSource n b
  | none => if n.tb.state = .holdover then modTb n (fun t => { t with sel := none, port := 0 }) else enterHoldover n

/-- A source is lost (03 R66): no longer qualified, its run afresh; it is left at once. -/
def loseSource (n : Node) (s : TimeSrc) : Node :=
  let n := modSource n s (fun x => { x with qualified := false, good := 0, offs := [] })
  let n := match s with
    | .can => modTb n (fun t => { t with
        canMaster := none, syncs := t.syncs.filter (fun e => some (e.1 % 256) != t.canMaster),
        senders := t.senders.filter (fun e => some e.1 != t.canMaster) })
    | .ptp => modTb n (fun t => { t with ptpPorts := tset none t.ptpPorts t.ptp.port none })
    | _ => n
  if n.tb.sel = some s then leaveSource n else n

/-- The instant has come at which a source is lost (03 R66): 4 Sync intervals of TB_PTP_CFG or, with `announce`, 3
announce-receipt timeouts of 6 s; 4 intervals of the followed sender; 2 edges; for the partner, PLOST, both cross-links down or EN = 0
(log entry 89). -/
def lostDue (n : Node) (s : TimeSrc) (announce : Bool) : Bool :=
  let x := sourceOf n s
  let since (d : Nat) : Bool := match x.last with | some l => decide (l + d ≤ n.now) | none => false
  match s with
  | .ptp =>
    if announce then
      match tget none n.tb.ptpPorts x.port with
      | some m => decide (m.annAt + announceSilence ≤ n.now)
      | none => false
    else since (syncSilence n)
  | .can => since (4 * x.interval)
  | .pps => since 2000100000
  | .partner => !paired n || n.duplex.plost || (!n.duplex.x0.up && !n.duplex.x1.up)

/-- SOURCE_LOST (03 R66). -/
def sourceLost (n : Node) (code : Nat) (announce : Bool) : Node :=
  match srcOfCode code with
  | none => n
  | some s => if lostDue n s announce then loseSource n s else n

/-- SOURCE_SWITCH (03 R66): to a better source that has stayed qualified for 10 s. -/
def sourceSwitch (n : Node) : Node :=
  match bestSource n, n.tb.sel with
  | some b, some s =>
    if b ≠ s ∧ (sourceOf n b).since + 10000000000 ≤ n.now then selectSource n b else n
  | _, _ => n

/-- ACQ_TIMEOUT (03 R64): TB_ACQ_TMO after phase 4 of start-up began to wait, and no source has qualified. -/
def acqTimeout (n : Node) : Node :=
  let due : Bool := match n.tb.acqAt with
    | some a => decide (a + fld (reg n (at_ 1 0x80)) 7 0 * 1000000000 ≤ n.now)
    | none => false
  if n.tb.state = .acquiring ∧ n.tb.sel = none ∧ due then modTb n (fun t => { t with state := .free }) else n

/-- An armed launch entry becomes VOID (03 R81): record, VOID. -/
def voidEntry (n : Node) (e : Nat) : Node :=
  let x := launchOf n e
  if x.state = .armed then
    let n := modLaunch n e (fun x => { x with state := .void })
    let n := { n with lchLast := e }
    let n := note n (recLaunch n e 5 (fld x.act 3 0) x.tgt x.arg)
    raiseR n 0x0A 2
  else n

def voidAll (n : Node) : Node := (keys n.launches).foldl voidEntry n

/-- The instant T of a change of period taken up at S: the first multiple of 100 ms at least 1 ms later (03 R74). -/
def periodInstant (s : Nat) : Nat := divUp (s + 1000000) 100000000 * 100000000

/-- A frame number by which frames are counted from now on. -/
def shiftNat (d : Int) (k : Nat) : Nat := ((k : Int) + d).toNat

/-- Frame numbers jump by d: every number that the node keeps of a frame to come or just passed jumps with them. -/
def shiftFrames (d : Int) (n : Node) : Node :=
  let f := shiftNat d
  let x := n.duplex
  { n with
    frame := f n.frame,
    net := { n.net with remote := n.net.remote.map (fun r => { r with tag := f r.tag }) },
    peerMsgs := n.peerMsgs.map (fun m => { m with tag := f m.tag }),
    remoteFos := n.remoteFos.map (fun r => { r with tag := f r.tag }),
    duplex := { x with
      lastFrame := f x.lastFrame, prevFrame := f x.prevFrame, arbO := x.arbO.map f, arbT := x.arbT.map f,
      takes := x.takes.map f, seen := x.seen.map f, checked := x.checked.map f, clampFrame := f x.clampFrame,
      handB := x.handB.map f,
      hb := x.hb.map (fun h => { h with head := { h.head with frame := f h.head.frame } }) },
    mirror := { n.mirror with last := n.mirror.last.map f } }

/-- The step of R72 at a B: Δ the nearest multiple of F, the rest slewed; frame numbers jump; launches VOID; GAP. DESIGN
CHOICE (log entry 88): a pending change of period takes its T afresh from the node time after the step. -/
def applyStep (n : Node) : Node :=
  match n.tb.stepPend with
  | none => n
  | some off =>
    let k := divRound off n.period
    let d := k * n.period
    let old := taiNow n
    let n := shiftFrames k { n with taiOff := n.taiOff + d, sampleT := ((n.sampleT : Int) + d).toNat,
                                    mirror := { n.mirror with gap := true } }
    let n := modTb n (fun t => { t with
      stepPend := none, timeFar := none, steps := sat 65535 (t.steps + 1),
      pendPeriod := t.pendPeriod.map (fun p => (p.1, periodInstant (taiNow n))) })
    let n := note n { recTime n 4 (bytesLE 8 old) (taiNow n) n.period with time := taiNow n }
    let n := raiseB n 1 3
    let n := voidAll n
    let n := match n.tb.sel with | some s => enterLocked n s | none => n
    startSlew n (off - d)

/-- One frame of a slew (03 R70): no more than SLEW_MAX of F, spread over the frame. -/
def slewFrame (n : Node) : Node :=
  let m : Int := (n.period * fld (reg n (at_ 1 0x7C)) 24 16 / 1000000 : Nat)
  let d := max (-m) (min m n.tb.slew)
  { modTb n (fun t => { t with slew := t.slew - d, slewed := d != 0 }) with slewFrom := n.now, slewBy := d }

/-- A mapping of time that ends is kept for what began under it. -/
def keepMap (old n : Node) : Node :=
  if old.slewBy = 0 ∧ old.taiOff = n.taiOff then n
  else
    let m : TimeMap := { until_ := n.now, off := old.taiOff, slewBy := old.slewBy, slewFrom := old.slewFrom, period := old.period }
    modTb n (fun t => { t with maps := (m :: t.maps).take 256 })

/-- The time base at a B: the slew of the frame before is done; a step is applied where that frame and the next one last F
(03 R72), else the slew goes on. -/
def timeBoundary (old : Node) : Node :=
  let n := endRamp old
  keepMap old <|
  if n.tb.stepPend.isNone then slewFrame n
  else if n.tb.slewed then modTb n (fun t => { t with slewed := false })
  else applyStep n

/-- TB_CMD STEP as it is taken up (03 R71): the step follows at the next B. -/
def tbStepEff (n : Node) : Node × Option Bool :=
  match n.tb.timeFar with
  | none => (n, some false)
  | some off => (modTb n (fun t => { t with stepPend := some off }), some true)

/-- TB_CMD SET_TOD as it is taken up (03 R63): the TAI is that of the next edge after the acceptance; an edge that has come
since was that one. -/
def setTodEff (tai since : Nat) (n : Node) : Node × Option Bool :=
  if fld (reg n (at_ 1 0x74)) 2 1 ≠ 2 then (n, some false)
  else
    let past : Bool := match n.tb.pps.last with | some l => decide (since < l) | none => false
    (setTod n (if past then tai + 1000000000 else tai), some true)

/-- CKTB_FAIL (03 R69): record 7, CKFAIL; no source can be measured, so the selected one is lost; PTP, CAN sync and PPS_IN
stop; the state holds until reset. DESIGN CHOICE (log entry 88): TIME_FAR is cleared and a step that waits is dropped, as
there is no offset any more. -/
def cktbFail (n : Node) : Node :=
  if n.tb.ckFail.isSome then n
  else
    let e := estErrAt n n.now
    let n := modTb (stopSlew n) (fun t => { t with
      ckFail := some n.now, estErr := e, ptp := {}, can := {}, pps := {}, partner := {}, ptpPorts := [], syncs := [],
      senders := [], sent := [], canMaster := none, ptpMaster := false, tod := none, stepPend := none, timeFar := none })
    let n := note n (recTime n 7 (bytesI 8 n.tb.offset) 0 n.period)
    let n := raiseB n 1 5
    if n.tb.sel.isSome then enterHoldover n else n

/-- The median of three. -/
def median3 (a b c : Int) : Int := max (min a b) (min (max a b) c)

/-- At a B after CK_TB has failed (01 R25): the median lane's boundary is S, so node time there is that of S. -/
def medianGrid (n : Node) : Node :=
  if n.tb.ckFail.isSome then
    { n with taiOff := (n.sampleT : Int) - n.sAt - median3 n.tb.lane0 n.tb.lane1 n.tb.lane2 }
  else n

/-- What lane l trims its counter by once it has seen its boundary d ns after S (03 R76). -/
def trimLane (t : TimeBase) (l : Nat) (d : Int) : TimeBase :=
  match l with
  | 0 => { t with lane0 := d, trim0 := t.trim0 - d }
  | 1 => { t with lane1 := d, trim1 := t.trim1 - d }
  | _ => { t with lane2 := d, trim2 := t.trim2 - d }

/-- A reintegrating lane loads its counter from the master counter (03 R76). -/
def loadLane (n : Node) (l : Nat) : Node :=
  modTb n (fun t =>
    match l with
    | 0 => { t with lane0 := 0, trim0 := 0 }
    | 1 => { t with lane1 := 0, trim1 := 0 }
    | _ => { t with lane2 := 0, trim2 := 0 })

/-- The cold plate at a B: in holdover, one change of more than 10 K/h tells for all of it (03 R68). -/
def takePlate (n : Node) (steady : Bool) : Node :=
  modTb n (fun t => { t with plateSteady := if t.state = .holdover then t.plateSteady && steady else steady })

/-- STORED_TIME_WRITE (03 R65). -/
def storedTimeWrite (n : Node) : Node :=
  if n.rec_.mramOk then modTb n (fun t => { t with stored := some (taiNow n) }) else n

/-- A write of TB_PERIOD taken up (03 R74): the last one governs; the period in force cancels. -/
def takePeriod (n : Node) : Node :=
  let sel := fld (reg n (at_ 1 0x64)) 3 0
  modTb n (fun t => { t with pendPeriod := if periodOf sel = n.period then none else some (sel, periodInstant (taiNow n)) })

/-- A change of the source priorities: a selected source that is no longer usable is left at once (03 R66). -/
def reselect (n : Node) : Node :=
  match n.tb.sel with
  | none => n
  | some s => if usable n s then n else leaveSource n

/-- A change of the followed sender (03 R83): the source starts afresh. -/
def refollow (n : Node) : Node :=
  let m := fld (reg n (at_ 1 0x70)) 31 24
  if n.tb.canMaster.isNone ∨ m = 255 ∨ n.tb.canMaster = some m then n else loseSource n .can

def execPtpMessage (t : Nat) (x : PtpExchange) (s : State) : Host.Outcome State Fault Refusal :=
  .next (onNode s t (fun n => ptpExchange n x))
def execPpsEdge (e : PpsEdge) (s : State) : Host.Outcome State Fault Refusal :=
  .next (onNode s e.t (fun n => ppsEdge n e.falling))
def execZdaReceived (t port utc : Nat) (s : State) : Host.Outcome State Fault Refusal :=
  .next (onNode s t (fun n => zdaReceived n port utc))
def execSourceLost (t src : Nat) (announce : Bool) (s : State) : Host.Outcome State Fault Refusal :=
  .next (onNode s t (fun n => sourceLost n src announce))
def execSourceSwitch (t : Nat) (s : State) : Host.Outcome State Fault Refusal := .next (onNode s t sourceSwitch)
def execAcqTimeout (t : Nat) (s : State) : Host.Outcome State Fault Refusal := .next (onNode s t acqTimeout)
def execCktbFail (t : Nat) (s : State) : Host.Outcome State Fault Refusal := .next (onNode s t cktbFail)
def execStoredTimeWrite (t : Nat) (s : State) : Host.Outcome State Fault Refusal := .next (onNode s t storedTimeWrite)

end Sys2Proof.Machine
end

