-- ==== Sys2Proof/Machine/Can.lean ====
section
/-! DEFINITION. The CAN FD controllers (13 R296 to R323) and the node queues above them (14 R326). -/

namespace Sys2Proof.Machine

/-- Page of a controller. -/
def canPage (c : Nat) : Nat := 0x40 + c

def cfgMode (n : Node) (c : Nat) : Nat := fld (canReg n c 0x40) 3 0
def fdoe (n : Node) (c : Nat) : Bool := bit (canReg n c 0x40) 5

/-- TS at a CK_TB instant (13 R318). -/
def tsAt (n : Node) (t : Nat) : Word := BitVec.ofNat 32 ((t - n.tsRef.zero) / 100)

/-- Data bytes of a DLC (13 Table 13.1). -/
def dlcLen (fdf : Bool) (d : Nat) : Nat :=
  if d ≤ 8 then d
  else if !fdf then 8
  else match d with
    | 9 => 12
    | 10 => 16
    | 11 => 20
    | 12 => 24
    | 13 => 32
    | 14 => 48
    | _ => 64

/-- The smallest DLC whose length holds k bytes. -/
def lenDlc (k : Nat) : Nat :=
  if k ≤ 8 then k else if k ≤ 12 then 9 else if k ≤ 16 then 10 else if k ≤ 20 then 11
  else if k ≤ 24 then 12 else if k ≤ 32 then 13 else if k ≤ 48 then 14 else 15

/-- Identifier word of a frame, layout of 0x280. -/
def idWord (ide : Bool) (id : Nat) : Word := pack [(b2n ide, 29, 1), (id, 0, 29)]

/-- Order of arbitration: the lower number wins (ISO 11898-1). -/
def arbKey (f : CanFrame) : Nat :=
  if f.ide then (f.id / 262144) * 2097152 + 1048576 + 524288 + (f.id % 262144) * 2 + b2n f.rtr
  else f.id * 2097152 + b2n f.rtr * 1048576

/-- The frame of a node message: FD, extended, BRS where the data rate exceeds the nominal one (14 R324). -/
def nodeFrame (n : Node) (c : Nat) (m : NodeMsg) : CanFrame :=
  { ide := true, id := m.cls * 67108864 + m.typ * 262144 + m.src * 1024 + m.sub, fdf := true,
    brs := decide (dataBit (canReg n c 0x48) < nomBit (canReg n c 0x44)), esi := false, rtr := false,
    dlc := lenDlc m.data.length, data := m.data }

def bufFrame (n : Node) (c : Nat) (b : TxBuf) : CanFrame :=
  match b.body with
  | .host m _ => m.frame
  | .node m => nodeFrame n c m

/-! Buffers -/

def getBuf (x : CanCtl) (b : Nat) : Option TxBuf := if b = 0 then x.b0 else if b = 1 then x.b1 else x.b2
def putBuf (x : CanCtl) (b : Nat) (v : Option TxBuf) : CanCtl :=
  if b = 0 then { x with b0 := v } else if b = 1 then { x with b1 := v } else { x with b2 := v }

def isHostBuf (o : Option TxBuf) : Bool := match o with | some b => (match b.body with | .host _ _ => true | .node _ => false) | none => false

/-- Host messages outstanding (13 R308). -/
def outstanding (x : CanCtl) : Nat :=
  x.hostQ.length + b2n (isHostBuf x.b0) + b2n (isHostBuf x.b1) + b2n (isHostBuf x.b2) + x.txc.length

/-- The controller sends, and its engine loads buffers: MODE NORMAL, in ACTIVE or PASSIVE. -/
def canSends (x : CanCtl) : Bool := x.mode == 1 && (decide (x.state = .active) || decide (x.state = .passive))

/-- A completion entry (13 Table 13.5); TXC. -/
def complete (n : Node) (c : Nat) (m : HostMsg) (attempts status : Nat) (ts : Word) : Node :=
  let e : Completion := { tag := m.tag, attempts := sat 15 attempts, status := status, ts := ts,
                          id := idWord m.frame.ide m.frame.id }
  raise (modCan n c (fun x => { x with txc := x.txc ++ [e] })) (canPage c) 4

/-- A loaded buffer ends: a host message gives its completion entry, a node message none. -/
def endBuf (n : Node) (c b status : Nat) (ts : Word) : Node :=
  match getBuf (canOf n c) b with
  | none => n
  | some t =>
    let n := modCan n c (fun x => { putBuf x b none with lastDone := b })
    match t.body with
    | .host m _ => complete n c m t.attempts status ts
    | .node m => if m.typ = 1 then modTb n (fun z => { z with sent := tset none z.sent c none }) else n

/-- Every loaded buffer ends with a status. -/
def endAllBufs (n : Node) (c status : Nat) : Node := endBuf (endBuf (endBuf n c 0 status 0) c 1 status 0) c 2 status 0

/-- The buffer the engine loads next: the lowest free one, or in cyclic order with TXPRIO = 1 (13 R309). -/
def freeBuf (x : CanCtl) : Option Nat :=
  if x.txprio then
    let b := (x.lastLoad + 1) % 3
    if (getBuf x b).isNone then some b else none
  else (List.range 3).find? (fun b => (getBuf x b).isNone)

/-- One load: the node queue first, the host queue while the node queue is empty (13 R309, R310). -/
def loadOne (x : CanCtl) : CanCtl :=
  match freeBuf x with
  | none => x
  | some b =>
    match x.nodeQ with
    | m :: r => { putBuf x b (some { body := .node m }) with nodeQ := r, lastLoad := b }
    | [] =>
      match x.hostQ with
      | m :: r => { putBuf x b (some { body := .host m x.retry, attempts := m.attempts }) with hostQ := r, lastLoad := b }
      | [] => x

/-- The host-loaded buffer that would lose arbitration to every other, not in transmission (13 R309). -/
def loserBuf (n : Node) (c : Nat) (x : CanCtl) : Option Nat :=
  let hs := (List.range 3).filter (fun b => isHostBuf (getBuf x b))
  let key : Nat → Nat := fun b => match getBuf x b with | some t => arbKey (bufFrame n c t) | none => 0
  match hs.find? (fun b => hs.all (fun d => decide (key d ≤ key b))) with
  | some b => if (match getBuf x b with | some t => t.intx | none => true) then none else some b
  | none => none

/-- A waiting node message takes the place of the losing host buffer, whose message returns to the head of its queue. -/
def preempt (n : Node) (c : Nat) (x : CanCtl) : CanCtl :=
  match x.nodeQ with
  | [] => x
  | m :: r =>
    if (x.b0.isNone || x.b1.isNone || x.b2.isNone) then x
    else
      match loserBuf n c x with
      | none => x
      | some b =>
        match getBuf x b with
        | some t =>
          match t.body with
          | .host h _ =>
            { putBuf x b (some { body := .node m }) with nodeQ := r, hostQ := { h with attempts := t.attempts } :: x.hostQ }
          | .node _ => x
        | none => x

/-- What one controller's engine can load. -/
def loadAll (n : Node) (c : Nat) (x : CanCtl) : CanCtl := preempt n c (preempt n c (preempt n c (loadOne (loadOne (loadOne x)))))

/-- The buffer in transmission. -/
def intxBuf (x : CanCtl) : Option Nat := (List.range 3).find? (fun b => (getBuf x b).any TxBuf.intx)

/-- The loaded buffer that the controller offers to the next arbitration (13 R309). -/
def offered (n : Node) (c : Nat) (x : CanCtl) : Option Nat :=
  let key : Nat → Nat := fun b => match getBuf x b with | some t => arbKey (bufFrame n c t) | none => 0
  let ls := (List.range 3).filter (fun b => (getBuf x b).isSome)
  if x.txprio then [(x.lastDone + 1) % 3, (x.lastDone + 2) % 3, x.lastDone % 3].find? (fun b => (getBuf x b).isSome)
  else ls.find? (fun b => ls.all (fun d => decide (key b ≤ key d)))

/-- The buffer offered goes into transmission. DESIGN CHOICE (log entry 62): no row tells a start of frame, and the one offered is
taken to send it at once; a row of another buffer shows that it had not. -/
def startTx (n : Node) (c : Nat) (x : CanCtl) : CanCtl :=
  if (intxBuf x).isSome then x
  else
    match offered n c x with
    | some b => putBuf x b ((getBuf x b).map (fun t => { t with intx := true }))
    | none => x

/-- A transmission that a row tells of can be that of a buffer: the one in transmission, or the one offered by now. -/
def mayTx (n : Node) (c : Nat) (x : CanCtl) (b : Nat) : Bool :=
  canSends x && (intxBuf x == some b || offered n c x == some b)

/-- In NONE a node message that is not in transmission goes back to the head of its queue (R320). -/
def unloadNode (x : CanCtl) : CanCtl :=
  [2, 1, 0].foldl (fun x b =>
    match getBuf x b with
    | some { body := .node m, intx := false, .. } => { putBuf x b none with nodeQ := m :: x.nodeQ }
    | _ => x) x

/-- The engine loads what it can, in NONE the host queue alone (R320), and the controller sends. -/
def loadBufs (n : Node) (c : Nat) : Node :=
  if canSends (canOf n c) then
    modCan n c (fun x => startTx n c (
      if lanesNone n then
        let x := unloadNode x
        { loadAll n c { x with nodeQ := [] } with nodeQ := x.nodeQ }
      else loadAll n c x))
  else n

/-- What is in transmission loses arbitration, or proves not to have begun; a message that a FLUSH took ends ABORTED then
(13 R310). `keep` is a buffer that a row names. -/
def loseArb (n : Node) (c : Nat) (keep : Option Nat) : Node :=
  (List.range 3).foldl (fun n b =>
    match getBuf (canOf n c) b with
    | some t =>
      if keep = some b ∨ t.intx = false then n
      else
        let n := modCan n c (fun x => putBuf x b (some { t with intx := false }))
        if t.flushed then endBuf n c b 4 0 else n
    | none => n) n

/-! Node queues (14 R326) -/

/-- In order of CLASS, and within one in order of generation. -/
def insertMsg (m : NodeMsg) : List NodeMsg → List NodeMsg
  | [] => [m]
  | x :: r => if m.cls < x.cls then m :: x :: r else x :: insertMsg m r

/-- Removal of the newest message of the greatest class. -/
def dropNewest (l : List NodeMsg) : List NodeMsg := l.dropLast

/-- A queued RESULT of the same SUB is replaced. -/
def replaceResult (m : NodeMsg) (l : List NodeMsg) : List NodeMsg :=
  if m.typ = 0x30 then l.filter (fun x => !(x.typ == 0x30 && x.sub == m.sub)) else l

/-- Discards are told by at most one record a second a controller. -/
def tellDiscards (n : Node) (c : Nat) : Node :=
  let x := canOf n c
  let due : Bool := match x.qRecAt with | some t => decide (t + 1000000000 ≤ n.now) | none => true
  if decide (x.qDisc ≠ 0) && due then
    let n := modCan n c (fun x => { x with qDisc := 0, qRecAt := some n.now })
    note n (recComm n 9 c (BitVec.ofNat 32 x.qDisc))
  else n

/-- The controller sends and takes node messages: FDOE = 1 and MODE NORMAL (14 R324); the lanes are not in NONE. -/
def nodeLayer (n : Node) (c : Nat) : Bool := decide (c < 24) && fdoe n c && (canOf n c).mode == 1

/-- A node message queued on a controller (14 R326); in BUS_OFF it is lost (R313). -/
def queueMsg (n : Node) (c : Nat) (m : NodeMsg) : Node :=
  if !nodeLayer n c || lanesNone n || decide ((canOf n c).state = .busOff) then n
  else
    let n := modCan n c (fun x =>
      let q := insertMsg m (replaceResult m x.nodeQ)
      if q.length ≤ 256 then { x with nodeQ := q } else { x with nodeQ := dropNewest q, qDisc := x.qDisc + 1 })
    loadBufs (tellDiscards n c) c

/-- On every controller of a mask. -/
def queueOn (n : Node) (mask : Nat) (m : NodeMsg) : Node := (members mask 24).foldl (fun n c => queueMsg n c m) n

/-! States -/

/-- Candidates that rate detection tries, in ascending order (13 R302). -/
def rdCands (n : Node) (c : Nat) : List Nat :=
  (List.range 8).filter (fun k =>
    let w := canReg n c (0xA0 + 4 * k)
    bit w 31 && (fdoe n c || fld w 10 8 == 0))

/-- The next candidate, cyclically. -/
def nextCand (n : Node) (c : Nat) : Nat :=
  let cs := rdCands n c
  let k := (canOf n c).rdCand
  match cs.find? (fun j => decide (k < j)) with
  | some j => j
  | none => cs.head?.getD k

/-- Rate detection stands at a candidate that may be tried. -/
def rdTries (n : Node) (c : Nat) : Bool := (rdCands n c).contains (canOf n c).rdCand

/-- The controller receives: ACTIVE, PASSIVE, or rate detection at a candidate. -/
def receives (n : Node) (c : Nat) : Bool :=
  match (canOf n c).state with
  | .active | .passive => true
  | .searching => rdTries n c
  | _ => false

/-- Rate detection moves on (13 R302), where there is a candidate to try. -/
def rdMove (n : Node) (c : Nat) : Node :=
  let k := nextCand n c
  if rdCands n c = [] then n
  else modCan n c (fun x => { x with rdCand := k, rdFrames := 0, rdSince := n.now, rdSwitches := sat 65535 (x.rdSwitches + 1) })

/-- A configuration takes effect (13 R301): buffers end CFG, counters to 0, integration under the new values. Node messages stay
queued where the node layer goes on (14 R324). Under TRX_FLT the controller is off the bus as in BUS_OFF (R297). -/
def configure (n : Node) (c : Nat) : Node :=
  let rx := receives n c
  let n := endAllBufs n c 6
  let m := cfgMode n c
  let first := (rdCands n c).head?.getD 0
  modCan n c (fun x =>
    let st : CanState := if m = 0 then .off else if x.trxFlt then .busOff else if m = 4 then .searching else .integrating
    { x with
      mode := m, state := st, tec := if st = .busOff then 256 else 0, rec_ := 0, cfgPend := false, wasRx := rx,
      nodeQ := if m = 1 ∧ fdoe n c then x.nodeQ else [], since := n.now, ackRun := 0, rdSince := n.now, rdLocked := false,
      rdCand := if m = 4 then first else x.rdCand, rdFrames := 0, rdSwitches := if m = 4 then 0 else x.rdSwitches })

/-- A configuration write: a frame in transmission ends first (13 R301). -/
def reconfigure (n : Node) (c : Nat) : Node :=
  let x := canOf n c
  if canSends x && (intxBuf x).isSome then modCan n c (fun x => { x with cfgPend := true }) else configure n c

/-- A transmission has ended, or none began: a configuration that waited takes effect, or the engine loads. -/
def afterTx (n : Node) (c : Nat) : Node :=
  let x := canOf n c
  if x.cfgPend && x.mode == 1 && (intxBuf x).isNone then configure n c else loadBufs n c

/-- Every controller starts in its configured mode: at entry to STANDBY (13 R320). -/
def startCans (n : Node) : Node :=
  (List.range 24).foldl (fun n c => if cfgMode n c = 0 then n else reconfigure n c) n

/-- ALONE (13 R316): cleared by a frame sent with an acknowledgement or received. -/
def clearAlone (x : CanCtl) : CanCtl := { x with alone := false, ackRun := 0 }

/-- Entry to BUS_OFF (13 R313): loaded buffers end BUSOFF, node messages are dropped, the host queue stays. -/
def enterBusOff (n : Node) (c : Nat) : Node :=
  let n := modCan n c (fun x => { x with state := .busOff, tec := 256, nodeQ := [], busoffs := sat 255 (x.busoffs + 1) })
  let n := endAllBufs n c 5
  let n := note n (recComm n 1 c 0)
  raiseB n (canPage c) 8

/-- Fault confinement by the counters (13 R312), in NORMAL and on the bus. -/
def confine (n : Node) (c : Nat) : Node :=
  let x := canOf n c
  if x.mode ≠ 1 ∨ (x.state ≠ .active ∧ x.state ≠ .passive) then n
  else if 255 < x.tec then enterBusOff n c
  else if 128 ≤ x.tec ∨ 128 ≤ x.rec_ then
    if x.state = .active then raiseB (modCan n c (fun x => { x with state := .passive })) (canPage c) 7 else n
  else modCan n c (fun x => { x with state := .active })

/-! Receive path -/

/-- An acceptance word for a frame that began at sof: a write counts from the end of its command on (13 R301). -/
def fltReg (n : Node) (c o sof : Nat) : Word :=
  match (canOf n c).fltOld.find? (fun e => e.1 == o && (match e.2.2 with | some t => decide (sof ≤ t) | none => true)) with
  | some e => e.2.1
  | none => canReg n c o

/-- The first entry that matches a frame: its number and TGT (13 R304). -/
def matchEntry (n : Node) (c sof : Nat) (f : CanFrame) : Option (Nat × Nat) :=
  ((List.range 64).find? (fun e =>
    let id := fltReg n c (0x400 + 8 * e) sof
    let mk := fltReg n c (0x404 + 8 * e) sof
    bit mk 31 && (bit id 29 == f.ide) && decide (f.id &&& fld mk 28 0 = fld id 28 0 &&& fld mk 28 0))).map
    (fun e => (e, fld (fltReg n c (0x404 + 8 * e) sof) 30 29))

/-- An acceptance word takes a value: the former one stays for frames that begin before its command ends. -/
def keepFilter (n : Node) (key : Nat) (old : Word) : Node :=
  let p := key % 1048576 / 4096
  let o := key % 4096
  if 0x40 ≤ p ∧ p < 0x58 ∧ 0x400 ≤ o then
    modCan n (p - 0x40) (fun x => { x with
      fltOld := x.fltOld.filter (fun e => match e.2.2 with | some t => decide (n.now < t + 1000000000) | none => true) ++ [(o, old, none)] })
  else n

/-- The command on a CAN page ends. -/
def endFilter (n : Node) (p : Nat) : Node :=
  if 0x40 ≤ p ∧ p < 0x58 then
    modCan n (p - 0x40) (fun x => { x with fltOld := x.fltOld.map (fun e => (e.1, e.2.1, some (e.2.2.getD n.now))) })
  else n

/-- A frame stored, or discarded and counted where its FIFO is full (13 R305). -/
def storeFrame (n : Node) (c fifo : Nat) (r : RxFrame) : Node :=
  let x := canOf n c
  match fifo with
  | 0 =>
    if x.fifoA.length < 64 then raise (modCan n c (fun x => { x with fifoA := x.fifoA ++ [r] })) (canPage c) 0
    else raise (modCan n c (fun x => { x with ovfA := sat 255 (x.ovfA + 1) })) (canPage c) 2
  | 1 =>
    if x.fifoB.length < 64 then raise (modCan n c (fun x => { x with fifoB := x.fifoB ++ [r] })) (canPage c) 1
    else raise (modCan n c (fun x => { x with ovfB := sat 255 (x.ovfB + 1) })) (canPage c) 3
  | 2 =>
    if x.hpb.length < 4 then modCan n c (fun x => { x with hpb := x.hpb ++ [r] })
    else raise (modCan n c (fun x => { x with ovfH := sat 255 (x.ovfH + 1) })) (canPage c) 6
  | _ => n

/-- Timing of a rate code (13 Table 13.2): CAN_NBT, and CAN_DBT with CAN_TDC for a data rate. -/
def nbtOf (nr : Nat) : Word := match nr with | 0 => 0x07450A0A | 1 => 0x03450A0A | 2 => 0x01450A0A | _ => 0x00450A0A
def dbtOf (dr : Nat) : Option (Word × Word) :=
  match dr with
  | 1 => some (0x030E0505, 0)
  | 2 => some (0x010E0505, 0x8000001E)
  | 3 => some (0x000E0505, 0x8000000F)
  | 4 => some (0x000B0404, 0x8000000C)
  | _ => none

/-- A write of CAN_CFG has been accepted and waits for its take-up: it ends the search (13 R303). -/
def cfgWaits (n : Node) (c : Nat) : Bool := (cmdOf n (canPage c)).any (fun x => x.off % 4096 == 0x40 && x.result.isNone)

/-- The lock of rate detection (13 R303). -/
def rdLock (n : Node) (c : Nat) : Node :=
  let k := (canOf n c).rdCand
  let w := canReg n c (0xA0 + 4 * k)
  let n := writeByNode n (at_ (canPage c) 0x44) (nbtOf (fld w 1 0)) oCan
  let n := match dbtOf (fld w 10 8) with
    | some (d, t) => writeByNode (writeByNode n (at_ (canPage c) 0x48) d oCan) (at_ (canPage c) 0x4C) t oCan
    | none => n
  let cfg := canReg n c 0x40
  let m := if bit cfg 28 then 1 else 3
  let n := writeByNode n (at_ (canPage c) 0x40) (cfg - BitVec.ofNat 32 (fld cfg 3 0) + BitVec.ofNat 32 m) oCan
  let n := loadBufs (modCan n c (fun x => { x with rdLocked := true, mode := m, state := .active, cfgPend := false })) c
  let n := note n (recComm n 7 c (BitVec.ofNat 32 k))
  raiseB n (canPage c) 12

/-- A frame on the node message layer (14 Tables 14.1, 14.2): type listed and long enough. -/
def layerType (f : CanFrame) : Bool :=
  let typ := f.id / 262144 % 256
  let need := match typ with
    | 0x01 => 8 | 0x02 => 12 | 0x10 => 16 | 0x20 => 16 | 0x21 => 8 | 0x22 => 8 | 0x30 => 24 | 0x40 => 8 | 0x41 => 8
    | _ => 1000
  f.ide && f.fdf && decide (need ≤ f.data.length) && decide (f.id / 1024 % 256 < 254)

/-- The address node messages go under: in a pair that of the position-A module, which position B learns from the state
exchanged after a heartbeat, and until then takes to be its own (14 R324; log entry 24). -/
def msgAddr (n : Node) : Nat :=
  if posA n then nodeAddr n else n.duplex.addrA.getD (nodeAddr n)

/-- A received node message under this module's own address (14 R327): ADDR_DUP, at most once per 10 s. -/
def addrDup (n : Node) (c : Nat) (id : Word) : Node :=
  let due : Bool := match n.net.dupAt with | some t => decide (t + 10000000000 ≤ n.now) | none => true
  if holder n && due then note { n with net := { n.net with dupAt := some n.now } } (recComm n 10 c id) else n

/-- A received frame goes where the first matching entry says (13 R304), and a copy to the engine (R307). -/
def storeReceived (n : Node) (c sof : Nat) (f : CanFrame) : Node :=
  let r : RxFrame := { frame := f, entry := 255, ts := tsAt n sof }
  let n := match matchEntry n c sof f with
    | some (e, tgt) => storeFrame n c tgt { r with entry := e }
    | none => if bit (canReg n c 0x40) 9 then storeFrame n c 1 r else n
  if nodeLayer n c && layerType f && decide (f.id / 1024 % 256 = msgAddr n) then addrDup n c (idWord true f.id) else n

/-- A frame that began before the controller's configuration write, and ends within the 10 ms of it: it is received to its end
(13 R301). -/
def tailFrame (n : Node) (c sof : Nat) : Bool :=
  let x := canOf n c
  x.wasRx && decide (sof < x.since) && decide (n.now ≤ x.since + 10000000)

/-- A correctly received frame (13 R302, R304, R307, R316); a transmission under way has lost its arbitration to it. -/
def canReceive (n : Node) (c sof : Nat) (f : CanFrame) : Node :=
  let x := canOf n c
  if tailFrame n c sof then
    storeReceived (modCan n c (fun x => clearAlone { x with cntRx := x.cntRx + 1, wasRx := false })) c sof f
  else if !receives n c then n
  else
    let n := loseArb n c none
    let n := modCan n c (fun x => clearAlone { x with
      cntRx := x.cntRx + 1,
      rec_ := if x.mode = 1 then (if 127 < x.rec_ then 119 + (Config.openValue n.free).toNat % 9 else x.rec_ - 1) else x.rec_ })
    let n := if x.mode = 1 ∧ 127 < x.rec_ then drawn n else n
    let n := confine n c
    let n := if x.state = .searching then
        let n := modCan n c (fun x => { x with rdFrames := x.rdFrames + 1, rdSince := n.now })
        if 3 ≤ (canOf n c).rdFrames ∧ !cfgWaits n c then rdLock n c else n
      else n
    afterTx (storeReceived n c sof f) c

/-! Transmit path -/

/-- The staging window as a host message (13 R308). -/
def stagedMsg (n : Node) (c : Nat) : HostMsg :=
  let i := canReg n c 0x280
  let w := canReg n c 0x284
  let fdf := bit w 15
  let dlc := fld w 11 8
  let bytes := (List.range 16).flatMap (fun k => bytesLE 4 (canReg n c (0x290 + 4 * k)).toNat)
  let len := if bit w 12 then 0 else dlcLen fdf dlc
  { frame := { ide := bit i 29, id := fld i 28 0, fdf := fdf, brs := bit w 14, esi := false, rtr := bit w 12, dlc := dlc, data := bytes.take len },
    tag := fld (canReg n c 0x288) 15 0 }

/-- The push is taken (13 R308). -/
def pushOk (n : Node) (c : Nat) : Bool :=
  let m := (stagedMsg n c).frame
  decide (outstanding (canOf n c) < 32) && (canOf n c).mode == 1 && (!m.fdf || fdoe n c) && !(m.rtr && m.fdf) &&
  (m.ide || decide (m.id < 2048))

/-- CAN_TX_PUSH: queued, or discarded and counted. -/
def canPush (n : Node) (c : Nat) : Node :=
  if pushOk n c then loadBufs (modCan n c (fun x => { x with hostQ := x.hostQ ++ [stagedMsg n c] })) c
  else raise (modCan n c (fun x => { x with rejs := sat 255 (x.rejs + 1) })) (canPage c) 5

/-- A frame sent and acknowledged by the buffer in transmission (13 R310, R312, R316); a SYNC keeps the node time captured at its
start of frame (R318). -/
def txDone (n : Node) (c b sof : Nat) : Node :=
  match if mayTx n c (canOf n c) b then getBuf (canOf n c) b else none with
  | none => n
  | some t =>
    let n := loseArb n c (some b)
    let n := modCan n c (fun x => clearAlone { putBuf x b none with
      lastDone := b, cntTx := x.cntTx + 1, tec := if x.mode = 1 then x.tec - 1 else x.tec })
    let n := match t.body with
      | .host m _ => complete n c m t.attempts 1 (tsAt n sof)
      | .node m => if m.typ = 1 then modTb n (fun z => { z with sent := tset none z.sent c (some (m.sub, some (taiPast n sof))) }) else n
    afterTx (confine n c) c

/-- A failed attempt of a buffer (13 R310): at its limit it ends NOACK or ERROR; taken by a FLUSH, ABORTED. -/
def failAttempt (n : Node) (c b code : Nat) : Node :=
  match getBuf (canOf n c) b with
  | none => n
  | some t =>
    let k := t.attempts + 1
    let n := modCan n c (fun x => putBuf x b (some { t with attempts := k, intx := false }))
    let limit := match t.body with | .host _ r => r | .node m => m.retry
    if t.flushed then endBuf n c b 4 0
    else if limit < 16 ∧ limit + 1 ≤ k then endBuf n c b (if code = 3 then 2 else 3) 0
    else n

/-- Sixteen acknowledge errors in a row (13 R316). -/
def countAck (n : Node) (c code : Nat) : Node :=
  let n := modCan n c (fun x => { x with ackRun := if code = 3 then x.ackRun + 1 else 0 })
  let x := canOf n c
  if 16 ≤ x.ackRun ∧ x.alone = false then
    let n := modCan n c (fun x => { x with alone := true })
    raiseB (note n (recComm n 3 c 0)) (canPage c) 10
  else n

/-- A collision error (13 R317): the second on one identifier within 1 s sets IDCOLL. -/
def collide (n : Node) (c b : Nat) : Node :=
  match getBuf (canOf n c) b with
  | none => n
  | some t =>
    let f := bufFrame n c t
    let w := idWord f.ide f.id
    let x := canOf n c
    let recent := x.colls.filter (fun e => decide (n.now ≤ e.2 + 1000000000))
    let twice := recent.any (fun e => e.1 == w)
    let n := modCan n c (fun x => { x with colls := (w, n.now) :: recent.filter (fun e => e.1 != w) })
    if twice && !x.idcoll then
      let n := modCan n c (fun x => { x with idcoll := true, collId := some w })
      raiseB (note n (recComm n 4 c w)) (canPage c) 11
    else n

/-- What an error adds to TEC of a transmitter (ISO 11898-1, 13 R312, R316; PRESUMED, log entry 62): 8, but nothing for an
acknowledge error of an error-passive transmitter whose passive flag meets no dominant bit, nor for a stuff error during
arbitration at a recessive stuff bit; and 8 for each run of dominant bits after its flag. -/
def tecUp (passive : Bool) (e : CanErr) : Nat :=
  (if (e.quiet && passive && e.code == 3) || (e.stuffArb && e.code == 1) then 0 else 8) + 8 * e.domRuns

/-- What an error adds to REC of a receiver (ISO 11898-1; PRESUMED, log entry 62): 1, and 8 where the first bit after its flag is
dominant; 8 alone for a bit error in its own flag; and 8 for each run of dominant bits after its flag. -/
def recUp (e : CanErr) : Nat := (if e.flagBit then 8 else 1 + (if e.domFirst then 8 else 0)) + 8 * e.domRuns

/-- A detected error (13 R302, R310, R312, R314, R316, R317); a receiver's ends what it had in transmission, which has lost its
arbitration. In RESTRICTED the controller integrates again (R300). -/
def canErr (n : Node) (c : Nat) (e : CanErr) : Node :=
  let x := canOf n c
  if !receives n c then n
  else
    let tx := e.buf.filter (mayTx n c x)
    let n := loseArb n c tx
    let n := modCan n c (fun x => { x with
      errs := sat 65535 (x.errs + 1), lec := e.code, lecData := e.dataPhase,
      tec := if x.mode = 1 ∧ tx.isSome then x.tec + tecUp (decide (x.state = .passive)) e else x.tec,
      rec_ := if x.mode = 1 ∧ tx = none then sat 255 (x.rec_ + recUp e) else x.rec_,
      state := if x.mode = 2 then .integrating else x.state })
    let n := if x.state = .searching then rdMove n c else n
    let n := match tx with
      | none => n
      | some b =>
        let n := if e.collision && (e.code == 4 || e.code == 5) then collide n c b else n
        failAttempt (countAck n c e.code) c b e.code
    afterTx (confine n c) c

/-- A frame on the bus; with FDOE = 0 an FD frame is a form error (13 R315). -/
def takeFrame (n : Node) (c sof : Nat) (f : CanFrame) : Node :=
  if f.fdf && !fdoe n c && !tailFrame n c sof then canErr n c { code := 2 } else canReceive n c sof f

/-- RD_DWELL_TIMEOUT (13 R302): RD_DWELL x 10 ms without a counted frame. -/
def rdDwell (n : Node) (c : Nat) : Node :=
  if (canOf n c).state = .searching ∧ (canOf n c).rdSince + fld (canReg n c 0x40) 23 16 * 10000000 ≤ n.now then rdMove n c else n

/-- A recessive res bit in a frame being received (13 R315): the controller leaves reception and integrates again; in rate detection
it goes to the next candidate. -/
def canPxe (n : Node) (c : Nat) : Node :=
  if !receives n c || !fdoe n c then n
  else
    let search := decide ((canOf n c).state = .searching)
    let n := modCan (loseArb n c none) c (fun x => { x with pxe := sat 255 (x.pxe + 1) })
    if search then rdMove n c else afterTx (modCan n c (fun x => { x with state := .integrating })) c

/-- CAN_RECOVERY_DONE (13 R313): no recessive bit is seen while TRX_FLT stands (R297). -/
def recoveryDone (n : Node) (c : Nat) : Node :=
  if (canOf n c).state = .recovering ∧ !(canOf n c).trxFlt then
    let n := modCan n c (fun x => { x with state := if x.mode = 4 then .searching else .active, rdSince := n.now, tec := 0, rec_ := 0 })
    let n := raiseB (note n (recComm n 2 c 0)) (canPage c) 9
    loadBufs n c
  else n

/-- CAN_INTEGRATION_DONE (13 R300, R301, R315): 11 recessive bits have been seen, and the state follows from the counters
again. -/
def integrationDone (n : Node) (c : Nat) : Node :=
  if (canOf n c).state = .integrating then
    loadBufs (modCan n c (fun x => { x with
      wasRx := false, state := if x.mode = 1 ∧ (128 ≤ x.tec ∨ 128 ≤ x.rec_) then .passive else .active })) c
  else n

/-- TXD_TIMEOUT (13 R296, R323). -/
def txdTimeout (n : Node) (c : Nat) : Node :=
  let was := (canOf n c).txdTmo
  let n := modCan n c (fun x => { x with txdTmo := true })
  raiseB (noteIf (!was) n (recComm n 5 c 0)) (canPage c) 13

/-- TRX_FAULT (13 R297): the group's controllers leave the bus as in bus-off. -/
def trxFault (n : Node) (g : Nat) : Node :=
  [4 * g, 4 * g + 1, 4 * g + 2, 4 * g + 3].foldl (fun n c =>
    if (canOf n c).trxFlt then n
    else
      let n := modCan n c (fun x => { x with trxFlt := true })
      let n := if (canOf n c).state = .off ∨ (canOf n c).state = .busOff then n else enterBusOff n c
      raiseB (note n (recComm n 6 c 0)) (canPage c) 14) n

/-- TRX_FLT_CLEAR (13 R297). -/
def trxClear (n : Node) (g : Nat) : Node :=
  [4 * g, 4 * g + 1, 4 * g + 2, 4 * g + 3].foldl (fun n c => modCan n c (fun x => { x with trxFlt := false })) n

/-- POP of a FIFO (13 R305). -/
def canPop (n : Node) (c fifo : Nat) : Node :=
  modCan n c (fun x =>
    if fifo = 0 then { x with fifoA := x.fifoA.tail }
    else if fifo = 1 then { x with fifoB := x.fifoB.tail }
    else if fifo = 2 then { x with hpb := x.hpb.tail } else x)

/-! CAN_CTRL (13 R311) -/

/-- FLUSH: the host queue and every host buffer not in transmission end ABORTED; one in transmission completes its attempt. -/
def flush (n : Node) (c : Nat) (intx : Option Nat) : Node :=
  let n := if intx.isSome then loseArb n c intx else n
  let n := (List.range 3).foldl (fun n b =>
    if isHostBuf (getBuf (canOf n c) b) then
      if intx = some b then
        modCan n c (fun x => putBuf x b ((getBuf x b).map (fun t => { t with intx := true, flushed := true })))
      else endBuf n c b 4 0
    else n) n
  let q := (canOf n c).hostQ
  let n := modCan n c (fun x => { x with hostQ := [] })
  loadBufs (q.foldl (fun n m => complete n c m m.attempts 4 0) n) c

/-- CLEAR. -/
def canClear (x : CanCtl) : CanCtl :=
  { x with ovfA := 0, ovfB := 0, ovfH := 0, rejs := 0, errs := 0, pxe := 0, busoffs := 0, cntRx := 0, cntTx := 0,
           idcoll := false, txdTmo := false, collId := none }

/-- The check of a CAN_CTRL write: OP, any state but INIT, no session, RETRY in range. -/
def canCtrlCheck (n : Node) (v : Word) : CmdCheck :=
  { code := decide (fld v 15 12 ≤ 3), state := decide (n.nodeSt.state ≠ .init),
    value := decide (fld v 4 0 ≤ 15) || fld v 4 0 == 31 }

/-- Take-up of CAN_CTRL: a command that ends FAILED leaves TXPRIO and RETRY; a record for OP other than NONE (13 R323). -/
def canCtrlEff (c : Nat) (v : Word) (intx : Option Nat) (n : Node) : Node × Option Bool :=
  let op := fld v 15 12
  let n := noteIf (decide (op ≠ 0)) n (recComm n 8 c v)
  let x := canOf n c
  if op = 1 ∧ x.state ≠ .busOff then (n, some false)
  else
    let n := modCan n c (fun x => { x with txprio := bit v 8, retry := fld v 4 0 })
    match op with
    | 1 => (modCan n c (fun x => { x with state := .recovering }), some true)
    | 2 => (flush n c intx, some true)
    | 3 => (modCan n c canClear, some true)
    | _ => (n, some true)

/-- The word of CAN_CTRL. -/
def canCtrlWord (op : Nat) (txprio : Bool) (retry : Nat) : Word := pack [(op, 12, 4), (b2n txprio, 8, 1), (retry, 0, 5)]

/-- A write of CAN_CTRL on a path. -/
def canCtrlWrite (n : Node) (path c : Nat) (v : Word) (intx : Option Nat) : Node :=
  runCommand n path (canPage c) (at_ (canPage c) 0x50) v (canCtrlCheck n v) (canCtrlEff c v intx)

/-- By a register write, where the row does not tell which buffer is in transmission. -/
def canCtrlPlain (n : Node) (path c : Nat) (v : Word) : Node := canCtrlWrite n path c v (intxBuf (canOf n c))

/-! Meanings -/

/-- A row about a controller that exists. -/
def onCan (s : State) (t c : Nat) (f : Node → Node) : State := onNode s t (fun n => if c < 24 then f n else n)

def execCanFrameReceived (t ctrl sof : Nat) (f : CanFrame) (s : State) : Host.Outcome State Fault Refusal :=
  .next (onCan s t ctrl (fun n => takeFrame n ctrl sof f))

def execRdDwellTimeout (t ctrl : Nat) (s : State) : Host.Outcome State Fault Refusal :=
  .next (onCan s t ctrl (fun n => rdDwell n ctrl))

def execCanError (t ctrl : Nat) (e : CanErr) (s : State) : Host.Outcome State Fault Refusal :=
  .next (onCan s t ctrl (fun n => canErr n ctrl e))
def execCanProtocolException (t ctrl : Nat) (s : State) : Host.Outcome State Fault Refusal :=
  .next (onCan s t ctrl (fun n => canPxe n ctrl))
def execCanTxComplete (t ctrl buf sof : Nat) (s : State) : Host.Outcome State Fault Refusal :=
  .next (onCan s t ctrl (fun n => txDone n ctrl buf sof))
def execCanRecoveryDone (t ctrl : Nat) (s : State) : Host.Outcome State Fault Refusal :=
  .next (onCan s t ctrl (fun n => recoveryDone n ctrl))
def execCanIntegrationDone (t ctrl : Nat) (s : State) : Host.Outcome State Fault Refusal :=
  .next (onCan s t ctrl (fun n => integrationDone n ctrl))
def execTxdTimeout (t ctrl : Nat) (s : State) : Host.Outcome State Fault Refusal :=
  .next (onCan s t ctrl (fun n => txdTimeout n ctrl))
def execTrxFault (t group : Nat) (s : State) : Host.Outcome State Fault Refusal :=
  .next (onNode s t (fun n => if group < 6 then trxFault n group else n))
def execTrxFltClear (t group : Nat) (s : State) : Host.Outcome State Fault Refusal :=
  .next (onNode s t (fun n => if group < 6 then trxClear n group else n))

/-- A write of a WO register that is no command: discarded on a locked page (02 R42). -/
def unlocked (n : Node) (path p : Nat) (f : Node → Node) : Node :=
  if (headerOf n p).locked then lockedWrite n path p else f n

def execCanTxPush (t ctrl : Nat) (_ : Word) (s : State) : Host.Outcome State Fault Refusal :=
  .next (onCan s t ctrl (fun n => unlocked n hostPath (canPage ctrl) (fun n => canPush n ctrl)))

/-- The high-priority vector that sends again after a POP, unless the page is locked and the POP discarded (02 R42). -/
def popAgain (n : Node) (c : Nat) : List Nat := if (headerOf n (canPage c)).locked then [] else [40 + c]

/-- CAN_RX_POP: a POP of the high-priority buffer that leaves a frame sends its vector again (13 R306). -/
def execCanRxPop (t ctrl fifo : Nat) (s : State) : Host.Outcome State Fault Refusal :=
  let n := begin_ s.node t
  let n := if ctrl < 24 then unlocked n hostPath (canPage ctrl) (fun n => canPop n ctrl fifo) else n
  .next { s with node := settleWith (if fifo = 2 then popAgain s.node ctrl else []) n }

def execCanTxcPop (t ctrl : Nat) (s : State) : Host.Outcome State Fault Refusal :=
  .next (onCan s t ctrl (fun n => unlocked n hostPath (canPage ctrl) (fun n => modCan n ctrl (fun x => { x with txc := x.txc.tail }))))

def execCanCtrlNone (t ctrl : Nat) (txprio : Bool) (retry : Nat) (s : State) : Host.Outcome State Fault Refusal :=
  .next (onCan s t ctrl (fun n => canCtrlWrite n hostPath ctrl (canCtrlWord 0 txprio retry) none))
def execCanRecover (t ctrl : Nat) (txprio : Bool) (retry : Nat) (s : State) : Host.Outcome State Fault Refusal :=
  .next (onCan s t ctrl (fun n => canCtrlWrite n hostPath ctrl (canCtrlWord 1 txprio retry) none))
def execCanFlush (t ctrl : Nat) (txprio : Bool) (retry : Nat) (intx : Option Nat) (s : State) :
    Host.Outcome State Fault Refusal :=
  .next (onCan s t ctrl (fun n => canCtrlWrite n hostPath ctrl (canCtrlWord 2 txprio retry) intx))
def execCanClear (t ctrl : Nat) (txprio : Bool) (retry : Nat) (s : State) : Host.Outcome State Fault Refusal :=
  .next (onCan s t ctrl (fun n => canCtrlWrite n hostPath ctrl (canCtrlWord 3 txprio retry) none))

end Sys2Proof.Machine
end

