-- ==== Sys2Proof/Machine/Thermo.lean ====
section
/-! DEFINITION. The thermocouple reference functions of IEC 60584-1 (05 R110). The spec names the standard and does not
print its coefficients; PRESUMED (log entry 5): they are those of the ITS-90 functions that the standard adopts. -/

namespace Sys2Proof.Machine

/-- A polynomial in degree C whose coefficients are c * 10^-e mV, at tau m degree C: fV. -/
def tcPoly (cs : List (Int × Nat)) (tau : Int) : Int :=
  divRound ((cs.foldl (fun (r : Int × Nat × Int) c =>
    (r.1 + c.1 * r.2.2 * 10 ^ (112 - c.2 - 3 * r.2.1), r.2.1 + 1, r.2.2 * tau)) (0, 0, 1)).1) (10 ^ 100)

/-- exp(-x) of a number of 30 decimals, to 24 decimals at the least: a series on x / 1024, squared ten times. -/
def expNeg (x : Int) : Int :=
  let s : Int := 10 ^ 30
  if 60 * s < x then 0
  else
    let y := x / 1024
    let e := (List.range 12).foldr (fun (k : Nat) (acc : Int) => s - y * acc / (s * ((k : Int) + 1))) s
    (List.range 10).foldl (fun (e : Int) _ => e * e / s) e

/-- The exponential term of type K above 0 degree C: 0.1185976 exp(-0.000118343200 (T - 126.9686)^2) mV. -/
def tcExpK (tau : Int) : Int :=
  let d := 10 * tau - 1269686
  divRound (118597600000 * expNeg (1183432 * d * d * 10 ^ 12)) (10 ^ 30)

def tcTypeB (tau : Int) : Int :=
  if tau ≤ 630615 then
    tcPoly [(0, 0), (-246508183460, 15), (590404211710, 17), (-132579316360, 20), (156682919010, 23),
      (-169445292400, 26), (629903470940, 30)] tau
  else
    tcPoly [(-389381686210, 11), (285717474700, 13), (-848851047850, 16), (157852801640, 18), (-168353448640, 21),
      (111097940130, 24), (-445154310330, 28), (989756408210, 32), (-937913302890, 36)] tau

def tcTypeE (tau : Int) : Int :=
  if tau < 0 then
    tcPoly [(0, 0), (586655087080, 13), (454109771240, 16), (-779980486860, 18), (-258001608430, 19),
      (-594525830570, 21), (-932140586670, 23), (-102876055340, 24), (-803701236210, 27), (-439794973910, 29),
      (-164147763550, 31), (-396736195160, 34), (-558273287210, 37), (-346578420130, 40)] tau
  else
    tcPoly [(0, 0), (586655087100, 13), (450322755820, 16), (289084072120, 19), (-330568966520, 21),
      (650244032700, 24), (-191974955040, 27), (-125366004970, 29), (214892175690, 32), (-143880417820, 35),
      (359608994810, 39)] tau

def tcTypeJ (tau : Int) : Int :=
  if tau ≤ 760000 then
    tcPoly [(0, 0), (503811878150, 13), (304758369300, 16), (-856810657200, 19), (132281952950, 21),
      (-170529583370, 24), (209480906970, 27), (-125383953360, 30), (156317256970, 34)] tau
  else
    tcPoly [(296456256810, 9), (-149761277860, 11), (317871039240, 14), (-318476867010, 17), (157208190040, 20),
      (-306913690560, 24)] tau

def tcTypeK (tau : Int) : Int :=
  if tau < 0 then
    tcPoly [(0, 0), (394501280250, 13), (236223735980, 16), (-328589067840, 18), (-499048287770, 20),
      (-675090591730, 22), (-574103274280, 24), (-310888728940, 26), (-104516093650, 28), (-198892668780, 31),
      (-163226974860, 34)] tau
  else
    tcPoly [(-176004136860, 13), (389212049750, 13), (185587700320, 16), (-994575928740, 19), (318409457190, 21),
      (-560728448890, 24), (560750590590, 27), (-320207200030, 30), (971511471520, 34), (-121047212750, 37)] tau +
    tcExpK tau

def tcTypeN (tau : Int) : Int :=
  if tau < 0 then
    tcPoly [(0, 0), (261591059620, 13), (109574842280, 16), (-938411115540, 19), (-464120397590, 22),
      (-263033577160, 23), (-226534380030, 25), (-760893007910, 28), (-934196678350, 31)] tau
  else
    tcPoly [(0, 0), (259293946010, 13), (157101418800, 16), (438256272370, 19), (-252611697940, 21),
      (643118193390, 24), (-100634715190, 26), (997453389920, 30), (-608632456070, 33), (208492293390, 36),
      (-306821961510, 40)] tau

def tcTypeR (tau : Int) : Int :=
  if tau < 1064180 then
    tcPoly [(0, 0), (528961729765, 14), (139166589782, 16), (-238855693017, 19), (356916001063, 22),
      (-462347666298, 25), (500777441034, 28), (-373105886191, 31), (157716482367, 34), (-281038625251, 38)] tau
  else if tau < 1664500 then
    tcPoly [(295157925316, 11), (-252061251332, 14), (159564501865, 16), (-764085947576, 20), (205305291024, 23),
      (-293359668173, 27)] tau
  else
    tcPoly [(152232118209, 9), (-268819888545, 12), (171280280471, 15), (-345895706453, 19), (-934633971046, 26)] tau

def tcTypeS (tau : Int) : Int :=
  if tau < 1064180 then
    tcPoly [(0, 0), (540313308631, 14), (125934289740, 16), (-232477968689, 19), (322028823036, 22),
      (-331465196389, 25), (255744251786, 28), (-125068871393, 31), (271443176145, 35)] tau
  else if tau < 1664500 then
    tcPoly [(132900444085, 11), (334509311344, 14), (654805192818, 17), (-164856259209, 20), (129989605174, 25)] tau
  else
    tcPoly [(146628232636, 9), (-258430516752, 12), (163693574641, 15), (-330439046987, 19), (-943223690612, 26)] tau

def tcTypeT (tau : Int) : Int :=
  if tau < 0 then
    tcPoly [(0, 0), (387481063640, 13), (441944343470, 16), (118443231050, 18), (200329735540, 19),
      (901380195590, 21), (226511565930, 22), (360711542050, 24), (384939398830, 26), (282135219250, 28),
      (142515947790, 30), (487686622860, 33), (107955392700, 35), (139450270620, 38), (797951539270, 42)] tau
  else
    tcPoly [(0, 0), (387481063640, 13), (332922278800, 16), (206182434040, 18), (-218822568460, 20),
      (109968809280, 22), (-308157587720, 25), (454791352900, 28), (-275129016730, 31)] tau

/-- The range over which the standard defines the function of a type, m degree C. -/
def tcRange (sensor : Nat) : Int × Int :=
  match sensor with
  | 0 => (-270000, 1372000)
  | 1 => (-210000, 1200000)
  | 2 => (-270000, 1300000)
  | 3 => (-270000, 1000000)
  | 4 => (-270000, 400000)
  | 7 => (0, 1820000)
  | _ => (-50000, 1768100)

/-- E of a type (CHN_MODE.SENSOR) at tau m degree C, fV (05 R110). -/
def tcEmf (sensor : Nat) (tau : Int) : Int :=
  let r := tcRange sensor
  if tau < r.1 ∨ r.2 < tau then Config.tcOutside sensor tau
  else
    match sensor with
    | 0 => tcTypeK tau
    | 1 => tcTypeJ tau
    | 2 => tcTypeN tau
    | 3 => tcTypeE tau
    | 4 => tcTypeT tau
    | 5 => tcTypeR tau
    | 6 => tcTypeS tau
    | _ => tcTypeB tau

end Sys2Proof.Machine
end

