-- ==== Sys2Proof/Machine/Channels.lean ====
section
/-! DEFINITION. Ranks and channels: samples, filters and delays, scaling, status, settling (04, 05), wire breaks,
readback, slots and comparators (07). -/

namespace Sys2Proof.Machine

/-! Which channels there are -/

/-- The channel whose register at offset o of its block lies at a key. -/
def chOfKey (key o : Nat) : Option Nat :=
  let p := key / 4096
  let a := key % 4096
  if 0x10 ≤ p ∧ p < 0x20 ∧ 0x100 + o ≤ a ∧ a < 0x500 ∧ (a - 0x100 - o) % 0x20 = 0 then
    some (32 * (p - 0x10) + (a - 0x100 - o) / 0x20)
  else none

/-- Channels whose mode is not OFF, ascending. -/
def activeChs (n : Node) : List Nat :=
  n.regs.filterMap (fun e => if fld e.2 3 0 = 0 then none else chOfKey e.1 0)

/-- Channels in OFF whose filter is not the factory's, ascending. -/
def offChs (n : Node) : List Nat :=
  n.regs.filterMap (fun e => (chOfKey e.1 0x14).bind (fun c => if chnSel n c = 0 then some c else none))

def isDi (n : Node) (ch : Nat) : Bool := chnSel n ch == 8 || chnSel n ch == 9
def isAo (n : Node) (ch : Nat) : Bool := chnSel n ch == 2 || chnSel n ch == 3
/-- The mode has a comparator (04 R95, R96). -/
def hasCmp (n : Node) (ch : Nat) : Bool := [1, 4, 5, 8, 9].contains (chnSel n ch)

def rankOfCh (ch : Nat) : Nat := ch / 32
def groupInRank (ch : Nat) : Nat := ch % 32 / 8
def getGroup (r : Rank) (g : Nat) : Group := if g = 0 then r.g0 else if g = 1 then r.g1 else if g = 2 then r.g2 else r.g3
/-- Page of a channel's rank. -/
def rnkPage (ch : Nat) : Nat := 0x10 + ch / 32

/-! Filters and delays (05 R103 to R105) -/

/-- Half-length h of a filter word, ns. -/
def filtHalf (f : Word) : Nat :=
  let per := 2000000 / 2 ^ fld f 2 0
  match fld f 9 8 with
  | 0 => per
  | 1 => 3 * per
  | 2 => 5 * per
  | _ => 50000000

/-- h of a channel: SINC1 at 8000 S/s in DI modes. -/
def chHalf (n : Node) (ch : Nat) : Nat := if isDi n ch then 62500 else filtHalf (chnFilt n ch)

/-- d of a half-length at a period (05 R104). -/
def delayOf (period h : Nat) : Nat := divUp (h - 85000) period

/-- Result delay d of a channel: D in DI modes (05 R105). -/
def chDelay (n : Node) (ch : Nat) : Nat :=
  if isDi n ch then fld (chnFilt n ch) 23 16 else delayOf n.period (filtHalf (chnFilt n ch))

/-- tFE of Table 05.8, ns. -/
def frontSettle (n : Node) (ch : Nat) : Nat :=
  match chnSel n ch with
  | 2 | 3 => 200000
  | 5 => 1000000
  | 6 => 2000000
  | 7 => 10000000
  | _ => 100000

/-! Group supply (06 R136, R137) -/

/-- The level a group's supply regulates to, 10 mV. -/
def groupTarget (g : Group) : Nat := min 2800 (max 600 (g.demand + 150))

/-- What a group supply delivers at most: 5.0 W in 10 nW, the unit of 10 mV x 1 uA (18 R412). -/
def groupLimit : Nat := 500000000

/-- The group rail: the store lifts it to the target until the supply has caught up; a group out of regulation (18 R412)
has what its supply gives, within 5.0 W. -/
def groupRail (g : Group) : Nat :=
  if g.supOk then max g.vsup (groupTarget g) else if g.cur = 0 then g.vsup else min g.vsup (groupLimit / g.cur)

/-- PFLD of a group, and their sum over the powered ranks, 10 nW (18 R412). -/
def groupPower (g : Group) : Nat := groupRail g * g.cur
def fieldPower (n : Node) : Nat :=
  (keys n.ranks).foldl (fun p r =>
    let x := rankOf n r
    if x.powered then p + groupPower x.g0 + groupPower x.g1 + groupPower x.g2 + groupPower x.g3 else p) 0

/-- A reading of PWR_IN.LOOP lies within 3 % and 1 W of the sum (18 Table 18.7), 0.1 W. -/
def loopReading (n : Node) (x : Nat) : Nat :=
  let p := fieldPower n / 10000000
  max (97 * p / 100 - 10) (min (103 * p / 100 + 10) x)

/-- The store is within its limits: 28.5 V or more. -/
def storeOk (g : Group) : Bool := decide (2850 ≤ g.vstore)

/-! Samples at S -/

/-- Nominal bridge excitation, mV (04 Table 04.4). -/
def bridgeExc (n : Node) (ch : Nat) : Int := if chnExc n ch = 2 then 2500 else if chnExc n ch = 3 then 5000 else 10000

/-- The terminals that the window monitor checks, with their limits, mV (04 Table 04.3). The excitation of AI_BRIDGE is taken
at its nominal value, and the group supply of AO_SRC as the rail stands (DEDUCED, log entry 91). -/
def windowTerms (n : Node) (x : ChSample) : List (Int × Int × Int) :=
  let g := getGroup (rankOf n (rankOfCh x.ch)) (groupInRank x.ch)
  match chnSel n x.ch with
  | 1 => if chnWiring n x.ch = 2 then [(x.hi, -12000, 12000), (x.lo, -12000, 12000)] else [(x.hi, -1000, 2000)]
  | 2 => [(x.hi, -500, 10 * (groupRail g : Int) + 500)]
  | 3 => [(x.hi, -500, 33000)]
  | 4 => [(x.hi, -12000, 12000), (x.lo, -12000, 12000)]
  | 5 => let e := bridgeExc n x.ch + 500; [(x.hi, -500, e), (x.sn, -500, e)]
  | 6 => [(x.ex, -500, 4500), (x.hi, -500, 4500), (x.sn, -500, 4500)]
  | 7 => [(x.hi, -1000, 3000), (x.lo, -1000, 3000)]
  | 8 | 9 => [(x.hi, -500, 9000)]
  | _ => []

/-- The window check (04 R90, 07 R157): a fault holds until every terminal lies 0.2 V inside. -/
def windowNext (was : Bool) (ts : List (Int × Int × Int)) : Bool :=
  ts.any (fun t => decide (t.1 < t.2.1 ∨ t.2.2 < t.1)) ||
    (was && !ts.all (fun t => decide (t.2.1 + 200 ≤ t.1 ∧ t.1 ≤ t.2.2 - 200)))

/-- One channel's sample. An AI_TC voltage at or above +79 mV in 10 frames confirms a break (07 R153). -/
def takeCh (n : Node) (x : ChSample) : Node :=
  if 512 ≤ x.ch ∨ chnSel n x.ch = 0 then n
  else
    let was := frontOf n x.ch
    let hot := chnSel n x.ch == 7 && decide (7900000 ≤ x.raw)
    let k := if hot then sat 10 (was.tcHigh + 1) else 0
    let brk := decide (k = 10) && !was.open_
    let ended := decide (k = 0) && decide (was.tcHigh ≠ 0)
    let win := windowNext was.window (windowTerms n x)
    let n := modFront n x.ch (fun f => { f with
      raw := x.raw, rb := x.rb, window := win, unable := x.unable,
      tcHigh := k, tcEnd := if ended then n.now else f.tcEnd, open_ := f.open_ || brk, openAt := if brk then n.now else f.openAt,
      cutOpen := f.open_ || brk, cutExc := f.excLim,
      s0 := f.cmp0, s1 := f.cmp1, s2 := f.cmp2 })
    let n := if isAo n x.ch then modStage n x.ch (fun s => { s with
        vhi := min x.vhi 3600, tj := clampI (-400) 1750 x.tj, rbWas := was.rb, vhiWas := s.vhi, tjWas := s.tj }) else n
    pushStream n x.ch x.stream

/-- One group's measurement, within the ranges of 18 Table 18.7. A group whose demand exceeds 5.0 W leaves regulation, and
returns in the first frame in which its demand allows it (18 R412). -/
def groupNext (g : Group) (x : GroupSample) : Group :=
  { g with vsup := min x.vsup 3000, cur := x.cur, vstore := min x.vstore 3600, vstoreWas := g.vstore,
           supOk := x.supOk && decide (groupTarget g * x.cur ≤ groupLimit), isoOk := x.isoOk, cjMc := x.cjMc, cjFlt := x.cjFlt }

/-- RNK_STAT.GRP_FLT of a group. -/
def grpFlt (g : Group) : Bool := !g.supOk || !storeOk g

/-- RNK_STAT.GRP_FLT and CJ_FLT. -/
def grpFlts (r : Rank) : Nat := packN ((List.range 4).map (fun g => (b2n (grpFlt (getGroup r g)), g, 1)))
def cjFlts (r : Rank) : Nat := packN ((List.range 4).map (fun g => (b2n (getGroup r g).cjFlt, g, 1)))

/-- A bit of b that a lacks. -/
def rises (a b : Nat) : Bool := decide (b &&& a ≠ b)

/-- One rank's own measurement: groups, cold junctions, die temperature (04 Table 04.10). -/
def takeRank (n : Node) (x : RankSample) : Node :=
  let r := rankOf n x.rank
  if 16 ≤ x.rank ∨ r.powered = false then n
  else
    let temp := clampI (-400) 1500 x.temp
    let r' := { r with temp := temp, peak := some (max (r.peak.getD temp) temp),
                       g0 := groupNext r.g0 x.g0, g1 := groupNext r.g1 x.g1, g2 := groupNext r.g2 x.g2, g3 := groupNext r.g3 x.g3 }
    let n := modRank n x.rank (fun _ => r')
    let n := raiseIf (r.ready && rises (grpFlts r) (grpFlts r')) n (0x10 + x.rank) 2
    raiseIf (r.ready && rises (cjFlts r) (cjFlts r')) n (0x10 + x.rank) 3

/-- Every front end as it stands at S, for channels the samples do not list as well. What slots have found enters the status
formed next (07 R156, R158): a slot lies after the cut of its own frame. -/
def cutFronts (n : Node) : Node :=
  { n with
    fronts := tmodAll {} n.fronts (keys n.fronts) (fun _ f =>
      { f with cutOpen := f.open_, cutExc := f.excLim, s0 := f.cmp0, s1 := f.cmp1, s2 := f.cmp2 }),
    diags := tmodAll {} n.diags (keys n.diags) (fun _ d =>
      { d with cutTol := d.excTol, cutRef := d.refFlt, cmpFlt := d.cmpFlt || d.dacFlt }) }

/-- A channel's comparator output (04 R95). -/
def cmpOut (n : Node) (ch : Nat) (f : Front) : Bool :=
  if isDi n ch then f.hiSet else (f.hiSet && bit (chnCmp n ch) 31) || (f.loSet && bit (chnCmp n ch) 30)

/-- The copies take the comparator's output, the faulty ones apart. -/
def setCopies (o : Bool) (f : Front) : Front :=
  { f with cmp0 := if nbit f.follow 0 then o else f.cmp0, cmp1 := if nbit f.follow 1 then o else f.cmp1,
           cmp2 := if nbit f.follow 2 then o else f.cmp2, holdUntil := 0 }

/-- Channels whose off-pulse hold has ended (07 R148). -/
def holdsEnded (n : Node) : List Nat :=
  (keys n.fronts).filter (fun ch => let h := (frontOf n ch).holdUntil; decide (h ≠ 0 ∧ h ≤ n.now))

/-- Their copies follow the comparator again. -/
def endHolds (n : Node) : Node :=
  (holdsEnded n).foldl (fun n ch =>
    let o := cmpOut n ch (frontOf n ch)
    modFront n ch (setCopies o)) n

/-- AO stages at S: COMPLIANCE (06 R138) and THERMAL (06 R139) of the frame. -/
def saturated (n : Node) (ch : Nat) : Bool :=
  let s := stageOf n ch
  let g := getGroup (rankOf n (rankOfCh ch)) (groupInRank ch)
  (frontOf n ch).unable ||
    (if chnSel n ch = 2 then decide (groupRail g < s.vhi + 120) else decide (s.vhi < 100))

def stageAtS (n : Node) (ch : Nat) : Node :=
  let s := stageOf n ch
  let low := decide ((frontOf n ch).rb + 500 < 4 * s.code)
  let comp := saturated n ch && low
  let th := s.limiting || (s.thermal && decide (1400 < s.tj))
  modStage n ch (fun s => { s with compliance := comp, thermal := th })

/-- SAMPLE_INSTANT (01 R21, 03 R77): the frame begins; its number is that of its S on the grid (03 R59). A frame that has
had no RESULT_READY counts as late (11 R256). -/
def sampleInstant (n : Node) (chs : List ChSample) (rks : List RankSample) : Node :=
  let k := (taiNow n + n.period / 2) / n.period
  let n := if n.nodeSt.state = .init ∨ n.laneSt.ready then n else raise { n with late := sat 65535 (n.late + 1) } 2 1
  let n := { n with frame := k, sampleT := k * n.period, sAt := n.now,
                    laneSt := { n.laneSt with
                      msgs := [], inDone := false, bDone := false, evalDone := false, voted := false, resolved := false,
                      imagesOk := false, ready := false, cmds := if n.laneSt.voted then n.laneSt.cmds else 0 },
                    ranks := tmodAll {} n.ranks (keys n.ranks) (fun _ r => { r with good := 0, got := 0 }) }
  let n := rks.foldl takeRank n
  let n := cutFronts n
  let n := chs.foldl takeCh n
  (activeChs n).foldl (fun n ch => if isAo n ch then stageAtS n ch else n) n

/-! Events of the rank between the instants -/

/-- The status cut of the frame lies at S + 100 us (07 R150). -/
def beforeCut (n : Node) : Bool := decide (n.now ≤ n.sAt + 100000)

/-- The mode has a break signature (07 Table 07.2). -/
def hasBreak (n : Node) (ch : Nat) : Bool :=
  let dis := bit (dgCfg n ch) 7
  match chnSel n ch with
  | 1 => chnWiring n ch != 2 || !dis
  | 4 => !dis
  | 5 | 6 | 7 => true
  | 8 | 9 => chnSensor n ch != 2
  | _ => false

/-- The rank of a channel is powered and the channel is not in OFF. -/
def watched (n : Node) (ch : Nat) : Bool :=
  decide (ch < 512) && (rankOf n (rankOfCh ch)).powered && chnSel n ch != 0

/-- WIRE_BREAK_CONFIRM (07 R149, R150); the detector pauses in the channel's own slot (07 R147). -/
def breakConfirm (n : Node) (ch : Nat) : Node :=
  if watched n ch && hasBreak n ch && !(frontOf n ch).open_ && decide ((diagOf n ch).slotEnd ≤ n.now) then
    let cut := beforeCut n
    modFront n ch (fun f => { f with open_ := true, openAt := n.now, cutOpen := f.cutOpen || cut })
  else n

/-- tREP (07 Table 07.3): a repair is confirmed no sooner after the confirmed break. -/
def repairTime (n : Node) : Nat := max 10000000 (3 * n.period)

/-- A front-end reconnection or an excitation leaving its limit: a settling event the rank timestamps (05 R115). -/
def timestamped (n : Node) (ch : Nat) (at_ : Nat) : Node := modFront n ch (fun f => { f with tes := f.tes ++ [at_] })

/-- REPAIR_CONFIRM (07 R152, R153): the signature of AI_TC's voltage must have been absent for tREP as well, from the first S
that found it gone. -/
def repairConfirm (n : Node) (ch : Nat) : Node :=
  let f := frontOf n ch
  if watched n ch && f.open_ && f.tcHigh == 0 && decide (max f.openAt f.tcEnd + repairTime n ≤ n.now) then
    let cut := beforeCut n
    timestamped (modFront n ch (fun f => { f with open_ := false, cutOpen := f.cutOpen && !cut })) ch n.now
  else n

/-- EXCITATION_LIMIT (04 R92, 07 R156). -/
def excLimit (n : Node) (ch : Nat) : Node :=
  if watched n ch && !(frontOf n ch).excLim then
    let cut := beforeCut n
    modFront n ch (fun f => { f with excLim := true, cutExc := f.cutExc || cut })
  else n

/-- EXCITATION_LIMIT_END: a settling event. -/
def excLimitEnd (n : Node) (ch : Nat) : Node :=
  if watched n ch && (frontOf n ch).excLim then
    let cut := beforeCut n
    timestamped (modFront n ch (fun f => { f with excLim := false, cutExc := f.cutExc && !cut })) ch n.now
  else n

/-- THERMAL_LIMIT (06 R139). -/
def thermalLimit (n : Node) (ch : Nat) (on : Bool) : Node :=
  if watched n ch && isAo n ch then modStage n ch (fun s => { s with limiting := on }) else n

/-! Comparators (04 R95 to R97) -/

/-- Bridge range, nV/V. -/
def bridgeRange (n : Node) (ch : Nat) : Int :=
  match chnRange n ch with
  | 0 => 2500000
  | 1 => 10000000
  | _ => 40000000

/-- Threshold value of a code, over 40960 (04 Table 04.7). -/
def thrValue (n : Node) (ch c : Nat) : Int :=
  match chnSel n ch with
  | 1 => 625 * 4096 * c
  | 4 => (5000 * (c : Int) - 10240000) * 40960
  | _ => (2 * bridgeRange n ch * c - bridgeRange n ch * 4096) * 10

/-- Hysteresis steps of CHN_CMP.HYST (04 R97). -/
def hystSteps (n : Node) (ch : Nat) : Nat :=
  match fld (chnCmp n ch) 29 28 with
  | 0 => 0
  | 1 => 4
  | 2 => 16
  | _ => 64

/-- Span width in the trim unit. -/
def rbWidth (n : Node) (ch : Nat) : Int :=
  match chnSel n ch with
  | 1 => 260000
  | 4 => 21000000
  | 5 => 21 * bridgeRange n ch / 10
  | 6 => if chnSensor n ch = 0 ∨ chnSensor n ch = 3 then 400000 else 4000000
  | 7 => 16000000
  | _ => 100000

/-- One comparator side after the signal has come to `v` (04 R95, R96): set beyond its threshold, and kept until the signal
is back inside by the hysteresis; values over 40960. -/
def sideNext (was : Bool) (beyond inside : Bool) : Bool := beyond || (was && !inside)

/-- The sides of a channel's comparator with its signal at `sigHi` for the high one and at `sigLo` for the low one, in the
trim unit (equal but for the comparators' own errors); DI modes rise at 2.1 mA and fall at 1.2 mA. -/
def cmpSides (n : Node) (ch : Nat) (sigHi sigLo : Int) (f : Front) : Front :=
  if isDi n ch then { f with hiSet := sideNext f.hiSet (decide (21000 ≤ sigHi)) (decide (sigHi ≤ 12000)), loSet := false }
  else
    let w := chnCmp n ch
    let v := sigHi * 40960
    let u := sigLo * 40960
    let h := hystSteps n ch * (thrValue n ch 1 - thrValue n ch 0)
    let hi := thrValue n ch (fld w 27 16)
    let lo := thrValue n ch (fld w 11 0)
    { f with hiSet := sideNext f.hiSet (decide (hi < v)) (decide (v ≤ hi - h)),
             loSet := sideNext f.loSet (decide (u < lo)) (decide (lo + h ≤ u)) }

/-- COMPARATOR_CROSSING: the front-end signal has crossed a threshold and stands there; the copies of `copies` follow the
comparator; copies under an off-pulse keep their value (07 R148). -/
def setComparator (n : Node) (ch : Nat) (sigHi sigLo : Int) (copies : Nat) : Node :=
  if watched n ch && hasCmp n ch then
    let n := modFront n ch (fun f => { cmpSides n ch sigHi sigLo f with follow := copies })
    let f := frontOf n ch
    if n.now < f.holdUntil then n
    else
      let o := cmpOut n ch f
      modFront n ch (setCopies o)
  else n

/-! Diagnostic slots (07 R146 to R148, R156, R158, R159) -/

/-- Kind of the slot a channel has in frame k. -/
def slotKind (n : Node) (ch : Nat) : Nat :=
  let d := diagOf n ch
  let k := n.frame / 8 % 8
  if chnSel n ch = 9 then k else if d.excTol then 3 else d.repeat_.getD k

/-- The channels with a slot in the frame: those whose rank has its configuration (07 R146, 17 R394). -/
def slotChs (n : Node) : List Nat :=
  (activeChs n).filter (fun ch => decide (ch % 8 = n.frame % 8) && (rankOf n (rankOfCh ch)).powered && (rankOf n (rankOfCh ch)).ready)

/-- Where a mode's span begins in the trim unit (04 Table 04.5, 06 R134; AI_RTD as a resistance). -/
def spanLow (n : Node) (ch : Nat) : Int :=
  match chnSel n ch with
  | 1 => -10000
  | 4 => -10500000
  | 5 => -(105 * bridgeRange n ch / 100)
  | 7 => -8000000
  | _ => 0

/-- Span width as the slots judge it: 24 mA in AO modes. -/
def slotWidth (n : Node) (ch : Nat) : Int := if isAo n ch then 240000 else rbWidth n ch

/-- Both converters within a tolerance, per 100 000 of the span, of a point of the span in per cent; AO modes judge the readback
converter alone. -/
def convsOk (n : Node) (ch : Nat) (m : SlotResult) (pct tolA tolB : Int) : Bool :=
  let w := slotWidth n ch
  let near := fun (v tol : Int) => decide (100000 * ((v - spanLow n ch - w * pct / 100).natAbs : Int) ≤ tol * w)
  (isAo n ch || near m.a tolA) && near m.b tolB

/-- Both converters on an internal short read 0 within 0.05 % of span. -/
def zeroOk (n : Node) (ch : Nat) (m : SlotResult) : Bool :=
  let small := fun (v : Int) => decide (2000 * (v.natAbs : Int) ≤ slotWidth n ch)
  (isAo n ch || small m.a) && small m.b

/-- The reference check of a slot kind (07 Table 07.1); kinds 4 and 7 act as ZERO where they have no measurement of their own,
kind 5 as REF_H. -/
def refCheck (n : Node) (ch kind : Nat) (m : SlotResult) : Bool :=
  match kind with
  | 1 => convsOk n ch m 60 100 300
  | 2 => convsOk n ch m 10 100 300
  | 5 => if [1, 6, 8].contains (chnSel n ch) then decide (m.a.natAbs ≤ 500) else convsOk n ch m 60 100 300
  | 6 => (isAo n ch || decide (m.a.natAbs ≤ 3000)) && decide (m.b.natAbs ≤ 3000)
  | _ => zeroOk n ch m

/-- A reference check of kinds 0, 1, 2, 5 and 6 (07 R156). -/
def slotRef (n : Node) (ch kind : Nat) (m : SlotResult) : Node :=
  if !([0, 1, 2, 5, 6].contains kind) || (isAo n ch && kind == 5) then n
  else
    let d := diagOf n ch
    if refCheck n ch kind m then modDiag n ch (fun d => { d with repeat_ := none })
    else if d.repeat_ = none then modDiag n ch (fun d => { d with repeat_ := some kind })
    else modDiag n ch (fun d => { d with repeat_ := none, refFlt := true })

/-- The mode's excitation or bias is measured in kind 3. -/
def slotMeasures (n : Node) (ch : Nat) : Bool :=
  match chnSel n ch with
  | 1 => chnWiring n ch != 2
  | 4 => chnExc n ch == 1
  | 5 | 6 | 7 | 8 => true
  | _ => false

/-- RTD current, nA (04 Table 04.4). -/
def rtdCurrent (n : Node) (ch : Nat) : Int := if chnSensor n ch = 0 ∨ chnSensor n ch = 3 then 1000000 else 250000

/-- The excitation within its tolerance (07 R156). -/
def excOk (n : Node) (ch : Nat) (m : SlotResult) : Bool :=
  let near := fun (v c tol : Int) => decide (((v - c).natAbs : Int) ≤ tol)
  match chnSel n ch with
  | 1 | 4 => near m.a 24000 1000
  | 5 => near m.a (1000 * bridgeExc n ch) (5 * bridgeExc n ch)
  | 6 => near m.a (rtdCurrent n ch) (rtdCurrent n ch / 100)
  | 7 => near m.a 1000 50 && near m.b 200 50
  | _ => near m.a 8200 250

/-- Excitation check: a failure confirmed by a repeat sets EXC_TOL; the first pass clears it, a reconnection. DESIGN CHOICE (log
entry 92): the instant of a passing check is the end of its slot, 40 us after its start. -/
def slotExc (n : Node) (ch : Nat) (m : SlotResult) : Node :=
  let d := diagOf n ch
  let n := if chnSel n ch = 6 then modDiag n ch (fun d => { d with exc := m.a }) else n
  if !slotMeasures n ch then n
  else if excOk n ch m then
    let n := modDiag n ch (fun d => { d with repeat_ := none, excTol := false })
    if d.excTol then timestamped n ch (n.now + 40000) else n
  else if d.excTol then n
  else if d.repeat_ = none then modDiag n ch (fun d => { d with repeat_ := some 3 })
  else modDiag n ch (fun d => { d with repeat_ := none, excTol := true })

/-- Threshold DAC outputs within 0.5 % of the threshold span of their codes (07 R158). -/
def dacOk (n : Node) (ch : Nat) (m : SlotResult) : Bool :=
  let w := chnCmp n ch
  let span : Int := if isDi n ch then 40960 * Config.diThresholdSpan else thrValue n ch 4096 - thrValue n ch 0
  let hi : Int := if isDi n ch then 40960 * 21000 else thrValue n ch (fld w 27 16)
  let lo : Int := if isDi n ch then 40960 * 12000 else thrValue n ch (fld w 11 0)
  decide (200 * ((m.a - hi).natAbs : Int) ≤ span) && decide (200 * ((m.b - lo).natAbs : Int) ≤ span)

/-- Threshold DAC check; a failed repeat is a comparator fault. -/
def slotCmp (n : Node) (ch : Nat) (m : SlotResult) : Node :=
  let d := diagOf n ch
  if !hasCmp n ch then n
  else if dacOk n ch m then modDiag n ch (fun d => { d with repeat_ := none })
  else if d.repeat_ = none then modDiag n ch (fun d => { d with repeat_ := some 7 })
  else modDiag n ch (fun d => { d with repeat_ := none, dacFlt := true })

/-- XSHORT of a pair, kept on both channels. -/
def setXshort (n : Node) (even : Nat) (v : Bool) : Node :=
  modDiag (modDiag n even (fun d => { d with xshort := v })) (even + 1) (fun d => { d with xshort := v })

/-- Off-pulse of a DI_PAIR channel (07 R148, R159): passing where both converters read below 0.15 mA, failed where either reads
1.2 mA or more. DESIGN CHOICE (log entry 92): a pulse between the two ends both runs. Two failed in a row set XSHORT, eight
passing clear it. -/
def slotPulse (n : Node) (ch : Nat) (m : SlotResult) : Node :=
  let e := ch / 2 * 2
  let pass := decide (m.a < 1500 ∧ m.b < 1500)
  let fail := decide (12000 ≤ m.a ∨ 12000 ≤ m.b)
  let n := modDiag n e (fun d =>
    { d with failRow := if fail then sat 2 (d.failRow + 1) else 0, passRow := if pass then sat 8 (d.passRow + 1) else 0 })
  let d := diagOf n e
  if d.failRow = 2 then setXshort n e true
  else if d.passRow = 8 then setXshort n e false
  else n

/-- The lead a drop of a 3-wire RTD (04 R89). -/
def slotLead (n : Node) (ch : Nat) (m : SlotResult) : Node :=
  if chnSel n ch = 6 ∧ chnWiring n ch = 1 then modFront n ch (fun f => { f with lead := m.a }) else n

/-- One channel's slot; it begins at the instant of the row and lasts 40 us. A slot without a measurement judges nothing. -/
def runSlot (results : List (Nat × SlotResult)) (n : Node) (ch : Nat) : Node :=
  let kind := slotKind n ch
  let n := modDiag n ch (fun d => { d with lastSlot := kind, slotEnd := n.now + 40000 })
  let n := if chnSel n ch = 9 then modFront n ch (fun f => { f with holdUntil := n.now + 50000 }) else n
  match lookup results ch with
  | none => n
  | some m =>
    if chnSel n ch = 9 then slotPulse n ch m
    else
      match kind with
      | 3 => slotExc n ch m
      | 4 => slotLead n ch m
      | 7 => slotCmp n ch m
      | k => slotRef n ch k m

def diagSlot (n : Node) (results : List (Nat × SlotResult)) : Node := (slotChs n).foldl (runSlot results) n

/-! Linearisation (05 R110) -/

/-- The element curve of AI_RTD SENSOR 0 to 2 at tau m degree C: nominal resistance in mOhm and the polynomial, over
10^36. -/
def rtdPoly (sensor : Nat) (tau : Int) : Int :=
  if sensor = 2 then
    10 ^ 36 + 5485 * 10 ^ 27 * tau + 665 * 10 ^ 22 * tau ^ 2 + 2805 * 10 ^ 10 * tau ^ 4 - 20 * tau ^ 6
  else
    let base := 10 ^ 36 + 39083 * 10 ^ 26 * tau - 5775 * 10 ^ 20 * tau ^ 2
    if tau < 0 then base - 4183 * 10 ^ 9 * (tau - 100000) * tau ^ 3 else base
def rtdNom (sensor : Nat) : Int := if sensor = 0 then 100000 else 1000000

/-- Span of a temperature sensor, m degree C (04 Table 04.5). -/
def tempSpan (sel sensor : Nat) : Int × Int :=
  if sel = 6 then (if sensor = 2 then (-60000, 250000) else (-200000, 850000))
  else
    match sensor with
    | 0 => (-200000, 1372000)
    | 1 => (-210000, 1200000)
    | 2 => (-200000, 1300000)
    | 3 => (-200000, 1000000)
    | 4 => (-200000, 400000)
    | 7 => (250000, 1820000)
    | _ => (-50000, 1768000)

/-- Largest point of a range of a rising curve at or below a target, by halving. -/
def bisect (f : Int → Int) (target : Int) : Nat → Int → Int → Int
  | 0, lo, _ => lo
  | k + 1, lo, hi =>
    if hi - lo ≤ 1 then lo
    else
      let m := (lo + hi) / 2
      if f m ≤ target then bisect f target k m hi else bisect f target k lo m

/-- The nearer of two neighbouring points. -/
def nearest (f : Int → Int) (target lo : Int) : Int := if f (lo + 1) - target < target - f lo then lo + 1 else lo

/-- A curve solved in a span: the temperature, and whether the target lies outside the span. -/
def solveCurve (f : Int → Int) (target : Int) (span : Int × Int) : Int × Bool :=
  if target < f span.1 then (span.1, true)
  else if f span.2 < target then (span.2, true)
  else if target = f span.2 then (span.2, false)
  else (nearest f target (bisect f target 22 span.1 span.2), false)

/-! Scaling and span (05 R109, R111) -/

/-- Lead correction of AI_RTD, part of x (04 R89, 05 Table 05.5). DESIGN CHOICE (log entry 92): before the first slot of kind 4
has measured it the drop of lead a is 0, and over a change of configuration the drop measured before stands until the next
one. -/
def leadOf (n : Node) (ch : Nat) : Int :=
  if chnSel n ch = 6 then
    match chnWiring n ch with
    | 0 => (chnAux n ch).toNat
    | 1 => (frontOf n ch).lead
    | _ => 0
  else 0

/-- A resistance on an observing rank is HI - SN over the carrier's measured excitation current, sent over the cross-links (12
Table 12.8). DESIGN CHOICE (log entry 104): before a current has come, it is taken over the nominal one. -/
def overCarrier (n : Node) (ch : Nat) (v : Int) : Int :=
  let i := (frontOf n ch).peerExc
  if chnSel n ch = 6 ∧ (rankOf n (rankOfCh ch)).observe ∧ 0 < i then divRound (v * rtdCurrent n ch) i.toNat else v

/-- Trim (05 R109). -/
def trim (n : Node) (ch : Nat) (x : Int) : Int :=
  let w := chnScale n ch
  x + divRound (x * sfld w 31 16) 1048576 + sfld w 15 0

/-- Span of a result in its unit. -/
def chSpan (n : Node) (ch : Nat) : Int × Int :=
  match chnSel n ch with
  | 1 => (-10000, 250000)
  | 2 | 3 => (0, 240000)
  | 4 => (-10500000, 10500000)
  | 5 => (-(bridgeRange n ch * 105 / 100), bridgeRange n ch * 105 / 100)
  | 6 => if chnSensor n ch = 3 then (0, 408000) else if chnSensor n ch = 4 then (0, 4080000) else tempSpan 6 (chnSensor n ch)
  | 7 => tempSpan 7 (chnSensor n ch)
  | _ => (0, 1)

/-- A value against its span: saturated value, outside, and inside by at least 0.1 % of the width (05 R111). -/
structure Spanned where
  val : Int
  out : Bool
  deep : Bool
  deriving DecidableEq, Repr

def spanLinear (n : Node) (ch : Nat) (y : Int) : Spanned :=
  let s := chSpan n ch
  let w := s.2 - s.1
  let e := divRound w 20
  { val := max (s.1 - e) (min (s.2 + e) y), out := decide (y < s.1 ∨ s.2 < y),
    deep := decide (w ≤ 1000 * (y - s.1) ∧ w ≤ 1000 * (s.2 - y)) }

def spanTemp (s : Int × Int) (r : Int × Bool) : Spanned :=
  let w := s.2 - s.1
  { val := r.1, out := r.2, deep := !r.2 && decide (w ≤ 1000 * (r.1 - s.1) ∧ w ≤ 1000 * (s.2 - r.1)) }

/-- Cold-junction temperature (05 R112): m degree C. -/
def coldJunction (n : Node) (ch : Nat) : Int :=
  match fld (chnCfg n ch) 5 4 with
  | 0 => (getGroup (rankOf n (rankOfCh ch)) (groupInRank ch)).cjMc
  | 1 => (resOf n (fld (chnCfg n ch) 14 6)).val
  | _ => sfld (chnAux n ch) 31 0

/-- The value of R109, R110 and R111. -/
def valueOf (n : Node) (ch : Nat) (y : Int) : Spanned :=
  if chnSel n ch = 6 ∧ chnSensor n ch ≤ 2 then
    let k := chnSensor n ch
    let s := tempSpan 6 k
    spanTemp s (solveCurve (fun t => rtdNom k * rtdPoly k t) (y * 10 ^ 36) s)
  else if chnSel n ch = 7 then
    let k := chnSensor n ch
    let s := tempSpan 7 k
    spanTemp s (solveCurve (tcEmf k) (10000000 * y + tcEmf k (coldJunction n ch)) s)
  else spanLinear n ch y

/-! Digital bands (04 R94, 05 R105) -/

/-- v(k): the band's value, or the one before. -/
def bandValue (sensor : Nat) (cur : Int) (prev : Nat) : Nat :=
  if cur < 1500 then (if sensor = 2 then 0 else prev)
  else if cur ≤ 12000 then 0
  else if cur < 21000 then prev
  else if cur ≤ 65000 then 1
  else if sensor = 2 then 1 else prev

/-- v of the frame, and how long it has been so. -/
def pushV (v : Nat) (a : Acq) : Acq := { a with v := v, vRun := if a.vRun ≠ 0 ∧ a.v = v then sat 256 (a.vRun + 1) else 1 }

/-- The debounced result: the value of the last D + 1 frames where they agree, the result before otherwise. -/
def debounce (d : Nat) (a : Acq) : Nat := if d < a.vRun then a.v else a.deb

/-! Readback cross-check (07 R155) and comparator plausibility (07 R158) -/

/-- DG_CFG.MM_TOL, per mille. -/
def mmTol (n : Node) (ch : Nat) : Int :=
  match fld (dgCfg n ch) 1 0 with
  | 0 => 10
  | 1 => 5
  | 2 => 20
  | _ => 50

/-- One frame of the cross-check on the counts: difference and tolerance in thousandths. -/
def crossCheck (a : Acq) (diff tol : Int) : Acq :=
  { a with mmCnt := if tol < diff then sat 255 (a.mmCnt + 1) else 0,
           agree := if 2 * diff ≤ tol then sat 3 (a.agree + 1) else 0 }

/-- What a result implies for the comparator; none where it lies too near a threshold (07 R158). -/
def implied (n : Node) (ch : Nat) (y cur : Int) : Option Bool :=
  if isDi n ch then
    if 21000 ≤ cur ∧ cur ≤ 65000 then some true else if 1500 ≤ cur ∧ cur ≤ 12000 then some false else none
  else
    let w := chnCmp n ch
    let v := y * 40960
    let m := (thrValue n ch 4096 - thrValue n ch 0) / 50 + hystSteps n ch * (thrValue n ch 1 - thrValue n ch 0)
    let hi := thrValue n ch (fld w 27 16)
    let lo := thrValue n ch (fld w 11 0)
    let eh := bit w 31
    let el := bit w 30
    if (eh && decide (hi + m < v)) || (el && decide (v + m < lo)) then some true
    else if (eh || el) && (!eh || decide (v + m < hi)) && (!el || decide (lo + m < v)) then some false
    else none

/-- 2-of-3. -/
def maj3 (a b c : Bool) : Bool := (a && b) || (a && c) || (b && c)

/-- Supervision of the copies in one frame; `valid` tells that the result stands for its instant: neither INVALID nor
SETTLING. -/
def superviseCmp (n : Node) (ch : Nat) (y : Int) (valid : Bool) (d : Nat) : Node :=
  let f := frontOf n ch
  let m := maj3 f.s0 f.s1 f.s2
  let maj := (some m :: (acqOf n ch).maj).take 256
  let n := modAcq n ch (fun a => { a with maj := maj })
  let x := diagOf n ch
  let neq := if f.s0 = f.s1 ∧ f.s1 = f.s2 then 0 else sat 3 (x.cmpNeq + 1)
  let then_ := if isDi n ch then some m else (maj[d]?).join
  let diff := match implied n ch y f.raw, then_ with
    | some b, some t => if !valid then x.cmpDiff else if b = t then 0 else sat 3 (x.cmpDiff + 1)
    | _, _ => x.cmpDiff
  let flt := x.cmpFlt || neq == 3 || diff == 3
  modDiag n ch (fun x => { x with cmpNeq := neq, cmpDiff := diff, cmpFlt := flt })

/-! The result of a frame -/

/-- The rank delivers usable results: self-tested, not FAULTY (01 R15, 17 R400). -/
def rankUsable (n : Node) (ch : Nat) : Bool := let r := rankOf n (rankOfCh ch); r.ready && !r.faulty && !r.noUse

/-- Settling events the frame takes up (05 R116): those at or before its status cut; the latest te holds (05 R117). -/
def takeTes (n : Node) (ch : Nat) : Node :=
  let f := frontOf n ch
  let due := f.tes.filter (fun e => e ≤ n.sAt + 100000)
  if due = [] then n
  else
    modAcq (modFront n ch (fun f => { f with tes := f.tes.filter (fun e => n.sAt + 100000 < e) })) ch
      (fun a => { a with te := some (due.foldl max (a.te.getD 0)) })

/-- A settling event that the lanes know at B (05 R115, R117). -/
def settleAt (n : Node) (ch : Nat) (te : Nat) : Node := modAcq n ch (fun a => { a with te := some (max te (a.te.getD 0)) })

/-- SETTLING still holds: the carried instant lies before te + tFE + h. -/
def stillSettling (n : Node) (ch : Nat) : Bool :=
  match (acqOf n ch).te with
  | none => false
  | some te => decide ((n.sAt : Int) - (chDelay n ch : Int) * n.period < (te : Int) + frontSettle n ch + chHalf n ch)

/-- READBACK_MISMATCH clears in the frame that follows 3 frames each within T / 2. -/
def clearMismatch (a : Acq) : Acq := if a.mismatch && a.agree == 3 then { a with mismatch := false } else a

/-- The cross-check of an input mode in one frame. -/
def checkInput (n : Node) (ch d : Nat) (x : Int) (skip : Bool) : Node :=
  let f := frontOf n ch
  let corr := leadOf n ch
  let n := modAcq n ch (fun a => clearMismatch { a with rbs := (some (overCarrier n ch f.rb) :: a.rbs).take 256 })
  let a := acqOf n ch
  let rb := (if isDi n ch then some f.rb else (a.rbs[d]?).join).map (· - corr)
  match skip, rb with
  | false, some r =>
    let dx := (x - a.prevX).natAbs
    let tol := rbWidth n ch * mmTol n ch + 1000 * (dx : Int)
    modAcq n ch (fun a =>
      let a := crossCheck a (1000 * ((x - r).natAbs : Int)) tol
      { a with mismatch := a.mismatch || decide (3 ≤ a.mmCnt), prevX := x })
  | _, _ => modAcq n ch (fun a => { a with prevX := x })

/-- The cross-check of an AO mode (06 R134), against the code applied at the B before. -/
def checkOutput (n : Node) (ch : Nat) : Node :=
  let s := stageOf n ch
  let diff := ((frontOf n ch).rb - 4 * s.prevCode).natAbs
  let s := if s.compliance || s.thermal || [OState.off, .standby, .clamp].contains s.prevO then s
    else
      let s := if s.mismatch && s.agree == 3 then { s with mismatch := false } else s
      let dis := if 2000 < diff then sat 255 (s.dis + 1) else 0
      let agree := if diff ≤ 1000 then sat 3 (s.agree + 1) else 0
      { s with dis := dis, agree := agree, mismatch := s.mismatch || decide (3 ≤ dis) }
  modStage n ch (fun _ => s)

/-- Causes of SETTLING and INVALID that a cold-junction source brings (05 R112). -/
def cjInvalid (n : Node) (ch : Nat) : Bool :=
  chnSel n ch == 7 &&
    (match fld (chnCfg n ch) 5 4 with
     | 0 => (getGroup (rankOf n (rankOfCh ch)) (groupInRank ch)).cjFlt
     | 1 => nbit (resOf n (fld (chnCfg n ch) 14 6)).stat 2
     | _ => false)
def cjSettling (n : Node) (ch : Nat) : Bool :=
  chnSel n ch == 7 && fld (chnCfg n ch) 5 4 == 1 && nbit (resOf n (fld (chnCfg n ch) 14 6)).stat 1

/-- Bits 5 to 7 of RNK for a loop output whose status takes one up (06 R145). -/
def riseAo (n : Node) (ch stat : Nat) : Node :=
  if isAo n ch then
    let old := (resOf n ch).stat
    [5, 6, 7].foldl (fun n b => raiseBIf (nbit stat b && !nbit old b) n (rnkPage ch) b) n
  else n

/-- RESULT_READY: a result published with VALID is the value held from now on (05 R114). -/
def holdPublished (n : Node) : Node :=
  (activeChs n).foldl (fun n ch =>
    let r := resOf n ch
    if nbit r.stat 0 then modAcq n ch (fun a => { a with held := r.val }) else n) n

/-- The status byte and the value: 05 R113, R114. DESIGN CHOICE (log entry 92): in DI modes, whose result is 0 or 1, OVERRANGE
is never set; the loop current is not judged against the 0 to 10 mA of 04 Table 04.5. -/
def publishCh (n : Node) (ch d : Nat) (settling invalid wire : Bool) (y : Int) : Node :=
  let a := acqOf n ch
  let s := stageOf n ch
  let mm := if isAo n ch then s.mismatch else a.mismatch || (diagOf n ch).cutRef
  let wire := wire && !isAo n ch
  let hold := settling || invalid
  let v : Spanned := if isDi n ch then { val := y, out := false, deep := true } else valueOf n ch y
  let ovr := !hold && (v.out || (a.ovr && !v.deep))
  let valid := !hold && !ovr
  let stat := packN [(b2n valid, 0, 1), (b2n settling, 1, 1), (b2n invalid, 2, 1), (b2n wire, 3, 1), (b2n ovr, 4, 1),
    (b2n (isAo n ch && s.compliance), 5, 1), (b2n (isAo n ch && s.thermal), 6, 1), (b2n mm, 7, 1)]
  let val := if hold then a.held else v.val
  let n := riseAo n ch stat
  let n := modAcq n ch (fun a => { a with ovr := ovr, y := y })
  setRes n ch { val := val, stat := stat, dly := some (sat 255 d) }

/-- A channel whose rank delivers no usable copy: INVALID with the held value (01 R15). The lanes receive no readback and no
comparator copies. DESIGN CHOICE (log entry 92): the frame counts as none for the debounce of 05 R105, so a run of equal values
goes on across it. -/
def lostCh (n : Node) (ch d : Nat) : Node :=
  let n := modAcq (takeTes n ch) ch (fun a =>
    let a := clearMismatch a
    { a with rbs := (none :: a.rbs).take 256, maj := (none :: a.maj).take 256 })
  let settling := stillSettling n ch || cjSettling n ch
  publishCh n ch d settling true (nbit (resOf n ch).stat 3) (acqOf n ch).y

/-- An excitation fault in the status of the frame (04 R92, 07 R156). -/
def excFault (n : Node) (ch : Nat) : Bool := (frontOf n ch).cutExc || (diagOf n ch).cutTol

/-- The bands whose BREAK and SHORT are faults (04 Table 04.6). -/
def monitored (n : Node) (ch : Nat) : Bool := isDi n ch && chnSensor n ch != 2

/-- A result from a usable copy. -/
def measuredCh (n : Node) (ch d : Nat) : Node :=
  let n := takeTes n ch
  let f := frontOf n ch
  let settling := stillSettling n ch || cjSettling n ch
  let n := if stillSettling n ch then n else modAcq n ch (fun a => { a with te := none })
  let di := isDi n ch
  let brk := di && decide (f.raw < 1500)
  let sht := di && decide (65000 < f.raw)
  let band := monitored n ch && (brk || sht)
  let x := overCarrier n ch f.raw - leadOf n ch
  let n := modAcq n ch (fun a => { a with bandBreak := brk, bandShort := sht })
  let n := if di then modAcq n ch (fun a =>
      let a := pushV (bandValue (chnSensor n ch) f.raw a.v) a
      { a with deb := debounce d a })
    else n
  let exc := excFault n ch
  let n := if isAo n ch then checkOutput n ch
    else checkInput n ch d x (f.cutOpen || exc || f.window || settling || band)
  let mm := !isAo n ch && ((acqOf n ch).mismatch || (diagOf n ch).cutRef)
  let invalid := (f.cutOpen && !isAo n ch) || mm || exc || f.window || band || cjInvalid n ch
  let y : Int := if di then (if bit (chnCfg n ch) 0 then 1 - (acqOf n ch).deb else (acqOf n ch).deb) else trim n ch x
  let n := publishCh n ch d settling invalid f.cutOpen y
  if hasCmp n ch then superviseCmp n ch y ((!settling && !invalid) || di) d else n

/-- One channel in one frame. In a module of a pair without the output claim a loop output keeps the result of its holder
(12 Table 12.8, 19 R431), without a WIRE_BREAK of a mode before (06 R135); the holder drives and measures its own. DESIGN
CHOICE (log entry 92): where the rank is FAULTY in the module without the claim, the holder's status stands there as well. -/
def evalCh (n : Node) (ch : Nat) : Node :=
  let d := chDelay n ch
  if !(rankOf n (rankOfCh ch)).powered then
    setRes { n with acqs := erase n.acqs ch } ch { val := 0, stat := 4, dly := some (sat 255 d) }
  else if isAo n ch && !holder n then
    setRes n ch { resOf n ch with stat := setBit (resOf n ch).stat 3 false, dly := some (sat 255 d) }
  else if !rankUsable n ch then lostCh n ch d
  else measuredCh n ch d

/-- DG_STAT as the evaluation gives it (07 Table 07.7): 0 in OFF and where the rank is unpowered or FAULTY (07 Table 07.5). -/
def dgWord (n : Node) (ch : Nat) : Word :=
  let f := frontOf n ch
  let d := diagOf n ch
  let a := acqOf n ch
  if chnSel n ch = 0 ∨ !rankUsable n ch then 0
  else pack [(if isAo n ch then 0 else a.mmCnt, 16, 8), (b2n d.xshort, 11, 1), (b2n d.cmpFlt, 10, 1), (b2n d.cutRef, 9, 1),
    (b2n d.cutTol, 8, 1), (b2n f.cutExc, 7, 1), (b2n f.window, 6, 1), (b2n a.bandShort, 5, 1), (b2n a.bandBreak, 4, 1),
    (b2n f.cutOpen, 3, 1), (d.lastSlot, 0, 3)]

/-- Bits of DG_STAT and the interrupt bits that their rise sets (07 Table 07.9). -/
def dgBits : List (Nat × Nat) := [(3, 10), (7, 11), (8, 11), (6, 12), (9, 13), (10, 14), (11, 15)]

/-- DG_STAT of the frame; each interrupt bit is due at the RESULT_READY that first shows its cause (07 R166, 02 R50). -/
def showDg (n : Node) (ch : Nat) : Node :=
  let was := (diagOf n ch).stat
  let now := dgWord n ch
  let n := modDiag n ch (fun d => { d with stat := now })
  dgBits.foldl (fun n b => raiseRIf (bit now b.1 && !bit was b.1) n (rnkPage ch) b.2) n

/-- A channel whose cold junction is another channel's result. -/
def cjFollows (n : Node) (ch : Nat) : Bool := chnSel n ch == 7 && fld (chnCfg n ch) 5 4 == 1

/-- Every channel's result of the frame; thermocouples that follow another channel come after it (05 R112). -/
def evalChannels (n : Node) : Node :=
  let chs := activeChs n
  let n := (chs.filter (fun c => !cjFollows n c)).foldl evalCh n
  let n := (chs.filter (cjFollows n)).foldl evalCh n
  let n := chs.foldl showDg n
  let n := (offChs n).foldl (fun n c => setRes n c { val := 0, stat := 4, dly := some (sat 255 (chDelay n c)) }) n
  { n with resHead := { n.resHead with offDly := sat 255 (delayOf n.period 1500000) } }

/-! Changes of configuration, power and period -/

/-- An excitation source stands at the terminals of the mode (04 Table 04.4). -/
def hasExc (n : Node) (ch : Nat) : Bool :=
  match chnSel n ch with
  | 1 => chnWiring n ch != 2
  | 4 => chnExc n ch == 1
  | 5 | 6 | 8 | 9 => true
  | _ => false

/-- What a channel's acquisition keeps at a change of its configuration (05 R105, R114): with the mode kept all but te, with a
new mode the state of READBACK_MISMATCH alone. -/
def reconfigureAcq (newSel : Bool) (te : Nat) (a : Acq) : Acq :=
  if newSel then { te := some te, mmCnt := a.mmCnt, agree := a.agree, mismatch := a.mismatch } else { a with te := some te }

/-- A channel takes up a changed configuration at a B (04 R101, 05 R114, R115): SETTLING from this frame. Faults that a commit
does not end stand (07 R150, R152, R156 to R159); those that the new mode cannot have end. DESIGN CHOICE (log entry 92): a
slot's repeat that is pending is dropped with a change of SEL, or of the excitation it would measure, and else stands. -/
def reconfigureCh (n : Node) (ch : Nat) (newSel : Bool) : Node :=
  let off := decide (chnSel n ch = 0)
  let keepOpen := !off && !isAo n ch
  let exc := hasExc n ch
  let meas := slotMeasures n ch || off
  let n := modAcq n ch (reconfigureAcq newSel (n.sAt + 250000))
  let n := modFront n ch (fun f => { f with
    tes := [], open_ := f.open_ && keepOpen, cutOpen := f.cutOpen && keepOpen, excLim := f.excLim && exc, cutExc := f.cutExc && exc,
    tcHigh := if newSel then 0 else f.tcHigh, hiSet := f.hiSet && !newSel, loSet := f.loSet && !newSel })
  let o := hasCmp n ch && cmpOut n ch (frontOf n ch)
  let n := modFront n ch (setCopies o)
  let n := modDiag n ch (fun d => { d with
    repeat_ := if newSel || (d.repeat_ == some 3 && !slotMeasures n ch) then none else d.repeat_,
    faults := if newSel && d.faults == 0 && rankUsable n ch then 128 else d.faults,
    excTol := d.excTol && meas, cutTol := d.cutTol && meas })
  if off then
    modDiag { n with res := erase n.res ch, acqs := erase n.acqs ch, fronts := erase n.fronts ch } ch (fun d => { d with stat := 0, faults := 0 })
  else n

/-- Channels of a rank. -/
def chsOfRank (n : Node) (r : Nat) : List Nat := (activeChs n).filter (fun c => rankOfCh c == r)

/-- The lanes load a rank's configuration in the frame (05 Table 05.7, row 2). -/
def loadRank (n : Node) (r : Nat) : Node := (chsOfRank n r).foldl (fun n c => settleAt n c (n.sAt + 250000)) n

/-- What stays of a channel's diagnostics in a rank without power: EXC_TOL and XSHORT end by passing checks alone, REF_FLT and
CMP_FLT with the next power-on (07 R156, R158, R159). -/
def coldDiag (d : Diag) : Diag :=
  { lastSlot := d.lastSlot, excTol := d.excTol, xshort := d.xshort, failRow := d.failRow, passRow := d.passRow, faults := d.faults,
    refFlt := d.refFlt, cutRef := d.cutRef, cmpFlt := d.cmpFlt, dacFlt := d.dacFlt }

/-- The rank's next power-on ends REF_FLT and CMP_FLT (07 R156, R158). -/
def warmDiag (d : Diag) : Diag := { d with refFlt := false, cutRef := false, cmpFlt := false, dacFlt := false }

/-- The keys of a table by channel that belong to a rank. -/
def keysOfRank {α : Type} (t : Tbl α) (r : Nat) : List Nat := (keys t).filter (fun c => rankOfCh c == r)

/-- A rank without power: its state is that of an unpowered rank (04 Table 04.10, 05 R114, 06 R132, 07 R156), for channels in
OFF as well. -/
def unpowerRank (n : Node) (r : Nat) : Node :=
  let old := rankOf n r
  let n := modRank n r (fun _ => { err0 := 0, failed := old.failed, selftest := old.selftest })
  let n := (chsOfRank n r).foldl (fun n c => { n with acqs := erase n.acqs c, fronts := erase n.fronts c }) n
  let ds := keysOfRank n.diags r
  let ss := keysOfRank n.stages r
  { n with
    diags := tmodAll {} n.diags ds (fun _ => coldDiag),
    stages := tmodAll {} n.stages ss (fun _ s => { set := s.set, pend := s.pend }) }

/-- A change of the frame period is a settling event for all channels: te = T + 250 us (05 Table 05.7, row 3). -/
def settleAll (n : Node) : Node := (activeChs n).foldl (fun n c => settleAt n c (n.now + 250000)) n

/-! RNK_CMD (04 Table 04.10) -/

def rnkCmdCheck (n : Node) (path : Nat) (v : Word) : CmdCheck :=
  { code := fld v 1 0 == 1, state := inStates n 30, level := levelOk n path 1 }

/-- OP 1 clears ERR_L0 to ERR_L2. -/
def rnkClear (n : Node) (r : Nat) : Node := modRank n r (fun x => { x with err0 := 0, err1 := 0, err2 := 0 })

/-- The lanes take it up (02 R45). -/
def rnkCmdWrite (n : Node) (path r : Nat) (v : Word) : Node :=
  runCommand n path (0x10 + r) (at_ (0x10 + r) 0x70) v (rnkCmdCheck n path v) (defer (0x10 + r) (.rnkClear r))

/-! Rank transfers (01 R15, 11 R248) -/

/-- RANK_TRANSFER: a copy reaches a lane; a bad CRC or a wrong frame number is rejected and counted. -/
def rankTransfer (n : Node) (lane rank : Nat) (crcOk : Bool) (frame : Nat) : Node :=
  if 3 ≤ lane ∨ 16 ≤ rank ∨ (rankOf n rank).powered = false then n
  else
    let ok := crcOk && decide (frame = n.frame)
    let n := modRank n rank (fun r =>
      let e := fun (k x : Nat) => if ok ∨ lane ≠ k then x else sat 255 (x + 1)
      { r with got := setBit r.got lane true, good := setBit r.good lane ok, up := setBit r.up lane ok,
               err0 := e 0 r.err0, err1 := e 1 r.err1, err2 := e 2 r.err2 })
    raiseIf (!ok) n (0x10 + rank) 0

/-! Meanings -/

def execRankTransfer (t lane rank : Nat) (crcOk : Bool) (frame : Nat) (s : State) : Host.Outcome State Fault Refusal :=
  .next (onNode s t (fun n => rankTransfer n lane rank crcOk frame))
def execRnkCmdClear (t rank : Nat) (s : State) : Host.Outcome State Fault Refusal :=
  .next (onNode s t (fun n => if rank < 16 then rnkCmdWrite n hostPath rank 1 else n))
def execWireBreakConfirm (t ch : Nat) (s : State) : Host.Outcome State Fault Refusal :=
  .next (onNode s t (fun n => breakConfirm n ch))
def execRepairConfirm (t ch : Nat) (s : State) : Host.Outcome State Fault Refusal :=
  .next (onNode s t (fun n => repairConfirm n ch))
def execExcitationLimit (t ch : Nat) (s : State) : Host.Outcome State Fault Refusal :=
  .next (onNode s t (fun n => excLimit n ch))
def execExcitationLimitEnd (t ch : Nat) (s : State) : Host.Outcome State Fault Refusal :=
  .next (onNode s t (fun n => excLimitEnd n ch))
def execThermalLimit (t ch : Nat) (on : Bool) (s : State) : Host.Outcome State Fault Refusal :=
  .next (onNode s t (fun n => thermalLimit n ch on))

end Sys2Proof.Machine
end

