-- ==== Sys2Proof/Machine/Alarms.lean ====
section
/-! DEFINITION. The alarm engine: points, groups, alert states, commands and first-out (08). -/

namespace Sys2Proof.Machine

/-! Points and their configuration -/

def slotReg (n : Node) (k o : Nat) : Word := reg n (selKey (k % 256) (at_ (0x30 + k / 256) o))
def derReg (n : Node) (j o : Nat) : Word := reg n (selKey j (at_ 9 o))
def grpReg (n : Node) (g o : Nat) : Word := reg n (selKey g (at_ 9 o))

def ptDef (n : Node) (k : Nat) : Word := slotReg n k 0x48
def ptType (n : Node) (k : Nat) : Nat := fld (ptDef n k) 2 0
def ptRef (n : Node) (k : Nat) : Nat := fld (ptDef n k) 25 16
def ptThr (n : Node) (k : Nat) : Int := sfld (slotReg n k 0x4C) 31 0
def ptHyst (n : Node) (k : Nat) : Int := fld (slotReg n k 0x50) 23 0
def derOp (n : Node) (j : Nat) : Word := derReg n j 0xAC
def ptAttr (n : Node) (k : Nat) : Word := if k < 4096 then slotReg n k 0x5C else derReg n (k - 4096) 0xB8
def ptOn (n : Node) (k : Nat) : Nat := fld (if k < 4096 then slotReg n k 0x54 else derReg n (k - 4096) 0xB0) 23 0
def ptOff (n : Node) (k : Nat) : Nat := fld (if k < 4096 then slotReg n k 0x58 else derReg n (k - 4096) 0xB4) 23 0
def ptPrio (n : Node) (k : Nat) : Nat := fld (ptAttr n k) 1 0
def ptGroup (n : Node) (k : Nat) : Nat := fld (ptAttr n k) 15 8

/-- EN of a point; slots 4 to 7 are never evaluated at F = 250 us (R176). -/
def ptEn (n : Node) (k : Nat) : Bool :=
  if k < 4096 then bit (ptDef n k) 31 && !(decide (n.period = 250000) && decide (4 ≤ k % 8))
  else bit (derOp n (k - 4096)) 31

/-- The point one of whose window fields lies at a key. -/
def fieldPoint (key : Nat) : Option Nat :=
  let sel := key / 1048576
  let a := key % 1048576
  if 0x30048 ≤ a ∧ a < 0x40000 ∧ 0x48 ≤ a % 4096 ∧ a % 4096 ≤ 0x5C then some ((a / 4096 - 0x30) * 256 + sel)
  else if 0x90A4 ≤ a ∧ a ≤ 0x90B8 then some (4096 + sel)
  else none

/-- The point whose DEF or OP register lies at a key. -/
def pointOfKey (key : Nat) : Option Nat :=
  let sel := key / 1048576
  let a := key % 1048576
  if 0x30048 ≤ a ∧ a < 0x40000 ∧ a % 4096 = 0x48 then some ((a / 4096 - 0x30) * 256 + sel)
  else if a = 0x90AC then some (4096 + sel)
  else none

/-- Ascending insertion without repeats. -/
def insertNat (k : Nat) : List Nat → List Nat
  | [] => [k]
  | x :: r => if k < x then k :: x :: r else if k = x then x :: r else x :: insertNat k r

/-- Points with a field other than its factory value, ascending. -/
def listedPts (n : Node) : List Nat := (n.regs.filterMap (fun e => fieldPoint e.1)).foldl (fun l k => insertNat k l) []

/-! Configuration errors (08 Table 08.4) -/

/-- Quantity of a mode; 0 where it has none. -/
def quantity (sel sensor : Nat) : Nat :=
  match sel with
  | 1 | 2 | 3 => 1
  | 4 => 2
  | 5 => 3
  | 6 => if sensor ≤ 2 then 4 else 5
  | 7 => 4
  | _ => 0

/-- Reference of an input n of a derived point (08 Table 08.5). -/
def derIn (n : Node) (j i : Nat) : Nat :=
  let w := derReg n j (if i < 2 then 0xA4 else 0xA8)
  if i % 2 = 0 then fld w 15 0 else fld w 31 16
def inClass (r : Nat) : Nat := r / 8192
def inIndex (r : Nat) : Nat := r % 8192

/-- The index is in range for its class; `di` tells the channels in a digital mode. -/
def refOk (di : Nat → Bool) (r : Nat) : Bool :=
  match inClass r with
  | 0 => inIndex r == 0
  | 1 | 6 => decide (inIndex r ≤ 5119)
  | 2 => decide (inIndex r ≤ 511) && di (inIndex r)
  | 3 => decide (inIndex r ≤ 255)
  | 4 => decide (inIndex r ≤ 7)
  | 5 => decide (inIndex r ≤ 63)
  | _ => false

/-- Errors of a slot from its words and the modes a configuration gives. DESIGN CHOICE (log entry 94): where several causes of
Table 08.4 hold, the lowest code stands. -/
def slotErr (sel sensor : Nat → Nat) (peerEn : Nat → Bool) (ch : Nat) (d thr hyst : Word) : Nat :=
  let typ := fld d 2 0
  let ref := fld d 25 16
  let m := sel ch
  let roc := typ == 4 || typ == 5
  if m = 0 ∨ ((roc ∨ typ = 6) ∧ (m = 8 ∨ m = 9)) then 1
  else if typ = 6 ∧ (ref = ch ∨ 575 < ref ∨ (512 ≤ ref ∧ !peerEn (ref - 512)) ∨
      (ref < 512 ∧ (quantity (sel ref) (sensor ref) ≠ quantity m (sensor ch)))) then 2
  else if roc ∧ fld d 15 8 = 0 then 2
  else if typ = 7 ∧ (4096 ≤ thr.toNat ∨ fld hyst 23 0 ≠ 0) then 3
  else if (roc ∨ typ = 6) ∧ sfld thr 31 0 < 0 then 3
  else 0

/-- Errors of a derived point. -/
def derErr (di : Nat → Bool) (ins : List Nat) (op : Word) : Nat :=
  let used := (ins.filter (fun r => inClass r ≠ 0)).length
  if !(ins.all (refOk di)) || used == 0 || (fld op 2 0 == 2 && !decide (1 ≤ fld op 10 8 ∧ fld op 10 8 ≤ used)) then 4 else 0

def peerCfg (n : Node) (e : Nat) : Word := reg n (at_ 2 (0x100 + 4 * e))

/-- CFG_ERR of an enabled point in the configuration in effect. -/
def cfgErrOf (n : Node) (k : Nat) : Nat :=
  if k < 4096 then
    slotErr (chnSel n) (chnSensor n) (fun e => bit (peerCfg n e) 31) (k / 8) (ptDef n k) (slotReg n k 0x4C) (slotReg n k 0x50)
  else derErr (isDi n) ((List.range 4).map (derIn n (k - 4096))) (derOp n (k - 4096))

/-! Changes of state -/

def stateOf : AlertState → Nat
  | .normal => 0
  | .actUnack => 1
  | .actSilenced => 2
  | .actAck => 3
  | .actTransferred => 4
  | .rectUnack => 5

/-- STATE 1, 2, 4 or 5. -/
def unacked (a : AlertState) : Bool := [AlertState.actUnack, .actSilenced, .actTransferred, .rectUnack].contains a

/-- Events of 08 Table 08.8. -/
inductive AlmEvent where
  | rises
  | falls
  | ack
  | silence
  | transfer
  | timer
  deriving DecidableEq, Repr

/-- 08 Table 08.8. -/
def nextAlert (a : AlertState) (e : AlmEvent) : AlertState :=
  match a, e with
  | .normal, .rises => .actUnack
  | .actUnack, .falls => .rectUnack
  | .actUnack, .ack => .actAck
  | .actUnack, .silence => .actSilenced
  | .actUnack, .transfer => .actTransferred
  | .actSilenced, .falls => .rectUnack
  | .actSilenced, .ack => .actAck
  | .actSilenced, .transfer => .actTransferred
  | .actSilenced, .timer => .actUnack
  | .actAck, .falls => .normal
  | .actTransferred, .falls => .rectUnack
  | .actTransferred, .ack => .actAck
  | .rectUnack, .rises => .actUnack
  | .rectUnack, .ack => .normal
  | a, _ => a

/-- A change that 14 R330 sends after the vote. -/
def markChange (n : Node) (k : Nat) : Node := { n with net := { n.net with almChanges := insertNat k n.net.almChanges } }

/-- Interrupt page and bits of a point: state change, activation, configuration error. -/
def raiseState (n : Node) (k : Nat) : Node := raiseR n (ptPage k) (if k < 4096 then 0 else 6)

/-- ACTIVATE is a bit of the ALP pages alone (08 Table 08.12). -/
def raiseActive (n : Node) (k : Nat) : Node := if k < 4096 then raiseR n (ptPage k) 1 else n
def raiseCfgErr (n : Node) (k : Nat) : Node := raiseR n (ptPage k) (if k < 4096 then 2 else 7)

/-- Frames of the 30 s silence timer, the nearest whole number (R183). -/
def silenceFrames (n : Node) : Nat := (60000000000 + n.period) / (2 * n.period)

/-- STATE set, with its timer, record, message and interrupt (R183, R189); event 1 or 12, and the source. -/
def setState (n : Node) (k : Nat) (a : AlertState) (event source : Nat) : Node :=
  let p := pointOf n k
  if p.state = a then n
  else
    let n := modPoint n k (fun p => { p with
      state := a, silLeft := if a = .actSilenced then silenceFrames n + 1 else 0,
      entered := if a = .actUnack ∧ (p.state = .normal ∨ p.state = .rectUnack) then some n.sampleT else p.entered,
      again := false, xfr := 0, xfrNew := decide (a = .actTransferred) })
    let n := note n (recAlarm n event k (stateOf p.state) (stateOf a) source (qual n) p.time)
    raiseState (markChange n k) k

/-- An event on a point; a caution or a shelved point follows R184 and takes no command. -/
def follows184 (n : Node) (k : Nat) : Bool := ptPrio n k == 0 || (pointOf n k).shelved
def command (n : Node) (k : Nat) (e : AlmEvent) (source : Nat) : Node :=
  if follows184 n k then n else setState n k (nextAlert (pointOf n k).state e) 1 source

/-- SHELVED ends: record and message. -/
def dropShelf (n : Node) (k source : Nat) : Node :=
  let p := pointOf n k
  if p.shelved then
    let n := modPoint n k (fun p => { p with shelved := false, shelLeft := 0 })
    markChange (note n (recAlarm n 3 k 1 0 source (qual n) p.time)) k
  else n

/-- The end of shelving (R187): a point with ACTIVE = 1 enters ACT_UNACK and keeps its TIME; a caution stays. -/
def endShelf (n : Node) (k source : Nat) : Node :=
  let p := pointOf n k
  if p.shelved then
    let n := dropShelf n k source
    if p.active && ptPrio n k != 0 then modPoint (setState n k .actUnack 1 source) k (fun p => { p with age := 0 }) else n
  else n

/-- A point that becomes DISABLED (R175, R187): shelving ends, NORMAL at once, an ALARM record of the change. -/
def disablePt (n : Node) (k : Nat) : Node :=
  let n := setState (dropShelf n k 255) k .normal 12 255
  modPoint n k (fun p => { p with raw := false, cond := false, active := false, held := false, disabled := true, onCnt := 0, offCnt := 0, roc := [] })

/-! Step 2: slots (R169 to R174) -/

/-- Status of a peer entry as alarm points read it: a stale one lacks VALID and carries INVALID (05 R122). -/
def peerStat (p : Peer) : Nat := if p.stale then (setBit (setBit p.stat 0 false) 2 true) else p.stat

/-- The reference of a DEV slot: value and status. -/
def devRef (n : Node) (k : Nat) : Int × Nat :=
  let r := ptRef n k
  if r < 512 then ((resOf n r).val, (resOf n r).stat) else ((peerOf n (r - 512)).val, peerStat (peerOf n (r - 512)))

/-- INVALID or SETTLING. -/
def badStat (s : Nat) : Bool := nbit s 1 || nbit s 2

/-- Fault word F (08 Table 08.3): the status bits and DG_STAT of the frame, which a FAULTY rank leaves 0 (07 Table 07.5). -/
def faultWord (n : Node) (ch : Nat) : Nat :=
  let s := (resOf n ch).stat
  let d := (diagOf n ch).stat
  packN [(b2n (nbit s 2), 0, 1), (b2n (nbit s 3), 1, 1), (b2n (nbit s 4), 2, 1), (b2n (nbit s 5), 3, 1),
    (b2n (nbit s 6), 4, 1), (b2n (nbit s 7), 5, 1), (b2n (bit d 10), 6, 1), (b2n (bit d 9), 7, 1), (b2n (bit d 11), 8, 1),
    (b2n (bit d 7 || bit d 8), 9, 1), (b2n (bit d 6), 10, 1), (b2n (nbit s 1), 11, 1)]

/-- Carried sample instant of a channel's result, TAI (05 R118). -/
def carried (n : Node) (ch : Nat) : Nat :=
  n.sampleT - ((resOf n ch).dly.getD n.resHead.offDly) * n.period

/-- RAW by rise and fall; otherwise it keeps its value. -/
def latchRaw (was rise fall : Bool) : Bool := if rise then true else if fall then false else was

/-- The test of a slot (08 Table 08.2), r being the rate of R172. -/
def slotRaw (n : Node) (k : Nat) (was : Bool) (r : Int) : Bool :=
  let ch := k / 8
  let x := (resOf n ch).val
  let thr := ptThr n k
  let h := ptHyst n k
  match ptType n k with
  | 0 | 1 => latchRaw was (decide (thr < x)) (decide (x ≤ thr - h))
  | 2 | 3 => latchRaw was (decide (x < thr)) (decide (thr + h ≤ x))
  | 4 => latchRaw was (decide (thr < r)) (decide (r ≤ thr - h))
  | 5 => latchRaw was (decide (r < -thr)) (decide (-thr + h ≤ r))
  | 6 =>
    let d : Int := ((x - (devRef n k).1).natAbs : Nat)
    latchRaw was (decide (thr < d)) (decide (d ≤ thr - h))
  | _ => decide (faultWord n ch &&& thr.toNat ≠ 0)

/-- The delay counts (R171). -/
def delays (p : Point) (on off inst : Nat) : Point :=
  if !p.cond then
    if p.raw then
      let p := if p.onCnt = 0 then { p with runStart := inst } else p
      let p := { p with onCnt := p.onCnt + 1 }
      if on < p.onCnt then { p with cond := true, offCnt := 0 } else p
    else { p with onCnt := 0 }
  else if !p.raw then
    let p := { p with offCnt := p.offCnt + 1 }
    if off < p.offCnt then { p with cond := false, onCnt := 0 } else p
  else { p with offCnt := 0 }

/-- The window of a ROC slot: the newest W + 1 unheld results; a held frame empties it (R172). -/
def rocPush (n : Node) (k : Nat) (p : Point) (bad : Bool) : Point :=
  if bad then { p with roc := [] }
  else { p with roc := (((resOf n (k / 8)).val, carried n (k / 8)) :: p.roc).take (fld (ptDef n k) 15 8 + 1) }

/-- A full window whose instants do not differ: its rate is not stated (log entry 6). -/
def rocOpen (l : List (Int × Nat)) : Bool :=
  match l.head?, l.getLast? with
  | some a, some b => a.2 == b.2
  | _, _ => false

/-- r of a full window; the next free value where it is not stated (log entry 6). -/
def rocRate (n : Node) (l : List (Int × Nat)) : Int :=
  match l.head?, l.getLast? with
  | some a, some b =>
    if a.2 = b.2 then Config.openValue n.free else Int.tdiv ((a.1 - b.1) * 1000000000) ((a.2 : Int) - b.2)
  | _, _ => 0

/-- RAW and COND of a slot. -/
def evalSlot (n : Node) (k : Nat) : Node :=
  let ch := k / 8
  let typ := ptType n k
  let bad := badStat (resOf n ch).stat || (typ == 6 && badStat (devRef n k).2)
  let roc := typ == 4 || typ == 5
  let n := if roc then modPoint n k (fun p => rocPush n k p bad) else n
  let p := pointOf n k
  let short := roc && decide (p.roc.length < fld (ptDef n k) 15 8 + 1)
  let held := typ != 7 && (bad || short)
  if held then modPoint n k (fun p => { p with held := true })
  else
    let raw := slotRaw n k p.raw (rocRate n p.roc)
    let n := if roc && rocOpen p.roc then drawn n else n
    modPoint n k (fun p => delays { p with held := false, raw := raw } (ptOn n k) (ptOff n k) (carried n ch))

/-! Step 3: derived points (R177, R178) -/

/-- Node flags (08 Table 08.5, class 4). -/
def nodeFlag (n : Node) (i : Nat) : Bool :=
  match i with
  | 0 => !lanesTmr n
  | 1 => lanesSingle n
  | 2 => n.duplex.plost
  | 3 => qual n != 0
  | 4 => decide (n.rec_.store = .mram)
  | 5 => !n.power.aOk
  | 6 => !n.power.bOk
  | 7 => !mpRun n
  | _ => false

/-- ACQ_STALE of an entry: stale or disabled. -/
def peerStale (n : Node) (e : Nat) : Bool := (peerOf n e).stale || !bit (peerCfg n e) 31

/-- The value an input reference reads; `was` holds the points of the frame before. -/
def readRef (was : Tbl Point) (n : Node) (r : Nat) : Bool :=
  let i := inIndex r
  match inClass r with
  | 1 => (pointOf n i).cond
  | 2 => (resOf n i).val == 1
  | 3 => (groupOf n i).suppressing
  | 4 => nodeFlag n i
  | 5 => peerStale n i
  | 6 => (tget {} was i).active
  | _ => false

/-- The operation of a derived point on its used inputs. -/
def derRaw (op k : Nat) (vs : List Bool) : Bool :=
  let c := (vs.filter id).length
  match op with
  | 0 => vs.all id
  | 1 => vs.any id
  | 2 => decide (k ≤ c)
  | _ => c % 2 == 1

def evalDerived (was : Tbl Point) (n : Node) (k : Nat) : Node :=
  let j := k - 4096
  let w := derOp n j
  let used := (List.range 4).filter (fun i => inClass (derIn n j i) ≠ 0)
  let held := used.any (fun i => let r := derIn n j i; inClass r == 2 && !nbit (resOf n (inIndex r)).stat 0)
  if held then modPoint n k (fun p => { p with held := true })
  else
    let vs := used.map (fun i => readRef was n (derIn n j i) ^^ bit w (4 + i))
    let raw := derRaw (fld w 2 0) (fld w 10 8) vs
    modPoint n k (fun p => delays { p with held := false, raw := raw } (ptOn n k) (ptOff n k) n.sampleT)

/-- CFG_ERR of a point, by the fields and the configuration in effect, whether it is enabled or not (R175). A point of which
neither has changed since the reset keeps its Reset value (DEDUCED, log entry 94). -/
def checkPt (listed : List Nat) (n : Node) (k : Nat) : Node :=
  let e := if listed.contains k || (pointOf n k).checked then cfgErrOf n k else 0
  let was := (pointOf n k).cfgErr
  let n := if e = was then n else modPoint n k (fun p => { p with cfgErr := e })
  if e ≠ 0 ∧ was = 0 then raiseCfgErr n k else n

/-- CFG_ERR and DISABLED of a point in a frame (R175). -/
def settlePt (listed : List Nat) (n : Node) (k : Nat) : Node :=
  let n := checkPt listed n k
  if (pointOf n k).cfgErr ≠ 0 ∨ !ptEn n k then (if (pointOf n k).disabled then n else disablePt n k)
  else modPoint n k (fun p => { p with disabled := false })

/-- One point in steps 2 and 3. -/
def evalCond (was : Tbl Point) (listed : List Nat) (n : Node) (k : Nat) : Node :=
  let n := settlePt listed n k
  if (pointOf n k).disabled then n else if k < 4096 then evalSlot n k else evalDerived was n k

/-! Step 4: suppression (R181, R182) -/

/-- The source of a group cannot be read. -/
def srcUnreadable (n : Node) (r : Nat) : Bool :=
  inClass r == 2 && (!isDi n (inIndex r) || !nbit (resOf n (inIndex r)).stat 0)

/-- The group's counts after a frame with its source, where it was readable. -/
def suppressNext (g : AlmGroup) (src : Option Bool) (rel : Nat) : AlmGroup :=
  match src with
  | none => if g.fresh then { g with suppressing := false, passed := none } else { g with passed := g.passed.map (· + 1) }
  | some true => { g with suppressing := true, passed := some 0, fresh := false }
  | some false =>
    let p := if g.fresh then none else g.passed.map (· + 1)
    { g with passed := p, fresh := false, suppressing := match p with | some c => decide (c < rel) | none => false }

/-- One group, its source read in `b`, the node before any group of the frame (Table 08.5, class 3). DESIGN CHOICE (log entry
94): a group is no reader with a number, and reads COND of a derived point in frame k. -/
def evalGroup (was : Tbl Point) (b : Node) (n : Node) (g : Nat) : Node :=
  let w := grpReg n g 0x64
  let old := (groupOf n g).suppressing
  let n := modGroup n g (fun x =>
    if bit w 31 then
      let r := fld w 15 0
      suppressNext x (if srcUnreadable b r then none else some (readRef was b r ^^ bit w 29)) (fld (grpReg n g 0x68) 23 0)
    else { x with suppressing := false, passed := none, fresh := false })
  if (groupOf n g).suppressing = old then n else raiseR n 9 3

/-- The group whose ALM_G_CFG lies at a key. -/
def groupOfKey (key : Nat) : Option Nat := if key % 1048576 = 0x9064 then some (key / 1048576) else none

/-- CFG_ERR of points is judged afresh from here on (R175). -/
def recheck (n : Node) (ks : List Nat) : Node := ks.foldl (fun n k => modPoint n k (fun p => { p with checked := true })) n

/-- What a changed window field starts afresh: CFG_ERR of its point (R175), the window of a ROC slot by its DEF (R172), a
group's suppression by its ALM_G_CFG, FO_AUTO apart (R181). -/
def almParam (n : Node) (key : Nat) (old new : Word) : Node :=
  let n := if old = new then n else recheck n (fieldPoint key).toList
  let n := match pointOfKey key with
    | some k => if k < 4096 ∧ old ≠ new then modPoint n k (fun p => { p with roc := [] }) else n
    | none => n
  match groupOfKey key with
  | some g => if (old ^^^ new) &&& 0xBFFFFFFF = 0 then n else modGroup n g (fun x => { x with fresh := true })
  | none => n

/-- Groups that are configured or hold a state, ascending. -/
def knownGroups (n : Node) : List Nat :=
  (n.regs.filterMap (fun e => groupOfKey e.1)).foldl (fun l g => insertNat g l) (keys n.groups)

/-! Step 5: ACTIVE, STATE, timers (R174, R182 to R187) -/

/-- Ages and transfer counts run on the states of the frame before (09 R200, R206). -/
def runAges (p : Point) : Point :=
  if p.state = .actUnack ∨ p.state = .actSilenced then { p with age := p.age + 1 }
  else if p.state = .actTransferred then
    { p with age := if p.again then p.age + 1 else p.age, xfr := if p.xfrNew then p.xfr else p.xfr + 1, xfrNew := false }
  else p

/-- ACTIVE with suppression; TIME at a rise (R174). -/
def evalActive (n : Node) (k : Nat) : Node :=
  let p := pointOf n k
  let sup := (groupOf n (ptGroup n k)).suppressing
  let act := p.cond && !sup
  let endSup := if p.supp && !sup then some n.sampleT else p.suppEnd
  let rise := act && !p.active
  let n := if p.supp = sup then n else markChange n k
  let q := qual n
  let n := modPoint n k (fun p => { p with
    supp := sup, suppEnd := endSup, active := act,
    time := if rise then max p.runStart (endSup.getD 0) else p.time, qual := if rise then q else p.qual })
  if rise then raiseActive n k else n

/-- STATE after ACTIVE (R183, R184, R187). -/
def evalState (n : Node) (k : Nat) (was : Bool) : Node :=
  let p := pointOf n k
  if follows184 n k then setState n k (if p.active then .actAck else .normal) 1 255
  else if p.active && !was then
    modPoint (setState n k (nextAlert p.state .rises) 1 255) k (fun p => { p with age := 0 })
  else if !p.active && was then setState n k (nextAlert p.state .falls) 1 255
  else n

/-- The silence timer and shelving, in frames. -/
def silenceStep (n : Node) (k : Nat) : Node :=
  let p := pointOf n k
  if p.state = .actSilenced then
    let n := modPoint n k (fun p => { p with silLeft := p.silLeft - 1 })
    if p.silLeft ≤ 1 then setState n k .actUnack 1 255 else n
  else n

/-- Shelving ends by expiry: SHELVE_EXP (R187, Table 08.13). -/
def expireShelf (n : Node) (k : Nat) : Node :=
  let n := endShelf n k 255
  raiseR (modPoint n k (fun p => { p with expiredAt := some n.sampleT })) 9 4

def shelveStep (n : Node) (k : Nat) : Node :=
  let p := pointOf n k
  if p.shelved then
    let n := modPoint n k (fun p => { p with shelLeft := p.shelLeft - 1 })
    if p.shelLeft ≤ 1 then expireShelf n k else n
  else n

/-- SUPP of a DISABLED point: its group's state (R181). -/
def evalSupp (n : Node) (k : Nat) : Node :=
  let p := pointOf n k
  let sup := (groupOf n (ptGroup n k)).suppressing
  if p.supp = sup then n
  else modPoint (markChange n k) k (fun p => { p with supp := sup, suppEnd := if sup then p.suppEnd else some n.sampleT })

/-- One point in step 5. -/
def evalAlert (n : Node) (k : Nat) : Node :=
  let p := pointOf n k
  if p.disabled then shelveStep (evalSupp n k) k
  else
    let n := modPoint n k runAges
    let n := evalActive n k
    let n := evalState n k p.active
    shelveStep (silenceStep n k) k

/-! Step 6: first-out (R190 to R193) -/

/-- Order of candidates: quality class, TIME, point, node. -/
def foKey (c : FirstOut) : List Nat := [if c.qual ≤ 1 then 0 else 1, c.time, c.point, c.node]
def lexLt : List Nat → List Nat → Bool
  | [], _ => false
  | _ :: _, [] => false
  | a :: r, b :: q => if a < b then true else if b < a then false else lexLt r q

/-- A candidate of a group: discarded where earlier than T_R; it replaces a first-out of a greater key. The change itself
is told once a frame, by `foChanged`. -/
def candidate (n : Node) (g : Nat) (c : FirstOut) : Node :=
  let x := groupOf n g
  if c.time < x.reset then n
  else
    let n := modGroup n g (fun x => { x with uncert := x.uncert || c.qual != 0 })
    let better := match x.fo with | some f => lexLt (foKey c) (foKey f) | none => true
    if better then modGroup n g (fun x => { x with fo := some c, stable := false, since := some 0 }) else n

/-- FO_CHG and the record of a group whose first-out the frame changed; OLD and NEW are VALID. -/
def foChanged (before : Tbl AlmGroup) (n : Node) (g : Nat) : Node :=
  match (groupOf n g).fo with
  | some c => raiseR (note n (recAlarm n 4 g (b2n (tget {} before g).fo.isSome) 1 255 c.qual c.time)) 9 2
  | none => n

/-- A reset of first-out (R193), at the S of a frame; the record tells of a first-out that it clears. -/
def foReset (n : Node) (g source s : Nat) : Node :=
  let had := (groupOf n g).fo.isSome
  let n := modGroup n g (fun x => { x with reset := s, fo := none, stable := false, uncert := false, since := none })
  let n := if had then note n (recAlarm n 5 g 1 0 source (qual n) 0) else n
  raiseR n 9 2

/-- Members of a group among the listed points. -/
def membersOf (n : Node) (g : Nat) : List Nat := (keys n.points).filter (fun k => ptGroup n k == g)
def groupNormal (n : Node) (g : Nat) : Bool := (membersOf n g).all (fun k => (pointOf n k).state == .normal)

/-- Counts, STABLE and the automatic reset of a group. -/
def foStep (n : Node) (changed : List Nat) (g : Nat) : Node :=
  let x := groupOf n g
  let n := modGroup n g (fun x => { x with since := if changed.contains g then x.since else x.since.map (· + 1) })
  let win := fld (reg n (at_ 9 0x40)) 27 16
  let due : Bool := match (groupOf n g).since with | some c => decide (win ≤ c) | none => false
  let n := if due && !x.stable then raiseR (modGroup n g (fun x => { x with stable := true })) 9 1 else n
  let all := groupNormal n g
  let n := if bit (grpReg n g 0x64) 30 && all && !x.allNormal then foReset n g 255 n.sampleT else n
  modGroup n g (fun x => { x with allNormal := all })

/-- Groups linked to a remote group (R192). -/
def linkedGroups (n : Node) (src grp : Nat) : List Nat :=
  n.regs.filterMap (fun e =>
    if e.1 % 1048576 = 0x906C ∧ bit e.2 31 ∧ fld e.2 23 16 = src ∧ fld e.2 7 0 = grp then some (e.1 / 1048576) else none)

/-- Step 6 of the frame: local candidates of the points whose ACTIVE rose, remote ones tagged before this frame. -/
def evalFirstOut (n : Node) (risen : List Nat) : Node :=
  let before := n.groups
  let n := risen.foldl (fun n k =>
    let p := pointOf n k
    candidate n (ptGroup n k) { qual := qual n, time := p.time, point := k, node := msgAddr n, remote := false }) n
  let due := n.remoteFos.filter (fun r => r.tag < n.frame)
  let n := { n with remoteFos := n.remoteFos.filter (fun r => n.frame ≤ r.tag) }
  let n := due.foldl (fun n r => (linkedGroups n r.cand.node r.srcGroup).foldl (fun n g => candidate n g r.cand) n) n
  let gs := (keys n.points).foldl (fun l k => insertNat (ptGroup n k) l) (keys n.groups)
  let changed := gs.filter (fun g => decide ((tget {} before g).fo ≠ (groupOf n g).fo))
  let n := changed.foldl (foChanged before) n
  gs.foldl (fun n g => foStep n changed g) n

/-- The counts of the ALM page. -/
def countAlarms (n : Node) : Node :=
  let ps := n.points.map Prod.snd
  let cnt := fun (f : Point → Bool) => (ps.filter f).length
  { n with almCnt := { n.almCnt with
      active := cnt (·.active), unack := cnt (fun p => unacked p.state), shelved := cnt (·.shelved), supp := cnt (·.supp) } }

/-- Captures that a point triggers (15 R355). -/
def pointTriggers (n : Node) (k : Nat) : Node :=
  (List.range 8).foldl (fun n d =>
    if fld (capCfg n d) 25 24 = 1 ∧ fld (capCfg n d) 20 8 = k then triggerCap n d 1 (pointOf n k).time else n) n

/-- Points with fields or a state, ascending. -/
def knownPts (n : Node) : List Nat := (listedPts n).foldl (fun l k => insertNat k l) (keys n.points)

/-- A frame that evaluates no point still shows CFG_ERR and DISABLED (R175). -/
def checkPts (n : Node) : Node := (knownPts n).foldl (settlePt (listedPts n)) n

/-- Points that the suppression of their group concerns (R181): every point not known stands in group 0. -/
def suppPts (n : Node) (known : List Nat) : List Nat := if (groupOf n 0).suppressing then List.range 5120 else known

/-- Steps 2 to 6 of a frame (08 Table 08.1). -/
def evalAlarms (n : Node) : Node :=
  let pts := knownPts n
  let was := n.points
  let n := pts.foldl (evalCond was (listedPts n)) n
  let n := (knownGroups n).foldl (evalGroup was n) n
  let n := (suppPts n pts).foldl evalAlert n
  let risen := pts.filter (fun k => (pointOf n k).active && !(tget {} was k).active)
  countAlarms (evalFirstOut (risen.foldl pointTriggers n) risen)

/-- One point on entry to STANDBY: NORMAL, with the record of the change (R189). -/
def quietPoint (n : Node) (k : Nat) : Node :=
  modPoint (setState n k .normal 1 255) k (fun p => { p with
    raw := false, cond := false, active := false, held := false, onCnt := 0, offCnt := 0, silLeft := 0,
    roc := [], age := 0, xfr := 0, again := false })

/-- INIT and STANDBY: no point is evaluated; TIME, first-out data, shelving and what groups suppress stay (R168, R187). -/
def quietPoints (n : Node) : Node := countAlarms ((keys n.points).foldl quietPoint n)

/-! What the module without the output claim takes from the holder (R188): its pages and records tell of the changes -/

/-- One point as the holder has it. The source of a change is not exchanged: the records name the node (log entry 95). -/
def adoptPoint (new : Tbl Point) (n : Node) (k : Nat) : Node :=
  let a := pointOf n k
  let b := tget {} new k
  let rec_ := fun (n : Node) (e x y : Nat) => note n (recAlarm n e k x y 255 (qual n) b.time)
  let n := if a.shelved = b.shelved then n else rec_ n (if b.shelved then 2 else 3) (b2n a.shelved) (b2n b.shelved)
  let n := if a.state = b.state then n
    else raiseState (rec_ n (if b.disabled && !a.disabled then 12 else 1) (stateOf a.state) (stateOf b.state)) k
  let n := raiseRIf (b.expiredAt.isSome && decide (b.expiredAt ≠ a.expiredAt)) n 9 4
  let n := raiseRIf (b.remoteAt.isSome && decide (b.remoteAt ≠ a.remoteAt)) n 9 5
  let n := if b.active && !a.active then raiseActive n k else n
  if b.cfgErr ≠ 0 ∧ a.cfgErr = 0 then raiseCfgErr n k else n

/-- One group as the holder has it. -/
def adoptGroup (new : Tbl AlmGroup) (n : Node) (g : Nat) : Node :=
  let a := groupOf n g
  let b := tget {} new g
  let n := raiseRIf (a.suppressing != b.suppressing) n 9 3
  let n := raiseRIf (b.stable && !a.stable) n 9 1
  let n := if b.reset = a.reset then n
    else raiseR (if a.fo.isSome then note n (recAlarm n 5 g 1 0 255 (qual n) 0) else n) 9 2
  match b.fo with
  | some c => if a.fo = b.fo then n else raiseR (note n (recAlarm n 4 g (b2n a.fo.isSome) 1 255 c.qual c.time)) 9 2
  | none => n

/-- Points, groups and counts of the holder. -/
def adoptAlarms (n : Node) (points : Tbl Point) (groups : Tbl AlmGroup) (fos : List RemoteFo) : Node :=
  let ks := (keys points).foldl (fun l k => insertNat k l) (keys n.points)
  let gs := (keys groups).foldl (fun l k => insertNat k l) (keys n.groups)
  let risen := ks.filter (fun k => (tget {} points k).active && !(pointOf n k).active)
  let n := gs.foldl (adoptGroup groups) (ks.foldl (adoptPoint points) n)
  countAlarms (risen.foldl pointTriggers { n with points := points, groups := groups, remoteFos := fos })

/-! Commands (R185 to R187) -/

/-- Points a command names: one, the members of a group, all. -/
def targets (n : Node) (tgt index : Nat) : List Nat :=
  let en := (keys n.points).filter (fun k => !(pointOf n k).disabled)
  match tgt with
  | 0 => if en.contains index then [index] else []
  | 1 => en.filter (fun k => ptGroup n k == index)
  | _ => en

/-- Points that SHELVE and UNSHELVE name: DISABLED ones as well (R187). -/
def shelfTargets (n : Node) (tgt index : Nat) : List Nat :=
  match tgt with
  | 0 => [index]
  | 1 => (knownPts n).filter (fun k => ptGroup n k == index)
  | _ => knownPts n

/-- How many of a list of points differ in STATE or SHELVED. -/
def changedPts (a b : Node) (ks : List Nat) : Nat :=
  (ks.filter (fun k => decide ((pointOf a k).state ≠ (pointOf b k).state) || (pointOf a k).shelved != (pointOf b k).shelved)).length

/-- An event on several points, and how many changed. -/
def commandAll (n : Node) (ks : List Nat) (e : AlmEvent) (source : Nat) : Node × Nat :=
  let m := ks.foldl (fun n k => command n k e source) n
  (m, changedPts n m ks)

/-- What a CAN or bridge command has made of the points it names: REMOTE_CMD where it has changed one (Table 08.13). -/
def byRemote (was : Node) (ks : List Nat) (r : Node × Nat) : Node :=
  if r.2 = 0 then r.1
  else raiseR (ks.foldl (fun n k => if (pointOf n k).state = (pointOf was k).state then n
    else modPoint n k (fun p => { p with remoteAt := some n.sampleT })) r.1) 9 5

/-- A TRANSFER that takes points (09 R205): ACC_SRC, ACC_VALID, ACCEPT, a record naming the source. -/
def transferAll (n : Node) (ks : List Nat) (source : Nat) : Node × Nat :=
  let r := commandAll n ks .transfer source
  if r.2 = 0 then r
  else
    let n := { r.1 with call := { r.1.call with accSrc := source, accValid := true } }
    let n := note n (recAlarm n 8 0 0 source source (qual n) 0)
    (raiseR n 7 6, r.2)

/-- Eligible for shelving (R187). -/
def eligible (n : Node) (k : Nat) : Bool := ptPrio n k != 3 && bit (ptAttr n k) 16

/-- SHELVE of one eligible point for a number of frames. -/
def shelvePt (frames : Nat) (n : Node) (k : Nat) : Node :=
  let p := pointOf n k
  let n := modPoint n k (fun p => { p with shelved := true, shelLeft := frames + 1 })
  let n := if p.shelved then n else markChange (note n (recAlarm n 2 k 0 1 31 (qual n) p.time)) k
  if p.active then setState n k .actAck 1 31 else if p.state = .rectUnack then setState n k .normal 1 31 else n

/-- Minutes of a SHELVE: ARG, or SHELVE_MAX where it is 0. -/
def shelveMax (n : Node) : Nat := fld (reg n (at_ 9 0x40)) 11 0
def almArg (n : Node) : Nat := (reg n (at_ 9 0x4C)).toNat
def shelveFrames (n : Node) (arg : Nat) : Nat :=
  let m := if arg = 0 then shelveMax n else arg
  m * 60000000000 / n.period

/-- What ALM_CMD_CNT takes at the command's end. -/
def setAlmCnt (n : Node) (c : Nat) : Node := { n with almCnt := { n.almCnt with next := some c } }

/-- The command ends. -/
def endAlmCmd (n : Node) : Node :=
  { n with almCnt := { n.almCnt with cmdCnt := n.almCnt.next.getD n.almCnt.cmdCnt, next := none } }

/-- Groups a FO_RESET names. -/
def foTargets (tgt index : Nat) : List Nat := if tgt = 1 then [index] else List.range 256

/-- The command's effect at its boundary (R186, 02 R45): it ends DONE, but for a SHELVE of a single point that R187 forbids. -/
def almEff (op tgt index arg : Nat) (n : Node) : Node × Option Bool :=
  let ks := targets n tgt index
  let fin := fun (r : Node × Nat) => (setAlmCnt r.1 r.2, some true)
  match op with
  | 1 => fin (commandAll n ks .ack 31)
  | 2 => fin (commandAll n ks .silence 31)
  | 3 =>
    let es := (shelfTargets n tgt index).filter (eligible n)
    if tgt = 0 ∧ es = [] then (setAlmCnt n 0, some false)
    else
      let m := es.foldl (shelvePt (shelveFrames n arg)) n
      (setAlmCnt m (changedPts n m es), some true)
  | 4 =>
    let ks := shelfTargets n tgt index
    let m := ks.foldl (fun n k => endShelf n k 31) n
    (setAlmCnt m (changedPts n m ks), some true)
  | 5 =>
    let gs := foTargets tgt index
    let had := (gs.filter (fun g => (groupOf n g).fo.isSome)).length
    (setAlmCnt (gs.foldl (fun m g => foReset m g 31 n.sampleT) n) had, some true)
  | _ => fin (transferAll n ks arg)

/-- The check of ALM_CMD (R179, R186, R187, R188, 09 R205). -/
def almCheck (n : Node) (path : Nat) (v : Word) : CmdCheck :=
  let op := fld v 3 0
  let tgt := fld v 5 4
  let index := fld v 28 16
  { code := decide (1 ≤ op ∧ op ≤ 6), state := operational n && holder n, level := levelOk n path 1,
    value := decide (tgt ≤ 2) && (tgt != 0 || decide (index ≤ 5119)) && (tgt != 1 || decide (index ≤ 255)) &&
      !(op == 5 && tgt == 0) && (op != 3 || decide (almArg n ≤ shelveMax n)) &&
      (op != 6 || decide (almArg n ≤ 15) || almArg n == 31) }

def almWord (op tgt index : Nat) : Word := pack [(index, 16, 13), (tgt, 4, 2), (op, 0, 4)]

/-- A write of ALM_CMD on a path. -/
def almCmdWrite (n : Node) (path : Nat) (v : Word) : Node :=
  runCommand n path 9 (at_ 9 0x48) v (almCheck n path v) (defer 9 (.alm (fld v 3 0) (fld v 5 4) (fld v 28 16) (almArg n)))

/-! Expiries: what the next evaluation does as well, where it is due -/

/-- COND follows a delay that a count has passed; a held point keeps it (R170). -/
def onDelayExpire (n : Node) (k : Nat) : Node :=
  modPoint n k (fun p =>
    if !p.disabled && !p.held && p.raw && !p.cond && decide (ptOn n k < p.onCnt) then { p with cond := true, offCnt := 0 } else p)
def offDelayExpire (n : Node) (k : Nat) : Node :=
  modPoint n k (fun p =>
    if !p.disabled && !p.held && !p.raw && p.cond && decide (ptOff n k < p.offCnt) then { p with cond := false, onCnt := 0 } else p)

/-- A group whose release has run out stops suppressing, where its source is readable (R181). -/
def releaseExpire (n : Node) (g : Nat) : Node :=
  let x := groupOf n g
  let out : Bool := match x.passed with | some c => decide (0 < c ∧ fld (grpReg n g 0x68) 23 0 ≤ c) | none => false
  if x.suppressing && out && !srcUnreadable n (fld (grpReg n g 0x64) 15 0) then
    raiseR (modGroup n g (fun x => { x with suppressing := false })) 9 3
  else n

def silenceExpire (n : Node) (k : Nat) : Node :=
  let p := pointOf n k
  if p.state = .actSilenced ∧ p.silLeft = 0 then setState n k .actUnack 1 255 else n
def shelveExpire (n : Node) (k : Nat) : Node :=
  let p := pointOf n k
  if p.shelved ∧ p.shelLeft = 0 then expireShelf n k else n
def foStable (n : Node) (g : Nat) : Node :=
  let x := groupOf n g
  let due : Bool := match x.since with | some c => decide (fld (reg n (at_ 9 0x40)) 27 16 ≤ c) | none => false
  if due && !x.stable then raiseR (modGroup n g (fun x => { x with stable := true })) 9 1 else n

/-- An event of the alarm engine, in the module that evaluates it and in the states that do. -/
def onEngine (s : State) (t : Nat) (f : Node → Node) : State :=
  onNode s t (fun n => if operational n && !follows n then f n else n)

/-! Meanings -/

def execAlmAck (t tgt index : Nat) (s : State) : Host.Outcome State Fault Refusal :=
  .next (onNode s t (fun n => almCmdWrite n hostPath (almWord 1 tgt index)))
def execAlmSilence (t tgt index : Nat) (s : State) : Host.Outcome State Fault Refusal :=
  .next (onNode s t (fun n => almCmdWrite n hostPath (almWord 2 tgt index)))
def execAlmShelve (t tgt index : Nat) (s : State) : Host.Outcome State Fault Refusal :=
  .next (onNode s t (fun n => almCmdWrite n hostPath (almWord 3 tgt index)))
def execAlmUnshelve (t tgt index : Nat) (s : State) : Host.Outcome State Fault Refusal :=
  .next (onNode s t (fun n => almCmdWrite n hostPath (almWord 4 tgt index)))
def execAlmFoReset (t tgt index : Nat) (s : State) : Host.Outcome State Fault Refusal :=
  .next (onNode s t (fun n => almCmdWrite n hostPath (almWord 5 tgt index)))
def execAlmTransfer (t tgt index : Nat) (s : State) : Host.Outcome State Fault Refusal :=
  .next (onNode s t (fun n => almCmdWrite n hostPath (almWord 6 tgt index)))
def execOnDelayExpire (t point : Nat) (s : State) : Host.Outcome State Fault Refusal :=
  .next (onEngine s t (fun n => onDelayExpire n point))
def execOffDelayExpire (t point : Nat) (s : State) : Host.Outcome State Fault Refusal :=
  .next (onEngine s t (fun n => offDelayExpire n point))
def execReleaseExpire (t group : Nat) (s : State) : Host.Outcome State Fault Refusal :=
  .next (onEngine s t (fun n => releaseExpire n group))
def execSilenceTimerExpire (t point : Nat) (s : State) : Host.Outcome State Fault Refusal :=
  .next (onEngine s t (fun n => silenceExpire n point))
def execShelveExpire (t point : Nat) (s : State) : Host.Outcome State Fault Refusal :=
  .next (onEngine s t (fun n => shelveExpire n point))
def execFoStable (t group : Nat) (s : State) : Host.Outcome State Fault Refusal :=
  .next (onEngine s t (fun n => foStable n group))

end Sys2Proof.Machine
end

