-- ==== Sys2Proof/Machine/Messages.lean ====
section
/-! DEFINITION. The node message layer on CAN (14 R324 to R334), time sync (03 R82), results exchanged between nodes
(05 R120 to R124) and remote commands (08 R185). -/

namespace Sys2Proof.Machine

/-- A received message this module takes (14 R324, R325, R327): by a controller on the bus (13 R307, R313), its own address
discarded. -/
def accepts (n : Node) (h : MsgHead) : Bool := nodeLayer n h.ctrl && canSends (canOf n h.ctrl) && decide (h.src < 254) && decide (h.src ≠ msgAddr n)

/-- A message of this module. -/
def ownMsg (n : Node) (cls typ sub retry : Nat) (data : List Byte) : NodeMsg :=
  { cls := cls, typ := typ, sub := sub, src := msgAddr n, retry := retry, data := data }

/-! Time sync (14 R328, 03 R62, R82) -/

/-- TB_CAN_CFG.TX_MASK. -/
def syncMask (n : Node) : Nat := fld (reg n (at_ 1 0x70)) 23 0

/-- Time master of the CAN buses (03 R82); none once CK_TB has failed (03 R69). -/
def timeMaster (n : Node) : Bool :=
  n.tb.ckFail.isNone && decide (n.tb.state = .locked) && (n.tb.sel == some .ptp || n.tb.sel == some .pps) && syncMask n != 0 && timeHolder n

/-- TB_CTRL.SYNC_INT has passed since the last SYNC (03 R82). -/
def syncDue (n : Node) : Bool :=
  match n.tb.syncAt with
  | some t => decide (t + syncInterval (fld (reg n (at_ 1 0x7C)) 27 25) ≤ n.now)
  | none => true

/-- SYNC_SEND: one SYNC on each controller of TX_MASK; the sequence advances. -/
def syncSend (n : Node) : Node :=
  if timeMaster n && syncDue n then
    let q := n.tb.syncSeq
    let data := [byteOf (qual n), byteOf (fld (reg n (at_ 1 0x7C)) 27 25)] ++ List.replicate 6 0
    let n := (members (syncMask n) 24).foldl (fun n c =>
      if nodeLayer n c then
        queueMsg (modTb n (fun t => { t with sent := tset none t.sent c (some (q, none)) })) c (ownMsg n 0 1 q 0 data)
      else n) n
    modTb n (fun t => { t with syncSeq := (q + 1) % 1024, syncAt := some n.now })
  else n

/-- FOLLOW_SEND: once the SYNC has completed with an acknowledgement, with the node time of its start of frame. -/
def followSend (n : Node) (c : Nat) : Node :=
  match if n.tb.ckFail.isNone then tget none n.tb.sent c else none with
  | some (q, some tai) =>
    let n := modTb n (fun t => { t with sent := tset none t.sent c none })
    queueMsg n c (ownMsg n 0 2 q 3 (bytesLE 8 tai ++ [byteOf (qual n), 0, 0, 0]))
  | _ => n

/-- CAN_SYNC_RECEIVED: the start-of-frame stamp is kept for the FOLLOW. -/
def syncReceived (n : Node) (h : MsgHead) (seq sof q int : Nat) : Node :=
  if accepts n h && n.tb.ckFail.isNone then takeSync n h.ctrl h.src seq sof q int else n

/-- CAN_FOLLOW_RECEIVED (03 R62, R66). -/
def followReceived (n : Node) (h : MsgHead) (seq tai : Nat) : Node :=
  if accepts n h then canPair n h.ctrl h.src seq tai else n

/-! Heartbeat (14 R329) -/

/-- Code of the watch (09 Table 09.2). -/
def watchCode : Watch → Nat
  | .off => 0
  | .running => 1
  | .prewarn => 2
  | .alarm => 3

/-- HEARTBEAT data (14 Table 14.3). -/
def heartbeatData (n : Node) : List Byte :=
  bytesLE 8 n.sampleT ++
  [byteOf (nodeCode n),
   byteOf (packN [(n.laneSt.state, 0, 2), (qual n, 2, 2), (b2n (paired n), 4, 1), (b2n (decide (n.rec_.store = .mram)), 5, 1),
     (b2n n.duplex.plost, 6, 1)]),
   byteOf (packN [(n.call.stage, 0, 2), (n.call.floor, 2, 2), (watchCode n.call.watch, 4, 3)]),
   0] ++ bytesLE 2 n.almCnt.unack ++ bytesLE 2 n.net.almSeq

/-- CAN_HEARTBEAT_SEND: in each frame k with k mod round(10^9 / F) = 0, by the holder of the output claim. -/
def heartbeatSend (n : Node) : Node :=
  if holder n && decide (n.frame % framesPerSec n = 0) then queueOn n 0xFFFFFF (ownMsg n 2 0x10 0 0 (heartbeatData n)) else n

/-! Alarm messages (14 R330) -/

/-- ALARM data (14 Table 14.4). -/
def alarmData (n : Node) (k : Nat) (refresh : Bool) (seq : Nat) : List Byte :=
  let p := pointOf n k
  bytesLE 2 k ++
  [byteOf (ptGroup n k),
   byteOf (packN [(stateOf p.state, 0, 3), (b2n p.active, 3, 1), (b2n p.supp, 4, 1), (b2n p.shelved, 5, 1), (ptPrio n k, 6, 2)])] ++
  bytesLE 8 p.time ++
  [byteOf (packN [(p.qual, 0, 2), (if k < 4096 then ptType n k else 8, 2, 4)]),
   byteOf (packN [(b2n refresh, 0, 1), (b2n p.cond, 1, 1), (b2n p.held, 2, 1)])] ++ bytesLE 2 seq

/-- ALM_CAN. -/
def almMask (n : Node) : Nat := fld (reg n (at_ 9 0x44)) 23 0

/-- Identifier SUB of a point's messages. -/
def alarmSub (n : Node) (k : Nat) : Nat := ptPrio n k * 256 + ptGroup n k

/-- One change: SEQ rises. -/
def sendAlarm (n : Node) (k : Nat) : Node :=
  let q := (n.net.almSeq + 1) % 65536
  let n := { n with net := { n.net with almSeq := q } }
  queueOn n (almMask n) (ownMsg n (if 2 ≤ ptPrio n k then 1 else 4) 0x20 (alarmSub n k) 15 (alarmData n k false q))

/-- The changes of the frame, in point order, after its vote; in a pair by the holder alone (08 R189). -/
def sendAlarms (n : Node) : Node :=
  let ks := n.net.almChanges
  let n := { n with net := { n.net with almChanges := [] } }
  if holder n then ks.foldl sendAlarm n else n

/-- One refresh, at class 6. -/
def sendRefresh (n : Node) (k : Nat) : Node :=
  queueOn n (almMask n) (ownMsg n 6 0x20 (alarmSub n k) 0 (alarmData n k true n.net.almSeq))

/-- Points to refresh from a number on. -/
def refreshPts (n : Node) : List Nat :=
  (keys n.points).filter (fun k => let p := pointOf n k; (p.state != .normal || p.shelved) && decide (n.net.refCursor ≤ k))

/-- ALARM_REFRESH: a round begins 10 s after the last; at most 50 refreshes a second, in point order. -/
def alarmRefresh (n : Node) : Node :=
  let due (a : Option Nat) (d : Nat) : Bool := match a with | some t => decide (t + d ≤ n.now) | none => true
  if !holder n || !operational n then n
  else if !due n.net.refLast 1000000000 || (n.net.refCursor == 0 && !due n.net.refStart 10000000000) then n
  else
    let start := if n.net.refCursor = 0 then some n.now else n.net.refStart
    let ks := refreshPts n
    let n := (ks.take 50).foldl sendRefresh n
    { n with net := { n.net with refStart := start, refLast := some n.now, refCursor := match ks.drop 50 with | k :: _ => k | [] => 0 } }

/-- Whether the last message of another node's point reported it ACTIVE. -/
def remoteKey (src point : Nat) : Nat := 8192 * src + point

/-- ALARM_MESSAGE_RECEIVED (08 R192): ACTIVE of the point is kept; its rise in a linked group waits for the next frame. A point
of which no message has come counts as not ACTIVE (DEDUCED, log entry 94). -/
def alarmReceived (n : Node) (h : MsgHead) (point group state time q : Nat) (active refresh : Bool) : Node :=
  if !accepts n h then n
  else
    let rose := active && !tget false n.remoteActs (remoteKey h.src point)
    let n := { n with remoteActs := tset false n.remoteActs (remoteKey h.src point) active }
    if holder n && rose && !refresh && (state == 1 || state == 3) && !(linkedGroups n h.src group).isEmpty then
      let c : FirstOut := { qual := q, time := time, point := point, node := h.src, remote := true }
      { n with remoteFos := n.remoteFos ++ [{ tag := n.frame, srcGroup := group, cand := c }] }
    else n

/-! Results between nodes (05 R120 to R122, 14 R331) -/

/-- Channels published, ascending. -/
def publishedChs (n : Node) : List Nat :=
  (List.range 16).flatMap (fun w => (members (reg n (at_ 2 (0x80 + 4 * w))).toNat 32).map (fun b => 32 * w + b))

/-- Lists of at most six. -/
def chunk6 (fuel : Nat) (l : List Nat) : List (List Nat) :=
  match fuel, l with
  | 0, _ => []
  | _, [] => []
  | f + 1, l => l.take 6 :: chunk6 f (l.drop 6)

/-- Entry of a channel. -/
def resultEntry (n : Node) (ch : Nat) : List Byte :=
  let r := resOf n ch
  bytesLE 2 ch ++ [byteOf r.stat, byteOf (sat 255 (r.dly.getD n.resHead.offDly))] ++ bytesI 4 r.val

/-- RESULT data (14 Table 14.5), filled to the smallest FD length. -/
def resultData (n : Node) (cs : List Nat) : List Byte :=
  let d := bytesLE 8 n.sampleT ++ bytesLE 4 n.period ++
    [byteOf (packN [(qual n, 0, 2), (n.laneSt.state, 2, 2)]), byteOf cs.length, 0, 0] ++ cs.flatMap (resultEntry n)
  padTo (dlcLen true (lenDlc d.length)) d

/-- The publication of a frame, after its vote (05 R120). -/
def publishResults (n : Node) : Node :=
  let w := reg n (at_ 2 0x44)
  let int := fld w 31 24
  if int = 0 ∨ !holder n ∨ n.frame % int ≠ 0 then n
  else
    ((chunk6 86 (publishedChs n)).zipIdx).foldl (fun n e => queueOn n (fld w 23 0) (ownMsg n 5 0x30 e.2 0 (resultData n e.1))) n

/-- Entries of ACQ_PEER_CFG that are enabled and name a source and channel. -/
def peerEntries (n : Node) (src ch : Nat) : List Nat :=
  (List.range 64).filter (fun e => let w := peerCfg n e; bit w 31 && fld w 7 0 == src && fld w 24 16 == ch)

/-- RESULT_MESSAGE_RECEIVED: tagged with the frame in which the reception ended (05 R121). -/
def resultReceived (n : Node) (h : MsgHead) (sample period q : Nat) (es : List ResultEntry) : Node :=
  if accepts n h then
    let es := (es.filter (fun e => !(peerEntries n h.src e.ch).isEmpty)).map (fun e =>
      ({ ch := e.ch, stat := e.stat, val := e.val, tai := sample - e.dly * period } : PeerEntry))
    if es.isEmpty then n
    else { n with peerMsgs := n.peerMsgs ++ [{ tag := n.frame, src := h.src, qual := q, entries := es }] }
  else n

/-- One received entry: only a later instant updates. -/
def updatePeer (q : Nat) (x : PeerEntry) (p : Peer) : Peer :=
  if !p.has || decide (p.tai < x.tai) then { p with val := x.val, stat := x.stat, qual := q, tai := x.tai, has := true } else p

/-- AGE at the S of the frame. DESIGN CHOICE (log entry 92): 0 where the carried instant is later than S, for which the formula of
05 R122 gives a negative number. -/
def ageOf (n : Node) (p : Peer) : Nat := if p.has then sat 65535 ((n.sampleT - p.tai) / n.period) else 65535

/-- AGE and staleness of an enabled entry (05 R122); PEER_STALE when it becomes stale. -/
def agePeer (n : Node) (e : Nat) : Node :=
  let w := peerCfg n e
  if bit w 31 then
    let p := peerOf n e
    let a := ageOf n p
    let st := !p.has || decide (fld w 15 8 < a)
    let n := modPeer n e (fun p => { p with age := a, stale := st })
    if st && !p.stale then raiseR n 2 2 else n
  else modPeer n e (fun p => { p with stale := true })

/-- Entries that are configured or hold a message. -/
def knownPeers (n : Node) : List Nat :=
  (n.regs.filterMap (fun e => if 0x2100 ≤ e.1 ∧ e.1 < 0x2200 then some ((e.1 - 0x2100) / 4) else none)).foldl (fun l k => insertNat k l) (keys n.peers)

/-- The peer entries of a frame (05 R121, R122): messages tagged before it. -/
def evalPeers (n : Node) : Node :=
  let due := n.peerMsgs.filter (fun m => m.tag < n.frame)
  let n := { n with peerMsgs := n.peerMsgs.filter (fun m => n.frame ≤ m.tag) }
  let n := due.foldl (fun n m => m.entries.foldl (fun n x =>
    (peerEntries n m.src x.ch).foldl (fun n e => modPeer n e (updatePeer m.qual x)) n) n) n
  (knownPeers n).foldl agePeer n

/-- ACQ_CMD OP 1 clears LATE (05 Table 05.10). -/
def acqCmdWrite (n : Node) (path : Nat) (v : Word) : Node :=
  runCommand n path 2 (at_ 2 0x50) v { code := fld v 1 0 == 1, state := inStates n 30, level := levelOk n path 1 }
    (defer 2 .acqClear)

/-! Remote commands (14 R334) -/

/-- TGT and INDEX are in range. -/
def rcmdRange (tgt index : Nat) : Bool :=
  decide (tgt ≤ 2) && (tgt != 0 || decide (index ≤ 5119)) && (tgt != 1 || decide (index ≤ 255))

/-- Points an RCMD acts on: for ACK those with ACK_CAN = 1 (08 Table 08.9). -/
def rcmdTargets (n : Node) (op tgt index : Nat) : List Nat :=
  (targets n tgt index).filter (fun k => op != 1 || bit (ptAttr n k) 17)

/-- RESULT, the node after it, and the number of points changed. -/
def rcmdApply (n : Node) (src op tgt index rseq : Nat) : Node × Nat × Nat :=
  if !rcmdRange tgt index then (n, 2, 0)
  else if op ≠ 1 ∧ op ≠ 2 then (n, 1, 0)
  else if op = 1 ∧ tgt = 0 ∧ !bit (ptAttr n index) 17 then (n, 1, 0)
  else if tget none n.net.rseqs src = some rseq then (n, 3, 0)
  else
    let n := { n with net := { n.net with rseqs := tset none n.net.rseqs src (some rseq) } }
    let ks := rcmdTargets n op tgt index
    let r := commandAll n ks (if op = 1 then .ack else .silence) 255
    (byRemote n ks r, 0, r.2)

/-- A remote command joins those that wait: by instant, then by order, then as received (08 R185). -/
def insertRemote (x : Remote) : List Remote → List Remote
  | [] => [x]
  | y :: r => if x.at_ < y.at_ ∨ (x.at_ = y.at_ ∧ x.order < y.order) then x :: y :: r else y :: insertRemote x r

def queueRemote (n : Node) (order : Nat) (a : RemoteAct) : Node :=
  { n with net := { n.net with remote := insertRemote { tag := n.frame, at_ := n.now, order := order, act := a } n.net.remote } }

/-- RCMD_ACK and RCMD_SILENCE: taken by the holder (R334). -/
def rcmd (n : Node) (h : MsgHead) (dest op tgt index rseq : Nat) : Node :=
  if accepts n h && holder n && (dest == msgAddr n || dest == 0xFE) then queueRemote n h.ctrl (.rcmd h.ctrl h.src dest op tgt index rseq)
  else n

/-- Its application, answered after the vote. -/
def rcmdEff (n : Node) (ctrl src op tgt index rseq : Nat) : Node :=
  let r := rcmdApply n src op tgt index rseq
  let y : Reply := { ctrl := ctrl, dest := src, result := r.2.1, op := op, index := index, rseq := rseq, changed := r.2.2 }
  { r.1 with net := { r.1.net with replies := r.1.net.replies ++ [y] } }

/-- RREPLY data. -/
def replyMsg (n : Node) (y : Reply) : NodeMsg :=
  ownMsg n 1 0x22 y.dest 3 ([byteOf y.result, byteOf y.op] ++ bytesLE 2 y.index ++ bytesLE 2 y.rseq ++ bytesLE 2 y.changed)

/-- The replies of the frame, after its vote. -/
def sendReplies (n : Node) : Node :=
  let ys := n.net.replies
  ys.foldl (fun n y => queueMsg n y.ctrl (replyMsg n y)) { n with net := { n.net with replies := [] } }

/-! Meanings -/

def execSyncSend (t : Nat) (s : State) : Host.Outcome State Fault Refusal := .next (onNode s t syncSend)
def execFollowSend (t ctrl : Nat) (s : State) : Host.Outcome State Fault Refusal :=
  .next (onNode s t (fun n => followSend n ctrl))
def execCanSyncReceived (t : Nat) (h : MsgHead) (seq sof : Nat) (q : SyncFlags) (s : State) : Host.Outcome State Fault Refusal :=
  .next (onNode s t (fun n => syncReceived n h seq sof q.qual q.int))
def execCanFollowReceived (t : Nat) (h : MsgHead) (seq tai _q : Nat) (s : State) : Host.Outcome State Fault Refusal :=
  .next (onNode s t (fun n => followReceived n h seq tai))
def execCanHeartbeatSend (t : Nat) (s : State) : Host.Outcome State Fault Refusal := .next (onNode s t heartbeatSend)
def execAlarmRefresh (t : Nat) (s : State) : Host.Outcome State Fault Refusal := .next (onNode s t alarmRefresh)
def execAlarmMessageReceived (t : Nat) (h : MsgHead) (point group state time q : Nat) (active refresh : Bool) (s : State) :
    Host.Outcome State Fault Refusal := .next (onNode s t (fun n => alarmReceived n h point group state time q active refresh))
def execResultMessageReceived (t : Nat) (h : MsgHead) (sample period q : Nat) (entries : List ResultEntry) (s : State) :
    Host.Outcome State Fault Refusal := .next (onNode s t (fun n => resultReceived n h sample period q entries))
def execPeerStale (t entry : Nat) (s : State) : Host.Outcome State Fault Refusal :=
  .next (onNode s t (fun n => if entry < 64 then agePeer n entry else n))
def execAcqCmdClear (t : Nat) (s : State) : Host.Outcome State Fault Refusal :=
  .next (onNode s t (fun n => acqCmdWrite n hostPath 1))
def execRcmdAck (t : Nat) (h : MsgHead) (dest tgt index rseq : Nat) (s : State) : Host.Outcome State Fault Refusal :=
  .next (onNode s t (fun n => rcmd n h dest 1 tgt index rseq))
def execRcmdSilence (t : Nat) (h : MsgHead) (dest tgt index rseq : Nat) (s : State) : Host.Outcome State Fault Refusal :=
  .next (onNode s t (fun n => rcmd n h dest 2 tgt index rseq))

end Sys2Proof.Machine
end

