-- ==== Sys2Proof/Machine/Call.lean ====
section
/-! DEFINITION. The duty engineer call: stations, ages and stages, transfer, duty engineer and watch (09). -/

namespace Sys2Proof.Machine

def modCall (n : Node) (f : Call → Call) : Node := { n with call := f n.call }

/-! Configuration (09 Table 09.3) -/

def callReg (n : Node) (o : Nat) : Word := reg n (at_ 7 o)
def callEn (n : Node) : Bool := bit (callReg n 0x40) 0
def dutyEng (n : Node) : Nat := fld (callReg n 0x58) 4 0
def stnCfg (n : Node) (k : Nat) : Word := callReg n (0x100 + 4 * k)
def stnEn (n : Node) (k : Nat) : Bool := bit (stnCfg n k) 31
def stnRole (n : Node) (k : Nat) : Nat := fld (stnCfg n k) 26 24
def stnCan (n : Node) (k : Nat) : Nat := fld (stnCfg n k) 20 16
def stnEng (n : Node) (k : Nat) : Nat := fld (stnCfg n k) 11 8
def stnAddr (n : Node) (k : Nat) : Nat := fld (stnCfg n k) 7 0
def stations (n : Node) : List Nat := (List.range 16).filter (stnEn n)

/-- ECR or MACH. -/
def isPanel (n : Node) (k : Nat) : Bool := decide (2 ≤ stnRole n k)

/-- The station is a cabin of the duty engineer. -/
def dutyCabin (n : Node) (k : Nat) : Bool := stnRole n k == 0 && stnEng n k == dutyEng n

/-- CALL_GRP of a group. -/
def grpCalls (n : Node) (g : Nat) : Bool := bit (callReg n (0x80 + 4 * (g / 32))) (g % 32)

/-- T2, T3 and the transfer limit in frames. -/
def callT2 (n : Node) : Nat := framesOf n (fld (callReg n 0x44) 15 0 * 1000000000)
def callT3 (n : Node) : Nat := framesOf n (fld (callReg n 0x48) 15 0 * 1000000000)
def callXfr (n : Node) : Nat := framesOf n (fld (callReg n 0x4C) 7 0 * 60000000000)
def watchT (n : Node) : Nat := framesOf n (fld (callReg n 0x50) 7 0 * 60000000000)
def watchP (n : Node) : Nat := framesOf n (fld (callReg n 0x50) 23 16 * 60000000000)

/-! Calling points and stages (R199, R200, R206) -/

/-- The point is calling. -/
def calling (n : Node) (k : Nat) : Bool :=
  let p := pointOf n k
  callEn n && grpCalls n (ptGroup n k) && ptPrio n k != 0 &&
  (p.state == .actUnack || p.state == .actSilenced || (p.state == .actTransferred && p.again))

def callingPts (n : Node) : List Nat := (keys n.points).filter (calling n)

/-- Start stage of a priority. -/
def startStage (n : Node) (k : Nat) : Nat :=
  let w := callReg n 0x40
  match ptPrio n k with
  | 1 => fld w 5 4
  | 2 => fld w 7 6
  | _ => fld w 9 8

/-- The point's own stage. -/
def pointStage (n : Node) (k : Nat) : Nat :=
  let a := (pointOf n k).age
  max (startStage n k) (1 + b2n (decide (callT2 n ≤ a)) + b2n (decide (callT3 n ≤ a)))

/-- The stage at which it calls: FLOOR raises it. -/
def effStage (n : Node) (k : Nat) : Nat := max n.call.floor (pointStage n k)

/-! Indications (R201, R202) -/

/-- A station indicates a point that calls at a stage (09 Table 09.1). -/
def inSet (n : Node) (k stage : Nat) : Bool :=
  decide (2 ≤ stage) || (decide (stage = 1) && (stnRole n k != 0 || dutyCabin n k))

/-- Points whose call a station indicates. -/
def heard (n : Node) (k : Nat) : List Nat := (callingPts n).filter (fun p => inSet n k (effStage n p))

/-- IND: 0 IDLE, 1 CALL, 2 MUTED, 3 WATCH_PRE. -/
def indication (n : Node) (k : Nat) : Nat :=
  let ps := heard n k
  if n.call.watch = .alarm ∨ ps.any (fun p => (pointOf n p).state != .actSilenced) then 1
  else if n.call.watch = .prewarn ∧ isPanel n k then 3
  else if ps ≠ [] then 2 else 0

def setInd (n : Node) (k : Nat) : Node :=
  let i := if stnEn n k then indication n k else 0
  modStation n k (fun s => { s with ind := i, due := s.due || decide (s.ind ≠ i) || s.down, down := false })

/-! STAGE, FLOOR and what the page shows -/

def setStage (n : Node) (st : Nat) : Node :=
  let old := n.call.stage
  if old = st then n
  else raiseR (note (modCall n (fun c => { c with stage := st })) (recAlarm n 7 0 old st 255 (qual n) 0)) 7 0

/-- FLOOR by its causes (R203), of the frame after the one in which they arise. -/
def floorOf (n : Node) : Nat :=
  let ss := stations n
  if ss.all (fun k => (stationOf n k).link != 1) then 3
  else if dutyEng n = 31 ∨ !(ss.any (fun k => dutyCabin n k && (stationOf n k).link == 1)) then 2 else 1

/-- The calling point of the greatest age, the lowest number on a tie. -/
def oldestOf (n : Node) (ps : List Nat) : Nat × Nat :=
  ps.foldl (fun (b : Nat × Nat) k => let a := (pointOf n k).age; if b.2 < a then (k, a) else b)
    (match ps with | k :: _ => (k, (pointOf n k).age) | [] => (0, 0))

/-- STAGE, indications and counts, from the ages and FLOOR as they stand (R204). -/
def refreshCall (n : Node) : Node :=
  let ps := callingPts n
  let n := setStage n (ps.foldl (fun s k => max s (effStage n k)) 0)
  let n := (List.range 16).foldl setInd n
  let xs := ((keys n.points).filter (fun k => (pointOf n k).state == .actTransferred)).length
  let o := oldestOf n ps
  modCall n (fun c => { c with
    oldest := o.1, oldestAge := o.2, ncall := ps.length, nxfr := xs, accValid := c.accValid && decide (xs ≠ 0),
    summary := decide (c.stage = 3) })

/-! Watch (R210, R211) -/

def setWatch (n : Node) (w : Watch) (source : Nat) : Node :=
  let old := n.call.watch
  let n := modCall n (fun c => { c with watch := w, watchCnt := 0, watchNew := true })
  if old = w then n
  else raiseR (note n (recAlarm n 10 0 (watchCode old) (watchCode w) source (qual n) 0)) 7 5

/-- A reset: in ALARM only from an ECR or MACH station. -/
def watchReset (n : Node) (panel : Bool) (source : Nat) : Node :=
  match n.call.watch with
  | .off => n
  | .alarm => if panel then setWatch n .running source else n
  | _ => setWatch n .running source

def watchOn (n : Node) (source : Nat) : Node := if n.call.watch = .off then setWatch n .running source else n
def watchOff (n : Node) (source : Nat) : Node := if n.call.watch = .off then n else setWatch n .off source

/-- The count has run out. -/
def watchDue (n : Node) : Node :=
  match n.call.watch with
  | .running =>
    if watchT n ≤ n.call.watchCnt then modCall (setWatch n .prewarn 255) (fun c => { c with watchNew := false }) else n
  | .prewarn =>
    if watchP n ≤ n.call.watchCnt then modCall (setWatch n .alarm 255) (fun c => { c with watchNew := false }) else n
  | _ => n

/-- One frame of the watch; the frame of a reset does not count. -/
def watchFrame (n : Node) : Node :=
  watchDue (modCall n (fun c => { c with
    watchCnt := if c.watch = .off ∨ c.watch = .alarm ∨ c.watchNew then c.watchCnt else c.watchCnt + 1, watchNew := false }))

/-- Frames left in RUNNING or PREWARN (CALL_WLEFT). -/
def watchLeft (n : Node) : Nat :=
  match n.call.watch with
  | .running => watchT n - n.call.watchCnt
  | .prewarn => watchP n - n.call.watchCnt
  | _ => 0

/-! Transfer limit (R206) -/

def transferDue (n : Node) (k : Nat) : Node :=
  let p := pointOf n k
  if p.state = .actTransferred ∧ !p.again ∧ callXfr n ≤ p.xfr then
    modPoint n k (fun p => { p with again := true, age := callT2 n })
  else n

/-! Stations (R198) -/

/-- A station becomes UP or LOST. -/
def setLink (n : Node) (k link : Nat) : Node :=
  let old := (stationOf n k).link
  let n := modStation n k (fun s => { s with link := link })
  raiseR (note n (recAlarm n 6 k old link k (qual n) 0)) 7 (if link = 1 then 2 else 1)

/-- A station newly configured starts UP and shows NODE_DOWN until it is told an indication, as every station does after a
start of the node or of its lanes (log entry 25); one no longer configured has no state. -/
def syncStation (n : Node) (k : Nat) : Node :=
  if stnEn n k then modStation n k (fun s => if s.link = 0 then { s with link := 1, down := true } else s)
  else { n with stations := erase n.stations k }
def syncStations (n : Node) : Node := (List.range 16).foldl syncStation n

/-- STN_IND data (14 Table 14.6). -/
def stnData (n : Node) (k : Nat) (poll : Bool) : List Byte :=
  let c := n.call
  [byteOf (if operational n then (stationOf n k).ind else 4), byteOf (b2n poll + 2 * b2n (dutyCabin n k)),
   byteOf (packN [(c.stage, 0, 2), (c.floor, 2, 2), (watchCode c.watch, 4, 3)]), byteOf (dutyEng n)] ++
  bytesLE 2 c.ncall ++ bytesLE 2 c.oldest

/-- One STN_IND, on the station's controller. -/
def sendStn (n : Node) (k : Nat) (poll : Bool) : Node :=
  let n := modStation n k (fun s => { s with due := false })
  queueMsg n (stnCan n k) (ownMsg n 3 0x40 (stnAddr n k) 3 (stnData n k poll))

/-- The indications that changed, sent after the frame's vote. -/
def sendStations (n : Node) : Node :=
  if holder n && n.nodeSt.state != .init then
    (stations n).foldl (fun n k => if (stationOf n k).due then sendStn n k false else n) n
  else n

/-- One poll of a station: an unanswered one before it counts. -/
def pollStation (n : Node) (k : Nat) : Node :=
  let n := modStation n k (fun s => if s.awaiting then { s with missed := sat 255 (s.missed + 1), replies := 0 } else s)
  let s := stationOf n k
  let n := if s.link = 1 ∧ 3 ≤ s.missed then setLink n k 2 else n
  sendStn (modStation n k (fun s => { s with awaiting := true })) k true

/-- STATION_POLL: in each frame k with k mod round(10^9 / F) = 0. -/
def stationPoll (n : Node) : Node :=
  if holder n && inStates n 30 && decide (n.frame % framesPerSec n = 0) then
    let n := syncStations n
    (stations n).foldl pollStation n
  else n

/-- A reply to the last poll. -/
def stnReply (n : Node) (k : Nat) : Node :=
  let s := stationOf n k
  if !s.awaiting then n
  else
    let n := modStation n k (fun s => { s with awaiting := false, missed := 0, replies := sat 255 (s.replies + 1) })
    if s.link = 2 ∧ 2 ≤ s.replies + 1 then setLink n k 1 else n

/-- A message of a configured station, as the module that evaluates the call takes it. -/
def fromStation (n : Node) (h : MsgHead) (k : Nat) : Bool :=
  accepts n h && holder n && decide (k < 16) && stnEn n k && stnCan n k == h.ctrl && stnAddr n k == h.src

/-- A key (14 R333): it counts as a reply, and waits for the next evaluation. -/
def stnKey (n : Node) (h : MsgHead) (k key kseq arg : Nat) : Node :=
  if fromStation n h k then queueRemote (stnReply n k) h.ctrl (.key h.ctrl h.src k key kseq arg) else n

/-- ACK, SILENCE or ACCEPT of an ECR or MACH station resets the watch (R211). -/
def keyReset (n : Node) (k : Nat) : Node := if isPanel n k then watchReset n true k else n

/-- ACCEPT is permitted (R205). -/
def acceptOk (n : Node) (k : Nat) : Bool :=
  match stnRole n k with
  | 0 => let i := (stationOf n k).ind; i == 1 || i == 2
  | 1 => false
  | _ => true

def keyAccept (n : Node) (k : Nat) : Node :=
  let ks := callingPts n
  keyReset (byRemote n ks (transferAll n ks k)) k

/-- SILENCE acts while the station indicates CALL. -/
def keySilence (n : Node) (k : Nat) : Node :=
  keyReset (if (stationOf n k).ind = 1 then byRemote n (heard n k) (commandAll n (heard n k) .silence k) else n) k

/-- Points an ACK key acts on (14 Table 14.8). -/
def keyAckPts (n : Node) : List Nat :=
  (keys n.points).filter (fun k => bit (ptAttr n k) 17 && grpCalls n (ptGroup n k) && unacked (pointOf n k).state)
def keyAck (n : Node) (k : Nat) : Node := keyReset (byRemote n (keyAckPts n) (commandAll n (keyAckPts n) .ack k)) k

/-! Duty engineer (R207) -/

def setDuty (n : Node) (e source : Nat) : Node :=
  let old := dutyEng n
  if old = e then n
  else
    let n := setReg n (at_ 7 0x58) (BitVec.ofNat 32 e)
    let n := { n with config := { n.config with dirty := true } }
    raiseR (note n (recAlarm n 9 0 old e source (qual n) 0)) 7 7

/-- The application of a key: a repetition, or one its role does not permit, is discarded (14 R333). -/
def keyEff (n : Node) (k key kseq arg : Nat) : Node :=
  let ok := match key with
    | 0 => acceptOk n k
    | 1 => true
    | 6 => stnRole n k == 2 && decide (arg ≤ 15)
    | _ => isPanel n k
  if (stationOf n k).kseq = some kseq ∨ !ok ∨ !stnEn n k then n
  else
    let n := modStation n k (fun s => { s with kseq := some kseq })
    match key with
    | 0 => keyAccept n k
    | 1 => keySilence n k
    | 2 => keyAck n k
    | 3 => watchReset n true k
    | 4 => watchOn n k
    | 5 => watchOff n k
    | _ => setDuty n arg k

def callDutyWrite (n : Node) (path : Nat) (v : Word) : Node :=
  let e := fld v 4 0
  runCommand n path 7 (at_ 7 0x58) v
    { state := operational n && holder n, level := levelOk n path 1, value := decide (e ≤ 15) || e == 31 }
    (defer 7 (.duty e))

/-! CALL_CMD -/

def callCmdCheck (n : Node) (path : Nat) (v : Word) : CmdCheck :=
  let op := fld v 1 0
  { code := op != 0, state := operational n && holder n,
    level := levelOk n path (if op = 2 ∧ n.call.watch = .alarm then 2 else 1),
    value := op != 3 || bit (callReg n 0x40) 2 }

def callCmdWrite (n : Node) (path : Nat) (v : Word) : Node :=
  runCommand n path 7 (at_ 7 0x5C) v (callCmdCheck n path v)
    (defer 7 (.call (fld v 1 0)))

/-- Its effect at its boundary. -/
def callEff (op : Nat) (n : Node) : Node :=
  match op with
  | 1 => watchOn n 31
  | 2 => watchOff n 31
  | _ => watchReset n false 31

/-! The bridge link (R209) -/

/-- Ports marked for the bridge. -/
def bridgePorts (n : Node) : Bool := fld (callReg n 0x54) 21 16 != 0

/-- No HBT for TMO seconds. -/
def bridgeSilent (n : Node) : Bool :=
  decide ((n.call.lastHbt.getD n.nodeSt.upSince) + fld (callReg n 0x54) 7 0 * 1000000000 ≤ n.now)

/-- The link is declared lost, where the module supervises one, whatever the node's state after INIT. -/
def bridgeLost (n : Node) : Node :=
  if holder n && n.nodeSt.state != .init && bridgePorts n && !n.call.brLost && bridgeSilent n then
    raiseR (note (modCall n (fun c => { c with brLost := true })) (recAlarm n 11 0 1 0 30 (qual n) 0)) 7 3
  else n

/-- An HBT of the bridge alert management on a marked port. -/
def bridgeHbt (n : Node) : Node :=
  let was := n.call.brLost
  let n := modCall n (fun c => { c with lastHbt := some n.now, brLost := false })
  if was then
    let n := { n with net := { n.net with resend := true } }
    raiseR (note n (recAlarm n 11 0 0 1 30 (qual n) 0)) 7 4
  else n

/-! The frame (R204) -/

/-- S of a frame: FLOOR of the frame by the causes that have arisen before it (R203). -/
def takeFloor (n : Node) : Node :=
  if n.nodeSt.state = .init then n
  else
    let n := syncStations n
    modCall n (fun c => { c with floorNext := floorOf n })

/-- Step 7 of a frame, in the module that evaluates. -/
def evalCall (n : Node) : Node :=
  let n := syncStations n
  let n := modCall n (fun c => { c with floor := c.floorNext })
  let n := watchFrame n
  let n := (keys n.points).foldl transferDue n
  bridgeLost (refreshCall n)

/-- INIT and STANDBY (R211, R212): the watch goes OFF, no call is made, every station is told NODE_DOWN. DESIGN CHOICE (log entry
101): FLOOR, which is evaluated in CONFIG, RUN and SAFE alone, keeps its last value. -/
def quietCall (n : Node) : Node :=
  let n := watchOff n 255
  let n := setStage n 0
  let n := modCall n (fun c => { c with summary := false, ncall := 0, nxfr := 0, oldest := 0, oldestAge := 0, accValid := false })
  { n with stations := tmodAll {} n.stations (stations n) (fun _ s => { s with ind := 0, due := true, down := true }) }

/-- The call as the holder has it, in the module without the output claim (R212): its page and records tell of the changes;
`took` tells that points have been transferred. DESIGN CHOICE (log entry 101): the instant of the last HBT is the holder's, by its
own CK_TB, and a module that takes the claim counts the timeout from it. -/
def adoptCall (n : Node) (c : Call) (sts : Tbl Station) (duty : Nat) (took : Bool) : Node :=
  let a := n.call
  let n := setStage n c.stage
  let n := if a.watch = c.watch then n
    else raiseR (note n (recAlarm n 10 0 (watchCode a.watch) (watchCode c.watch) 255 (qual n) 0)) 7 5
  let n := (List.range 16).foldl (fun n k =>
    let x := (stationOf n k).link
    let y := (tget {} sts k).link
    if x = y ∨ y = 0 ∨ (x = 0 ∧ y = 1) then n
    else raiseR (note n (recAlarm n 6 k x y k (qual n) 0)) 7 (if y = 1 then 2 else 1)) n
  let n := if a.brLost = c.brLost then n
    else raiseR (note n (recAlarm n 11 0 (b2n (!c.brLost)) (b2n c.brLost) 30 (qual n) 0)) 7 (if c.brLost then 3 else 4)
  let n := if took then raiseR (note n (recAlarm n 8 0 0 c.accSrc c.accSrc (qual n) 0)) 7 6 else n
  setDuty { n with call := c, stations := sts } duty 255

/-- Ages and counts of the call under a new period (R212): the same elapsed time, rounded down. -/
def rescaleCall (old new : Nat) (n : Node) : Node :=
  let f := fun c => c * old / new
  modCall { n with points := tmodAll {} n.points (keys n.points) (fun _ p => { p with age := f p.age, xfr := f p.xfr }) }
    (fun c => { c with watchCnt := f c.watchCnt })

/-! Meanings -/

/-- An event on the call, in the module that evaluates it and in the states that do. -/
def onCall (s : State) (t : Nat) (f : Node → Node) : State := onEngine s t f

def execStationPoll (t : Nat) (s : State) : Host.Outcome State Fault Refusal := .next (onNode s t stationPoll)
def execStnReply (t : Nat) (h : MsgHead) (stn : Nat) (s : State) : Host.Outcome State Fault Refusal :=
  .next (onNode s t (fun n => if fromStation n h stn then stnReply n stn else n))
def execStnAccept (t : Nat) (h : MsgHead) (stn kseq : Nat) (s : State) : Host.Outcome State Fault Refusal :=
  .next (onNode s t (fun n => stnKey n h stn 0 kseq 0))
def execStnSilence (t : Nat) (h : MsgHead) (stn kseq : Nat) (s : State) : Host.Outcome State Fault Refusal :=
  .next (onNode s t (fun n => stnKey n h stn 1 kseq 0))
def execStnAck (t : Nat) (h : MsgHead) (stn kseq : Nat) (s : State) : Host.Outcome State Fault Refusal :=
  .next (onNode s t (fun n => stnKey n h stn 2 kseq 0))
def execStnWatchReset (t : Nat) (h : MsgHead) (stn kseq : Nat) (s : State) : Host.Outcome State Fault Refusal :=
  .next (onNode s t (fun n => stnKey n h stn 3 kseq 0))
def execStnWatchOn (t : Nat) (h : MsgHead) (stn kseq : Nat) (s : State) : Host.Outcome State Fault Refusal :=
  .next (onNode s t (fun n => stnKey n h stn 4 kseq 0))
def execStnWatchOff (t : Nat) (h : MsgHead) (stn kseq : Nat) (s : State) : Host.Outcome State Fault Refusal :=
  .next (onNode s t (fun n => stnKey n h stn 5 kseq 0))
def execStnDutySet (t : Nat) (h : MsgHead) (stn kseq arg : Nat) (s : State) : Host.Outcome State Fault Refusal :=
  .next (onNode s t (fun n => stnKey n h stn 6 kseq arg))

/-- CALL_STAGE_ESCALATE: STAGE by the ages as they stand. -/
def execCallStageEscalate (t _point : Nat) (s : State) : Host.Outcome State Fault Refusal := .next (onCall s t refreshCall)
def execTransferExpire (t point : Nat) (s : State) : Host.Outcome State Fault Refusal :=
  .next (onCall s t (fun n => refreshCall (transferDue n point)))
def execWatchPrewarn (t : Nat) (s : State) : Host.Outcome State Fault Refusal :=
  .next (onCall s t (fun n => if n.call.watch = .running then refreshCall (watchDue n) else n))
def execWatchAlarm (t : Nat) (s : State) : Host.Outcome State Fault Refusal :=
  .next (onCall s t (fun n => if n.call.watch = .prewarn then refreshCall (watchDue n) else n))
def execCallWatchOn (t : Nat) (s : State) : Host.Outcome State Fault Refusal :=
  .next (onNode s t (fun n => callCmdWrite n hostPath 1))
def execCallWatchOff (t : Nat) (s : State) : Host.Outcome State Fault Refusal :=
  .next (onNode s t (fun n => callCmdWrite n hostPath 2))
def execCallWatchReset (t : Nat) (s : State) : Host.Outcome State Fault Refusal :=
  .next (onNode s t (fun n => callCmdWrite n hostPath 3))
def execCallDuty (t : Nat) (v : Word) (s : State) : Host.Outcome State Fault Refusal :=
  .next (onNode s t (fun n => callDutyWrite n hostPath v))
def execBridgeLinkLost (t : Nat) (s : State) : Host.Outcome State Fault Refusal := .next (onNode s t bridgeLost)

end Sys2Proof.Machine
end

