-- ==== Sys2Proof/Machine/Flags.lean ====
section
/-! DEFINITION. Status words formed from the state: diagnostics (07 Table 07.7), safety functions, pairs, outputs and
trip fabric (10 Tables 10.11 to 10.14). -/

namespace Sys2Proof.Machine

/-! Diagnostics -/

/-- DG_STAT (07 Table 07.7): as the lanes' last evaluation gave it. -/
def dgStat (n : Node) (ch : Nat) : Word := if chnSel n ch = 0 then 0 else (diagOf n ch).stat

/-- Faults of 07 Table 07.5 on a channel, XSHORT excepted (07 R160), one bit a row; bit 7 is 1 where the rank is neither
unpowered nor FAULTY. A FAULTY rank tells nothing of its channels, so what stood stands; of an unpowered one only what outlasts
the power. -/
def faultMask (n : Node) (ch : Nat) : Nat :=
  let f := frontOf n ch
  let d := diagOf n ch
  let a := acqOf n ch
  let r := rankOf n (rankOfCh ch)
  if chnSel n ch = 0 then 0
  else if !r.powered then packN [(b2n d.excTol, 2, 1), (b2n d.cutRef, 5, 1), (b2n d.cmpFlt, 6, 1)]
  else if r.faulty || r.noUse then d.faults % 128
  else if !r.ready then d.faults
  else packN [(b2n (f.cutOpen || (a.bandBreak && monitored n ch)), 0, 1), (b2n (a.bandShort && monitored n ch), 1, 1),
    (b2n (excFault n ch), 2, 1), (b2n f.window, 3, 1), (b2n (!isAo n ch && a.mismatch), 4, 1), (b2n d.cutRef, 5, 1),
    (b2n d.cmpFlt, 6, 1), (1, 7, 1)]

/-! The fabric copies -/

def copyOf (n : Node) (c : Nat) : FabCopy :=
  if c = 0 then n.safety.copy0 else if c = 1 then n.safety.copy1 else n.safety.copy2
def modSafety (n : Node) (f : Safety → Safety) : Node := { n with safety := f n.safety }
def modCopy (n : Node) (c : Nat) (f : FabCopy → FabCopy) : Node :=
  modSafety n (fun s =>
    if c = 0 then { s with copy0 := f s.copy0 } else if c = 1 then { s with copy1 := f s.copy1 } else { s with copy2 := f s.copy2 })

/-- A bit of the three copies voted; an excluded copy counts with its given value. -/
def voteCopies (n : Node) (excl : Bool) (v : Nat → Bool) : Bool :=
  let w := fun c => if (copyOf n c).excluded then excl else v c
  maj3 (w 0) (w 1) (w 2)

/-- Voted latch and voted fast demand of function s, as captured at B (10 R220): an excluded copy counts as demanding. -/
def votedLatch (n : Node) (s : Nat) : Bool := voteCopies n true (fun c => (copyOf n c).capL.getLsbD s)
def votedDemand (n : Node) (s : Nat) : Bool := voteCopies n true (fun c => (copyOf n c).capD.getLsbD s)

/-! What a function names -/

/-- Comparator bits of a function's row, as channels. -/
def mapChs (n : Node) (s : Nat) : List Nat :=
  (List.range 16).flatMap (fun w => (members (tripCmp n s w).toNat 32).map (fun b => 32 * w + b))
/-- Pair bits of a function's row. -/
def mapPairs (n : Node) (s : Nat) : List Nat :=
  (List.range 8).flatMap (fun w => (members (tripSin n s w).toNat 32).map (fun b => 32 * w + b))
/-- Outputs a function names. -/
def fnOuts (n : Node) (s : Nat) : List Nat := members (sfOut n s).toNat 32
/-- Slow inputs. -/
def slowPts (n : Node) (s : Nat) : List Nat :=
  (List.range 4).flatMap (fun w =>
    let v := sfSlow n s w
    (if bit v 15 then [fld v 12 0] else []) ++ (if bit v 31 then [fld v 28 16] else []))
/-- Loop outputs mapped to a function. -/
def mappedAos (n : Node) (s : Nat) : List Nat :=
  (List.range 64).filterMap (fun e => let w := aoMap n e; if bit w 31 ∧ fld w 29 24 = s then some (fld w 8 0) else none)
/-- Enabled functions that name an output. -/
def naming (n : Node) (o : Nat) : List Nat := (enabledFns n).filter (fun s => bit (sfOut n s) o)

def soEn (n : Node) (o : Nat) : Bool := bit (soCfg n o) 31
def tpEn (n : Node) (o : Nat) : Bool := bit (soCfg n o) 30
def tpLen (n : Node) (o : Nat) : Nat := fld (soCfg n o) 25 16
def tpInt (n : Node) (o : Nat) : Nat := fld (soCfg n o) 5 0
def fbEn (n : Node) (o : Nat) : Bool := bit (soFb n o) 31
def fbInput (n : Node) (o : Nat) : Nat := fld (soFb n o) 20 16
def sinEn (n : Node) (k : Nat) : Bool := bit (sinCfg n k) 31

/-- FB_VAL of an input, and whether an output's feedback shows released (10 R233). -/
def fbVal (n : Node) (f : Nat) : Bool := tget false n.safety.fb f
def fbReleased (n : Node) (o : Nat) : Bool := fbVal n (fbInput n o) != bit (soFb n o) 30

/-! Words -/

/-- SAF_SF_ST (10 Table 10.11). -/
def sfSt (n : Node) (s : Nat) : Word :=
  let x := fnOf n s
  let code := match x.state with | .off => 0 | .locked => 1 | .tripped => 2 | .ready => 3 | .active => 4
  let os := fnOuts n s
  pack [(x.cause, 24, 8), (b2n x.stupWait, 19, 1), (b2n x.fbWait, 18, 1), (b2n (votedLatch n s), 16, 1),
    (b2n (os.any (fun o => (outputOf n o).fbFlt)), 11, 1), (b2n (os.any (fun o => (outputOf n o).soFlt)), 10, 1),
    (b2n ((mapPairs n s).any (fun k => (pairOf n k).discFlt)), 9, 1), (b2n x.slow, 8, 1), (code, 0, 3)]

/-- SO_ST (10 Table 10.13). -/
def soSt (n : Node) (o : Nat) : Word :=
  let x := outputOf n o
  pack [(x.fltCode, 28, 4), (b2n x.fbFlt, 22, 1), (b2n x.soFlt, 21, 1), (b2n x.fbSeen, 20, 1), (b2n x.expect, 19, 1),
    (b2n (decide (x.phase = .testing)), 18, 1), (b2n x.ls, 17, 1), (b2n x.hs, 16, 1)]

/-- XSHORT of a pair (07 R159). -/
def pairXshort (n : Node) (k : Nat) : Bool := (diagOf n (2 * k)).xshort

/-- SIN_ST (10 Table 10.14), as captured at B; a pair that is not enabled shows A, B and XSHORT alone (10 R246). -/
def sinSt (n : Node) (k : Nat) : Word :=
  let p := pairOf n k
  if sinEn n k then
    pack [(b2n p.permit, 26, 1), (b2n p.b, 25, 1), (b2n p.a, 24, 1), (b2n p.stupOk, 23, 1), (b2n (pairXshort n k), 22, 1),
      (b2n p.discFlt, 21, 1), (b2n p.safeSeen, 20, 1), (p.dcnt, 0, 20)]
  else pack [(b2n p.b, 25, 1), (b2n p.a, 24, 1), (b2n (pairXshort n k), 22, 1)]

/-- SAF_STAT. -/
def safStat (n : Node) : Word :=
  let cnt := fun (st : SfState) => ((enabledFns n).filter (fun s => decide ((fnOf n s).state = st))).length
  pack [(cnt .locked, 24, 7), (cnt .tripped, 16, 7), (cnt .active, 8, 7), (b2n n.safety.nodeDem, 4, 1),
    (b2n n.safety.failed, 3, 1), (b2n n.safety.copy2.excluded, 2, 1), (b2n n.safety.copy1.excluded, 1, 1),
    (b2n n.safety.copy0.excluded, 0, 1)]

/-- Word w of a bit vector over the functions. -/
def fnWord (w : Nat) (f : Nat → Bool) : Word :=
  BitVec.ofNat 32 (bitSet ((List.range 32).filter (fun i => f (32 * w + i))))

/-- TRIP_STAT and TRIP_CPY of page instance i: latches and fast demands of its 16 functions. -/
def tripWord (i : Nat) (latch demand : Nat → Bool) : Word :=
  pack [(bitSet ((List.range 16).filter (fun j => latch (16 * i + j))), 16, 16),
    (bitSet ((List.range 16).filter (fun j => demand (16 * i + j))), 0, 16)]

/-- SAF_FAB_CPY. -/
def fabCpy (n : Node) : Word :=
  pack [(b2n (copyOf n 2).agree, 10, 1), (b2n (copyOf n 1).agree, 9, 1), (b2n (copyOf n 0).agree, 8, 1),
    (b2n (copyOf n 2).crcOk, 2, 1), (b2n (copyOf n 1).crcOk, 1, 1), (b2n (copyOf n 0).crcOk, 0, 1)]

/-- The map's bytes (10 R220): 96 bytes a function. -/
def mapBytes (n : Node) : List Byte :=
  (List.range 64).flatMap (fun s =>
    (List.range 16).flatMap (fun w => wordBytes (tripCmp n s w)) ++ (List.range 8).flatMap (fun w => wordBytes (tripSin n s w)))
def mapCrc (n : Node) : Word := BitVec.ofNat 32 (crc32c (mapBytes n))

end Sys2Proof.Machine
end

