-- ==== Sys2Proof/Machine/SafetyFns.lean ====
section
/-! DEFINITION. The trip fabric, the pair evaluators, the safety functions and the safety outputs (10). -/

namespace Sys2Proof.Machine

/-! Fast inputs (R216, R223) -/

/-- A comparator copy at the fabric input. -/
def cmpCopy (n : Node) (c ch : Nat) : Bool :=
  let f := frontOf n ch
  if c = 0 then f.cmp0 else if c = 1 then f.cmp1 else f.cmp2

/-- The demand of a comparator in a copy (10 Table 10.1). -/
def cmpDemand (n : Node) (c ch : Nat) : Bool :=
  match chnSel n ch with
  | 1 | 4 | 5 => cmpCopy n c ch
  | 8 => !cmpCopy n c ch
  | _ => false

def sinAnti (n : Node) (k : Nat) : Bool := bit (sinCfg n k) 30
def sinStup (n : Node) (k : Nat) : Bool := bit (sinCfg n k) 29
def sinDt (n : Node) (k : Nat) : Nat := fld (sinCfg n k) 18 0

/-- PERMIT, disagreement and both safe states from a and b (10 Table 10.3, R224). -/
def permitOf (anti a b : Bool) : Bool := a && (b != anti)
def disagrees (anti a b : Bool) : Bool := (a != b) != anti
def bothSafe (anti a b : Bool) : Bool := !a && (b == anti)

def pairPermit (n : Node) (c k : Nat) : Bool :=
  sinEn n k && permitOf (sinAnti n k) (cmpCopy n c (2 * k)) (cmpCopy n c (2 * k + 1))
def pairDemand (n : Node) (c k : Nat) : Bool := !pairPermit n c k || (evalOf n c k).discFlt

/-- Fast demand of function s in copy c. -/
def fastDemand (n : Node) (c s : Nat) : Bool :=
  (mapChs n s).any (cmpDemand n c) || (mapPairs n s).any (pairDemand n c)

/-! Pair evaluators (R224 to R226): ticks of 10 us -/

/-- The arming conditions of a pair are tested from the moment its rank is powered (17 R401). -/
def pairTested (n : Node) (k : Nat) : Bool := operational n && (rankOf n (k / 16)).powered

/-- The ticks up to an instant, with the states as they stood: a tick sees the states just before it. STUP_OK is tested
where `tested` says. -/
def advanceEval (now dt : Nat) (tested : Bool) (e : Evaluator) : Evaluator :=
  let tick := now / 10000 * 10000
  let lim := match e.agreeAt with | some a => min a now | none => now
  let e := match e.disSince with
    | some d =>
      let at_ := (d / 10000 + dt) * 10000
      if !e.discFlt && decide (at_ ≤ lim) && decide (e.discAt < at_) then { e with discFlt := true, discAt := at_, safeSeen := false } else e
    | none => e
  let e := match e.agreeAt with
    | some a => if a < tick then { e with disSince := none, agreeAt := none } else e
    | none => e
  match e.safeSince with
  | some s => { e with safeSeen := e.safeSeen || (e.discFlt && decide (max s e.discAt < tick)),
                       stupOk := e.stupOk || (tested && decide (max s e.stupAt < tick)) }
  | none => e

/-- The states a and b as they stand from an instant on. -/
def setEval (now : Nat) (dis safe : Bool) (e : Evaluator) : Evaluator :=
  let e := if dis then
      (if e.disSince.isNone then { e with disSince := some now, agreeAt := none } else { e with agreeAt := none })
    else if e.disSince.isSome && e.agreeAt.isNone then { e with agreeAt := some now } else e
  { e with safeSince := if safe then some (e.safeSince.getD now) else none }

/-- DCNT at an instant. -/
def dcntAt (now : Nat) (e : Evaluator) : Nat :=
  match e.disSince with
  | some d => sat 1048575 (now / 10000 - d / 10000)
  | none => 0

/-! Latches and outputs -/

/-- How many copies have the latch of a function set. -/
def latchCount (n : Node) (s : Nat) : Nat := ((List.range 3).filter (fun c => (copyOf n c).latch.getLsbD s)).length

/-- The instant at which the second copy's latch of a function set, where that has come about since `was` (R240). -/
def dateLatch (at_ : Nat) (was n : Node) (s : Nat) : Node :=
  if latchCount was s < 2 ∧ 2 ≤ latchCount n s then modFn n s (fun x => { x with fastT := taiAt n at_ }) else n

/-- The latch of a function in a copy. -/
def setCopyLatch (n : Node) (s c : Nat) : Node := modCopy n c (fun x => { x with latch := x.latch ||| BitVec.ofNat 64 (2 ^ s) })

/-- Latches set by the fast demands that stand. -/
def setLatch (at_ : Nat) (n : Node) (s : Nat) : Node :=
  let was := n
  let n := (List.range 3).foldl (fun n c => if fastDemand n c s then setCopyLatch n s c else n) n
  dateLatch at_ was n s

def setLatches (n : Node) (at_ : Nat) : Node := (enabledFns n).foldl (setLatch at_) n

/-- A copy's permission of an output (R218), and the fabric vote (R219, R220). -/
def copyPermits (n : Node) (c o : Nat) : Bool :=
  let fs := naming n o
  !(copyOf n c).excluded && soEn n o && !fs.isEmpty && fs.all (fun s => !(copyOf n c).latch.getLsbD s)
def fabricPermits (n : Node) (o : Nat) : Bool :=
  !n.safety.failed && maj3 (copyPermits n 0 o) (copyPermits n 1 o) (copyPermits n 2 o)

/-- The module drives its outputs (01 R17, 12 R283). -/
def drives (n : Node) : Bool := !paired n || decide (n.duplex.drive = .on)

/-- Both switches may conduct. -/
def maySwitch (n : Node) (o : Nat) : Bool := fabricPermits n o && (outputOf n o).cmd && drives n

/-- Feedback of an output against its expected state, as it stands (R233). -/
def fbStep (n : Node) (o : Nat) : Node :=
  if fbEn n o then
    let rel := fbReleased n o
    modOutput n o (fun x => { x with
      fbSeen := x.fbSeen || rel, misSince := if rel == x.expect then some (x.misSince.getD n.now) else none })
  else n

/-- The expected state changes. -/
def setExpect (n : Node) (o : Nat) (v : Bool) : Node :=
  fbStep (modOutput n o (fun x => if x.expect = v then x else { x with expect := v, expectAt := n.now })) o

/-- Page and index of an output. -/
def soutPage (o : Nat) : Nat := 0x64 + o / 8

/-- SO_FLT sets with a code; one that stands keeps its own. -/
def setSoFlt (n : Node) (o code : Nat) : Node :=
  if (outputOf n o).soFlt then n
  else
    let n := modOutput n o (fun x => { x with soFlt := true, fltCode := code, monAt := n.now })
    raiseB (note n (recSafety (taiNow n) 2 true o code (soutPage o) (soSt n o))) (soutPage o) 0

/-- The SO_TEST in progress ends (R230). -/
def endTest (n : Node) (o : Nat) (ok : Bool) : Node :=
  if (outputOf n o).byCmd then resolveCmd (modOutput n o (fun x => { x with byCmd := false })) 8 (some ok) else n

/-- An output opens: a pulse that runs, or ended within 50 us, is discarded (R231). -/
def dropOutput (n : Node) (o : Nat) : Node :=
  let x := outputOf n o
  let recent := x.pulse || (decide (x.pulseEnd ≠ 0) && decide (n.now ≤ x.pulseEnd + 50000))
  let n := modOutput n o (fun x => { x with
    phase := .off, hs := false, ls := false, pulse := false, nextDue := none, quick := false, monAt := n.now,
    pulseEnd := 0, verdict := x.verdict && !recent, last := if recent then 3 else x.last, nextLs := if recent then x.pulseLs else x.nextLs,
    passed := if recent && !x.pulse && x.last == 1 then x.passed - 1 else x.passed })
  setExpect (endTest n o true) o false

/-- Every output that the votes no longer permit opens at once. -/
def settleOutputs (n : Node) : Node :=
  (keys n.safety.outs).foldl (fun n o =>
    if (outputOf n o).phase ≠ .off ∧ !maySwitch n o then dropOutput n o else n) n

/-- The evaluators up to now, with the inputs as they stood. -/
def evalTicks (n : Node) : Node :=
  (enabledPairs n).foldl (fun n k =>
    (List.range 3).foldl (fun n c => modEval n c k (advanceEval n.now (sinDt n k) (pairTested n k))) n) n

/-- The ticks at which evaluators latch on the way from n to m, ascending. -/
def latchTicks (n m : Node) : List Nat :=
  (enabledPairs n).foldl (fun l k => (List.range 3).foldl (fun l c =>
    if (evalOf m c k).discFlt && !(evalOf n c k).discFlt then insertNat (evalOf m c k).discAt l else l) l) []

/-- The evaluators, latches and outputs up to now: each DISC_FLT acts at its own tick. -/
def fabricTicks (n : Node) : Node :=
  let m := evalTicks n
  match latchTicks n m with
  | [] => m
  | ds =>
    let k := ds.foldl (fun k d => settleOutputs (setLatches (evalTicks { k with now := d }) d)) n
    evalTicks { k with now := n.now }

/-- Failed pulses that no demand has followed within 50 us: SO_FLT, dated at the pulse's end (R230, R231). -/
def pulseVerdicts (n : Node) : Node :=
  (keys n.safety.outs).foldl (fun n o =>
    let x := outputOf n o
    if x.verdict && decide (x.pulseEnd + 50000 < n.now) then
      let m := setSoFlt (modOutput { n with now := x.pulseEnd } o (fun x => { x with verdict := false })) o 5
      { m with now := n.now }
    else n) n

/-- One pair with its inputs as they stand now; the voted PERMIT and the instant of its change (SIN_T). -/
def settlePair (n : Node) (k : Nat) : Node :=
  let n := (List.range 3).foldl (fun n c =>
    let a := cmpCopy n c (2 * k)
    let b := cmpCopy n c (2 * k + 1)
    modEval n c k (setEval n.now (disagrees (sinAnti n k) a b) (bothSafe (sinAnti n k) a b))) n
  let p := voteCopies n false (fun c => pairPermit n c k)
  modPair n k (fun x => if x.live = p then x else { x with live := p, time := taiNow n })

/-- The fabric after its inputs may have changed. -/
def fabricSettle (n : Node) : Node :=
  let n := (enabledPairs n).foldl settlePair n
  settleOutputs (setLatches n n.now)

/-- Off-pulse holds that ended since the last event: at the instant of each the copies follow their comparator again, and the
fabric sees it (07 R148). -/
def releaseHolds (n : Node) : Node :=
  let ends := (holdsEnded n).foldl (fun l ch => insertNat (frontOf n ch).holdUntil l) []
  let m := ends.foldl (fun n t => fabricSettle (endHolds (fabricTicks { n with now := t }))) n
  { m with now := n.now }

/-- The fabric up to now. -/
def fabricAdvance (n : Node) : Node := pulseVerdicts (fabricTicks (releaseHolds n))

/-- A change of fast inputs within an event. -/
def withFabric (f : Node → Node) (n : Node) : Node := fabricSettle (f (fabricAdvance n))

/-- XSHORT of a pair, with its record; in an enabled pair it reaches the evaluators at once (R225, 07 R159). -/
def xshortStep (before : Node) (n : Node) (k : Nat) : Node :=
  let was := pairXshort before k
  let is := pairXshort n k
  if was = is then n
  else
    let n := note n (recSafety (taiNow n) 4 is k 0 (0x68 + k / 64) (sinSt n k))
    if is && sinEn n k then (List.range 3).foldl (fun n c => modEval n c k (fun e =>
      if e.discFlt then e else { e with discFlt := true, discAt := n.now, safeSeen := false })) n
    else n

/-! Load of the map (R244) and start-up tests -/

/-- A changed pair at the B that takes its configuration: STUP_OK begins again (R226), and a cross-short that stands is a
discrepancy fault (R225). A pair no longer enabled has no evaluator and no PERMIT (R246), and a DISC_FLT that it had ends with
its record (R240). -/
def restartPair (n : Node) (k : Nat) : Node :=
  if sinEn n k then
    let x := pairXshort n k
    (List.range 3).foldl (fun n c => modEval n c k (fun e =>
      let e := { e with stupOk := false, stupAt := n.now }
      if x && !e.discFlt then { e with discFlt := true, discAt := n.now, safeSeen := false } else e)) n
  else
    let had := (pairOf n k).discFlt
    let n := (List.range 3).foldl (fun n c => modEval n c k (fun _ => {})) n
    let n := modPair n k (fun p => { p with discFlt := false, safeSeen := false })
    let n := if had then note n (recSafety (taiNow n) 1 false k 0 (0x68 + k / 64) (sinSt n k)) else n
    modPair n k (fun x => if x.live then { x with live := false, time := taiNow n } else x)

/-- The pairs of a rank that is powered: STUP_OK is tested from now on (17 R401). -/
def armRank (n : Node) (r : Nat) : Node :=
  ((enabledPairs n).filter (fun k => k / 16 == r)).foldl (fun n k =>
    (List.range 3).foldl (fun n c => modEval n c k (fun e => { e with stupAt := n.now })) n) n

/-- The lanes load the map into the copies. A latch that has been set since the reset counts as set at the load that
gives its function a map (R240, log entry 42). -/
def loadMap (n : Node) : Node :=
  let crc := mapCrc n
  let n := (enabledFns n).foldl (fun n s =>
    modFn n s (fun x => if x.fastT = 0 then { x with fastT := taiNow n } else x)) n
  let n := modSafety n (fun s => { s with fabCrc := crc })
  (List.range 3).foldl (fun n c => modCopy n c (fun x => if x.excluded then x else { x with crcOk := true })) n

/-! The boundary (R220, R235, R239) -/

/-- Every latch set. -/
def setAllLatches (n : Node) : Node :=
  let was := n
  let n := (List.range 3).foldl (fun n c => modCopy n c (fun x => { x with latch := BitVec.allOnes 64 })) n
  (enabledFns n).foldl (dateLatch n.now was) n

/-- A clear of a function's latch at B: without effect in a copy that sees a fast demand. -/
def clearLatch (n : Node) (s : Nat) : Node :=
  (List.range 3).foldl (fun n c =>
    if fastDemand n c s then n
    else modCopy n c (fun x => { x with latch := x.latch &&& ~~~(BitVec.ofNat 64 (2 ^ s)) })) n

/-- The lanes' writes of latches at B: clears that wait; in the module without the claim, as the holder's functions
stand; all set where the functions are not evaluated. -/
def writeLatches (n : Node) : Node :=
  if !(isRun n || decide (n.nodeSt.state = .safe)) then setAllLatches n
  else
    let n := (enabledFns n).foldl (fun n s =>
      let x := fnOf n s
      if !holder n then
        if x.state = .active then clearLatch n s
        else let was := n; dateLatch n.now was ((List.range 3).foldl (fun n c => setCopyLatch n s c) n) s
      else if x.clearPend then clearLatch n s else n) n
    modSafety n (fun z => { z with fns := tmodAll {} z.fns (keys z.fns) (fun _ x => { x with clearPend := false }) })

/-- Pairs whose inputs SIN_ST shows, and pairs of which it has shown something. -/
def shownPairs (n : Node) : List Nat :=
  let ps := (keys n.safety.pairs).foldl (fun l k => insertNat k l) (enabledPairs n)
  (activeChs n).foldl (fun l ch => if hasCmp n ch then insertNat (ch / 2) l else l) ps

/-- The instant at which DISC_FLT of a pair latched in the vote of the copies: that of the second copy, or of the first where
an excluded copy counts as demanding. -/
def discInstant (n : Node) (k : Nat) : Nat :=
  let l := (List.range 3).filterMap (fun c =>
    if !(copyOf n c).excluded && (evalOf n c k).discFlt then some (evalOf n c k).discAt else none)
  match l with
  | [a, b, c] => (median3 a b c).toNat
  | [a, b] => if (List.range 3).any (fun c => (copyOf n c).excluded) then min a b else max a b
  | a :: _ => a
  | [] => n.now

/-- The votes of a pair as captured at B: an excluded copy counts as demanding (R246). -/
def capturePair (n : Node) (k : Nat) : Node :=
  let old := pairOf n k
  let vote := fun (e : Bool) (f : Nat → Bool) => voteCopies n e f
  let en := sinEn n k
  let permit := en && vote false (fun c => pairPermit n c k)
  let disc := en && vote true (fun c => (evalOf n c k).discFlt)
  let seen := en && vote false (fun c => (evalOf n c k).safeSeen)
  let stup := en && (!sinStup n k || vote false (fun c => (evalOf n c k).stupOk))
  let d := fun c => dcntAt n.now (evalOf n c k)
  let n := modPair n k (fun p => { p with
    permit := permit, discFlt := disc, safeSeen := seen, stupOk := stup,
    a := vote false (fun c => cmpCopy n c (2 * k)), b := vote false (fun c => cmpCopy n c (2 * k + 1)),
    dcnt := if en then (median3 (d 0) (d 1) (d 2)).toNat else 0 })
  let pg := 0x68 + k / 64
  let n := raiseRIf (permit != old.permit) n pg 1
  let n := raiseRIf (stup && !old.stupOk) n pg 2
  if disc && !old.discFlt then
    raiseR (note n (recSafety (taiAt n (discInstant n k)) 1 true k 0 pg (sinSt n k))) pg 0
  else n

/-- The capture of latches and fast demands of a copy. -/
def captureCopy (n : Node) (c : Nat) : Node :=
  let d : BitVec 64 := (enabledFns n).foldl (fun (b : BitVec 64) s => if fastDemand n c s then b ||| BitVec.ofNat 64 (2 ^ s) else b) 0
  modCopy n c (fun x => { x with capL := x.latch, capD := d })

/-- What a capture shows of a copy's evaluator of a pair (R220, R246). -/
structure PairView where
  permit : Bool
  a : Bool
  b : Bool
  discFlt : Bool
  safeSeen : Bool
  stupOk : Bool
  dcnt : Nat
  deriving DecidableEq, Repr

def pairView (n : Node) (c k : Nat) : PairView :=
  let e := evalOf n c k
  { permit := pairPermit n c k, a := cmpCopy n c (2 * k), b := cmpCopy n c (2 * k + 1), discFlt := e.discFlt,
    safeSeen := e.safeSeen, stupOk := e.stupOk, dcnt := dcntAt n.now e }

/-- What a capture shows of a copy: latches, fast demands and evaluator states. -/
def copyView (n : Node) (c : Nat) : BitVec 64 × BitVec 64 × List PairView :=
  let x := copyOf n c
  (x.capL, x.capD, (enabledPairs n).map (pairView n c))

/-- Copies whose captured state differs from those of both others (R220), one bit a copy; `own` tells of copies that a fault of
their own makes differ. -/
def fabDiff (n : Node) (own : Nat) : Nat :=
  let eq := fun a b => decide (copyView n a = copyView n b)
  let e01 := eq 0 1
  let e12 := eq 1 2
  let e20 := eq 2 0
  packN [(b2n (nbit own 0 || (!e01 && !e20)), 0, 1), (b2n (nbit own 1 || (!e01 && !e12)), 1, 1),
    (b2n (nbit own 2 || (!e12 && !e20)), 2, 1)]

/-- A copy is excluded: its permissions are 0 until the node is reset; a second exclusion fails the fabric. -/
def excludeCopy (n : Node) (c : Nat) : Node :=
  if (copyOf n c).excluded then n
  else
    let second := n.safety.copy0.excluded || n.safety.copy1.excluded || n.safety.copy2.excluded
    let n := modCopy n c (fun x => { x with excluded := true })
    let n := modSafety n (fun s => { s with failed := s.failed || second })
    raiseR (note n (recSafety (taiNow n) 5 true c 0 0x08 0)) 8 4

/-- Supervision of one copy at a capture. -/
def superviseCopy (diff bad : Nat) (n : Node) (c : Nat) : Node :=
  let d := nbit diff c
  let n := modCopy n c (fun x => { x with
    crcOk := !nbit bad c, dis := if d then sat 2 (x.dis + 1) else 0, agree := !d })
  if (copyOf n c).dis = 2 ∨ nbit bad c then excludeCopy n c else n

/-- LATCH of the TRIP pages: a voted latch sets. -/
def latchRaise (old n : Node) : Node :=
  (List.range 4).foldl (fun n i =>
    raiseRIf ((List.range 16).any (fun j => votedLatch n (16 * i + j) && !votedLatch old (16 * i + j))) n (0x60 + i) 0) n

/-- COPY_DIFF of the TRIP pages (log entry 26). -/
def diffRaise (diff : Nat) (n : Node) : Node :=
  if diff % 8 = 0 then n else (List.range 4).foldl (fun n i => raiseR n (0x60 + i) 1) n

/-- The 2-of-3 vote of the lane commands of an output (01 R17): valid commands alone count (R219); `exc` lists those that
arrived unlike the lanes' command. -/
def laneCommand (n : Node) (exc : List (Nat × Nat × Option Bool)) (o : Nat) : Bool :=
  decide (2 ≤ ((members n.laneSt.cmds 3).filter (fun l =>
    match exc.find? (fun e => e.1 == o && e.2.1 == l) with
    | some e => e.2.2 == some true
    | none => (outputOf n o).next)).length)

/-- The lanes' commands of an output act (R227, R228, R239), in the module that drives. -/
def applyOutput (exc : List (Nat × Nat × Option Bool)) (took : Bool) (n : Node) (o : Nat) : Node :=
  let old := (outputOf n o).cmd
  let cmd := laneCommand n exc o && drives n
  let n := modOutput n o (fun x => { x with cmd := cmd })
  if !cmd then (if (outputOf n o).phase ≠ .off then dropOutput n o else n)
  else if maySwitch n o then
    if took then
      setExpect (modOutput n o (fun x => { x with
        phase := .on, hs := true, ls := true, quick := tpEn n o, nextDue := if tpEn n o then some n.now else none,
        expect := true, expectAt := n.now })) o true
    else if !old then modOutput n o (fun x => { x with phase := .due })
    else n
  else n

/-- Periodic pulses are withheld in the 2 F before the frame of an armed SO_TEST entry (R230). -/
def withheld (n : Node) (o : Nat) : Bool :=
  n.launches.any (fun e =>
    let l := e.2
    decide (l.state = .armed) && fld l.act 3 0 == 3 && fld l.act 24 16 == o && decide (n.frame < l.tgt) && decide (l.tgt ≤ n.frame + 2))

/-- A pulse opens the switch that is next due and restarts the schedule. -/
def startPulse (n : Node) (o : Nat) (byCmd : Bool) : Node :=
  modOutput n o (fun x => { x with
    pulse := true, pulseLs := x.nextLs, byCmd := byCmd, hs := x.nextLs, ls := !x.nextLs, quick := false,
    nextDue := if tpEn n o then some (n.now + (if x.quick then 0 else tpInt n o * 1000000000)) else none })

/-- A launched or commanded pulse: SKIPPED on a de-energised output. Whether it ran. DESIGN CHOICE (log entry 102): one that
comes due while another pulse runs on the output is SKIPPED too. -/
def givePulse (n : Node) (o : Nat) (byCmd : Bool) : Node × Bool :=
  let x := outputOf n o
  if x.phase = .on ∧ !x.pulse ∧ drives n ∧ holder n then (startPulse n o byCmd, true)
  else (modOutput n o (fun x => { x with last := 4 }), false)

/-- SO_TESTs whose boundary has come. -/
def dueTests (n : Node) : Node :=
  (keys n.safety.outs).foldl (fun n o =>
    match (outputOf n o).soTest with
    | some f =>
      if f ≤ n.bAt then
        let r := givePulse (modOutput n o (fun x => { x with soTest := none })) o true
        if r.2 then r.1 else resolveCmd r.1 8 (some false)
      else n
    | none => n) n

/-- Switches of an output in its energisation test, by the time since its start (R228). -/
def testSwitches (n : Node) (o : Nat) : Node :=
  let x := outputOf n o
  if x.phase = .testing then
    let e := n.now - x.etStart
    modOutput n o (fun x => { x with
      hs := decide (e < 200000) || decide (440000 ≤ e), ls := decide (220000 ≤ e ∧ e < 420000) || decide (440000 ≤ e) })
  else n

/-- FB_TIMEOUT (R233). -/
def fbDue (n : Node) (o : Nat) : Node :=
  let x := outputOf n o
  match x.misSince with
  | some m =>
    if fbEn n o && !x.fbFlt && holder n && decide (max m x.expectAt + fld (soFb n o) 8 0 * 1000000 ≤ n.now) then
      let n := modOutput n o (fun x => { x with fbFlt := true })
      raiseB (note n (recSafety (taiNow n) 3 true o 0 (soutPage o) (soSt n o))) (soutPage o) 1
    else n
  | none => n

/-- Outputs that a feedback input supervises, enabled or not (R233). -/
def fbOuts (n : Node) : List Nat := (List.range 32).filter (fbEn n)

/-- Outputs that are used, supervised or hold a state. -/
def knownOuts (n : Node) : List Nat := (enabledOuts n ++ fbOuts n).foldl (fun l o => insertNat o l) (keys n.safety.outs)

/-- Terminals and current of an output as measured, within the ranges of 18 Table 18.7. -/
def takeSout (n : Node) (x : SoutSample) : Node :=
  if x.so < 32 then
    modOutput n x.so (fun y => { y with vplus := min x.vplus 4000, vminus := min x.vminus 4000, cur := min x.cur 10000 })
  else n

/-- A measured supply; VS_LOW below 16 V. -/
def vsChange (n : Node) (v volt : Nat) : Node :=
  let was := (tget {} n.safety.vs v).low
  let low := decide (volt < 1600)
  let n := modSafety n (fun s => { s with vs := tset {} s.vs v { volt := min volt 4000, low := low } })
  raiseBIf (low && !was) n (0x64 + v) 2

/-- The values of SO_MON, SO_CUR and SOUT_VS at a boundary (R245). -/
def takeSouts (n : Node) (inp : BoundaryIn) : Node :=
  inp.vs.foldl (fun n e => if e.1 < 4 then vsChange n e.1 e.2 else n) (inp.souts.foldl takeSout n)

/-- The safety part of a voted boundary, after the drive decision: measurements, latch writes, capture, supervision, commands. -/
def safetyBoundary (n : Node) (inp : BoundaryIn) : Node :=
  let took := paired n && drives n && !n.safety.drove
  let n := takeSouts n inp
  let old := n
  let n := fabricSettle (writeLatches (fabricAdvance n))
  let n := (List.range 3).foldl captureCopy n
  let diff := fabDiff n inp.fabDiff
  let n := if n.nodeSt.state = .init then n
    else diffRaise diff ((List.range 3).foldl (superviseCopy diff inp.fabCrcBad) n)
  let n := latchRaise old n
  let n := (shownPairs n).foldl capturePair n
  let n := (knownOuts n).foldl (applyOutput inp.soCopies took) n
  let n := settleOutputs n
  let n := dueTests n
  let n := (knownOuts n).foldl (fun n o => fbDue (fbStep (testSwitches n o) o) o) n
  modSafety n (fun s => { s with drove := drives n })

/-! Channels used by a function (R217) -/

/-- Points a derived point reads through class 1 references, and channels through class 2. -/
def ptInputs (n : Node) (k : Nat) : List Nat :=
  if k < 4096 then []
  else (List.range 4).filterMap (fun i => let r := derIn n (k - 4096) i; if inClass r = 1 then some (inIndex r) else none)
def ptChs (n : Node) (k : Nat) : List Nat :=
  if k < 4096 then [k / 8]
  else (List.range 4).filterMap (fun i => let r := derIn n (k - 4096) i; if inClass r = 2 then some (inIndex r) else none)

/-- Points reached from a list through class 1 references at any depth. -/
def closePts (n : Node) (fuel : Nat) (todo seen : List Nat) : List Nat :=
  match fuel, todo with
  | 0, _ => seen
  | _, [] => seen
  | f + 1, k :: r => if seen.contains k then closePts n f r seen else closePts n f (ptInputs n k ++ r) (k :: seen)

def usedChs (n : Node) (s : Nat) : List Nat :=
  let ps := closePts n 30000 (slowPts n s) []
  let all := mapChs n s ++ (mapPairs n s).flatMap (fun k => [2 * k, 2 * k + 1]) ++ ps.flatMap (ptChs n) ++ mappedAos n s
  all.foldl (fun l c => insertNat c l) []

/-! Evaluation (R222, R234) -/

/-- R161 applies to a channel for a function. -/
def chDemand (n : Node) (s ch : Nat) : Bool :=
  let d := diagOf n ch
  !nbit (resOf n ch).stat 0 || d.cutRef || (d.cmpFlt && bit (tripCmp n s (ch / 32)) (ch % 32))

/-- Carried instant of a point's result: its channel's for a slot, S for a derived point. -/
def ptInstant (n : Node) (k : Nat) : Nat := if k < 4096 then carried n (k / 8) else n.sampleT

/-- Earliest of instants; S of the frame where there is none. -/
def earliest (n : Node) (l : List Nat) : Nat := match l with | [] => n.sampleT | x :: r => r.foldl min x

def laneDemand (n : Node) : Bool := lanesSingle n || n.laneSt.degExp

/-- The causes of slow demand that hold, with their instants (10 Table 10.8, R240). -/
def slowCauses (n : Node) (s : Nat) : List (Nat × Nat) :=
  let ks := (mapPairs n s).filter (fun k => !(pairOf n k).permit || (pairOf n k).discFlt)
  let ps := (slowPts n s).filter (fun k => (pointOf n k).cond)
  let cs := (usedChs n s).filter (chDemand n s)
  let ao := (mappedAos n s).any (fun c => let t := (resOf n c).stat; nbit t 7 || nbit t 6)
  (if ks = [] then [] else [(2, earliest n (ks.map (fun k => (pairOf n k).time)))]) ++
  (if ps = [] then [] else [(3, earliest n (ps.map (ptInstant n)))]) ++
  (if cs = [] then [] else [(4, earliest n (cs.map (carried n)))]) ++
  (if ao then [(5, n.sampleT)] else []) ++
  (if n.nodeSt.state = .safe then [(6, n.sampleT)] else []) ++
  (if laneDemand n then [(7, n.sampleT)] else [])

/-- The locking fault that holds: FAB_FAIL locks every function with its own cause (R220), else the lowest code (R234). -/
def lockCause (n : Node) (s : Nat) : Option Nat :=
  if n.safety.failed then some 11
  else if (mapPairs n s).any (fun k => (pairOf n k).discFlt) then some 8
  else if (fnOuts n s).any (fun o => (outputOf n o).soFlt) then some 9
  else if (fnOuts n s).any (fun o => (outputOf n o).fbFlt) then some 10
  else none

/-- STUP_WAIT and FB_WAIT. -/
def stupWaits (n : Node) (s : Nat) : Bool := (mapPairs n s).any (fun k => !(pairOf n k).stupOk)
def fbWaits (n : Node) (s : Nat) : Bool := (fnOuts n s).any (fun o => fbEn n o && !(outputOf n o).fbSeen)

/-- The SAF bits of a function that comes from one state to another; LOCKED may be entered afresh (R234, R247). -/
def raiseFn (n : Node) (old new : SfState) : Node :=
  let n := raiseRIf (decide (old ≠ new)) n 8 0
  match new with
  | .locked => raiseR n 8 3
  | .tripped => raiseR n 8 2
  | .active => raiseR n 8 1
  | _ => n

/-- The TRIP record of a function that has entered TRIPPED, and the captures it triggers. -/
def tripped (n : Node) (s cause time : Nat) : Node :=
  let n := note n (recTrip time s cause (sfSt n s))
  (List.range 8).foldl (fun n d =>
    if fld (capCfg n d) 25 24 = 2 ∧ fld (capCfg n d) 20 8 = s then triggerCap n d 2 time else n) n

/-- A function enters a state, with CAUSE and instant for TRIPPED and LOCKED, records and interrupts (R240, R247). -/
def enterFn (n : Node) (s : Nat) (st : SfState) (cause time : Nat) : Node :=
  let old := (fnOf n s).state
  let n := modFn n s (fun x => { x with
    state := st, cause := if st = .tripped ∨ st = .locked then cause else x.cause,
    time := if st = .tripped ∨ st = .locked then time else x.time, clearPend := decide (st = .active) })
  let n := raiseFn n old st
  if st = .tripped then tripped n s cause time else n

/-- CAUSE of a LOCKED function while the fabric has failed (R220). -/
def failCause (n : Node) (s : Nat) : Node :=
  modFn n s (fun x => if x.state = .locked ∧ x.cause ≠ 11 then { x with cause := 11, time := n.sampleT } else x)

/-- A reset in LOCKED: every fault whose clearing condition holds (R225, R232, R233). Whether any cleared. -/
def clearPair (r : Node × Bool) (k : Nat) : Node × Bool :=
  let n := r.1
  let p := pairOf n k
  if p.discFlt && p.safeSeen && !pairXshort n k && (List.range 3).any (fun c => (evalOf n c k).discFlt) then
    let n := (List.range 3).foldl (fun n c => modEval n c k (fun e => { e with discFlt := false, safeSeen := false, discAt := n.now })) n
    let shown := sinSt (modPair n k (fun p => { p with discFlt := false, safeSeen := false })) k
    (note n (recSafety (evalTime n) 1 false k 0 (0x68 + k / 64) shown), true)
  else r

def clearOut (r : Node × Bool) (o : Nat) : Node × Bool :=
  let n := r.1
  let x := outputOf n o
  let r := if x.soFlt && decide (x.phase = .off) && decide (x.monAt + 1000000000 ≤ n.now) then
      let code := x.fltCode
      let n := modOutput n o (fun x => { x with soFlt := false, fltCode := 0 })
      (note n (recSafety (evalTime n) 2 false o code (soutPage o) (soSt n o)), true)
    else r
  let n := r.1
  if x.fbFlt && fbReleased n o then
    let n := modOutput n o (fun x => { x with fbFlt := false, misSince := none })
    (note n (recSafety (evalTime n) 3 false o 0 (soutPage o) (soSt n o)), true)
  else r

def clearFaults (n : Node) (s : Nat) : Node × Bool :=
  (fnOuts n s).foldl clearOut ((mapPairs n s).foldl clearPair (n, false))

/-- A named output that a reset would energise has VS_LOW (R227, R235, 18 R426). -/
def vsLow (n : Node) (s : Nat) : Bool := (fnOuts n s).any (fun o => soEn n o && (tget {} n.safety.vs (o / 8)).low)

/-- One function's evaluation; `reset` gives the source of a reset given in this frame: 0 host, 1 channel. The reset's
outcome: applied. -/
def evalFn (n : Node) (s : Nat) (reset : Option Nat) : Node × Bool :=
  let old := (fnOf n s).state
  let r := if reset.isSome && decide (old = .locked) then clearFaults n s else (n, false)
  let cleared := r.2
  let n := r.1
  let slow := slowCauses n s
  let fast := votedDemand n s
  let causes := (if fast || (decide (old = .active) && votedLatch n s) then [(1, (fnOf n s).fastT)] else []) ++ slow
  let demand := fast || !slow.isEmpty
  let sw := stupWaits n s
  let fw := fbWaits n s
  let n := modFn n s (fun x => { x with slow := !slow.isEmpty, dem := demand, stupWait := sw, fbWait := fw })
  let first := causes.head?.getD (0, n.sampleT)
  let trip := fun (n : Node) => enterFn n s .tripped first.1 first.2
  let low := vsLow n s
  let n' := match lockCause n s with
    | some c => if old = .locked then (if c = 11 then failCause n s else n) else enterFn n s .locked c n.sampleT
    | none =>
      match old with
      | .locked => if sw || fw then n else if demand then trip n else enterFn n s .ready 0 0
      | .tripped => if demand then n else enterFn n s .ready 0 0
      | .ready => if demand then trip n else if reset.isSome && !low then enterFn n s .active 0 0 else n
      | .active => if causes.isEmpty then n else trip n
      | .off => enterFn n s .locked 12 n.sampleT
  let activated := decide (old = .ready) && decide ((fnOf n' s).state = .active)
  let refused := decide (old = .ready) && reset.isSome && !activated && decide ((fnOf n' s).state = .ready) && low
  let n'' := if cleared || activated then note n' (recSafety (evalTime n) 6 true s (reset.getD 0) 8 (sfSt n' s))
    else if refused then note n' (recSafety (evalTime n) 7 true s (reset.getD 0) 8 (sfSt n' s)) else n'
  (n'', cleared || activated)

/-- The reset channel of a function in one frame (R236): whether it gives a reset. -/
def resetChannel (n : Node) (s : Nat) : Node × Bool :=
  let w := sfCfg n s
  if !bit w 29 then (n, false)
  else
    let ch := fld w 17 9
    let r := resOf n ch
    let x := fnOf n s
    if !nbit r.stat 0 ∨ !isDi n ch then (modFn n s (fun x => { x with chPrev := none, chFirst := none }), false)
    else if r.val = 1 then
      let i := carried n ch
      (modFn n s (fun x => { x with chPrev := some true, chFirst := some (x.chFirst.getD i), chLast := i }), false)
    else
      let run := x.chLast - x.chFirst.getD x.chLast + n.period
      let give := decide (x.chPrev = some true) && decide (100000000 ≤ run ∧ run ≤ 5000000000)
      (modFn n s (fun x => { x with chPrev := some false, chFirst := none }), give)

/-- The runs of the reset channels go on in every frame, whether or not functions are evaluated. -/
def trackResets (n : Node) : Node := (enabledFns n).foldl (fun n s => (resetChannel n s).1) n

/-- The lanes' command of an output for the next boundary (R227). -/
def nextCommand (n : Node) (o : Nat) : Node :=
  let fs := naming n o
  let x := outputOf n o
  let on := isRun n && soEn n o && !fs.isEmpty && fs.all (fun s => decide ((fnOf n s).state = .active)) && !x.soFlt && !x.fbFlt
  modOutput n o (fun x => { x with next := on })

/-- A KIND 8 record: one fault of a channel sets or clears (07 R160). -/
def faultRec (n : Node) (ch : Nat) (set : Bool) : Node :=
  note n (recSafety (evalTime n) 8 set ch 0 (rnkPage ch) (dgStat n ch))

/-- The records of one channel's faults in a frame: each fault that sets or clears has its own; bit 7 tells of the rank with
the opposite sense. -/
def recordCh (used : Bool) (n : Node) (ch : Nat) : Node :=
  let was := (diagOf n ch).faults
  let now := faultMask n ch
  let n := modDiag n ch (fun d => { d with faults := now })
  if used then
    (List.range 8).foldl (fun n i =>
      if now.testBit i = was.testBit i then n else faultRec n ch (now.testBit i != decide (i = 7))) n
  else n

/-- Channel faults (07 R160), in every state that evaluates channels. -/
def recordFaults (n : Node) : Node :=
  let used := (enabledFns n).foldl (fun l s => (usedChs n s).foldl (fun l c => insertNat c l) l) []
  (activeChs n).foldl (fun n ch => recordCh (used.contains ch) n ch) n

/-- The slow path of a frame in RUN and SAFE, in the module that evaluates. -/
def evalSafety (n : Node) : Node :=
  let n := pulseVerdicts n
  let host := n.safety.resets
  let n := if host.isSome then modSafety n (fun s => { s with resets := none }) else n
  let n := modSafety n (fun s => { s with nodeDem := decide (n.nodeSt.state = .safe) || laneDemand n })
  let r := (enabledFns n).foldl (fun (r : Node × Bool) s =>
    let c := resetChannel r.1 s
    let byHost := (host.getD []).contains s
    let e := evalFn c.1 s (if byHost then some 0 else if c.2 then some 1 else none)
    (e.1, r.2 || (byHost && e.2))) (n, false)
  let n := if host.isSome then resolveCmd r.1 8 (some r.2) else r.1
  (knownOuts n).foldl nextCommand n

/-- Functions LOCKED with a cause: CFG enters LOCKED afresh (R234); a failed fabric keeps its own cause in NODE's place
(R220). -/
def lockFns (n : Node) (fs : List Nat) (cause : Nat) : Node :=
  let cause := if n.safety.failed && cause == 12 then 11 else cause
  fs.foldl (fun n s =>
    let x := fnOf n s
    let fast := votedDemand n s
    if x.state = .locked ∧ cause ≠ 13 then
      modFn n s (fun x => { x with cause := cause, time := n.sampleT, clearPend := false, slow := false, dem := fast })
    else modFn (enterFn n s .locked cause n.sampleT) s (fun x => { x with slow := false, dem := fast })) n

def offOutputs (n : Node) : Node :=
  (keys n.safety.outs).foldl (fun n o =>
    let n := modOutput n o (fun x => { x with cmd := false, next := false })
    if (outputOf n o).phase = .off then n else dropOutput n o) n

/-- Every enabled function LOCKED, every latch set, every output off (R239). -/
def lockAll (n : Node) (cause : Nat) : Node := offOutputs (setAllLatches (lockFns n (enabledFns n) cause))

/-- A reset whose evaluation will not come ends FAILED. -/
def dropResets (n : Node) : Node :=
  if n.safety.resets.isSome then resolveCmd (modSafety n (fun s => { s with resets := none })) 8 (some false) else n

/-- A frame in the module that does not hold the output claim: it commands by the states it has adopted (R239). -/
def followSafety (n : Node) : Node :=
  let n := trackResets (dropResets n)
  (knownOuts n).foldl nextCommand n

/-- A command of the SAF page whose evaluation will not come ends FAILED. -/
def dropSafCmd (n : Node) : Node :=
  let n := dropResets n
  (keys n.safety.outs).foldl (fun n o =>
    if (outputOf n o).soTest.isSome then resolveCmd (modOutput n o (fun x => { x with soTest := none })) 8 (some false) else n) n

/-- A frame in a state that does not evaluate: the arming conditions show all the same (17 R401), and DEMAND is the fast one
(R216). -/
def quietSafety (n : Node) : Node :=
  let n := trackResets (dropSafCmd n)
  let n := (enabledFns n).foldl (fun n s => modFn n s (fun x => { x with
    stupWait := stupWaits n s, fbWait := fbWaits n s, slow := false, dem := votedDemand n s })) n
  let new := (enabledFns n).filter (fun s => decide ((fnOf n s).state ≠ .locked))
  let n := if new = [] then n else lockFns n new 12
  let n := if n.safety.failed then (enabledFns n).foldl failCause n else n
  modSafety n (fun s => { s with nodeDem := false })

/-- A loop output that a function not ACTIVE holds at its safe level (R238). -/
def aoSafe (n : Node) (ch : Nat) : Bool :=
  (List.range 64).any (fun e => let w := aoMap n e; bit w 31 && fld w 8 0 == ch && decide ((fnOf n (fld w 29 24)).state ≠ .active))

/-! SAF_CMD (10 Table 10.11) -/

def safCheck (n : Node) (path : Nat) (v : Word) : CmdCheck :=
  let op := fld v 3 0
  let i := fld v 23 16
  { code := decide (1 ≤ op ∧ op ≤ 3), state := isRun n && holder n, level := levelOk n path (if op = 3 then 3 else 1),
    value := match op with
      | 1 => decide (i < 64) && bit (sfCfg n i) 30
      | 3 => decide (i < 32) && decide (100 ≤ tpLen n i ∧ tpLen n i ≤ 800)
      | _ => true }

/-- Taken up: a reset waits for the evaluation of its frame, a test for the boundary of the frame after it. -/
def safTake (op i : Nat) (n : Node) : Node × Option Bool :=
  match op with
  | 1 => (modSafety n (fun s => { s with resets := some [i] }), none)
  | 2 => (modSafety n (fun s => { s with resets := some ((enabledFns n).filter (fun k => bit (sfCfg n k) 30)) }), none)
  | _ => (modOutput (ownEnd n 8) i (fun x => { x with soTest := some (n.bAt + 1) }), none)

def safCmdWrite (n : Node) (path : Nat) (v : Word) : Node :=
  runCommand n path 8 (at_ 8 0x44) v (safCheck n path v) (defer 8 (.saf (fld v 3 0) (fld v 23 16)))

/-! Rows of the outputs -/

/-- ENERGISATION_TEST: step 1 begins. -/
def testStart (n : Node) (o : Nat) : Node :=
  if (outputOf n o).phase = .due then
    modOutput n o (fun x => { x with phase := .testing, etStart := n.now, hs := true, ls := false })
  else n

/-- ENERGISATION_TEST_DONE: passed, or failed with code 3 or 4. -/
def testDone (n : Node) (o code : Nat) : Node :=
  if (outputOf n o).phase = .testing then
    if code = 3 ∨ code = 4 then setSoFlt (dropOutput n o) o code
    else
      let n := modOutput n o (fun x => { x with
        phase := .on, hs := true, ls := true, nextDue := if tpEn n o then some (n.now + tpInt n o * 1000000000) else none })
      setExpect n o true
  else n

/-- TEST_PULSE: a periodic pulse that is due. -/
def pulseStart (n : Node) (o : Nat) : Node :=
  let x := outputOf n o
  let due : Bool := match x.nextDue with | some d => decide (d ≤ n.now) | none => false
  if x.phase = .on ∧ !x.pulse ∧ tpEn n o ∧ due ∧ !withheld n o ∧ holder n then startPulse n o false else n

/-- TEST_PULSE_END: the load voltage fell below 5 V (code 1) or did not; a failure waits for the 50 us of R231. -/
def pulseDone (n : Node) (o code : Nat) : Node :=
  let x := outputOf n o
  if x.pulse then
    let ok := decide (code = 1)
    let n := modOutput n o (fun x => { x with
      pulse := false, pulseEnd := n.now, verdict := !ok, hs := true, ls := true, nextLs := !x.pulseLs, last := if ok then 1 else 2,
      passed := if ok then sat 65535 (x.passed + 1) else x.passed })
    endTest n o true
  else n

/-- The holder's heartbeat reports the output energised (12 R292). -/
def partnerEnergised (n : Node) (o : Nat) : Bool :=
  !drives n && !n.duplex.plost && (match n.duplex.hb with | some h => h.head.ohold && (tget {} h.souts o).cmd | none => false)

/-- SO_MONITOR_FAULT (R229): while the output is off, by the lanes or by the fabric, in use or not; not where the partner drives
the load. -/
def monitorFault (n : Node) (o : Nat) (ls : Bool) (vplus vminus cur : Nat) : Node :=
  let x := outputOf n o
  let n := modOutput n o (fun x => { x with vplus := min vplus 4000, vminus := min vminus 4000, cur := min cur 10000 })
  if decide (x.phase = .off) && !partnerEnergised n o then
    modOutput (setSoFlt n o (if ls then 2 else 1)) o (fun x => { x with monAt := n.now })
  else n

/-- SO_OVERLOAD (R227): both switches open. -/
def overload (n : Node) (o cur : Nat) : Node :=
  let x := outputOf n o
  if x.hs || x.ls then setSoFlt (dropOutput (modOutput n o (fun x => { x with cur := min cur 10000 })) o) o 6 else n

/-- FB_SETTLE: the level that has held for 1 ms. -/
def fbSettle (n : Node) (f : Nat) (level : Bool) : Node :=
  let n := modSafety n (fun s => { s with fb := tset false s.fb f level })
  (fbOuts n).foldl (fun n o => if fbInput n o = f then fbStep n o else n) n

/-- FABRIC_TEST (R220): one copy in turn every 4096 F; its permissions and latches are held meanwhile. -/
def fabricTest (n : Node) : Node :=
  if n.safety.copy0.excluded || n.safety.copy1.excluded || n.safety.copy2.excluded then n
  else modSafety n (fun s => { s with testCopy := (s.testCopy + 1) % 3 })

/-! Meanings -/

/-- An event of output o. -/
def onOut (s : State) (t o : Nat) (f : Node → Node) : State :=
  onNode s t (fun n => if o < 32 then f (fabricAdvance n) else n)

/-- COMPARATOR_CROSSING (04 R95, R96, R218). -/
def execComparatorCrossing (t ch : Nat) (sigHi sigLo : Int) (copies : Nat) (s : State) :
    Host.Outcome State Fault Refusal :=
  .next (onNode s t (withFabric (fun n => setComparator n ch sigHi sigLo copies)))

/-- DIAG_SLOT (07 R146): XSHORT reaches the evaluators. -/
def execDiagSlot (t : Nat) (results : List (Nat × SlotResult)) (s : State) : Host.Outcome State Fault Refusal :=
  .next (onNode s t (withFabric (fun n => (shownPairs n).foldl (xshortStep n) (diagSlot n results))))


/-- DISCREPANCY_TIMEOUT (R224): the tick at which DCNT reaches DT. -/
def execDiscrepancyTimeout (t _pair _copy : Nat) (s : State) : Host.Outcome State Fault Refusal :=
  .next (onNode s t fabricAdvance)

def execSafReset (t fn : Nat) (s : State) : Host.Outcome State Fault Refusal :=
  .next (onNode s t (fun n => safCmdWrite n hostPath (pack [(fn, 16, 8), (1, 0, 4)])))
def execSafResetAll (t : Nat) (s : State) : Host.Outcome State Fault Refusal :=
  .next (onNode s t (fun n => safCmdWrite n hostPath 2))
def execSafSoTest (t so : Nat) (s : State) : Host.Outcome State Fault Refusal :=
  .next (onNode s t (fun n => safCmdWrite n hostPath (pack [(so, 16, 8), (3, 0, 4)])))
def execFabricTest (t : Nat) (s : State) : Host.Outcome State Fault Refusal := .next (onNode s t fabricTest)
def execEnergisationTest (t so : Nat) (s : State) : Host.Outcome State Fault Refusal :=
  .next (onOut s t so (fun n => testStart n so))
def execEnergisationTestDone (t so code : Nat) (s : State) : Host.Outcome State Fault Refusal :=
  .next (onOut s t so (fun n => testDone n so code))
def execTestPulse (t so : Nat) (s : State) : Host.Outcome State Fault Refusal :=
  .next (onOut s t so (fun n => pulseStart n so))
def execTestPulseEnd (t so code : Nat) (s : State) : Host.Outcome State Fault Refusal :=
  .next (onOut s t so (fun n => pulseDone n so code))
def execSoMonitorFault (t so : Nat) (ls : Bool) (vplus vminus cur : Nat) (s : State) : Host.Outcome State Fault Refusal :=
  .next (onOut s t so (fun n => monitorFault n so ls vplus vminus cur))
def execSoOverload (t so cur : Nat) (s : State) : Host.Outcome State Fault Refusal :=
  .next (onOut s t so (fun n => overload n so cur))
def execVsLowChange (t vs volt : Nat) (s : State) : Host.Outcome State Fault Refusal :=
  .next (onNode s t (fun n => if vs < 4 then vsChange n vs volt else n))
def execFbSettle (t fb : Nat) (level : Bool) (s : State) : Host.Outcome State Fault Refusal :=
  .next (onNode s t (fun n => if fb < 32 then fbSettle n fb level else n))
def execFbTimeout (t so : Nat) (s : State) : Host.Outcome State Fault Refusal :=
  .next (onOut s t so (fun n => fbDue n so))

end Sys2Proof.Machine
end

