-- ==== Sys2Proof/Machine/LoopOut.lean ====
section
/-! DEFINITION. The loop outputs: setpoints, the lanes' commands, what the stage drives and the group demand (06). -/

namespace Sys2Proof.Machine

/-! CHN_CFG.OUT (Table 06.4) -/

def outLimit (n : Node) (ch : Nat) : Bool := bit (chnCfg n ch) 20
def outSafe (n : Node) (ch : Nat) : Nat := fld (chnCfg n ch) 19 18

/-- Code and mark of the safe level that CHN_CFG.OUT.SAFE selects (R132). -/
def safeLevel (n : Node) (ch : Nat) : Nat × OState :=
  let w := chnCfg n ch
  match outSafe n ch with
  | 0 => (if bit w 16 then 8000 else 9000, .failLow)
  | 1 => (if bit w 17 then 55000 else 52500, .failHigh)
  | 2 => ((stageOf n ch).lastNormal, .hold)
  | _ => (0, .zero)

/-- The code of a current in 0.1 uA, ties away from 0 (R125). -/
def codeOf (cur : Nat) : Nat := (cur + 2) / 4

/-! The lanes' command (R130) -/

/-- The AO_STEP entry that fires on a channel in the next frame; the highest entry where several do. -/
def launchStep (n : Node) (ch : Nat) : Option Nat :=
  n.launches.foldl (fun a e =>
    let l := e.2
    if l.state = .armed ∧ fld l.act 3 0 = 1 ∧ fld l.act 24 16 = ch ∧ l.tgt = n.frame + 1 then some l.arg.toNat else a) none

/-- Setpoint, clip and command of one channel in a frame. -/
def computeAo (n : Node) (ch : Nat) : Node :=
  let n := match launchStep n ch with
    | some v => modStage n ch (fun s => { s with set := v })
    | none => n
  if n.nodeSt.state = .safe ∨ aoSafe n ch then
    let l := safeLevel n ch
    modStage n ch (fun s => { s with cmd := l.1, mark := l.2, clipped := false })
  else
    let v := (stageOf n ch).set
    let c := if outLimit n ch then max 38000 (min 205000 v) else v
    modStage n ch (fun s => { s with cmd := codeOf c, mark := .normal, clipped := decide (c ≠ v) })

/-- Channels in AO_SRC and AO_SNK. -/
def aoChs (n : Node) : List Nat := (activeChs n).filter (isAo n)

/-- The commands of a frame. -/
def computeAos (n : Node) : Node := (aoChs n).foldl computeAo n

/-! The stage at B (R129, R131) -/

/-- The valid copies that reach a stage: lane and code. -/
def validCopies (n : Node) (exc : List (Nat × Nat × Option Nat)) (ch : Nat) : List (Nat × Nat) :=
  (members n.laneSt.cmds 3).filterMap (fun l =>
    match exc.find? (fun e => e.1 == ch && e.2.1 == l) with
    | some e => e.2.2.map (fun c => (l, c))
    | none => some (l, (stageOf n ch).cmd))

/-- The code of the majority and how many copies agree with it; one copy counts where its lane was announced. -/
def stageVote (n : Node) (cs : List (Nat × Nat)) : Option (Nat × Nat) :=
  match cs with
  | [(l, c)] => if n.laneSt.announced && n.laneSt.surv == l then some (c, 1) else none
  | _ =>
    (cs.find? (fun x => decide (2 ≤ (cs.filter (fun y => y.2 == x.2)).length))).map
      (fun x => (x.2, (cs.filter (fun y => y.2 == x.2)).length))

/-- A stage that is off. -/
def stageOff (st : OState) (s : Stage) : Stage :=
  { s with code := 0, ostate := st, copies := 0, enabled := false, noMaj := 0 }

/-- The drive states at which a stage conducts: the entries of Table 06.3 in order; `on` tells that the node has been
in RUN or SAFE since before this B. The stages of a FAULTY rank are unpowered (01 Table 01.5; DEDUCED, log entry 93), and do not
enter Clamp (R141). DESIGN CHOICE (log entry 92): at the first B without a majority after an off or standby stage, the stage
stays off and OSTATE keeps its value; COPIES reads 0 at a B without a majority and in CLAMP, whatever copy equals the held code. -/
def driveStage (exc : List (Nat × Nat × Option Nat)) (on : Bool) (n : Node) (ch : Nat) : Node :=
  let was := (stageOf n ch).ostate
  let n := modStage n ch (fun s => { s with prevCode := s.code, prevO := s.ostate })
  if !(rankOf n (rankOfCh ch)).powered || (rankOf n (rankOfCh ch)).faulty || !on then modStage n ch (stageOff .off)
  else if paired n && decide (n.duplex.drive = .clamp) then
    modStage n ch (fun s => { s with ostate := .clamp, copies := 0 })
  else if !drives n then modStage n ch (stageOff .standby)
  else
    match stageVote n (validCopies n exc ch) with
    | some (c, k) =>
      modStage n ch (fun s => { s with
        code := c, ostate := s.mark, copies := k, enabled := true, noMaj := 0,
        lastNormal := if s.mark = .normal then c else s.lastNormal })
    | none =>
      let l := safeLevel n ch
      let n := modStage n ch (fun s =>
        if 1 ≤ s.noMaj then { s with code := l.1, ostate := .nomaj, copies := 0, enabled := true, noMaj := 2 }
        else { s with copies := 0, noMaj := 1 })
      raiseBIf (decide ((stageOf n ch).ostate = .nomaj) && decide (was ≠ .nomaj)) n (rnkPage ch) 9

/-- AO_SET as taken up at this B: writes at least 5 us before it. -/
def takeSets (n : Node) (ch : Nat) : Node :=
  modStage n ch (fun s =>
    let due := s.pend.filter (fun p => p.2 + 5000 ≤ n.now)
    match due.getLast? with
    | some p => { s with set := p.1, pend := s.pend.filter (fun p => n.now < p.2 + 5000) }
    | none => s)

/-- The loop outputs at a voted boundary. -/
def aoBoundary (n : Node) (exc : List (Nat × Nat × Option Nat)) (on : Bool) : Node :=
  let n := (keys n.stages).foldl takeSets n
  (aoChs n).foldl (driveStage exc on) n

/-! Group demand (R136, 04 Table 04.4), at the vote of a frame -/

/-- Compliance demand of a channel, 10 mV; the spec states no rounding of V_HI x I_cmd / I_meas to the unit of DEMAND: DESIGN
CHOICE (log entry 92), to the nearest. -/
def chDemandV (n : Node) (ch : Nat) : Nat :=
  match chnSel n ch with
  | 1 => if chnWiring n ch = 2 then 0 else 2400
  | 2 =>
    let rb := (frontOf n ch).rb
    let s := stageOf n ch
    if rb < 10000 then 2650 else (divRound ((s.vhi : Int) * (4 * s.cmd)) rb.toNat).toNat
  | 4 => if chnExc n ch = 1 then 2400 else 0
  | 5 => if chnExc n ch = 4 then 1000 else 600
  | 6 => 600
  | 8 | 9 => 820
  | _ => 0

/-- Highest demand of every group of a rank. -/
def rankDemand (n : Node) (r : Nat) : Node :=
  let hi := fun g => ((chsOfRank n r).filter (fun c => groupInRank c == g)).foldl (fun m c => max m (chDemandV n c)) 0
  let h0 := hi 0
  let h1 := hi 1
  let h2 := hi 2
  let h3 := hi 3
  modRank n r (fun x => { x with
    g0 := { x.g0 with demand := h0 }, g1 := { x.g1 with demand := h1 }, g2 := { x.g2 with demand := h2 }, g3 := { x.g3 with demand := h3 } })

def groupDemands (n : Node) : Node := (keys n.ranks).foldl (fun n r => if (rankOf n r).powered then rankDemand n r else n) n

/-! AO_SET (R142, R144) -/

/-- A write of AO_SET: discarded with SET_REJ where the value is out of range, a reserved bit is set, or the module of
a pair does not hold the claim; accepted in every node state. -/
def aoSetWrite (n : Node) (path ch : Nat) (v : Word) : Node :=
  let p := rnkPage ch
  if (headerOf n p).locked then lockedWrite n path p
  else if 240000 < v.toNat ∨ !holder n then raise n p 8
  else modStage n ch (fun s => { s with pend := s.pend ++ [(v.toNat, n.now)] })

/-- AO_SET reads the newest value written, where one waits. -/
def aoSetRead (s : Stage) : Nat := match s.pend.getLast? with | some p => p.1 | none => s.set

/-- AO_STAT (Table 06.8): the frame that ended at the last B. -/
def ostateCode : OState → Nat
  | .off => 0
  | .normal => 1
  | .failLow => 2
  | .failHigh => 3
  | .hold => 4
  | .zero => 5
  | .clamp => 6
  | .standby => 7
  | .nomaj => 8

def aoStat (n : Node) (ch : Nat) : Word :=
  let s := stageOf n ch
  let t := (resOf n ch).stat
  if isAo n ch then
    pack [(s.code, 16, 16), (s.copies, 10, 2), (b2n s.clipped, 9, 1), (ostateCode s.ostate, 4, 4), (b2n (nbit t 5), 3, 1),
      (b2n (nbit t 6), 2, 1), (b2n (nbit t 7), 1, 1), (b2n s.enabled, 0, 1)]
  else 0

/-! Meanings -/

def execAoSetWrite (t ch : Nat) (v : Word) (s : State) : Host.Outcome State Fault Refusal :=
  .next (onNode s t (fun n => if ch < 512 then aoSetWrite n hostPath ch v else n))

end Sys2Proof.Machine
end

