-- ==== Sys2Proof/Machine/Lanes.lean ====
section
/-! DEFINITION. The three lanes: input and output exchange, the vote, exclusion, reintegration and degraded time (11). -/

namespace Sys2Proof.Machine

def modLaneSt (n : Node) (f : LaneSt → LaneSt) : Node := { n with laneSt := f n.laneSt }

/-- Voting lanes, ascending. -/
def votingLanes (n : Node) : List Nat := members n.laneSt.mask 3

/-- Donor of a transfer or shadow: the lower-numbered voting lane, or the survivor (R263). -/
def donor (n : Node) : Option Nat := (votingLanes n).head?

/-- The lane in TRANSFER or SHADOW. -/
def rejoining (n : Node) : Option Nat :=
  [0, 1, 2].find? (fun l => let p := (laneOf n l).phase; p == 4 || p == 5)

/-- A lane that exchanges: VOTING or SHADOW. -/
def exchanges (n : Node) (l : Nat) : Bool := let p := (laneOf n l).phase; p == 0 || p == 5

/-- A LANE record; in NONE, where no lane writes, Scarab writes it from its own logic (R261, 15 Table 15.3; log entry 103). -/
def noteLane (n : Node) (r : Rec) : Node := note n (if lanesNone n then { r with origin := oScarab } else r)

/-- A change of phase, with its record (R263). -/
def setPhase (n : Node) (l p : Nat) : Node :=
  let x := laneOf n l
  if x.phase = p then n
  else
    let n := noteLane n (recLane n 3 l x.phase p x.cause 0 0)
    modLane n l (fun x => { x with phase := p, since := n.now })

/-! Input exchange (R249, 01 R15) -/

/-- Whether a rank's content can be chosen: ok lists the voting lanes with a valid copy, alt those whose valid copy
differs from the others. -/
def choosable (n : Node) (ok alt : List Nat) : Bool :=
  match n.laneSt.state with
  | 0 => decide (2 ≤ (ok.filter (fun l => !alt.contains l)).length)
  | 1 => decide (ok.length = 1) || (decide (2 ≤ ok.length) && (ok.filter (alt.contains ·)).isEmpty)
  | 2 => !ok.isEmpty
  | _ => false

/-- One rejection on a rank's link to a lane. -/
def countReject (l : Nat) (r : Rank) : Rank :=
  match l with
  | 0 => { r with err0 := sat 255 (r.err0 + 1) }
  | 1 => { r with err1 := sat 255 (r.err1 + 1) }
  | _ => { r with err2 := sat 255 (r.err2 + 1) }

/-- The voting lanes that take a rank's content from forwarded copies. -/
def setRlf (n : Node) (r : Nat) (took : List Nat) : Node :=
  [0, 1, 2].foldl (fun n l =>
    let on := took.contains l
    let was := nbit (laneOf n l).rlf r
    raiseRIf (on && !was) (modLane n l (fun x => { x with rlf := setBit x.rlf r on })) 3 7) n

/-- One rank; an unpowered one forwards nothing. Absent and differing copies are counted, the content is chosen, and the rank is
FAULTY where its links left
no usable copy; a rank that leaves FAULTY is loaded afresh (05 Table 05.7). -/
def chooseRank (alt : List (Nat × Nat)) (n : Node) (r : Nat) : Node :=
  let x := rankOf n r
  if !x.powered then setRlf n r []
  else
    let vs := votingLanes n
    let ok := vs.filter (nbit x.good)
    let other := vs.filter (fun l => nbit x.good l && alt.contains (l, r))
    let choice := choosable n ok other
    let rejected := vs.filter (fun l => !nbit x.got l) ++ (if 2 ≤ vs.length ∧ choice then other else [])
    let n := modRank n r (fun x => rejected.foldl (fun x l => countReject l x) { x with up := x.up &&& x.got })
    let n := raiseIf (!rejected.isEmpty) n (0x10 + r) 0
    let n := setRlf n r (if choice then vs.filter (fun l => !nbit x.good l) else [])
    let linkLoss := match n.laneSt.state with | 0 => decide (ok.length < 2) | _ => ok.isEmpty
    let faulty := x.ready && ((!choice && linkLoss) || decide (x.selftest ≠ 0))
    let n := modRank n r (fun x => { x with noUse := !choice, faulty := faulty })
    let n := raiseIf (faulty && !x.faulty) n (0x10 + r) 1
    if x.faulty && !faulty then loadRank n r else n

/-- INPUT_EXCHANGE: `alt` lists copies, lane and rank, that pass their CRC and differ from the others. -/
def inputExchange (n : Node) (alt : List (Nat × Nat)) : Node :=
  if lanesNone n ∨ n.laneSt.inDone then n
  else
    let n := (List.range 16).foldl (chooseRank alt) n
    modLaneSt n (fun s => { s with inDone := true })

/-! Output exchange (R251) -/

/-- The smaller of two optional causes. -/
def minCause (a b : Option Nat) : Option Nat :=
  match a, b with
  | some x, some y => some (min x y)
  | some x, none => some x
  | none, y => y

/-- OUTPUT_EXCHANGE: a message of a lane that exchanges reaches another; one with a bad CRC or length, or of another frame,
is as good as absent (R253). Its LSTATE carries the sender's exclusion request (R254). -/
def outputExchange (n : Node) (dest : Nat) (m : ExchMsg) : Node :=
  let x := laneOf n m.lane
  if 3 ≤ dest ∨ 3 ≤ m.lane ∨ dest = m.lane ∨ lanesNone n ∨ exchanges n m.lane = false ∨ x.wdog ∨ x.held then n
  else
    let n := modLane n m.lane (fun x => { x with lastMsg := some n.now })
    if !m.good ∨ m.frame ≠ n.frame then n
    else
      let n := modLaneSt n (fun s => { s with msgs := s.msgs ++ [(dest, m)] })
      modLane n m.lane (fun x =>
        let r := minCause x.request m.lstate.request
        { x with request := r, carried := r.isSome })

/-- The message of a lane as one lane received it. -/
def msgOf (n : Node) (l : Nat) : Option ExchMsg := (n.laneSt.msgs.find? (fun e => e.2.lane == l)).map Prod.snd

/-- The elements of one area. -/
def areaOf (i : List ImagePart) (a : Nat) : List ImagePart := i.filter (fun p => p.area == a)

/-- The digest of a frame image: its areas in ascending order (R252). -/
def imageDigest (i : List ImagePart) : Nat :=
  crc64 ((List.range 13).flatMap (fun a => (areaOf i a).flatMap (fun p => p.bytes)))

/-- DIGEST and VECTOR of a message. -/
def sentDigest (m : ExchMsg) : Nat := m.wrong.getD (imageDigest m.image)
def sentVector (m : ExchMsg) : List ImagePart := [7, 8, 11].flatMap (areaOf m.image)

/-- Its digest, direct or relayed (R253). -/
def digestOf (n : Node) (l : Nat) : Option Nat :=
  match msgOf n l with
  | some m => some (sentDigest m)
  | none => ((n.laneSt.msgs.filter (fun e => e.2.lane != l)).findSome? (fun e => e.2.relay.find? (fun x => x.1 == l))).map Prod.snd

def laneHeard (n : Node) (l : Nat) : Bool := (digestOf n l).isSome && !(laneOf n l).wdog

/-- The lane fails IDENT: a fault found, or the digest of its stored image is not the one it sent (R257). -/
def identFails (n : Node) (l : Nat) : Bool :=
  n.laneSt.lastUnres &&
    (match (msgOf n l).bind ExchMsg.ident with
     | some i => !i.tables || !i.self || (laneOf n l).sent.any (· != i.digest)
     | none => false)

/-- Its message and commands of the frame count for nothing (R254, R257). -/
def invalidMsg (n : Node) (l : Nat) : Bool :=
  (match msgOf n l with | some m => m.invalid | none => false) || identFails n l

/-- Two lanes' digests agree, and their vectors where both are known. -/
def agrees (n : Node) (a b : Nat) : Bool :=
  match digestOf n a, digestOf n b with
  | some x, some y =>
    decide (x = y) && (match msgOf n a, msgOf n b with | some p, some q => decide (sentVector p = sentVector q) | _, _ => true)
  | _, _ => false

/-- Voting lanes whose messages count. -/
def standing (n : Node) : List Nat := (votingLanes n).filter (fun l => laneHeard n l && !invalidMsg n l)

/-- Those that agree with another of them. -/
def agreeing (n : Node) : List Nat :=
  (standing n).filter (fun a => (standing n).any (fun b => a != b && agrees n a b))

/-- A request that counts: carried by a message, or of a lane that does not exchange. -/
def requested (n : Node) (l : Nat) : Option Nat :=
  let x := laneOf n l
  if x.carried || x.phase == 2 || x.phase == 3 || x.phase == 4 then x.request else none

/-- Named faulty in DUAL by R253 or R254. -/
def named (n : Node) (l : Nat) : Bool :=
  !laneHeard n l || invalidMsg n l || (requested n l).isSome || (laneOf n l).bx

/-- The frame is resolved: only TMR and DUAL know an unresolved one (R257; two lanes failing IDENT leave one, Table 11.8). -/
def resolves (n : Node) : Bool :=
  let vs := votingLanes n
  match n.laneSt.state with
  | 0 => decide (2 ≤ (agreeing n).length) ||
      (decide ((standing n).length = 1) && decide ((vs.filter (identFails n)).length = 2))
  | 1 => decide (2 ≤ (agreeing n).length) || (standing n).any (fun l => vs.any (fun m => m != l && named n m))
  | 2 => true
  | _ => false

/-- Senders of valid copies of the frame's commands: their messages and commands are not marked invalid, and their watchdogs
have not expired (R254). -/
def validSenders (n : Node) : List Nat := (votingLanes n).filter (fun l => !invalidMsg n l && !(laneOf n l).wdog)

/-- Those that the receivers count: the mask in force at them names the sender (R255). -/
def countedSenders (n : Node) : List Nat := (validSenders n).filter (nbit n.laneSt.counted)

/-- Copies that receivers act on: those that agree, or the copy of the announced survivor (R255). -/
def copiesOf (n : Node) : Nat :=
  if lanesSingle n then b2n (n.laneSt.announced && (standing n).contains n.laneSt.countedSurv)
  else ((agreeing n).filter (nbit n.laneSt.counted)).length

/-- The lane's digest or vector differs from those of two that agree (R253). -/
def differs (n : Node) (l : Nat) : Bool :=
  laneHeard n l && decide (2 ≤ (agreeing n).length) && !(agreeing n).contains l &&
    (agreeing n).all (fun a => !agrees n a l)

/-- The runs of R253 after the vote. -/
def runLane (n : Node) (l : Nat) : Node :=
  let h := laneHeard n l
  let d := differs n l
  let inv := lanesDual n && invalidMsg n l
  let deaf := !n.laneSt.msgs.any (fun e => e.1 == l) && !lanesSingle n
  modLane n l (fun x =>
    { x with disagree := if d || inv || !h || x.bx then x.disagree + 1 else 0, dig := if d then x.dig + 1 else 0,
             bnd := if x.bx then x.bnd + 1 else 0, missing := if h then 0 else x.missing + 1,
             iso := if deaf then x.iso + 1 else 0 })

/-- Causes for which a voting lane is excluded at this vote (Table 11.5); `iso` is its run before the vote. -/
def causes (n : Node) (l iso : Nat) : List Nat :=
  let x := laneOf n l
  let part := lanesDual n || lanesSingle n
  (if !part && (2 ≤ x.dig || (2 ≤ x.disagree && x.bnd < 2 && x.missing < 2)) then [1] else []) ++
  (if !part && 2 ≤ x.bnd then [2] else []) ++
  (if !lanesSingle n && 2 ≤ x.missing then [3] else []) ++
  (match requested n l with | some c => [c] | none => []) ++
  (if x.wdog then [5] else []) ++
  (if identFails n l then [7] else []) ++
  (if laneHeard n l && 2 ≤ iso && !lanesSingle n then [8] else []) ++
  (match x.host with | some k => if lanesTmr n && decide (k ≤ n.frame) then [9] else [] | none => [])

/-- The lowest of several codes. -/
def lowest (l : List Nat) : Option Nat :=
  match l with
  | [] => none
  | a :: r => some (r.foldl min a)

/-! Exclusion (R262, R263, R266) -/

/-- Instants within the last hour. -/
def recentAttempts (n : Node) (l : Nat) : List Nat := (laneOf n l).attempts.filter (fun a => n.now < a + 3600000000000)

/-- A lane in reset: what it counted of itself starts afresh; a hard fault of its SRAM stays (R269). -/
def resetLane (now phase cause : Nat) (attempts : List Nat) (x : Lane) : Lane :=
  { phase := phase, cause := cause, attempts := attempts, ce := x.ce, ue := x.ue, pass := x.pass, since := now, hard := x.hard }

/-- A LANE_CMD EXCLUDE that waits on a lane ends. -/
def endHostExclude (n : Node) (l : Nat) (ok : Bool) : Node :=
  if (laneOf n l).host.isSome then resolveCmd (modLane n l (fun x => { x with host := none })) 3 (some ok) else n

/-- One exclusion. -/
def excludeLane (n : Node) (l cause : Nat) : Node :=
  let n := endHostExclude n l (decide (cause = 9))
  let x := laneOf n l
  let failed := [10, 11, 12].contains cause
  let att := if failed then recentAttempts n l ++ [n.now] else recentAttempts n l
  let out := failed && decide (3 ≤ att.length)
  let phase := if out then 6 else 1
  let place := match n.laneSt.diff with
    | some (d, a, e) => if cause = 1 ∧ d = l then (a, e) else (0, 0)
    | none => (0, 0)
  let n := noteLane n (recLane n 2 l x.phase phase cause place.1 place.2)
  let n := if x.phase = phase then n else noteLane n (recLane n 3 l x.phase phase cause 0 0)
  let n := if out then noteLane n (recLane n 5 l x.phase 6 cause 0 0) else n
  let n := modLane n l (resetLane n.now phase cause att)
  let n := modLaneSt n (fun s => { s with excl := sat 65535 (s.excl + 1), exclT := taiNow n })
  raiseRIf out (raiseR n 3 1) 3 3

/-! NONE (R261) -/

/-- Entry to NONE: all lanes reset together; Scarab's own record, with one for each lane whose phase changes (R263); nothing of
the frame is sent, and node messages leave the buffers that have not begun (13 R320). -/
def enterNone (n : Node) : Node :=
  let old := n.laneSt.state
  let n := note n (recLane n 4 0xFF old 3 13 0 0)
  let n := [0, 1, 2].foldl (fun n l =>
    let n := endHostExclude n l false
    let x := laneOf n l
    if x.phase = 1 ∧ x.cause ≠ 13 ∧ n.laneSt.mask.testBit l then n
    else
      let fresh := decide (x.phase ≠ 1 ∧ x.phase ≠ 6)
      let n := if x.phase = 1 then n else note n { recLane n 3 l x.phase 1 13 0 0 with origin := oScarab }
      let n := modLane n l (resetLane n.now 1 13 (recentAttempts n l))
      if fresh then raiseR (modLaneSt n (fun s => { s with excl := sat 65535 (s.excl + 1), exclT := taiNow n })) 3 1 else n) n
  let n := modLaneSt n (fun s => { s with
    state := 3, mask := 0, surv := 0, announced := false, counted := 0, countedSurv := 0, next := none, cmds := 0, copies := 0, lastUnres := false,
    resolved := false, degExp := false, tmrSince := none })
  let n := { discardLanes n with net := { n.net with almChanges := [], replies := [] } }
  let n := (keys n.safety.outs).foldl (fun n o => modOutput n o (fun x => { x with next := false })) n
  let n := (keys n.cans).foldl loadBufs n
  raiseR (dropSafCmd n) 3 0

/-! Links (R253) -/

/-- Messages expected on the link of two lanes and missing in the frame. -/
def linkMissing (n : Node) (a b : Nat) : Nat :=
  b2n (!n.laneSt.msgs.any (fun e => e.1 == b && e.2.lane == a)) +
  b2n (!n.laneSt.msgs.any (fun e => e.1 == a && e.2.lane == b))

/-- One frame of a link: down after 2 frames with a message absent or bad, up after 16 good messages in a row. A frame carries
one each way; one with a message absent or bad ends the run (log entry 103). -/
def linkFrame (miss : Nat) (k : LaneLink) : LaneLink :=
  if miss = 0 then { k with bad := 0, good := sat 255 (k.good + 2), up := k.up || decide (16 ≤ k.good + 2) }
  else { up := k.up && decide (k.bad + 1 < 2), bad := sat 255 (k.bad + 1), good := 0, err := sat 255 (k.err + miss) }

/-- The three links in one frame; LINK for each that goes down. -/
def linkFrames (n : Node) : Node :=
  let f := fun (a b : Nat) (k : LaneLink) => linkFrame (linkMissing n a b) k
  let s := n.laneSt
  let l01 := f 0 1 s.l01
  let l12 := f 1 2 s.l12
  let l20 := f 2 0 s.l20
  let n := { n with laneSt := { s with l01 := l01, l12 := l12, l20 := l20 } }
  let n := raiseRIf (s.l01.up && !l01.up) n 3 6
  let n := raiseRIf (s.l12.up && !l12.up) n 3 6
  raiseRIf (s.l20.up && !l20.up) n 3 6

/-! Degraded time (R260) -/

def degLimit (n : Node) : Nat := fld (reg n (at_ 3 0x50)) 9 0 * 3600000000000

/-- DEG_EXP where the count has reached its limit outside TMR. -/
def degReached (n : Node) : Node :=
  if !n.laneSt.degExp && (lanesDual n || lanesSingle n) && decide (degLimit n ≤ n.laneSt.degNs) then
    raiseR (modLaneSt n (fun s => { s with degExp := true })) 3 5
  else n

/-- The count returns to 0 after 1 h of TMR. -/
def degReset (n : Node) : Node :=
  match n.laneSt.tmrSince with
  | some t => if lanesTmr n && decide (t + 3600000000000 ≤ n.now) then modLaneSt n (fun s => { s with degNs := 0 }) else n
  | none => n

/-- One frame's count, at its vote. -/
def degFrame (n : Node) : Node :=
  let n := if lanesDual n || lanesSingle n then modLaneSt n (fun s => { s with degNs := s.degNs + n.period }) else n
  degReached (degReset n)

/-! Reintegration (R263 to R265) -/

/-- The rejoining lane in a vote: `lost` tells that a voting lane is excluded at it. Answers whether it is to vote. -/
def rejoinFrame (n : Node) (l : Nat) (lost donorLost resolved sliceMiss : Bool) : Node × Bool :=
  let x := laneOf n l
  match requested n l, x.wdog with
  | some c, w => (excludeLane n l (if w then min c 5 else c), false)
  | none, true => (excludeLane n l 5, false)
  | none, false =>
    if x.phase = 4 then
      if donorLost then (modLane n l (fun x => { x with slices := 0, sliceFrames := 0, sliceAt := n.now }), false)
      else
        let s := if sliceMiss then x.slices else x.slices + 1
        let f := x.sliceFrames + 1
        let n := modLane n l (fun x => { x with slices := s, sliceFrames := f })
        if 64 ≤ s then
          (setPhase (modLane n l (fun x => { x with slices := 0, sliceFrames := 0, shadow := 0, lastMsg := some n.now })) l 5, false)
        else if 96 ≤ f then (excludeLane n l 12, false)
        else (n, false)
    else if lost then (modLane n l (fun x => { x with shadow := 0 }), false)
    else if !resolved || (lanesDual n && decide ((agreeing n).length < 2)) then (n, false)
    else
      let ref := if lanesSingle n then votingLanes n else agreeing n
      if ref.all (fun a => agrees n a l) && laneHeard n l && !invalidMsg n l then
        let n := modLane n l (fun x => { x with shadow := x.shadow + 1 })
        (n, decide (16 ≤ x.shadow + 1))
      else if lanesSingle n && (ref.all (fun a => (digestOf n a).isNone)) then (n, false)
      else (excludeLane n l 10, false)

/-- The code of a number of voting lanes. -/
def stateOfCount (k : Nat) : Nat := 3 - k

/-! The vote of a frame (R253 to R259) -/

/-- The first element in which two areas differ. -/
def firstDiff : List ImagePart → List ImagePart → Option Nat
  | [], [] => none
  | p :: _, [] => some p.elem
  | [], q :: _ => some q.elem
  | p :: ps, q :: qs => if p = q then firstDiff ps qs else some (min p.elem q.elem)

/-- AREA and ELEM of a disagreement: the first area that differs; area 15 where the digests differ and every area exchanged
agrees (R252). -/
def diffPlace (a b : Option ExchMsg) : Nat × Nat :=
  match a, b with
  | some p, some q =>
    (([1, 2, 3, 4, 5, 6, 7, 8, 9, 10, 11, 12].findSome? (fun k =>
      (firstDiff (areaOf p.image k) (areaOf q.image k)).map (fun e => (k, e)))).getD (15, 0))
  | _, _ => (15, 0)

/-- LANE_DIFF of the first lane that differs. -/
def noteDiff (n : Node) : Node :=
  match (votingLanes n).find? (differs n) with
  | some l =>
    let place := diffPlace (msgOf n l) ((agreeing n).head?.bind (msgOf n))
    modLaneSt n (fun s => { s with diff := some (l, place.1, place.2), diffFrame := n.frame % 4294967296 })
  | none => n

/-- Every other voting lane requests the reset of lane l in its message of the frame (R262). -/
def heldReset (n : Node) (l : Nat) : Bool :=
  let others := (votingLanes n).filter (fun v => v != l)
  !others.isEmpty && others.all (fun v => match msgOf n v with | some m => nbit m.lstate.resets l | none => false)

/-- What a vote leaves of the messages: the digests sent, and the lanes whose reset all others request. -/
def keepSent (n : Node) : Node :=
  [0, 1, 2].foldl (fun n l => modLane n l (fun x => { x with sent := digestOf n l, held := heldReset n l })) n

/-- A voting lane's commands of the frame stay valid and it asked for its exclusion itself: it names the survivor. -/
def namesSurvivor (n : Node) (l : Nat) : Bool :=
  (requested n l).isSome && laneHeard n l && !invalidMsg n l

/-- Member mask and survivor in the LSTATE of a lane's commands: what the vote names, which lanes that agree name alike; a lane
that differs from them names what its own message proposed (R255). -/
def namedBy (proposals : List (Nat × LState)) (mask surv l : Nat) : Nat × Nat :=
  match proposals.find? (fun p => p.1 == l) with
  | some p => (p.2.members, p.2.surv)
  | none => (mask, surv)

/-- What the receivers take: the mask and the survivor of the majority of the valid copies, or else those in force (R255). -/
def receivedMask (s : LaneSt) (copies : List (Nat × Nat)) : Nat × Nat :=
  (copies.find? (fun c => decide (copies.length < 2 * (copies.filter (· == c)).length))).getD (s.counted, s.countedSurv)

/-- DOVETAIL_VOTE: the lanes' part of the vote. A survivor is announced where the commands of both lanes of DUAL name it in a
resolved frame (R255). -/
def laneBallot (n : Node) (images : List (Nat × Word)) (sliceMiss : Bool) : Node :=
  let vs := votingLanes n
  let isos := vs.map (fun l => (l, (laneOf n l).iso))
  let res := resolves n
  let n := noteDiff (linkFrames n)
  let n := vs.foldl runLane n
  let image := fun l => tget (0 : Word) images l
  let counted := (if 2 ≤ (agreeing n).length then agreeing n else standing n).map image
  let imagesOk := match counted with
    | [] => false
    | w :: r => r.all (· == w)
  let n := modLaneSt n (fun s => { s with
    voted := true, resolved := res, imagesOk := imagesOk, copies := copiesOf n,
    cmds := bitSet (countedSenders n) })
  let excl := vs.filterMap (fun l => (lowest (causes n l (tget 0 isos l))).map (fun c => (l, c)))
  let n := if res then n else raiseR (modLaneSt n (fun s => { s with unres := sat 65535 (s.unres + 1) })) 3 4
  let second := !res && n.laneSt.lastUnres
  let lost := !excl.isEmpty
  let announcedNext := if lanesSingle n then n.laneSt.announced
    else lanesDual n && res && excl.all (fun e => namesSurvivor n e.1)
  let donorLost := match donor n with | some d => excl.any (fun e => e.1 == d) | none => false
  let proposals := vs.filterMap (fun l => if differs n l then (msgOf n l).map (fun m => (l, m.lstate)) else none)
  let senders := countedSenders n
  let r := match rejoining n with
    | some l => rejoinFrame n l lost donorLost (res && !(standing n).isEmpty) sliceMiss
    | none => (n, false)
  let joined := if r.2 then (match rejoining n with | some l => [l] | none => []) else []
  let n := keepSent r.1
  let n := [0, 1, 2].foldl (fun n l =>
    if (laneOf n l).phase = 2 ∨ (laneOf n l).phase = 3 then
      (match requested n l with | some c => excludeLane n l c | none => n)
    else n) n
  let n := degFrame n
  let n := excl.foldl (fun n e => excludeLane n e.1 e.2) n
  let left := vs.filter (fun l => !excl.any (fun e => e.1 == l)) ++ joined
  if second ∨ left = [] then enterNone n
  else
    let st := stateOfCount left.length
    let mask := bitSet left
    let surv := if st = 2 then left.head?.getD 0 else 0
    let n := if st = n.laneSt.state then n else noteLane n (recLane n 1 0xFF n.laneSt.state st 0 0 0)
    let got := receivedMask n.laneSt (senders.map (namedBy proposals mask surv))
    modLaneSt n (fun s => { s with
      lastUnres := !res,
      next := some { state := st, mask := mask, surv := surv, counted := got.1, countedSurv := got.2,
                     announced := decide (st = 2) && announcedNext } })

/-! The boundary -/

/-- A lane whose own boundary lies more than 100 ns from S is excluded from the boundary vote (01 R24); each trims its
counter (03 R76). -/
def boundaryLanes (n : Node) (inp : BoundaryIn) : Node :=
  let out := fun (d : Int) => decide (100 < d.natAbs)
  let n := modLane n 0 (fun x => { x with bx := out inp.lane0 })
  let n := modLane n 1 (fun x => { x with bx := out inp.lane1 })
  let n := modLane n 2 (fun x => { x with bx := out inp.lane2 })
  let n := modTb n (fun t => trimLane (trimLane (trimLane t 0 inp.lane0) 1 inp.lane1) 2 inp.lane2)
  medianGrid (takePlate n inp.plateSteady)

/-- The state that the vote before named is in force (R259). -/
def takeLaneState (n : Node) : Node :=
  match n.laneSt.next with
  | none => n
  | some x =>
    let old := n.laneSt.state
    let back := (members x.mask 3).filter (fun l => (laneOf n l).phase == 5)
    let n := back.foldl (fun n l =>
      raiseR (setPhase (modLane n l (fun y => { y with shadow := 0, lastMsg := some n.now })) l 0) 3 2) n
    let n := modLaneSt n (fun s => { s with
      state := x.state, mask := x.mask, surv := x.surv, announced := x.announced, counted := x.counted,
      countedSurv := x.countedSurv, next := none,
      degExp := s.degExp && decide (x.state ≠ 0),
      tmrSince := if x.state = 0 then (if old = 0 then s.tmrSince else some n.now) else none })
    let n := raiseRIf (decide (old ≠ x.state)) n 3 0
    degReached n

/-- Lanes whose self-test has passed: one begins its transfer where none is under way, the others wait; a self-test past
its 200 ms has failed (R263). -/
def beginTransfers (n : Node) : Node :=
  if lanesNone n then n
  else
    let ready := [0, 1, 2].filter (fun l => (laneOf n l).tested)
    let first := if (rejoining n).isSome then none else ready.head?
    let n := ([0, 1, 2].filter (fun l => let x := laneOf n l; x.phase == 2 && !x.tested && decide (x.since + 200000000 < n.now))).foldl
      (fun n l => excludeLane n l 11) n
    ready.foldl (fun n l =>
      if first = some l then
        setPhase (modLane n l (fun x => { x with tested := false, slices := 0, sliceFrames := 0, sliceAt := n.now })) l 4
      else setPhase n l 3) n

/-! Events of the lanes -/

/-- LANE_WATCHDOG (R262): no exchange message for 2 F or 10 ms, whichever is longer. -/
def laneWatchdog (n : Node) (l : Nat) : Node :=
  let late : Bool := match (laneOf n l).lastMsg with
    | some t => decide (t + max (2 * n.period) 10000000 ≤ n.now)
    | none => true
  if l < 3 ∧ exchanges n l ∧ late then modLane n l (fun x => { x with wdog := true }) else n

/-- The lane asks for its exclusion (R254). -/
def requestExclusion (n : Node) (l cause : Nat) : Node :=
  let p := (laneOf n l).phase
  if p = 1 ∨ p = 6 then n
  else modLane n l (fun x => { x with request := some (match x.request with | some c => min c cause | none => cause) })

/-- LANE_SELF_FAULT: cause 4 an uncorrectable word, any other a failed check (R254, R268). -/
def selfFault (n : Node) (l cause : Nat) : Node :=
  if 3 ≤ l then n
  else if cause = 4 then
    raiseR (requestExclusion (modLane n l (fun x => { x with ue := sat 255 (x.ue + 1) })) l 4) 3 8
  else requestExclusion n l 6

/-- SCRUB_PASS (R269): `words` are those corrected in the pass; one corrected in 3 passes in a row is a hard fault. -/
def scrubPass (n : Node) (l : Nat) (words : List Nat) (ue : Nat) (tablesOk : Bool) : Node :=
  if 3 ≤ l then n
  else
    let x := laneOf n l
    let hard := words.any (fun w => x.scrub1.contains w && x.scrub2.contains w)
    let n := modLane n l (fun x => { x with
      ce := sat 65535 (x.ce + words.length), ue := sat 255 (x.ue + ue), pass := (x.pass + 1) % 256, scrub1 := words, scrub2 := x.scrub1,
      hard := x.hard || hard })
    let n := if 0 < ue then raiseR (requestExclusion n l 4) 3 8 else n
    if tablesOk && !hard then n else requestExclusion n l 6

/-- LANE_RESET_END: self-test begins, 1 ms after the exclusion (Table 11.6). -/
def laneResetEnd (n : Node) (l : Nat) : Node :=
  if l < 3 ∧ (laneOf n l).phase = 1 ∧ !lanesNone n ∧ (laneOf n l).since + 1000000 ≤ n.now then setPhase n l 2 else n

/-- LANE_SELFTEST_DONE: past its 200 ms, or failed, as on any hard fault, it is cause 11 (R269); a pass has loaded the lane's time
counter from the master counter (03 R76). -/
def selftestDone (n : Node) (l : Nat) (ok : Bool) : Node :=
  if 3 ≤ l ∨ (laneOf n l).phase ≠ 2 ∨ (laneOf n l).tested then n
  else if !ok ∨ (laneOf n l).hard ∨ (laneOf n l).since + 200000000 < n.now then excludeLane n l 11
  else
    let n := modLane (loadLane n l) l (fun x => { x with tested := true })
    if (rejoining n).isSome then setPhase n l 3 else n

/-- TRANSFER_TIMEOUT (R264): 96 F after the first slice. -/
def transferTimeout (n : Node) (l : Nat) : Node :=
  if l < 3 ∧ (laneOf n l).phase = 4 ∧ (laneOf n l).sliceAt + 96 * n.period ≤ n.now then excludeLane n l 12 else n

/-! LANE_CMD (Table 11.9) -/

def laneCmdCheck (n : Node) (path : Nat) (v : Word) : CmdCheck :=
  let op := fld v 3 0
  { code := decide (1 ≤ op ∧ op ≤ 3), value := decide (fld v 5 4 ≤ 2),
    state := op != 2 || (isConfig n && lanesTmr n),
    level := levelOk n path (match op with | 1 => 2 | 2 => 3 | _ => 1) }

/-- The lane state of the frame that a boundary begins. -/
def comingState (n : Node) : Nat := match n.laneSt.next with | some x => x.state | none => n.laneSt.state

/-- At its boundary: RETRY returns an OUT lane to RESET; EXCLUDE waits for the vote of its frame, or fails where the lanes are no
longer in TMR; CLEAR zeroes the counts and LANE_DIFF. -/
def laneCmdEff (v : Word) (n : Node) : Node × Option Bool :=
  let l := fld v 5 4
  match fld v 3 0 with
  | 1 =>
    if (laneOf n l).phase = 6 then (setPhase (modLane n l (fun x => { x with attempts := [] })) l 1, some true)
    else (n, some false)
  | 2 => if comingState n = 0 then (modLane n l (fun x => { x with host := some n.frame }), none) else (n, some false)
  | _ =>
    let n := [0, 1, 2].foldl (fun n l => modLane n l (fun x => { x with ce := 0, ue := 0, pass := 0 })) n
    (modLaneSt n (fun s => { s with
      unres := 0, excl := 0, diff := none, l01 := { s.l01 with err := 0 }, l12 := { s.l12 with err := 0 },
      l20 := { s.l20 with err := 0 } }), some true)

def laneCmdWrite (n : Node) (path : Nat) (v : Word) : Node :=
  runCommand n path 3 (at_ 3 0x88) v (laneCmdCheck n path v) (defer 3 (.lane v))

def laneCmdWord (op lane : Nat) : Word := pack [(lane, 4, 2), (op, 0, 4)]

/-! Registers (Table 11.9) -/

def laneStat (n : Node) : Word :=
  let s := n.laneSt
  pack [(b2n ([0, 1, 2].any (fun l => (laneOf n l).phase == 6)), 12, 1), (b2n s.degExp, 11, 1), (b2n s.announced, 10, 1),
    (s.surv, 8, 2), (s.counted, 4, 3), (s.state, 0, 3)]

def laneWord (n : Node) (l : Nat) : Word :=
  let x := laneOf n l
  let prog := if x.phase = 4 then x.slices else if x.phase = 5 then x.shadow else 0
  pack [(b2n ((rejoining n).isSome && decide (donor n = some l)), 24, 1), (sat 255 prog, 16, 8),
    (sat 15 (recentAttempts n l).length, 12, 4), (x.cause, 8, 4), (x.phase, 0, 4)]

def laneLinkWord (n : Node) : Word :=
  let s := n.laneSt
  pack [(b2n s.l20.up, 26, 1), (b2n s.l12.up, 25, 1), (b2n s.l01.up, 24, 1), (s.l20.err, 16, 8), (s.l12.err, 8, 8),
    (s.l01.err, 0, 8)]

def laneDiffWord (n : Node) : Word :=
  match n.laneSt.diff with
  | some (l, a, e) => pack [(1, 31, 1), (l, 28, 2), (a, 24, 4), (e, 0, 16)]
  | none => 0

/-- The status words of the LANE page. -/
def laneRead (n : Node) (o : Nat) : Word :=
  let s := n.laneSt
  match o with
  | 0x40 => laneStat n
  | 0x44 => laneWord n 0
  | 0x48 => laneWord n 1
  | 0x4C => laneWord n 2
  | 0x54 => BitVec.ofNat 32 (sat 4294967295 (s.degNs / 1000000))
  | 0x58 => laneLinkWord n
  | 0x5C => pack [(s.unres, 16, 16), (s.excl, 0, 16)]
  | 0x60 => BitVec.ofNat 32 (laneOf n 0).rlf
  | 0x64 => BitVec.ofNat 32 (laneOf n 1).rlf
  | 0x68 => BitVec.ofNat 32 (laneOf n 2).rlf
  | 0x70 => let x := laneOf n 0; pack [(x.ce, 16, 16), (x.ue, 8, 8), (x.pass, 0, 8)]
  | 0x74 => let x := laneOf n 1; pack [(x.ce, 16, 16), (x.ue, 8, 8), (x.pass, 0, 8)]
  | 0x78 => let x := laneOf n 2; pack [(x.ce, 16, 16), (x.ue, 8, 8), (x.pass, 0, 8)]
  | 0x80 => laneDiffWord n
  | 0x84 => BitVec.ofNat 32 s.diffFrame
  | 0x90 => lo32 s.exclT
  | 0x94 => hi32 s.exclT
  | _ => 0

/-! Meanings -/

def execOutputExchange (t dest : Nat) (msg : ExchMsg) (s : State) : Host.Outcome State Fault Refusal :=
  .next (onNode s t (fun n => outputExchange n dest msg))
def execLaneWatchdog (t lane : Nat) (s : State) : Host.Outcome State Fault Refusal :=
  .next (onNode s t (fun n => laneWatchdog n lane))
def execLaneSelfFault (t lane cause : Nat) (s : State) : Host.Outcome State Fault Refusal :=
  .next (onNode s t (fun n => selfFault n lane cause))
def execScrubPass (t lane : Nat) (words : List Nat) (ue : Nat) (tablesOk : Bool) (s : State) : Host.Outcome State Fault Refusal :=
  .next (onNode s t (fun n => scrubPass n lane words ue tablesOk))
def execLaneResetEnd (t lane : Nat) (s : State) : Host.Outcome State Fault Refusal :=
  .next (onNode s t (fun n => laneResetEnd n lane))
def execLaneSelftestDone (t lane : Nat) (ok : Bool) (s : State) : Host.Outcome State Fault Refusal :=
  .next (onNode s t (fun n => selftestDone n lane ok))
def execTransferTimeout (t lane : Nat) (s : State) : Host.Outcome State Fault Refusal :=
  .next (onNode s t (fun n => transferTimeout n lane))
def execDegLimitExpire (t : Nat) (s : State) : Host.Outcome State Fault Refusal := .next (onNode s t degReached)
def execDegCountReset (t : Nat) (s : State) : Host.Outcome State Fault Refusal := .next (onNode s t degReset)
def execLaneRetry (t lane : Nat) (s : State) : Host.Outcome State Fault Refusal :=
  .next (onNode s t (fun n => laneCmdWrite n hostPath (laneCmdWord 1 lane)))
def execLaneExclude (t lane : Nat) (s : State) : Host.Outcome State Fault Refusal :=
  .next (onNode s t (fun n => laneCmdWrite n hostPath (laneCmdWord 2 lane)))
def execLaneClear (t : Nat) (s : State) : Host.Outcome State Fault Refusal :=
  .next (onNode s t (fun n => laneCmdWrite n hostPath (laneCmdWord 3 0)))

end Sys2Proof.Machine
end

