-- ==== Sys2Proof/Machine/Duplex.lean ====
section
/-! DEFINITION. Duplex pairs: claims, arbitration, heartbeats, drive decisions, carriers and the pair comparison (12). -/

namespace Sys2Proof.Machine

def modDpx (n : Node) (f : Duplex → Duplex) : Node := { n with duplex := f n.duplex }

/-! Registers (Tables 12.9, 12.11) -/

def driveCode : Drive → Nat
  | .off => 0
  | .on => 1
  | .clamp => 2

def dpxStat (n : Node) : Word :=
  let d := n.duplex
  pack [(d.inelig, 20, 4), (b2n (!d.takes.isEmpty), 18, 1), (b2n d.plost, 17, 1), (b2n d.peer, 16, 1), (b2n d.thold, 9, 1),
    (b2n d.ohold, 8, 1), (driveCode d.drive, 4, 2), (b2n d.synced, 1, 1), (b2n (!d.posB), 0, 1)]

def lineByte (l : ClaimLine) (time : Bool) : Nat :=
  let intact := decide (l.hist = 7)
  packN [(if time then l.tCode else l.oCode, 4, 4), (b2n l.pres, 3, 1), (b2n intact, 2, 1), (if time then l.tRes else l.oRes, 0, 2)]

/-- DPX_PMM word. -/
def pmmWord (n : Node) (i : Nat) : Word :=
  BitVec.ofNat 32 (bitSet (n.duplex.pmm.filterMap (fun e => if e.2.set ∧ e.1 / 32 = i then some (e.1 % 32) else none)))

def dpxRead (n : Node) (o : Nat) : Word :=
  let d := n.duplex
  match o with
  | 0x40 => dpxStat n
  | 0x44 => BitVec.ofNat 32 (if d.arbO.isSome then d.claim else b2n (!d.posB))
  | 0x48 => BitVec.ofNat 32 d.tclaim
  | 0x4C => if d.plost then 0 else pack [(d.ptclaim, 16, 16), (d.pclaim, 0, 16)]
  | 0x50 => pack [(lineByte d.lineB true, 24, 8), (lineByte d.lineA true, 16, 8), (lineByte d.lineB false, 8, 8), (lineByte d.lineA false, 0, 8)]
  | 0x54 => pack [(d.missed, 16, 16), (d.consecMiss, 0, 2)]
  | 0x64 => pack [((match d.hb with | some h => if d.plost then 0 else h.head.inrole | none => 0), 16, 16), (d.carried, 0, 16)]
  | 0x68 => pack [(d.swTime, 16, 16), (d.swOut, 0, 16)]
  | 0x6C => BitVec.ofNat 32 d.swCause
  | 0x70 => lo32 d.swT
  | 0x74 => hi32 d.swT
  | o => if 0x80 ≤ o ∧ o < 0xC0 then pmmWord n ((o - 0x80) / 4) else 0

def xlOf (n : Node) (i : Nat) : XLink := if i = 0 then n.duplex.x0 else n.duplex.x1
def modXl (n : Node) (i : Nat) (f : XLink → XLink) : Node :=
  if i = 0 then modDpx n (fun d => { d with x0 := f d.x0 }) else modDpx n (fun d => { d with x1 := f d.x1 })

def xlRead (n : Node) (i o : Nat) : Word :=
  let x := xlOf n i
  match o with
  | 0x40 => pack [(b2n x.up, 1, 1), (b2n x.phy, 0, 1)]
  | 0x44 => pack [(x.bad, 16, 16), (x.miss, 0, 16)]
  | 0x48 => BitVec.ofNat 32 (sat 65535 x.delay)
  | _ => 0

/-! Claim numbers (R275, R276, R287, R288) -/

/-- The partner is seen to hold the output claim. -/
def partnerHolds (n : Node) : Bool :=
  !n.duplex.plost && (match n.duplex.hb with | some h => h.head.ohold | none => false)

def syncedNow (n : Node) : Bool := n.duplex.ohold || !partnerHolds n || decide (16 ≤ n.duplex.syncRun)

/-- Values differ from those the partner reports (R274). -/
def mismatched (n : Node) : Bool :=
  !n.duplex.ohold && !n.duplex.plost &&
    (match n.duplex.hb with
     | some h => decide (h.head.fw / 256 ≠ 1) || decide (h.head.check ≠ n.config.check) || decide (h.period ≠ n.period)
     | none => false)

/-- Reason of output health 0, the yield of a handover apart; 0 where there is none. -/
def ineligible (n : Node) : Nat :=
  if !paired n then 6
  else if !(isRun n || decide (n.nodeSt.state = .safe)) then 1
  else if lanesNone n then 2
  else if mismatched n then 3
  else if !syncedNow n then 4
  else 0

def ineligNow (n : Node) : Nat := if ineligible n = 0 ∧ n.duplex.yield_ then 5 else ineligible n

/-- Ranks READY and not FAULTY, one bit a rank. -/
def readyRanks (n : Node) : Nat :=
  bitSet (n.ranks.filterMap (fun e => if e.2.powered ∧ e.2.ready ∧ !e.2.faulty then some e.1 else none))

/-- Every enabled rank is READY and not FAULTY (PWR_RANK_EN). -/
def ranksWell (n : Node) : Bool :=
  let en := (reg n (at_ 0x0D 0x50)).toNat
  (members en 16).all (nbit (readyRanks n))

def outHealth (n : Node) : Nat :=
  if ineligNow n ≠ 0 then 0
  else
    match n.laneSt.state with
    | 0 => if ranksWell n then 7 else 6
    | 1 => 5
    | _ => 3

def timeHealth (n : Node) : Nat :=
  if n.tb.ckFail.isSome ∨ n.nodeSt.state = .init then 0
  else if n.tb.ptp.qualified ∨ n.tb.pps.qualified then 7
  else if n.tb.can.qualified then 6
  else
    match estErrAt n n.now with
    | some e => if e ≤ 100000 then 5 else 3
    | none => 3

def outClaim (n : Node) : Nat :=
  let d := n.duplex
  packN [(outHealth n, 13, 3), (b2n d.ohold, 12, 1), (d.tenureO, 4, 8), (b2n (!d.posB), 0, 1)]

def timeClaim (n : Node) : Nat :=
  let d := n.duplex
  packN [(timeHealth n, 13, 3), (b2n (bit (reg n (at_ 4 0x58)) 1), 12, 1), (b2n d.thold, 11, 1), (d.tenureT, 4, 7), (b2n (!d.posB), 0, 1)]

/-! Arbitration (R277 to R280) -/

/-- Fault code and result of a line. -/
def lineResult (hist code peer own : Nat) : Nat × Nat :=
  if code ≠ 0 then (code, 2)
  else if hist ≠ 7 then (4, 2)
  else (0, if own < peer then 1 else 0)

/-- A line result enters or leaves FAULT: record, and LINE_FLT where it enters (R294). -/
def lineEvent (n : Node) (index old new : Nat) : Node :=
  if (old = 2) = (new = 2) then n
  else
    let n := note n (recDuplex n 5 old new 0 index (dpxStat n))
    raiseBIf (decide (new = 2)) n 4 6

/-- OUTPUT_ARBITRATION; a handover that waits yields from here on (R285). -/
def outArbitration (n : Node) (l : LineSense) : Node :=
  if !paired n then n
  else
    let n := modDpx n (fun d => { d with yield_ := d.handover.isSome && d.handB.isNone })
    let own := outClaim n
    let d := n.duplex
    let a := lineResult d.lineA.hist l.aCode l.aPeer own
    let b := lineResult d.lineB.hist l.bCode l.bPeer own
    let peer := if a.2 = 1 then l.aPeer else if b.2 = 1 then l.bPeer else d.pclaim
    let n' := modDpx n (fun d => { d with
      claim := own, arbO := some n.frame, pclaim := peer, lineA := { d.lineA with oCode := a.1, oRes := a.2 },
      lineB := { d.lineB with oCode := b.1, oRes := b.2 } })
    lineEvent (lineEvent n' 0 d.lineA.oRes a.2) 1 d.lineB.oRes b.2

/-- TIME_ARBITRATION. -/
def timeArbitration (n : Node) (l : LineSense) : Node :=
  if !paired n then n
  else
    let own := timeClaim n
    let d := n.duplex
    let a := lineResult d.lineA.hist l.aCode l.aPeer own
    let b := lineResult d.lineB.hist l.bCode l.bPeer own
    let peer := if a.2 = 1 then l.aPeer else if b.2 = 1 then l.bPeer else d.ptclaim
    let n' := modDpx n (fun d => { d with
      tclaim := own, arbT := some n.frame, ptclaim := peer, lineA := { d.lineA with tCode := a.1, tRes := a.2 },
      lineB := { d.lineB with tCode := b.1, tRes := b.2 } })
    lineEvent (lineEvent n' 0 d.lineA.tRes a.2) 1 d.lineB.tRes b.2

/-- PRESENCE_PULSE (R278). -/
def presence (n : Node) (aPres bPres aTerm bTerm : Bool) : Node :=
  if !paired n then n
  else
    let f := fun (p t : Bool) (l : ClaimLine) => { l with pres := p, hist := (2 * l.hist + b2n (p || t)) % 8 }
    modDpx n (fun d => { d with lineA := f aPres aTerm d.lineA, lineB := f bPres bTerm d.lineB })

/-- Outcome of an arbitration. -/
inductive Outcome where
  | won
  | lost
  | none
  deriving DecidableEq, Repr

/-- The partner's heartbeat of frame k, where it was received. -/
def hbOf (n : Node) (k : Nat) : Option Heartbeat := n.duplex.hb.filter (fun h => h.head.frame == k)

/-- Some claim line was usable in the arbitration of frame k. -/
def lineUsable (n : Node) (k : Nat) (time : Bool) : Bool :=
  let d := n.duplex
  if time then decide (d.arbT = some k) && (d.lineA.tRes != 2 || d.lineB.tRes != 2)
  else decide (d.arbO = some k) && (d.lineA.oRes != 2 || d.lineB.oRes != 2)

/-- The outcome of arbitration k (R280), and whether it is a CONFLICT. -/
def outcome (n : Node) (k : Nat) (time : Bool) : Outcome × Bool :=
  let d := n.duplex
  let own := if time then d.tclaim else d.claim
  let theirs := fun (h : Heartbeat) => if time then h.head.tclaim else h.head.oclaim
  let lost := if time then d.lineA.tRes == 1 || d.lineB.tRes == 1 else d.lineA.oRes == 1 || d.lineB.oRes == 1
  if lineUsable n k time then
    if lost then (.lost, false)
    else
      match hbOf n k with
      | some h => if own < theirs h then (.lost, true) else (.won, false)
      | none => (.won, false)
  else
    match hbOf n k with
    | some h =>
      if h.head.plost then (if d.posB then (.lost, false) else (.won, false))
      else if theirs h < own then (.won, false) else (.lost, false)
    | none => (.none, false)

/-! Heartbeats (R281, R282, R295) -/

/-- The 44 bytes of Table 12.5 before the CRC. -/
def hbBody (h : HbHead) : List Byte :=
  let flags := packN [(b2n h.posA, 0, 1), (b2n h.ohold, 1, 1), (b2n h.thold, 2, 1), (b2n h.take, 3, 1), (b2n h.seen, 4, 1),
    (b2n h.plost, 5, 1), (b2n h.yield_, 6, 1), (b2n h.synced, 7, 1)]
  bytesLE 8 h.frame ++ bytesLE 2 h.oclaim ++ bytesLE 2 h.tclaim ++ bytesLE 1 flags ++ bytesLE 1 h.drive ++ bytesLE 1 h.lines ++
    bytesLE 1 h.lstate ++ bytesLE 4 h.check.toNat ++ bytesLE 2 h.fw ++ bytesLE 2 h.inrole ++ bytesLE 8 h.stime ++
    List.replicate 12 0

/-- A heartbeat as it is sent, with the CRC-32C over its offsets 0 to 43 (R281). -/
def hbBytes (h : HbHead) : List Byte := hbBody h ++ bytesLE 4 (crc32c (hbBody h))

/-- A copy of good length and CRC. -/
def hbGood (b : List Byte) : Bool := decide (b.length = 48) && decide (numLE (b.drop 44) = crc32c (b.take 44))

/-- The fields of a copy that is good. -/
def hbFields (b : List Byte) : HbHead :=
  let num := fun (o k : Nat) => numLE ((b.drop o).take k)
  let flag := fun (i : Nat) => nbit (num 12 1) i
  { frame := num 0 8, oclaim := num 8 2, tclaim := num 10 2, posA := flag 0, ohold := flag 1, thold := flag 2, take := flag 3,
    seen := flag 4, plost := flag 5, yield_ := flag 6, synced := flag 7, drive := num 13 1, lines := num 14 1, lstate := num 15 1,
    check := BitVec.ofNat 32 (num 16 4), fw := num 20 2, inrole := num 22 2, stime := num 24 8 }

/-- TAKE is set in the heartbeat of the present frame (R283): in its first case by a health above 0; in its second, position A
alone without a usable line, whatever the miss has made of SYNCED, but by no module that was not SYNCED before it (R288;
DEDUCED, log entry 50). -/
def takeNow (n : Node) : Bool :=
  let o := (outcome n n.frame false).1
  let d := n.duplex
  !d.ohold &&
    ((decide (0 < outHealth n) && decide (o = .won)) ||
     (!d.posB && decide (o = .none) && decide (1 ≤ d.consecMiss) && (d.wasSynced || syncedNow n)))

/-- A channel's result as the partner gets it. -/
def ownResult (n : Node) (c : Nat) : PeerResult :=
  { ch := c, x := (acqOf n c).prevX, val := (resOf n c).val, stat := (resOf n c).stat,
    exc := if chnSel n c = 6 then (diagOf n c).exc else 0 }

/-- What follows the heartbeat in the same frame: ranks and results; from the holder the state of the loop outputs
(06 R142), the alarms (08 R188), the call (09 R212) and the safety functions (10 R239). -/
def dpxMessage (n : Node) : PeerState :=
  let m : PeerState :=
    { addr := nodeAddr n, period := n.period, ready := readyRanks n,
      results := (activeChs n).map (ownResult n),
      souts := n.safety.outs }
  if n.duplex.ohold then
    { m with
      sets := (aoChs n).map (fun c => (c, (stageOf n c).set)), points := n.points, groups := n.groups, remoteFos := n.remoteFos,
      call := n.call, stations := n.stations, duty := fld (reg n (at_ 7 0x58)) 4 0, fns := n.safety.fns, pairs := n.safety.pairs }
  else m

/-- HEARTBEAT_SEND: after the vote, on both cross-links. -/
def dpxSend (n : Node) : Node :=
  if !paired n || !n.laneSt.voted then n
  else
    let take := takeNow n
    let d := n.duplex
    let h : HbHead :=
      { frame := n.frame, oclaim := d.claim, tclaim := d.tclaim, posA := !d.posB, ohold := d.ohold, thold := d.thold,
        take := take, seen := d.seen.contains d.prevFrame, plost := d.plost, yield_ := d.yield_, synced := syncedNow n,
        drive := driveCode d.drive, lines := d.lineA.oRes + 4 * d.lineB.oRes, lstate := n.laneSt.state,
        check := n.config.check, fw := 256 + Config.fwMinor.toNat, inrole := d.carried, stime := n.sampleT }
    let n := if take then modDpx n (fun d => { d with takes := d.takes ++ [n.frame] }) else n
    emit n (.hb (hbBytes h) (dpxMessage n))

/-- One frame of a cross-link. DESIGN CHOICE (log entry 104): no row tells of the physical link, and PHY is 1 from a message, good
or bad, until 2 frames in a row bring none. -/
def xlFrame (n : Node) (i : Nat) : Node :=
  let x := xlOf n i
  let good := if x.got then sat 255 (x.goodRun + 1) else 0
  let bad := if x.got then 0 else sat 255 (x.badRun + 1)
  let up := (x.up && decide (bad < 2)) || decide (16 ≤ good)
  let quiet := if x.heard then 0 else sat 255 (x.quiet + 1)
  let n := modXl n i (fun x => { x with
    heard := false, quiet := quiet, phy := x.phy && decide (quiet < 2), got := false, goodRun := good, badRun := bad, up := up,
    miss := if x.got then x.miss else sat 65535 (x.miss + 1) })
  raiseBIf (!x.up && up) (raiseBIf (x.up && !up) n (0x5E + i) 1) (0x5E + i) 0

/-- The check for the heartbeat of frame k: PLOST at the second miss in a row, cleared at the second reception. -/
def checkHeartbeat (n : Node) (k : Nat) : Node :=
  if !paired n || n.duplex.checked == some k then n
  else
    let n := xlFrame (xlFrame (modDpx n (fun d => { d with checked := some k })) 0) 1
    match hbOf n k with
    | none =>
      let n := modDpx n (fun d => { d with
        wasSynced := if d.consecMiss = 0 then syncedNow n else d.wasSynced, consecMiss := sat 3 (d.consecMiss + 1), consecRx := 0,
        missed := sat 65535 (d.missed + 1), peer := false, syncRun := 0 })
      if n.duplex.consecMiss = 2 ∧ !n.duplex.plost then
        let n := modDpx n (fun d => { d with plost := true })
        let n := note n (recDuplex n 4 0 1 0 0 (dpxStat n))
        loseSource (raiseB n 4 3) .partner
      else n
    | some h =>
      let n := modDpx n (fun d => { d with
        consecMiss := 0, consecRx := sat 255 (d.consecRx + 1), peer := true,
        syncRun := if h.head.ohold then sat 255 (d.syncRun + 1) else 0 })
      if n.duplex.plost ∧ 2 ≤ n.duplex.consecRx then
        let n := modDpx n (fun d => { d with plost := false })
        raiseB (note n (recDuplex n 4 1 0 0 0 (dpxStat n))) 4 4
      else n

/-- HEARTBEAT_MISS: at B - 10 us of the next frame. -/
def heartbeatMiss (n : Node) : Node :=
  if n.sAt + n.period ≤ n.now + 10000 then checkHeartbeat n n.frame else n

/-! What a module takes from the holder (06 R142, 08 R188, 09 R212, 10 R239) -/

/-- Function states of the holder; records tell of what changes (10 R240, R247; 15: both modules of a pair write the events of
the states they publish). -/
def adoptFns (n : Node) (h : Heartbeat) : Node :=
  let new := fun s => (tget ({} : SafetyFn) h.fns s).state
  let changed := (enabledFns n).filter (fun s => decide ((fnOf n s).state ≠ new s))
  let risen := changed.filter (fun s => decide (new s = .tripped))
  let n := changed.foldl (fun n s => raiseFn n (fnOf n s).state (new s)) n
  let n := modSafety n (fun s => { s with fns := h.fns })
  risen.foldl (fun n s => let x := fnOf n s; tripped n s x.cause x.time) n

/-- What a module takes from the holder's safety functions: function states in RUN and SAFE, since in every other state its own
are LOCKED (10 R239); pair flags, into the evaluators too, and output faults. -/
def adoptSafety (n : Node) (h : Heartbeat) : Node :=
  let n := if isRun n || decide (n.nodeSt.state = .safe) then adoptFns n h else n
  let n := (enabledPairs n).foldl (fun n k =>
    let p := tget {} h.pairs k
    let x := pairOf n k
    let pg := 0x68 + k / 64
    let n := raiseRIf (p.stupOk && !x.stupOk) (raiseRIf (p.discFlt && !x.discFlt) n pg 0) pg 2
    let n := (List.range 3).foldl (fun n c => modEval n c k (fun e => { e with discFlt := p.discFlt, stupOk := p.stupOk })) n
    let n := modPair n k (fun x => { x with discFlt := p.discFlt, stupOk := p.stupOk })
    if p.discFlt = x.discFlt then n else note n (recSafety (taiNow n) 1 p.discFlt k 0 pg (sinSt n k))) n
  (enabledOuts n).foldl (fun n o =>
    let y := tget ({} : Output) h.souts o
    let x := outputOf n o
    let n := raiseBIf (y.fbFlt && !x.fbFlt) (raiseBIf (y.soFlt && !x.soFlt) n (soutPage o) 0) (soutPage o) 1
    let n := modOutput n o (fun x => { x with soFlt := y.soFlt, fltCode := y.fltCode, fbFlt := y.fbFlt, fbSeen := y.fbSeen })
    let n := if y.soFlt = x.soFlt then n
      else note n (recSafety (taiNow n) 2 y.soFlt o (if y.soFlt then y.fltCode else x.fltCode) (soutPage o) (soSt n o))
    if y.fbFlt = x.fbFlt then n else note n (recSafety (taiNow n) 3 y.fbFlt o 0 (soutPage o) (soSt n o))) n

def adoptState (n : Node) (h : Heartbeat) : Node :=
  let took := (keys h.points).any (fun k => (tget {} h.points k).state == .actTransferred && (pointOf n k).state != .actTransferred)
  let n := adoptAlarms n h.points h.groups h.remoteFos
  let n := adoptCall n h.call h.stations h.duty took
  let n := h.sets.foldl (fun n e => modStage n e.1 (fun s => { s with set := e.2, pend := [] })) n
  adoptSafety n h

/-- The source PARTNER (03 R84): its time at the heartbeat, from S and the send instant of Table 11.1. -/
def partnerTime (n : Node) (h : HbHead) (delay : Nat) : Node :=
  if n.tb.ckFail.isSome || !h.thold || n.duplex.thold then n
  else
    let vote := if n.period = 250000 then 215000 else if n.period = 500000 then 420000 else 600000
    let off : Int := (h.stime + vote + 10000 + delay : Nat) - taiNow n
    let n := modSource n .partner (fun p => { p with offset := off, last := some n.now, good := sat 65535 (p.good + 1) })
    afterMeasure (qualify n .partner) .partner

/-- Modes whose break signature rests on the probe (07 Table 07.2). -/
def probeBreak (n : Node) (ch : Nat) : Bool := [4, 5, 6, 7].contains (chnSel n ch) && hasBreak n ch

/-- The holder's results for loop outputs (19 R431), with the WIRE_BREAK that an AO mode never has masked (06 R135), and the
carrier's breaks for input modes of observing ranks (Table 12.8). -/
def observeResult (n : Node) (r : PeerResult) : Node :=
  if 512 ≤ r.ch then n
  else if isAo n r.ch then
    let stat := setBit r.stat 3 false
    if holder n || !(rankOf n (rankOfCh r.ch)).powered then n
    else setRes (riseAo n r.ch stat) r.ch { (resOf n r.ch) with val := r.val, stat := stat }
  else if !(rankOf n (rankOfCh r.ch)).observe then n
  else if chnSel n r.ch = 6 then
    modFront n r.ch (fun f => { f with open_ := nbit r.stat 3 || decide (f.tcHigh = 10), peerExc := r.exc })
  else if probeBreak n r.ch then modFront n r.ch (fun f => { f with open_ := nbit r.stat 3 || decide (f.tcHigh = 10) })
  else n

/-- Tolerance of DPX_CFG.PCMP, per cent; none where the comparison is off. -/
def pcmpTol (n : Node) : Option Nat :=
  match fld (reg n (at_ 4 0x58)) 5 4 with
  | 0 => some 1
  | 1 => some 2
  | 2 => some 5
  | _ => none

/-- One comparison (R291). -/
def compareResult (n : Node) (r : PeerResult) : Node :=
  match pcmpTol n with
  | none => n
  | some tol =>
    if 512 ≤ r.ch ∨ isAo n r.ch ∨ chnSel n r.ch = 0 ∨ !nbit r.stat 0 ∨ !nbit (resOf n r.ch).stat 0 then n
    else
      let diff := 100 * (((acqOf n r.ch).prevX - r.x).natAbs : Int)
      let lim := rbWidth n r.ch * tol
      let c := tget {} n.duplex.pmm r.ch
      let run := if lim < diff then sat 3 (c.run + 1) else 0
      let agree := if 2 * diff ≤ lim then sat 3 (c.agree + 1) else 0
      let set := (c.set && agree != 3) || run == 3
      let n := modDpx n (fun d => { d with pmm := tset {} d.pmm r.ch { run := run, agree := agree, set := set } })
      if set = c.set then n
      else raiseB (note n (recDuplex n 7 (b2n c.set) (b2n set) 0 r.ch (dpxStat n))) 4 7

/-- The heartbeat of the present frame, with the state that follows it. -/
def takeHeartbeat (n : Node) (delay : Nat) (h : Heartbeat) : Node :=
  if (hbOf n n.frame).isSome then n
  else
    let n := modDpx n (fun d => { d with
      hb := some h, pclaim := h.head.oclaim, ptclaim := h.head.tclaim, addrA := if h.head.posA then some h.addr else d.addrA,
      seen := (if h.head.take then d.seen ++ [n.frame] else d.seen).drop ((d.seen.length + 1) - 4) })
    let n := partnerTime n h.head delay
    let n := if follows n then adoptState n h else n
    let n := h.results.foldl observeResult n
    h.results.foldl compareResult n

/-- HEARTBEAT_RECEIVED: a copy of bad length or CRC counts on its link; the first good copy of the present frame, no later than
10 us before the next boundary, is the frame's heartbeat. -/
def heartbeatReceived (n : Node) (xl : Nat) (bytes : List Byte) (delay : Nat) (peer : PeerState) : Node :=
  let h : Heartbeat := { peer with head := hbFields bytes }
  if !paired n ∨ 2 ≤ xl then n
  else
    let n := modXl n xl (fun x => { x with phy := true, heard := true })
    if !hbGood bytes then modXl n xl (fun x => { x with bad := sat 65535 (x.bad + 1) })
    else if h.head.frame ≠ n.frame ∨ n.sAt + n.period < n.now + 10000 then n
    else takeHeartbeat (modXl n xl (fun x => { x with got := true, delay := delay })) delay h
/-! Carrier and observer (R289) -/

/-- Channels whose front end a change of carrier switches (Table 12.8). -/
def carrierSwitches (n : Node) (ch : Nat) : Bool :=
  match chnSel n ch with
  | 4 => chnExc n ch == 1
  | 1 | 5 | 6 | 7 | 8 | 9 => true
  | _ => false

/-- The carrier role of a rank changes: a take and a release are settling events alike (05 Table 05.7). -/
def setCarrier (n : Node) (r : Nat) (on : Bool) : Node :=
  let n := modDpx n (fun d => { d with
    carried := setBit d.carried r on, released := setBit d.released r (!on), pHad := if on then setBit d.pHad r false else d.pHad })
  let n := ((chsOfRank n r).filter (carrierSwitches n)).foldl (fun n c => settleAt n c (n.sAt + 250000)) n
  let n := note n (recDuplex n 6 (b2n (!on)) (b2n on) 0 r (dpxStat n))
  raiseB n 4 5

/-- A paired module powers each rank in observe, one that it carried before as well (R289). -/
def powerObserve (n : Node) (r : Nat) : Node :=
  let n := modRank n r (fun x => { x with observe := paired n })
  if paired n && nbit n.duplex.carried r then
    let n := modDpx n (fun d => { d with carried := setBit d.carried r false })
    raiseB (note n (recDuplex n 6 1 0 0 r (dpxStat n))) 4 5
  else n

/-- What becomes of one rank at a boundary; `hb` is the heartbeat of the frame before. -/
def carrierStep (hb : Option Heartbeat) (n : Node) (r : Nat) : Node :=
  let d := n.duplex
  let ready := nbit (readyRanks n) r
  let theirs := match hb with | some h => nbit h.head.inrole r | none => false
  let pReady := match hb with | some h => nbit h.ready r | none => false
  let n := modDpx n (fun d => { d with
    pHad := if theirs then setBit d.pHad r true else d.pHad,
    released := if theirs || d.plost then setBit d.released r false else d.released,
    notReady := if hb.isNone then d.notReady else tset 0 d.notReady r (if pReady then 0 else sat 255 (tget 0 d.notReady r + 1)) })
  let named := match d.carry with | some (k, rs) => decide (k ≤ n.bAt) && nbit rs r | none => false
  if nbit d.carried r then
    if (!ready && pReady) || named then setCarrier n r false else n
  else if !ready then n
  else if n.duplex.plost then setCarrier n r true
  else if hb.isNone || theirs then n
  else if nbit d.pHad r then setCarrier n r true
  else if nbit n.duplex.released r then n
  else if !d.posB || decide (16 ≤ tget 0 n.duplex.notReady r) then setCarrier n r true
  else n

/-- Every rank's OBSERVE follows the carrier role. -/
def setObserve (n : Node) : Node :=
  { n with ranks := tmodAll {} n.ranks (keys n.ranks) (fun r x => { x with observe := paired n && !nbit n.duplex.carried r }) }

def carriers (n : Node) (k : Nat) : Node :=
  let n := (List.range 16).foldl (carrierStep (hbOf n k)) n
  match n.duplex.carry with
  | some (f, _) => if f ≤ n.bAt then resolveCmd (modDpx n (fun d => { d with carry := none })) 4 (some true) else n
  | none => n

/-- CARRIER_TAKE_TIMEOUT: position B, where A's rank has not been READY for 16 F. -/
def carrierTimeout (n : Node) (r : Nat) : Node :=
  let d := n.duplex
  let theirs := match d.hb with | some h => nbit h.head.inrole r | none => false
  if paired n ∧ d.posB ∧ r < 16 ∧ !nbit d.carried r ∧ !theirs ∧ nbit (readyRanks n) r ∧ 16 ≤ tget 0 d.notReady r then
    setObserve (setCarrier n r true)
  else n

/-! Drive decisions (R283) -/

/-- Table 12.6 at the boundary of the present frame; k is the frame before, j the one before that. -/
def nextDrive (n : Node) (k j : Nat) (o : Outcome) : Drive :=
  let d := n.duplex
  match d.drive with
  | .on =>
    if d.seen.contains j then .off
    else if d.seen.contains k then
      (if (decide (o = .lost) || decide (outHealth n = 0)) && !d.yield_ then .clamp else .on)
    else if o = .lost ∨ ineligible n ≠ 0 then .off
    else if o = .none ∧ d.plost ∧ d.posB then .off
    else .on
  | .clamp => if d.seen.contains j ∨ d.clampFrame + 3 ≤ n.frame then .off else .clamp
  | .off =>
    let partnerOff := match hbOf n k with
      | some h => h.head.seen || (h.head.drive == 0 && !h.head.take && !h.head.plost)
      | none => false
    if d.takes.contains j && decide (0 < outHealth n) && decide (o ≠ .lost) &&
        (partnerOff || (d.plost && (lineUsable n k false || !d.posB))) then .on
    else .off

/-- DPX_LAST.CAUSE of a change of the output claim. -/
def switchCause (n : Node) (on : Bool) (o : Outcome) : Nat :=
  let d := n.duplex
  let h := match d.hb with | some h => h.head | none => {}
  if (on && h.yield_) || (!on && d.yield_) then 2
  else if d.plost then 3
  else if on && d.swOut == 0 && !h.ohold then 5
  else if on then (if h.oclaim / 8192 < outHealth n then 1 else 4)
  else if outHealth n = 0 ∨ outHealth n < h.oclaim / 8192 then 1
  else if o = .none then 3 else 4

/-- The output class at a boundary. -/
def driveStep (n : Node) (k j : Nat) : Node :=
  let r := outcome n k false
  let n := raiseBIf r.2 n 4 8
  let old := n.duplex.drive
  let new := nextDrive n k j r.1
  let was := n.duplex.ohold
  let on := decide (new = .on)
  let cause := switchCause n on r.1
  let n := modDpx n (fun d => { d with
    drive := new, ohold := on, tenureO := if on then sat 255 (d.tenureO + 1) else 0,
    takes := d.takes.filter (fun f => f != j && decide (k ≤ f)), seen := d.seen.filter (fun f => f != j),
    clampFrame := if new = .clamp ∧ old ≠ .clamp then n.frame else d.clampFrame,
    clampAt := if new = .clamp ∧ old ≠ .clamp then n.now else d.clampAt,
    handB := if d.yield_ ∧ was ∧ !on then some n.frame else d.handB })
  let n := if was = on then n else
    modDpx n (fun d => { d with swOut := sat 65535 (d.swOut + 1), swCause := cause, swT := taiNow n })
  let n := if was = on then n else raiseB (note n (recDuplex n 1 (b2n was) (b2n on) cause 0 (dpxStat n))) 4 0
  if old = new then n
  else
    let n := note n (recDuplex n 3 (driveCode old) (driveCode new) cause 0 (dpxStat n))
    raiseBIf (decide (new = .clamp)) n 4 1

/-- A change of the time class: the sources follow (03 R84). -/
def retime (n : Node) : Node :=
  if n.duplex.thold then loseSource n .partner
  else reselect (modTb n (fun t => { t with ptpMaster := false }))

/-- The time class at a boundary (R286). -/
def timeStep (n : Node) (k : Nat) : Node :=
  let r := outcome n k true
  let n := raiseBIf r.2 n 4 8
  let was := n.duplex.thold
  let new := match r.1 with | .won => true | .lost => false | .none => was
  let n := modDpx n (fun d => { d with thold := new, tenureT := if new then sat 127 (d.tenureT + 1) else 0 })
  if was = new then n
  else
    let n := modDpx n (fun d => { d with swTime := sat 65535 (d.swTime + 1) })
    retime (raiseB (note n (recDuplex n 2 (b2n was) (b2n new) 0 0 (dpxStat n))) 4 2)

/-- A change that a record tells where it took place (R294). -/
def tellIf (c : Bool) (n : Node) (event old new index irq : Nat) : Node :=
  if c then raiseB (note n (recDuplex n event old new 0 index (dpxStat n))) 4 irq else n

/-- What stood of the partner and of the claims ends with EN = 0, each change with its record and its bit (R273, R294). -/
def tellUnpaired (was : Duplex) (n : Node) : Node :=
  let n := tellIf was.ohold n 1 1 0 0 0
  let n := tellIf was.thold n 2 1 0 0 2
  let n := if was.drive = .off then n else note n (recDuplex n 3 (driveCode was.drive) 0 0 0 (dpxStat n))
  let n := tellIf was.plost n 4 1 0 0 4
  let n := lineEvent (lineEvent n 0 was.lineA.oRes 0) 1 was.lineB.oRes 0
  let n := lineEvent (lineEvent n 0 was.lineA.tRes 0) 1 was.lineB.tRes 0
  let n := (members was.carried 16).foldl (fun n r => tellIf true n 6 1 0 r 5) n
  let n := (was.pmm.filter (fun e => e.2.set)).foldl (fun n e => note n (recDuplex n 7 1 0 0 e.1 (dpxStat n))) n
  raiseBIf was.x1.up (raiseBIf was.x0.up n 0x5E 1) 0x5F 1

/-- DRIVE_DECISION: the duplex part of a voted boundary. A module with EN = 0 ignores the cross-links and the claim lines
(R273): nothing of the partner stands, and the cross-links are down with their counts kept. -/
def duplexBoundary (n : Node) : Node :=
  if !paired n then
    let was := n.duplex
    let idle := fun (x : XLink) => ({ bad := x.bad, miss := x.miss, delay := x.delay } : XLink)
    let n := setObserve (modDpx n (fun d =>
      { posB := d.posB, missed := d.missed, swOut := d.swOut, swTime := d.swTime, swCause := d.swCause, swT := d.swT,
        x0 := idle d.x0, x1 := idle d.x1, inelig := 6, lastFrame := n.frame, prevFrame := d.lastFrame }))
    let n := if n.tb.sel = some .partner then loseSource n .partner else n
    tellUnpaired was n
  else
    let k := n.duplex.lastFrame
    let j := n.duplex.prevFrame
    let n := checkHeartbeat n k
    let n := timeStep (driveStep n k j) k
    let n := setObserve (carriers n k)
    modDpx n (fun d => { d with synced := syncedNow n, inelig := ineligNow n, lastFrame := n.frame, prevFrame := k })

/-- CLAMP_TIMEOUT (06 R141): the stages steer off. -/
def clampTimeout (n : Node) : Node :=
  if paired n ∧ n.duplex.drive = .clamp ∧ n.duplex.clampAt + 3 * n.period ≤ n.now then
    let n := modDpx n (fun d => { d with drive := .off })
    let n := note n (recDuplex n 3 2 0 n.duplex.swCause 0 (dpxStat n))
    (aoChs n).foldl (fun n c => modStage n c (stageOff .standby)) n
  else n

/-! Commands (Table 12.9, R285, R289) -/

/-- An ACTIVE function uses a channel of one of the ranks. -/
def ranksInUse (n : Node) (rs : Nat) : Bool :=
  (enabledFns n).any (fun s => decide ((fnOf n s).state = .active) && (usedChs n s).any (fun c => nbit rs (rankOfCh c)))

def dpxCmdCheck (n : Node) (path : Nat) (v : Word) : CmdCheck :=
  let op := fld v 3 0
  let rs := (reg n (at_ 4 0x60)).toNat
  let h := n.duplex.hb
  { code := decide (1 ≤ op ∧ op ≤ 3),
    state :=
      match op with
      | 1 => paired n && n.duplex.ohold && isRun n && n.duplex.handover.isNone && !n.duplex.plost &&
          (match h with | some h => h.head.synced && decide (8192 ≤ h.head.oclaim) | none => false)
      | 2 => (isConfig n || isRun n) && !(isRun n && ranksInUse n rs)
      | _ => true,
    level := levelOk n path (match op with | 1 => 2 | 2 => 3 | _ => 1),
    value := op != 2 || (match h with | some h => (members rs 16).all (nbit h.ready) && !n.duplex.plost | none => decide (rs = 0)) }

def dpxCmdEff (v : Word) (n : Node) : Node × Option Bool :=
  match fld v 3 0 with
  | 1 => (modDpx n (fun d => { d with handover := some n.now, handB := none }), none)
  | 2 => (modDpx (byLanes n 4) (fun d => { d with carry := some (takeUpAt n, (reg n (at_ 4 0x60)).toNat) }),
      if paired n then none else some true)
  | _ => defer 4 .dpxClear n

def dpxCmdWrite (n : Node) (path : Nat) (v : Word) : Node :=
  runCommand n path 4 (at_ 4 0x5C) v (dpxCmdCheck n path v) (dpxCmdEff v)

/-- The handover ends (R285). -/
def endHandover (n : Node) (ok : Bool) : Node :=
  resolveCmd (modDpx n (fun d => { d with handover := none, handB := none, yield_ := false })) 4 (some ok)

/-- At RESULT_READY of the frame at whose B the stages steered off: DONE, and FAILED where the partner's heartbeat of that frame
has come by then and shows that its TAKE has lapsed (R285; DEDUCED, log entry 104). -/
def handoverReady (n : Node) : Node :=
  match n.duplex.handB with
  | some b => if b ≤ n.frame then endHandover n ((hbOf n n.frame).all (fun h => h.head.drive == 1)) else n
  | none => n

/-- HANDOVER_TIMEOUT: 8 F after the acceptance. -/
def handoverTimeout (n : Node) : Node :=
  match n.duplex.handover with
  | some t => if t + 8 * n.period ≤ n.now then endHandover n false else n
  | none => n

/-- XL_CMD. -/
def xlCmdWrite (n : Node) (path i : Nat) (v : Word) : Node :=
  runCommand n path (0x5E + i) (at_ (0x5E + i) 0x4C) v
    { code := fld v 1 0 == 1, state := inStates n 30, level := levelOk n path 1 }
    (done (fun n => modXl n i (fun x => { x with bad := 0, miss := 0 })))

/-! Meanings -/

def execOutputArbitration (t : Nat) (l : LineSense) (s : State) : Host.Outcome State Fault Refusal :=
  .next (onNode s t (fun n => outArbitration n l))
def execTimeArbitration (t : Nat) (l : LineSense) (s : State) : Host.Outcome State Fault Refusal :=
  .next (onNode s t (fun n => timeArbitration n l))
def execPresencePulse (t : Nat) (aPres bPres aTerm bTerm : Bool) (s : State) : Host.Outcome State Fault Refusal :=
  .next (onNode s t (fun n => presence n aPres bPres aTerm bTerm))
def execHeartbeatSend (t : Nat) (s : State) : Host.Outcome State Fault Refusal := .next (onNode s t dpxSend)
def execHeartbeatReceived (t xl : Nat) (bytes : List Byte) (delay : Nat) (peer : PeerState) (s : State) : Host.Outcome State Fault Refusal :=
  .next (onNode s t (withFabric (fun n => heartbeatReceived n xl bytes delay peer)))
def execHeartbeatMiss (t : Nat) (s : State) : Host.Outcome State Fault Refusal := .next (onNode s t heartbeatMiss)
def execDpxHandover (t : Nat) (s : State) : Host.Outcome State Fault Refusal :=
  .next (onNode s t (fun n => dpxCmdWrite n hostPath 1))
def execHandoverTimeout (t : Nat) (s : State) : Host.Outcome State Fault Refusal := .next (onNode s t handoverTimeout)
def execDpxCarry (t : Nat) (s : State) : Host.Outcome State Fault Refusal :=
  .next (onNode s t (fun n => dpxCmdWrite n hostPath 2))
def execDpxClear (t : Nat) (s : State) : Host.Outcome State Fault Refusal :=
  .next (onNode s t (fun n => dpxCmdWrite n hostPath 3))
def execCarrierTakeTimeout (t rank : Nat) (s : State) : Host.Outcome State Fault Refusal :=
  .next (onNode s t (fun n => carrierTimeout n rank))
def execClampTimeout (t : Nat) (s : State) : Host.Outcome State Fault Refusal := .next (onNode s t clampTimeout)
def execXlCmdClear (t xl : Nat) (s : State) : Host.Outcome State Fault Refusal :=
  .next (onNode s t (fun n => if xl < 2 then xlCmdWrite n hostPath xl 1 else n))

end Sys2Proof.Machine
end

