-- ==== Sys2Proof/Machine/Net.lean ====
section
/-! DEFINITION. The alert formatter, the trend streams, and the Ethernet and serial ports (14 R335 to R344). -/

namespace Sys2Proof.Machine

def ethPage (p : Nat) : Nat := 0x58 + p
def serPage (p : Nat) : Nat := 0x5C + p
def ethReg (n : Node) (p o : Nat) : Word := reg n (at_ (ethPage p) o)
def serCfg (n : Node) (p : Nat) : Word := reg n (at_ (serPage p) 0x44)
def ethSvc (n : Node) (p b : Nat) : Bool := bit (ethReg n p 0x58) 0 && bit (ethReg n p 0x58) b

/-! Ports of the formatter (09 R208, 14 R336, R341) -/

/-- ETH ports and SER ports on which the formatter sends: marked in CALL_BR, with alerts enabled. -/
def ethActive (n : Node) : List Nat :=
  (List.range 4).filter (fun p => bit (callReg n 0x54) (16 + p) && ethSvc n p 1)
def serActive (n : Node) : List Nat :=
  (List.range 2).filter (fun p => bit (callReg n 0x54) (20 + p) && bit (serCfg n p) 31 && bit (serCfg n p) 4)

/-- One sentence on an ETH port: datagram with the port's SFI and the next line count. -/
def sendEth (n : Node) (p : Nat) (m : Sentence) : Node :=
  let l := n.net.line
  let n := { n with net := { n.net with line := if l = 999 then 1 else l + 1 } }
  emit (modEth n p (fun e => { e with tx := e.tx + 1 }))
    (.eth p (ethReg n p 0x60) (fld (ethReg n p 0x64) 15 0) (ethReg n p 0x5C) l m)

/-- One sentence on a SER port. -/
def sendSer (n : Node) (p : Nat) (m : Sentence) : Node :=
  emit (modSer n p (fun e => { e with tx := e.tx + 1 })) (.ser p (fld (serCfg n p) 23 8) m)

/-- One sentence on every port of the formatter. -/
def sendAll (n : Node) (m : Sentence) : Node :=
  (serActive n).foldl (fun n p => sendSer n p m) ((ethActive n).foldl (fun n p => sendEth n p m) n)

/-! Alerts (R337, Table 14.12) -/

/-- UTC of a node time, ns (03 R58). -/
def utcOf (n : Node) (tai : Nat) : Nat := ((tai : Int) - sfld (reg n (at_ 1 0x78)) 15 0 * 1000000000).toNat

/-- A digit, and a number in decimal digits. -/
def digit (k : Nat) : Char := (['0', '1', '2', '3', '4', '5', '6', '7', '8', '9', 'A', 'B', 'C', 'D', 'E', 'F'])[k % 16]?.getD '0'
def decimal (w k : Nat) : List Char := (List.range w).map (fun i => digit (k / 10 ^ (w - 1 - i) % 10))

/-- Slot type in the text. -/
def slotText (t : Nat) : List Char :=
  match t with
  | 0 => "HH".toList
  | 1 => "H".toList
  | 2 => "L".toList
  | 3 => "LL".toList
  | 4 => "ROC+".toList
  | 5 => "ROC-".toList
  | 6 => "DEV".toList
  | _ => "FLT".toList

/-- The text of an alert. -/
def alertText (n : Node) (a : Alert) : List Char :=
  ['N', digit (msgAddr n / 16), digit (msgAddr n % 16), ' '] ++
  match a with
  | .point k =>
    if k < 4096 then ['C', 'H'] ++ decimal 3 (k / 8) ++ [' '] ++ slotText (ptType n k) else 'D' :: decimal 4 (k - 4096)
  | .summary => "ENG CALL".toList
  | .callFault => "CALL FAULT".toList
  | .watch => "WATCH".toList

def alertIdent : Alert → Nat
  | .point k => 10000 + k
  | .summary => 3001
  | .callFault => 3002
  | .watch => 3003

/-- The alert an identifier names. -/
def alertOf (ident : Nat) : Option Alert :=
  if ident = 3001 then some .summary
  else if ident = 3002 then some .callFault
  else if ident = 3003 then some .watch
  else if 10000 ≤ ident ∧ ident < 15120 then some (.point (ident - 10000))
  else none

/-- Category B where the bridge may acknowledge. -/
def alertB (n : Node) (a : Alert) : Bool :=
  match a with
  | .point k => bit (ptAttr n k) 18
  | .summary | .callFault => true
  | .watch => false

/-- Priority letter. -/
def alertPrio (n : Node) (a : Alert) : Char :=
  match a with
  | .point k => if ptPrio n k = 3 then 'E' else if ptPrio n k = 2 then 'A' else 'W'
  | .callFault => 'W'
  | _ => 'A'

def stateLetter (c : Nat) : Char :=
  match c with
  | 1 => 'V'
  | 2 => 'S'
  | 3 => 'A'
  | 4 => 'O'
  | 5 => 'U'
  | _ => 'N'

/-- State code and time an alert is presented with; 0 where it is not presented or NORMAL. -/
def shownOf (n : Node) (a : Alert) : Shown :=
  match a with
  | .point k => (tget none n.net.presented k).getD { state := 0, time := 0 }
  | .summary => { state := stateOf n.net.summary.state, time := n.net.summary.time }
  | .callFault => { state := stateOf n.net.callFault.state, time := n.net.callFault.time }
  | .watch => { state := stateOf n.net.watch.state, time := n.net.watch.time }

/-- The ALF of an alert as it stands. -/
def alfOf (n : Node) (a : Alert) : Sentence :=
  let x := shownOf n a
  .alf (alertIdent a) (msgAddr n + 1) (if alertB n a then 'B' else 'C') (stateLetter x.state) (alertPrio n a) (utcOf n x.time)
    (alertText n a)

/-- Presented alerts not in state N: points in order, then the node's own. -/
def present (n : Node) : List Alert :=
  (((keys n.net.presented).map Alert.point) ++ [Alert.summary, Alert.callFault, Alert.watch]).filter (fun a => (shownOf n a).state != 0)

/-! The queue of each port (R337): at most 40 ALF a second on an ETH port -/

/-- A change waits in order; one that waits already carries the newer state when it is sent. -/
def enqueue (a : Alert) (q : List Alert) : List Alert := if q.contains a then q else q ++ [a]

def queueAlf (n : Node) (a : Alert) : Node :=
  let n := (ethActive n).foldl (fun n p => modEth n p (fun e => { e with queue := enqueue a e.queue })) n
  (serActive n).foldl (fun n p => modSer n p (fun e => { e with queue := enqueue a e.queue })) n

/-- What an ETH port still may send in the running second. -/
def ethRoom (n : Node) (p : Nat) : Nat :=
  let e := ethOf n p
  if e.sec = n.now / 1000000000 then 40 - e.secCnt else 40

def drainEth (n : Node) (p : Nat) : Node :=
  let r := ethRoom n p
  let q := (ethOf n p).queue
  let sent := q.take r
  let n := modEth n p (fun e => { e with queue := q.drop r, sec := n.now / 1000000000, secCnt := 40 - r + sent.length })
  sent.foldl (fun n a => sendEth n p (alfOf n a)) n

def drainSer (n : Node) (p : Nat) : Node :=
  let q := (serOf n p).queue
  q.foldl (fun n a => sendSer n p (alfOf n a)) (modSer n p (fun e => { e with queue := [] }))

/-- Everything due is sent; an alert whose last ALF has gone is presented no more. -/
def drain (n : Node) : Node :=
  let n := (serActive n).foldl drainSer ((ethActive n).foldl drainEth n)
  let waits := fun k => (ethActive n).any (fun p => (ethOf n p).queue.contains (.point k))
  { n with net := { n.net with presented := n.net.presented.filter (fun e =>
      (match e.2 with | some x => x.state != 0 | none => false) || waits e.1) } }

/-! The formatter at RESULT_READY (R337) -/

/-- A point is presented: a calling point of stage 3 under BR_MODE, an emergency alarm (09 R208), or one presented before
and not yet NORMAL. -/
def pointPresented (n : Node) (k : Nat) : Bool :=
  let p := pointOf n k
  (calling n k && effStage n k == 3 && bit (callReg n 0x40) 1) || (ptPrio n k == 3 && p.state != .normal) ||
  ((shownOf n (.point k)).state != 0 && p.state != .normal)

/-- One point: a change of what is presented queues its ALF, with TIME for a new activation and S of the frame otherwise. -/
def presentPoint (n : Node) (k : Nat) : Node :=
  let p := pointOf n k
  let old := shownOf n (.point k)
  let st := if pointPresented n k then stateOf p.state else 0
  if st = old.state then n
  else
    let x : Shown := { state := st, time := if st = 1 ∧ p.entered = some n.sampleT then p.time else n.sampleT }
    queueAlf { n with net := { n.net with presented := tset none n.net.presented k (some x) } } (.point k)

/-- An own alert under its condition, by 08 Table 08.8. -/
def ownStep (a : OwnAlert) (c : Bool) (s : Nat) : OwnAlert :=
  let st := if c && !a.cond then nextAlert a.state .rises else if !c && a.cond then nextAlert a.state .falls else a.state
  { cond := c, state := st, time := if st = a.state then a.time else s }

/-- The watch alert is V while WATCH is ALARM, and N otherwise. -/
def watchStep (a : OwnAlert) (c : Bool) (s : Nat) : OwnAlert :=
  if a.cond = c then a else { cond := c, state := if c then .actUnack else .normal, time := s }

/-- Call system fault: a configured station LOST, or FLOOR 3. -/
def callFaulty (n : Node) : Bool := (stations n).any (fun k => (stationOf n k).link == 2) || n.call.floor == 3

def setOwn (n : Node) (a : Alert) (x : OwnAlert) : Node :=
  let old := (shownOf n a).state
  let n := match a with
    | .summary => { n with net := { n.net with summary := x } }
    | .callFault => { n with net := { n.net with callFault := x } }
    | .watch => { n with net := { n.net with watch := x } }
    | .point _ => n
  if (shownOf n a).state = old then n else queueAlf n a

/-- The node's own alerts; out of CONFIG, RUN and SAFE no condition stands. -/
def ownAlerts (n : Node) : Node :=
  let on := operational n
  let n := setOwn n .summary (ownStep n.net.summary (on && n.call.stage == 3) n.sampleT)
  let n := setOwn n .callFault (ownStep n.net.callFault (on && callFaulty n) n.sampleT)
  setOwn n .watch (watchStep n.net.watch (on && decide (n.call.watch = .alarm)) n.sampleT)

/-- The full set after the bridge link's return (09 R209). -/
def resendAll (n : Node) : Node :=
  if n.net.resend then
    let n := (present n).foldl queueAlf n
    { n with net := { n.net with resend := false } }
  else n

/-- The formatter at RESULT_READY: in a pair the holder's alone. -/
def formatter (n : Node) : Node :=
  if holder n then
    let ks := (keys n.points).foldl (fun l k => insertNat k l) (keys n.net.presented)
    drain (resendAll (ownAlerts (ks.foldl presentPoint n)))
  else n

/-- A period since the last time has passed. -/
def dueAgain (n : Node) (last : Option Nat) (d : Nat) : Bool := match last with | some t => decide (t + d ≤ n.now) | none => true

/-- ALF_REPEAT: every 60 s each presented alert not in state N. -/
def alfRepeat (n : Node) : Node :=
  if holder n && dueAgain n n.net.alfAt 60000000000 then
    drain ((present n).foldl queueAlf { n with net := { n.net with alfAt := some n.now } })
  else n

/-- Lists of at most four. -/
def chunk4 {α : Type} (fuel : Nat) (l : List α) : List (List α) :=
  match fuel, l with
  | 0, _ => []
  | _, [] => []
  | f + 1, l => l.take 4 :: chunk4 f (l.drop 4)

/-- ALC_SEND, every 30 s: the presented alerts not in state N, at most 4 to a sentence. -/
def alcSend (n : Node) : Node :=
  if holder n && dueAgain n n.net.alcAt 30000000000 then
    let n := { n with net := { n.net with alcAt := some n.now } }
    let es := (present n).map (fun a => (alertIdent a, msgAddr n + 1, stateLetter (shownOf n a).state))
    (chunk4 es.length es).foldl (fun n c => sendAll n (.alc c)) n
  else n

/-- HBT_SEND, every 10 s: status A in TMR and DUAL, V otherwise. -/
def hbtSend (n : Node) : Node :=
  if holder n && dueAgain n n.net.hbtAt 10000000000 then
    sendAll { n with net := { n.net with hbtAt := some n.now } } (.hbt (if lanesTmr n || lanesDual n then 'A' else 'V'))
  else n

/-! Received sentences (R336, R338, R341) -/

/-- The port takes sentences, and whether this one is good: SFI on ETH, checksum and format on both. -/
def rxTaken (n : Node) (rx : RxHead) : Bool :=
  match rx.port with
  | .eth p => decide (p < 4) && ethSvc n p 1
  | .ser p => decide (p < 2) && bit (serCfg n p) 31 && bit (serCfg n p) 5
def rxGood (n : Node) (rx : RxHead) : Bool :=
  match rx.port with
  | .eth p => rx.ok && rx.sfi == ethReg n p 0x68
  | .ser _ => rx.ok

/-- A sentence counted: BAD where discarded, OK on a serial port. -/
def rxCount (n : Node) (rx : RxHead) : Node :=
  match rx.port with
  | .eth p => if rxGood n rx then n else modEth n p (fun e => { e with bad := sat 65535 (e.bad + 1) })
  | .ser p =>
    if rxGood n rx then modSer n p (fun e => { e with ok := sat 65535 (e.ok + 1), lastOk := some n.now })
    else raise (modSer n p (fun e => { e with bad := sat 65535 (e.bad + 1) })) (serPage p) 1

/-- A received sentence, and what it does where it is good and this module accepts it. -/
def received (n : Node) (rx : RxHead) (f : Node → Node) : Node :=
  if rxTaken n rx then
    let m := rxCount n rx
    if rxGood n rx && holder n then f m else m
  else n

/-- A sentence answered on the port it came from. -/
def answer (n : Node) (rx : RxHead) (m : Sentence) : Node :=
  match rx.port with
  | .eth p => sendEth n p m
  | .ser p => sendSer n p m

/-- ARC, with its interrupt bit on an ETH page. -/
def sendArc (n : Node) (rx : RxHead) (c : Char) (ident inst : Nat) : Node :=
  let n := answer n rx (.arc c ident inst)
  match rx.port with
  | .eth p => raise n (ethPage p) 3
  | .ser _ => n

/-- ACN counted on an ETH port. -/
def countAcn (n : Node) (rx : RxHead) : Node :=
  match rx.port with
  | .eth p => modEth n p (fun e => { e with acn := sat 65535 (e.acn + 1) })
  | .ser _ => n

def rxOrder (rx : RxHead) : Nat :=
  match rx.port with
  | .eth p => 24 + p
  | .ser p => 28 + p

/-- The bridge command of a letter; none for Q and for a letter that is none of the four (R338). -/
def acnCode (c : Char) : Option Nat := if c = 'A' then some 0 else if c = 'S' then some 1 else if c = 'O' then some 2 else none

/-- An ACN: A, S and O wait for the lanes, Q sends the ALF again; ARC where it is refused. -/
def acn (n : Node) (rx : RxHead) (c : Char) (ident inst : Nat) : Node :=
  received n rx (fun n =>
    if inst ≠ msgAddr n + 1 then n
    else
      match (alertOf ident).filter (fun a => (shownOf n a).state != 0) with
      | none => sendArc n rx c ident inst
      | some a =>
        match acnCode c with
        | some letter =>
          if letter = 0 ∧ !alertB n a then sendArc n rx c ident inst
          else queueRemote (countAcn n rx) (rxOrder rx) (.acn letter a)
        | none => if c = 'Q' then drain (queueAlf (countAcn n rx) a) else sendArc n rx c ident inst)

/-- An event of an ACN. -/
def acnEvent (letter : Nat) : AlmEvent := if letter = 0 then .ack else if letter = 1 then .silence else .transfer

/-- A command on one of the node's own alerts; the watch alert admits none. -/
def ownCommand (a : Alert) (x : OwnAlert) (e : AlmEvent) (s : Nat) : OwnAlert :=
  match a with
  | .watch => x
  | _ => let st := nextAlert x.state e; if st = x.state then x else { x with state := st, time := s }

/-- The application of a bridge command by the lanes (08 R185); one that changes nothing has the ALF sent again. -/
def acnEff (n : Node) (letter : Nat) (a : Alert) : Node :=
  match a with
  | .point k =>
    let r := if letter = 0 ∧ !bit (ptAttr n k) 18 then (n, 0)
      else if letter = 2 then transferAll n [k] 30
      else commandAll n [k] (acnEvent letter) 30
    if r.2 = 0 then queueAlf n (.point k) else byRemote n [k] r
  | a =>
    let x := match a with | .summary => n.net.summary | .callFault => n.net.callFault | _ => n.net.watch
    let y := ownCommand a x (acnEvent letter) n.sampleT
    if y = x then queueAlf n a else setOwn n a y

/-- BRIDGE_HBT_RECEIVED (09 R209). -/
def bridgeHbtReceived (n : Node) (rx : RxHead) : Node := received n rx bridgeHbt

/-- SER_RX_LOST: no valid sentence for 5 s after one. -/
def serRxLost (n : Node) (p : Nat) : Node :=
  match (serOf n p).lastOk with
  | some t => if t + 5000000000 ≤ n.now then raiseB (modSer n p (fun e => { e with lastOk := none })) (serPage p) 0 else n
  | none => n

/-! Trend streams (R339, R340) -/

def trendOn (n : Node) (p s : Nat) : Bool := ethSvc n p 2 && fld (ethReg n p (0x74 + 16 * s)) 7 0 != 0

/-- Streams that run. -/
def trendStreams (n : Node) : List (Nat × Nat) :=
  ((List.range 4).flatMap (fun p => [(p, 0), (p, 1)])).filter (fun e => trendOn n e.1 e.2)

def trendGap (n : Node) (p s : Nat) : Bool := if s = 0 then (ethOf n p).gap0 else (ethOf n p).gap1
def setTrendGap (n : Node) (p s : Nat) (g : Bool) : Node :=
  modEth n p (fun e => if s = 0 then { e with gap0 := g } else { e with gap1 := g })

/-- Every stream, running or not, carries GAP in its next datagram. -/
def gapAll (n : Node) : Node := (List.range 4).foldl (fun n p => setTrendGap (setTrendGap n p 0 true) p 1 true) n

/-- A datagram of a stream is due in the frame: every INTERVAL frames, at shed level 1 every 4 INTERVAL, at level 2 and
above none. -/
def trendDue (n : Node) (e : Nat × Nat) : Bool :=
  let int := fld (ethReg n e.1 (0x74 + 16 * e.2)) 7 0
  decide (n.mgt.shed < 2) && n.frame % (if n.mgt.shed = 1 then 4 * int else int) == 0

/-- A frame without its RESULT_READY: the datagrams due in it were not sent. -/
def trendMissed (n : Node) : Node :=
  (trendStreams n).foldl (fun n e =>
    if trendDue n e then setTrendGap n e.1 e.2 true else n) n

def sendTrend (n : Node) (p s : Nat) (m : TrendMsg) : Node :=
  emit (modEth n p (fun e => { e with tr := e.tr + 1 }))
    (.trend p (ethReg n p (0x70 + 16 * s)) (fld (ethReg n p (0x74 + 16 * s)) 31 16) m)

/-- Entry of a channel. -/
def trendEntry (n : Node) (ch : Nat) : Int × Nat × Nat :=
  let r := resOf n ch
  (r.val, r.stat, sat 255 (r.dly.getD n.resHead.offDly))

/-- One stream in a frame; DECIMATED at shed level 1. -/
def trendStream (n : Node) (e : Nat × Nat) : Node :=
  let p := e.1
  let s := e.2
  let ch := ethReg n p (0x78 + 16 * s)
  if !trendDue n e then n
  else
    let m : TrendMsg := {
      decimated := n.mgt.shed == 1, stopped := false, gap := trendGap n p s, node := msgAddr n, stream := 2 * p + s, frame := n.frame,
      s := n.sampleT, f := n.period, first := fld ch 8 0,
      entries := (List.range (fld ch 22 16)).map (fun i => trendEntry n (fld ch 8 0 + i)) }
    setTrendGap (sendTrend n p s m) p s false

/-- The streams after RESULT_READY. -/
def trends (n : Node) : Node := if mpRun n then (trendStreams n).foldl trendStream n else n

/-- TREND_STOPPED_SEND: once per second at shed level 2 and above, STOPPED with no samples. -/
def trendStopped (n : Node) : Node :=
  if mpRun n && decide (2 ≤ n.mgt.shed) && dueAgain n n.net.stopAt 1000000000 then
    let n := { n with net := { n.net with stopAt := some n.now } }
    (trendStreams n).foldl (fun n e =>
      sendTrend n e.1 e.2 { decimated := false, stopped := true, gap := false, node := msgAddr n, stream := 2 * e.1 + e.2,
                            frame := n.frame, s := n.sampleT, f := n.period,
                            first := fld (ethReg n e.1 (0x78 + 16 * e.2)) 8 0, entries := [] }) n
  else n

/-- The streams stop as the shed level reaches 2 (R340): TR_STOP, and GAP in the first datagram after the return. -/
def stopTrends (n : Node) : Node :=
  let ps := (List.range 4).filter (fun p => trendOn n p 0 || trendOn n p 1)
  ps.foldl (fun n p => raise n (ethPage p) 2) (gapAll n)

/-! Links and requests (R335) -/

/-- ETH_LINK_CHANGE: SPEED 1 for 100 and 2 for 1000 Mbit/s; full duplex only. -/
def ethLink (n : Node) (p : Nat) (up : Bool) (speed : Nat) : Node :=
  if (ethOf n p).link = up then modEth n p (fun e => if up then { e with speed := speed % 4 } else e)
  else
    let n := modEth n p (fun e => { e with
      link := up, anDone := up, full := up, speed := if up then speed % 4 else 0 })
    raiseB n (ethPage p) (if up then 0 else 1)

/-- ARP_ICMP_REQUEST: answered for the port's own address. -/
def arpIcmp (n : Node) (p : Nat) (echo : Bool) (addr : Nat) : Node :=
  if bit (ethReg n p 0x58) 0 && addr == (ethReg n p 0x4C).toNat then emit n (if echo then .icmp p else .arp p) else n

/-- ETH_CMD and SER_CMD: OP 1 clears the counters. -/
def portCheck (n : Node) (path : Nat) (v : Word) : CmdCheck :=
  { code := fld v 1 0 == 1, state := inStates n 30, level := levelOk n path 1 }

def ethCmdWrite (n : Node) (path p : Nat) (v : Word) : Node :=
  runCommand n path (ethPage p) (at_ (ethPage p) 0x9C) v (portCheck n path v)
    (done (fun n => modEth n p (fun e => { e with tx := 0, acn := 0, bad := 0, tr := 0 })))

def serCmdWrite (n : Node) (path p : Nat) (v : Word) : Node :=
  runCommand n path (serPage p) (at_ (serPage p) 0x50) v (portCheck n path v)
    (done (fun n => modSer n p (fun e => { e with ok := 0, bad := 0, tx := 0 })))

/-! Status words (Tables 14.14, 14.16) -/

def ethRead (n : Node) (p o : Nat) : Word :=
  let e := ethOf n p
  match o with
  | 0x40 => pack [(b2n e.full, 4, 1), (e.speed, 2, 2), (b2n e.anDone, 1, 1), (b2n e.link, 0, 1)]
  | 0x44 => Config.macLow p
  | 0x48 => (Config.macHigh p).setWidth 32
  | 0x90 => e.tx
  | 0x94 => pack [(e.acn, 16, 16), (e.bad, 0, 16)]
  | 0x98 => e.tr
  | _ => 0

def serRead (n : Node) (p o : Nat) : Word :=
  let e := serOf n p
  match o with
  | 0x40 =>
    let act : Bool := match e.lastOk with | some t => decide (n.now < t + 5000000000) | none => false
    pack [(b2n act, 1, 1), (b2n (bit (serCfg n p) 31), 0, 1)]
  | 0x48 => pack [(e.ok, 16, 16), (e.bad, 0, 16)]
  | 0x4C => e.tx
  | _ => 0

/-! Meanings -/

def execEthLinkChange (t port : Nat) (up : Bool) (speed : Nat) (s : State) : Host.Outcome State Fault Refusal :=
  .next (onNode s t (fun n => if port < 4 then ethLink n port up speed else n))
def execEthCmdClear (t port : Nat) (s : State) : Host.Outcome State Fault Refusal :=
  .next (onNode s t (fun n => if port < 4 then ethCmdWrite n hostPath port 1 else n))
def execTrendStoppedSend (t : Nat) (s : State) : Host.Outcome State Fault Refusal := .next (onNode s t trendStopped)
def execArpIcmpRequest (t port : Nat) (echo : Bool) (addr : Nat) (s : State) : Host.Outcome State Fault Refusal :=
  .next (onNode s t (fun n => if port < 4 then arpIcmp n port echo addr else n))
def execSerRxLost (t port : Nat) (s : State) : Host.Outcome State Fault Refusal :=
  .next (onNode s t (fun n => if port < 2 then serRxLost n port else n))
def execSerCmdClear (t port : Nat) (s : State) : Host.Outcome State Fault Refusal :=
  .next (onNode s t (fun n => if port < 2 then serCmdWrite n hostPath port 1 else n))
def execBridgeHbtReceived (t : Nat) (rx : RxHead) (s : State) : Host.Outcome State Fault Refusal :=
  .next (onNode s t (fun n => bridgeHbtReceived n rx))
def execAlfRepeat (t : Nat) (s : State) : Host.Outcome State Fault Refusal := .next (onNode s t alfRepeat)
def execAlcSend (t : Nat) (s : State) : Host.Outcome State Fault Refusal := .next (onNode s t alcSend)
def execHbtSend (t : Nat) (s : State) : Host.Outcome State Fault Refusal := .next (onNode s t hbtSend)
def execAcnAck (t : Nat) (rx : RxHead) (ident inst : Nat) (s : State) : Host.Outcome State Fault Refusal :=
  .next (onNode s t (fun n => acn n rx 'A' ident inst))
def execAcnSilence (t : Nat) (rx : RxHead) (ident inst : Nat) (s : State) : Host.Outcome State Fault Refusal :=
  .next (onNode s t (fun n => acn n rx 'S' ident inst))
def execAcnTransfer (t : Nat) (rx : RxHead) (ident inst : Nat) (s : State) : Host.Outcome State Fault Refusal :=
  .next (onNode s t (fun n => acn n rx 'O' ident inst))
/-- ACN_REQUEST: Q, or a letter that the formatter refuses. -/
def execAcnRequest (t : Nat) (rx : RxHead) (ask : AcnAsk) (inst : Nat) (s : State) : Host.Outcome State Fault Refusal :=
  .next (onNode s t (fun n => acn n rx ask.letter ask.ident inst))

end Sys2Proof.Machine
end

