-- ==== Sys2Proof/Machine/Mgmt.lean ====
section
/-! DEFINITION. The management processor, shedding, the result mirror and the PCI Express link (01 R19, 02 R34, R51 to
R57). -/

namespace Sys2Proof.Machine

def modMgt (n : Node) (f : Mgt → Mgt) : Node := { n with mgt := f n.mgt }
def modMirror (n : Node) (f : Mirror → Mirror) : Node := { n with mirror := f n.mirror }

/-! The shed level (R55) -/

/-- MGT_CTRL.SHED_MIN, 7 treated as 6. -/
def shedMin (n : Node) : Nat := min 6 (fld (reg n (at_ 0x0C 0x48)) 2 0)

/-- A change of level: SHED_CHG, record; the trend streams stop at level 2. -/
def setShed (n : Node) (new : Nat) : Node :=
  let old := n.mgt.shed
  if old = new then n
  else
    let n := modMgt n (fun m => { m with shed := new })
    let n := note n (recMp n 3 old new false)
    let n := if old < 2 ∧ 2 ≤ new then stopTrends n else n
    raise n 0x0C 2

/-- The load as measured over the last 100 ms; a management processor that does not run measures none (01 R18). -/
def takeLoad (n : Node) (load : Nat) : Node :=
  if mpRun n then
    modMgt n (fun m => { m with
      load := sat 100 load, peak := max m.peak (sat 100 load), lowSince := if 70 < load then some n.now else m.lowSince })
  else n

/-- SHED_RAISE: by one above 90 %, at most once per 100 ms. -/
def shedRaise (n : Node) (load : Nat) : Node :=
  let n := takeLoad n load
  let due : Bool := match n.mgt.lastRaise with
    | some t => decide (t + 100000000 ≤ n.now)
    | none => true
  if mpRun n ∧ 90 < load ∧ due ∧ n.mgt.shed < 6 then
    setShed (modMgt n (fun m => { m with lastRaise := some n.now })) (n.mgt.shed + 1)
  else n

/-- SHED_LOWER: by one after 1 s at or below 70 %, never below SHED_MIN. -/
def shedLower (n : Node) (load : Nat) : Node :=
  let n := takeLoad n load
  let due : Bool := match n.mgt.lowSince with
    | some t => decide (t + 1000000000 ≤ n.now)
    | none => false
  if mpRun n ∧ load ≤ 70 ∧ due ∧ shedMin n < n.mgt.shed then
    setShed (modMgt n (fun m => { m with lowSince := some n.now })) (n.mgt.shed - 1)
  else n

/-- MGT_CTRL: the level never lies below SHED_MIN. -/
def applyShedMin (n : Node) : Node := if mpRun n then setShed n (max n.mgt.shed (shedMin n)) else n

/-- MGT_LOAD (Table 02.13). -/
def loadWord (n : Node) : Word :=
  pack [(n.mgt.shed, 24, 3), (n.mgt.dram, 16, 8), (n.mgt.peak, 8, 8), (n.mgt.load, 0, 8)]

/-- MGT_LOAD_READ: the read returns the load, and PEAK starts afresh. -/
def loadRead (n : Node) (load dram : Nat) : Node :=
  let n := modMgt (takeLoad n load) (fun m => { m with dram := if mpRun n then sat 100 dram else m.dram })
  emit (modMgt n (fun m => { m with peak := m.load })) (.read (loadWord n))

/-! Stop and restart (01 R19, 02 R57) -/

/-- Everything that is staged and not committed is discarded; a confirmed image stays (16 R378, R379). -/
def dropStaged (n : Node) : Node :=
  match n.config.pend with
  | some p => if p.confirmed then n else discardImage n 0xFE 0 byNode
  | none => dropValues n byNode

/-- A READ in progress ends FAILED: recorder reads stop (01 R19). -/
def failRead (n : Node) : Node :=
  match cmdOf n 6 with
  | some c => if c.off % 4096 = 0x74 ∧ fld c.value 3 0 = 1 then resolveCmd n 6 (some false) else n
  | none => n

/-- What the CFG page shows from a stop on (01 R18): what it showed at the stop. -/
def holdCfg (n : Node) : Node :=
  let c := n.config
  { n with config := { c with mpHeld := some {
    log := c.log, logCount := c.logCount, dirty := dirtyShown c, period := fld (reg n (at_ 1 0x64)) 3 0 } } }

/-- The management processor leaves RUN, or restarts before it has come up; the record carries the codes of
MGT_STATE.STATE. -/
def mpDown (n : Node) (to_ : MpState) (wdog : Bool) : Node :=
  let was := mpRun n
  let n := if was then note n (recMp n 1 1 (if to_ = .stopped then 2 else 3) wdog) else n
  let n := failRead (dropStaged (endAllSessions n 10))
  let n := { n with config := { n.config with tls := [] }, rec_ := { n.rec_ with rdValid := false } }
  let n := modMgt (gapAll n) (fun m => { m with
    state := to_, wdog := wdog, downAt := if was then n.now else m.downAt,
    restarts := if to_ = .resetting then sat 65535 (m.restarts + 1) else m.restarts })
  raiseIf was (if was then holdCfg n else n) 0x0C 0

/-- The restart leaves RESETTING, or a stop, for BOOT (R57); from a stop it counts, and no watchdog caused it. -/
def mpBoot (n : Node) : Node :=
  let stopped := decide (n.mgt.state = .stopped)
  if mpRun n then n
  else modMgt n (fun m => { m with
    state := .boot, restarts := if stopped then sat 65535 (m.restarts + 1) else m.restarts, wdog := m.wdog && !stopped })

/-- A CHPW that a stop cut short before its hash was stored ends FAILED with reason MP_STOP (16 R371). -/
def failChpw (n : Node) : Node :=
  match n.config.chpw, cmdOf n 5 with
  | some _, some c =>
    resolveCmd (setReason { n with config := { n.config with chpw := none } } c.path 13) 5 (some false)
  | _, _ => n

/-- MP_RESTART_DONE: through BOOT (R57) to RUN, with the shed level at SHED_MIN. The first start after a node reset is no
restart and has no record of one. -/
def mpUp (n : Node) : Node :=
  if mpRun n then n
  else
    let first := !n.mgt.booted
    let n := modMgt (mpBoot n) (fun m => { m with
      state := .run, booted := true, lastRaise := none, lowSince := some n.now })
    let n := { n with config := { n.config with mpHeld := none } }
    let n := failChpw (if first then n else note n (recMp n 2 0 1 n.mgt.wdog))
    raise (setShed n (shedMin n)) 0x0C 1

/-! MGT_CMD -/

def mgtCmdCheck (n : Node) (v : Word) : CmdCheck := { code := v == 0x4D500000 || v == 1, state := inStates n 30 }

def mgtCmdEff (v : Word) (n : Node) : Node :=
  if v = 1 then modMgt n (fun m => { m with badAcc := 0, badCnt := 0 }) else mpDown n .resetting false

def mgtCmdWrite (n : Node) (path : Nat) (v : Word) : Node :=
  runCommand n path 0x0C (at_ 0x0C 0x6C) v (mgtCmdCheck n v) (done (mgtCmdEff v))

/-! The result mirror (R51 to R54) -/

/-- The bytes of a block, from the results of frame `src.resHead.frame` as published. -/
def blockBytes (src : Node) (gap : Bool) : List Byte :=
  let h := src.resHead
  let chs := List.range 512
  bytesLE 8 h.frame ++ bytesLE 8 h.sample ++ bytesLE 4 h.period ++
  bytesLE 4 (packN [(b2n h.active, 0, 1), (h.lanes, 1, 2), (b2n gap, 3, 1)]) ++ List.replicate 40 0 ++
  chs.flatMap (fun c => bytesI 4 (resOf src c).val) ++
  chs.map (fun c => byteOf (resOf src c).stat) ++
  chs.map (fun c => byteOf (sat 255 ((resOf src c).dly.getD h.offDly))) ++
  (List.range 640).map (fun i => byteOf (bitSet ((List.range 8).filter (fun b => (pointOf src (8 * i + b)).active)))) ++
  List.replicate 312 0 ++ bytesLE 8 h.frame

/-- HSIZE admits the host copy. -/
def hsizeOk (k : Nat) : Bool := [16, 32, 64, 128, 256, 512, 1024].contains k

/-- The host-memory copy of a block goes out (R34, R54, shed level 5). -/
def hostCopies (n : Node) (frame : Nat) : Bool :=
  n.mirror.hostEn && n.mirror.linkUp && n.endpoint.busMaster && (decide (n.mgt.shed < 5) || decide (frame % 4 = 0))

/-- A frame lies between the last block written and block k (02 R52). -/
def mirrorMiss (n : Node) (k : Nat) : Bool :=
  match n.mirror.last with
  | some l => decide (k ≠ l + 1)
  | none => false

/-- The results last published, where there are any, have no block yet. -/
def unwritten (shown : Node) (m : Mirror) : Bool :=
  decide (shown.resHead.period ≠ 0) && decide (m.last ≠ some shown.resHead.frame)

/-- The block of the results last published is due: the management processor runs and has not yet written it. -/
def mirrorDue (s : State) : Bool := mpRun s.node && unwritten s.atR s.node.mirror

/-- At a RESULT_READY: results `shown` before it whose block was not written are missing from the ring (02 R52). -/
def missBlock (shown n : Node) : Node :=
  if unwritten shown n.mirror then modMirror n (fun m => { m with gap := true }) else n

/-- MGT_MIRR_HEAD, the copy to the host and MIRR_GAP with block k. -/
def mirrorHead (n : Node) (k : Nat) (gap : Bool) : Node :=
  let n := modMirror n (fun m => { m with head := lo32 k, last := some k, gap := false })
  let n := if hostCopies n k then emit n (.hostBlock (n.mirror.haddr + (k % n.mirror.hsize) * 4096) k) else n
  raiseIf gap n 0x0C 4

/-- MIRROR_BLOCK_WRITE: the block of the frame whose results stand in the RES buffer, where it is not yet written. -/
def mirrorWrite (s : State) : State :=
  if mirrorDue s then
    let k := s.atR.resHead.frame
    let gap := s.node.mirror.gap || mirrorMiss s.node k
    let base := (k % 1024) * 4096
    { s with bar2 := memReplace s.bar2 base (base + 4096) (blockBytes s.atR gap), node := mirrorHead s.node k gap }
  else s

/-- MGT_MIRR_CTRL, HADDR and HSIZE take effect at a voted boundary; an HSIZE out of range disables the copy. -/
def mirrorBoundary (n : Node) : Node :=
  let en := bit (reg n (at_ 0x0C 0x50)) 0
  let size := fld (reg n (at_ 0x0C 0x60)) 10 0
  let addr := pairValue n 0x0C 0x58
  if en && !hsizeOk size then
    let n := setCmdRes (setReg n (at_ 0x0C 0x50) 0) hostPath 0x0C 9
    modMirror n (fun m => { m with hostEn := false, haddr := addr })
  else modMirror n (fun m => { m with hostEn := en, haddr := addr, hsize := size })

/-! Meanings -/

def execMgtMpreset (t : Nat) (s : State) : Host.Outcome State Fault Refusal :=
  .next (onNode s t (fun n => mgtCmdWrite n hostPath 0x4D500000))
def execMgtBadclr (t : Nat) (s : State) : Host.Outcome State Fault Refusal :=
  .next (onNode s t (fun n => mgtCmdWrite n hostPath 1))
def execMgtLoadRead (t load dram : Nat) (s : State) : Host.Outcome State Fault Refusal :=
  .next (onNode s t (fun n => loadRead n load dram))
def execMpWatchdogExpire (t : Nat) (s : State) : Host.Outcome State Fault Refusal :=
  .next (onNode s t (fun n => mpDown n .resetting true))
def execMpStop (t : Nat) (s : State) : Host.Outcome State Fault Refusal :=
  .next (onNode s t (fun n => if mpRun n then mpDown n .stopped false else n))
/-- MP_RESTART_DONE; with `booting` the restart has come to BOOT only (R57; log entry 86). -/
def execMpRestartDone (r : MpRestart) (s : State) : Host.Outcome State Fault Refusal :=
  .next (onNode s r.t (if r.booting then mpBoot else mpUp))
def execShedRaise (t load : Nat) (s : State) : Host.Outcome State Fault Refusal :=
  .next (onNode s t (fun n => shedRaise n load))
def execShedLower (t load : Nat) (s : State) : Host.Outcome State Fault Refusal :=
  .next (onNode s t (fun n => shedLower n load))
def execMirrorBlockWrite (t : Nat) (s : State) : Host.Outcome State Fault Refusal :=
  .next (onState s t mirrorWrite)
def execPcieLinkLoss (t : Nat) (s : State) : Host.Outcome State Fault Refusal :=
  .next (onNode s t (fun n => modMirror n (fun m => { m with linkUp := false })))
/-- PCIE_LINK_RETURN (02 R34): the link stands in L0, its configuration space as the host has written it. -/
def execPcieLinkReturn (t : Nat) (cfg : Endpoint) (s : State) : Host.Outcome State Fault Refusal :=
  .next (onNode s t (fun n =>
    { modMirror n (fun m => { m with linkUp := true }) with
      endpoint := { cfg with aerUnc := n.endpoint.aerUnc, aerCor := n.endpoint.aerCor } }))

end Sys2Proof.Machine
end

