-- ==== Sys2Proof/Machine/Launch.lean ====
section
/-! DEFINITION. The launch table (03 R79 to R81). -/

namespace Sys2Proof.Machine

/-- Node states that permit an action (03 Table 03.5), one bit a state. -/
def lchStates (act : Nat) : Nat :=
  match act with
  | 1 => 8
  | 2 => 12
  | 3 => 8
  | 4 => 14
  | _ => 0

/-- A channel of a loop output that no safety function holds. -/
def lchAo (n : Node) (ch : Nat) : Bool :=
  isAo n ch && !(List.range 64).any (fun e => let w := aoMap n e; bit w 31 && fld w 8 0 == ch)

/-- INDEX and ARG are in range for the action. -/
def lchValue (n : Node) (act index : Nat) (arg : Word) : Bool :=
  match act with
  | 1 => lchAo n index && decide (arg.toNat ≤ 240000)
  | 2 => decide (index < 8) && arg == 0
  | 3 => decide (index < 32) && decide (100 ≤ tpLen n index ∧ tpLen n index ≤ 800) && arg == 0
  | 4 => index == 0
  | _ => false

/-- Parameters at the command write: N, LCH_P_ACT, LCH_P_ARG. -/
def lchTgt (n : Node) : Nat := pairValue n 0x0A 0x40
def lchAct (n : Node) : Word := reg n (at_ 0x0A 0x48)
def lchArg (n : Node) : Word := reg n (at_ 0x0A 0x4C)

/-- LCH_CMD (Table 03.9). -/
def lchOp (v : Word) : Nat := fld v 9 8
def lchEntry (v : Word) : Nat := fld v 5 0

def lchCheck (n : Node) (path : Nat) (v : Word) : CmdCheck :=
  let op := lchOp v
  let act := fld (lchAct n) 3 0
  let arm := op == 1
  { code := op == 1 || op == 2,
    state := inStates n (if arm then (if lchStates act = 0 then 31 else lchStates act) else 30),
    level := levelOk n path (if arm ∧ act = 3 then 3 else 2),
    value := !arm || (decide ((launchOf n (lchEntry v)).state ≠ .armed) && lchValue n act (fld (lchAct n) 24 16) (lchArg n)) }

def lchCmdWrite (n : Node) (path : Nat) (v : Word) : Node :=
  let a := LaneAct.launch (lchOp v) (lchEntry v) (lchTgt n) (lchAct n) (lchArg n)
  runCommand n path 0x0A (at_ 0x0A 0x50) v (lchCheck n path v) (defer 0x0A a)

/-- An entry in a state, the entry that changed last. -/
def setLaunch (n : Node) (e : Nat) (x : Launch) : Node := { modLaunch n e (fun _ => x) with lchLast := e }

/-- Its effect at the boundary of frame k. -/
def lchEff (op e tgt : Nat) (act arg : Word) (n : Node) : Node × Option Bool :=
  if op = 1 then
    if !inStates n (lchStates (fld act 3 0)) then (n, some false)
    else if n.frame + 2 ≤ tgt then (setLaunch n e { state := .armed, tgt := tgt, act := act, arg := arg }, some true)
    else (raiseR (setLaunch n e { state := .late, tgt := tgt, act := act, arg := arg }) 0x0A 1, some false)
  else
    let x := launchOf n e
    if x.state = .armed then (setLaunch n e { x with state := .cancelled }, some true) else (n, some false)

/-- What an entry does at B of its frame N: a capture triggers at S of N, a test pulse begins; whether the module holds the
output claim there. -/
def lchAtB (n : Node) (e : Nat) : Node :=
  let x := launchOf n e
  if x.state = .armed ∧ x.tgt = n.frame then
    let n := modLaunch n e (fun x => { x with held := holder n })
    let i := fld x.act 24 16
    match fld x.act 3 0 with
    | 2 => triggerCap n i 4 n.sampleT
    | 3 => if holder n then (givePulse n i false).1 else n
    | _ => n
  else n

def launchBoundary (n : Node) : Node := (keys n.launches).foldl lchAtB n

/-- The state of an entry at the RESULT_READY of its frame N, or of the first frame after it that has one (R80): the
record carries S of frame N. -/
def lchAtReady (n : Node) (e : Nat) : Node :=
  let x := launchOf n e
  if x.state = .armed ∧ x.tgt ≤ n.frame then
    let a := fld x.act 3 0
    let none_ := (a == 1 || a == 3) && !x.held
    let n := setLaunch n e { x with state := if none_ then .noeffect else .fired }
    let n := note n (recLaunch n e (if none_ then 6 else 2) a x.tgt x.arg)
    raiseR n 0x0A 0
  else n

def launchReady (n : Node) : Node := (keys n.launches).foldl lchAtReady n

/-- The node leaves the states that permit an action: its entries become VOID (Table 03.6). -/
def launchVoids (n : Node) : Node :=
  (keys n.launches).foldl (fun n e => if inStates n (lchStates (fld (launchOf n e).act 3 0)) then n else voidEntry n e) n

/-! Status words (Table 03.9) -/

def launchCode : LaunchState → Nat
  | .free => 0
  | .armed => 1
  | .fired => 2
  | .late => 3
  | .cancelled => 4
  | .void => 5
  | .noeffect => 6

/-! Meanings -/

def lchWord (op e : Nat) : Word := pack [(op, 8, 2), (e, 0, 6)]
def execLchArm (t entry : Nat) (s : State) : Host.Outcome State Fault Refusal :=
  .next (onNode s t (fun n => lchCmdWrite n hostPath (lchWord 1 entry)))
def execLchCancel (t entry : Nat) (s : State) : Host.Outcome State Fault Refusal :=
  .next (onNode s t (fun n => lchCmdWrite n hostPath (lchWord 2 entry)))

end Sys2Proof.Machine
end

