-- ==== Sys2Proof/Machine/Checks.lean ====
section
/-! DEFINITION. What a commit judges: checks 1 to 27 (04 Table 04.13, 05 Table 05.4, 06 R133, 07 Table 07.8, 08 Table
08.6, 10 Table 10.10, 11 R271) and the canonical safety image (16 R382). -/

namespace Sys2Proof.Machine

/-- The node as a commit sees it (16 R377): staged values in the place of the active ones. -/
def stagedView (n : Node) : Node :=
  n.staged.foldl (fun n e => match e.2 with | some v => setReg n e.1 v | none => n) n

/-- The first index of a check's range that fails it. -/
def firstFail (check : Nat) (range : List Nat) (ok : Nat → Bool) : Option (Nat × Nat) :=
  (range.find? (fun i => !ok i)).map (fun i => (check, i))

def isDiMode (n : Node) (ch : Nat) : Bool := chnSel n ch == 8 || chnSel n ch == 9
def isAoMode (n : Node) (ch : Nat) : Bool := chnSel n ch == 2 || chnSel n ch == 3
def isCmpMode (n : Node) (ch : Nat) : Bool := chnSel n ch == 1 || chnSel n ch == 4 || chnSel n ch == 5

/-! Checks 1 to 9: channel configuration -/

/-- Check 1: the values of 04 Table 04.5. -/
def chkMode (v : Node) (ch : Nat) : Bool :=
  let se := chnSensor v ch
  let ra := chnRange v ch
  let wi := chnWiring v ch
  let ex := chnExc v ch
  match chnSel v ch with
  | 1 => se == 0 && ra == 0 && ((decide (wi ≤ 1) && ex == 1) || (wi == 2 && ex == 0))
  | 4 => se == 0 && ra == 0 && wi == 0 && decide (ex ≤ 1)
  | 5 => se == 0 && decide (ra ≤ 2) && wi == 0 && decide (2 ≤ ex ∧ ex ≤ 4)
  | 6 => decide (se ≤ 4) && ra == 0 && decide (wi ≤ 2) && ex == 0
  | 7 => decide (se ≤ 7) && ra == 0 && wi == 0 && ex == 0
  | 8 | 9 => decide (se ≤ 2) && ra == 0 && wi == 0 && ex == 0
  | _ => se == 0 && ra == 0 && wi == 0 && ex == 0

/-- Check 2: pairs of DI_PAIR. -/
def chkPairs (v : Node) (ch : Nat) : Bool :=
  let m := ch ^^^ 1
  if chnSel v ch = 9 ∨ chnSel v m = 9 then
    chnSel v ch == 9 && chnSel v m == 9 && chnSensor v ch == chnSensor v m
  else true

def chkCmp (v : Node) (ch : Nat) : Bool := isCmpMode v ch || chnCmp v ch == 0
def chkHyst (v : Node) (ch : Nat) : Bool :=
  let w := chnCmp v ch
  !(bit w 31 && bit w 30) || decide (fld w 11 0 + hystSteps v ch < fld w 27 16)
def chkOut (v : Node) (ch : Nat) : Bool := isAoMode v ch || fld (chnCfg v ch) 23 16 == 0
def chkCj (v : Node) (ch : Nat) : Bool :=
  let c := fld (chnCfg v ch) 14 6
  !(chnSel v ch == 7 && fld (chnCfg v ch) 5 4 == 1) || (c != ch && chnSel v c == 6)
def chkAux (v : Node) (ch : Nat) : Bool :=
  if chnSel v ch = 6 ∧ chnWiring v ch = 0 then decide ((chnAux v ch).toNat ≤ 0xFFFFFF)
  else (chnSel v ch == 7 && fld (chnCfg v ch) 5 4 == 2) || chnAux v ch == 0
def chkInv (v : Node) (ch : Nat) : Bool := isDiMode v ch || !bit (chnCfg v ch) 0

/-- Check 9: the reserved fields of a channel's registers. -/
def chkChReserved (v : Node) (ch : Nat) : Bool :=
  (chnMode v ch &&& 0xFFFFF000) == 0 && (chnCfg v ch &&& 0xFFE0800E) == 0 &&
  (reg v (chnKey ch 0x08) &&& 0xFFFFFFF8) == 0 && (chnCmp v ch &&& 0xF000) == 0 &&
  (chnFilt v ch &&& 0xFF00FCF8) == 0

/-! Checks 10 to 16 -/

def chkDiFilter (v : Node) (ch : Nat) : Bool :=
  !isDiMode v ch || (fld (chnFilt v ch) 9 8 == 0 && fld (chnFilt v ch) 2 0 == 0 && chnScale v ch == 0)
def chkDeb (v : Node) (ch : Nat) : Bool := isDiMode v ch || fld (chnFilt v ch) 23 16 == 0
def chkMains (v : Node) (ch : Nat) : Bool := fld (chnFilt v ch) 9 8 != 3 || fld (chnFilt v ch) 2 0 == 0

/-- Channels that an AO map entry names. -/
def aoMapped (v : Node) (ch : Nat) : Bool :=
  (List.range 64).any (fun e => bit (aoMap v e) 31 && fld (aoMap v e) 8 0 == ch)
def chkHold (v : Node) (ch : Nat) : Bool := !(fld (chnCfg v ch) 19 18 == 2 && aoMapped v ch)
def chkAoMains (v : Node) (ch : Nat) : Bool := !(isAoMode v ch && fld (chnFilt v ch) 9 8 == 3)

/-- Channels that the enabled functions use (10 R217). -/
def usedByFns (v : Node) : List Nat := (enabledFns v).flatMap (usedChs v)
def chkWbDis (used : List Nat) (v : Node) (ch : Nat) : Bool :=
  !bit (dgCfg v ch) 7 ||
  (((chnSel v ch == 1 && chnWiring v ch == 2) || chnSel v ch == 4) && !used.contains ch)
def chkDg (v : Node) (ch : Nat) : Bool :=
  (!(chnSel v ch == 0 || isAoMode v ch) || dgCfg v ch == 0) && (dgCfg v ch &&& 0xFFFFFF7C) == 0

/-! Checks 17 to 19: safety points -/

/-- Numbers that the slow inputs name, ascending. -/
def namedPts (v : Node) : List Nat :=
  ((List.range 64).flatMap (slowPts v)).foldl (fun l k => insertNat k l) []

/-- The safety points, ascending (16 R382). -/
def safetyPts (v : Node) : List Nat := (namedPts v).filter (fun k => decide (k ≤ 5119))

def chkPoint (v : Node) (k : Nat) : Bool := decide (k ≤ 5119) && ptEn v k && cfgErrOf v k == 0
def chkDev (v : Node) (k : Nat) : Bool := !(decide (k < 4096) && ptType v k == 6 && decide (512 ≤ ptRef v k))
def chkClass (pts : List Nat) (v : Node) (k : Nat) : Bool :=
  decide (k < 4096) ||
  (List.range 4).all (fun i =>
    let r := derIn v (k - 4096) i
    match inClass r with
    | 0 | 2 | 4 => true
    | 1 => pts.contains (inIndex r)
    | _ => false)

/-! Checks 20 to 26: safety functions -/

def aoEntryFor (v : Node) (s : Nat) : Bool :=
  (List.range 64).any (fun e => bit (aoMap v e) 31 && fld (aoMap v e) 29 24 == s)

/-- Check 20: index below 0x100 a function, from there an output. -/
def chkNames (v : Node) (i : Nat) : Bool :=
  if i < 0x100 then
    if sfEn v i then (fnOuts v i).any (soEn v) || aoEntryFor v i
    else sfOut v i == 0 && (mapChs v i).isEmpty && (mapPairs v i).isEmpty && !aoEntryFor v i
  else !soEn v (i - 0x100) || !(naming v (i - 0x100)).isEmpty

def chkMapCmp (v : Node) (s : Nat) : Bool :=
  (mapChs v s).all (fun ch => chnSel v ch == 8 || (isCmpMode v ch && (bit (chnCmp v ch) 31 || bit (chnCmp v ch) 30)))

/-- Check 22 (the range of DT binds enabled pairs; log entry 30). -/
def chkSinPair (mapped : List Nat) (v : Node) (k : Nat) : Bool :=
  (!mapped.contains k || sinEn v k) &&
  (!sinEn v k || (chnSel v (2 * k) == 9 && chnSel v (2 * k + 1) == 9 &&
    decide (1000 ≤ fld (sinCfg v k) 18 0 ∧ fld (sinCfg v k) 18 0 ≤ 500000))) &&
  (!bit (sinCfg v k) 30 || decide (chnSensor v (2 * k) ≤ 1))

/-- Check 23; of two outputs that name one feedback input the second fails (log entry 30). -/
def chkOutput (v : Node) (o : Nat) : Bool :=
  (!tpEn v o || decide (100 ≤ tpLen v o ∧ tpLen v o ≤ 800 ∧ 1 ≤ tpInt v o ∧ tpInt v o ≤ 60)) &&
  (!fbEn v o || (decide (10 ≤ fld (soFb v o) 8 0 ∧ fld (soFb v o) 8 0 ≤ 500) &&
    !(List.range o).any (fun p => fbEn v p && fbInput v p == fbInput v o)))

def chkReset (used : List Nat) (v : Node) (s : Nat) : Bool :=
  (!sfEn v s || bit (sfCfg v s) 30 || bit (sfCfg v s) 29) &&
  (!bit (sfCfg v s) 29 || (chnSel v (fld (sfCfg v s) 17 9) == 8 && !used.contains (fld (sfCfg v s) 17 9)))

def chkAoEntry (v : Node) (e : Nat) : Bool :=
  let w := aoMap v e
  !bit w 31 ||
  (isAoMode v (fld w 8 0) && sfEn v (fld w 29 24) &&
    !(List.range e).any (fun p => bit (aoMap v p) 31 && fld (aoMap v p) 8 0 == fld w 8 0))

/-- Check 26: the reserved fields of the RWS registers of 10 Tables 10.11 to 10.14. -/
def chkSafReserved (v : Node) (_ : Nat) : Bool :=
  (List.range 64).all (fun e => (aoMap v e &&& 0x40FFFE00) == 0) &&
  (List.range 64).all (fun s => (sfCfg v s &&& 0x1FFC01FF) == 0 && (List.range 4).all (fun w => (sfSlow v s w &&& 0x60006000) == 0)) &&
  (List.range 32).all (fun o => (soCfg v o &&& 0x3C00FFC0) == 0 && (soFb v o &&& 0x3FE0FE00) == 0) &&
  (List.range 256).all (fun k => (sinCfg v k &&& 0x1FF80000) == 0)

/-- Check 27 (11 R271). -/
def chkLaneDeg (v : Node) (_ : Nat) : Bool :=
  let w := reg v (at_ 3 0x50)
  decide (1 ≤ fld w 9 0 ∧ fld w 9 0 ≤ 720) && (w &&& 0xFFFFFC00) == 0

/-- A check: its number, its indices in order, and what each must meet. -/
structure CommitCheck where
  num : Nat
  range : List Nat
  ok : Nat → Bool

/-- Checks 1 to 16, index the channel. -/
def chChecks (v : Node) : List CommitCheck :=
  let chs := List.range 512
  let used := usedByFns v
  [⟨1, chs, chkMode v⟩, ⟨2, chs, chkPairs v⟩, ⟨3, chs, chkCmp v⟩, ⟨4, chs, chkHyst v⟩, ⟨5, chs, chkOut v⟩,
   ⟨6, chs, chkCj v⟩, ⟨7, chs, chkAux v⟩, ⟨8, chs, chkInv v⟩, ⟨9, chs, chkChReserved v⟩, ⟨10, chs, chkDiFilter v⟩,
   ⟨11, chs, chkDeb v⟩, ⟨12, chs, chkMains v⟩, ⟨13, chs, chkHold v⟩, ⟨14, chs, chkAoMains v⟩,
   ⟨15, chs, chkWbDis used v⟩, ⟨16, chs, chkDg v⟩]

/-- Checks 17 to 19, index the point. -/
def ptChecks (v : Node) : List CommitCheck :=
  let pts := safetyPts v
  [⟨17, namedPts v, chkPoint v⟩, ⟨18, pts, chkDev v⟩, ⟨19, pts, chkClass pts v⟩]

/-- Checks 20 to 27. -/
def safChecks (v : Node) : List CommitCheck :=
  let fns := List.range 64
  let outs := List.range 32
  let mapped := fns.flatMap (mapPairs v)
  [⟨20, fns ++ outs.map (· + 0x100), chkNames v⟩, ⟨21, fns, chkMapCmp v⟩, ⟨22, List.range 256, chkSinPair mapped v⟩,
   ⟨23, outs, chkOutput v⟩, ⟨24, fns, chkReset (usedByFns v) v⟩, ⟨25, fns, chkAoEntry v⟩,
   ⟨26, [0], chkSafReserved v⟩, ⟨27, [0], chkLaneDeg v⟩]

/-- The first index that fails the check. -/
def CommitCheck.fail (c : CommitCheck) : Option (Nat × Nat) := firstFail c.num c.range c.ok

/-- The first check that fails, with its index (16 R377): checks ascending, and within a check the index ascending. -/
def commitFail (v : Node) : Option (Nat × Nat) := (chChecks v ++ ptChecks v ++ safChecks v).findSome? CommitCheck.fail

/-! The canonical safety image (16 R382) -/

/-- A section with its header (Table 16.5). -/
def section_ (id : Nat) (entries : List (List Byte)) : List Byte :=
  bytesLE 2 id ++ bytesLE 2 0 ++ bytesLE 4 entries.length ++ entries.flatten

/-- A channel's entry. -/
def imageCh (v : Node) (ch : Nat) : List Byte :=
  [0x00, 0x04, 0x08, 0x0C, 0x10, 0x14, 0x18].flatMap (fun o => wordBytes (reg v (chnKey ch o))) ++ wordBytes (dgCfg v ch)

/-- A safety point's entry. -/
def imagePt (v : Node) (k : Nat) : List Byte :=
  bytesLE 2 k ++ bytesLE 2 0 ++
  (if k < 4096 then [0x48, 0x4C, 0x50, 0x54, 0x58].flatMap (fun o => wordBytes (slotReg v k o))
   else [0xA4, 0xA8, 0xAC, 0xB0, 0xB4].flatMap (fun o => wordBytes (derReg v (k - 4096) o)))

/-- A function's entry. -/
def imageFn (v : Node) (s : Nat) : List Byte :=
  wordBytes (sfCfg v s) ++ wordBytes (sfOut v s) ++ (List.range 4).flatMap (fun w => wordBytes (sfSlow v s w)) ++
  (List.range 16).flatMap (fun w => wordBytes (tripCmp v s w)) ++ (List.range 8).flatMap (fun w => wordBytes (tripSin v s w))

/-- LENGTH (R382). -/
def imageLength (pts : List Nat) : Nat := 25680 + 24 * pts.length

/-- The header (Table 16.4); F is the period that TB_PERIOD.SEL gives (log entry 31). -/
def imageHead (v : Node) : List Byte :=
  let f := periodOf (fld (reg v (at_ 1 0x64)) 3 0)
  let len := imageLength (safetyPts v)
  [0x4C, 0x4B, 0x53, 0x49] ++ bytesLE 2 1 ++ bytesLE 2 0 ++ bytesLE 4 f ++ bytesLE 4 len

def imageChs (v : Node) : List Byte := section_ 1 ((List.range 512).map (imageCh v))
def imagePts (v : Node) : List Byte := section_ 2 ((safetyPts v).map (imagePt v))
def imageFns (v : Node) : List Byte := section_ 3 ((List.range 64).map (imageFn v))
def imageAos (v : Node) : List Byte := section_ 4 ((List.range 64).map (fun e => wordBytes (aoMap v e)))
def imageOuts (v : Node) : List Byte :=
  section_ 5 ((List.range 32).map (fun o => wordBytes (soCfg v o) ++ wordBytes (soFb v o)))
def imagePairs (v : Node) : List Byte := section_ 6 ((List.range 256).map (fun k => wordBytes (sinCfg v k)))
def imageNode (v : Node) : List Byte := section_ 7 [wordBytes (reg v (at_ 3 0x50)), wordBytes (reg v (at_ 4 0x58))]

/-- The image of a configuration. -/
def safetyImage (v : Node) : List Byte :=
  [imageHead v, imageChs v, imagePts v, imageFns v, imageAos v, imageOuts v, imagePairs v, imageNode v].flatten

/-- The check value (16 R380). -/
def imageCheck (v : Node) : Word := BitVec.ofNat 32 (crc32c (safetyImage v))

end Sys2Proof.Machine
end

