-- ==== Sys2Proof/Machine/Commit.lean ====
section
/-! DEFINITION. Commit, confirmation and configuration flash (16 R377 to R383), and the commands of the CFG page. -/

namespace Sys2Proof.Machine

def modConfig (n : Node) (f : Config → Config) : Node := { n with config := f n.config }

/-! COMMIT (R377) -/

/-- The level of a path's session; 0 where none is open. -/
def pathLevel (n : Node) (path : Nat) : Nat := (sessionLevel n path).getD 0

/-- The node with the values staged that were accepted for a B still to come: a COMMIT accepted after them takes them in, and so
does its image (16 R377; log entry 16). -/
def takeStages (n : Node) : Node :=
  n.acts.foldl (fun n w =>
    match w.act with
    | .stage key v _ _ => { n with staged := tset none n.staged key (some v) }
    | _ => n) n

/-- COMMIT: the first check that fails, or three check values that differ, end it FAILED; else the image is PENDING. -/
def cfgCommitEff (agree : Bool) (path : Nat) (n : Node) : Node × Option Bool :=
  let v := stagedView (takeStages n)
  let lvl := pathLevel n path
  let acc := pathAccount n path
  match commitFail v with
  | some f =>
    let n := modConfig n (fun c => { c with cfail := f })
    failWith (note n (recSession n 9 lvl acc 0 f.1 f.2)) path 6
  | none =>
    if agree then
      let k := imageCheck v
      let n := modConfig n (fun c => { c with pend := some {
        check := k, until_ := n.now + 600000000000, period := fld (reg v (at_ 1 0x64)) 3 0 } })
      (raise (note n (recSession n 6 lvl acc k 0 0)) 5 1, some true)
    else failWith n path 7

/-! CFG_CMD -/

/-- The session of the path, if any, does not wait for a change of password (R370). -/
def notMustchg (n : Node) (path : Nat) : Bool :=
  match sessionOf n path with
  | some s => !(accountOf n s.account).mustchg
  | none => true

def cfgCmdCheck (n : Node) (path : Nat) (v : Word) : CmdCheck :=
  let op := fld v 3 0
  { code := decide (1 ≤ op ∧ op ≤ 9),
    state := op != 4 || (isConfig n && !imagePending n),
    level := if op = 1 then notMustchg n path else if op ≤ 3 then anySession n path
      else levelOk n path (if op ≤ 5 then 3 else 4),
    value := (op != 6 || (nameOk n && decide (fld (pAcct n) 10 8 ≤ 4))) && (op != 8 || decide (fld (pAcct n) 26 24 ≤ 4)),
    mp := op != 1 || decide (n.mgt.shed < 6) }

/-- `agree`: the check values of the lanes are equal, where the command is COMMIT (R377). -/
def cfgCmdEff (agree : Bool) (path : Nat) (v : Word) (n : Node) : Node × Option Bool :=
  match fld v 3 0 with
  | 1 => cfgOpenEff path n
  | 2 => cfgCloseEff path n
  | 3 => cfgChpwEff path n
  | 4 => cfgCommitEff agree path n
  | 5 => cfgDiscardEff path n
  | 6 => cfgAcctSetEff path n
  | 7 => cfgAcctDelEff path n
  | 8 => cfgKickEff path n
  | _ => cfgUnlockEff path n

/-- A refused command ends at once, and the passwords of its path clear (R368). -/
def clearRefused (was : Option Command) (path : Nat) (n : Node) : Node :=
  match was, cmdOf n 5 with
  | none, some _ => n
  | _, _ => clearPasswords n path

/-- A write of CFG_CMD, the lanes' check values being equal or not. -/
def cfgCmdWriteAs (agree : Bool) (n : Node) (path : Nat) (v : Word) : Node :=
  if (seqOf n path 5).hseq = (seqOf n path 5).echo then n
  else clearRefused (cmdOf n 5) path (runCommand n path 5 (at_ 5 0x5C) v (cfgCmdCheck n path v) (cfgCmdEff agree path v))

def cfgCmdWrite (n : Node) (path : Nat) (v : Word) : Node := cfgCmdWriteAs true n path v

/-! CONFIRM (R379) -/

def cfgConfirmEff (path : Nat) (v : Word) (n : Node) : Node × Option Bool :=
  match n.config.pend with
  | none => failWith n path 8
  | some p =>
    if v = p.check then
      let n := keepParams n [pathAccount n path, pathLevel n path]
      (modConfig n (fun c => { c with pend := some { p with confirmed := true } }), none)
    else
      let k := p.unequal + 1
      let n := modConfig n (fun c => { c with pend := some { p with unequal := k } })
      let n := if k < 3 then n else discardImage n (pathAccount n path) (pathLevel n path) (byPath n path)
      failWith n path 9

/-- A write of CFG_CONFIRM; it counts up to the end of the window, that instant included. -/
def cfgConfirmWrite (n : Node) (path : Nat) (v : Word) : Node :=
  let n := endWindow n (fun u => decide (u < n.now))
  if (seqOf n path 5).hseq = (seqOf n path 5).echo then n
  else
    clearRefused (cmdOf n 5) path
      (runCommand n path 5 (at_ 5 0x54) v { state := isConfig n, level := levelOk n path 3 } (cfgConfirmEff path v))

/-! Taking effect (R379, 04 R101, 10 R234) -/

/-- The words that define a function (10 R234). -/
def fnDef (v : Node) (s : Nat) : List Byte :=
  let ao := (List.range 64).filter (fun e => bit (aoMap v e) 31 && fld (aoMap v e) 29 24 == s)
  imageFn v s ++ ao.flatMap (fun e => wordBytes (aoMap v e)) ++
  (fnOuts v s).flatMap (fun o => wordBytes (soCfg v o) ++ wordBytes (soFb v o)) ++
  (mapPairs v s).flatMap (fun k => wordBytes (sinCfg v k)) ++
  (closePts v 30000 (slowPts v s) []).flatMap (imagePt v) ++ (usedChs v s).flatMap (imageCh v)

/-- Enabled functions whose definition differs from the node before, or that were not enabled in it. -/
def changedFns (was n : Node) : List Nat :=
  (enabledFns n).filter (fun s => !sfEn was s || fnDef was s != fnDef n s)

/-- Functions no longer enabled are OFF. -/
def offFns (was n : Node) : Node :=
  ((enabledFns was).filter (fun s => !sfEn n s)).foldl (fun n s =>
    raiseFn (modFn n s (fun _ => {})) (fnOf n s).state .off) n

/-- The channel a configuration register belongs to. -/
def cfgChOfKey (key : Nat) : Option Nat :=
  let p := key / 4096
  let o := key % 4096
  if 0x10 ≤ p ∧ p < 0x20 then
    if 0x100 ≤ o ∧ o < 0x500 then some (32 * (p - 0x10) + (o - 0x100) / 0x20)
    else if 0x800 ≤ o ∧ o < 0x880 then some (32 * (p - 0x10) + (o - 0x800) / 4)
    else none
  else none

/-- The pair, and the output, that a register belongs to. -/
def pairOfKey (key : Nat) : Option Nat :=
  let p := key / 4096
  if 0x68 ≤ p ∧ p < 0x6C then some (64 * (p - 0x68) + (key % 4096 - 0x100) / 0x10) else none
def outOfKey (key : Nat) : Option Nat :=
  let p := key / 4096
  if 0x64 ≤ p ∧ p < 0x68 then some (8 * (p - 0x64) + (key % 4096 - 0x100) / 0x20) else none

/-- A list without repeats, ascending. -/
def distinct (l : List Nat) : List Nat := l.foldl (fun a k => insertNat k a) []

/-- Capture definitions that name a changed channel return to IDLE (15 R354). -/
def idleCaptures (chs : List Nat) (n : Node) : Node :=
  (List.range 8).foldl (fun n d =>
    if (capSlots n d).any (fun e => chs.contains e.2) then modCap n d (fun c => { c with state := .idle, slots := [] }) else n) n

/-- What the new values of some registers make of the node at B. -/
def takeChanges (was : Node) (ks : List Nat) (n : Node) : Node :=
  let chs := distinct (ks.filterMap cfgChOfKey)
  let n := chs.foldl (fun n ch => reconfigureCh n ch (decide (chnSel was ch ≠ chnSel n ch))) n
  let n := recheck (idleCaptures chs n) (chs.flatMap (fun ch => (List.range 8).map (8 * ch + ·)))
  let n := ks.foldl (fun n k => almParam n k (reg was k) (reg n k)) n
  let n := (distinct (ks.filterMap pairOfKey)).foldl restartPair n
  let n := (distinct (ks.filterMap outOfKey)).foldl (fun n o => modOutput n o (fun x => { x with fbSeen := false })) n
  let n := offFns was n
  loadMap (lockFns n (changedFns was n) 13)

/-- STAGE 2 entries, and the new value in effect (16 R376). -/
def commitKey (account : Nat) (hseq : BitVec 16) (n : Node) (e : Nat × Word) : Node :=
  let n := logChange n { time := n.sampleT, param := e.1, old := reg n e.1, new := e.2, account := account, stage := 2, hseq := hseq } oMp
  setReg n e.1 e.2

/-- Staged values that differ from the active ones. -/
def stagedChanges (n : Node) : List (Nat × Word) :=
  n.staged.filterMap (fun e => match e.2 with | some v => if v = reg n e.1 then none else some (e.1, v) | none => none)

/-- The account, level and number of the CONFIRM in progress. -/
def confirmer (n : Node) : Nat × Nat × BitVec 16 :=
  match cmdOf n 5 with
  | some c => (c.params.headD 0xFE, (c.params.drop 1).headD 0, c.hseq)
  | none => (0xFE, 0, 0)

/-- A verified image takes effect at a B, before any change of state of that B: the lanes load the map in CONFIG only
(01 R16; log entry 87). -/
def applyImage (n : Node) : Node :=
  match n.config.pend with
  | none => n
  | some p =>
    if p.verified && isConfig n && !lanesNone n then
      let who := confirmer n
      let es := stagedChanges (takeStages n)
      let was := n
      let n := es.foldl (commitKey who.1 who.2.2) n
      let dueB := n.config.half.getD false
      let n := modConfig { n with staged := [] } (fun c => { c with
        pend := some { p with verified := false }, imagePeriod := if dueB then c.copyA.imagePeriod else c.copyB.imagePeriod })
      raise (takeChanges was (es.map Prod.fst) n) 5 4
    else n

/-! Configuration flash (R383) -/

/-- A register of reset value cfg: the parameters, and CALL_DUTY. -/
def inFlash (key : Nat) : Bool :=
  key == at_ 7 0x58 ||
  (match rowAt (key % 1048576 / 4096) (key % 4096) with
   | some r => r.typ == .rwl || r.typ == .rws
   | none => false)

def flashRegs (n : Node) : Tbl Word := n.regs.filter (fun e => inFlash e.1)

/-- The copy written first: true for B. -/
def firstCopy (c : Config) : Bool :=
  if !c.copyA.valid then false
  else if !c.copyB.valid then true
  else decide (c.copyB.gen ≤ c.copyA.gen)

def modFlash (b : Bool) (f : FlashCopy → FlashCopy) (c : Config) : Config :=
  if b then { c with copyB := f c.copyB } else { c with copyA := f c.copyA }
def flashOf (c : Config) (b : Bool) : FlashCopy := if b then c.copyB else c.copyA

/-- A copy fails its verification. -/
def flashBad (n : Node) (b : Bool) : Node :=
  raise (modConfig n (modFlash b (fun x => { x with valid := false }))) 5 0

/-- The first copy of a confirmed image. -/
def writeImage (n : Node) (p : Pending) (ok : Bool) : Node :=
  let b := firstCopy n.config
  if ok then
    let v := stagedView (takeStages n)
    let x : FlashCopy := { valid := true, gen := n.config.gen + 1, regs := flashRegs v, accounts := n.config.accounts,
                           check := p.check, imagePeriod := p.period }
    modConfig n (fun c => { modFlash b (fun _ => x) c with
      gen := x.gen, half := some (!b), pend := some { p with verified := true, first := true } })
  else flashBad n b

/-- The other copy of a confirmed image: CFG_CHECK, the record, and the end of the command. -/
def writeSecond (n : Node) (p : Pending) (dueB ok : Bool) : Node :=
  if ok then
    let who := confirmer n
    let n := modConfig n (fun c => { modFlash dueB (fun _ => flashOf c (!dueB)) c with
      check := p.check, pend := none, half := none })
    resolveCmd (note n (recSession n 7 who.2.1 who.1 p.check 0 0)) 5 (some true)
  else flashBad n dueB

/-- The new hash of an accepted CHPW goes into the accounts: MUSTCHG and the count of failed attempts clear, and the command
ends (R371). -/
def storePassword (n : Node) : Node :=
  match n.config.chpw with
  | none => n
  | some x =>
    let n := modAccount n x.account (fun a => { a with salt := x.salt, hash := x.hash, mustchg := false })
    let n := setLock (modConfig n (fun c => { c with chpw := none })) x.account 0 none
    resolveCmd (note n (recSession n 11 x.level x.account n.config.check 0 0)) 5 (some true)

/-- An accepted change of other parameters or of a password: the first copy, verified; the other is due then (R383). -/
def writeDirty (n : Node) (ok : Bool) : Node :=
  let b := firstCopy n.config
  if ok then
    let n := storePassword n
    let x : FlashCopy := { valid := true, gen := n.config.gen + 1, regs := flashRegs n, accounts := n.config.accounts,
                           check := n.config.check, imagePeriod := n.config.imagePeriod }
    modConfig n (fun c => { modFlash b (fun _ => x) c with gen := x.gen, half := some (!b), dirty := false })
  else flashBad n b

/-- The other copy after a change of parameters, with the generation of the first. -/
def writeOther (n : Node) (dueB ok : Bool) : Node :=
  if ok then modConfig n (fun c => { modFlash dueB (fun _ => flashOf c (!dueB)) c with half := none }) else flashBad n dueB

/-- A change waits for its write: a parameter, an account or a password. -/
def writeDue (n : Node) : Bool := n.config.dirty || n.config.chpw.isSome

/-- CONFIG_FLASH_WRITE: a copy that is due first; then a confirmed image, then other changes. -/
def configFlashWrite (n : Node) (ok : Bool) : Node :=
  if !mpRun n then n
  else
    match n.config.half, n.config.pend with
    | some b, some p => if !p.first then writeOther n b ok else if p.verified then n else writeSecond n p b ok
    | some b, none => writeOther n b ok
    | none, some p => if p.confirmed then writeImage n p ok else if writeDue n then writeDirty n ok else n
    | none, none => if writeDue n then writeDirty n ok else n

/-- Account 0 of the factory configuration (R366). -/
def superintendent (salt : Nat) : Account :=
  { en := true, name := [83, 85, 80, 69, 82, 73, 78, 84, 69, 78, 68, 69, 78, 84], level := 4, salt := salt,
    hash := pwHash Config.labelPassword salt, mustchg := true }

/-- The factory configuration; the lockout state of account 0 survives (17 R396). -/
def loadFactory (n : Node) : Node :=
  let salt := Config.salt n.free
  let n := drawn { n with regs := n.regs.filter (fun e => !inFlash e.1) }
  modConfig n (fun c => { c with
    accounts := [(0, { superintendent salt with fails := (tget (0, none) c.locks 0).1, lockUntil := (tget (0, none) c.locks 0).2 })],
    factory := true, loaded := true, gen := 0, imagePeriod := 2, check := imageCheck n })

/-- Regs of a copy beside those that no copy holds. -/
def mergeRegs (n : Node) (t : Tbl Word) : Tbl Word :=
  t.foldl (fun r e => tset (regInit e.1) r e.1 e.2) (n.regs.filter (fun e => !inFlash e.1))

/-- Every value of a copy lies within the range that a write of its field accepts, with no reserved bit set (R383); EN of
a slot 4 to 7 is judged with TB_PERIOD (08 R176). -/
def copyRangeOk (n : Node) (x : FlashCopy) : Bool :=
  let v := { n with regs := mergeRegs n x.regs, staged := [] }
  x.regs.all (fun e =>
    let p := e.1 % 1048576 / 4096
    let o := e.1 % 4096
    maskAt p o e.2 == e.2 && ((blockOf p == 0x12 && o == 0x48) || valueOk v p o e.2))

/-- The load of phase 2 of start-up; a copy that fails its header or CRC (the operands, and what was never written or failed its
verification), or holds a value out of range, is invalid and sets FLASH_FLT (R383, R387). -/
def loadConfig (n : Node) (aBad bBad : Bool) : Node :=
  let test := fun (n : Node) (b bad : Bool) =>
    let x := flashOf n.config b
    if bad || !x.valid || !copyRangeOk n x then flashBad n b else n
  let n := test (test n false aBad) true bBad
  let a := n.config.copyA
  let b := n.config.copyB
  if !a.valid && !b.valid then loadFactory n
  else
    let x := if a.valid && (!b.valid || decide (b.gen ≤ a.gen)) then a else b
    let n := { n with regs := mergeRegs n x.regs }
    modConfig n (fun c => { c with
      copyA := if a.valid && decide (x.gen ≤ a.gen) then a else x, copyB := if b.valid && decide (x.gen ≤ b.gen) then b else x,
      accounts := x.accounts, check := x.check, imagePeriod := x.imagePeriod, gen := x.gen, factory := false, loaded := true })

/-! The end of a command (02 R45, 16 R367) -/

/-- Sessions of the account that an ACCT_SET or ACCT_DEL changed end with the command, and ALM_CMD_CNT shows its count. -/
def commandEnd (n : Node) (p : Nat) : Node :=
  let was := cmdOf n p
  let n := endCommand n p
  match was with
  | some c =>
    let n := if (cmdOf n p).isNone then endFilter n p else n
    let n := if p = 9 ∧ (cmdOf n 9).isNone ∧ c.off % 4096 = 0x48 then endAlmCmd n else n
    if p = 5 ∧ (cmdOf n 5).isNone ∧ c.off % 4096 = 0x5C then
      c.params.foldl (endSessionsOf (pathAccount n c.path, c.hseq)) n else n
  | none => n

/-! Meanings -/

def cfgOp (t path op : Nat) (s : State) : State :=
  onNode s t (fun n => served n path (op == 1) (fun n => cfgCmdWrite n path (BitVec.ofNat 32 op)))
def execCfgOpen (t path : Nat) (s : State) : Host.Outcome State Fault Refusal := .next (cfgOp t path 1 s)
def execCfgClose (t path : Nat) (s : State) : Host.Outcome State Fault Refusal := .next (cfgOp t path 2 s)
def execCfgChpw (t path : Nat) (s : State) : Host.Outcome State Fault Refusal := .next (cfgOp t path 3 s)
/-- CFG_COMMIT; `agree`: the three lanes' check values are equal (R377). -/
def execCfgCommit (t : Nat) (c : CommitOn) (s : State) : Host.Outcome State Fault Refusal :=
  .next (onNode s t (fun n => served n c.path false (fun n => cfgCmdWriteAs c.agree n c.path 4)))
def execCfgDiscard (t path : Nat) (s : State) : Host.Outcome State Fault Refusal := .next (cfgOp t path 5 s)
def execCfgAcctSet (t path : Nat) (s : State) : Host.Outcome State Fault Refusal := .next (cfgOp t path 6 s)
def execCfgAcctDel (t path : Nat) (s : State) : Host.Outcome State Fault Refusal := .next (cfgOp t path 7 s)
def execCfgKick (t path : Nat) (s : State) : Host.Outcome State Fault Refusal := .next (cfgOp t path 8 s)
def execCfgUnlock (t path : Nat) (s : State) : Host.Outcome State Fault Refusal := .next (cfgOp t path 9 s)

def execCfgConfirm (t path : Nat) (v : Word) (s : State) : Host.Outcome State Fault Refusal :=
  .next (onNode s t (fun n => served n path false (fun n => cfgConfirmWrite n path v)))

def execConfigFlashWrite (t : Nat) (ok : Bool) (s : State) : Host.Outcome State Fault Refusal :=
  .next (onNode s t (fun n => configFlashWrite n ok))

/-- COMMAND_END (02 R45, R46). -/
def execCommandEnd (t page : Nat) (s : State) : Host.Outcome State Fault Refusal :=
  .next (onNode s t (fun n => commandEnd n page))

end Sys2Proof.Machine
end

