-- ==== Sys2Proof/Machine/NodeStates.lean ====
section
/-! DEFINITION. Node states, start-up, resets, rank power and feeds (17), and the resumption of the lanes (11 R261). -/

namespace Sys2Proof.Machine

def modNode (n : Node) (f : NodeSt → NodeSt) : Node := { n with nodeSt := f n.nodeSt }
def modPower (n : Node) (f : Power → Power) : Node := { n with power := f n.power }

/-! Words (Tables 17.7, 17.9) -/

/-- NODE_FAULT. -/
def nodeFault (n : Node) : Word :=
  pack [(b2n n.nodeSt.hwdogFault, 7, 1), (b2n (!n.nodeSt.rstest.isEmpty), 6, 1), (b2n n.config.factory, 5, 1),
    (b2n (decide (n.rec_.store = .none)), 4, 1), (b2n n.safety.failed, 3, 1), (b2n n.tb.ckFail.isSome, 2, 1),
    (b2n (lanesNone n), 1, 1), (b2n (!(n.power.aOk && n.power.bOk)), 0, 1)]

/-- NODE_FAULT as a copy shows it: its Reset value until the first boundary after a reset. -/
def shownFault (b : Node) : Word := if b.bAt = 0 then 0 else nodeFault b

/-- NODE_STAT. -/
def nodeStat (n : Node) : Word :=
  let s := n.nodeSt
  pack [(s.rstCause, 24, 4), (s.safeCause, 20, 4), (s.phase, 16, 4), (s.refuse, 12, 4), (b2n (shownFault n != 0), 7, 1),
    (nodeCode n, 0, 3)]

/-- A bit of NODE_FAULT becomes 1 at the refresh that shows it. -/
def faultRaise (shown n : Node) : Node := raiseBIf (nodeFault n &&& ~~~shownFault shown != 0) n 0 0

/-! Ranks (R394, R400) -/

def rankEn (n : Node) : Nat := (reg n (at_ 0x0D 0x50)).toNat

/-- A rank is powered: its self-test begins. -/
def powerRank (n : Node) (r : Nat) : Node :=
  let x := rankOf n r
  if x.powered || x.failed then n
  else
    let n := powerObserve (modRank n r (fun _ => { powered := true })) r
    let cs := keysOfRank n.diags r
    armRank { n with diags := tmodAll {} n.diags cs (fun _ => warmDiag) } r

/-- Every enabled rank, at entry to CONFIG. -/
def powerRanks (n : Node) : Node := (members (rankEn n) 16).foldl powerRank n
def unpowerRanks (n : Node) : Node := (keys n.ranks).foldl unpowerRank n

/-- Every enabled rank is READY, FAULTY or FAILED. -/
def ranksDone (n : Node) : Bool := (members (rankEn n) 16).all (fun r => (rankOf n r).ready || (rankOf n r).failed)

/-- An enabled rank is still in its self-test. -/
def ranksTesting (n : Node) : Bool := (members (rankEn n) 16).any (fun r => (rankOf n r).powered && !(rankOf n r).ready)

/-- The GOTO to CONFIG that waits for its ranks (R389); the wait goes on where the node enters SAFE by itself meanwhile. -/
def endGotoConfig (n : Node) : Node :=
  match cmdOf n 0 with
  | some c => if c.result.isNone ∧ operational n ∧ ranksDone n ∧ fld c.value 2 0 = 2 ∧ n.acts.all (fun a => a.page != 0) then
      setCmd n 0 (some { c with result := some true, shown := true }) else n
  | none => n

/-- PWR_RANK_EN taken up: ranks whose bit clears lose their power at once, and their failure; new ones are powered. -/
def rankEnable (n : Node) (v : Word) : Node :=
  let old := rankEn n
  let n := setReg n (at_ 0x0D 0x50) v
  let n := modConfig n (fun c => { c with dirty := true })
  let off := (members old 16).filter (fun r => !bit v r)
  let n := off.foldl (fun n r => modRank (unpowerRank n r) r (fun x => { x with failed := false })) n
  endGotoConfig (if operational n then powerRanks n else n)

/-- A rank holds a channel that an enabled function uses. -/
def rankUsed (n : Node) (r : Nat) : Bool := (usedByFns n).any (fun c => rankOfCh c == r)

/-- The write clears no bit of a rank in use while outputs may be driven. -/
def rankEnOk (n : Node) (v : Word) : Bool :=
  !(isRun n || decide (n.nodeSt.state = .safe)) ||
  ((members (rankEn n) 16).filter (fun r => !bit v r)).all (fun r => !rankUsed n r)

/-- PWR_RANK_EN: a command that the lanes take up. -/
def rankEnWrite (n : Node) (path : Nat) (v : Word) : Node :=
  runCommand n path 0x0D (at_ 0x0D 0x50) v
    { state := inStates n 30 && rankEnOk n v, level := levelOk n path 2 }
    (fun n => defer 0x0D (.param (at_ 0x0D 0x50) (v &&& 0xFFFF) (pathAccount n path) (seqOf n path 0x0D).echo) n)

/-! Entry to a state (R389 to R392) -/

/-- The new state with its record and interrupt; launch entries whose action it does not permit become VOID. -/
def changeState (n : Node) (new : NodeState) : Node :=
  let old := n.nodeSt.state
  if old = new then n
  else
    let n := if old = .config then discardEdit n else n
    let n := modNode n (fun s => { s with state := new })
    let n := note n (recPower n 6 (stateCode new) (stateCode old) n.nodeSt.safeCause 0 0)
    launchVoids (raiseB n 0 1)

/-- Entry to RUN: the watchdog counts from here. -/
def enterRun (n : Node) : Node :=
  changeState (stepToFar (modNode n (fun s => { s with safeCause := 0, hwdogFault := false, kickAt := n.now }))) .run

/-- Entry to SAFE with its cause. -/
def enterSafe (n : Node) (cause : Nat) : Node := changeState (modNode n (fun s => { s with safeCause := cause })) .safe

/-- Entry to CONFIG: from STANDBY the enabled ranks are powered; every function is LOCKED and every output off. -/
def enterConfig (n : Node) : Node :=
  let n := changeState n .config
  lockAll (quietSafety (powerRanks n)) 12

/-- Entry to STANDBY: every rank is unpowered, nothing is evaluated. -/
def enterStandby (n : Node) : Node :=
  let n := changeState (unpowerRanks n) .standby
  lockAll (quietSafety (quietCall (quietPoints n))) 12

/-- The first condition of R390 that holds, as REFUSE codes it. -/
def runRefuse (n : Node) : Option Nat :=
  if imagePending n then some 1
  else if fld (reg n (at_ 1 0x64)) 3 0 ≠ n.config.imagePeriod then some 2
  else if n.config.factory then some 3
  else if lanesSingle n || lanesNone n then some 4
  else if ranksTesting n then some 5
  else none

/-- Table 17.2. -/
def transition (cur g : Nat) : Bool :=
  [(1, 2), (2, 1), (2, 3), (3, 2), (3, 4), (4, 3), (4, 2), (2, 4)].contains (cur, g)

/-- An accepted confirmation has not yet taken effect (16 R378). -/
def confirming (n : Node) : Bool :=
  match n.config.pend with
  | some p => p.confirmed && (!p.first || p.verified)
  | none => false

/-- A state command out of CONFIG while an accepted confirmation has not yet taken effect (16 R378, 01 R16). -/
def leavesConfirm (n : Node) (g : Nat) : Bool := confirming n && isConfig n && g != 2

/-- A state command at its boundary; `auto` tells that an automatic entry to SAFE was applied at the same boundary. One that
was accepted before a CONFIRM does not take the node out of CONFIG before the image has taken effect (log entry 87). -/
def gotoEff (g : Nat) (auto : Bool) (n : Node) : Node × Option Bool :=
  let cur := nodeCode n
  if n.power.pfail || leavesConfirm n g then (n, some false)
  else if cur = g then (n, some true)
  else if g = 3 ∧ auto then (modNode n (fun s => { s with refuse := 6 }), some false)
  else if !transition cur g then (n, some false)
  else
    match g with
    | 1 => (enterStandby n, some true)
    | 2 =>
      let n := enterConfig n
      (n, if cur = 1 ∧ !ranksDone n then none else some true)
    | 3 =>
      match runRefuse n with
      | some c => (modNode n (fun s => { s with refuse := c }), some false)
      | none => (enterRun n, some true)
    | _ => (enterSafe n 1, some true)

/-- The automatic entry that waits, at the first boundary after its cause (R391): answers whether it was applied. In SAFE
the cause alone changes (11 R261). -/
def autoSafe (n : Node) : Node × Bool :=
  match n.nodeSt.safePend with
  | none => (n, false)
  | some c =>
    if n.power.pfail then (n, false)
    else
      let n := modNode n (fun s => { s with safePend := none })
      if n.nodeSt.state = .safe ∧ c = 2 then (modNode n (fun s => { s with safeCause := 2 }), false)
      else if isRun n ∨ (isConfig n ∧ c = 2) then (raiseB (enterSafe n c) 0 2, true)
      else (n, false)

/-! NODE_CTRL -/

def gotoCheck (n : Node) (path : Nat) (v : Word) : CmdCheck :=
  let g := fld v 2 0
  { code := fld v 31 16 == 0 && decide (1 ≤ g ∧ g ≤ 4),
    state := (nodeCode n == g || transition (nodeCode n) g) && !n.power.pfail && !leavesConfirm n g,
    level := g == 4 || levelOk n path 2 }

def gotoWrite (n : Node) (path : Nat) (v : Word) : Node :=
  runCommand n path 0 (at_ 0 0x54) v (gotoCheck n path v) (defer 0 (.goto (fld v 2 0)))

/-! The host watchdog (R393) -/

/-- The count reaches its end in RUN; nothing more where its entry to SAFE already waits. DESIGN CHOICE (log entry 37): where the
entry of LANES waits, HWDOG is set and the cause of the entry stays LANES, which arose first. -/
def hwdogExpire (n : Node) : Node :=
  let tmo := fld (reg n (at_ 0 0x60)) 15 0
  if isRun n ∧ tmo ≠ 0 ∧ n.nodeSt.safePend ≠ some 3 ∧ n.nodeSt.kickAt + tmo * 100000000 ≤ n.now then
    raiseB (modNode n (fun s => { s with hwdogFault := true, safePend := some (s.safePend.getD 3) })) 0 3
  else n

def kick (n : Node) : Node := modNode n (fun s => { s with kickAt := n.now })

/-! Rank self-test -/

/-- A rank held unpowered after its self-test. -/
def failRank (n : Node) (r : Nat) : Node :=
  let was := (rankOf n r).failed
  raiseBIf (!was) (modRank (unpowerRank n r) r (fun x => { x with failed := true })) 0x0D 5

/-- A rank is powered and its self-test is not over. -/
def rankTesting (n : Node) (r : Nat) : Bool :=
  (rankOf n r).powered && !(rankOf n r).ready && !nbit n.nodeSt.rsDone r

/-- RANK_SELFTEST_DONE: in phase 3 of start-up, where no acquisition follows and so no READY, and after a power-on. -/
def rankSelftestDone (n : Node) (r code : Nat) : Node :=
  if 16 ≤ r ∨ 8 ≤ code ∨ rankTesting n r = false then n
  else
    let n := modNode n (fun s => { s with rstest := tset 0 s.rstest r code })
    let n :=
      if code = 1 ∨ code = 5 then failRank n r
      else if code = 0 ∧ n.nodeSt.phase = 3 then modNode n (fun s => { s with rsDone := setBit s.rsDone r true })
      else if code = 0 then loadRank (raise (modRank n r (fun y => { y with ready := true, selftest := 0 })) (0x10 + r) 4) r
      else raise (modRank n r (fun y => { y with ready := true, faulty := true, selftest := code })) (0x10 + r) 1
    endGotoConfig n

/-! Resets (R395 to R398) -/

/-- What survives in Scarab: the stores and the next RSEQ; staged records are lost. -/
def coldRecorder (r : Recorder) : Recorder :=
  let ids := r.staging.map (·.rseq)
  let lost : Option (Nat × Nat) := match r.lost, ids with
    | some (a, b), _ :: _ => some (a, (ids.getLast?).getD b)
    | some l, [] => some l
    | none, i :: _ => some (i, (ids.getLast?).getD i)
    | none, [] => none
  { nextRseq := r.nextRseq, lastCrc := r.lastCrc, flash := r.flash, mram := r.mram, store := r.store, mramOk := r.mramOk,
    wear := r.wear, erases := r.erases, segs := r.segs, retired := r.retired, committed := r.committed, lost := lost }

/-- What survives of the configuration: the copies, the change log and the lockout state (R396). -/
def coldConfig (c : Config) : Config :=
  { copyA := c.copyA, copyB := c.copyB, log := c.log, logCount := c.logCount, locks := c.locks }

/-- What survives of the safety part: what its inputs read. -/
def coldSafety (s : Safety) : Safety := { fb := s.fb, vs := s.vs }

/-- The node in reset: every session ended with its record (16 R374), every register at its Reset column value, the
outputs off, the latches set; RST_N is what it was (R395). -/
def coldNode (n : Node) (cause : Nat) : Node :=
  let n := endAllSessions n 2
  { now := n.now, frame := n.frame, sampleT := n.sampleT, sAt := n.sAt, taiOff := n.taiOff,
    rec_ := coldRecorder n.rec_, tb := { stored := n.tb.stored }, safety := coldSafety n.safety,
    duplex := { posB := n.duplex.posB }, tsRef := { zero := n.now }, config := coldConfig n.config, mgt := { downAt := n.now },
    nodeSt := { boot := n.nodeSt.boot, rstCause := cause, held := n.nodeSt.held }, power := n.power, free := n.free, outs := n.outs }

/-- Start-up begins (R398, R399). -/
def beginStart (n : Node) (cause : Nat) : Node :=
  modNode { n with taiOff := (startTime n : Int) - n.now, tb := { n.tb with startAt := n.now } }
    (fun s => { s with boot := (s.boot + 1) % 4294967296, phase := 1, rstCause := cause })

/-- A reset ends: start-up begins, but not while RST_N is low or the rails are off (R395, R399). -/
def endReset (n : Node) : Node := if n.nodeSt.held || n.power.off then n else beginStart n n.nodeSt.rstCause

/-- What shadow words show from a reset to their first refresh: the Reset column. -/
def resetShadow (n : Node) : Node :=
  { now := n.now, nodeSt := n.nodeSt, duplex := { posB := n.duplex.posB }, tsRef := n.tsRef }

/-- The machine around a node that has been reset: nothing is held, and the mirror ring is empty (log entry 43). -/
def resetState (s : State) (n : Node) : State :=
  { s with node := n, atB := resetShadow n, atR := resetShadow n, holds := [], bar2 := [] }

/-- NODE_CTRL.RESET: the records of the command (02 R46), of the reset, of a watch that goes OFF (09 R211) and of every
session it ends (16 R374), every staged record committed, then the reset. A freeze does not hold this commit back (Table 17.3
code 4; DESIGN CHOICE, log entry 108: 15 R356 stops every commit while frozen). -/
def commandedReset (n : Node) (path : Nat) (v : Word) : Node :=
  let c : Command := { path := path, off := at_ 0 0x54, value := v, hseq := (seqOf n path 0).hseq, result := some true }
  let n := note (note n (recPower n 5 4 (nodeCode n) 0 0 0)) (recCommand n 0 c 2)
  let n := watchOff n 255
  let n := endAllSessions n 2
  let n := if n.rec_.ready then stageWaiting n else n
  endReset (coldNode (commitAll n) 4)

/-- A power-fail that began at this instant wins over a reset command (R392). -/
def failNow (n : Node) : Bool := n.power.pfail && decide (n.power.pfailAt = n.now)

/-- A write of NODE_CTRL. -/
def nodeCtrlWrite (s : State) (path : Nat) (v : Word) : State :=
  if fld v 31 16 = 0x5AFE then
    match judge s.node path 0 { state := !failNow s.node } with
    | .duplicate => s
    | .refuse c => { s with node := setCmdRes s.node path 0 c }
    | .accept => resetState s (commandedReset s.node path v)
  else { s with node := gotoWrite s.node path v }

/-- RST_N low. -/
def rstAssert (n : Node) : Node := modNode (coldNode n 2) (fun s => { s with held := true })

/-- RST_N high again. DESIGN CHOICE (log entry 111): the cause of the start-up is the last reset source of the time in reset. -/
def rstRelease (n : Node) : Node := if n.nodeSt.held then endReset (modNode n (fun s => { s with held := false })) else n

/-- PERST_N without PERST_RST: the endpoint alone (R397). -/
def endpointReset (n : Node) : Node :=
  { n with vectors := [], endpoint := {}, mirror := { n.mirror with linkUp := false } }

/-! Start-up (R399) -/

/-- Lanes take up service in a state, and vote from the next frame on: the change of state and the phases have their records, and
their time counters are loaded (11 R259, R263, 03 R76). -/
def lanesVote (n : Node) (good : List Nat) : Node :=
  let n := modLaneSt n (fun s => { s with
    state := 3 - good.length, mask := bitSet good, counted := bitSet good, next := none,
    tmrSince := if good.length = 3 then some n.now else none, evalDone := true, voted := true })
  let n := raiseR (noteLane n (recLane n 1 0xFF 3 n.laneSt.state 0 0 0)) 3 0
  good.foldl (fun n l =>
    setPhase (modLane (loadLane n l) l (fun x => { x with
      lastMsg := some n.now, request := none, carried := false, wdog := false, tested := false, held := false })) l 0) n

/-- Phase 1 ends: the lanes that passed vote where two did, or else stay in NONE; each that failed is excluded with
cause 11. -/
def lanesStart (n : Node) (ok : Nat) : Node :=
  let good := members ok 3
  let n := if good.length < 2 then n else lanesVote n good
  (([0, 1, 2].filter (fun l => !good.contains l))).foldl (fun n l => excludeLane n l 11) n

/-- Every enabled rank has ended its self-test of phase 3. -/
def selftestsDone (n : Node) : Bool := (members (rankEn n) 16).all (fun r => !rankTesting n r)

/-- Phase 2: the configuration is loaded, the map goes into the copies, a period other than 1 ms is pending (03 R74). -/
def loadStart (n : Node) (aBad bBad : Bool) : Node :=
  let n := loadMap (loadConfig n aBad bBad)
  let n := lockFns n (enabledFns n) 12
  let sel := fld (reg n (at_ 1 0x64)) 3 0
  { n with tb := { n.tb with pendPeriod := if periodOf sel = n.period then none else some (sel, periodInstant (taiNow n)) } }

/-- Phase 4 ends: STANDBY, with the start-up records. -/
def standbyStart (n : Node) : Node :=
  let l := n.rec_.lost.getD (0, 0)
  let n := note n (recPower n 4 n.nodeSt.rstCause 0 0 l.1 l.2)
  let n := if n.rec_.lost.isSome then raiseB { n with rec_ := { n.rec_ with loss := true, lost := none } } 6 6 else n
  let n := modNode n (fun s => { s with state := .standby, phase := 0, upSince := n.now })
  let n := note n (recPower n 6 1 0 n.nodeSt.safeCause 0 0)
  startCans { raiseB n 0 1 with laneSt := { n.laneSt with ready := true } }

/-- STARTUP_PHASE_END; the strap POS is sampled once, in phase 1 (18 R421); the enabled ranks are powered for phase 3 alone (Table 17.1),
which ends once each has ended its self-test, and phase 4 ends once the time base is LOCKED, or FREE after TB_ACQ_TMO. -/
def phaseEnd (n : Node) (lanesOk : Nat) (aBad bBad posB : Bool) : Node :=
  if n.nodeSt.state ≠ .init ∨ n.nodeSt.held ∨ n.power.off then n
  else
    let next := fun (n : Node) (p : Nat) => modNode n (fun s => { s with phase := p })
    match n.nodeSt.phase with
    | 1 => next (lanesStart { n with duplex := { n.duplex with posB := posB } } lanesOk) 2
    | 2 => next (powerRanks (loadStart n aBad bBad)) 3
    | 3 =>
      if selftestsDone n then
        modNode { unpowerRanks n with tb := { n.tb with acqAt := some n.now } } (fun s => { s with phase := 4, rsDone := 0 })
      else n
    | 4 => if n.tb.state = .acquiring then n else standbyStart n
    | _ => n

/-! Feeds (R402, R403, R432) -/

def feedOk (n : Node) (b : Bool) : Bool := if b then n.power.bOk else n.power.aOk
def setFeed (n : Node) (b v : Bool) : Node := modPower n (fun p => if b then { p with bOk := v } else { p with aOk := v })

/-- A power-fail begins. -/
def powerFail (n : Node) : Node :=
  let ok := decide (stagedBytes n ≤ 262144)
  let n := modPower n (fun p =>
    { p with pfail := true, pfailAt := n.now, backlogOk := ok, sure := if ok then n.rec_.nextRseq - 1 else 0 })
  let n := note n (recPower n 3 0 (nodeCode n) 0 0 0)
  let n := if n.rec_.frozen.isSome then thaw n 2 else n
  raiseB n 0x0D 4

def feedLost (n : Node) (b : Bool) : Node :=
  if !feedOk n b then n
  else
    let n := setFeed n b false
    let n := note n (recPower n 1 (b2n b) (nodeCode n) 0 0 0)
    let n := raiseB n 0x0D (if b then 2 else 0)
    if !n.power.aOk && !n.power.bOk then powerFail n else n

/-- The cause of a start-up after a shutdown, by how long the marker has been held; between 1 s and 3 s either. -/
def markerCause (n : Node) : Nat :=
  match n.power.offAt with
  | none => 1
  | some t =>
    if n.now ≤ t + 1000000000 then 5
    else if t + 3000000000 < n.now then 1
    else if Config.openValue n.free % 2 = 0 then 5 else 1

/-- The locks of accounts begin again with the time that remained as the rails went off (16 R369). -/
def rebaseLocks (n : Node) (off : Nat) : Node :=
  let later : Option Nat → Option Nat := fun u => u.map (· + off)
  let f := fun (l : Tbl Account) => l.map (fun e => (e.1, { e.2 with lockUntil := later e.2.lockUntil }))
  modConfig n (fun c => { c with
    copyA := { c.copyA with accounts := f c.copyA.accounts }, copyB := { c.copyB with accounts := f c.copyB.accounts },
    locks := c.locks.map (fun e => (e.1, (e.2.1, later e.2.2))) })

/-- A start-up with the feeds a and b present or not. -/
def startFrom (n : Node) (a b : Bool) : Node :=
  let cause := markerCause n
  let n := rebaseLocks n (n.now - n.power.offAt.getD n.now)
  endReset (modPower (coldNode (drawn n) cause) (fun p =>
    { aOk := a, bOk := b, va := p.va, vb := p.vb, inW := p.inW, loopW := p.loopW, holdV := p.holdV, holdOk := p.holdOk }))

def feedPresent (n : Node) (b : Bool) : Node :=
  if n.power.off then startFrom n (!b) b
  else if feedOk n b then n
  else
    let n := modPower (setFeed n b true) (fun p => { p with pfail := false })
    raiseB (note n (recPower n 2 (b2n b) (nodeCode n) 0 0 0)) 0x0D (if b then 3 else 1)

/-- A module that starts when a feed becomes present: its rails are off, or it has not yet had a feed. -/
def startable (n : Node) : Bool := n.power.off || !(n.power.aOk || n.power.bOk || n.power.pfail)

/-- The hold-up may end: it lasts 30 ms at least (Table 17.5). -/
def holdupOver (n : Node) : Bool := n.power.pfail && decide (n.power.pfailAt + 30000000 ≤ n.now)

/-- SHUTDOWN: in a power-fail; Scarab ends its commit (15 R363), and the rails go off. -/
def shutdown (n : Node) : Node :=
  if !holdupOver n then n
  else
    let n := storedTimeWrite n
    let n := commitTo n n.power.sure
    let n := coldNode n n.nodeSt.rstCause
    modPower n (fun p => { p with pfail := false, off := true, offAt := some n.now })

/-! LANES_RESUME (11 R261) -/

/-- The dynamic state of the lanes at its reset values. The bridge link is supervised by the node (09 R209): it keeps its
last HBT. DESIGN CHOICE (log entry 100): the watch, STAGE and the station links return to reset values without a record or an
interrupt bit, as at a reset of the node. -/
def lanesCold (n : Node) : Node :=
  { n with
    peers := [], peerMsgs := [], points := [], groups := [], remoteFos := [], remoteActs := [], almCnt := {}, stations := [],
    call := { lastHbt := n.call.lastHbt, brLost := n.call.brLost },
    launches := [], net := { n.net with almChanges := [], replies := [], remote := [] },
    acqs := tmodAll {} n.acqs (keys n.acqs) (fun _ a => { te := a.te }),
    safety := { n.safety with fns := [], resets := none } }

/-- The lanes resume in TMR and vote from the next frame on; an operational node enters SAFE at the next boundary. -/
def lanesResume (n : Node) : Node :=
  if !lanesNone n ∨ (n.nodeSt.state = .init ∧ n.nodeSt.phase = 1) then n
  else
    let n := lanesCold n
    let n := lanesVote n [0, 1, 2]
    let n := lockFns n (enabledFns n) 12
    if operational n then modNode n (fun s => { s with safePend := some 2 }) else n

/-! Meanings -/

def gotoState (t g : Nat) (s : State) : State := onNode s t (fun n => gotoWrite n hostPath (BitVec.ofNat 32 g))
def execGotoStandby (t : Nat) (s : State) : Host.Outcome State Fault Refusal := .next (gotoState t 1 s)
def execGotoConfig (t : Nat) (s : State) : Host.Outcome State Fault Refusal := .next (gotoState t 2 s)
def execGotoRun (t : Nat) (s : State) : Host.Outcome State Fault Refusal := .next (gotoState t 3 s)
def execGotoSafe (t : Nat) (s : State) : Host.Outcome State Fault Refusal := .next (gotoState t 4 s)

def execNodeResetCmd (t : Nat) (s : State) : Host.Outcome State Fault Refusal :=
  .next (onState s t (fun s => nodeCtrlWrite s hostPath 0x5AFE0000))
def execRstNAssert (t : Nat) (s : State) : Host.Outcome State Fault Refusal :=
  .next (onState s t (fun s => resetState s (rstAssert s.node)))
def execRstNRelease (t : Nat) (s : State) : Host.Outcome State Fault Refusal :=
  .next (onState s t (fun s => if s.node.nodeSt.held then resetState s (rstRelease s.node) else s))
def execPerstNAssert (t : Nat) (s : State) : Host.Outcome State Fault Refusal :=
  .next (onState s t (fun s =>
    if bit (reg s.node (at_ 0 0x70)) 0 then resetState s (endReset (coldNode s.node 3))
    else { s with node := endpointReset s.node }))
/-- POWER_UP (R399): the feeds that have become present, one at least. -/
def execPowerUp (t : Nat) (feedA feedB : Bool) (s : State) : Host.Outcome State Fault Refusal :=
  .next (onState s t (fun s =>
    if (feedA || feedB) && startable s.node then resetState s (startFrom s.node feedA feedB) else s))
def execStartupPhaseEnd (t lanesOk : Nat) (bad : CopyFaults) (posB : Bool) (s : State) : Host.Outcome State Fault Refusal :=
  .next (onNode s t (withFabric (fun n => phaseEnd n lanesOk bad.a bad.b posB)))
def execRankSelftestDone (t rank code : Nat) (s : State) : Host.Outcome State Fault Refusal :=
  .next (onNode s t (withFabric (fun n => rankSelftestDone n rank code)))
def execRankEnableWrite (t : Nat) (v : Word) (s : State) : Host.Outcome State Fault Refusal :=
  .next (onNode s t (fun n => rankEnWrite n hostPath v))
def execFeedLost (t : Nat) (feedB : Bool) (s : State) : Host.Outcome State Fault Refusal :=
  .next (onNode s t (fun n => feedLost n feedB))
def execFeedPresent (t : Nat) (feedB : Bool) (s : State) : Host.Outcome State Fault Refusal :=
  .next (onState s t (fun s =>
    if s.node.power.off then resetState s (feedPresent s.node feedB) else { s with node := feedPresent s.node feedB }))
def execShutdown (t : Nat) (s : State) : Host.Outcome State Fault Refusal :=
  .next (onState s t (fun s => if holdupOver s.node then resetState s (shutdown s.node) else s))
def execHwdogExpire (t : Nat) (s : State) : Host.Outcome State Fault Refusal := .next (onNode s t hwdogExpire)
def execNodeKick (t : Nat) (s : State) : Host.Outcome State Fault Refusal :=
  .next (onNode s t (fun n => unlocked n hostPath 0 kick))
def execLanesResume (t : Nat) (s : State) : Host.Outcome State Fault Refusal :=
  .next (onNode s t (withFabric lanesResume))

end Sys2Proof.Machine
end

