-- ==== Sys2Proof/Machine/Period.lean ====
section
/-! DEFINITION. The change of the frame period (03 R74, R75) and TB_CMD (03 Table 03.7). -/

namespace Sys2Proof.Machine

/-- Counts of limits in seconds or minutes under a new period (R75): the same elapsed time in frames, rounded down. The
limits are whole numbers of frames at every period, so what is left rounds up. -/
def rescaleTimers (old new : Nat) (n : Node) : Node :=
  { n with points := tmodAll {} n.points (keys n.points) (fun _ p =>
      { p with silLeft := divUp (p.silLeft * old) new, shelLeft := divUp (p.shelLeft * old) new }) }

/-- PERIOD_CHANGE at T: frame numbers restart as T / F, launches are VOID, GAP, every channel settles. -/
def periodChange (n : Node) : Node :=
  match n.tb.pendPeriod with
  | none => n
  | some (sel, t) =>
    if taiNow n < t then n
    else
      let old := n.period
      let new := periodOf sel
      let n := shiftFrames ((t / new : Int) - (t / old : Nat)) n
      let n := { modTb n (fun t => { t with pendPeriod := none }) with
        period := new, mirror := { n.mirror with gap := true } }
      let n := settleAll (rescaleCall old new (rescaleTimers old new (voidAll n)))
      raiseB (note n { recTime n 6 (bytesI 8 n.tb.offset) 0 new with time := t }) 1 6

/-! TB_CMD -/

def tbCmdCheck (n : Node) (path : Nat) (v : Word) : CmdCheck :=
  let op := fld v 1 0
  { code := op == 1 || op == 2, state := if op = 1 then isRun n else inStates n 30, level := levelOk n path 2 }

def tbCmdWrite (n : Node) (path : Nat) (v : Word) : Node :=
  runCommand n path 1 (at_ 1 0x84) v (tbCmdCheck n path v)
    (defer 1 (if fld v 1 0 = 1 then .tbStep else .setTod (pairValue n 1 0x88) n.now))

/-! Meanings -/

def execPeriodChange (t : Nat) (s : State) : Host.Outcome State Fault Refusal := .next (onNode s t periodChange)
def execTbStep (t : Nat) (s : State) : Host.Outcome State Fault Refusal :=
  .next (onNode s t (fun n => tbCmdWrite n hostPath 1))
def execTbSetTod (t : Nat) (s : State) : Host.Outcome State Fault Refusal :=
  .next (onNode s t (fun n => tbCmdWrite n hostPath 2))

end Sys2Proof.Machine
end

