-- ==== Sys2Proof/Machine/RecCmd.lean ====
section
/-! DEFINITION. REC_CTRL and REC_CMD (15 R354 to R359, Table 15.7). -/

namespace Sys2Proof.Machine

/-- Level of each operation. -/
def recLevel (op : Nat) : Nat :=
  match op with
  | 1 => 0
  | 2 | 3 => 4
  | 5 | 6 => 2
  | _ => 1

/-- REC_CMD: a CLEAR while frozen and an ARM while CAPTURING are refused with STATE; a READ above the buffer, a CLEAR above
REC_COMMIT and an ARM that R354 does not admit are refused with VALUE. -/
def recCmdCheck (n : Node) (path : Nat) (v : Word) : CmdCheck :=
  let op := fld v 3 0
  let d := fld v 18 16
  { code := decide (1 ≤ op ∧ op ≤ 7),
    state := match op with
      | 2 => n.rec_.frozen.isNone
      | 5 => decide ((capOf n d).state ≠ .capturing)
      | _ => true,
    level := levelOk n path (recLevel op),
    value := match op with
      | 1 => decide (fld (reg n (at_ 6 0x80)) 24 0 ≤ 0x01FFFFC0)
      | 2 => decide (pairValue n 6 0x78 ≤ newestCommitted n)
      | 5 => armOk n d
      | _ => true }

def recCmdEff (path : Nat) (v : Word) (n : Node) : Node × Option Bool :=
  let d := fld v 18 16
  match fld v 3 0 with
  | 1 => readEff n
  | 2 => clearEff path n
  | 3 => tokenEff path n
  | 4 => defer 6 (.capTrig d) n
  | 5 => armEff d n
  | 6 => disarmEff d n
  | _ => clearFlagsEff n

def recCmdWrite (n : Node) (path : Nat) (v : Word) : Node :=
  runCommand n path 6 (at_ 6 0x74) v (recCmdCheck n path v) (recCmdEff path v)

/-- REC_CTRL. -/
def recCtrlWrite (n : Node) (path : Nat) (v : Word) : Node :=
  runCommand n path 6 (at_ 6 0x70) v { level := levelOk n path 1 } (if bit v 0 then freezeEff else thawEff)

/-! Meanings -/

def recOp (t op d : Nat) (s : State) : State := onNode s t (fun n => recCmdWrite n hostPath (pack [(d, 16, 3), (op, 0, 4)]))
def execRecFreeze (t : Nat) (s : State) : Host.Outcome State Fault Refusal :=
  .next (onNode s t (fun n => recCtrlWrite n hostPath 1))
def execRecThaw (t : Nat) (s : State) : Host.Outcome State Fault Refusal :=
  .next (onNode s t (fun n => recCtrlWrite n hostPath 0))
def execRecRead (t : Nat) (s : State) : Host.Outcome State Fault Refusal := .next (recOp t 1 0 s)
def execRecClear (t : Nat) (s : State) : Host.Outcome State Fault Refusal := .next (recOp t 2 0 s)
def execRecToken (t : Nat) (s : State) : Host.Outcome State Fault Refusal := .next (recOp t 3 0 s)
def execRecCapTrig (t index : Nat) (s : State) : Host.Outcome State Fault Refusal := .next (recOp t 4 index s)
def execRecArm (t index : Nat) (s : State) : Host.Outcome State Fault Refusal := .next (recOp t 5 index s)
def execRecDisarm (t index : Nat) (s : State) : Host.Outcome State Fault Refusal := .next (recOp t 6 index s)
def execRecClearFlags (t : Nat) (s : State) : Host.Outcome State Fault Refusal := .next (recOp t 7 0 s)

end Sys2Proof.Machine
end

