-- ==== Sys2Proof/Machine/Write.lean ====
section
/-! DEFINITION. A write to BAR0 on any path (00 R11, R13; 02 R36 to R50; 16 R375, R376): the header, the register pairs,
the command registers, plain RW and WO registers, and RWL and RWS parameters. -/

namespace Sys2Proof.Machine

/-! Parameter registers -/

/-- The select register's value of a window register (08 R179); none: no window register. -/
def windowSel (n : Node) (p o : Nat) : Option Nat :=
  if 0x30 ≤ p ∧ p < 0x40 ∧ 0x48 ≤ o ∧ o ≤ 0x5C then some (reg n (at_ p 0x44)).toNat
  else if p = 9 ∧ 0x64 ≤ o ∧ o ≤ 0x6C then some (reg n (at_ 9 0x60)).toNat
  else if p = 9 ∧ 0xA4 ≤ o ∧ o ≤ 0xB8 then some (reg n (at_ 9 0xA0)).toNat
  else none

/-- The key a write or a read of a register reaches. -/
def paramKey (n : Node) (p o : Nat) : Nat :=
  match windowSel n p o with
  | some s => selKey s (at_ p o)
  | none => at_ p o

/-- The point whose window field, ATTR apart, lies at an offset. -/
def windowPoint (n : Node) (p o : Nat) : Option Nat :=
  match windowSel n p o with
  | some s =>
    if p ≠ 9 then (if o = 0x5C then none else some (256 * (p - 0x30) + s))
    else if 0xA4 ≤ o ∧ o < 0xB8 then some (4096 + s) else none
  | none => none

/-- The field belongs to a safety point, by the tables in effect or the staged ones (08 R180): it behaves as RWS. -/
def safetyField (n : Node) (p o : Nat) : Bool :=
  match windowPoint n p o with
  | some k => (safetyPts n).contains k || (safetyPts (stagedView n)).contains k
  | none => false

/-- A boundary takes the page's parameters up (02 R45, 16 R376), but for the pages that the management processor carries. -/
def laneCarried (p : Nat) : Bool := !mpDep p

/-- A capture definition that is ARMED or CAPTURING is not written (15 R364). -/
def capFree (n : Node) (p o : Nat) : Bool :=
  if p = 6 ∧ 0x100 ≤ o then
    let st := (capOf n ((o - 0x100) / 0x40)).state
    decide (st ≠ .armed) && decide (st ≠ .capturing)
  else true

/-- Check of a write to an RWL register. -/
def rwlCheck (n : Node) (path p o : Nat) (r : RegRow) (v : Word) : CmdCheck :=
  { state := inStates n r.states && capFree n p o, level := levelOk n path r.level, value := valueOk n p o v }

/-- Check of a write to an RWS register: a Commissioning session, in CONFIG, no image PENDING (16 R376, R378). -/
def rwsCheck (n : Node) (path p o : Nat) (v : Word) : CmdCheck :=
  { state := isConfig n && !imagePending n, level := levelOk n path 3, value := valueOk n p o v }

/-- What an RWL value in effect sets going. -/
def afterParam (n : Node) (p o : Nat) : Node :=
  if p = 1 ∧ o = 0x64 then takePeriod n
  else if p = 1 ∧ o = 0x68 then reselect n
  else if p = 1 ∧ o = 0x70 then refollow n
  else if 0x40 ≤ p ∧ p < 0x58 ∧ (o < 0x50 ∨ (0xA0 ≤ o ∧ o < 0xC0)) then reconfigure n (p - 0x40)
  else n

/-- An accepted write of an RWL register: a B takes it up, but on a page that the management processor carries. -/
def rwlEff (path p o : Nat) (v : Word) (n : Node) : Node × Option Bool :=
  let key := paramKey n p o
  if laneCarried p then
    defer p (.param key v (pathAccount n path) (seqOf n path p).echo) n
  else (writeParam n path p key v, some true)

/-- An accepted write of an RWS register: every page with one is carried by the lanes. -/
def rwsEff (path p o : Nat) (v : Word) (n : Node) : Node × Option Bool :=
  let key := paramKey n p o
  defer p (.stage key v (pathAccount n path) (seqOf n path p).echo) n

/-- A write to a parameter register: reserved bits are not held, except those that checks 9, 14, 26 and 27 judge at the
commit (16 R377). A refused write of CFG_TMO ends with the passwords of its path cleared (16 R368). -/
def paramWrite (n : Node) (path p o : Nat) (r : RegRow) (v : Word) : Node :=
  let w := if r.typ = .rws ∧ p ≠ 4 then v else v &&& BitVec.ofNat 32 r.mask
  let u := if decide (r.typ = .rws) || safetyField n p o then
      runCommand n path p (at_ p o) v (rwsCheck n path p o w) (rwsEff path p o w)
    else runCommand n path p (at_ p o) v (rwlCheck n path p o r w) (rwlEff path p o w)
  if p = 5 ∧ (seqOf n path 5).hseq ≠ (seqOf n path 5).echo then clearRefused (cmdOf n 5) path u else u

/-! Plain registers -/

/-- A WO register that is no command. -/
def woWrite (n : Node) (path p o : Nat) (v : Word) : Node :=
  if p = 0 then kick n
  else if p = 5 then
    let i := if o < 0x300 then (o - 0x80) / 4 else 8 + (o - 0x300) / 4
    modConfig n (fun c => { c with pw := tset 0 c.pw (16 * path + i) v })
  else
    let c := p - 0x40
    match o with
    | 0x150 => canPop n c 0
    | 0x1D0 => canPop n c 1
    | 0x250 => canPop n c 2
    | 0x2D0 => canPush n c
    | 0x310 => modCan n c (fun x => { x with txc := x.txc.tail })
    | _ => n

/-- An RW register that is no command (02 R43). -/
def rwWrite (n : Node) (p o : Nat) (v : Word) : Node :=
  let n := setReg n (at_ p o) (maskAt p o v)
  if p = 0x0C ∧ o = 0x48 then applyShedMin n else n

/-! Command registers -/

/-- A command register of the node's own pages, NODE_CTRL apart. -/
def cmdWriteLow (n : Node) (path p o : Nat) (v : Word) : Node :=
  match p, o with
  | 1, _ => tbCmdWrite n path v
  | 2, _ => acqCmdWrite n path v
  | 3, _ => laneCmdWrite n path v
  | 4, _ => dpxCmdWrite n path v
  | 5, 0x54 => cfgConfirmWrite n path v
  | 5, _ => cfgCmdWrite n path v
  | 6, 0x70 => recCtrlWrite n path v
  | 6, _ => recCmdWrite n path v
  | 7, 0x58 => callDutyWrite n path v
  | 7, _ => callCmdWrite n path v
  | 8, _ => safCmdWrite n path v
  | 9, _ => almCmdWrite n path v
  | 0x0A, _ => lchCmdWrite n path v
  | 0x0C, _ => mgtCmdWrite n path v
  | _, _ => n

/-- A command register of a page with more than one instance. -/
def cmdWriteHigh (n : Node) (path p : Nat) (v : Word) : Node :=
  match blockOf p with
  | 0x10 => rnkCmdWrite n path (p - 0x10) v
  | 0x13 => canCtrlPlain n path (p - 0x40) v
  | 0x14 => ethCmdWrite n path (p - 0x58) v
  | 0x15 => serCmdWrite n path (p - 0x5C) v
  | 0x16 => xlCmdWrite n path (p - 0x5E) v
  | _ => n

def cmdWrite (n : Node) (path p o : Nat) (v : Word) : Node :=
  if p < 0x10 then cmdWriteLow n path p o v else cmdWriteHigh n path p v

/-! The write -/

/-- A write to a block register that is no command of NODE_CTRL. -/
def blockWrite (n : Node) (path p o : Nat) (v : Word) : Node :=
  if pairLow p o || pairHigh p o then writePair n path p o v
  else if 0x10 ≤ p ∧ p < 0x20 ∧ 0x500 ≤ o ∧ o < 0x580 then aoSetWrite n path (32 * (p - 0x10) + (o - 0x500) / 4) v
  else if p = 0x0D ∧ o = 0x50 then rankEnWrite n path v
  else
    match rowAt p o with
    | none => n
    | some r =>
      match r.typ with
      | .cmd => cmdWrite n path p o v
      | .wo => unlocked n path p (fun n => woWrite n path p o v)
      | .rw => unlocked n path p (fun n => rwWrite n p o v)
      | .rwl => paramWrite n path p o r v
      | .rws => paramWrite n path p o r v

/-- A write to BAR0 at an aligned offset on a path; reserved pages, reserved offsets and RO registers ignore it (00 R13). -/
def barWrite (s : State) (path off : Nat) (v : Word) : State :=
  let p := off / 4096
  let o := off % 4096
  if blockOf p = 0 then s
  else if o = 0x08 then writePageCtrl s p v
  else if o < 0x40 then { s with node := writeHeader s.node path p o v }
  else if p = 0 ∧ o = 0x54 then nodeCtrlWrite s path v
  else { s with node := blockWrite s.node path p o v }

/-- Vectors that send again after a write where their condition stays 1: those of IRQ_STAT and IRQ_EN (02 R40), and of the
POP of a high-priority buffer (13 R306). -/
def againAfter (n : Node) (off : Nat) : List Nat :=
  let p := off / 4096
  let o := off % 4096
  if o = 0x10 ∨ o = 0x14 then vectorsOfPage p
  else if 0x40 ≤ p ∧ p < 0x58 ∧ o = 0x250 then popAgain n (p - 0x40)
  else []

/-- A write on a path; unaligned, it is a bad access (02 R38). -/
def pathWrite (s : State) (path off : Nat) (v : Word) : State :=
  let s := if off % 4 ≠ 0 then { s with node := badAccessNode s.node false true off } else barWrite s path off v
  { s with node := settleWith (againAfter s.node off) s.node }

/-! Meanings -/

/-- HOST_REGISTER_WRITE (02 R43). -/
def execHostRegisterWrite (t off : Nat) (v : Word) (s : State) : Host.Outcome State Fault Refusal :=
  .next (pathWrite { s with node := begin_ s.node t } hostPath off v)

/-- A write that the OPEN of a path consists of (16 R373): SEQ_HOST, CFG_P_ACCT, CFG_P_PW and OP 1 of CFG_CMD. -/
def opensWrite (off : Nat) (v : Word) : Bool :=
  [0x5018, 0x5060].contains off || decide (0x5080 ≤ off ∧ off < 0x50A0) || (off == 0x505C && fld v 3 0 == 1)

/-- MGMT_WRITE (16 R375): acts as the same write through BAR0, on its path. -/
def mgmtWrite (s : State) (path off : Nat) (v : Word) : State :=
  if !mgmtUp s.node path then s
  else
    let st := mgmtStatus s.node path off (opensWrite off v)
    let s := if st = 2 then s else pathWrite s path off v
    { s with node := emit s.node (.mgmt path st 0) }

def execMgmtWrite (t path off : Nat) (v : Word) (s : State) : Host.Outcome State Fault Refusal :=
  .next (mgmtWrite { s with node := begin_ s.node t } path off v)

end Sys2Proof.Machine
end

