-- ==== Sys2Proof/Machine/Read.lean ====
section
/-! DEFINITION. What a read of BAR0 returns (00 R11, R13; 02 R47 to R50; the register tables of 02 to 19). `n` is the
node as it stands, `b` its copy at the last boundary, `r` its copy at the last RESULT_READY, as the page shows them. -/

namespace Sys2Proof.Machine

/-! Copies -/

/-- The copies a page shows (02 R50): frozen under HOLD, else those of the last refresh. -/
def viewB (s : State) (p : Nat) : Node :=
  match tget none s.holds p with
  | some h => h.b.getD s.atB
  | none => s.atB
def viewR (s : State) (p : Nat) : Node :=
  match tget none s.holds p with
  | some h => h.r.getD s.atR
  | none => s.atR

/-- Whole seconds that remain until an instant (log entry 40). -/
def secsWhole (now at_ : Nat) : Nat := (at_ - now) / 1000000000

/-- Seconds of a lock that remain: 0 only once it has ended (log entry 40). -/
def secsLeft (now at_ : Nat) : Nat := divUp (at_ - now) 1000000000

/-! Header (02 Tables 02.5 to 02.9) -/

/-- PAGE_STAT.FAULT: the fault that the owning chapter reports of the block (02 Table 02.7): SAF_STAT of the SAF page (10
Table 10.11), NODE_STAT.FAULT, RNK_STAT.FAULTY and CFG_STAT.FACTORY (log entry 27). -/
def pageFault (n b r : Node) (p : Nat) : Bool :=
  if p = 8 then r.safety.failed || r.safety.copy0.excluded || r.safety.copy1.excluded || r.safety.copy2.excluded
  else if p = 0 then shownFault b != 0
  else if p = 5 then n.config.factory
  else decide (0x10 ≤ p ∧ p < 0x20) && (rankOf n (p - 0x10)).powered && (rankOf n (p - 0x10)).faulty

/-- PAGE_STAT.STAGED: a staged value of the page differs from the active one (04 R99). -/
def pageStaged (n : Node) (p : Nat) : Bool := hasView p && (stagedChanges n).any (fun e => e.1 % 1048576 / 4096 == p)

def pageStat (n b r : Node) (path p : Nat) : Word :=
  let h := headerOf n p
  pack [(b2n (pageStaged n p), 16, 1), (b2n (mpDep p && !mpRun n), 8, 1), (b2n (pageFault n b r p), 7, 1), (b2n h.holdExp, 6, 1),
    (b2n h.locked, 5, 1), ((seqOf n path p).cmdRes, 1, 4), (b2n (cmdOf n p).isSome, 0, 1)]

def headerRead (n b r : Node) (path p o : Nat) : Word :=
  let h := headerOf n p
  let q := seqOf n path p
  if o = 0 then pageId p
  else if o = 4 then BitVec.ofNat 32 (pageCap p)
  else if p = 0x0B then 0
  else
    match o with
    | 0x08 => h.ctrl
    | 0x0C => pageStat n b r path p
    | 0x10 => h.irqStat
    | 0x14 => h.irqEn
    | 0x18 => q.hseq.setWidth 32
    | 0x1C => pack [(q.echo.toNat, 16, 16), (h.dseq.toNat, 0, 16)]
    | 0x20 => pack [(b2n h.locked, 0, 1)]
    | _ => 0

/-! Registers that hold a value -/

/-- What the page shows of a parameter and of its staged value: the old one until the RESULT_READY (02 R45). -/
def shownReg (n : Node) (key : Nat) : Word := (tget none n.unshown key).getD (reg n key)
def shownStaged (n : Node) (key : Nat) : Word := (tget none n.unshownStaged key).getD (regStaged n key)

/-- A register of the tables: 0 for a command or WO register, the staged value under VIEW (04 R99), else the value in
effect (02 R43). -/
def regRead (n : Node) (p o : Nat) : Word :=
  match rowAt p o with
  | none => 0
  | some r =>
    match r.typ with
    | .cmd => 0
    | .wo => 0
    | .rws => if viewStaged n p then shownStaged n (at_ p o) else shownReg n (at_ p o)
    | _ =>
      let key := paramKey n p o
      if viewStaged n p && safetyField n p o then shownStaged n key else shownReg n key

/-! NODE, TB, ACQ, PWR (17 Tables 17.7, 17.9; 03 Table 03.7; 05 Table 05.10) -/

def rstestWord (b : Node) (w : Nat) : Word :=
  pack ((List.range 8).map (fun i => (tget 0 b.nodeSt.rstest (8 * w + i), 4 * i, 4)))

def nodeRead (n b : Node) (o : Nat) : Word :=
  match o with
  | 0x40 => pack [(b2n Config.markXA, 16, 1), (1, 8, 8), (Config.fwMinor.toNat, 0, 8)]
  | 0x44 => Config.serial
  | 0x4C => nodeStat b
  | 0x50 => shownFault b
  | 0x58 => BitVec.ofNat 32 n.nodeSt.boot
  | 0x5C => if n.nodeSt.state = .init then 0 else BitVec.ofNat 32 (sat 4294967295 ((n.now - n.nodeSt.upSince) / 1000000000))
  | 0x68 => rstestWord b 0
  | 0x6C => rstestWord b 1
  | o => regRead n 0 o

/-- TB_STAT. -/
def tbStat (b : Node) : Word :=
  let t := b.tb
  pack [(b2n t.partner.qualified, 23, 1), (b2n t.pps.qualified, 22, 1), (b2n t.can.qualified, 21, 1),
    (b2n t.ptp.qualified, 20, 1), (b2n t.ckFail.isSome, 18, 1), (b2n t.timeFar.isSome, 17, 1), (b2n (slewing b), 16, 1),
    (t.port, 11, 5), (srcCode t.sel, 8, 3), (qual b, 4, 2), (tbCode t.state, 0, 3)]

def tbRead (n b : Node) (o : Nat) : Word :=
  match o with
  | 0x40 => tbStat b
  | 0x44 => lo32 (taiNow n)
  | 0x48 => hi32 (taiNow n)
  | 0x4C => lo32 b.frame
  | 0x50 => hi32 b.frame
  | 0x54 => wordI b.tb.offset
  | 0x58 => wordI b.tb.freq
  | 0x5C => BitVec.ofNat 32 (match b.tb.holdSince with | some h => sat 4294967295 ((b.now - h) / 1000000000) | none => 0)
  | 0x60 => BitVec.ofNat 32 (sat 4294967295 ((estErrAt b b.now).getD 4294967295))
  | 0x90 => pack [(b.tb.slews, 16, 16), (b.tb.steps, 0, 16)]
  | o => regRead n 1 o

def acqRead (n r : Node) (o : Nat) : Word :=
  if o = 0x40 then BitVec.ofNat 32 n.late
  else if o = 0x48 ∨ o = 0x4C then
    BitVec.ofNat 32 (bitSet ((List.range 32).filter (fun i => peerStale r (8 * (o - 0x48) + i))))
  else if 0x200 ≤ o ∧ o < 0x600 then
    let x := peerOf r ((o - 0x200) / 16)
    match (o - 0x200) % 16 with
    | 0 => wordI x.val
    | 4 => pack [(x.age, 16, 16), (x.qual, 8, 2), (peerStat x, 0, 8)]
    | 8 => lo32 x.tai
    | _ => hi32 x.tai
  else regRead n 2 o

def pwrRead (n b : Node) (o : Nat) : Word :=
  let w := b.power
  match o with
  | 0x40 => pack [(b2n w.pfail, 2, 1), (b2n w.bOk, 1, 1), (b2n w.aOk, 0, 1)]
  | 0x44 => pack [(w.vb, 16, 16), (w.va, 0, 16)]
  | 0x48 => pack [(w.loopW, 16, 16), (w.inW, 0, 16)]
  | 0x4C => pack [(b2n w.holdOk, 16, 1), (w.holdV, 0, 16)]
  | 0x54 =>
    pack [(bitSet ((List.range 16).filter (fun r => (rankOf b r).failed)), 16, 16),
      (bitSet ((List.range 16).filter (fun r => (rankOf b r).powered)), 0, 16)]
  | o => regRead n 0x0D o

/-! CFG (16 Table 16.7): live, a path's own fields -/

/-- The instant the management processor's registers describe: now, or that of its stop (01 R18). -/
def mpNow (n : Node) : Nat := if mpRun n then n.now else n.mgt.downAt

/-- What the CFG page shows of the change log, CFG_STAT.DIRTY and the period: while the management processor is down,
what it showed at the stop (01 R18). -/
def cfgShown (n : Node) : MpHeld :=
  let c := n.config
  c.mpHeld.getD { log := c.log, logCount := c.logCount, dirty := dirtyShown c, period := fld (reg n (at_ 1 0x64)) 3 0 }

/-- CFG_STAT. -/
def cfgStat (n : Node) : Word :=
  let c := n.config
  let m := cfgShown n
  let image := if c.pend.isSome then 2 else if (stagedChanges n).isEmpty then 0 else 1
  pack [(image, 30, 2), (b2n m.dirty, 29, 1), (b2n (c.loaded && c.copyA.valid), 28, 1),
    (b2n (c.loaded && c.copyB.valid), 27, 1), (b2n c.factory, 26, 1),
    (b2n (decide (m.period ≠ c.imagePeriod)), 25, 1),
    ((match c.pend with | some p => sat 65535 (secsWhole (mpNow n) p.until_) | none => 0), 0, 16)]

/-- CFG_SESS of a path. -/
def cfgSess (n : Node) (path : Nat) : Word :=
  match sessionOf n path with
  | none => pack [(path, 24, 3)]
  | some s =>
    let left := match timeoutAt n path with | some u => sat 65534 (secsWhole (mpNow n) u) | none => 65535
    pack [(1, 31, 1), (b2n (decide (2 ≤ s.level)), 30, 1), (s.level, 27, 3), (path, 24, 3), (s.account, 16, 4), (left, 0, 16)]

def cfgSessAll (n : Node) : Word :=
  pack [((editPath n).getD 7, 8, 3), (bitSet ((List.range 5).filter (fun p => (sessionOf n p).isSome)), 0, 5)]

/-- The bytes of a change log entry (Table 16.3). -/
def logBytes (e : LogEntry) : List Byte :=
  bytesLE 8 e.time ++ bytesLE 4 e.param ++ wordBytes e.old ++ wordBytes e.new ++
  [byteOf e.account, byteOf e.stage] ++ bytesLE 2 e.hseq.toNat ++ bytesLE 8 e.rseq

/-- Word i of a list of bytes. -/
def wordAt (l : List Byte) (i : Nat) : Word := BitVec.ofNat 32 (numLE (padTo 4 ((l.drop (4 * i)).take 4)))

/-- CFG_LOG_E of the slot that CFG_LOG_SEL names; its reset value until the flash has been read (00 R12). -/
def logWord (n : Node) (i : Nat) : Word :=
  match if n.config.loaded then tget none (cfgShown n).log (reg n (at_ 5 0xB0)).toNat else none with
  | some e => wordAt (logBytes e) i
  | none => 0

/-- CFG_ACCT_ST and CFG_ACCT_NAME of account a. -/
def acctWord (n : Node) (a e : Nat) : Word :=
  let x := accountOf n a
  if e = 0 then
    pack [(b2n x.en, 31, 1), (b2n (match x.lockUntil with | some u => decide (mpNow n < u) | none => false), 30, 1), (b2n x.mustchg, 29, 1), (x.level, 24, 3), (x.fails, 16, 4),
      ((match x.lockUntil with | some u => sat 65535 (secsLeft (mpNow n) u) | none => 0), 0, 16)]
  else if e ≤ 0x10 then wordAt x.name (e / 4 - 1)
  else 0

def cfgRead (n : Node) (path o : Nat) : Word :=
  let c := n.config
  match o with
  | 0x40 => cfgStat n
  | 0x44 => cfgSess n path
  | 0x48 => cfgSessAll n
  | 0x4C => c.check
  | 0x50 => match c.pend with | some p => p.check | none => 0
  | 0x58 => pack [(c.cfail.1, 24, 8), (c.cfail.2, 0, 16)]
  | 0xA0 => BitVec.ofNat 32 (tget 0 c.result path)
  | 0xA8 => BitVec.ofNat 32 c.gen
  | 0xAC => BitVec.ofNat 32 (cfgShown n).logCount
  | o =>
    if 0xC0 ≤ o ∧ o < 0xE0 then logWord n ((o - 0xC0) / 4)
    else if 0xE0 ≤ o ∧ o < 0x100 then Config.fingerprint ((o - 0xE0) / 4)
    else if 0x100 ≤ o ∧ o < 0x300 then acctWord n ((o - 0x100) / 0x20) ((o - 0x100) % 0x20)
    else regRead n 5 o

/-! REC (15 Table 15.7) -/

def storeCode : Store → Nat
  | .flash => 0
  | .mram => 1
  | .none => 2

def capCode : CapState → Nat
  | .idle => 0
  | .armed => 1
  | .capturing => 2
  | .done => 3
  | .aborted => 4

/-- REC_STAT. -/
def recStat (b : Node) : Word :=
  let r := b.rec_
  pack [(storeCode r.store, 30, 2), (b2n r.frozen.isSome, 29, 1), (b2n r.loss, 28, 1), (b2n r.ready, 27, 1),
    (stagedBytes b * 100 / 3145728, 16, 8), (r.wear, 8, 8)]

/-- A 64-bit RSEQ that reads 0 until READY (15 R435). -/
def untilReady (b : Node) (x : Nat) : Nat := if b.rec_.ready then x else 0

def capWord (b : Node) (d e : Nat) : Word :=
  let x := capOf b d
  match e with
  | 0x04 => pack [(capCode x.state, 29, 3), (x.parts, 0, 16)]
  | 0x08 => BitVec.ofNat 32 x.capid
  | 0x30 => lo32 x.trigT
  | 0x34 => hi32 x.trigT
  | _ => 0

def recRead (n b : Node) (o : Nat) : Word :=
  let r := b.rec_
  match o with
  | 0x40 => recStat b
  | 0x44 => lo32 (untilReady b r.lastRseq)
  | 0x48 => hi32 (untilReady b r.lastRseq)
  | 0x4C => lo32 (untilReady b (newestCommitted b))
  | 0x50 => hi32 (untilReady b (newestCommitted b))
  | 0x54 => lo32 (untilReady b (oldestRetained b))
  | 0x58 => hi32 (untilReady b (oldestRetained b))
  | 0x5C => pack [(untilReady b r.segs, 16, 16), (sat 65535 r.retired, 0, 16)]
  | 0x60 => BitVec.ofNat 32 r.disc
  | 0x64 => pack [(sat 65535 (r.ratePeak / 10), 16, 16), (sat 65535 (rateNow b / 10), 0, 16)]
  | 0x6C => BitVec.ofNat 32 (match r.frozen with | some f => (f.2 - b.now) / 1000000 | none => 0)
  | 0x70 => pack [(b2n n.rec_.frozen.isSome, 0, 1)]
  | 0x88 => match r.token with | some t => t.value | none => 0
  | 0x8C => pack [(b2n r.rdValid, 31, 1)]
  | o =>
    if 0x100 ≤ o ∧ o < 0x300 ∧ [0x04, 0x08, 0x30, 0x34].contains ((o - 0x100) % 0x40) then
      capWord b ((o - 0x100) / 0x40) ((o - 0x100) % 0x40)
    else regRead n 6 o

/-! CALL (09 Table 09.3) -/

def callRead (n r : Node) (o : Nat) : Word :=
  let c := r.call
  match o with
  | 0x58 => shownReg n (at_ 7 0x58)
  | 0x60 => pack [(dutyEng r, 24, 5), (b2n c.accValid, 17, 1), (c.accSrc, 12, 5), (b2n c.summary, 8, 1), (b2n c.brLost, 7, 1),
      (watchCode c.watch, 4, 3), (c.floor, 2, 2), (c.stage, 0, 2)]
  | 0x64 => pack [(c.nxfr, 16, 16), (c.ncall, 0, 16)]
  | 0x68 => BitVec.ofNat 32 c.oldest
  | 0x6C => BitVec.ofNat 32 (sat 4294967295 c.oldestAge)
  | 0x70 => BitVec.ofNat 32 (sat 4294967295 (watchLeft r))
  | 0x74 =>
    pack [(bitSet ((List.range 16).filter (fun k => let i := (stationOf r k).ind; i == 1 || i == 2)), 16, 16),
      (bitSet ((List.range 16).filter (fun k => (stationOf r k).link == 1)), 0, 16)]
  | o =>
    if 0x140 ≤ o ∧ o < 0x180 then
      let x := stationOf r ((o - 0x140) / 4)
      pack [(sat 255 x.missed, 8, 8), (x.ind, 2, 2), (x.link, 0, 2)]
    else regRead n 7 o

/-! SAF, TRIP, SOUT, SIN (10 Tables 10.11 to 10.14) -/

def safRead (n r : Node) (o : Nat) : Word :=
  match o with
  | 0x40 => safStat r
  | 0x48 => fnWord 0 (fun s => (fnOf r s).dem)
  | 0x4C => fnWord 1 (fun s => (fnOf r s).dem)
  | 0x50 => fnWord 0 (votedLatch r)
  | 0x54 => fnWord 1 (votedLatch r)
  | 0x58 => r.safety.fabCrc
  | 0x5C => fabCpy r
  | o =>
    if 0x200 ≤ o ∧ o < 0x300 then sfSt r ((o - 0x200) / 4)
    else if 0x300 ≤ o ∧ o < 0x500 then
      let t := (fnOf r ((o - 0x300) / 8)).time
      if o % 8 = 0 then lo32 t else hi32 t
    else regRead n 8 o

def tripRead (n r : Node) (i o : Nat) : Word :=
  match o with
  | 0x40 => tripWord i (votedLatch r) (votedDemand r)
  | 0x44 => tripWord i (fun s => r.safety.copy0.capL.getLsbD s) (fun s => r.safety.copy0.capD.getLsbD s)
  | 0x48 => tripWord i (fun s => r.safety.copy1.capL.getLsbD s) (fun s => r.safety.copy1.capD.getLsbD s)
  | 0x4C => tripWord i (fun s => r.safety.copy2.capL.getLsbD s) (fun s => r.safety.copy2.capD.getLsbD s)
  | o => regRead n (0x60 + i) o

/-- The monitor words of output o (SO_ST to SO_TPNEXT). -/
def soWord (b : Node) (o e : Nat) : Word :=
  let x := outputOf b o
  match e with
  | 0x08 => soSt b o
  | 0x0C => pack [(x.vminus, 16, 16), (x.vplus, 0, 16)]
  | 0x10 => pack [(x.cur, 0, 16)]
  | 0x14 => pack [(x.passed, 16, 16), (x.last, 8, 4), (b2n x.nextLs, 7, 1)]
  | 0x18 =>
    if x.phase = .on then BitVec.ofNat 32 (match x.nextDue with | some d => (d - b.now) / 1000000 | none => 0) else 0
  | _ => 0

def soutRead (n b : Node) (i o : Nat) : Word :=
  if o = 0x40 then
    let v := tget {} b.safety.vs i
    pack [(b2n v.low, 16, 1), (v.volt, 0, 16)]
  else if o = 0x44 then BitVec.ofNat 32 (bitSet ((List.range 8).filter (fun f => fbVal b (8 * i + f))))
  else if 0x100 ≤ o ∧ o < 0x200 ∧ 8 ≤ o % 0x20 then soWord b (8 * i + (o - 0x100) / 0x20) (o % 0x20)
  else regRead n (0x64 + i) o

def sinRead (n r : Node) (i o : Nat) : Word :=
  if o = 0x40 then
    BitVec.ofNat 32 ((List.range 64).filter (fun j => sinEn r (64 * i + j) && (pairOf r (64 * i + j)).discFlt)).length
  else if 0x100 ≤ o ∧ o < 0x500 ∧ o % 0x10 ≠ 0 then
    let k := 64 * i + (o - 0x100) / 0x10
    match o % 0x10 with
    | 4 => sinSt r k
    | 8 => lo32 (pairOf r k).time
    | _ => hi32 (pairOf r k).time
  else regRead n (0x68 + i) o

/-! ALP, ALM (08 Tables 08.10, 08.11) -/

/-- ALP_ST of a point. -/
def pointSt (r : Node) (k : Nat) : Word :=
  let x := pointOf r k
  pack [(x.cfgErr, 24, 8), (x.qual, 22, 2), (b2n ((safetyPts r).contains k), 15, 1), (b2n x.disabled, 14, 1),
    (ptPrio r k, 12, 2), (b2n x.held, 10, 1), (b2n x.shelved, 9, 1), (b2n x.supp, 8, 1), (b2n x.active, 7, 1),
    (b2n x.cond, 6, 1), (b2n x.raw, 5, 1), (stateOf x.state, 0, 3)]

/-- A word of 32 bits over consecutive points from k. -/
def ptBits (r : Node) (k : Nat) (f : Point → Bool) : Word :=
  BitVec.ofNat 32 (bitSet ((List.range 32).filter (fun i => f (pointOf r (k + i)))))

def seqWord (r : Node) : Word := BitVec.ofNat 32 (r.resHead.frame % 65536)

def alpRead (n r : Node) (i o : Nat) : Word :=
  if o = 0x40 then seqWord r
  else if 0x60 ≤ o ∧ o < 0x80 then ptBits r (256 * i + 8 * (o - 0x60)) (·.active)
  else if 0x80 ≤ o ∧ o < 0xA0 then ptBits r (256 * i + 8 * (o - 0x80)) (fun x => unacked x.state)
  else if 0x400 ≤ o ∧ o < 0x800 then pointSt r (256 * i + (o - 0x400) / 4)
  else if 0x800 ≤ o then
    let t := (pointOf r (256 * i + (o - 0x800) / 8)).time
    if o % 8 = 0 then lo32 t else hi32 t
  else regRead n (0x30 + i) o

/-- ALM_G_ST. -/
def groupSt (r : Node) (g : Nat) : Word :=
  let x := groupOf r g
  let rel := fld (grpReg r g 0x68) 23 0
  match x.suppressing, x.passed with
  | true, some c => if 0 < c then pack [(1, 31, 1), (1, 30, 1), (rel - c, 0, 24)] else pack [(1, 31, 1)]
  | s, _ => pack [(b2n s, 31, 1)]

/-- ALM_G_FO and ALM_G_FOT. -/
def groupFo (r : Node) (g : Nat) : Word :=
  let x := groupOf r g
  match x.fo with
  | some f => pack [(1, 31, 1), (b2n x.stable, 30, 1), (b2n x.uncert, 29, 1), (b2n f.remote, 28, 1), (f.qual, 26, 2),
      (f.node, 16, 8), (f.point, 0, 13)]
  | none => pack [(b2n x.stable, 30, 1), (b2n x.uncert, 29, 1)]
def groupFoT (r : Node) (g : Nat) : Nat := match (groupOf r g).fo with | some f => f.time | none => 0

/-- The words of the windows, of the group and of the derived point that the select registers name. -/
def almWindow (r : Node) (g k o : Nat) : Word :=
  match o with
  | 0x70 => groupSt r g
  | 0x74 => groupFo r g
  | 0x78 => lo32 (groupFoT r g)
  | 0x7C => hi32 (groupFoT r g)
  | 0x80 => lo32 (groupOf r g).reset
  | 0x84 => hi32 (groupOf r g).reset
  | 0xBC => pointSt r k
  | 0xC0 => lo32 (pointOf r k).time
  | _ => hi32 (pointOf r k).time

/-- A member of group g is not NORMAL. -/
def groupAct (r : Node) (g : Nat) : Bool := !groupNormal r g

def almRead (n r : Node) (o : Nat) : Word :=
  if o = 0x50 then BitVec.ofNat 32 n.almCnt.cmdCnt
  else if o = 0x54 then seqWord r
  else if o = 0x58 then pack [(r.almCnt.active, 16, 16), (r.almCnt.unack, 0, 16)]
  else if o = 0x5C then pack [(r.almCnt.shelved, 16, 16), (r.almCnt.supp, 0, 16)]
  else if [0x70, 0x74, 0x78, 0x7C, 0x80, 0x84, 0xBC, 0xC0, 0xC4].contains o then
    almWindow r (reg n (at_ 9 0x60)).toNat (4096 + (reg n (at_ 9 0xA0)).toNat) o
  else if 0x200 ≤ o ∧ o < 0x400 then
    pack ((List.range 8).flatMap (fun i =>
      let x := pointOf r (4096 + 2 * (o - 0x200) + i)
      [(stateOf x.state, 4 * i, 3), (b2n x.active, 4 * i + 3, 1)]))
  else if 0x400 ≤ o ∧ o < 0x420 then
    BitVec.ofNat 32 (bitSet ((List.range 32).filter (fun i => groupAct r (8 * (o - 0x400) + i))))
  else if 0x420 ≤ o ∧ o < 0x440 then
    BitVec.ofNat 32 (bitSet ((List.range 32).filter (fun i => (groupOf r (8 * (o - 0x420) + i)).suppressing)))
  else regRead n 9 o

/-! LCH, MGT (03 Table 03.9, 02 Table 02.13) -/

def lchRead (n r : Node) (o : Nat) : Word :=
  if o = 0x54 then
    BitVec.ofNat 32 ((List.range 64).filter (fun e => decide ((launchOf r e).state = .armed))).length
  else if o = 0x58 then BitVec.ofNat 32 r.lchLast
  else if 0x60 ≤ o ∧ o < 0x80 then
    pack ((List.range 8).map (fun i => (launchCode (launchOf r (2 * (o - 0x60) + i)).state, 4 * i, 4)))
  else if 0x100 ≤ o ∧ o < 0x500 then
    let x := launchOf r ((o - 0x100) / 16)
    match o % 16 with
    | 0 => lo32 x.tgt
    | 4 => hi32 x.tgt
    | 8 => x.act
    | _ => x.arg
  else regRead n 0x0A o

def mpCode : MpState → Nat
  | .boot => 0
  | .run => 1
  | .stopped => 2
  | .resetting => 3

def mgtRead (n : Node) (o : Nat) : Word :=
  match o with
  | 0x40 => pack [(b2n n.mgt.wdog, 3, 1), (mpCode n.mgt.state, 0, 3)]
  | 0x44 => loadWord n
  | 0x4C => BitVec.ofNat 32 n.mgt.restarts
  | 0x54 => n.mirror.head
  | 0x64 => n.mgt.badAcc
  | 0x68 => BitVec.ofNat 32 n.mgt.badCnt
  | o => regRead n 0x0C o

/-! RNK, RES, LGC (04 Table 04.10, 05 Table 05.9, 06 Table 06.8, 07 Table 07.7, 19 Table 19.2) -/

/-- Rank status: 0 while the rank is unpowered; RNK_TEMP, RNK_CJ and RNK_GRP are shadow words (04 Table 04.10), RNK_STAT and RNK_LINK
are live. -/
def rankRead (n b : Node) (k o : Nat) : Word :=
  let r := if o < 0x48 then rankOf n k else rankOf b k
  if !(rankOf n k).powered || !r.powered then 0
  else
    match o with
    | 0x40 => pack [(r.selftest, 16, 8), (cjFlts r, 8, 4), (grpFlts r, 4, 4), (b2n r.observe, 3, 1), (b2n r.faulty, 2, 1),
        (b2n (r.ready && r.selftest == 0), 1, 1), (1, 0, 1)]
    | 0x44 => pack [(r.up, 24, 3), (r.err2, 16, 8), (r.err1, 8, 8), (r.err0, 0, 8)]
    | 0x48 => pack [(intBits 16 (r.peak.getD 0), 16, 16), (intBits 16 r.temp, 0, 16)]
    | o =>
      if 0x50 ≤ o ∧ o < 0x60 then wordI (getGroup r ((o - 0x50) / 4)).cjMc
      else if 0x60 ≤ o ∧ o < 0x70 then
        let g := getGroup r ((o - 0x60) / 4)
        pack [(b2n g.isoOk, 18, 1), (b2n (storeOk g), 17, 1), (b2n g.supOk, 16, 1), (g.vsup, 0, 16)]
      else 0

/-- Loop output words of a channel (06 R144): 0 in a mode that is no loop output. -/
def aoRead (n b : Node) (ch o : Nat) : Word :=
  if o < 0x580 then (if isAo n ch then BitVec.ofNat 32 (aoSetRead (stageOf n ch)) else 0)
  else if !isAo b ch then 0
  else if o < 0x600 then aoStat b ch
  else if o < 0x680 then wordI (stageOf b ch).rbWas
  else pack [(intBits 16 (stageOf b ch).tjWas, 16, 16), ((stageOf b ch).vhiWas, 0, 16)]

def rnkRead (n b r : Node) (k o : Nat) : Word :=
  if o < 0x70 then rankRead n b k o
  else if 0x500 ≤ o ∧ o < 0x700 then aoRead n b (32 * k + (o % 0x80) / 4) o
  else if 0x700 ≤ o ∧ o < 0x710 then
    let g := getGroup (rankOf b k) ((o - 0x700) / 4)
    pack [(min g.demand 3000, 16, 16), (g.vstoreWas, 0, 16)]
  else if 0x880 ≤ o ∧ o < 0x900 then dgStat r (32 * k + (o - 0x880) / 4)
  else regRead n (0x10 + k) o

/-- Four bytes of consecutive channels. -/
def resBytes (r : Node) (ch : Nat) (f : Result → Nat) : Word :=
  pack ((List.range 4).map (fun j => (f (resOf r (ch + j)), 8 * j, 8)))

def resRead (r : Node) (i o : Nat) : Word :=
  let h := r.resHead
  if o = 0x40 then seqWord r
  else if o = 0x44 then lo32 h.sample
  else if o = 0x48 then hi32 h.sample
  else if o = 0x4C then BitVec.ofNat 32 h.period
  else if o = 0x50 then pack [(h.lanes, 1, 2), (b2n h.active, 0, 1)]
  else if 0x80 ≤ o ∧ o < 0x100 then wordI (resOf r (32 * i + (o - 0x80) / 4)).val
  else if 0x100 ≤ o ∧ o < 0x120 then resBytes r (32 * i + (o - 0x100)) (·.stat)
  else if 0x120 ≤ o ∧ o < 0x140 then resBytes r (32 * i + (o - 0x120)) (fun x => sat 255 (x.dly.getD h.offDly))
  else 0

/-- LGC_FLAGS of a channel (19 R431, 06 R143); in OFF 0x2. -/
def lgcFlags (r : Node) (ch : Nat) : Word :=
  let t := (resOf r ch).stat
  let slots := (List.range 8).map (fun j => 8 * ch + j)
  let act := fun (ts : List Nat) => slots.any (fun k => (pointOf r k).active && ts.contains (ptType r k))
  let low := nbit t 5 && isAo r ch
  let dead := decide ((frontOf r ch).rb < 5000)
  if chnSel r ch = 0 then 2
  else pack [(b2n (act [2, 3]), 7, 1), (b2n (act [0, 1]), 6, 1), (b2n (low && !dead), 5, 1), (b2n (low && dead), 4, 1),
    (b2n (nbit t 4), 3, 1), (b2n (nbit t 3), 2, 1), (b2n (nbit t 2), 1, 1), (b2n (nbit t 0), 0, 1)]

def lgcRead (n r : Node) (o : Nat) : Word :=
  let base := 128 * (reg n (at_ 0x0B 0x40)).toNat
  if o = 0x44 then seqWord r
  else if o = 0x48 then
    pack [(b2n (decide (r.almCnt.unack ≠ 0)), 2, 1), (b2n (shownFault r != 0), 1, 1), (b2n (isRun r), 0, 1)]
  else if 0x100 ≤ o ∧ o < 0x300 then
    let ch := base + (o - 0x100) / 4
    if chnSel r ch = 0 then 0 else wordI (resOf r ch).val
  else if 0x300 ≤ o ∧ o < 0x500 then lgcFlags r (base + (o - 0x300) / 4)
  else if 0x500 ≤ o ∧ o < 0x510 then
    BitVec.ofNat 32 (bitSet ((List.range 32).filter (fun i =>
      let ch := base + 8 * (o - 0x500) + i
      (List.range 8).any (fun j => (pointOf r (8 * ch + j)).active))))
  else regRead n 0x0B o

/-! CAN (13 Table 13.7) -/

def canStateCode : CanState → Nat
  | .off => 0
  | .active => 1
  | .passive => 2
  | .busOff => 3
  | .recovering => 4
  | .searching => 5
  | .integrating => 6

/-- The shadow words of a controller. -/
def canShadow (b : Node) (c o : Nat) : Word :=
  let x := canOf b c
  match o with
  | 0x60 => pack [(b2n x.trxFlt, 15, 1), (b2n x.txdTmo, 14, 1), (b2n x.idcoll, 13, 1), (b2n x.alone, 12, 1),
      (b2n (decide (96 ≤ x.tec ∨ 96 ≤ x.rec_)), 11, 1), (x.mode, 4, 4), (canStateCode x.state, 0, 3)]
  | 0x64 => pack [(b2n (decide (128 ≤ x.rec_)), 24, 1), (x.rec_, 16, 8), (x.tec, 0, 9)]
  | 0x68 => pack [(b2n x.lecData, 7, 1), (x.lec, 0, 3)]
  | 0x70 => b.tsRef.count
  | 0x74 => lo32 b.tsRef.tai
  | 0x78 => hi32 b.tsRef.tai
  | 0x90 => pack [(b2n x.rdLocked, 31, 1), (b2n (decide (x.state = .searching)), 30, 1), (x.rdCand, 24, 3),
      (sat 255 x.rdFrames, 16, 8), (x.rdSwitches, 0, 16)]
  | 0x94 => pack [(x.txc.length, 24, 8), (outstanding x, 16, 8), (x.hpb.length, 11, 3), (x.fifoB.length, 4, 7)]
  | _ => 0

/-- CAN_TXB. -/
def txbWord (b : Option TxBuf) : Word :=
  match b with
  | none => 0
  | some t =>
    let h := match t.body with | .host m _ => (0, m.tag) | .node _ => (1, 0)
    pack [(1, 31, 1), (h.1, 30, 1), (b2n t.intx, 29, 1), (sat 15 t.attempts, 24, 4), (h.2, 0, 16)]

/-- Word e of a receive window: the oldest frame. -/
def rxWord (l : List RxFrame) (e : Nat) : Word :=
  match l with
  | [] => 0
  | x :: _ =>
    let f := x.frame
    if e = 0 then pack [(1, 31, 1), (b2n f.ide, 29, 1), (f.id, 0, 29)]
    else if e = 4 then
      pack [(x.entry, 24, 8), (b2n f.fdf, 15, 1), (b2n f.brs, 14, 1), (b2n f.esi, 13, 1), (b2n f.rtr, 12, 1), (f.dlc, 8, 4),
        (f.data.length, 0, 7)]
    else if e = 8 then x.ts
    else if 0x10 ≤ e ∧ e < 0x50 then wordAt f.data ((e - 0x10) / 4)
    else 0

/-- The completion window. -/
def txcWord (l : List Completion) (e : Nat) : Word :=
  match l with
  | [] => 0
  | x :: _ =>
    match e with
    | 0 => pack [(sat 15 x.attempts, 24, 4), (1, 20, 1), (x.status, 16, 4), (x.tag, 0, 16)]
    | 4 => x.ts
    | 8 => x.id
    | _ => 0

/-- The live words of a controller. -/
def canLive (n : Node) (c o : Nat) : Word :=
  let x := canOf n c
  match o with
  | 0x50 => pack [(b2n x.txprio, 8, 1), (x.retry, 0, 5)]
  | 0x6C => tsAt n n.now
  | 0x7C => match x.collId with | some w => w ||| 0x80000000 | none => 0
  | 0x80 => x.cntRx
  | 0x84 => x.cntTx
  | 0x88 => pack [(x.busoffs, 24, 8), (x.pxe, 16, 8), (x.errs, 0, 16)]
  | 0x8C => pack [(x.rejs, 24, 8), (x.ovfH, 16, 8), (x.ovfB, 8, 8), (x.ovfA, 0, 8)]
  | 0x98 => pack [(x.fifoA.length, 0, 7)]
  | o =>
    if 0x100 ≤ o ∧ o < 0x150 then rxWord x.fifoA (o - 0x100)
    else if 0x180 ≤ o ∧ o < 0x1D0 then rxWord x.fifoB (o - 0x180)
    else if 0x200 ≤ o ∧ o < 0x250 then rxWord x.hpb (o - 0x200)
    else if 0x300 ≤ o ∧ o < 0x30C then txcWord x.txc (o - 0x300)
    else regRead n (0x40 + c) o

def canRead (n b : Node) (c o : Nat) : Word :=
  if [0x60, 0x64, 0x68, 0x70, 0x74, 0x78, 0x90, 0x94].contains o then canShadow b c o
  else if o = 0xC0 then txbWord (canOf b c).b0
  else if o = 0xC4 then txbWord (canOf b c).b1
  else if o = 0xC8 then txbWord (canOf b c).b2
  else canLive n c o

/-! The read -/

/-- A word of a page's block registers: from the node, or from the copy that the word is refreshed with. -/
def blockRead (s : State) (path p o : Nat) : Word :=
  let n := s.node
  let b := viewB s p
  let r := viewR s p
  let i := instOf p
  let orReg := fun (known : Bool) (w : Word) => if known then w else regRead n p o
  match blockOf p with
  | 0x01 => nodeRead n b o
  | 0x02 => tbRead n b o
  | 0x03 => acqRead n s.atR o
  | 0x04 => orReg (rowAt p o).isNone (laneRead r o)
  | 0x05 => orReg (rowAt p o).isNone (dpxRead b o)
  | 0x06 => cfgRead n path o
  | 0x07 => recRead n b o
  | 0x08 => callRead n s.atR o
  | 0x09 => safRead n r o
  | 0x0A => almRead n s.atR o
  | 0x0B => lchRead n r o
  | 0x0C => lgcRead n s.atR o
  | 0x0D => mgtRead n o
  | 0x0E => pwrRead n b o
  | 0x10 => rnkRead n b r i o
  | 0x11 => resRead s.atR i o
  | 0x12 => alpRead n s.atR i o
  | 0x13 => canRead n b i o
  | 0x14 => if o = 0x40 then ethRead b i o else orReg (rowAt p o).isNone (ethRead n i o)
  | 0x15 => if o = 0x40 then serRead b i o else orReg (rowAt p o).isNone (serRead n i o)
  | 0x16 => xlRead b i o
  | 0x17 => tripRead n r i o
  | 0x18 => soutRead n b i o
  | 0x19 => sinRead n r i o
  | _ => 0

/-- The word at an aligned BAR0 offset, but for holding registers; reserved offsets and pages read 0 (00 R13). -/
def liveRead (s : State) (path off : Nat) : Word :=
  let p := off / 4096
  let o := off % 4096
  if blockOf p = 0 then 0
  else if o < 0x40 then headerRead s.node (viewB s p) (viewR s p) path p o
  else blockRead s path p o

/-! Register pairs (02 R49) -/

/-- The low words of the 64-bit pairs of a page: those of the RO words and the RW pairs. -/
def lowWord (p o : Nat) : Bool :=
  pairLow p o ||
  (match blockOf p with
   | 0x02 => o == 0x44 || o == 0x4C
   | 0x03 => decide (0x200 ≤ o ∧ o < 0x600 ∧ o % 16 = 8)
   | 0x04 => o == 0x90
   | 0x05 => o == 0x70
   | 0x07 => [0x44, 0x4C, 0x54].contains o || decide (0x100 ≤ o ∧ o < 0x300 ∧ o % 0x40 = 0x30)
   | 0x09 => decide (0x300 ≤ o ∧ o < 0x500 ∧ o % 8 = 0)
   | 0x0A => [0x78, 0x80, 0xC0].contains o
   | 0x0B => decide (0x100 ≤ o ∧ o < 0x500 ∧ o % 16 = 0)
   | 0x11 => o == 0x44
   | 0x12 => decide (0x800 ≤ o ∧ o % 8 = 0)
   | 0x13 => o == 0x74
   | 0x19 => decide (0x100 ≤ o ∧ o < 0x500 ∧ o % 16 = 8)
   | _ => false)
def highWord (p o : Nat) : Bool := decide (4 ≤ o) && lowWord p (o - 4)

/-- What a read of an aligned BAR0 offset returns: the high word of a pair comes from the page's holding register where a
read of a low word has filled it. -/
def readWord (s : State) (path off : Nat) : Word :=
  let p := off / 4096
  if highWord p (off % 4096) then (tget none s.node.readHold p).getD (liveRead s path off) else liveRead s path off

/-- What a read leaves: a low word captures the high half, a high word takes it; MGT_LOAD and REC_RATE restart PEAK. -/
def afterRead (s : State) (path off : Nat) : Node :=
  let p := off / 4096
  let o := off % 4096
  let n := s.node
  if lowWord p o then { n with readHold := tset none n.readHold p (some (liveRead s path (off + 4))) }
  else if highWord p o then { n with readHold := tset none n.readHold p none }
  else if p = 0x0C ∧ o = 0x44 then modMgt n (fun m => { m with peak := m.load })
  else if p = 6 ∧ o = 0x64 then modRec n (fun r => { r with ratePeak := rateNow n })
  else n

/-- A read of BAR2 at a DWORD-aligned offset (02 R37, Table 02.3): the recorder buffer reads 0 where it is not valid. -/
def bar2Read (s : State) (off : Nat) : Word :=
  if off < 0x01000000 then BitVec.ofNat 32 (numLE (memBytes s.bar2 off 4))
  else if s.node.rec_.rdValid then
    BitVec.ofNat 32 (numLE (((s.node.rec_.readBuf).drop (off - 0x01000000)).take 4))
  else 0

/-! Meanings -/

/-- The host's read of a word of a pair: of the low word, and of the high word that follows it (log entry 14). -/
def pairRead (s : State) (off : Nat) : Node :=
  if off % 4 = 0 ∧ (lowWord (off / 4096) (off % 4096) || highWord (off / 4096) (off % 4096)) then
    emit (afterRead s hostPath off) (.read (readWord s hostPath off))
  else s.node

/-- PAIR_LOW_READ (02 R49). -/
def execPairLowRead (t off : Nat) (s : State) : Host.Outcome State Fault Refusal :=
  .next (onState s t (fun s => { s with node := pairRead s off }))

/-- A READ on a management connection (16 R375). -/
def mgmtReadAt (s : State) (path off : Nat) : Node :=
  if !mgmtUp s.node path then s.node
  else
    match mgmtStatus s.node path off false with
    | 0 => emit (afterRead s path off) (.mgmt path 0 (readWord s path off))
    | 1 => emit { badAccessNode s.node false false off with outs := s.node.outs } (.mgmt path 1 0xFFFFFFFF)
    | st => emit s.node (.mgmt path st 0)

/-- MGMT_READ (16 R375): a request that breaks Table 16.2 closes its connection; another reads. -/
def mgmtRead (s : State) (path : Nat) (q : MgmtReq) : Node :=
  if q.op = 1 ∧ q.value = 0 then mgmtReadAt s path q.off
  else if mgmtUp s.node path then tlsClose s.node path else s.node

def execMgmtRead (t path : Nat) (q : MgmtReq) (s : State) : Host.Outcome State Fault Refusal :=
  .next (onState s t (fun s => { s with node := mgmtRead s path q }))

/-- A read of REC_RATE (15 Table 15.7): PEAK starts afresh; path 0 is the host's, another a session's. -/
def rateRead (s : State) (path : Nat) : Node :=
  if path = hostPath then emit (afterRead s path 0x6064) (.read (readWord s path 0x6064))
  else mgmtReadAt s path 0x6064

def execRecRateRead (t path : Nat) (s : State) : Host.Outcome State Fault Refusal :=
  .next (onState s t (fun s => { s with node := rateRead s path }))

end Sys2Proof.Machine
end

