-- ==== Sys2Proof/Machine/Frame.lean ====
section
/-! DEFINITION. The frame as a whole: the take-up of commands and the voted boundary (01 R21, R24, 02 R45), the
evaluation (08 R168), the vote with what the engines send after it (11 R253 to R257), and RESULT_READY (02 R47). -/

namespace Sys2Proof.Machine

/-! Take-up (02 R45) -/

/-- The lanes must be voting for it to be taken up: while they are in NONE it ends FAILED (11 R261). The NODE page is held in
the register fabric (17 R405). -/
def needsLanes : LaneAct → Bool
  | .goto _ => false
  | .param key _ _ _ => decide (4096 ≤ key % 1048576)
  | .lane v => fld v 3 0 == 2
  | _ => true

/-- The log entry of a write, at the frame whose B takes it up (16 R376). -/
def takenEntry (n : Node) (key : Nat) (old v : Word) (account stage : Nat) (hseq : BitVec 16) : LogEntry :=
  { time := n.sampleT, param := key, old := old, new := v, account := account, stage := stage, hseq := hseq }

/-- Until the RESULT_READY the page reads what it read before (02 R45). -/
def stillShows (t : Tbl (Option Word)) (key : Nat) (old : Word) : Tbl (Option Word) :=
  tmod none t key (fun x => some (x.getD old))

/-- A parameter takes its value, with what that sets going; PWR_RANK_EN powers and unpowers ranks with it (17 R394). -/
def paramEff (key : Nat) (v : Word) (account : Nat) (hseq : BitVec 16) (n : Node) : Node × Option Bool :=
  let old := reg n key
  let n := logChange n (takenEntry n key old v account 0 hseq) oMp
  let n := { n with unshown := stillShows n.unshown key old }
  if key = at_ 0x0D 0x50 then (rankEnable n v, some true)
  else
    let n := modConfig (setReg n key v) (fun c => { c with dirty := true })
    (afterParam (almParam (keepFilter n key old) key old v) (key % 1048576 / 4096) (key % 4096), some true)

/-- A value is staged, where the editing session still stands (16 R376, R378). -/
def stageEff (key : Nat) (v : Word) (account : Nat) (hseq : BitVec 16) (n : Node) : Node × Option Bool :=
  if (editPath n).isNone then (n, some false)
  else
    let n := logChange n (takenEntry n key (regStaged n key) v account 1 hseq) oMp
    ({ n with unshownStaged := stillShows n.unshownStaged key (regStaged n key), staged := tset none n.staged key (some v) }, some true)

/-- One command taken up; `auto` tells that an automatic entry to SAFE was applied at this boundary (17 R392). -/
def actEff (auto : Bool) (a : LaneAct) (n : Node) : Node × Option Bool :=
  if lanesNone n && needsLanes a then (n, some false)
  else
    match a with
    | .alm op tgt index arg => almEff op tgt index arg n
    | .call op => if operational n then (callEff op n, some true) else (n, some false)
    | .duty e =>
      (setDuty { n with unshown := stillShows n.unshown (at_ 7 0x58) (callReg n 0x58) } e 31, some true)
    | .lane v => laneCmdEff v n
    | .acqClear => ({ n with late := 0 }, some true)
    | .rnkClear r => (rnkClear n r, some true)
    | .dpxClear => (modDpx n (fun d => { d with missed := 0, swOut := 0, swTime := 0 }), some true)
    | .param key v acc hseq => paramEff key v acc hseq n
    | .stage key v acc hseq => stageEff key v acc hseq n
    | .tbStep => tbStepEff n
    | .setTod tai since => setTodEff tai since n
    | .goto st => gotoEff st auto n
    | .saf op i => safTake op i n
    | .capTrig d => capTrigTake d n
    | .launch op entry tgt act arg => lchEff op entry tgt act arg n

def takeAct (auto : Bool) (n : Node) (w : Waiting) : Node :=
  let r := actEff auto w.act n
  resolveCmd r.1 w.page r.2

/-- The automatic entry to SAFE, then every command whose boundary this is, oldest first. -/
def takeUp (n : Node) : Node :=
  let due := n.acts.filter (fun w => decide (w.due ≤ n.bAt))
  let n := { n with acts := n.acts.filter (fun w => decide (n.bAt < w.due)) }
  let r := autoSafe n
  due.foldl (takeAct r.2) r.1

/-! Evaluation (08 R168, 05, 06, 09 R204, 10 R222) -/

/-- A remote command (08 R185); a station's key acts where the call is evaluated. -/
def remoteEff (n : Node) (r : Remote) : Node :=
  match r.act with
  | .rcmd ctrl src _ op tgt index rseq => rcmdEff n ctrl src op tgt index rseq
  | .key _ _ stn key kseq arg => if operational n then keyEff n stn key kseq arg else n
  | .acn letter a => acnEff n letter a

/-- Remote commands received before the frame: applied by the module that evaluates. -/
def applyRemote (n : Node) : Node :=
  let due := n.net.remote.filter (fun r => decide (r.tag < n.frame))
  let n := { n with net := { n.net with remote := n.net.remote.filter (fun r => decide (n.frame ≤ r.tag)) } }
  if follows n then n else due.foldl remoteEff n

/-- What the module that evaluates does in CONFIG, RUN and SAFE; the other takes its state from the holder (08 R188). -/
def evalEngine (n : Node) : Node :=
  if follows n then n else if operational n then evalCall (evalAlarms n) else bridgeLost (checkPts n)

/-- Safety functions: evaluated in RUN and SAFE, LOCKED in every other state (10 R234, R239). -/
def evalFns (n : Node) : Node :=
  if isRun n || decide (n.nodeSt.state = .safe) then (if follows n then followSafety n else evalSafety n) else quietSafety n

/-- The evaluation of a frame, once: when its inputs are exchanged and its boundary has passed, at the latest at its vote. -/
def evaluate (n : Node) : Node :=
  if n.laneSt.evalDone ∨ lanesNone n ∨ n.nodeSt.state = .init then n
  else
    let n := modLaneSt n (fun s => { s with evalDone := true })
    let n := evalChannels (applyRemote n)
    let n := recordFaults n
    let n := flushCaptures (evalFns (evalEngine (evalPeers n)))
    if operational n then computeAos n else n

/-! The voted boundary -/

/-- Records of the frame before that still wait, as where it had no vote, are staged before any record of this one
(15 R351). -/
def stageEarlier (n : Node) : Node :=
  let n := modRec n (fun r => { r with frameStaged := false })
  if n.rec_.ready then stageWaiting n else n

/-- The supplies as measured (17 Table 17.9), within the ranges of 18 Table 18.7; the hold-up store is charged from 45.0 V. -/
def takeSupply (n : Node) (x : Option SupplySample) : Node :=
  match x with
  | some y => modPower n (fun p =>
    { p with va := min y.va 6000, vb := min y.vb 6000, inW := min y.inW 5000,
             loopW := min (loopReading n y.loopW) 5000, holdV := min y.holdV 6000, holdOk := decide (4500 ≤ y.holdV) })
  | none => n

/-- CAN_TSREF (13 R319). -/
def takeTsRef (n : Node) : Node := { n with tsRef := { n.tsRef with count := tsAt n n.now, tai := taiNow n } }

/-- RUN or SAFE: the stages may drive (06 R140). -/
def mayDrive (n : Node) : Bool := isRun n || decide (n.nodeSt.state = .safe)

/-- What the boundary changes before the fabric's part: time, drive decision, commands, configuration and loop outputs. A
stage drives from the first boundary after the one that takes RUN or SAFE up (06 R140). -/
def boundaryFront (inp : BoundaryIn) (n : Node) : Node :=
  let n := takeSupply { stageEarlier n with bAt := n.now } inp.supply
  let n := boundaryLanes (duplexBoundary (timeBoundary n)) inp
  let was := mayDrive n
  let n := mirrorBoundary (takeUp (applyImage n))
  let n := aoBoundary n inp.copies (was && mayDrive n)
  launchBoundary n

/-- VOTED_BOUNDARY but for the refresh of the shadow words. -/
def boundary (inp : BoundaryIn) (n : Node) : Node :=
  let n := safetyBoundary (withFabric (boundaryFront inp) n) inp
  let n := takeTsRef (beginTransfers (takeLaneState n))
  let n := modLaneSt n (fun s => { s with bDone := true })
  if n.laneSt.inDone then evaluate n else n

/-! The vote -/

/-- At least two counted copies agree, or the announced survivor sent its own (11 R255). -/
def delivers (n : Node) : Bool := decide (2 ≤ n.laneSt.copies) || (lanesSingle n && decide (n.laneSt.copies = 1))

/-- What the engines send after a vote; nothing where receivers hold no copy that counts. -/
def engines (n : Node) : Node :=
  if delivers n then
    let n := groupDemands (sendStations (sendReplies (publishResults (sendAlarms n))))
    (keys n.cans).foldl tellDiscards n
  else { n with net := { n.net with almChanges := [], replies := [] } }

/-- DOVETAIL_VOTE: the frame is evaluated by now; Scarab stages its records. In NONE there is no vote: no message comes, and the
links go down (11 R253), but in the lanes' self-test at start-up. -/
def dovetail (images : List (Nat × Word)) (sliceMiss : Bool) (n : Node) : Node :=
  if n.laneSt.voted then n
  else if lanesNone n then
    stageFrame (modLaneSt (if n.nodeSt.phase = 1 then n else linkFrames n) (fun s => { s with voted := true })) false
  else
    let n := if n.laneSt.inDone then n else inputExchange n []
    let n := laneBallot (evaluate n) images sliceMiss
    let sent := delivers n
    stageFrame (engines n) sent

/-! RESULT_READY -/

/-- The frame may be published (11 R256). -/
def publishable (n : Node) : Bool :=
  !lanesNone n && n.laneSt.voted && n.laneSt.resolved && n.laneSt.imagesOk && !n.laneSt.ready

/-- The header of the RES buffer (05 Table 05.9). -/
def takeResHead (n : Node) : Node :=
  { n with resHead := { n.resHead with
    frame := n.frame, sample := n.sampleT, period := n.period, lanes := n.laneSt.state, active := holder n } }

/-- The pages show what the lanes have taken up, and the commands for it may end (02 R45). -/
def showTaken (n : Node) : Node :=
  { n with unshown := [], unshownStaged := [],
           cmds := n.cmds.map (fun e => (e.1, e.2.map (fun c => { c with shown := c.shown || (c.lanes && c.result.isSome) }))) }

/-- RESULT_READY but for the swap of the buffers. -/
def publish (n : Node) : Node :=
  let n := showTaken (holdPublished (takeResHead (modLaneSt n (fun s => { s with ready := true }))))
  let n := handoverReady (launchReady (trends (formatter n)))
  raiseR n 2 0

/-! Meanings -/

/-- SAMPLE_INSTANT (01 R21): a frame that had no RESULT_READY is told by the streams' GAP; comparator holds that ended
reach the fabric. -/
def execSampleInstant (t : Nat) (chs : List ChSample) (rks : List RankSample) (s : State) :
    Host.Outcome State Fault Refusal :=
  .next (onNode s t (fun n =>
    let n := if n.nodeSt.state = .init ∨ n.laneSt.ready then n else trendMissed n
    takeFloor (withFabric (fun n => sampleInstant n chs rks) n)))

/-- VOTED_BOUNDARY (01 R24). -/
def execVotedBoundary (t : Nat) (inp : BoundaryIn) (s : State) : Host.Outcome State Fault Refusal :=
  .next (onState s t (fun s => refreshB { s with node := faultRaise s.atB (boundary inp s.node) }))

/-- INPUT_EXCHANGE (11 R249): the lanes hold the frame's inputs and evaluate it. -/
def execInputExchange (t : Nat) (alt : List (Nat × Nat)) (s : State) : Host.Outcome State Fault Refusal :=
  .next (onNode s t (fun n => let n := inputExchange n alt; if n.laneSt.bDone then evaluate n else n))

/-- DOVETAIL_VOTE (11 R253). -/
def execDovetailVote (t : Nat) (image0 image1 image2 : Word) (sliceMiss : Bool) (s : State) :
    Host.Outcome State Fault Refusal :=
  .next (onNode s t (dovetail [(0, image0), (1, image1), (2, image2)] sliceMiss))

/-- RESULT_READY (02 R47): the buffers swap; nothing where the frame is not published. -/
def execResultReady (t : Nat) (s : State) : Host.Outcome State Fault Refusal :=
  .next (onState s t (fun s => if publishable s.node then refreshR { s with node := publish (missBlock s.atR s.node) } else s))

end Sys2Proof.Machine
end

