-- ==== Sys2Proof/Machine/Dispatch.lean ====
section
/-! DEFINITION. One arm per command: its meaning, called directly. -/

namespace Sys2Proof.Machine

def exec (i : Instr) (s : State) : Host.Outcome State Fault Refusal :=
  match i with
  | .hostRegisterWrite t off v => Sys2Proof.Machine.execHostRegisterWrite t off v s
  | .badAccess t bar2 wr addr => Sys2Proof.Machine.execBadAccess t bar2 wr addr s
  | .lockWrite t page v => Sys2Proof.Machine.execLockWrite t page v s
  | .irqStatClear t page v => Sys2Proof.Machine.execIrqStatClear t page v s
  | .irqEnWrite t page v => Sys2Proof.Machine.execIrqEnWrite t page v s
  | .msixUnmask t vector e => Sys2Proof.Machine.execMsixUnmask t vector e s
  | .pairLowRead t off => Sys2Proof.Machine.execPairLowRead t off s
  | .pairHighWrite t off v => Sys2Proof.Machine.execPairHighWrite t off v s
  | .pairLowWrite t off v => Sys2Proof.Machine.execPairLowWrite t off v s
  | .holdWrite t page v => Sys2Proof.Machine.execHoldWrite t page v s
  | .holdExpire t page => Sys2Proof.Machine.execHoldExpire t page s
  | .commandEnd t page => Sys2Proof.Machine.execCommandEnd t page s
  | .mgtMpreset t => Sys2Proof.Machine.execMgtMpreset t s
  | .mgtBadclr t => Sys2Proof.Machine.execMgtBadclr t s
  | .mgtLoadRead t load dram => Sys2Proof.Machine.execMgtLoadRead t load dram s
  | .mpWatchdogExpire t => Sys2Proof.Machine.execMpWatchdogExpire t s
  | .mpStop t => Sys2Proof.Machine.execMpStop t s
  | .mpRestartDone r => Sys2Proof.Machine.execMpRestartDone r s
  | .shedRaise t load => Sys2Proof.Machine.execShedRaise t load s
  | .shedLower t load => Sys2Proof.Machine.execShedLower t load s
  | .mirrorBlockWrite t => Sys2Proof.Machine.execMirrorBlockWrite t s
  | .pcieLinkLoss t => Sys2Proof.Machine.execPcieLinkLoss t s
  | .pcieLinkReturn t cfg => Sys2Proof.Machine.execPcieLinkReturn t cfg s
  | .perstNAssert t => Sys2Proof.Machine.execPerstNAssert t s
  | .sampleInstant t chs rks => Sys2Proof.Machine.execSampleInstant t chs rks s
  | .rankTransfer t lane rank crcOk frame => Sys2Proof.Machine.execRankTransfer t lane rank crcOk frame s
  | .inputExchange t alt => Sys2Proof.Machine.execInputExchange t alt s
  | .votedBoundary t inp => Sys2Proof.Machine.execVotedBoundary t inp s
  | .outputExchange t dest msg => Sys2Proof.Machine.execOutputExchange t dest msg s
  | .dovetailVote t image0 image1 image2 sliceMiss => Sys2Proof.Machine.execDovetailVote t image0 image1 image2 sliceMiss s
  | .resultReady t => Sys2Proof.Machine.execResultReady t s
  | .ptpMessage t x => Sys2Proof.Machine.execPtpMessage t x s
  | .canSyncReceived t h seq sof q => Sys2Proof.Machine.execCanSyncReceived t h seq sof q s
  | .canFollowReceived t h seq tai qual => Sys2Proof.Machine.execCanFollowReceived t h seq tai qual s
  | .ppsEdge e => Sys2Proof.Machine.execPpsEdge e s
  | .zdaReceived t port utc => Sys2Proof.Machine.execZdaReceived t port utc s
  | .sourceLost t src announce => Sys2Proof.Machine.execSourceLost t src announce s
  | .sourceSwitch t => Sys2Proof.Machine.execSourceSwitch t s
  | .acqTimeout t => Sys2Proof.Machine.execAcqTimeout t s
  | .tbStep t => Sys2Proof.Machine.execTbStep t s
  | .tbSetTod t => Sys2Proof.Machine.execTbSetTod t s
  | .cktbFail t => Sys2Proof.Machine.execCktbFail t s
  | .storedTimeWrite t => Sys2Proof.Machine.execStoredTimeWrite t s
  | .periodChange t => Sys2Proof.Machine.execPeriodChange t s
  | .syncSend t => Sys2Proof.Machine.execSyncSend t s
  | .followSend t ctrl => Sys2Proof.Machine.execFollowSend t ctrl s
  | .lchArm t entry => Sys2Proof.Machine.execLchArm t entry s
  | .lchCancel t entry => Sys2Proof.Machine.execLchCancel t entry s
  | .rnkCmdClear t rank => Sys2Proof.Machine.execRnkCmdClear t rank s
  | .comparatorCrossing t ch sigHi sigLo copies => Sys2Proof.Machine.execComparatorCrossing t ch sigHi sigLo copies s
  | .wireBreakConfirm t ch => Sys2Proof.Machine.execWireBreakConfirm t ch s
  | .repairConfirm t ch => Sys2Proof.Machine.execRepairConfirm t ch s
  | .excitationLimit t ch => Sys2Proof.Machine.execExcitationLimit t ch s
  | .excitationLimitEnd t ch => Sys2Proof.Machine.execExcitationLimitEnd t ch s
  | .diagSlot t results => Sys2Proof.Machine.execDiagSlot t results s
  | .thermalLimit t ch on => Sys2Proof.Machine.execThermalLimit t ch on s
  | .aoSetWrite t ch v => Sys2Proof.Machine.execAoSetWrite t ch v s
  | .clampTimeout t => Sys2Proof.Machine.execClampTimeout t s
  | .almAck t tgt index => Sys2Proof.Machine.execAlmAck t tgt index s
  | .almSilence t tgt index => Sys2Proof.Machine.execAlmSilence t tgt index s
  | .almShelve t tgt index => Sys2Proof.Machine.execAlmShelve t tgt index s
  | .almUnshelve t tgt index => Sys2Proof.Machine.execAlmUnshelve t tgt index s
  | .almFoReset t tgt index => Sys2Proof.Machine.execAlmFoReset t tgt index s
  | .almTransfer t tgt index => Sys2Proof.Machine.execAlmTransfer t tgt index s
  | .onDelayExpire t point => Sys2Proof.Machine.execOnDelayExpire t point s
  | .offDelayExpire t point => Sys2Proof.Machine.execOffDelayExpire t point s
  | .releaseExpire t group => Sys2Proof.Machine.execReleaseExpire t group s
  | .silenceTimerExpire t point => Sys2Proof.Machine.execSilenceTimerExpire t point s
  | .shelveExpire t point => Sys2Proof.Machine.execShelveExpire t point s
  | .foStable t group => Sys2Proof.Machine.execFoStable t group s
  | .alarmRefresh t => Sys2Proof.Machine.execAlarmRefresh t s
  | .alarmMessageReceived t h point group state time qual active refresh => Sys2Proof.Machine.execAlarmMessageReceived t h point group state time qual active refresh s
  | .resultMessageReceived t h sample period qual entries => Sys2Proof.Machine.execResultMessageReceived t h sample period qual entries s
  | .peerStale t entry => Sys2Proof.Machine.execPeerStale t entry s
  | .acqCmdClear t => Sys2Proof.Machine.execAcqCmdClear t s
  | .rcmdAck t h dest tgt index rseq => Sys2Proof.Machine.execRcmdAck t h dest tgt index rseq s
  | .rcmdSilence t h dest tgt index rseq => Sys2Proof.Machine.execRcmdSilence t h dest tgt index rseq s
  | .stationPoll t => Sys2Proof.Machine.execStationPoll t s
  | .stnReply t h stn => Sys2Proof.Machine.execStnReply t h stn s
  | .stnAccept t h stn kseq => Sys2Proof.Machine.execStnAccept t h stn kseq s
  | .stnSilence t h stn kseq => Sys2Proof.Machine.execStnSilence t h stn kseq s
  | .stnAck t h stn kseq => Sys2Proof.Machine.execStnAck t h stn kseq s
  | .stnWatchReset t h stn kseq => Sys2Proof.Machine.execStnWatchReset t h stn kseq s
  | .stnWatchOn t h stn kseq => Sys2Proof.Machine.execStnWatchOn t h stn kseq s
  | .stnWatchOff t h stn kseq => Sys2Proof.Machine.execStnWatchOff t h stn kseq s
  | .stnDutySet t h stn kseq arg => Sys2Proof.Machine.execStnDutySet t h stn kseq arg s
  | .callStageEscalate t point => Sys2Proof.Machine.execCallStageEscalate t point s
  | .transferExpire t point => Sys2Proof.Machine.execTransferExpire t point s
  | .watchPrewarn t => Sys2Proof.Machine.execWatchPrewarn t s
  | .watchAlarm t => Sys2Proof.Machine.execWatchAlarm t s
  | .callWatchOn t => Sys2Proof.Machine.execCallWatchOn t s
  | .callWatchOff t => Sys2Proof.Machine.execCallWatchOff t s
  | .callWatchReset t => Sys2Proof.Machine.execCallWatchReset t s
  | .callDuty t v => Sys2Proof.Machine.execCallDuty t v s
  | .bridgeHbtReceived t rx => Sys2Proof.Machine.execBridgeHbtReceived t rx s
  | .bridgeLinkLost t => Sys2Proof.Machine.execBridgeLinkLost t s
  | .alfRepeat t => Sys2Proof.Machine.execAlfRepeat t s
  | .alcSend t => Sys2Proof.Machine.execAlcSend t s
  | .hbtSend t => Sys2Proof.Machine.execHbtSend t s
  | .acnAck t rx ident inst => Sys2Proof.Machine.execAcnAck t rx ident inst s
  | .acnSilence t rx ident inst => Sys2Proof.Machine.execAcnSilence t rx ident inst s
  | .acnTransfer t rx ident inst => Sys2Proof.Machine.execAcnTransfer t rx ident inst s
  | .acnRequest t rx ask inst => Sys2Proof.Machine.execAcnRequest t rx ask inst s
  | .safReset t fn => Sys2Proof.Machine.execSafReset t fn s
  | .safResetAll t => Sys2Proof.Machine.execSafResetAll t s
  | .safSoTest t so => Sys2Proof.Machine.execSafSoTest t so s
  | .fabricTest t => Sys2Proof.Machine.execFabricTest t s
  | .energisationTest t so => Sys2Proof.Machine.execEnergisationTest t so s
  | .energisationTestDone t so code => Sys2Proof.Machine.execEnergisationTestDone t so code s
  | .testPulse t so => Sys2Proof.Machine.execTestPulse t so s
  | .testPulseEnd t so code => Sys2Proof.Machine.execTestPulseEnd t so code s
  | .soMonitorFault t so ls vplus vminus cur => Sys2Proof.Machine.execSoMonitorFault t so ls vplus vminus cur s
  | .soOverload t so cur => Sys2Proof.Machine.execSoOverload t so cur s
  | .vsLowChange t vs volt => Sys2Proof.Machine.execVsLowChange t vs volt s
  | .fbSettle t fb level => Sys2Proof.Machine.execFbSettle t fb level s
  | .fbTimeout t so => Sys2Proof.Machine.execFbTimeout t so s
  | .discrepancyTimeout t pair copy => Sys2Proof.Machine.execDiscrepancyTimeout t pair copy s
  | .laneWatchdog t lane => Sys2Proof.Machine.execLaneWatchdog t lane s
  | .laneSelfFault t lane cause => Sys2Proof.Machine.execLaneSelfFault t lane cause s
  | .scrubPass t lane words ue tablesOk => Sys2Proof.Machine.execScrubPass t lane words ue tablesOk s
  | .laneResetEnd t lane => Sys2Proof.Machine.execLaneResetEnd t lane s
  | .laneSelftestDone t lane ok => Sys2Proof.Machine.execLaneSelftestDone t lane ok s
  | .transferTimeout t lane => Sys2Proof.Machine.execTransferTimeout t lane s
  | .lanesResume t => Sys2Proof.Machine.execLanesResume t s
  | .degLimitExpire t => Sys2Proof.Machine.execDegLimitExpire t s
  | .degCountReset t => Sys2Proof.Machine.execDegCountReset t s
  | .laneRetry t lane => Sys2Proof.Machine.execLaneRetry t lane s
  | .laneExclude t lane => Sys2Proof.Machine.execLaneExclude t lane s
  | .laneClear t => Sys2Proof.Machine.execLaneClear t s
  | .outputArbitration t l => Sys2Proof.Machine.execOutputArbitration t l s
  | .timeArbitration t l => Sys2Proof.Machine.execTimeArbitration t l s
  | .presencePulse t aPres bPres aTerm bTerm => Sys2Proof.Machine.execPresencePulse t aPres bPres aTerm bTerm s
  | .heartbeatSend t => Sys2Proof.Machine.execHeartbeatSend t s
  | .heartbeatReceived t xl bytes delay peer => Sys2Proof.Machine.execHeartbeatReceived t xl bytes delay peer s
  | .heartbeatMiss t => Sys2Proof.Machine.execHeartbeatMiss t s
  | .dpxHandover t => Sys2Proof.Machine.execDpxHandover t s
  | .handoverTimeout t => Sys2Proof.Machine.execHandoverTimeout t s
  | .dpxCarry t => Sys2Proof.Machine.execDpxCarry t s
  | .dpxClear t => Sys2Proof.Machine.execDpxClear t s
  | .carrierTakeTimeout t rank => Sys2Proof.Machine.execCarrierTakeTimeout t rank s
  | .xlCmdClear t xl => Sys2Proof.Machine.execXlCmdClear t xl s
  | .canFrameReceived t ctrl sof f => Sys2Proof.Machine.execCanFrameReceived t ctrl sof f s
  | .rdDwellTimeout t ctrl => Sys2Proof.Machine.execRdDwellTimeout t ctrl s
  | .canError t ctrl e => Sys2Proof.Machine.execCanError t ctrl e s
  | .canProtocolException t ctrl => Sys2Proof.Machine.execCanProtocolException t ctrl s
  | .canTxComplete t ctrl buf sof => Sys2Proof.Machine.execCanTxComplete t ctrl buf sof s
  | .canRecoveryDone t ctrl => Sys2Proof.Machine.execCanRecoveryDone t ctrl s
  | .canIntegrationDone t ctrl => Sys2Proof.Machine.execCanIntegrationDone t ctrl s
  | .txdTimeout t ctrl => Sys2Proof.Machine.execTxdTimeout t ctrl s
  | .trxFault t group => Sys2Proof.Machine.execTrxFault t group s
  | .canTxPush t ctrl v => Sys2Proof.Machine.execCanTxPush t ctrl v s
  | .canRxPop t ctrl fifo => Sys2Proof.Machine.execCanRxPop t ctrl fifo s
  | .canTxcPop t ctrl => Sys2Proof.Machine.execCanTxcPop t ctrl s
  | .canCtrlNone t ctrl txprio retry => Sys2Proof.Machine.execCanCtrlNone t ctrl txprio retry s
  | .canRecover t ctrl txprio retry => Sys2Proof.Machine.execCanRecover t ctrl txprio retry s
  | .canFlush t ctrl txprio retry intx => Sys2Proof.Machine.execCanFlush t ctrl txprio retry intx s
  | .canClear t ctrl txprio retry => Sys2Proof.Machine.execCanClear t ctrl txprio retry s
  | .canHeartbeatSend t => Sys2Proof.Machine.execCanHeartbeatSend t s
  | .ethLinkChange t port up speed => Sys2Proof.Machine.execEthLinkChange t port up speed s
  | .ethCmdClear t port => Sys2Proof.Machine.execEthCmdClear t port s
  | .trendStoppedSend t => Sys2Proof.Machine.execTrendStoppedSend t s
  | .tlsConnect t path => Sys2Proof.Machine.execTlsConnect t path s
  | .tlsClose t path => Sys2Proof.Machine.execTlsClose t path s
  | .mgmtRead t path q => Sys2Proof.Machine.execMgmtRead t path q s
  | .mgmtWrite t path off v => Sys2Proof.Machine.execMgmtWrite t path off v s
  | .arpIcmpRequest t port echo addr => Sys2Proof.Machine.execArpIcmpRequest t port echo addr s
  | .serRxLost t port => Sys2Proof.Machine.execSerRxLost t port s
  | .serCmdClear t port => Sys2Proof.Machine.execSerCmdClear t port s
  | .recordCommit t => Sys2Proof.Machine.execRecordCommit t s
  | .overrunRecord t => Sys2Proof.Machine.execOverrunRecord t s
  | .recFreeze t => Sys2Proof.Machine.execRecFreeze t s
  | .recThaw t => Sys2Proof.Machine.execRecThaw t s
  | .freezeExpire t => Sys2Proof.Machine.execFreezeExpire t s
  | .recRead t => Sys2Proof.Machine.execRecRead t s
  | .recToken t => Sys2Proof.Machine.execRecToken t s
  | .recClear t => Sys2Proof.Machine.execRecClear t s
  | .tokenExpire t => Sys2Proof.Machine.execTokenExpire t s
  | .recCapTrig t index => Sys2Proof.Machine.execRecCapTrig t index s
  | .recArm t index => Sys2Proof.Machine.execRecArm t index s
  | .recDisarm t index => Sys2Proof.Machine.execRecDisarm t index s
  | .recClearFlags t => Sys2Proof.Machine.execRecClearFlags t s
  | .captureEnd t index => Sys2Proof.Machine.execCaptureEnd t index s
  | .recRateRead t path => Sys2Proof.Machine.execRecRateRead t path s
  | .flashFail t reason => Sys2Proof.Machine.execFlashFail t reason s
  | .mramFail t => Sys2Proof.Machine.execMramFail t s
  | .blockRetire t block spare => Sys2Proof.Machine.execBlockRetire t block spare s
  | .segmentErase t cycles => Sys2Proof.Machine.execSegmentErase t cycles s
  | .recorderReady t flashOk mramOk => Sys2Proof.Machine.execRecorderReady t flashOk mramOk s
  | .cfgOpen t path => Sys2Proof.Machine.execCfgOpen t path s
  | .cfgClose t path => Sys2Proof.Machine.execCfgClose t path s
  | .cfgChpw t path => Sys2Proof.Machine.execCfgChpw t path s
  | .cfgCommit t c => Sys2Proof.Machine.execCfgCommit t c s
  | .cfgDiscard t path => Sys2Proof.Machine.execCfgDiscard t path s
  | .cfgAcctSet t path => Sys2Proof.Machine.execCfgAcctSet t path s
  | .cfgAcctDel t path => Sys2Proof.Machine.execCfgAcctDel t path s
  | .cfgKick t path => Sys2Proof.Machine.execCfgKick t path s
  | .cfgUnlock t path => Sys2Proof.Machine.execCfgUnlock t path s
  | .cfgConfirm t path v => Sys2Proof.Machine.execCfgConfirm t path v s
  | .lockoutExpire t account => Sys2Proof.Machine.execLockoutExpire t account s
  | .sessionTimeout t path => Sys2Proof.Machine.execSessionTimeout t path s
  | .confirmWindowExpire t => Sys2Proof.Machine.execConfirmWindowExpire t s
  | .configFlashWrite t ok => Sys2Proof.Machine.execConfigFlashWrite t ok s
  | .gotoStandby t => Sys2Proof.Machine.execGotoStandby t s
  | .gotoConfig t => Sys2Proof.Machine.execGotoConfig t s
  | .gotoRun t => Sys2Proof.Machine.execGotoRun t s
  | .gotoSafe t => Sys2Proof.Machine.execGotoSafe t s
  | .nodeResetCmd t => Sys2Proof.Machine.execNodeResetCmd t s
  | .rstNAssert t => Sys2Proof.Machine.execRstNAssert t s
  | .powerUp t feedA feedB => Sys2Proof.Machine.execPowerUp t feedA feedB s
  | .startupPhaseEnd t lanesOk bad posB => Sys2Proof.Machine.execStartupPhaseEnd t lanesOk bad posB s
  | .rankSelftestDone t rank code => Sys2Proof.Machine.execRankSelftestDone t rank code s
  | .rankEnableWrite t v => Sys2Proof.Machine.execRankEnableWrite t v s
  | .feedLost t feedB => Sys2Proof.Machine.execFeedLost t feedB s
  | .feedPresent t feedB => Sys2Proof.Machine.execFeedPresent t feedB s
  | .shutdown t => Sys2Proof.Machine.execShutdown t s
  | .hwdogExpire t => Sys2Proof.Machine.execHwdogExpire t s
  | .nodeKick t => Sys2Proof.Machine.execNodeKick t s
  | .trxFltClear t group => Sys2Proof.Machine.execTrxFltClear t group s
  | .rstNRelease t => Sys2Proof.Machine.execRstNRelease t s

end Sys2Proof.Machine
end

