-- ==== Sys2Proof/WellFormed.lean ====
section
/-! DEFINITION. Which commands the node can meet: every operand within what the spec numbers. The meanings are total and
do not read these checks; statements may name them. -/

namespace Sys2Proof

open Machine (CanFrame Endpoint)

/-- Keys of a list strictly rising: each channel, rank or copy once, in the order of its number. -/
def risingKeys : List Nat → Bool
  | [] => true
  | [_] => true
  | a :: b :: r => decide (a < b) && risingKeys (b :: r)

/-- One of 512 channels (00 R4). -/
def channelOk (ch : Nat) : Bool := decide (ch < 512)
/-- One of 16 ranks. -/
def rankOk (r : Nat) : Bool := decide (r < 16)
/-- One of 3 lanes. -/
def laneOk (l : Nat) : Bool := decide (l < 3)
/-- One of 24 CAN controllers. -/
def ctrlOk (c : Nat) : Bool := decide (c < 24)
/-- A register of BAR0: a word address below 1 MiB (02 Table 02.2). -/
def offsetOk (off : Nat) : Bool := decide (off < 0x100000) && decide (off % 4 = 0)
/-- One of 5120 alarm points: 4096 of channels, 1024 derived (08). -/
def pointOk (p : Nat) : Bool := decide (p < 5120)
/-- One of 256 alarm groups. -/
def groupOk (g : Nat) : Bool := decide (g < 256)
/-- A page of BAR0. -/
def pageOk (p : Nat) : Bool := decide (p < 256)
/-- A message head: controller and node address (14 R324). -/
def headOk (h : MsgHead) : Bool := ctrlOk h.ctrl && decide (h.src < 254)
/-- A classic or FD frame (13 Table 13.1): its identifier in range, its data the length its DLC names. -/
def frameOk (f : CanFrame) : Bool :=
  decide (f.id < if f.ide then 0x20000000 else 0x800) && decide (f.dlc < 16) && !(f.fdf && f.rtr) &&
    (f.fdf || !f.brs) && decide (f.data.length ≤ if f.fdf then 64 else 8)
/-- A port of alert sentences: 4 Ethernet and 2 serial ports. -/
def portOk : AlertPort → Bool
  | .eth n => decide (n < 4)
  | .ser n => decide (n < 2)
/-- Base addresses a host may assign (02 Table 02.1): each a multiple of its window's size, in 32 or 64 bits. -/
def endpointOk (e : Endpoint) : Bool :=
  decide (e.bar0 < 2 ^ 32 ∧ e.bar0 % 2 ^ 20 = 0 ∧ e.bar2 < 2 ^ 64 ∧ e.bar2 % 2 ^ 26 = 0 ∧ e.bar4 < 2 ^ 32 ∧ e.bar4 % 2 ^ 14 = 0)
/-- A management path: the host link 0, TLS connections 1 to 4 (16 R372). -/
def pathOk (p : Nat) : Bool := decide (p < 5)

/-- The command is one the node can meet. -/
def wellFormed : Instr → Bool
  | .hostRegisterWrite _ off _ => offsetOk off
  | .badAccess _ _ _ addr => decide (addr < 2 ^ 32)
  | .lockWrite _ page _ => pageOk page
  | .irqStatClear _ page _ => pageOk page
  | .irqEnWrite _ page _ => pageOk page
  | .msixUnmask _ vector e => decide (e.addr < 18446744073709551616 ∧ e.addr % 4 = 0) && decide (vector < 64)
  | .pairLowRead _ off => offsetOk off
  | .pairHighWrite _ off _ => offsetOk off
  | .pairLowWrite _ off _ => offsetOk off
  | .holdWrite _ page _ => pageOk page
  | .holdExpire _ page => pageOk page
  | .commandEnd _ page => pageOk page
  | .mgtMpreset _ => true
  | .mgtBadclr _ => true
  | .mgtLoadRead _ load dram => decide (load ≤ 100) && decide (dram ≤ 100)
  | .mpWatchdogExpire _ => true
  | .mpStop _ => true
  | .mpRestartDone _ => true
  | .shedRaise _ load => decide (load ≤ 100)
  | .shedLower _ load => decide (load ≤ 100)
  | .mirrorBlockWrite _ => true
  | .pcieLinkLoss _ => true
  | .pcieLinkReturn _ cfg => endpointOk cfg
  | .perstNAssert _ => true
  | .sampleInstant _ chs rks =>
    (chs.all fun c => channelOk c.ch) && (rks.all fun r => rankOk r.rank) && risingKeys (chs.map (·.ch)) && risingKeys (rks.map (·.rank))
  | .rankTransfer _ lane rank _ _ => laneOk lane && rankOk rank
  | .inputExchange _ alt => alt.all fun a => laneOk a.1 && rankOk a.2
  | .votedBoundary _ inp =>
    decide (inp.fabCrcBad < 8) && decide (inp.fabDiff < 8) && (inp.copies.all fun c => channelOk c.1 && laneOk c.2.1) &&
      (inp.soCopies.all fun c => decide (c.1 < 32) && laneOk c.2.1) && (inp.souts.all fun x => decide (x.so < 32)) &&
      inp.vs.all fun x => decide (x.1 < 4)
  | .outputExchange _ dest msg => laneOk dest && laneOk msg.lane && decide (dest ≠ msg.lane) && msg.relay.all fun r => laneOk r.1
  | .dovetailVote _ _ _ _ _ => true
  | .resultReady _ => true
  | .ptpMessage _ x => decide (x.port < 4) && decide (x.domain < 256)
  | .canSyncReceived _ h seq _ q => headOk h && decide (seq < 256) && decide (q.qual < 4) && decide (q.int ≤ 4)
  | .canFollowReceived _ h seq _ qual => headOk h && decide (seq < 256) && decide (qual < 4)
  | .ppsEdge _ => true
  | .zdaReceived _ port _ => decide (port < 2)
  | .sourceLost _ src _ => decide (1 ≤ src) && decide (src ≤ 4)
  | .sourceSwitch _ => true
  | .acqTimeout _ => true
  | .tbStep _ => true
  | .tbSetTod _ => true
  | .cktbFail _ => true
  | .storedTimeWrite _ => true
  | .periodChange _ => true
  | .syncSend _ => true
  | .followSend _ ctrl => ctrlOk ctrl
  | .lchArm _ entry => decide (entry < 64)
  | .lchCancel _ entry => decide (entry < 64)
  | .rnkCmdClear _ rank => rankOk rank
  | .comparatorCrossing _ ch _ _ copies => channelOk ch && decide (copies ≤ 7)
  | .wireBreakConfirm _ ch => channelOk ch
  | .repairConfirm _ ch => channelOk ch
  | .excitationLimit _ ch => channelOk ch
  | .excitationLimitEnd _ ch => channelOk ch
  | .diagSlot _ results => (results.all fun r => channelOk r.1) && risingKeys (results.map (·.1))
  | .thermalLimit _ ch _ => channelOk ch
  | .aoSetWrite _ ch _ => channelOk ch
  | .clampTimeout _ => true
  | .almAck _ tgt _ => decide (tgt < 4)
  | .almSilence _ tgt _ => decide (tgt < 4)
  | .almShelve _ tgt _ => decide (tgt < 4)
  | .almUnshelve _ tgt _ => decide (tgt < 4)
  | .almFoReset _ tgt _ => decide (tgt < 4)
  | .almTransfer _ tgt _ => decide (tgt < 4)
  | .onDelayExpire _ point => pointOk point
  | .offDelayExpire _ point => pointOk point
  | .releaseExpire _ group => groupOk group
  | .silenceTimerExpire _ point => pointOk point
  | .shelveExpire _ point => pointOk point
  | .foStable _ group => groupOk group
  | .alarmRefresh _ => true
  | .alarmMessageReceived _ h point group state _ qual _ _ =>
    headOk h && pointOk point && groupOk group && decide (state < 8) && decide (qual < 4)
  | .resultMessageReceived _ h _ _ qual entries => headOk h && decide (qual < 4) && entries.all fun e => channelOk e.ch
  | .peerStale _ entry => decide (entry < 64)
  | .acqCmdClear _ => true
  | .rcmdAck _ h dest tgt _ _ => headOk h && decide (dest < 256) && decide (tgt < 4)
  | .rcmdSilence _ h dest tgt _ _ => headOk h && decide (dest < 256) && decide (tgt < 4)
  | .stationPoll _ => true
  | .stnReply _ h stn => headOk h && decide (stn < 16)
  | .stnAccept _ h stn _ => headOk h && decide (stn < 16)
  | .stnSilence _ h stn _ => headOk h && decide (stn < 16)
  | .stnAck _ h stn _ => headOk h && decide (stn < 16)
  | .stnWatchReset _ h stn _ => headOk h && decide (stn < 16)
  | .stnWatchOn _ h stn _ => headOk h && decide (stn < 16)
  | .stnWatchOff _ h stn _ => headOk h && decide (stn < 16)
  | .stnDutySet _ h stn _ arg => headOk h && decide (stn < 16) && decide (arg < 256)
  | .callStageEscalate _ point => pointOk point
  | .transferExpire _ point => pointOk point
  | .watchPrewarn _ => true
  | .watchAlarm _ => true
  | .callWatchOn _ => true
  | .callWatchOff _ => true
  | .callWatchReset _ => true
  | .callDuty _ _ => true
  | .bridgeHbtReceived _ rx => portOk rx.port
  | .bridgeLinkLost _ => true
  | .alfRepeat _ => true
  | .alcSend _ => true
  | .hbtSend _ => true
  | .acnAck _ rx _ _ => portOk rx.port
  | .acnSilence _ rx _ _ => portOk rx.port
  | .acnTransfer _ rx _ _ => portOk rx.port
  | .acnRequest _ rx _ _ => portOk rx.port
  | .safReset _ fn => decide (fn < 64)
  | .safResetAll _ => true
  | .safSoTest _ so => decide (so < 32)
  | .fabricTest _ => true
  | .energisationTest _ so => decide (so < 32)
  | .energisationTestDone _ so code => decide (so < 32) && decide (code < 16)
  | .testPulse _ so => decide (so < 32)
  | .testPulseEnd _ so code => decide (so < 32) && decide (code < 16)
  | .soMonitorFault _ so _ _ _ _ => decide (so < 32)
  | .soOverload _ so _ => decide (so < 32)
  | .vsLowChange _ vs _ => decide (vs < 4)
  | .fbSettle _ fb _ => decide (fb < 32)
  | .fbTimeout _ so => decide (so < 32)
  | .discrepancyTimeout _ pair copy => decide (pair < 256) && decide (copy < 3)
  | .laneWatchdog _ lane => laneOk lane
  | .laneSelfFault _ lane cause => laneOk lane && decide (cause < 16)
  | .scrubPass _ lane _ _ _ => laneOk lane
  | .laneResetEnd _ lane => laneOk lane
  | .laneSelftestDone _ lane _ => laneOk lane
  | .transferTimeout _ lane => laneOk lane
  | .lanesResume _ => true
  | .degLimitExpire _ => true
  | .degCountReset _ => true
  | .laneRetry _ lane => laneOk lane
  | .laneExclude _ lane => laneOk lane
  | .laneClear _ => true
  | .outputArbitration _ l => decide (l.aCode < 8) && decide (l.bCode < 8)
  | .timeArbitration _ l => decide (l.aCode < 8) && decide (l.bCode < 8)
  | .presencePulse _ _ _ _ _ => true
  | .heartbeatSend _ => true
  | .heartbeatReceived _ xl _ _ _ => decide (xl < 2)
  | .heartbeatMiss _ => true
  | .dpxHandover _ => true
  | .handoverTimeout _ => true
  | .dpxCarry _ => true
  | .dpxClear _ => true
  | .carrierTakeTimeout _ rank => rankOk rank
  | .xlCmdClear _ xl => decide (xl < 2)
  | .canFrameReceived _ ctrl _ f => ctrlOk ctrl && frameOk f
  | .rdDwellTimeout _ ctrl => ctrlOk ctrl
  | .canError _ ctrl e => ctrlOk ctrl && decide (1 ≤ e.code) && decide (e.code ≤ 6) && decide (e.domRuns ≤ 32)
  | .canProtocolException _ ctrl => ctrlOk ctrl
  | .canTxComplete _ ctrl buf _ => ctrlOk ctrl && decide (buf < 3)
  | .canRecoveryDone _ ctrl => ctrlOk ctrl
  | .canIntegrationDone _ ctrl => ctrlOk ctrl
  | .txdTimeout _ ctrl => ctrlOk ctrl
  | .trxFault _ group => decide (group < 6)
  | .canTxPush _ ctrl _ => ctrlOk ctrl
  | .canRxPop _ ctrl fifo => ctrlOk ctrl && decide (fifo < 3)
  | .canTxcPop _ ctrl => ctrlOk ctrl
  | .canCtrlNone _ ctrl _ retry => ctrlOk ctrl && decide (retry < 32)
  | .canRecover _ ctrl _ retry => ctrlOk ctrl && decide (retry < 32)
  | .canFlush _ ctrl _ retry intx => ctrlOk ctrl && decide (retry < 32) && intx.all fun b => decide (b < 3)
  | .canClear _ ctrl _ retry => ctrlOk ctrl && decide (retry < 32)
  | .canHeartbeatSend _ => true
  | .ethLinkChange _ port _ speed => decide (port < 4) && decide (speed < 4)
  | .ethCmdClear _ port => decide (port < 4)
  | .trendStoppedSend _ => true
  | .tlsConnect _ path => decide (1 ≤ path) && pathOk path
  | .tlsClose _ path => decide (1 ≤ path) && pathOk path
  | .mgmtRead _ path q => decide (1 ≤ path) && pathOk path && decide (q.op < 4294967296 ∧ q.op ≠ 2)
  | .mgmtWrite _ path _ _ => decide (1 ≤ path) && pathOk path
  | .arpIcmpRequest _ port _ _ => decide (port < 4)
  | .serRxLost _ port => decide (port < 2)
  | .serCmdClear _ port => decide (port < 2)
  | .recordCommit _ => true
  | .overrunRecord _ => true
  | .recFreeze _ => true
  | .recThaw _ => true
  | .freezeExpire _ => true
  | .recRead _ => true
  | .recToken _ => true
  | .recClear _ => true
  | .tokenExpire _ => true
  | .recCapTrig _ index => decide (index < 8)
  | .recArm _ index => decide (index < 8)
  | .recDisarm _ index => decide (index < 8)
  | .recClearFlags _ => true
  | .captureEnd _ index => decide (index < 8)
  | .recRateRead _ path => pathOk path
  | .flashFail _ reason => decide (reason < 256)
  | .mramFail _ => true
  | .blockRetire _ _ _ => true
  | .segmentErase _ _ => true
  | .recorderReady _ _ _ => true
  | .cfgOpen _ path => pathOk path
  | .cfgClose _ path => pathOk path
  | .cfgChpw _ path => pathOk path
  | .cfgCommit _ c => pathOk c.path
  | .cfgDiscard _ path => pathOk path
  | .cfgAcctSet _ path => pathOk path
  | .cfgAcctDel _ path => pathOk path
  | .cfgKick _ path => pathOk path
  | .cfgUnlock _ path => pathOk path
  | .cfgConfirm _ path _ => pathOk path
  | .lockoutExpire _ account => decide (account < 16)
  | .sessionTimeout _ path => pathOk path
  | .confirmWindowExpire _ => true
  | .configFlashWrite _ _ => true
  | .gotoStandby _ => true
  | .gotoConfig _ => true
  | .gotoRun _ => true
  | .gotoSafe _ => true
  | .nodeResetCmd _ => true
  | .rstNAssert _ => true
  | .powerUp _ feedA feedB => feedA || feedB
  | .startupPhaseEnd _ lanesOk _ _ => decide (lanesOk < 8)
  | .rankSelftestDone _ rank code => rankOk rank && decide (code < 16)
  | .rankEnableWrite _ _ => true
  | .feedLost _ _ => true
  | .feedPresent _ _ => true
  | .shutdown _ => true
  | .hwdogExpire _ => true
  | .nodeKick _ => true
  | .trxFltClear _ group => decide (group < 6)
  | .rstNRelease _ => true

end Sys2Proof
end

