-- ==== Sys2Proof/Safety.lean ====
section
/-! DEFINITION. The terms the statements use: a command that completes, what it leaves beside what it names, how a host's
command write is accepted, and the canonical form of the machine's memory. -/

namespace Sys2Proof

open Machine

/-- Command c, run in s, answers a next state of which P holds. -/
def Yields (c : Instr) (s : State) (P : State → Prop) : Prop := ∃ u, exec c s = .next u ∧ P u

/-- Everything of the machine but the node is as before: the shadow copies of both refreshes, the pages under HOLD, the
mirror ring and the queue. -/
def NodeOnly (s u : State) : Prop :=
  u.atB = s.atB ∧ u.atR = s.atR ∧ u.holds = s.holds ∧ u.bar2 = s.bar2 ∧ u.pending = s.pending

/-- The node at the instant t of an event, before the event acts. -/
def atInstant (s : State) (t : Nat) : Node := { s.node with now := max s.node.now t, outs := [] }

/-- Command c, run in s at its instant t, answers a next state; it changes the node alone, and P holds of the node at the
instant and of the node after. -/
def Acts (c : Instr) (s : State) (t : Nat) (P : Node → Node → Prop) : Prop :=
  Yields c s (fun u => NodeOnly s u ∧ P (atInstant s t) u.node)

/-- The node u differs from v in its MSI-X vectors and in what left it, and in nothing else. -/
def SameButSignals (u v : Node) : Prop := u = { v with vectors := u.vectors, outs := u.outs }

/-- The node u differs from v in its signals and in what a record may change, and in nothing else: the recorder, the change
log, the interrupts that wait (a capture that a discard aborts), the REC page's header and the bound of the power-fail
commit (15 R347 to R363). -/
def SameButRecords (u v : Node) : Prop :=
  SameButSignals u { v with
    rec_ := u.rec_, config := { v.config with log := u.config.log }, dueB := u.dueB, headers := u.headers,
    power := { v.power with sure := u.power.sure } } ∧
  ∀ p, p ≠ 6 → headerOf u p = headerOf v p

/-- The event sets bit b of the page's IRQ_STAT and counts in its DSEQ (02 R46); nothing else of the header changes. -/
def Raised (n u : Node) (p b : Nat) : Prop :=
  headerOf u p = { headerOf n p with
    irqStat := (headerOf n p).irqStat ||| BitVec.ofNat 32 (2 ^ b), dseq := (headerOf n p).dseq + 1 }

/-- The node with a command write accepted (02 R44) that will end as `result` says; nothing of the command's own effect. -/
def accepted (n : Node) (path p off : Nat) (v : Word) (result : Option Bool) : Node :=
  resolveCmd (acceptCmd n path p off v) p result

/-- The node with a command write accepted whose act, with the parameters of the write, waits for the boundary of the first
frame that follows by at least 5 us (02 R45). -/
def deferred (n : Node) (path p off : Nat) (v : Word) (a : LaneAct) : Node :=
  { byLanes (accepted n path p off v none) p with acts := n.acts ++ [{ due := n.now + 5000, page := p, act := a }] }

/-- Memory in its canonical form: addresses strictly rising, no entry equal to what an unlisted address reads as; and a
page under HOLD is a page with shadow words (02 R50). -/
def Inv (s : State) : Prop :=
  memWf s.bar2 = true ∧ ∀ p, (tget none s.holds p).isSome → hasShadow p = true

end Sys2Proof
end

