-- ==== Sys2Proof/Certificates/Slice0/Obligations.lean ====
section
/-! DEFINITION. The statements for the provers, by family of commands. `t` is the instant of a command; what a statement
leaves unsaid of the node it says with `SameButSignals`: every field but those named stands. -/

open Sys2Proof Sys2Proof.Machine

/-! The queue, reset, and the machine as a whole -/

/-- A step runs the command at the front of the queue on the machine with the queue's rest; on an empty queue the block
idles, the model's choice (log entry 8). -/
def Obligations.StepRunsFront : Prop :=
  (∀ (c : Instr) (r : List Instr) (s : State), step { s with pending := c :: r } = exec c { s with pending := r }) ∧
  ∀ s : State, s.pending = [] → step s = .next s

/-- Every command of the table answers a next state, in every state and with every operand: no fault and no refusal; the
commands that wait keep their places. -/
def Obligations.EveryCommandCompletes : Prop :=
  ∀ (c : Instr) (s : State), Yields c s (fun u => u.pending = s.pending)

/-- What reset leaves (00 R12): INIT in phase 1, no command waiting, every register at the value of its Reset column,
ECHO, HSEQ, DSEQ and the interrupts of every page 0, every page unlocked, every vector masked, the lanes in NONE, no
session. That every register the spec marks "x" reads as `regInit` gives it is the model's choice (log entry 4), and so
is that every vector is masked (log entry 83). -/
def Obligations.ResetValues : Prop :=
  State.reset.pending = [] ∧ State.reset.node.nodeSt.state = .init ∧ State.reset.node.nodeSt.phase = 1 ∧
  (∀ k, reg State.reset.node k = regInit k) ∧
  (∀ p, (headerOf State.reset.node p).dseq = 0 ∧ (headerOf State.reset.node p).irqStat = 0 ∧
    (headerOf State.reset.node p).irqEn = 0 ∧ (headerOf State.reset.node p).locked = false) ∧
  (∀ path p, seqOf State.reset.node path p = {}) ∧
  (∀ v, (vectorOf State.reset.node v).masked = true) ∧
  State.reset.node.laneSt.state = 3 ∧ (∀ path, sessionOf State.reset.node path = none)

/-- The machine right after reset meets the invariant. -/
def Obligations.ResetInv : Prop := Inv State.reset

/-- Every step keeps the invariant: the mirror ring's memory in its canonical form, and HOLD only on pages with shadow
words (02 R50). -/
def Obligations.StepKeepsInv : Prop := ∀ s u : State, Inv s → step s = .next u → Inv u

/-- Commands that can reset the node (17 R395, Table 17.3). -/
def Sys2Proof.mayReset : Instr → Bool
  | .hostRegisterWrite _ off _ => off == 0x54
  | .mgmtWrite _ _ off _ => off == 0x54
  | .nodeResetCmd _ | .rstNAssert _ | .rstNRelease _ | .perstNAssert _ | .powerUp _ _ _ | .feedPresent _ _
  | .shutdown _ => true
  | _ => false

/-- Node resets apart, the shadow words that are refreshed at B change at a voted boundary only, those refreshed at
RESULT_READY at a RESULT_READY only (02 R50), and the mirror ring at the writing of a block only (02 R51). -/
def Obligations.ShadowsChangeAtTheirRefresh : Prop :=
  ∀ (c : Instr) (s u : State), exec c s = .next u → mayReset c = false →
    (u.atB = s.atB ∨ ∃ t inp, c = .votedBoundary t inp) ∧ (u.atR = s.atR ∨ ∃ t, c = .resultReady t) ∧
    (u.bar2 = s.bar2 ∨ ∃ t, c = .mirrorBlockWrite t)

/-! The host interface (02) -/

/-- At each voted boundary every shadow word refreshed there shows the node as the boundary leaves it; the other copy
and the mirror ring stand; a page under HOLD freezes the first copy it is given and keeps it, and a page released from
HOLD shows the refreshed words again (02 R50). -/
def Obligations.BoundaryRefreshes : Prop :=
  ∀ (t : Nat) (inp : BoundaryIn) (s : State), Yields (.votedBoundary t inp) s (fun u =>
    SameButSignals u.node u.atB ∧ u.atR = s.atR ∧ u.bar2 = s.bar2 ∧ u.pending = s.pending ∧
    u.node.laneSt.bDone = true ∧ u.node.bAt = max s.node.now t ∧
    (∀ p, tget none s.holds p = none → tget none u.holds p = none) ∧
    ∀ p h, tget none s.holds p = some h →
      (h.held = true → h.bDue = true → tget none u.holds p = some { h with b := some u.atB, bDue := false }) ∧
      (h.held = true → h.bDue = false → tget none u.holds p = some h) ∧
      (h.held = false → h.bDue = true →
        tget none u.holds p = if h.r.isNone then none else some { h with b := none }))

/-- RESULT_READY: where the frame's vote is resolved and the lanes hold equal result images, the words refreshed there
show the node as it is then, and the event comes but once a frame; where the frame has no RESULT_READY they keep their
values (02 R50). -/
def Obligations.ReadyRefreshes : Prop :=
  ∀ (t : Nat) (s : State), Yields (.resultReady t) s (fun u =>
    u.atB = s.atB ∧ u.bar2 = s.bar2 ∧ u.pending = s.pending ∧
    (publishable s.node = true → SameButSignals u.node u.atR ∧ u.node.laneSt.ready = true ∧
      u.node.resHead.frame = s.node.frame ∧ u.node.resHead.sample = s.node.sampleT ∧
      u.node.resHead.period = s.node.period) ∧
    (publishable s.node = false → u.atR = s.atR ∧ u.holds = s.holds ∧ SameButSignals u.node (atInstant s t)))

/-- The order of the checks of a command write (02 R44): a duplicate has no effect at all; a sequence number out of
order is refused with SEQ whatever else holds; then LOCKED, BUSY, MP, the code (VALUE), STATE, LEVEL and VALUE, in that
order; what passes all of them is accepted. STATE also refuses while the lanes are in NONE, on pages without MP_DEP
other than LANE, MGT and NODE (11 R261). An accepted command write (02 R44): ECHO takes HSEQ and CMD_RES is ACCEPTED on
the command's path, the page is BUSY with the command written; of a session only the restart of its timeout; every other
page and path stands. A command write does what its judgement says: a duplicate nothing; a refusal sets CMD_RES of its
path to the code and leaves ECHO; what is accepted has its effect after the marks of acceptance. -/
def Obligations.CommandsAreJudged : Prop :=
  (∀ (n : Node) (path p : Nat) (c : CmdCheck),
     let q := seqOf n path p
     let stateBad := c.state = false ∨ (n.laneSt.state = 3 ∧ mpDep p = false ∧ p ≠ 0 ∧ p ≠ 3 ∧ p ≠ 0x0C)
     let mpBad := (mpDep p = true ∧ n.mgt.state ≠ .run) ∨ c.mp = false
     (judge n path p c = .duplicate ↔ q.hseq = q.echo) ∧
     (q.hseq ≠ q.echo → q.hseq ≠ q.echo + 1 → judge n path p c = .refuse 7) ∧
     (q.hseq = q.echo + 1 →
       ((headerOf n p).locked = true → judge n path p c = .refuse 8) ∧
       ((headerOf n p).locked = false → (cmdOf n p).isSome = true → judge n path p c = .refuse 3) ∧
       ((headerOf n p).locked = false → cmdOf n p = none →
         (mpBad → judge n path p c = .refuse 6) ∧
         (¬ mpBad → c.code = false → judge n path p c = .refuse 9) ∧
         (¬ mpBad → c.code = true → stateBad → judge n path p c = .refuse 4) ∧
         (¬ mpBad → c.code = true → ¬ stateBad → c.level = false → judge n path p c = .refuse 5) ∧
         (¬ mpBad → c.code = true → ¬ stateBad → c.level = true → c.value = false → judge n path p c = .refuse 9) ∧
         (¬ mpBad → c.code = true → ¬ stateBad → c.level = true → c.value = true → judge n path p c = .accept)))) ∧
  (∀ (n : Node) (path p off : Nat) (v : Word) (res : Option Bool),
     let u := accepted n path p off v res
     u = { n with seqs := u.seqs, cmds := u.cmds, config := { n.config with sessions := u.config.sessions } } ∧
     seqOf u path p = { seqOf n path p with echo := (seqOf n path p).hseq, cmdRes := 1 } ∧
     (∀ k, k ≠ p + 256 * path → tget {} u.seqs k = tget {} n.seqs k) ∧
     cmdOf u p = some { path := path, off := off, value := v, hseq := (seqOf n path p).hseq, result := res } ∧
     (∀ q, q ≠ p → cmdOf u q = cmdOf n q) ∧
     (∀ q, sessionOf u q = (sessionOf n q).map (fun x => if q = path then { x with last := n.now } else x))) ∧
  (∀ (n : Node) (path p off : Nat) (v : Word) (c : CmdCheck) (eff : Node → Node × Option Bool),
     let u := runCommand n path p off v c eff
     (judge n path p c = .duplicate → u = n) ∧
     (∀ code, judge n path p c = .refuse code → u = { n with seqs := u.seqs } ∧
       seqOf u path p = { seqOf n path p with cmdRes := code } ∧
       ∀ k, k ≠ p + 256 * path → tget {} u.seqs k = tget {} n.seqs k) ∧
     (judge n path p c = .accept →
       u = resolveCmd (eff (acceptCmd n path p off v)).1 p (eff (acceptCmd n path p off v)).2))

/-- Header writes: LOCK takes bit 0 with the key 0x4C4B and has no effect with any other (02 R42); a 1 written to a bit
of IRQ_STAT clears it and a 0 leaves it (00 R11); IRQ_EN takes the value written; a page without the register ignores
the write. Nothing else of the node changes, other pages' headers among it, but for the messages of the vectors. A bad
access (02 R38): counted, captured where no earlier one is, BADACC set and counted in DSEQ; a bad read returns
0xFFFFFFFF, a bad write is discarded: no register and no byte of the mirror ring changes. -/
def Obligations.HeaderWritesAndBadAccesses : Prop :=
  (∀ (t p : Nat) (v : Word) (s : State),
     Acts (.lockWrite t p v) s t (fun n u => SameButSignals u { n with headers := u.headers } ∧
       (∀ q, q ≠ p → headerOf u q = headerOf n q) ∧
       (hasLock p = true → fld v 31 16 = 0x4C4B → headerOf u p = { headerOf n p with locked := v.getLsbD 0 }) ∧
       (hasLock p = false ∨ fld v 31 16 ≠ 0x4C4B → headerOf u p = headerOf n p)) ∧
     Acts (.irqStatClear t p v) s t (fun n u => SameButSignals u { n with headers := u.headers } ∧
       (∀ q, q ≠ p → headerOf u q = headerOf n q) ∧
       headerOf u p = { headerOf n p with irqStat := (headerOf u p).irqStat } ∧
       (∀ i, (headerOf u p).irqStat.getLsbD i =
         ((headerOf n p).irqStat.getLsbD i && !(hasIrq p && v.getLsbD i)))) ∧
     Acts (.irqEnWrite t p v) s t (fun n u => SameButSignals u { n with headers := u.headers } ∧
       (∀ q, q ≠ p → headerOf u q = headerOf n q) ∧
       headerOf u p = { headerOf n p with irqEn := if hasIrq p then v else (headerOf n p).irqEn })) ∧
  (∀ (t : Nat) (bar2 wr : Bool) (addr : Nat) (s : State), Acts (.badAccess t bar2 wr addr) s t (fun n u =>
     SameButSignals u { n with mgt := u.mgt, headers := u.headers } ∧
     u.mgt = { n.mgt with badAcc := u.mgt.badAcc, badCnt := min 65535 (n.mgt.badCnt + 1) } ∧
     (bit n.mgt.badAcc 31 = true → u.mgt.badAcc = n.mgt.badAcc) ∧
     (bit n.mgt.badAcc 31 = false →
       u.mgt.badAcc = pack [(1, 31, 1), (b2n bar2, 30, 1), (b2n wr, 29, 1), (addr, 0, 26)]) ∧
     (∀ p, p ≠ 0x0C → headerOf u p = headerOf n p) ∧ Raised n u 0x0C 3 ∧ (wr = false → .read 0xFFFFFFFF ∈ u.outs)))

/-- A vector's entry of the MSI-X table and its mask (02 R40): the entry takes the address and the data written; masking
sends nothing; on unmasking, a vector whose PBA bit is 1 sends its message where its condition is still 1, and its PBA
bit is 0 after; nothing but the vector changes, whatever else stood. The vectors' states are settled at every event, so
the statement is about a state in which each vector has seen its condition. -/
def Obligations.UnmaskSendsWhatStillStands : Prop :=
  ∀ (t v addr : Nat) (data : Word) (s : State), v < 64 → (∀ k, k < 64 → (vectorOf s.node k).cond = condition s.node k) →
    (∀ m, Acts (.msixUnmask t v { mask := m, addr := addr, data := data }) s t (fun n u =>
      SameButSignals u n ∧ (∀ k, k ≠ v → vectorOf u k = vectorOf n k) ∧ (vectorOf u v).masked = m ∧
      (vectorOf u v).addr = addr % 2 ^ 64 ∧ (vectorOf u v).data = data)) ∧
    Acts (.msixUnmask t v { mask := true, addr := addr, data := data }) s t (fun n u =>
      (vectorOf u v).pending = (vectorOf n v).pending ∧ u.outs = []) ∧
    Acts (.msixUnmask t v { addr := addr, data := data }) s t (fun n u =>
      (vectorOf u v).pending = false ∧
      u.outs = (if (vectorOf n v).masked && (vectorOf n v).pending && condition n v then [.msix v] else []))

/-- The 64-bit pairs (02 R49): a read of a low word captures the high half, and the next read of the high word returns
what was captured; a low-word write goes into the holding register and changes nothing else; a high-word write puts both
halves into effect together, the low half being the one held, or the one in effect where none is held, and on a locked
page either write is discarded with CMD_RES LOCKED (02 R42). -/
def Obligations.PairsReadAndWriteWhole : Prop :=
  ∀ (t p o : Nat) (v : Word) (s : State), o + 4 < 4096 →
    (o % 4 = 0 → lowWord p o = true →
      Acts (.pairLowRead t (at_ p o)) s t (fun n u => SameButSignals u { n with readHold := u.readHold } ∧
        .read (readWord { s with node := n } hostPath (at_ p o)) ∈ u.outs) ∧
      Yields (.pairLowRead t (at_ p o)) s (fun u =>
        readWord u hostPath (at_ p (o + 4)) =
          liveRead { s with node := atInstant s t } hostPath (at_ p (o + 4)))) ∧
    (pairLow p o = true →
      ((headerOf s.node p).locked = false → Acts (.pairLowWrite t (at_ p o) v) s t (fun n u =>
        SameButSignals u { n with writeHold := u.writeHold } ∧
        tget none u.writeHold (at_ p o) = some (maskAt p o v))) ∧
      ((headerOf s.node p).locked = true → Acts (.pairLowWrite t (at_ p o) v) s t (fun n u =>
        SameButSignals u { n with seqs := u.seqs } ∧
        seqOf u hostPath p = { seqOf n hostPath p with cmdRes := 8 }))) ∧
    (pairHigh p o = true →
      ((headerOf s.node p).locked = false → Acts (.pairHighWrite t (at_ p o) v) s t (fun n u =>
        SameButSignals u { n with regs := u.regs, writeHold := u.writeHold } ∧
        reg u (at_ p o) = maskAt p o v ∧
        reg u (at_ p (o - 4)) = (tget none n.writeHold (at_ p (o - 4))).getD (reg n (at_ p (o - 4))) ∧
        (∀ k, k ≠ at_ p o → k ≠ at_ p (o - 4) → reg u k = reg n k) ∧
        tget none u.writeHold (at_ p (o - 4)) = none)) ∧
      ((headerOf s.node p).locked = true → Acts (.pairHighWrite t (at_ p o) v) s t (fun n u =>
        SameButSignals u { n with seqs := u.seqs } ∧
        seqOf u hostPath p = { seqOf n hostPath p with cmdRes := 8 })))

/-- A page released from HOLD: what it froze stands until the next refresh instant of each copy. -/
def Sys2Proof.released (h : HoldSt) : Option HoldSt :=
  if h.b.isNone && h.r.isNone then none else some { h with held := false, bDue := true, rDue := true }

/-- HOLD (02 R50): PAGE_CTRL.HOLD = 1 on a page with shadow words puts it under HOLD, and leaves a page already under
HOLD as it is; HOLD = 0 releases it, and what it froze stands until the next refresh; a page without shadow words is
never held, and reserved pages and the LGC page ignore the write; a HOLD that has stood for 256 F is released by the
node, which sets HOLD_EXP, and one that has not stands. -/
def Obligations.HoldFreezesAndExpires : Prop :=
  ∀ (t p : Nat) (v : Word) (s : State),
    Yields (.holdWrite t p v) s (fun u =>
      u.atB = s.atB ∧ u.atR = s.atR ∧ u.bar2 = s.bar2 ∧ u.pending = s.pending ∧
      SameButSignals u.node { atInstant s t with headers := u.node.headers } ∧
      (∀ q, q ≠ p → tget none u.holds q = tget none s.holds q ∧ headerOf u.node q = headerOf s.node q) ∧
      (blockOf p = 0 ∨ p = 0x0B →
        tget none u.holds p = tget none s.holds p ∧ headerOf u.node p = headerOf s.node p) ∧
      (hasShadow p = true → v.getLsbD 0 = true → bit (headerOf u.node p).ctrl 0 = true ∧
        (tget none s.holds p = none → tget none u.holds p = some { since := max s.node.now t }) ∧
        ∀ h, tget none s.holds p = some h →
          tget none u.holds p = some (if h.held then h else { h with held := true, since := max s.node.now t })) ∧
      (blockOf p ≠ 0 → p ≠ 0x0B → hasShadow p = false ∨ v.getLsbD 0 = false →
        bit (headerOf u.node p).ctrl 0 = false ∧ tget none u.holds p = (tget none s.holds p).bind released)) ∧
    Yields (.holdExpire t p) s (fun u =>
      u.atB = s.atB ∧ u.atR = s.atR ∧ u.bar2 = s.bar2 ∧ u.pending = s.pending ∧
      SameButSignals u.node { atInstant s t with headers := u.node.headers } ∧
      (∀ q, q ≠ p → tget none u.holds q = tget none s.holds q ∧ headerOf u.node q = headerOf s.node q) ∧
      (∀ h, tget none s.holds p = some h →
        (h.held = true → h.since + 256 * s.node.period ≤ max s.node.now t →
          tget none u.holds p = released h ∧ (headerOf u.node p).holdExp = true ∧ bit (headerOf u.node p).ctrl 0 = false) ∧
        (h.held = false ∨ max s.node.now t < h.since + 256 * s.node.period →
          u.holds = s.holds ∧ headerOf u.node p = headerOf s.node p)))

/-- The end of a command (02 R44 to R46): where its outcome is decided and its earliest end has come, a command that no
boundary took up ends, and one that a boundary took up ends once a RESULT_READY has shown what it did, or at the bound
of 3 F; then the page is no longer BUSY, CMD_RES of the command's path is DONE or FAILED, CMD_DONE is set and adds 1 to
DSEQ, and no register changes. Before that, nothing does. -/
def Obligations.CommandEndPosts : Prop :=
  ∀ (t p : Nat) (c : Command) (s : State), cmdOf s.node p = some c →
    let due := c.notBefore ≤ max s.node.now t ∧
      (c.lanes = false ∨ c.shown = true ∨ c.since + 3 * s.node.period ≤ max s.node.now t)
    (c.result = none ∨ ¬ due → Acts (.commandEnd t p) s t (fun n u => SameButSignals u n)) ∧
    ∀ ok, c.result = some ok → due → Acts (.commandEnd t p) s t (fun n u =>
      cmdOf u p = none ∧ (∀ q, q ≠ p → cmdOf u q = cmdOf n q) ∧
      (∀ k, k ≠ p + 256 * c.path → tget {} u.seqs k = tget {} n.seqs k) ∧
      seqOf u c.path p = { seqOf n c.path p with cmdRes := if ok then 2 else 10 } ∧
      bit (headerOf u p).irqStat 31 = true ∧
      (p ≠ 5 → p ≠ 6 → Raised n u p 31 ∧ ∀ q, q ≠ p → q ≠ 6 → headerOf u q = headerOf n q) ∧ u.regs = n.regs)

/-! The management processor, the mirror and management connections (01, 02, 16) -/

/-- The management processor's stops and returns (01 R19, 02 R57): leaving RUN ends every session and every management
connection, invalidates the recorder's read buffer and drops what was staged for an image not confirmed; a reset counts
in RESTARTS; no register changes. A restart that has come to BOOT shows it and changes nothing else; its return to RUN
sets the shed level to SHED_MIN. The shed level (02 R55): above 90 percent it rises by one, at most once per 100 ms, no
further than 6; after 1 s at or below 70 percent it falls by one, never below SHED_MIN; a change sets SHED_CHG. A read
of MGT_LOAD returns the load and begins PEAK afresh; while the processor does not run, the load keeps its last value (01
R18). BADCLR clears the bad-access capture and count. -/
def Obligations.ProcessorStopsAndSheds : Prop :=
  (∀ (t : Nat) (b : Bool) (s : State),
     (∀ wdog c, c = (if wdog then Instr.mpWatchdogExpire t else .mpStop t) → s.node.mgt.state = .run →
       Acts c s t (fun n u =>
         u.mgt.state = (if wdog then .resetting else .stopped) ∧ u.mgt.wdog = wdog ∧
         u.mgt.restarts = (if wdog then min 65535 (n.mgt.restarts + 1) else n.mgt.restarts) ∧
         (∀ path, path < 5 → sessionOf u path = none) ∧ u.config.tls = [] ∧ u.rec_.rdValid = false ∧
         (n.config.pend = none → u.staged = []) ∧ u.mirror = n.mirror ∧
         bit (headerOf u 0x0C).irqStat 0 = true ∧ (headerOf u 0x0C).dseq = (headerOf n 0x0C).dseq + 1 ∧ u.regs = n.regs)) ∧
     (s.node.mgt.state ≠ .run → Acts (.mpStop t) s t (fun n u => SameButSignals u n)) ∧
     (judge (atInstant s t) hostPath 0x0C { state := inStates s.node 30 } = .accept →
       Acts (.mgtMpreset t) s t (fun n u =>
         u.seqs = (accepted n hostPath 0x0C (at_ 0x0C 0x6C) 0x4D500000 (some true)).seqs ∧
         (∀ q, q ≠ 5 → q ≠ 6 →
           cmdOf u q = cmdOf (accepted n hostPath 0x0C (at_ 0x0C 0x6C) 0x4D500000 (some true)) q) ∧
         u.mgt.state = .resetting ∧ u.mgt.wdog = false ∧ u.mgt.restarts = min 65535 (n.mgt.restarts + 1) ∧
         (∀ path, path < 5 → sessionOf u path = none) ∧ u.regs = n.regs)) ∧
     (s.node.mgt.state ≠ .run → Acts (.mpRestartDone { t := t, booting := true }) s t (fun n u =>
         SameButSignals u { n with mgt := u.mgt } ∧ u.mgt.state = .boot ∧ u.mgt.shed = n.mgt.shed ∧
         u.mgt.restarts = (if n.mgt.state = .stopped then min 65535 (n.mgt.restarts + 1) else n.mgt.restarts))) ∧
     (s.node.mgt.state ≠ .run → Acts (.mpRestartDone { t := t }) s t (fun n u =>
         u.mgt.state = .run ∧ u.mgt.shed = shedMin n ∧ bit (headerOf u 0x0C).irqStat 1 = true ∧ u.regs = n.regs ∧
         u.config.sessions = n.config.sessions ∧ u.staged = n.staged)) ∧
     (s.node.mgt.state = .run → Acts (.mpRestartDone { t := t, booting := b }) s t (fun n u => SameButSignals u n))) ∧
  (∀ (t load dram : Nat) (s : State), load ≤ 100 →
     (s.node.mgt.state = .run → 90 < load → s.node.mgt.shed < 6 →
       (∀ r, s.node.mgt.lastRaise = some r → r + 100000000 ≤ max s.node.now t) →
       Acts (.shedRaise t load) s t (fun n u => u.mgt.shed = n.mgt.shed + 1 ∧ u.mgt.load = load ∧
         u.mgt.lastRaise = some n.now ∧ bit (headerOf u 0x0C).irqStat 2 = true ∧ u.regs = n.regs)) ∧
     (load ≤ 90 ∨ s.node.mgt.state ≠ .run ∨ 6 ≤ s.node.mgt.shed → Acts (.shedRaise t load) s t (fun n u =>
       SameButSignals u { n with mgt := u.mgt } ∧ u.mgt.shed = n.mgt.shed ∧
       u.mgt.load = (if n.mgt.state = .run then load else n.mgt.load))) ∧
     (s.node.mgt.state = .run → load ≤ 70 → shedMin s.node < s.node.mgt.shed →
       (∃ r, s.node.mgt.lowSince = some r ∧ r + 1000000000 ≤ max s.node.now t) →
       Acts (.shedLower t load) s t (fun n u => u.mgt.shed = n.mgt.shed - 1 ∧ u.mgt.load = load ∧
         bit (headerOf u 0x0C).irqStat 2 = true ∧ u.regs = n.regs)) ∧
     (70 < load ∨ s.node.mgt.state ≠ .run ∨ s.node.mgt.shed ≤ shedMin s.node ∨
         (∀ r, s.node.mgt.lowSince = some r → max s.node.now t < r + 1000000000) →
       Acts (.shedLower t load) s t (fun n u => SameButSignals u { n with mgt := u.mgt } ∧ u.mgt.shed = n.mgt.shed)) ∧
     (s.node.mgt.state = .run → Acts (.mgtLoadRead t load dram) s t (fun n u =>
       SameButSignals u { n with mgt := u.mgt } ∧ u.mgt.load = load ∧ u.mgt.peak = load ∧ u.mgt.dram = min 100 dram ∧
       u.mgt.shed = n.mgt.shed ∧
       .read (pack [(n.mgt.shed, 24, 3), (min 100 dram, 16, 8), (max n.mgt.peak load, 8, 8), (load, 0, 8)]) ∈ u.outs)) ∧
     (s.node.mgt.state ≠ .run → Acts (.mgtLoadRead t load dram) s t (fun n u =>
       SameButSignals u { n with mgt := { n.mgt with peak := n.mgt.load } } ∧
       .read (pack [(n.mgt.shed, 24, 3), (n.mgt.dram, 16, 8), (n.mgt.peak, 8, 8), (n.mgt.load, 0, 8)]) ∈ u.outs)) ∧
     (judge (atInstant s t) hostPath 0x0C { state := inStates s.node 30 } = .accept →
       Acts (.mgtBadclr t) s t (fun n u => SameButSignals u
         { accepted n hostPath 0x0C (at_ 0x0C 0x6C) 1 (some true) with mgt := { n.mgt with badAcc := 0, badCnt := 0 } })))

/-- The result mirror (02 R51 to R53): while the management processor runs and results have been published whose block
the ring does not hold yet, the block is written, its 4096 bytes at frame mod 1024 blocks: FRAME_HEAD and FRAME_TAIL
both the frame's number, S, F, the flags with the lane state and GAP, every channel's value, status and delay, ACTIVE of
every point, and zeros between; every other byte of the ring as before, and MGT_MIRR_HEAD names it. Otherwise nothing
changes. The PCI Express link (02 R34): no function of the node depends on it. Losing it changes the link alone; its
return changes the link and what the host has written into the endpoint's configuration space, the error registers
apart. -/
def Obligations.MirrorBlocks : Prop :=
  (∀ (t : Nat) (s : State),
     let h := s.atR.resHead
     let due := s.node.mgt.state = .run ∧ h.period ≠ 0 ∧ s.node.mirror.last ≠ some h.frame
     (due → Yields (.mirrorBlockWrite t) s (fun u =>
       let base := (h.frame % 1024) * 4096
       let gap := s.node.mirror.gap || mirrorMiss s.node h.frame
       u.atB = s.atB ∧ u.atR = s.atR ∧ u.holds = s.holds ∧ u.pending = s.pending ∧
       (∀ a, a < base ∨ base + 4096 ≤ a → memRead u.bar2 a = memRead s.bar2 a) ∧
       memBytes u.bar2 base 8 = bytesLE 8 h.frame ∧ memBytes u.bar2 (base + 4088) 8 = bytesLE 8 h.frame ∧
       memBytes u.bar2 (base + 8) 8 = bytesLE 8 h.sample ∧ memBytes u.bar2 (base + 16) 4 = bytesLE 4 h.period ∧
       memBytes u.bar2 (base + 20) 4 = bytesLE 4 (packN [(b2n h.active, 0, 1), (h.lanes, 1, 2), (b2n gap, 3, 1)]) ∧
       memBytes u.bar2 (base + 24) 40 = List.replicate 40 0 ∧
       (∀ c, c < 512 → memBytes u.bar2 (base + 64 + 4 * c) 4 = bytesI 4 (resOf s.atR c).val ∧
         memBytes u.bar2 (base + 2112 + c) 1 = [byteOf (resOf s.atR c).stat] ∧
         memBytes u.bar2 (base + 2624 + c) 1 = [byteOf (sat 255 ((resOf s.atR c).dly.getD h.offDly))]) ∧
       (∀ k, k < 5120 → ((memRead u.bar2 (base + 3136 + k / 8)).toNat).testBit (k % 8) = (pointOf s.atR k).active) ∧
       memBytes u.bar2 (base + 3776) 312 = List.replicate 312 0 ∧
       u.node.mirror = { s.node.mirror with head := lo32 h.frame, last := some h.frame, gap := false } ∧
       SameButSignals u.node { atInstant s t with mirror := u.node.mirror, headers := u.node.headers } ∧
       (gap = true → Raised (atInstant s t) u.node 0x0C 4) ∧ (gap = false → u.node.headers = s.node.headers))) ∧
     (¬ due → Acts (.mirrorBlockWrite t) s t (fun n u => SameButSignals u n))) ∧
  (∀ (t : Nat) (cfg : Endpoint) (s : State),
     Acts (.pcieLinkLoss t) s t (fun n u => SameButSignals u { n with mirror := { n.mirror with linkUp := false } }) ∧
     Acts (.pcieLinkReturn t cfg) s t (fun n u => SameButSignals u { n with
       mirror := { n.mirror with linkUp := true },
       endpoint := { cfg with aerUnc := n.endpoint.aerUnc, aerCor := n.endpoint.aerCor } }))

/-- A register write on a path: the host link's, or a management connection's (16 R375). -/
def Sys2Proof.writeOn (path t off : Nat) (v : Word) : Instr :=
  if path = 0 then .hostRegisterWrite t off v else .mgmtWrite t path off v

/-- The path carries a write to the registers: the host link always, a connection that stands with a session (16 R372). -/
def Sys2Proof.carries (n : Node) (path : Nat) : Prop :=
  path = 0 ∨ (mgmtUp n path = true ∧ (sessionOf n path).isSome = true)

/-- Writes on either path: an unaligned one is a bad access (02 R38); a reserved page or a register that no write
reaches ignores it (00 R13); SEQ_HOST takes the number of the path's next command; a plain RW register takes the
implemented bits and no other register changes; on a locked page it keeps its value and CMD_RES is LOCKED (02 R42).
Management requests (16 R372, R375): one that does not reach a serving processor changes nothing; without a session a
request answers NO_SESSION and changes nothing; a read at an unaligned offset answers 1 and 0xFFFFFFFF, an aligned one
answers 0 and the register's value, and its side effect on the holding register apart no register changes; a request
that breaks the layout of Table 16.2, with another OP or a value in a read, closes its connection. -/
def Obligations.RegisterWritesOnEveryPath : Prop :=
  (∀ (path t p o : Nat) (v : Word) (s : State), o < 4096 → carries s.node path →
     (o % 4 ≠ 0 → Acts (writeOn path t (at_ p o) v) s t (fun n u =>
       SameButSignals u { n with mgt := u.mgt, headers := u.headers } ∧ u.mgt.badCnt = min 65535 (n.mgt.badCnt + 1))) ∧
     (o % 4 = 0 → blockOf p = 0 → Acts (writeOn path t (at_ p o) v) s t (fun n u => SameButSignals u n)) ∧
     (o = 0x18 → hasSeq p = true → Acts (writeOn path t (at_ p o) v) s t (fun n u =>
       SameButSignals u { n with seqs := u.seqs } ∧ seqOf u path p = { seqOf n path p with hseq := v.setWidth 16 } ∧
       ∀ k, k ≠ p + 256 * path → tget {} u.seqs k = tget {} n.seqs k)) ∧
     (∀ r, rowAt p o = some r → r.typ = .rw → pairLow p o = false → pairHigh p o = false → 0x40 ≤ o → o % 4 = 0 →
       ¬ (0x10 ≤ p ∧ p < 0x20 ∧ 0x500 ≤ o ∧ o < 0x580) → ¬ (p = 0x0C ∧ o = 0x48) →
       ((headerOf s.node p).locked = false → Acts (writeOn path t (at_ p o) v) s t (fun n u =>
         SameButSignals u { n with regs := u.regs } ∧ reg u (at_ p o) = v &&& BitVec.ofNat 32 r.mask ∧
         ∀ k, k ≠ at_ p o → reg u k = reg n k)) ∧
       ((headerOf s.node p).locked = true → Acts (writeOn path t (at_ p o) v) s t (fun n u =>
         SameButSignals u { n with seqs := u.seqs } ∧ seqOf u path p = { seqOf n path p with cmdRes := 8 })))) ∧
  (∀ (t path op off : Nat) (v : Word) (s : State),
     (mgmtUp s.node path = false → Acts (.mgmtRead t path { op := op, off := off, value := v }) s t (fun n u => SameButSignals u n) ∧
       Acts (.mgmtWrite t path off v) s t (fun n u => SameButSignals u n)) ∧
     (mgmtUp s.node path = true → op ≠ 1 ∨ v ≠ 0 → Acts (.mgmtRead t path { op := op, off := off, value := v }) s t (fun n u =>
       tget false u.config.tls path = false ∧ sessionOf u path = none ∧ u.regs = n.regs ∧
       ∀ q, q ≠ path → tget false u.config.tls q = tget false n.config.tls q ∧ sessionOf u q = sessionOf n q)) ∧
     (mgmtUp s.node path = true → sessionOf s.node path = none →
       Acts (.mgmtRead t path { off := off }) s t (fun n u => SameButSignals u n ∧ .mgmt path 2 0 ∈ u.outs) ∧
       (opensWrite off v = false → Acts (.mgmtWrite t path off v) s t (fun n u => SameButSignals u n ∧ .mgmt path 2 0 ∈ u.outs))) ∧
     (mgmtUp s.node path = true → (sessionOf s.node path).isSome = true → off % 4 ≠ 0 →
       Acts (.mgmtRead t path { off := off }) s t (fun n u => .mgmt path 1 0xFFFFFFFF ∈ u.outs ∧ u.regs = n.regs ∧
         u.mgt.badCnt = min 65535 (n.mgt.badCnt + 1))) ∧
     (mgmtUp s.node path = true → (sessionOf s.node path).isSome = true → off % 4 = 0 →
       Acts (.mgmtRead t path { off := off }) s t (fun n u =>
         .mgmt path 0 (readWord { s with node := n } path off) ∈ u.outs ∧ u.regs = n.regs ∧
         u.headers = n.headers ∧ u.seqs = n.seqs)))

/-! The frame and the lanes (01, 11) -/

/-- A sample instant begins a frame (01 R21, 03 R59): its number is node time in periods, S its instant on the grid;
nothing of the frame has happened yet; a frame that had no RESULT_READY counts in LATE outside INIT; each channel
measured that is not in OFF holds what its rank measured. No register changes. -/
def Obligations.SampleBeginsFrame : Prop :=
  ∀ (t : Nat) (chs : List ChSample) (rks : List RankSample) (s : State),
    Acts (.sampleInstant t chs rks) s t (fun n u =>
      u.frame = (taiNow n + n.period / 2) / n.period ∧ u.sampleT = u.frame * n.period ∧ u.sAt = n.now ∧
      u.laneSt.msgs = [] ∧ u.laneSt.inDone = false ∧ u.laneSt.bDone = false ∧ u.laneSt.evalDone = false ∧
      u.laneSt.voted = false ∧ u.laneSt.ready = false ∧ u.laneSt.state = n.laneSt.state ∧ u.regs = n.regs ∧
      (n.nodeSt.state ≠ .init → n.laneSt.ready = false →
        u.late = min 65535 (n.late + 1) ∧ bit (headerOf u 2).irqStat 1 = true) ∧
      (n.nodeSt.state = .init ∨ n.laneSt.ready = true → u.late = n.late) ∧
      (wellFormed (.sampleInstant t chs rks) = true → ∀ x, x ∈ chs → chnSel n x.ch ≠ 0 →
        (frontOf u x.ch).raw = x.raw ∧ (frontOf u x.ch).rb = x.rb))

/-- Errors counted on a rank's link to a lane. -/
def Sys2Proof.linkErr (r : Rank) (lane : Nat) : Nat := if lane = 0 then r.err0 else if lane = 1 then r.err1 else r.err2

/-- A rank's content is chosen in the frame (11 R249): in TMR where two voting lanes hold valid copies that are alike, in DUAL
where one holds one or both hold ones that are alike, in SINGLE where the lane holds one. `alt` lists the valid copies, lane
and rank, that differ from the others. -/
def Sys2Proof.contentChosen (n : Node) (alt : List (Nat × Nat)) (r : Nat) : Prop :=
  let ok := [0, 1, 2].filter (fun l => n.laneSt.mask.testBit l && (rankOf n r).good.testBit l)
  let same := ok.filter (fun l => !alt.contains (l, r))
  (n.laneSt.state = 0 ∧ 2 ≤ same.length) ∨ (n.laneSt.state = 1 ∧ (ok.length = 1 ∨ (2 ≤ ok.length ∧ same = ok))) ∨
  (n.laneSt.state = 2 ∧ ok ≠ [])

/-- A transfer of a powered rank to a lane (01 R15, 11 R248): taken where its CRC holds and it carries the frame's
number; otherwise rejected, counted on that link and signalled on the rank's page. An unpowered rank sends nothing. The
exchanges of the lanes (11 R249, R251, R253): the input exchange happens once a frame, outside NONE, and settles which
ranks' content can be used; before the boundary, and in INIT, it evaluates nothing, and after the boundary the frame is
evaluated with it. A message of a lane that exchanges, whose watchdog has not expired and which the others do not hold
in reset, tells that the lane lives; where it is good and of the frame it reaches its receiver, and its LSTATE carries
the sender's request. Any other message has no effect. -/
def Obligations.TransfersAndExchanges : Prop :=
  (∀ (t lane rank : Nat) (crcOk : Bool) (frame : Nat) (s : State), lane < 3 → rank < 16 →
     ((rankOf s.node rank).powered = true → Acts (.rankTransfer t lane rank crcOk frame) s t (fun n u =>
       let ok := crcOk && decide (frame = n.frame)
       SameButSignals u { n with ranks := u.ranks, headers := u.headers } ∧
       (∀ r, r ≠ rank → rankOf u r = rankOf n r) ∧ nbit (rankOf u rank).got lane = true ∧
       nbit (rankOf u rank).good lane = ok ∧ nbit (rankOf u rank).up lane = ok ∧
       (∀ l, l < 3 → linkErr (rankOf u rank) l =
         if l = lane ∧ ok = false then min 255 (linkErr (rankOf n rank) l + 1) else linkErr (rankOf n rank) l) ∧
       (ok = true → u.headers = n.headers) ∧
       (ok = false → Raised n u (0x10 + rank) 0 ∧ ∀ p, p ≠ 0x10 + rank → headerOf u p = headerOf n p))) ∧
     ((rankOf s.node rank).powered = false →
       Acts (.rankTransfer t lane rank crcOk frame) s t (fun n u => SameButSignals u n))) ∧
  (∀ (t dest : Nat) (alt : List (Nat × Nat)) (m : ExchMsg) (s : State),
     (s.node.laneSt.state = 3 → Acts (.inputExchange t alt) s t (fun n u => SameButSignals u n)) ∧
     (s.node.laneSt.inDone = true → s.node.laneSt.bDone = false ∨ s.node.laneSt.evalDone = true →
       Acts (.inputExchange t alt) s t (fun n u => SameButSignals u n)) ∧
     (s.node.laneSt.state < 3 → s.node.laneSt.inDone = false →
       (s.node.laneSt.bDone = false ∨ s.node.laneSt.evalDone = true ∨ s.node.nodeSt.state = .init) →
       Acts (.inputExchange t alt) s t (fun n u =>
         SameButSignals u { n with
           ranks := u.ranks, headers := u.headers, lanes := u.lanes, acqs := u.acqs, dueR := u.dueR,
           laneSt := { n.laneSt with inDone := true } } ∧
         (∀ r, (rankOf n r).powered = false → rankOf u r = rankOf n r) ∧
         ∀ r, (rankOf n r).powered = true → ((rankOf u r).noUse = false ↔ contentChosen n alt r))) ∧
     (s.node.laneSt.state < 3 → s.node.laneSt.inDone = false → s.node.laneSt.bDone = true →
       s.node.laneSt.evalDone = false → s.node.nodeSt.state ≠ .init → Acts (.inputExchange t alt) s t (fun n u =>
         u.laneSt = { n.laneSt with inDone := true, evalDone := true } ∧ u.frame = n.frame ∧ u.taiOff = n.taiOff)) ∧
     (dest < 3 → m.lane < 3 → dest ≠ m.lane → s.node.laneSt.state < 3 →
       ((laneOf s.node m.lane).phase = 0 ∨ (laneOf s.node m.lane).phase = 5) →
       (laneOf s.node m.lane).wdog = false → (laneOf s.node m.lane).held = false →
       (m.good = true ∧ m.frame = s.node.frame → Acts (.outputExchange t dest m) s t (fun n u =>
         SameButSignals u { n with lanes := u.lanes, laneSt := { n.laneSt with msgs := n.laneSt.msgs ++ [(dest, m)] } } ∧
         (∀ l, l ≠ m.lane → laneOf u l = laneOf n l) ∧
         let q := match (laneOf n m.lane).request, m.lstate.request with
           | some a, some b => some (min a b)
           | some a, none => some a
           | none, b => b
         laneOf u m.lane = { laneOf n m.lane with lastMsg := some n.now, request := q, carried := q.isSome })) ∧
       (m.good = false ∨ m.frame ≠ s.node.frame → Acts (.outputExchange t dest m) s t (fun n u =>
         SameButSignals u { n with lanes := u.lanes } ∧ (∀ l, l ≠ m.lane → laneOf u l = laneOf n l) ∧
         laneOf u m.lane = { laneOf n m.lane with lastMsg := some n.now }))) ∧
     (3 ≤ dest ∨ 3 ≤ m.lane ∨ dest = m.lane ∨ s.node.laneSt.state = 3 ∨
       ((laneOf s.node m.lane).phase ≠ 0 ∧ (laneOf s.node m.lane).phase ≠ 5) ∨ (laneOf s.node m.lane).wdog = true ∨
       (laneOf s.node m.lane).held = true → Acts (.outputExchange t dest m) s t (fun n u => SameButSignals u n)))

/-- The vote (11 R253 to R259): it happens once a frame; in NONE there is none, no link carries a message, so that a
link goes down at the second such frame, and the frame's lane records are discarded. Where the frame has been evaluated,
it is resolved exactly where the messages received resolve it, an unresolved frame is counted, and the lanes' next state
is named or all of them reset. -/
def Obligations.VoteOncePerFrame : Prop :=
  ∀ (t : Nat) (image0 image1 image2 : Word) (sliceMiss : Bool) (s : State),
    (s.node.laneSt.voted = true → Acts (.dovetailVote t image0 image1 image2 sliceMiss) s t (fun n u => SameButSignals u n)) ∧
    (s.node.laneSt.voted = false → s.node.laneSt.state = 3 →
      Acts (.dovetailVote t image0 image1 image2 sliceMiss) s t (fun n u =>
        u.laneSt = (if n.nodeSt.phase = 1 then { n.laneSt with voted := true } else { n.laneSt with
          voted := true, l01 := linkFrame (linkMissing n 0 1) n.laneSt.l01, l12 := linkFrame (linkMissing n 1 2) n.laneSt.l12,
          l20 := linkFrame (linkMissing n 2 0) n.laneSt.l20 }) ∧
        ((n.nodeSt.phase ≠ 1 ∧ n.laneSt.l01.up = true ∧ 1 ≤ n.laneSt.l01.bad ∧ n.laneSt.msgs = []) →
          u.laneSt.l01.up = false ∧ (3, 6) ∈ u.dueR) ∧
        u.rec_.laneRecs = [] ∧ u.regs = n.regs)) ∧
    (s.node.laneSt.voted = false → s.node.laneSt.state < 3 → s.node.laneSt.inDone = true →
      s.node.laneSt.evalDone = true → Acts (.dovetailVote t image0 image1 image2 sliceMiss) s t (fun n u =>
        u.laneSt.voted = true ∧ u.rec_.laneRecs = [] ∧ u.regs = n.regs ∧
        u.laneSt.unres = (if resolves n then n.laneSt.unres else min 65535 (n.laneSt.unres + 1)) ∧
        (u.laneSt.state = n.laneSt.state → u.laneSt.resolved = resolves n ∧ u.laneSt.lastUnres = !resolves n ∧
          u.laneSt.next.isSome = true) ∧
        (u.laneSt.state ≠ n.laneSt.state → u.laneSt.state = 3 ∧ u.laneSt.mask = 0 ∧ u.laneSt.next = none)))

/-- A lane's watchdog and self-tests (11 R254, R262, R268, R269): a lane that exchanges and has sent no message for 2 F
or 10 ms is marked; an uncorrectable word is counted, signalled and asks for exclusion with cause 4, any other failed
check with cause 6, the lower cause staying; a lane in reset or OUT asks for none. A scrub pass counts what it found; an
uncorrectable word asks for exclusion with cause 4, and a failed table or a word corrected in three passes in a row with
cause 6. Degraded time (11 R260): DEG_EXP is set where the count has reached LANE_DEG hours in DUAL or SINGLE, once; the
count returns to 0 after 1 h of TMR; before those instants, and in other states, nothing changes. -/
def Obligations.LanesWatchThemselves : Prop :=
  (∀ (t l cause ue : Nat) (words : List Nat) (tablesOk : Bool) (s : State), l < 3 →
     ((laneOf s.node l).phase = 0 ∨ (laneOf s.node l).phase = 5 →
       ((∀ a, (laneOf s.node l).lastMsg = some a → a + max (2 * s.node.period) 10000000 ≤ max s.node.now t) →
         Acts (.laneWatchdog t l) s t (fun n u => SameButSignals u { n with lanes := u.lanes } ∧
           laneOf u l = { laneOf n l with wdog := true } ∧ ∀ k, k ≠ l → laneOf u k = laneOf n k)) ∧
       (∀ a, (laneOf s.node l).lastMsg = some a → max s.node.now t < a + max (2 * s.node.period) 10000000 →
         Acts (.laneWatchdog t l) s t (fun n u => SameButSignals u n))) ∧
     ((laneOf s.node l).phase ≠ 0 ∧ (laneOf s.node l).phase ≠ 5 →
       Acts (.laneWatchdog t l) s t (fun n u => SameButSignals u n)) ∧
     ((laneOf s.node l).phase ≠ 1 → (laneOf s.node l).phase ≠ 6 → Acts (.laneSelfFault t l cause) s t (fun n u =>
       SameButSignals u { n with lanes := u.lanes, dueR := u.dueR } ∧ (∀ k, k ≠ l → laneOf u k = laneOf n k) ∧
       (laneOf u l).request = some (min ((laneOf n l).request.getD 16) (if cause = 4 then 4 else 6)) ∧
       (laneOf u l).ue = (if cause = 4 then min 255 ((laneOf n l).ue + 1) else (laneOf n l).ue) ∧
       u.dueR = (if cause = 4 then n.dueR ++ [(3, 8)] else n.dueR))) ∧
     ((laneOf s.node l).phase = 1 ∨ (laneOf s.node l).phase = 6 → Acts (.laneSelfFault t l cause) s t (fun n u =>
       SameButSignals u { n with lanes := u.lanes, dueR := u.dueR } ∧
       (laneOf u l).request = (laneOf n l).request ∧ ∀ k, k ≠ l → laneOf u k = laneOf n k)) ∧
     let hard := ∃ w, w ∈ words ∧ w ∈ (laneOf s.node l).scrub1 ∧ w ∈ (laneOf s.node l).scrub2
     Acts (.scrubPass t l words ue tablesOk) s t (fun n u =>
       SameButSignals u { n with lanes := u.lanes, dueR := u.dueR } ∧ (∀ k, k ≠ l → laneOf u k = laneOf n k) ∧
       (laneOf u l).ce = min 65535 ((laneOf n l).ce + words.length) ∧
       (laneOf u l).ue = min 255 ((laneOf n l).ue + ue) ∧ (laneOf u l).pass = ((laneOf n l).pass + 1) % 256 ∧
       (laneOf u l).scrub1 = words ∧ (laneOf u l).scrub2 = (laneOf n l).scrub1 ∧
       ((laneOf u l).hard = true ↔ (laneOf n l).hard = true ∨ hard) ∧
       u.dueR = (if 0 < ue then n.dueR ++ [(3, 8)] else n.dueR) ∧
       (ue = 0 → tablesOk = true → ¬ hard → (laneOf u l).request = (laneOf n l).request) ∧
       ((laneOf n l).phase ≠ 1 → (laneOf n l).phase ≠ 6 →
         (0 < ue → (laneOf u l).request = some (min ((laneOf n l).request.getD 16) 4)) ∧
         (ue = 0 → tablesOk = false ∨ hard → (laneOf u l).request = some (min ((laneOf n l).request.getD 16) 6))))) ∧
  (∀ (t : Nat) (s : State),
     (s.node.laneSt.degExp = false → s.node.laneSt.state = 1 ∨ s.node.laneSt.state = 2 →
       fld (reg s.node (at_ 3 0x50)) 9 0 * 3600000000000 ≤ s.node.laneSt.degNs → Acts (.degLimitExpire t) s t (fun n u =>
         SameButSignals u { n with laneSt := { n.laneSt with degExp := true }, dueR := n.dueR ++ [(3, 5)] })) ∧
     (s.node.laneSt.degNs < fld (reg s.node (at_ 3 0x50)) 9 0 * 3600000000000 ∨ s.node.laneSt.state = 0 →
       Acts (.degLimitExpire t) s t (fun n u => SameButSignals u n)) ∧
     (∀ a, s.node.laneSt.state = 0 → s.node.laneSt.tmrSince = some a →
       (a + 3600000000000 ≤ max s.node.now t → Acts (.degCountReset t) s t (fun n u =>
         SameButSignals u { n with laneSt := { n.laneSt with degNs := 0 } })) ∧
       (max s.node.now t < a + 3600000000000 → Acts (.degCountReset t) s t (fun n u => SameButSignals u n))) ∧
     (s.node.laneSt.state ≠ 0 → Acts (.degCountReset t) s t (fun n u => SameButSignals u n)))

/-- The way back of a lane (11 R263, R264, R266): 1 ms after its exclusion the end of its reset begins its self-test; a
pass within 200 ms loads its time counter and lets it wait for its transfer; a failure, a hard fault of its SRAM (R269)
or a later pass, or a transfer not done within 96 F of its first slice, excludes it again, and puts it OUT at the third
failed attempt within the hour; in any other phase these events have no effect. -/
def Obligations.LanesReturn : Prop :=
  ∀ (t l : Nat) (s : State), l < 3 →
    ((laneOf s.node l).phase = 1 → s.node.laneSt.state < 3 → (laneOf s.node l).since + 1000000 ≤ max s.node.now t →
      Acts (.laneResetEnd t l) s t (fun n u =>
        SameButRecords u { n with lanes := u.lanes } ∧ laneOf u l = { laneOf n l with phase := 2, since := n.now } ∧
        ∀ k, k ≠ l → laneOf u k = laneOf n k)) ∧
    ((laneOf s.node l).phase ≠ 1 ∨ s.node.laneSt.state = 3 ∨ max s.node.now t < (laneOf s.node l).since + 1000000 →
      Acts (.laneResetEnd t l) s t (fun n u => SameButSignals u n)) ∧
    ((laneOf s.node l).phase = 2 → (laneOf s.node l).tested = false → (laneOf s.node l).hard = false →
      max s.node.now t ≤ (laneOf s.node l).since + 200000000 → Acts (.laneSelftestDone t l true) s t (fun n u =>
        SameButRecords u { n with lanes := u.lanes, tb := u.tb } ∧ u.tb = (loadLane n l).tb ∧ (laneOf u l).tested = true ∧
        (laneOf u l).phase = (if (rejoining n).isSome then 3 else 2) ∧ ∀ k, k ≠ l → laneOf u k = laneOf n k)) ∧
    (∀ e ok : Bool, (if e then (laneOf s.node l).phase = 2 ∧ (laneOf s.node l).tested = false ∧
          (ok = false ∨ (laneOf s.node l).hard = true ∨ (laneOf s.node l).since + 200000000 < max s.node.now t)
        else (laneOf s.node l).phase = 4 ∧ (laneOf s.node l).sliceAt + 96 * s.node.period ≤ max s.node.now t) →
      Acts (if e then .laneSelftestDone t l ok else .transferTimeout t l) s t (fun n u =>
        SameButRecords u { n with lanes := u.lanes, laneSt := u.laneSt, dueR := u.dueR, cmds := u.cmds } ∧
        (laneOf u l).cause = (if e then 11 else 12) ∧
        (laneOf u l).phase =
          (if 2 ≤ ((laneOf n l).attempts.filter (fun a => decide (n.now < a + 3600000000000))).length then 6 else 1) ∧
        u.laneSt.excl = min 65535 (n.laneSt.excl + 1) ∧ ∀ k, k ≠ l → laneOf u k = laneOf n k)) ∧
    ((laneOf s.node l).phase ≠ 4 ∨ max s.node.now t < (laneOf s.node l).sliceAt + 96 * s.node.period →
      Acts (.transferTimeout t l) s t (fun n u => SameButSignals u n)) ∧
    ((laneOf s.node l).phase ≠ 2 ∨ (laneOf s.node l).tested = true →
      ∀ ok, Acts (.laneSelftestDone t l ok) s t (fun n u => SameButSignals u n))

/-! The time base (03) -/

/-- A message of PTP that TB_PTP_CFG selects (03 R61): its port is enabled, and its domain, profile and transport are those
set. -/
def Sys2Proof.ptpSelected (n : Node) (x : PtpExchange) : Prop :=
  let w := reg n (at_ 1 0x6C)
  (fld w 11 8).testBit x.port = true ∧ x.domain = fld w 7 0 ∧ x.p2p = bit w 13 ∧ x.udp = bit w 12

/-- A PTP exchange (03 R61, R66, R70, R71, R84): with the master that wins on an enabled port, its offset is kept with
the last eight of the port, and eight within 1 us of each other qualify the source. Where PTP is selected, an offset
within STEP_THR is slewed in LOCKED; a larger one is pending for the host in RUN, where the state leaves LOCKED and the
phase is kept, and outside RUN it waits for the next boundary. The exchange itself never steps time. Where the algorithm
favours this node, it advertises itself as master if TB_SRC_CFG permits it and it holds the time class. With CK_TB
failed, or a message that TB_PTP_CFG does not select, nothing changes. The PPS input (03 R63, R66): an edge of the kind
TB_PPS_CFG.EDGE selects, less its cable delay, marks the second that the time of day names, and the next edge marks the
next; edges missed since, where no message has named one, count on; without a time of day it measures nothing, and an
edge of the other kind, or with CK_TB failed, does nothing. A ZDA sentence on the port TB_PPS_CFG.TOD names tells the
UTC second of the next edge, to which TB_UTC is added; on another port that receives ZDA it is only counted, and on a
port that does not receive it nothing changes. -/
def Obligations.ExchangesAndSecondsMeasured : Prop :=
  (∀ (t : Nat) (x : PtpExchange) (s : State),
     (s.node.tb.ckFail.isSome = true ∨ ¬ ptpSelected s.node x →
       Acts (.ptpMessage t x) s t (fun n u => SameButSignals u n)) ∧
     (s.node.tb.ckFail = none → ptpSelected s.node x → x.bmcaOwn = true → Acts (.ptpMessage t x) s t (fun n u =>
       let may := timeHolder n && bit (reg n (at_ 1 0x68)) 16
       SameButSignals u { n with tb := { n.tb with ptpPorts := u.tb.ptpPorts, ptpMaster := may } } ∧
       tget none u.tb.ptpPorts x.port = none ∧
       (may = true → ∃ a, Out.ptp x.port a ∈ u.outs ∧ a.clockClass = 248 ∧
         a.prio1 = fld (reg n (at_ 1 0x6C)) 31 24))) ∧
     (s.node.tb.ckFail = none → ptpSelected s.node x → x.bmcaOwn = false →
       (∀ p m, p ≠ x.port → p < 4 → (fld (reg s.node (at_ 1 0x6C)) 11 8).testBit p = true →
         tget none s.node.tb.ptpPorts p = some m → masterHeard (atInstant s t) m = true → x.ds < m.ds) →
       (x.announce = true ∨ ∀ m, tget none s.node.tb.ptpPorts x.port = some m →
         (atInstant s t).now < m.annAt + 18000000000) →
       Acts (.ptpMessage t x) s t (fun n u =>
         taiNow u = taiNow n ∧ u.frame = n.frame ∧ u.tb.ptp.offset = x.offset ∧ u.tb.ptp.port = x.port ∧
         u.tb.ptp.offs = (x.offset :: (if n.tb.ptp.port = x.port then n.tb.ptp.offs else [])).take 8 ∧
         (u.tb.ptp.offs.length = 8 → within1us u.tb.ptp.offs = true → u.tb.ptp.qualified = true) ∧
         (n.tb.sel = some .ptp → x.offset.natAbs ≤ stepThr n →
           u.tb.state = .locked ∧ u.tb.slew = x.offset - (n.slewBy - slewPart n n.now) ∧ u.tb.timeFar = none ∧
           u.tb.stepPend = none) ∧
         (n.tb.sel = some .ptp → stepThr n < x.offset.natAbs → u.tb.slew = 0 ∧ u.slewBy = 0) ∧
         (n.tb.sel = some .ptp → stepThr n < x.offset.natAbs → n.nodeSt.state = .run →
           u.tb.timeFar = some x.offset ∧ u.tb.stepPend = n.tb.stepPend ∧
           (n.tb.timeFar = none → u.tb.state = .acquiring ∧ (1, 4) ∈ u.dueB)) ∧
         (n.tb.sel = some .ptp → stepThr n < x.offset.natAbs → n.nodeSt.state ≠ .run → u.tb.stepPend = some x.offset)))) ∧
  (∀ (t port utc : Nat) (e : Bool) (s : State),
     (∀ d, s.node.tb.tod = some d → s.node.tb.ckFail = none → e = bit (reg s.node (at_ 1 0x74)) 0 →
       Acts (.ppsEdge { t := t, falling := e }) s t (fun n u =>
         (∃ d' : Nat, u.tb.tod = some (d' + 1000000000) ∧
           u.tb.pps.offset = (d' : Int) - taiAt n (n.now - fld (reg n (at_ 1 0x74)) 31 16) ∧
           (n.tb.todFresh = true ∨ n.tb.pps.last = none → d' = d) ∧
           ∀ l, n.tb.todFresh = false → n.tb.pps.last = some l →
             d' = d + ((n.now - l + 500000000) / 1000000000 - 1) * 1000000000) ∧
         u.tb.todFresh = false ∧ u.tb.pps.last = some n.now ∧ taiNow u = taiNow n ∧
         (∀ l, n.tb.pps.last = some l → ((n.now : Int) - l - 1000000000).natAbs ≤ 100000 → 2 ≤ n.tb.pps.good →
           u.tb.pps.qualified = true))) ∧
     (s.node.tb.tod = none → s.node.tb.ckFail = none → e = bit (reg s.node (at_ 1 0x74)) 0 →
       Acts (.ppsEdge { t := t, falling := e }) s t (fun n u =>
         SameButSignals u { n with tb := { n.tb with pps := { n.tb.pps with good := 0, last := some n.now } } })) ∧
     (s.node.tb.ckFail.isSome = true ∨ e ≠ bit (reg s.node (at_ 1 0x74)) 0 →
       Acts (.ppsEdge { t := t, falling := e }) s t (fun n u => SameButSignals u n)) ∧
     (port < 2 → bit (reg s.node (at_ (0x5C + port) 0x44)) 31 = true → bit (reg s.node (at_ (0x5C + port) 0x44)) 5 = true →
       Acts (.zdaReceived t port utc) s t (fun n u =>
         serOf u port = { serOf n port with lastOk := some n.now, ok := min 65535 ((serOf n port).ok + 1) } ∧
         (∀ p, p ≠ port → serOf u p = serOf n p) ∧
         SameButSignals u { n with net := { n.net with ser := u.net.ser }, tb := u.tb } ∧
         (fld (reg n (at_ 1 0x74)) 2 1 ≠ port → u.tb = n.tb) ∧
         (fld (reg n (at_ 1 0x74)) 2 1 = port →
           let d := ((utc : Int) + sfld (reg n (at_ 1 0x78)) 15 0).toNat * 1000000000
           u.tb = { n.tb with
             tod := some d, todFresh := true,
             pps := { n.tb.pps with good := if n.tb.tod = some d then n.tb.pps.good else 0 } }))) ∧
     (2 ≤ port ∨ bit (reg s.node (at_ (0x5C + port) 0x44)) 31 = false ∨ bit (reg s.node (at_ (0x5C + port) 0x44)) 5 = false →
       Acts (.zdaReceived t port utc) s t (fun n u => SameButSignals u n)))

/-- Time over CAN (03 R62, R66, R83): a SYNC the node takes keeps its start-of-frame stamp; the FOLLOW of the same
sequence, no more than 10 ms later, of the sender followed, measures the offset, and the fourth pair in a row qualifies
the source; another sequence or a later FOLLOW is discarded and breaks the run, as a SYNC of that sender does that comes
before the FOLLOW of the one before it. Once CK_TB has failed no SYNC is kept. Time sent on CAN (03 R82, 14 R328): the
time master, once TB_CTRL.SYNC_INT has passed since its last SYNC, sends one on each controller of TX_MASK that has the
node layer, with one sequence number, and keeps it for the FOLLOW, which goes once the SYNC's start of frame is known;
any other node, or one whose CK_TB has failed, sends neither. -/
def Obligations.TimeOverCan : Prop :=
  (∀ (t : Nat) (h : MsgHead) (seq sof q tai int : Nat) (y : SyncMsg) (s : State),
     (accepts s.node h = true → s.node.tb.ckFail = none → Acts (.canSyncReceived t h seq sof { qual := q, int := int }) s t (fun n u =>
       SameButSignals u { n with tb := { n.tb with syncs := u.tb.syncs, senders := u.tb.senders, can := u.tb.can } } ∧
       tget none u.tb.syncs (h.ctrl * 256 + h.src) = some { seq := seq, sof := sof, at_ := n.now, qual := q } ∧
       (∀ k, k ≠ h.ctrl * 256 + h.src → tget none u.tb.syncs k = tget none n.tb.syncs k) ∧
       (tget none n.tb.syncs (h.ctrl * 256 + h.src) = none → u.tb.can = n.tb.can) ∧
       (tget none n.tb.syncs (h.ctrl * 256 + h.src) ≠ none → fld (reg n (at_ 1 0x70)) 31 24 = h.src →
         u.tb.can = { n.tb.can with good := 0 }))) ∧
     (accepts s.node h = false ∨ s.node.tb.ckFail.isSome = true →
       Acts (.canSyncReceived t h seq sof { qual := q, int := int }) s t (fun n u => SameButSignals u n)) ∧
     (accepts s.node h = false ∨ tget none s.node.tb.syncs (h.ctrl * 256 + h.src) = none →
       Acts (.canFollowReceived t h seq tai q) s t (fun n u => SameButSignals u n)) ∧
     (accepts s.node h = true → tget none s.node.tb.syncs (h.ctrl * 256 + h.src) = some y →
       canFollowed (atInstant s t) = some h.src →
       (s.node.tb.ckFail = none → y.seq = seq → max s.node.now t ≤ y.at_ + 10000000 →
         Acts (.canFollowReceived t h seq tai q) s t (fun n u =>
           u.tb.can.offset = (tai : Int) - taiPast n y.sof ∧ u.tb.canMaster = some h.src ∧ u.tb.can.port = h.ctrl ∧
           tget none u.tb.syncs (h.ctrl * 256 + h.src) = none ∧ (3 ≤ n.tb.can.good → u.tb.can.qualified = true) ∧
           taiNow u = taiNow n)) ∧
       (y.seq ≠ seq ∨ y.at_ + 10000000 < max s.node.now t → Acts (.canFollowReceived t h seq tai q) s t (fun n u =>
         SameButSignals u { n with tb := { n.tb with syncs := u.tb.syncs, can := { n.tb.can with good := 0 } } } ∧
         tget none u.tb.syncs (h.ctrl * 256 + h.src) = none))) ∧
     (accepts s.node h = true → tget none s.node.tb.syncs (h.ctrl * 256 + h.src) = some y →
       canFollowed (atInstant s t) ≠ some h.src → Acts (.canFollowReceived t h seq tai q) s t (fun n u =>
         SameButSignals u { n with tb := { n.tb with syncs := u.tb.syncs } } ∧
         tget none u.tb.syncs (h.ctrl * 256 + h.src) = none))) ∧
  (∀ (t c : Nat) (s : State),
     (timeMaster s.node = true →
       (∀ a, s.node.tb.syncAt = some a →
         a + 62500000 * 2 ^ min (fld (reg s.node (at_ 1 0x7C)) 27 25) 4 ≤ max s.node.now t) →
       Acts (.syncSend t) s t (fun n u =>
         u.tb.syncSeq = (n.tb.syncSeq + 1) % 1024 ∧ u.tb.syncAt = some n.now ∧ u.taiOff = n.taiOff ∧ u.regs = n.regs ∧
         (c < 24 → nbit (syncMask n) c = true → nodeLayer n c = true →
           tget none u.tb.sent c = some (n.tb.syncSeq, none)) ∧
         (nbit (syncMask n) c = false ∨ nodeLayer n c = false →
           tget none u.tb.sent c = tget none n.tb.sent c ∧ canOf u c = canOf n c))) ∧
     (timeMaster s.node = false ∨ (∃ a, s.node.tb.syncAt = some a ∧
         max s.node.now t < a + 62500000 * 2 ^ min (fld (reg s.node (at_ 1 0x7C)) 27 25) 4) →
       Acts (.syncSend t) s t (fun n u => SameButSignals u n)) ∧
     (∀ q tai, s.node.tb.ckFail = none → tget none s.node.tb.sent c = some (q, some tai) →
       Acts (.followSend t c) s t (fun n u =>
         tget none u.tb.sent c = none ∧ u.regs = n.regs ∧ u.tb.syncSeq = n.tb.syncSeq ∧
         ∀ k, k ≠ c → canOf u k = canOf n k)) ∧
     (s.node.tb.ckFail.isSome = true ∨ (∀ q tai, tget none s.node.tb.sent c ≠ some (q, some tai)) →
       Acts (.followSend t c) s t (fun n u => SameButSignals u n)))

/-- The instant of a loss has come (03 R66): for PTP 4 Sync intervals without a message, or 18 s without an Announce; for CAN
4 intervals of the sender; for PPS 2 edges; for the partner, PLOST or both cross-links down. -/
def Sys2Proof.lossDue (n : Node) (src : TimeSrc) (announce : Bool) : Prop :=
  match src with
  | .ptp =>
    (announce = false ∧ ∃ l, n.tb.ptp.last = some l ∧
      l + 4 * (125000000 * 2 ^ fld (reg n (at_ 1 0x6C)) 17 16) ≤ n.now) ∨
    (announce = true ∧ ∃ m, tget none n.tb.ptpPorts n.tb.ptp.port = some m ∧ m.annAt + 18000000000 ≤ n.now)
  | .can => ∃ l, n.tb.can.last = some l ∧ l + 4 * n.tb.can.interval ≤ n.now
  | .pps => ∃ l, n.tb.pps.last = some l ∧ l + 2000100000 ≤ n.now
  | .partner => paired n = false ∨ n.duplex.plost = true ∨ (n.duplex.x0.up = false ∧ n.duplex.x1.up = false)

/-- Sources lost and changed (03 R64, R66, R68): the selected source lost with no other usable begins holdover, with its
interrupt due at the next boundary and the phase kept; the loss of a source not selected leaves the selection; a loss
whose time has not come changes nothing. A better source is taken once it has stayed qualified for 10 s; without a
source by TB_ACQ_TMO from phase 4 of start-up the state is FREE. The oscillator's failure and the stored time (03 R65,
R69): at the failure of CK_TB every source is forgotten, nothing is sent or paired any more, no step or slew is pending,
the phase is kept, and CKFAIL is due at the next boundary; a node that had a source selected is in holdover; it happens
once. Stored time is node time, where the MRAM works. -/
def Obligations.SourcesLostAndChanged : Prop :=
  (∀ (t code : Nat) (announce : Bool) (src b : TimeSrc) (s : State),
     (srcOfCode code = some src → lossDue (atInstant s t) src announce →
       (s.node.tb.sel = some src → s.node.tb.state ≠ .holdover → (∀ x, x ≠ src → usable s.node x = false) →
         Acts (.sourceLost t code announce) s t (fun n u =>
           u.tb.state = .holdover ∧ u.tb.sel = none ∧ u.tb.holdSince = some n.now ∧ u.tb.slew = 0 ∧ u.tb.timeFar = none ∧
           u.tb.stepPend = none ∧ (n.tb.freqs = [] → u.tb.freq = n.tb.freq) ∧ (1, 1) ∈ u.dueB ∧ taiNow u = taiNow n ∧
           (sourceOf u src).qualified = false)) ∧
       (s.node.tb.sel ≠ some src → Acts (.sourceLost t code announce) s t (fun n u =>
         SameButSignals u { n with tb := u.tb } ∧ u.tb.sel = n.tb.sel ∧ u.tb.state = n.tb.state ∧
         (sourceOf u src).qualified = false))) ∧
     ((∀ x, srcOfCode code = some x → ¬ lossDue (atInstant s t) x announce) →
       Acts (.sourceLost t code announce) s t (fun n u => SameButSignals u n)) ∧
     (s.node.tb.sel = some src → bestSource s.node = some b → b ≠ src →
       ((sourceOf s.node b).since + 10000000000 ≤ max s.node.now t → Acts (.sourceSwitch t) s t (fun n u =>
         u.tb.sel = some b ∧ (1, 2) ∈ u.dueB ∧ taiNow u = taiNow n)) ∧
       (max s.node.now t < (sourceOf s.node b).since + 10000000000 →
         Acts (.sourceSwitch t) s t (fun n u => SameButSignals u n))) ∧
     (s.node.tb.sel = none ∨ bestSource s.node = none ∨ bestSource s.node = s.node.tb.sel →
       Acts (.sourceSwitch t) s t (fun n u => SameButSignals u n)) ∧
     (∀ a, s.node.tb.acqAt = some a → s.node.tb.state = .acquiring → s.node.tb.sel = none →
       a + fld (reg s.node (at_ 1 0x80)) 7 0 * 1000000000 ≤ max s.node.now t → Acts (.acqTimeout t) s t (fun n u =>
         SameButSignals u { n with tb := { n.tb with state := .free } })) ∧
     (s.node.tb.state ≠ .acquiring ∨ s.node.tb.sel.isSome = true ∨ s.node.tb.acqAt = none ∨
         (∃ a, s.node.tb.acqAt = some a ∧ max s.node.now t < a + fld (reg s.node (at_ 1 0x80)) 7 0 * 1000000000) →
       Acts (.acqTimeout t) s t (fun n u => SameButSignals u n))) ∧
  (∀ (t : Nat) (s : State),
     (s.node.tb.ckFail = none → Acts (.cktbFail t) s t (fun n u =>
       u.tb.ckFail = some n.now ∧ u.tb.ptp = {} ∧ u.tb.can = {} ∧ u.tb.pps = {} ∧ u.tb.partner = {} ∧ u.tb.syncs = [] ∧
       u.tb.sent = [] ∧ u.tb.ptpMaster = false ∧ u.tb.stepPend = none ∧ u.tb.timeFar = none ∧ u.tb.slew = 0 ∧
       taiNow u = taiNow n ∧ (1, 5) ∈ u.dueB ∧ u.tb.sel = none ∧
       (n.tb.sel = none → u.tb.state = n.tb.state) ∧
       (n.tb.sel.isSome = true → u.tb.state = .holdover ∧ u.tb.holdSince = some n.now ∧ (1, 1) ∈ u.dueB))) ∧
     (s.node.tb.ckFail.isSome = true → Acts (.cktbFail t) s t (fun n u => SameButSignals u n)) ∧
     (s.node.rec_.mramOk = true → Acts (.storedTimeWrite t) s t (fun n u =>
       SameButSignals u { n with tb := { n.tb with stored := some (taiNow n) } })) ∧
     (s.node.rec_.mramOk = false → Acts (.storedTimeWrite t) s t (fun n u => SameButSignals u n)))

/-- TB_CMD (03 R63, R71): accepted, STEP and SET_TOD wait for their boundary with the parameters of the write. Taken up,
STEP lets the pending offset be stepped at the next boundary, and ends FAILED where none is pending; SET_TOD takes
TB_TOD as the TAI of the next edge after its acceptance and ends FAILED where TB_PPS_CFG.TOD is not 2. Neither moves
time itself. A change of period (03 R74, R75): at its instant T the new F is in force, frame numbers restart as T / F,
the mirror and the streams show the gap, and the interrupt is due at the next boundary; before T, and with none pending,
nothing changes. -/
def Obligations.TimeCommandsAndPeriod : Prop :=
  ((∀ (t : Nat) (s : State),
     (judge (atInstant s t) hostPath 1 { state := isRun s.node, level := levelOk s.node hostPath 2 } = .accept →
       Acts (.tbStep t) s t (fun n u => SameButSignals u (deferred n hostPath 1 (at_ 1 0x84) 1 .tbStep))) ∧
     (judge (atInstant s t) hostPath 1 { state := inStates s.node 30, level := levelOk s.node hostPath 2 } = .accept →
       Acts (.tbSetTod t) s t (fun n u => SameButSignals u (deferred n hostPath 1 (at_ 1 0x84) 2
         (.setTod ((reg n (at_ 1 0x88)).toNat + 4294967296 * (reg n (at_ 1 0x8C)).toNat) n.now))))) ∧
   ∀ (n : Node) (auto : Bool) (tai since : Nat), n.laneSt.state < 3 →
     (n.tb.timeFar = none → actEff auto .tbStep n = (n, some false)) ∧
     (∀ off, n.tb.timeFar = some off → actEff auto .tbStep n = ({ n with tb := { n.tb with stepPend := some off } }, some true)) ∧
     (fld (reg n (at_ 1 0x74)) 2 1 ≠ 2 → actEff auto (.setTod tai since) n = (n, some false)) ∧
     (fld (reg n (at_ 1 0x74)) 2 1 = 2 →
       let r := actEff auto (.setTod tai since) n
       r.2 = some true ∧ r.1 = { n with tb := r.1.tb } ∧ r.1.tb.todFresh = true ∧ r.1.tb.state = n.tb.state ∧
       (∀ l, n.tb.pps.last = some l → since < l → r.1.tb.tod = some (tai + 1000000000)) ∧
       ((∀ l, n.tb.pps.last = some l → l ≤ since) → r.1.tb.tod = some tai))) ∧
  (∀ (t sel T : Nat) (s : State),
     (s.node.tb.pendPeriod = none → Acts (.periodChange t) s t (fun n u => SameButSignals u n)) ∧
     (s.node.tb.pendPeriod = some (sel, T) →
       (taiNow (atInstant s t) < T → Acts (.periodChange t) s t (fun n u => SameButSignals u n)) ∧
       (T ≤ taiNow (atInstant s t) → Acts (.periodChange t) s t (fun n u =>
         u.period = periodOf sel ∧ u.tb.pendPeriod = none ∧ u.mirror.gap = true ∧ (1, 6) ∈ u.dueB ∧
         u.frame = ((n.frame : Int) + ((T / periodOf sel : Nat) : Int) - ((T / n.period : Nat) : Int)).toNat ∧
         u.taiOff = n.taiOff ∧ u.regs = n.regs ∧ ∀ e, (launchOf u e).state ≠ .armed))))

/-! Commands that the lanes take up (02 R45) -/

/-- The host's commands that wait for their boundary: offset of the register, value written, what the owning chapter asks,
and what the lanes take up, with the parameters as they stand at the write (02 R43). -/
def Sys2Proof.waitingRow (n : Node) : Instr → Option (Nat × Word × CmdCheck × LaneAct)
  | .lchArm _ e => some (at_ 0x0A 0x50, lchWord 1 e, lchCheck n 0 (lchWord 1 e), .launch 1 e (lchTgt n) (lchAct n) (lchArg n))
  | .lchCancel _ e =>
    some (at_ 0x0A 0x50, lchWord 2 e, { state := inStates n 30, level := levelOk n 0 2 },
      .launch 2 e (lchTgt n) (lchAct n) (lchArg n))
  | .almAck _ g i => some (at_ 9 0x48, almWord 1 g i, almCheck n 0 (almWord 1 g i), .alm 1 g (i % 8192) (almArg n))
  | .almSilence _ g i => some (at_ 9 0x48, almWord 2 g i, almCheck n 0 (almWord 2 g i), .alm 2 g (i % 8192) (almArg n))
  | .almShelve _ g i => some (at_ 9 0x48, almWord 3 g i, almCheck n 0 (almWord 3 g i), .alm 3 g (i % 8192) (almArg n))
  | .almUnshelve _ g i => some (at_ 9 0x48, almWord 4 g i, almCheck n 0 (almWord 4 g i), .alm 4 g (i % 8192) (almArg n))
  | .almFoReset _ g i => some (at_ 9 0x48, almWord 5 g i, almCheck n 0 (almWord 5 g i), .alm 5 g (i % 8192) (almArg n))
  | .almTransfer _ g i => some (at_ 9 0x48, almWord 6 g i, almCheck n 0 (almWord 6 g i), .alm 6 g (i % 8192) (almArg n))
  | .acqCmdClear _ => some (at_ 2 0x50, 1, { state := inStates n 30, level := levelOk n 0 1 }, .acqClear)
  | .callWatchOn _ => some (at_ 7 0x5C, 1, { state := operational n && holder n, level := levelOk n 0 1 }, .call 1)
  | .callWatchOff _ =>
    some (at_ 7 0x5C, 2,
      { state := operational n && holder n, level := levelOk n 0 (if n.call.watch = .alarm then 2 else 1) }, .call 2)
  | .callWatchReset _ =>
    some (at_ 7 0x5C, 3,
      { state := operational n && holder n, level := levelOk n 0 1, value := bit (reg n (at_ 7 0x40)) 2 }, .call 3)
  | .callDuty _ v =>
    some (at_ 7 0x58, v,
      { state := operational n && holder n, level := levelOk n 0 1, value := decide (fld v 4 0 ≤ 15) || fld v 4 0 == 31 },
      .duty (fld v 4 0))
  | .laneRetry _ l => some (at_ 3 0x88, laneCmdWord 1 l, { level := levelOk n 0 2 }, .lane (laneCmdWord 1 l))
  | .laneExclude _ l =>
    some (at_ 3 0x88, laneCmdWord 2 l, { state := isConfig n && lanesTmr n, level := levelOk n 0 3 },
      .lane (laneCmdWord 2 l))
  | .laneClear _ => some (at_ 3 0x88, laneCmdWord 3 0, { level := levelOk n 0 1 }, .lane (laneCmdWord 3 0))
  | .rnkCmdClear _ r =>
    if r < 16 then some (at_ (0x10 + r) 0x70, 1, { state := inStates n 30, level := levelOk n 0 1 }, .rnkClear r) else none
  | .dpxClear _ => some (at_ 4 0x5C, 3, dpxCmdCheck n 0 3, .dpxClear)
  | .gotoStandby _ => some (at_ 0 0x54, 1, gotoCheck n 0 1, .goto 1)
  | .gotoConfig _ => some (at_ 0 0x54, 2, gotoCheck n 0 2, .goto 2)
  | .gotoRun _ => some (at_ 0 0x54, 3, gotoCheck n 0 3, .goto 3)
  | .gotoSafe _ => some (at_ 0 0x54, 4, gotoCheck n 0 4, .goto 4)
  | _ => none

/-- The instant operand of such a command. -/
def Sys2Proof.waitingAt : Instr → Nat
  | .lchArm t _ | .lchCancel t _ | .almAck t _ _ | .almSilence t _ _ | .almShelve t _ _ | .almUnshelve t _ _
  | .almFoReset t _ _ | .almTransfer t _ _ | .acqCmdClear t | .callWatchOn t | .callWatchOff t | .callWatchReset t
  | .callDuty t _ | .laneRetry t _ | .laneExclude t _ | .laneClear t | .gotoStandby t | .gotoConfig t | .gotoRun t
  | .gotoSafe t | .rnkCmdClear t _ | .dpxClear t => t
  | _ => 0

/-- A command that the lanes take up (02 R44, R45): accepted, its page is BUSY and its act, with the parameters as they
stand at the write, waits for the boundary of the first frame that follows by at least 5 us; nothing else changes
before. Refused, its path's CMD_RES alone changes; a duplicate changes nothing. -/
def Obligations.LaneCommandsWaitForTheirBoundary : Prop :=
  ∀ (c : Instr) (s : State) (off : Nat) (v : Word) (k : CmdCheck) (a : LaneAct), wellFormed c = true →
    waitingRow (atInstant s (waitingAt c)) c = some (off, v, k, a) →
    Acts c s (waitingAt c) (fun n u =>
      match judge n hostPath (off / 4096) k with
      | .duplicate => SameButSignals u n
      | .refuse code =>
        SameButSignals u { n with seqs := u.seqs } ∧
        seqOf u hostPath (off / 4096) = { seqOf n hostPath (off / 4096) with cmdRes := code } ∧
        ∀ j, j ≠ off / 4096 → tget {} u.seqs j = tget {} n.seqs j
      | .accept => SameButSignals u (deferred n hostPath (off / 4096) off v a))

/-- State commands taken up (17 R389 to R392): one to the present state ends DONE and changes nothing; one that Table
17.2 does not name, or during a power-fail, ends FAILED, as one does that would leave CONFIG before an accepted
confirmation has taken effect (the model's reading, log entry 87); GOTO RUN ends FAILED where the node enters SAFE by
itself at the same boundary, is refused with the first of its conditions that holds, and otherwise enters RUN with the
watchdog restarted; GOTO SAFE records the host as the cause; GOTO CONFIG enters CONFIG, and ends there but from STANDBY,
where it may wait for its ranks; GOTO STANDBY leaves no rank powered. PWR_RANK_EN (17 R394): accepted, the lanes take
the value up at their boundary; ranks that lose their bit are then unpowered, their failure forgotten, and ranks enabled
are powered where the node is operational. -/
def Obligations.StateCommandsTakenUp : Prop :=
  (∀ (n : Node) (g : Nat) (auto : Bool),
     let r := actEff auto (.goto g) n
     (n.power.pfail = true ∨ leavesConfirm n g = true → r = (n, some false)) ∧
     (n.power.pfail = false → leavesConfirm n g = false →
       (nodeCode n = g → r = (n, some true)) ∧
       (nodeCode n ≠ g → (g ≠ 3 ∨ auto = false) → transition (nodeCode n) g = false → r = (n, some false)) ∧
       (nodeCode n ≠ g → g = 3 → auto = true → r = ({ n with nodeSt := { n.nodeSt with refuse := 6 } }, some false)) ∧
       (g = 3 → (n.nodeSt.state = .config ∨ n.nodeSt.state = .safe) → auto = false →
         (∀ c, runRefuse n = some c → r = ({ n with nodeSt := { n.nodeSt with refuse := c } }, some false)) ∧
         (runRefuse n = none → r.2 = some true ∧ r.1.nodeSt.state = .run ∧ r.1.nodeSt.safeCause = 0 ∧
           r.1.nodeSt.kickAt = n.now ∧ r.1.regs = n.regs ∧ (0, 1) ∈ r.1.dueB)) ∧
       (g = 4 → (n.nodeSt.state = .config ∨ n.nodeSt.state = .run) →
         r.2 = some true ∧ r.1.nodeSt.state = .safe ∧ r.1.nodeSt.safeCause = 1 ∧ r.1.regs = n.regs ∧ (0, 1) ∈ r.1.dueB) ∧
       (g = 2 → (n.nodeSt.state = .standby ∨ n.nodeSt.state = .run ∨ n.nodeSt.state = .safe) →
         r.1.nodeSt.state = .config ∧ r.1.regs = n.regs ∧ (0, 1) ∈ r.1.dueB ∧
         (n.nodeSt.state ≠ .standby ∨ ranksDone r.1 = true → r.2 = some true) ∧
         (n.nodeSt.state = .standby → ranksDone r.1 = false → r.2 = none)) ∧
       (g = 1 → n.nodeSt.state = .config →
         r.2 = some true ∧ r.1.nodeSt.state = .standby ∧ r.1.regs = n.regs ∧ ∀ k, (rankOf r.1 k).powered = false))) ∧
  (∀ (t : Nat) (v : Word) (s : State),
     (judge (atInstant s t) hostPath 0x0D
         { state := inStates s.node 30 && rankEnOk (atInstant s t) v, level := levelOk s.node hostPath 2 } = .accept →
       Acts (.rankEnableWrite t v) s t (fun n u => SameButSignals u (deferred n hostPath 0x0D (at_ 0x0D 0x50) v
         (.param (at_ 0x0D 0x50) (v &&& 0xFFFF) (pathAccount n hostPath) (seqOf n hostPath 0x0D).hseq)))) ∧
     ∀ (auto : Bool) (acc : Nat) (h : BitVec 16) (n : Node), n.laneSt.state ≠ 3 →
       let r := actEff auto (.param (at_ 0x0D 0x50) v acc h) n
       r.2 = some true ∧ reg r.1 (at_ 0x0D 0x50) = v ∧
       (∀ k, k < 16 → (reg n (at_ 0x0D 0x50)).getLsbD k = true → v.getLsbD k = false →
         (rankOf r.1 k).powered = false ∧ (rankOf r.1 k).failed = false) ∧
       (operational n = true → ∀ k, k < 16 → v.getLsbD k = true → (rankOf n k).failed = false →
         (rankOf r.1 k).powered = true))

/-- Launches (03 R79, R80): an ARM taken up at the boundary of frame k arms its entry where its frame is k + 2 or later,
is LATE and ends FAILED where it is not, and ends FAILED without effect where the node state no longer permits the
action; CANCEL changes an armed entry alone. No other entry changes. Lane, call and acquisition commands taken up (02
R45, 09 R207, R210, R211, 11 R266): the watch is switched on, off, or begun afresh, which from the host does not end
WATCH ALARM, and ends FAILED where the node is no longer operational; the duty engineer is named; LATE is cleared, and
so are a rank's link errors and the duplex counts; RETRY returns an OUT lane to reset and ends FAILED on another;
EXCLUDE waits for the vote of its frame; CLEAR zeroes the memory counts. -/
def Obligations.LaunchCallAndLaneCommandsTakenUp : Prop :=
  (∀ (n : Node) (auto : Bool) (e tgt : Nat) (act arg : Word), n.laneSt.state ≠ 3 →
     (inStates n (lchStates (fld act 3 0)) = true →
       let r := actEff auto (.launch 1 e tgt act arg) n
       (∀ k, k ≠ e → launchOf r.1 k = launchOf n k) ∧
       (n.frame + 2 ≤ tgt → r.2 = some true ∧ launchOf r.1 e = { state := .armed, tgt := tgt, act := act, arg := arg }) ∧
       (tgt < n.frame + 2 →
         r.2 = some false ∧ launchOf r.1 e = { state := .late, tgt := tgt, act := act, arg := arg } ∧ (0x0A, 1) ∈ r.1.dueR)) ∧
     (inStates n (lchStates (fld act 3 0)) = false → actEff auto (.launch 1 e tgt act arg) n = (n, some false)) ∧
     ((launchOf n e).state = .armed →
       let r := actEff auto (.launch 2 e tgt act arg) n
       r.2 = some true ∧ launchOf r.1 e = { launchOf n e with state := .cancelled } ∧
       ∀ k, k ≠ e → launchOf r.1 k = launchOf n k) ∧
     ((launchOf n e).state ≠ .armed → actEff auto (.launch 2 e tgt act arg) n = (n, some false))) ∧
  (∀ (n : Node) (auto : Bool) (e l : Nat), n.laneSt.state ≠ 3 →
     (operational n = false → ∀ op, actEff auto (.call op) n = (n, some false)) ∧
     (operational n = true →
       (let r := actEff auto (.call 1) n
        r.2 = some true ∧ r.1.call.watch = (if n.call.watch = .off then .running else n.call.watch)) ∧
       (let r := actEff auto (.call 2) n
        r.2 = some true ∧ r.1.call.watch = .off) ∧
       (let r := actEff auto (.call 3) n
        r.2 = some true ∧ (n.call.watch = .off ∨ n.call.watch = .alarm → r.1 = n) ∧
        (n.call.watch = .running ∨ n.call.watch = .prewarn → r.1.call.watch = .running ∧ r.1.call.watchCnt = 0))) ∧
     (e < 32 → let r := actEff auto (.duty e) n
      r.2 = some true ∧ dutyEng r.1 = e ∧ (∀ k, k ≠ at_ 7 0x58 → reg r.1 k = reg n k)) ∧
     actEff auto .acqClear n = ({ n with late := 0 }, some true) ∧
     actEff auto .dpxClear n = ({ n with duplex := { n.duplex with missed := 0, swOut := 0, swTime := 0 } }, some true) ∧
     (∀ r, let x := actEff auto (.rnkClear r) n
       x.2 = some true ∧ (∀ k, k ≠ r → rankOf x.1 k = rankOf n k) ∧ x.1 = { n with ranks := x.1.ranks } ∧
       rankOf x.1 r = { rankOf n r with err0 := 0, err1 := 0, err2 := 0 }) ∧
     (l < 3 →
       ((laneOf n l).phase = 6 → let r := actEff auto (.lane (laneCmdWord 1 l)) n
         r.2 = some true ∧ (laneOf r.1 l).phase = 1 ∧ (laneOf r.1 l).attempts = [] ∧ ∀ k, k ≠ l → laneOf r.1 k = laneOf n k) ∧
       ((laneOf n l).phase ≠ 6 → actEff auto (.lane (laneCmdWord 1 l)) n = (n, some false)) ∧
       (comingState n ≠ 0 → actEff auto (.lane (laneCmdWord 2 l)) n = (n, some false)) ∧
       (comingState n = 0 → let r := actEff auto (.lane (laneCmdWord 2 l)) n
        r.2 = none ∧ laneOf r.1 l = { laneOf n l with host := some n.frame } ∧ ∀ k, k ≠ l → laneOf r.1 k = laneOf n k) ∧
       (let r := actEff auto (.lane (laneCmdWord 3 0)) n
        r.2 = some true ∧ laneOf r.1 l = { laneOf n l with ce := 0, ue := 0, pass := 0 } ∧ r.1.laneSt.unres = 0 ∧
        r.1.laneSt.excl = 0 ∧ r.1.laneSt.state = n.laneSt.state)))

/-- Alarm commands on one point (08 R183 to R187): on a point that the engine holds and that is not DISABLED, ACK,
SILENCE and TRANSFER follow Table 08.8, and change neither a caution nor a shelved point; on any other they change no
point. SHELVE shelves an eligible point, DISABLED or not, for its minutes and ends FAILED on another; UNSHELVE ends
shelving. The point alone changes its state. -/
def Obligations.AlarmCommandsTakenUp : Prop :=
  ∀ (n : Node) (auto : Bool) (k arg : Nat), n.laneSt.state ≠ 3 →
    (∀ op ev, (op, ev) ∈ [(1, AlmEvent.ack), (2, .silence), (6, .transfer)] →
      let r := actEff auto (.alm op 0 k arg) n
      r.2 = some true ∧ (∀ j, j ≠ k → pointOf r.1 j = pointOf n j) ∧ r.1.regs = n.regs ∧
      (k ∈ keys n.points → (pointOf n k).disabled = false →
        (pointOf r.1 k).state = (if ptPrio n k = 0 ∨ (pointOf n k).shelved = true then (pointOf n k).state
          else nextAlert (pointOf n k).state ev)) ∧
      (k ∉ keys n.points ∨ (pointOf n k).disabled = true → r.1.points = n.points)) ∧
    (let r := actEff auto (.alm 3 0 k arg) n
     (eligible n k = false → r.2 = some false ∧ r.1.points = n.points) ∧
     (eligible n k = true → r.2 = some true ∧ (pointOf r.1 k).shelved = true ∧
       (pointOf r.1 k).shelLeft = (if arg = 0 then fld (reg n (at_ 9 0x40)) 11 0 else arg) * 60000000000 / n.period + 1 ∧
       ∀ j, j ≠ k → pointOf r.1 j = pointOf n j)) ∧
    (let r := actEff auto (.alm 4 0 k arg) n
     r.2 = some true ∧ (pointOf r.1 k).shelved = false ∧ ∀ j, j ≠ k → pointOf r.1 j = pointOf n j)

/-! Channels (04 to 07) -/

/-- What a rank confirms of a channel it watches (07 R147, R149 to R153, R156; 04 R92; 06 R139): a break, outside the
channel's own slot; its repair, no sooner than 10 ms or 3 F after it; an excitation at its limit and within it again;
the thermal limit of a loop output. It shows in the frame's status where it comes before the status cut, and a repair or
the end of a limit is a settling event. Other channels stand, and of a channel that no powered rank watches nothing is
confirmed. -/
def Obligations.ChannelConditions : Prop :=
  ∀ (t ch : Nat) (on : Bool) (s : State),
    (watched s.node ch = false → ∀ c, c ∈ [Instr.wireBreakConfirm t ch, .repairConfirm t ch, .excitationLimit t ch,
      .excitationLimitEnd t ch, .thermalLimit t ch on] → Acts c s t (fun n u => SameButSignals u n)) ∧
    (watched s.node ch = true →
      (hasBreak s.node ch = true → (frontOf s.node ch).open_ = false → (diagOf s.node ch).slotEnd ≤ max s.node.now t →
        Acts (.wireBreakConfirm t ch) s t (fun n u =>
          SameButSignals u { n with fronts := u.fronts } ∧ (∀ c, c ≠ ch → frontOf u c = frontOf n c) ∧
          frontOf u ch = { frontOf n ch with
            open_ := true, openAt := n.now, cutOpen := (frontOf n ch).cutOpen || decide (n.now ≤ n.sAt + 100000) })) ∧
      (hasBreak s.node ch = false ∨ (frontOf s.node ch).open_ = true ∨ max s.node.now t < (diagOf s.node ch).slotEnd →
        Acts (.wireBreakConfirm t ch) s t (fun n u => SameButSignals u n)) ∧
      ((frontOf s.node ch).open_ = true → (frontOf s.node ch).tcHigh = 0 →
        max (frontOf s.node ch).openAt (frontOf s.node ch).tcEnd + max 10000000 (3 * s.node.period) ≤ max s.node.now t →
        Acts (.repairConfirm t ch) s t (fun n u =>
          SameButSignals u { n with fronts := u.fronts } ∧ (∀ c, c ≠ ch → frontOf u c = frontOf n c) ∧
          frontOf u ch = { frontOf n ch with
            open_ := false, cutOpen := (frontOf n ch).cutOpen && !decide (n.now ≤ n.sAt + 100000),
            tes := (frontOf n ch).tes ++ [n.now] })) ∧
      ((frontOf s.node ch).open_ = false ∨ (frontOf s.node ch).tcHigh ≠ 0 ∨
          max s.node.now t < max (frontOf s.node ch).openAt (frontOf s.node ch).tcEnd + max 10000000 (3 * s.node.period) →
        Acts (.repairConfirm t ch) s t (fun n u => SameButSignals u n)) ∧
      ((frontOf s.node ch).excLim = false → Acts (.excitationLimit t ch) s t (fun n u =>
        SameButSignals u { n with fronts := u.fronts } ∧ (∀ c, c ≠ ch → frontOf u c = frontOf n c) ∧
        frontOf u ch = { frontOf n ch with
          excLim := true, cutExc := (frontOf n ch).cutExc || decide (n.now ≤ n.sAt + 100000) }) ∧
        Acts (.excitationLimitEnd t ch) s t (fun n u => SameButSignals u n)) ∧
      ((frontOf s.node ch).excLim = true → Acts (.excitationLimitEnd t ch) s t (fun n u =>
        SameButSignals u { n with fronts := u.fronts } ∧ (∀ c, c ≠ ch → frontOf u c = frontOf n c) ∧
        frontOf u ch = { frontOf n ch with
          excLim := false, cutExc := (frontOf n ch).cutExc && !decide (n.now ≤ n.sAt + 100000),
          tes := (frontOf n ch).tes ++ [n.now] }) ∧
        Acts (.excitationLimit t ch) s t (fun n u => SameButSignals u n)) ∧
      (isAo s.node ch = true → Acts (.thermalLimit t ch on) s t (fun n u =>
        SameButSignals u { n with stages := u.stages } ∧ (∀ c, c ≠ ch → stageOf u c = stageOf n c) ∧
        stageOf u ch = { stageOf n ch with limiting := on })) ∧
      (isAo s.node ch = false → Acts (.thermalLimit t ch on) s t (fun n u => SameButSignals u n)))

/-- AO_SET (06 R142, R144): on a locked page discarded with CMD_RES LOCKED; out of range, with a reserved bit, or on a
module that does not hold the claim, discarded with SET_REJ; otherwise it waits for a boundary, after the writes before
it. RNK_CMD waits for a boundary, at which it clears its rank's three link counts and nothing else
(`CallAndLaneCommandsTakenUp`). -/
def Obligations.SetpointsAndRankClear : Prop :=
  ∀ (t ch r : Nat) (v : Word) (s : State), ch < 512 → r < 16 →
    ((headerOf s.node (0x10 + ch / 32)).locked = true → Acts (.aoSetWrite t ch v) s t (fun n u =>
      SameButSignals u { n with seqs := u.seqs } ∧
      seqOf u hostPath (0x10 + ch / 32) = { seqOf n hostPath (0x10 + ch / 32) with cmdRes := 8 })) ∧
    ((headerOf s.node (0x10 + ch / 32)).locked = false →
      (240000 < v.toNat ∨ holder s.node = false → Acts (.aoSetWrite t ch v) s t (fun n u =>
        SameButSignals u { n with headers := u.headers } ∧ Raised n u (0x10 + ch / 32) 8 ∧
        ∀ p, p ≠ 0x10 + ch / 32 → headerOf u p = headerOf n p)) ∧
      (v.toNat ≤ 240000 → holder s.node = true → Acts (.aoSetWrite t ch v) s t (fun n u =>
        SameButSignals u { n with stages := u.stages } ∧ (∀ c, c ≠ ch → stageOf u c = stageOf n c) ∧
        stageOf u ch = { stageOf n ch with pend := (stageOf n ch).pend ++ [(v.toNat, n.now)] }))) ∧
    (judge (atInstant s t) hostPath (0x10 + r) { state := inStates s.node 30, level := levelOk s.node hostPath 1 } = .accept →
      Acts (.rnkCmdClear t r) s t (fun n u =>
        SameButSignals u (deferred n hostPath (0x10 + r) (at_ (0x10 + r) 0x70) 1 (.rnkClear r))))

/-! The alarm engine (08) -/

/-- Cautions (08 R184): where the engine evaluates a caution its STATE is ACT_ACK while ACTIVE is 1 and NORMAL
otherwise; ACK, SILENCE and TRANSFER have no effect on it; one that becomes disabled is NORMAL and not active. -/
def Obligations.CautionsNeedNoAcknowledgement : Prop :=
  ∀ (n : Node) (k src : Nat), ptPrio n k = 0 →
    ((pointOf n k).disabled = false →
      (pointOf (evalAlert n k) k).state = if (pointOf (evalAlert n k) k).active then .actAck else .normal) ∧
    (∀ e ∈ [AlmEvent.ack, .silence, .transfer], command n k e src = n) ∧
    (pointOf (disablePt n k) k).state = .normal ∧ (pointOf (disablePt n k) k).active = false

/-- An event of the alarm engine or the call acts in the module that evaluates them, in CONFIG, RUN and SAFE. -/
def Sys2Proof.evaluates (n : Node) : Prop := operational n = true ∧ follows n = false

/-- The delays (08 R171, R173): where the count of a point that is not held has passed its limit, COND follows RAW;
otherwise, and in a module that does not evaluate, nothing changes. The timers of points and groups (08 R182, R183,
R187, R190): the silence timer returns a point to ACT_UNACK; the end of shelving puts an active point that is no caution
into ACT_UNACK and leaves another's state; a release that has run out ends suppression where the group's source can be
read; a first-out that has stood for its window is STABLE. Each tells its interrupt at the next RESULT_READY. -/
def Obligations.AlarmTimersExpire : Prop :=
  (∀ (t k : Nat) (s : State),
     (evaluates s.node →
       ((pointOf s.node k).disabled = false → (pointOf s.node k).held = false → (pointOf s.node k).raw = true →
         (pointOf s.node k).cond = false → ptOn s.node k < (pointOf s.node k).onCnt →
         Acts (.onDelayExpire t k) s t (fun n u => SameButSignals u { n with points := u.points } ∧
           (∀ j, j ≠ k → pointOf u j = pointOf n j) ∧ pointOf u k = { pointOf n k with cond := true, offCnt := 0 })) ∧
       ((pointOf s.node k).disabled = false → (pointOf s.node k).held = false → (pointOf s.node k).raw = false →
         (pointOf s.node k).cond = true → ptOff s.node k < (pointOf s.node k).offCnt →
         Acts (.offDelayExpire t k) s t (fun n u => SameButSignals u { n with points := u.points } ∧
           (∀ j, j ≠ k → pointOf u j = pointOf n j) ∧ pointOf u k = { pointOf n k with cond := false, onCnt := 0 })) ∧
       ((pointOf s.node k).disabled = true ∨ (pointOf s.node k).held = true ∨
           (pointOf s.node k).onCnt ≤ ptOn s.node k → Acts (.onDelayExpire t k) s t (fun n u =>
         SameButSignals u { n with points := u.points } ∧ ∀ j, pointOf u j = pointOf n j)) ∧
       ((pointOf s.node k).disabled = true ∨ (pointOf s.node k).held = true ∨
           (pointOf s.node k).offCnt ≤ ptOff s.node k → Acts (.offDelayExpire t k) s t (fun n u =>
         SameButSignals u { n with points := u.points } ∧ ∀ j, pointOf u j = pointOf n j))) ∧
     (¬ evaluates s.node → ∀ c, c ∈ [Instr.onDelayExpire t k, .offDelayExpire t k, .releaseExpire t k,
         .silenceTimerExpire t k, .shelveExpire t k, .foStable t k, .transferExpire t k, .watchPrewarn t, .watchAlarm t,
         .callStageEscalate t k] → Acts c s t (fun n u => SameButSignals u n))) ∧
  (∀ (t k : Nat) (s : State), evaluates s.node →
     ((pointOf s.node k).state = .actSilenced → (pointOf s.node k).silLeft = 0 →
       Acts (.silenceTimerExpire t k) s t (fun n u => (pointOf u k).state = .actUnack ∧
         (∀ j, j ≠ k → pointOf u j = pointOf n j) ∧ (ptPage k, if k < 4096 then 0 else 6) ∈ u.dueR ∧
         k ∈ u.net.almChanges ∧ u.regs = n.regs)) ∧
     ((pointOf s.node k).state ≠ .actSilenced → Acts (.silenceTimerExpire t k) s t (fun n u => SameButSignals u n)) ∧
     ((pointOf s.node k).shelved = true → (pointOf s.node k).shelLeft = 0 → Acts (.shelveExpire t k) s t (fun n u =>
       (pointOf u k).shelved = false ∧ (∀ j, j ≠ k → pointOf u j = pointOf n j) ∧ (9, 4) ∈ u.dueR ∧
       (pointOf u k).state = (if (pointOf n k).active = true ∧ ptPrio n k ≠ 0 then .actUnack else (pointOf n k).state))) ∧
     ((pointOf s.node k).shelved = false → Acts (.shelveExpire t k) s t (fun n u => SameButSignals u n)) ∧
     (∀ c, (groupOf s.node k).suppressing = true → (groupOf s.node k).passed = some c → 0 < c →
       fld (grpReg s.node k 0x68) 23 0 ≤ c → srcUnreadable s.node (fld (grpReg s.node k 0x64) 15 0) = false →
       Acts (.releaseExpire t k) s t (fun n u =>
         SameButSignals u { n with groups := u.groups, dueR := n.dueR ++ [(9, 3)] } ∧
         (∀ g, g ≠ k → groupOf u g = groupOf n g) ∧ groupOf u k = { groupOf n k with suppressing := false })) ∧
     ((groupOf s.node k).suppressing = false ∨ srcUnreadable s.node (fld (grpReg s.node k 0x64) 15 0) = true →
       Acts (.releaseExpire t k) s t (fun n u => SameButSignals u n)) ∧
     (∀ c, (groupOf s.node k).since = some c → (groupOf s.node k).stable = false →
       (fld (reg s.node (at_ 9 0x40)) 27 16 ≤ c → Acts (.foStable t k) s t (fun n u =>
         SameButSignals u { n with groups := u.groups, dueR := n.dueR ++ [(9, 1)] } ∧
         (∀ g, g ≠ k → groupOf u g = groupOf n g) ∧ groupOf u k = { groupOf n k with stable := true })) ∧
       (c < fld (reg s.node (at_ 9 0x40)) 27 16 → Acts (.foStable t k) s t (fun n u => SameButSignals u n))))

/-! Messages, the call and the bridge (05, 08, 09, 14) -/

/-- The call in the module that evaluates it (09 R199 to R206, R210): STAGE is the highest at which a point calls; a
point whose transfer has outlasted its limit calls again, at the age of T2; the watch that has run out goes from RUNNING
to PREWARN and from there to ALARM, and each change tells its interrupt. Before their limits points and watch stand. -/
def Obligations.CallTimersExpire : Prop :=
  ∀ (t k : Nat) (s : State), evaluates s.node →
    Acts (.callStageEscalate t k) s t (fun n u =>
      SameButRecords u { n with call := u.call, stations := u.stations, dueR := u.dueR } ∧
      u.call.stage = (callingPts n).foldl (fun a p => max a (effStage n p)) 0 ∧
      u.call.summary = decide (u.call.stage = 3) ∧ u.call.ncall = (callingPts n).length ∧
      u.call.watch = n.call.watch ∧ (u.call.stage ≠ n.call.stage → (7, 0) ∈ u.dueR)) ∧
    ((pointOf s.node k).state = .actTransferred → (pointOf s.node k).again = false →
      callXfr s.node ≤ (pointOf s.node k).xfr → Acts (.transferExpire t k) s t (fun n u =>
        pointOf u k = { pointOf n k with again := true, age := callT2 n } ∧ (∀ j, j ≠ k → pointOf u j = pointOf n j) ∧
        u.regs = n.regs)) ∧
    ((pointOf s.node k).state ≠ .actTransferred ∨ (pointOf s.node k).again = true ∨
      (pointOf s.node k).xfr < callXfr s.node → Acts (.transferExpire t k) s t (fun n u => u.points = n.points)) ∧
    (s.node.call.watch = .running → watchT s.node ≤ s.node.call.watchCnt → Acts (.watchPrewarn t) s t (fun n u =>
      u.call.watch = .prewarn ∧ u.call.watchCnt = 0 ∧ (7, 5) ∈ u.dueR ∧ u.points = n.points)) ∧
    (s.node.call.watch = .running → s.node.call.watchCnt < watchT s.node → Acts (.watchPrewarn t) s t (fun n u =>
      u.call.watch = .running ∧ u.call.watchCnt = n.call.watchCnt ∧ u.points = n.points)) ∧
    (s.node.call.watch ≠ .running → Acts (.watchPrewarn t) s t (fun n u => SameButSignals u n)) ∧
    (s.node.call.watch = .prewarn → watchP s.node ≤ s.node.call.watchCnt → Acts (.watchAlarm t) s t (fun n u =>
      u.call.watch = .alarm ∧ u.call.watchCnt = 0 ∧ (7, 5) ∈ u.dueR ∧ u.points = n.points)) ∧
    (s.node.call.watch = .prewarn → s.node.call.watchCnt < watchP s.node → Acts (.watchAlarm t) s t (fun n u =>
      u.call.watch = .prewarn ∧ u.call.watchCnt = n.call.watchCnt ∧ u.points = n.points)) ∧
    (s.node.call.watch ≠ .prewarn → Acts (.watchAlarm t) s t (fun n u => SameButSignals u n))

/-- The keys of a station (14 Table 14.8): instant, message, station, key, its number, and its argument. -/
def Sys2Proof.stationKey : Instr → Option (Nat × MsgHead × Nat × Nat × Nat × Nat)
  | .stnAccept t h k q => some (t, h, k, 0, q, 0)
  | .stnSilence t h k q => some (t, h, k, 1, q, 0)
  | .stnAck t h k q => some (t, h, k, 2, q, 0)
  | .stnWatchReset t h k q => some (t, h, k, 3, q, 0)
  | .stnWatchOn t h k q => some (t, h, k, 4, q, 0)
  | .stnWatchOff t h k q => some (t, h, k, 5, q, 0)
  | .stnDutySet t h k q a => some (t, h, k, 6, q, a)
  | _ => none

/-- Stations (09 R198, 14 R332): a poll, in the frames that begin a second and by the holder, awaits a reply of every
configured station; an unanswered poll before it counts, and the third in a row loses the station. A reply to a poll
clears the count, and the second in a row brings a lost station back. Any other poll or reply has no effect. A key of a
configured station (14 R333) counts as a reply and waits for the next evaluation, which applies it once: a number
repeated, and a key the station's role does not permit, change nothing; the watch keys and the duty key of an ECR act on
the watch and the duty engineer. Any other sender's key has no effect. -/
def Obligations.StationsAndTheirKeys : Prop :=
  (∀ (t k : Nat) (h : MsgHead) (s : State),
     (holder s.node = true → inStates s.node 30 = true → s.node.frame % framesPerSec s.node = 0 →
       Acts (.stationPoll t) s t (fun n u => u.regs = n.regs ∧ u.points = n.points ∧
         (k < 16 → stnEn n k = true → (stationOf u k).awaiting = true ∧
           ((stationOf n k).link = 1 →
             (stationOf u k).link = (if 3 ≤ (if (stationOf n k).awaiting then min 255 ((stationOf n k).missed + 1)
               else (stationOf n k).missed) then 2 else 1))))) ∧
     (holder s.node = false ∨ inStates s.node 30 = false ∨ s.node.frame % framesPerSec s.node ≠ 0 →
       Acts (.stationPoll t) s t (fun n u => SameButSignals u n)) ∧
     (fromStation s.node h k = true → (stationOf s.node k).awaiting = true → Acts (.stnReply t h k) s t (fun n u =>
       SameButRecords u { n with stations := u.stations, dueR := u.dueR } ∧
       (∀ j, j ≠ k → stationOf u j = stationOf n j) ∧ (stationOf u k).awaiting = false ∧ (stationOf u k).missed = 0 ∧
       (stationOf u k).replies = min 255 ((stationOf n k).replies + 1) ∧
       (stationOf u k).link = (if (stationOf n k).link = 2 ∧ 2 ≤ (stationOf n k).replies + 1 then 1 else (stationOf n k).link))) ∧
     (fromStation s.node h k = false ∨ (stationOf s.node k).awaiting = false →
       Acts (.stnReply t h k) s t (fun n u => SameButSignals u n))) ∧
  ((∀ (c : Instr) (t k key q arg : Nat) (h : MsgHead) (s : State), stationKey c = some (t, h, k, key, q, arg) →
     (fromStation s.node h k = true → Acts c s t (fun n u =>
       SameButRecords u { n with stations := u.stations, dueR := u.dueR, net := { n.net with remote := u.net.remote } } ∧
       (∀ j, j ≠ k → stationOf u j = stationOf n j) ∧ u.net.remote.length = n.net.remote.length + 1 ∧
       { tag := n.frame, at_ := n.now, order := h.ctrl, act := .key h.ctrl h.src k key q arg } ∈ u.net.remote)) ∧
     (fromStation s.node h k = false → Acts c s t (fun n u => SameButSignals u n))) ∧
   ∀ (n : Node) (k key q arg : Nat),
     ((stationOf n k).kseq = some q → keyEff n k key q arg = n) ∧
     ((stationOf n k).kseq ≠ some q → stnEn n k = true →
       (stnRole n k < 2 → 2 ≤ key → key < 6 → keyEff n k key q arg = n) ∧
       (2 ≤ stnRole n k → n.call.watch = .alarm → (keyEff n k 3 q arg).call.watch = .running) ∧
       (2 ≤ stnRole n k → n.call.watch = .off → (keyEff n k 4 q arg).call.watch = .running) ∧
       (2 ≤ stnRole n k → (keyEff n k 5 q arg).call.watch = .off) ∧
       (stnRole n k = 2 → arg ≤ 15 → dutyEng (keyEff n k 6 q arg) = arg)))

/-- Remote commands over CAN (14 R334): taken by the holder where addressed to it or to all, they wait for the next
evaluation; any other has no effect. The evaluation answers VALUE out of range, NOT_PERMITTED for an OP that is neither
ACK nor SILENCE and for an ACK of a point that does not admit it, DUPLICATE for a number repeated, none of which changes
a point, and otherwise applies it. That VALUE goes before NOT_PERMITTED and this before DUPLICATE is the model's order
(log entry 70). -/
def Obligations.RemoteCommandsWaitAndApply : Prop :=
  (∀ (t dest tgt index q : Nat) (h : MsgHead) (s : State),
    (accepts s.node h = true → holder s.node = true → dest = msgAddr s.node ∨ dest = 0xFE →
      Acts (.rcmdAck t h dest tgt index q) s t (fun n u =>
        SameButSignals u { n with net := { n.net with remote := u.net.remote } } ∧
        u.net.remote.length = n.net.remote.length + 1 ∧
        { tag := n.frame, at_ := n.now, order := h.ctrl, act := .rcmd h.ctrl h.src dest 1 tgt index q } ∈ u.net.remote) ∧
      Acts (.rcmdSilence t h dest tgt index q) s t (fun n u =>
        SameButSignals u { n with net := { n.net with remote := u.net.remote } } ∧
        u.net.remote.length = n.net.remote.length + 1 ∧
        { tag := n.frame, at_ := n.now, order := h.ctrl, act := .rcmd h.ctrl h.src dest 2 tgt index q } ∈ u.net.remote)) ∧
    (accepts s.node h = false ∨ holder s.node = false ∨ (dest ≠ msgAddr s.node ∧ dest ≠ 0xFE) →
      Acts (.rcmdAck t h dest tgt index q) s t (fun n u => SameButSignals u n) ∧
      Acts (.rcmdSilence t h dest tgt index q) s t (fun n u => SameButSignals u n))) ∧
  ∀ (n : Node) (src op tgt index q : Nat),
    (rcmdRange tgt index = false → rcmdApply n src op tgt index q = (n, 2, 0)) ∧
    (rcmdRange tgt index = true → op ≠ 1 → op ≠ 2 → rcmdApply n src op tgt index q = (n, 1, 0)) ∧
    (rcmdRange tgt index = true → op = 1 ∨ op = 2 → ¬ (op = 1 ∧ tgt = 0 ∧ bit (ptAttr n index) 17 = false) →
      (tget none n.net.rseqs src = some q → rcmdApply n src op tgt index q = (n, 3, 0)) ∧
      (tget none n.net.rseqs src ≠ some q → (rcmdApply n src op tgt index q).2.1 = 0 ∧
        tget none (rcmdApply n src op tgt index q).1.net.rseqs src = some q)) ∧
    (rcmdRange 0 index = true → bit (ptAttr n index) 17 = false → rcmdApply n src 1 0 index q = (n, 1, 0))

/-- Results and alarms of other nodes (05 R121, R122, 08 R192): the entries of a RESULT that an enabled peer entry names
wait for the next frame, with their carried instants; a message that names none, or that the node does not take, changes
nothing. The age of an entry is counted from its instant, and beyond its limit it is stale, as a disabled entry is.
ACTIVE of a point is kept with each alarm message; a rise of it that is no refresh, in a linked group, waits as a
first-out candidate, in the holder. That a point of which no message has come counts as not ACTIVE is the model's
reading (log entry 94). What the node sends of itself on CAN (14 R329, R330): the heartbeat, by the holder in the frames
that begin a second, goes to every controller with the node layer, where it waits in the order of its class if the
controller cannot send at once; alarm refreshes go in rounds 10 s apart, at most 50 of them a second. Neither changes a
register, a point or a result; at other times nothing changes. -/
def Obligations.NodeMessagesReceivedAndSent : Prop :=
  (∀ (t e sample period q point group state time : Nat) (active refresh : Bool) (h : MsgHead) (es : List ResultEntry)
     (s : State),
     (accepts s.node h = true → (∃ x ∈ es, peerEntries s.node h.src x.ch ≠ []) →
       Acts (.resultMessageReceived t h sample period q es) s t (fun n u =>
         SameButSignals u { n with peerMsgs := u.peerMsgs } ∧
         ∃ m, u.peerMsgs = n.peerMsgs ++ [m] ∧ m.tag = n.frame ∧ m.src = h.src ∧ m.qual = q ∧
           ∀ x ∈ es, peerEntries n h.src x.ch ≠ [] →
             { ch := x.ch, stat := x.stat, val := x.val, tai := sample - x.dly * period } ∈ m.entries)) ∧
     (accepts s.node h = false ∨ (∀ x ∈ es, peerEntries s.node h.src x.ch = []) →
       Acts (.resultMessageReceived t h sample period q es) s t (fun n u => SameButSignals u n)) ∧
     (e < 64 → bit (peerCfg s.node e) 31 = true → Acts (.peerStale t e) s t (fun n u =>
       SameButSignals u { n with peers := u.peers, dueR := u.dueR } ∧ (∀ j, j ≠ e → peerOf u j = peerOf n j) ∧
       peerOf u e = { peerOf n e with
         age := ageOf n (peerOf n e), stale := !(peerOf n e).has || decide (fld (peerCfg n e) 15 8 < ageOf n (peerOf n e)) } ∧
       u.dueR = (if (peerOf u e).stale && !(peerOf n e).stale then n.dueR ++ [(2, 2)] else n.dueR))) ∧
     (e < 64 → bit (peerCfg s.node e) 31 = false → Acts (.peerStale t e) s t (fun n u =>
       SameButSignals u { n with peers := u.peers } ∧ (∀ j, j ≠ e → peerOf u j = peerOf n j) ∧
       peerOf u e = { peerOf n e with stale := true })) ∧
     (accepts s.node h = true → Acts (.alarmMessageReceived t h point group state time q active refresh) s t (fun n u =>
       SameButSignals u { n with remoteActs := u.remoteActs, remoteFos := u.remoteFos } ∧
       tget false u.remoteActs (8192 * h.src + point) = active ∧
       (∀ k, k ≠ 8192 * h.src + point → tget false u.remoteActs k = tget false n.remoteActs k) ∧
       (holder n = true → active = true → tget false n.remoteActs (8192 * h.src + point) = false → refresh = false →
         state = 1 ∨ state = 3 → linkedGroups n h.src group ≠ [] → u.remoteFos = n.remoteFos ++
           [{ tag := n.frame, srcGroup := group,
              cand := { qual := q, time := time, point := point, node := h.src, remote := true } }]) ∧
       (holder n = false ∨ active = false ∨ tget false n.remoteActs (8192 * h.src + point) = true ∨ refresh = true ∨
         (state ≠ 1 ∧ state ≠ 3) ∨ linkedGroups n h.src group = [] → u.remoteFos = n.remoteFos))) ∧
     (accepts s.node h = false →
       Acts (.alarmMessageReceived t h point group state time q active refresh) s t (fun n u => SameButSignals u n))) ∧
  (∀ (t c : Nat) (s : State),
     (holder s.node = true → s.node.frame % framesPerSec s.node = 0 → Acts (.canHeartbeatSend t) s t (fun n u =>
       SameButRecords u { n with cans := u.cans } ∧
       (c < 24 → nodeLayer n c = false → canOf u c = canOf n c) ∧
       (c < 24 → nodeLayer n c = true → n.laneSt.state ≠ 3 → canSends (canOf n c) = false → (canOf n c).nodeQ.length < 256 →
         (canOf u c).nodeQ = insertMsg (ownMsg n 2 0x10 0 0 (heartbeatData n)) (canOf n c).nodeQ))) ∧
     (holder s.node = false ∨ s.node.frame % framesPerSec s.node ≠ 0 →
       Acts (.canHeartbeatSend t) s t (fun n u => SameButSignals u n)) ∧
     (holder s.node = true → operational s.node = true → s.node.net.refCursor = 0 →
       (∀ a, s.node.net.refLast = some a → a + 1000000000 ≤ max s.node.now t) →
       (∀ a, s.node.net.refStart = some a → a + 10000000000 ≤ max s.node.now t) → Acts (.alarmRefresh t) s t (fun n u =>
         SameButRecords u { n with cans := u.cans, net := u.net } ∧ u.net.refStart = some n.now ∧
         u.net.refLast = some n.now ∧ u.net.almSeq = n.net.almSeq ∧
         ((refreshPts n).length ≤ 50 → u.net.refCursor = 0))) ∧
     (holder s.node = false ∨ operational s.node = false ∨
         (s.node.net.refCursor = 0 ∧ ∃ a, s.node.net.refStart = some a ∧ max s.node.now t < a + 10000000000) ∨
         (∃ a, s.node.net.refLast = some a ∧ max s.node.now t < a + 1000000000) →
       Acts (.alarmRefresh t) s t (fun n u => SameButSignals u n)))

/-- The bridge's commands, by their letter. -/
def Sys2Proof.acnOf (t letter : Nat) (rx : RxHead) (ident inst : Nat) : Instr :=
  match letter with
  | 0 => .acnAck t rx ident inst
  | 1 => .acnSilence t rx ident inst
  | 2 => .acnTransfer t rx ident inst
  | _ => .acnRequest t rx { letter := 'Q', ident := ident } inst

/-- The bridge link (09 R209): a good heartbeat on a port that takes sentences restarts it in the holder, and one after
a loss has every presented alert sent again; a link that is silent for its limit is declared lost, where ports are
marked for it, in every state after INIT. A sentence on a port that takes none changes nothing, and one that is not
good, or that the other module receives, is only counted. Sentences the formatter sends of itself (14 R337, R338): every
10 s the heartbeat goes on every port marked for the bridge, status A in TMR and DUAL and V otherwise; every 30 s the
alert list names every presented alert on each; every 60 s a repetition sends each of them again. They change the ports
and their counts alone; only the holder sends them, and none before its time. A command of the bridge (14 R338) that the
holder receives well: for another node's number it changes no alert; for an alert not presented, an acknowledgement the
bridge may not give, or a letter that is none of A, S, O and Q, an ARC answers it on its port; an acknowledgement,
silence or transfer otherwise waits for the next evaluation; a request has the alert sent again. No point changes at
once. -/
def Obligations.BridgeLinkAndCommands : Prop :=
  (∀ (t : Nat) (rx : RxHead) (s : State),
     let silent := s.node.call.lastHbt.getD s.node.nodeSt.upSince + fld (reg s.node (at_ 7 0x54)) 7 0 * 1000000000 ≤
       max s.node.now t
     (rxTaken s.node rx = true → rxGood s.node rx = true → holder s.node = true →
       Acts (.bridgeHbtReceived t rx) s t (fun n u =>
         u.call = { n.call with lastHbt := some n.now, brLost := false } ∧ u.regs = n.regs ∧ u.points = n.points ∧
         (n.call.brLost = true → u.net.resend = true ∧ (7, 4) ∈ u.dueR) ∧ (n.call.brLost = false → u.dueR = n.dueR))) ∧
     (rxTaken s.node rx = true → rxGood s.node rx = false ∨ holder s.node = false →
       Acts (.bridgeHbtReceived t rx) s t (fun n u => u.call = n.call ∧ u.dueR = n.dueR ∧ u.points = n.points ∧
         u.net.presented = n.net.presented)) ∧
     (rxTaken s.node rx = false → Acts (.bridgeHbtReceived t rx) s t (fun n u => SameButSignals u n)) ∧
     (holder s.node = true → s.node.nodeSt.state ≠ .init → fld (reg s.node (at_ 7 0x54)) 21 16 ≠ 0 →
       s.node.call.brLost = false → silent → Acts (.bridgeLinkLost t) s t (fun n u =>
         SameButRecords u { n with call := { n.call with brLost := true }, dueR := n.dueR ++ [(7, 3)] })) ∧
     (holder s.node = false ∨ s.node.nodeSt.state = .init ∨ fld (reg s.node (at_ 7 0x54)) 21 16 = 0 ∨
         s.node.call.brLost = true ∨ ¬ silent →
       Acts (.bridgeLinkLost t) s t (fun n u => SameButSignals u n))) ∧
  (∀ (t p : Nat) (s : State),
     (holder s.node = true →
       ((∀ a, s.node.net.hbtAt = some a → a + 10000000000 ≤ max s.node.now t) → Acts (.hbtSend t) s t (fun n u =>
         SameButSignals u { n with net := u.net } ∧ u.net.hbtAt = some n.now ∧
         (p ∈ ethActive n → (ethOf u p).tx = (ethOf n p).tx + 1 ∧
           ∃ l, .eth p (ethReg n p 0x60) (fld (ethReg n p 0x64) 15 0) (ethReg n p 0x5C) l
             (.hbt (if n.laneSt.state = 0 ∨ n.laneSt.state = 1 then 'A' else 'V')) ∈ u.outs) ∧
         (p ∈ serActive n → (serOf u p).tx = (serOf n p).tx + 1 ∧
           .ser p (fld (serCfg n p) 23 8) (.hbt (if n.laneSt.state = 0 ∨ n.laneSt.state = 1 then 'A' else 'V')) ∈ u.outs))) ∧
       ((∀ a, s.node.net.alcAt = some a → a + 30000000000 ≤ max s.node.now t) → Acts (.alcSend t) s t (fun n u =>
         SameButSignals u { n with net := u.net } ∧ u.net.alcAt = some n.now ∧
         u.net.presented = n.net.presented ∧
         (present n = [] → SameButSignals u { n with net := { n.net with alcAt := some n.now } }) ∧
         (present n ≠ [] → (present n).length ≤ 4 → p ∈ serActive n →
           .ser p (fld (serCfg n p) 23 8)
             (.alc ((present n).map (fun a => (alertIdent a, msgAddr n + 1, stateLetter (shownOf n a).state)))) ∈ u.outs))) ∧
       ((∀ a, s.node.net.alfAt = some a → a + 60000000000 ≤ max s.node.now t) → Acts (.alfRepeat t) s t (fun n u =>
         SameButSignals u { n with net := u.net } ∧ u.net.alfAt = some n.now ∧
         u.net.summary = n.net.summary ∧ u.net.callFault = n.net.callFault ∧ u.net.watch = n.net.watch ∧
         (p ∈ serActive n → (serOf u p).queue = [] ∧
           ∀ a, a ∈ present n → .ser p (fld (serCfg n p) 23 8) (alfOf n a) ∈ u.outs)))) ∧
     (holder s.node = false ∨ (∃ a, s.node.net.hbtAt = some a ∧ max s.node.now t < a + 10000000000) →
       Acts (.hbtSend t) s t (fun n u => SameButSignals u n)) ∧
     (holder s.node = false ∨ (∃ a, s.node.net.alcAt = some a ∧ max s.node.now t < a + 30000000000) →
       Acts (.alcSend t) s t (fun n u => SameButSignals u n)) ∧
     (holder s.node = false ∨ (∃ a, s.node.net.alfAt = some a ∧ max s.node.now t < a + 60000000000) →
       Acts (.alfRepeat t) s t (fun n u => SameButSignals u n))) ∧
  (∀ (t letter ident inst p : Nat) (ch : Char) (rx : RxHead) (s : State), letter < 4 →
     (rxTaken s.node rx = false → Acts (acnOf t letter rx ident inst) s t (fun n u => SameButSignals u n)) ∧
     (rxTaken s.node rx = true → rxGood s.node rx = true → holder s.node = true →
       (rx.port = .eth p →
         (inst ≠ msgAddr s.node + 1 → Acts (acnOf t letter rx ident inst) s t (fun n u => SameButSignals u n)) ∧
         (inst = msgAddr s.node + 1 →
           ((∀ a, alertOf ident = some a → (shownOf s.node a).state = 0 ∨ (letter = 0 ∧ alertB s.node a = false)) →
             Acts (acnOf t letter rx ident inst) s t (fun n u =>
               SameButSignals u { n with net := u.net, headers := u.headers } ∧ bit (headerOf u (0x58 + p)).irqStat 3 = true ∧
               ∃ g d f l c, .eth p g d f l (.arc c ident inst) ∈ u.outs)) ∧
           (ch ∉ ['A', 'S', 'O', 'Q'] → Acts (.acnRequest t rx { letter := ch, ident := ident } inst) s t (fun n u =>
               SameButSignals u { n with net := u.net, headers := u.headers } ∧ bit (headerOf u (0x58 + p)).irqStat 3 = true ∧
               ∃ g d f l, .eth p g d f l (.arc ch ident inst) ∈ u.outs)) ∧
           (∀ a, alertOf ident = some a → (shownOf s.node a).state ≠ 0 → (letter = 0 → alertB s.node a = true) →
             (letter < 3 → Acts (acnOf t letter rx ident inst) s t (fun n u =>
               SameButSignals u { n with net := u.net } ∧ (ethOf u p).acn = min 65535 ((ethOf n p).acn + 1) ∧
               { tag := n.frame, at_ := n.now, order := 24 + p, act := .acn letter a } ∈ u.net.remote)) ∧
             (letter = 3 → Acts (acnOf t letter rx ident inst) s t (fun n u =>
               SameButSignals u { n with net := u.net } ∧ u.net.remote = n.net.remote))))) ∧
       (rx.port = .ser p →
         (inst ≠ msgAddr s.node + 1 → Acts (acnOf t letter rx ident inst) s t (fun n u =>
           SameButSignals u { n with net := { n.net with ser := u.net.ser } } ∧
           serOf u p = { serOf n p with ok := min 65535 ((serOf n p).ok + 1), lastOk := some n.now })) ∧
         (inst = msgAddr s.node + 1 →
           ((∀ a, alertOf ident = some a → (shownOf s.node a).state = 0 ∨ (letter = 0 ∧ alertB s.node a = false)) →
             Acts (acnOf t letter rx ident inst) s t (fun n u => SameButSignals u { n with net := u.net } ∧
               ∃ b c, .ser p b (.arc c ident inst) ∈ u.outs)) ∧
           (∀ a, alertOf ident = some a → (shownOf s.node a).state ≠ 0 → (letter = 0 → alertB s.node a = true) → letter < 3 →
             Acts (acnOf t letter rx ident inst) s t (fun n u => SameButSignals u { n with net := u.net } ∧
               { tag := n.frame, at_ := n.now, order := 28 + p, act := .acn letter a } ∈ u.net.remote))))))

/-- The ports (14 R335, R340): a change of link takes its state and speed and is told at the next boundary; an ARP or
ICMP request is answered for the port's own address alone; a serial port without a valid sentence for 5 s after one is
told once; ETH_CMD and SER_CMD clear their port's counts; a stream stopped by the shed level sends STOPPED, and nothing
otherwise, and not twice within a second. -/
def Obligations.PortsOfTheNode : Prop :=
  ∀ (t p speed addr : Nat) (up echo : Bool) (s : State), p < 4 →
    ((ethOf s.node p).link ≠ up → Acts (.ethLinkChange t p up speed) s t (fun n u =>
      SameButSignals u { n with net := { n.net with eth := u.net.eth }, dueB := n.dueB ++ [(0x58 + p, if up then 0 else 1)] } ∧
      (∀ q, q ≠ p → ethOf u q = ethOf n q) ∧
      ethOf u p = { ethOf n p with link := up, anDone := up, full := up, speed := if up then speed % 4 else 0 })) ∧
    ((ethOf s.node p).link = up → Acts (.ethLinkChange t p up speed) s t (fun n u =>
      SameButSignals u { n with net := { n.net with eth := u.net.eth } } ∧ (ethOf u p).link = up)) ∧
    Acts (.arpIcmpRequest t p echo addr) s t (fun n u => SameButSignals u n ∧
      (bit (reg n (at_ (0x58 + p) 0x58)) 0 = true → addr = (reg n (at_ (0x58 + p) 0x4C)).toNat →
        (if echo then .icmp p else .arp p) ∈ u.outs) ∧
      (bit (reg n (at_ (0x58 + p) 0x58)) 0 = false ∨ addr ≠ (reg n (at_ (0x58 + p) 0x4C)).toNat →
        .icmp p ∉ u.outs ∧ .arp p ∉ u.outs)) ∧
    (∀ a, p < 2 → (serOf s.node p).lastOk = some a →
      (a + 5000000000 ≤ max s.node.now t → Acts (.serRxLost t p) s t (fun n u =>
        SameButSignals u { n with net := { n.net with ser := u.net.ser }, dueB := n.dueB ++ [(0x5C + p, 0)] } ∧
        serOf u p = { serOf n p with lastOk := none })) ∧
      (max s.node.now t < a + 5000000000 → Acts (.serRxLost t p) s t (fun n u => SameButSignals u n))) ∧
    (judge (atInstant s t) hostPath (0x58 + p) { state := inStates s.node 30, level := levelOk s.node hostPath 1 } = .accept →
      Acts (.ethCmdClear t p) s t (fun n u =>
        SameButSignals u { accepted n hostPath (0x58 + p) (at_ (0x58 + p) 0x9C) 1 (some true) with
          net := { n.net with eth := u.net.eth } } ∧
        ethOf u p = { ethOf n p with tx := 0, acn := 0, bad := 0, tr := 0 })) ∧
    (p < 2 → judge (atInstant s t) hostPath (0x5C + p) { state := inStates s.node 30, level := levelOk s.node hostPath 1 } = .accept →
      Acts (.serCmdClear t p) s t (fun n u =>
        SameButSignals u { accepted n hostPath (0x5C + p) (at_ (0x5C + p) 0x50) 1 (some true) with
          net := { n.net with ser := u.net.ser } } ∧
        serOf u p = { serOf n p with ok := 0, bad := 0, tx := 0 })) ∧
    (s.node.mgt.state = .run → 2 ≤ s.node.mgt.shed →
      (∀ a, s.node.net.stopAt = some a → a + 1000000000 ≤ max s.node.now t) → Acts (.trendStoppedSend t) s t (fun n u =>
        SameButSignals u { n with net := { n.net with eth := u.net.eth, stopAt := some n.now } } ∧
        (∀ st, st < 2 → trendOn n p st = true → ∃ d g m, .trend p d g m ∈ u.outs ∧ m.stopped = true ∧ m.entries = [] ∧
          m.stream = 2 * p + st))) ∧
    (s.node.mgt.state ≠ .run ∨ s.node.mgt.shed < 2 ∨
        (∃ a, s.node.net.stopAt = some a ∧ max s.node.now t < a + 1000000000) →
      Acts (.trendStoppedSend t) s t (fun n u => SameButSignals u n))

/-! The safety functions (10) -/

/-- What the trip fabric keeps at every event of its inputs (10 R218, R219): each copy that sees a fast demand of an enabled
function has that function's latch set, and an output that is not off is one whose switches the fabric's vote, the lanes'
command and the claim permit. -/
def Sys2Proof.fabricHolds (u : Node) : Prop :=
  (∀ fn ∈ enabledFns u, ∀ c, c < 3 → fastDemand u c fn = true → (copyOf u c).latch.getLsbD fn = true) ∧
  ∀ o, (outputOf u o).phase ≠ .off → maySwitch u o = true

/-- Fast inputs (04 R95, R96, 07 R146, R148, R159, 10 R218 to R220, R224), on the fabric as it stands at the instant: a
crossing sets each side of the comparator by its threshold and its hysteresis, and the copies that follow it take the
output unless an off-pulse holds them; a diagnostic slot shows its kind, and on a pair's channel holds the copies for 50
us; after either the fabric holds what it keeps. A second failed off-pulse in a row sets XSHORT, an eighth passing one
clears it. A disagreement that has lasted DT latches DISC_FLT at its tick and not before. A fabric test walks one copy
in turn, none while a copy is excluded. That a pulse between the two limits ends both runs is the model's choice (log
entry 92). -/
def Obligations.FastInputsReachTheFabric : Prop :=
  (∀ (t ch : Nat) (sigHi sigLo : Int) (copies : Nat) (s : State), Acts (.comparatorCrossing t ch sigHi sigLo copies) s t (fun n u =>
    let m := fabricAdvance n
    let f := frontOf m ch
    let g := frontOf u ch
    let h := hystSteps n ch * (thrValue n ch 1 - thrValue n ch 0)
    let hi := thrValue n ch (fld (chnCmp n ch) 27 16)
    let lo := thrValue n ch (fld (chnCmp n ch) 11 0)
    SameButSignals u { m with fronts := u.fronts, safety := u.safety, cmds := u.cmds } ∧ fabricHolds u ∧
    (∀ k, k ≠ ch → frontOf u k = frontOf m k) ∧ (watched n ch = false ∨ hasCmp n ch = false → u.fronts = m.fronts) ∧
    (watched n ch = true → hasCmp n ch = true →
      (isDi n ch = true → (g.hiSet = true ↔ 21000 ≤ sigHi ∨ (f.hiSet = true ∧ 12000 < sigHi)) ∧ g.loSet = false) ∧
      (isDi n ch = false →
        (g.hiSet = true ↔ hi < 40960 * sigHi ∨ (f.hiSet = true ∧ hi - h < 40960 * sigHi)) ∧
        (g.loSet = true ↔ 40960 * sigLo < lo ∨ (f.loSet = true ∧ 40960 * sigLo < lo + h))) ∧
      ∀ c, c < 3 → cmpCopy u c ch =
        (if n.now < f.holdUntil ∨ nbit copies c = false then cmpCopy m c ch else cmpOut u ch g)))) ∧
  (∀ (t : Nat) (results : List (Nat × SlotResult)) (s : State), Acts (.diagSlot t results) s t (fun n u =>
    let m := fabricAdvance n
    SameButRecords u { m with fronts := u.fronts, diags := u.diags, safety := u.safety, cmds := u.cmds } ∧ fabricHolds u ∧
    (∀ k ∈ slotChs m, chnSel n k = 9 → (diagOf u k).lastSlot = n.frame / 8 % 8 ∧ (frontOf u k).holdUntil = n.now + 50000) ∧
    (∀ k ∈ slotChs m, results = [] → (diagOf u k).lastSlot = slotKind m k) ∧
    ∀ k, k ∉ slotChs m → (diagOf u k).lastSlot = (diagOf m k).lastSlot ∧ frontOf u k = frontOf m k)) ∧
  (∀ (n : Node) (ch : Nat) (r : SlotResult),
    let e := ch / 2 * 2
    let d := diagOf n e
    let v := diagOf (slotPulse n ch r) e
    (12000 ≤ r.a ∨ 12000 ≤ r.b → v.xshort = (decide (1 ≤ d.failRow) || d.xshort)) ∧
    (r.a < 1500 → r.b < 1500 → v.xshort = (decide (d.passRow < 7) && d.xshort)) ∧
    (r.a < 12000 → r.b < 12000 → 1500 ≤ r.a ∨ 1500 ≤ r.b → v.xshort = d.xshort ∧ v.failRow = 0 ∧ v.passRow = 0)) ∧
  (∀ (t pair copy : Nat) (s : State), Acts (.discrepancyTimeout t pair copy) s t (fun n u =>
    SameButRecords u { n with safety := u.safety, cmds := u.cmds, fronts := u.fronts } ∧
    (holdsEnded n = [] → ∀ k ∈ enabledPairs n, ∀ c d, c < 3 → (evalOf n c k).disSince = some d →
      (evalOf n c k).agreeAt = none → (evalOf n c k).discFlt = false →
      (evalOf n c k).discAt < (d / 10000 + sinDt n k) * 10000 →
      (evalOf u c k).discFlt = decide ((d / 10000 + sinDt n k) * 10000 ≤ n.now)))) ∧
  ∀ (t : Nat) (s : State), Acts (.fabricTest t) s t (fun n u =>
    if (copyOf n 0).excluded || (copyOf n 1).excluded || (copyOf n 2).excluded then SameButSignals u n
    else SameButSignals u { n with safety := { n.safety with testCopy := (n.safety.testCopy + 1) % 3 } })

/-- Events of a safety output (10 R227 to R233), from the fabric as it stands at the instant: the energisation test
begins on an output that is due, and ends with the output on, or off with its code; a pulse opens one switch in turn,
and one whose load did not fall sets SO_FLT PULSE once 50 us have gone by without a demand; the monitor's fault and an
overload set SO_FLT, which keeps its first code; an overload opens both switches; a feedback not met within its time
sets FB_FLT. No other output changes, and an event that meets none of these conditions changes nothing. Supplies and
feedback inputs (10 R227, R233): a supply measured below 16 V has VS_LOW, told when it begins; a feedback level that has
held shows in FB_VAL, and the outputs it supervises see it: released sets FB_SEEN, and a level that is not the expected
one starts the time that FB_TIMEOUT counts. -/
def Obligations.SafetyOutputsAndSupplies : Prop :=
  ((∀ (n : Node) (o : Nat),
     let x := outputOf n o
     let y := outputOf (pulseVerdicts n) o
     (x.verdict = true → x.pulseEnd + 50000 < n.now →
       y.verdict = false ∧ y.soFlt = true ∧ y.fltCode = (if x.soFlt then x.fltCode else 5)) ∧
     (x.verdict = false ∨ n.now ≤ x.pulseEnd + 50000 → y = x)) ∧
   ∀ (t o code plus minus cur : Nat) (low : Bool) (s : State), o < 32 →
     let m := fabricAdvance (atInstant s t)
     let x := outputOf m o
     let frame : Node → Prop := fun u =>
       SameButRecords u { m with safety := u.safety, cmds := u.cmds } ∧ ∀ k, k ≠ o → outputOf u k = outputOf m k
     (x.phase = .due → Acts (.energisationTest t o) s t (fun n u => frame u ∧
       outputOf u o = { x with phase := .testing, etStart := n.now, hs := true, ls := false })) ∧
     (x.phase ≠ .due → Acts (.energisationTest t o) s t (fun _ u => SameButSignals u m)) ∧
     (x.phase = .testing → Acts (.energisationTestDone t o code) s t (fun _ u => frame u ∧
       (code ≠ 3 ∧ code ≠ 4 → (outputOf u o).phase = .on ∧ (outputOf u o).hs = true ∧ (outputOf u o).ls = true ∧
         (outputOf u o).expect = true ∧ (outputOf u o).soFlt = x.soFlt) ∧
       (code = 3 ∨ code = 4 → (outputOf u o).phase = .off ∧ (outputOf u o).hs = false ∧ (outputOf u o).ls = false ∧
         (outputOf u o).soFlt = true ∧ (outputOf u o).fltCode = (if x.soFlt then x.fltCode else code)))) ∧
     (x.phase ≠ .testing → Acts (.energisationTestDone t o code) s t (fun _ u => SameButSignals u m)) ∧
     (∀ d, x.phase = .on → x.pulse = false → tpEn m o = true → x.nextDue = some d → d ≤ m.now → withheld m o = false →
       holder m = true → Acts (.testPulse t o) s t (fun n u => frame u ∧
         outputOf u o = { x with
           pulse := true, pulseLs := x.nextLs, byCmd := false, hs := x.nextLs, ls := !x.nextLs, quick := false,
           nextDue := some (n.now + (if x.quick then 0 else tpInt m o * 1000000000)) })) ∧
     (x.phase ≠ .on ∨ x.pulse = true ∨ tpEn m o = false ∨ (∀ d, x.nextDue = some d → m.now < d) ∨ withheld m o = true ∨
         holder m = false →
       Acts (.testPulse t o) s t (fun _ u => SameButSignals u m)) ∧
     (x.pulse = true → Acts (.testPulseEnd t o code) s t (fun n u => frame u ∧ (outputOf u o).pulse = false ∧
       (outputOf u o).hs = true ∧ (outputOf u o).ls = true ∧ (outputOf u o).nextLs = !x.pulseLs ∧
       (outputOf u o).pulseEnd = n.now ∧ (outputOf u o).verdict = decide (code ≠ 1) ∧ (outputOf u o).soFlt = x.soFlt ∧
       (code = 1 → (outputOf u o).last = 1 ∧ (outputOf u o).passed = min 65535 (x.passed + 1)) ∧
       (code ≠ 1 → (outputOf u o).last = 2 ∧ (outputOf u o).passed = x.passed))) ∧
     (x.pulse = false → Acts (.testPulseEnd t o code) s t (fun _ u => SameButSignals u m)) ∧
     (x.phase = .off → partnerEnergised m o = false →
       Acts (.soMonitorFault t o low plus minus cur) s t (fun n u => frame u ∧
         outputOf u o = { x with
           vplus := min plus 4000, vminus := min minus 4000, cur := min cur 10000, soFlt := true, monAt := n.now,
           fltCode := if x.soFlt then x.fltCode else if low then 2 else 1 })) ∧
     (x.phase ≠ .off ∨ partnerEnergised m o = true →
       Acts (.soMonitorFault t o low plus minus cur) s t (fun _ u => frame u ∧
         outputOf u o = { x with vplus := min plus 4000, vminus := min minus 4000, cur := min cur 10000 })) ∧
     (x.hs = true ∨ x.ls = true → Acts (.soOverload t o cur) s t (fun _ u => frame u ∧ (outputOf u o).phase = .off ∧
       (outputOf u o).hs = false ∧ (outputOf u o).ls = false ∧ (outputOf u o).soFlt = true ∧
       (outputOf u o).cur = min cur 10000 ∧ (outputOf u o).fltCode = (if x.soFlt then x.fltCode else 6))) ∧
     (x.hs = false → x.ls = false → Acts (.soOverload t o cur) s t (fun _ u => SameButSignals u m)) ∧
     (∀ a, x.misSince = some a → fbEn m o = true → x.fbFlt = false → holder m = true →
       max a x.expectAt + fld (soFb m o) 8 0 * 1000000 ≤ m.now → Acts (.fbTimeout t o) s t (fun _ u => frame u ∧
         outputOf u o = { x with fbFlt := true } ∧ (0x64 + o / 8, 1) ∈ u.dueB)) ∧
     (x.misSince = none ∨ fbEn m o = false ∨ x.fbFlt = true ∨ holder m = false ∨
         (∀ a, x.misSince = some a → m.now < max a x.expectAt + fld (soFb m o) 8 0 * 1000000) →
       Acts (.fbTimeout t o) s t (fun _ u => SameButSignals u m))) ∧
  (∀ (t k volt : Nat) (level : Bool) (s : State),
     (k < 4 → Acts (.vsLowChange t k volt) s t (fun n u =>
       SameButSignals u { n with safety := { n.safety with vs := u.safety.vs }, dueB := u.dueB } ∧
       (∀ j, j ≠ k → tget {} u.safety.vs j = tget {} n.safety.vs j) ∧
       tget {} u.safety.vs k = { volt := min volt 4000, low := decide (volt < 1600) } ∧
       u.dueB = (if volt < 1600 ∧ (tget {} n.safety.vs k).low = false then n.dueB ++ [(0x64 + k, 2)] else n.dueB))) ∧
     (k < 32 → Acts (.fbSettle t k level) s t (fun n u =>
       SameButSignals u { n with safety := u.safety } ∧ fbVal u k = level ∧ (∀ j, j ≠ k → fbVal u j = fbVal n j) ∧
       (∀ o, 32 ≤ o ∨ fbInput n o ≠ k ∨ fbEn n o = false → outputOf u o = outputOf n o) ∧
       ∀ o, o < 32 → fbInput n o = k → fbEn n o = true →
         (outputOf u o).fbSeen = ((outputOf n o).fbSeen || (level != bit (soFb n o) 30)) ∧
         ((level != bit (soFb n o) 30) ≠ (outputOf n o).expect → (outputOf u o).misSince = none) ∧
         ((level != bit (soFb n o) 30) = (outputOf n o).expect →
           (outputOf u o).misSince = some ((outputOf n o).misSince.getD n.now)))) ∧
     (4 ≤ k → Acts (.vsLowChange t k volt) s t (fun n u => SameButSignals u n)) ∧
     (32 ≤ k → Acts (.fbSettle t k level) s t (fun n u => SameButSignals u n)))

/-- Commands of the SAF, DPX and cross-link pages (10 R230, R236, 12 R285, R289): accepted, a command of the SAF page
waits for the boundary that takes it up, and there a reset waits for the evaluation of its frame, an SO_TEST for the
boundary of the frame after it; a CARRY waits for its boundary, a handover for its outcome, and ends FAILED at 8 F
without one; a DPX CLEAR waits for its boundary too, that of a cross-link zeroes its counts at once. Nothing else of the
node changes. -/
def Obligations.SafetyAndDuplexCommands : Prop :=
  (∀ (auto : Bool) (i : Nat) (n : Node), lanesNone n = false →
    actEff auto (.saf 1 i) n = ({ n with safety := { n.safety with resets := some [i] } }, none) ∧
    actEff auto (.saf 2 i) n = ({ n with
      safety := { n.safety with resets := some ((enabledFns n).filter (fun k => bit (sfCfg n k) 30)) } }, none) ∧
    ((actEff auto (.saf 3 i) n).2 = none ∧
      outputOf (actEff auto (.saf 3 i) n).1 i = { outputOf n i with soTest := some (n.bAt + 1) } ∧
      ∀ j, j ≠ i → outputOf (actEff auto (.saf 3 i) n).1 j = outputOf n j)) ∧
  ∀ (t k : Nat) (s : State),
    let n := atInstant s t
    let saf := fun (v : Word) (op i : Nat) => deferred n hostPath 8 (at_ 8 0x44) v (.saf op i)
    (judge n hostPath 8 (safCheck n hostPath (pack [(k, 16, 8), (1, 0, 4)])) = .accept → k < 64 →
      Acts (.safReset t k) s t (fun _ u => SameButSignals u (saf (pack [(k, 16, 8), (1, 0, 4)]) 1 k))) ∧
    (judge n hostPath 8 (safCheck n hostPath 2) = .accept →
      Acts (.safResetAll t) s t (fun _ u => SameButSignals u (saf 2 2 0))) ∧
    (judge n hostPath 8 (safCheck n hostPath (pack [(k, 16, 8), (3, 0, 4)])) = .accept → k < 32 →
      Acts (.safSoTest t k) s t (fun _ u => SameButSignals u (saf (pack [(k, 16, 8), (3, 0, 4)]) 3 k))) ∧
    (judge n hostPath 4 (dpxCmdCheck n hostPath 1) = .accept → Acts (.dpxHandover t) s t (fun n u => SameButSignals u
      { accepted n hostPath 4 (at_ 4 0x5C) 1 none with duplex := { n.duplex with handover := some n.now, handB := none } })) ∧
    (judge n hostPath 4 (dpxCmdCheck n hostPath 2) = .accept → Acts (.dpxCarry t) s t (fun n u => SameButSignals u
      { byLanes (accepted n hostPath 4 (at_ 4 0x5C) 2 (if paired n then none else some true)) 4 with
        duplex := { n.duplex with carry := some (n.now + 5000, (reg n (at_ 4 0x60)).toNat) } })) ∧
    (judge n hostPath 4 (dpxCmdCheck n hostPath 3) = .accept → Acts (.dpxClear t) s t (fun n u =>
      SameButSignals u (deferred n hostPath 4 (at_ 4 0x5C) 3 .dpxClear))) ∧
    (k < 2 → judge n hostPath (0x5E + k) { state := inStates n 30, level := levelOk n hostPath 1 } = .accept →
      Acts (.xlCmdClear t k) s t (fun n u =>
        SameButSignals u { accepted n hostPath (0x5E + k) (at_ (0x5E + k) 0x4C) 1 (some true) with
          duplex := { n.duplex with x0 := u.duplex.x0, x1 := u.duplex.x1 } } ∧
        xlOf u k = { xlOf n k with bad := 0, miss := 0 } ∧ xlOf u (1 - k) = xlOf n (1 - k))) ∧
    (∀ a, s.node.duplex.handover = some a →
      (a + 8 * s.node.period ≤ n.now → Acts (.handoverTimeout t) s t (fun n u => SameButSignals u
        (resolveCmd { n with duplex := { n.duplex with handover := none, handB := none, yield_ := false } } 4 (some false)))) ∧
      (n.now < a + 8 * s.node.period → Acts (.handoverTimeout t) s t (fun n u => SameButSignals u n))) ∧
    (s.node.duplex.handover = none → Acts (.handoverTimeout t) s t (fun n u => SameButSignals u n))

/-! Duplex pairs (12) -/

/-- What a claim line says (12 R279): 2 FAULT with a fault code, or where the partner has not shown itself in each of the last
three frames; else 1 LOST where the partner's number is greater, 0 WON where it is not. -/
def Sys2Proof.lineSays (own hist code peer : Nat) : Nat :=
  if code ≠ 0 ∨ hist ≠ 7 then 2 else if own < peer then 1 else 0

/-- Arbitrations of a pair (12 R277 to R280, R294): the module sends its claim number, and each line says what R279
gives; a line that enters FAULT is told at the next boundary. A handover that waits yields from the next output
arbitration on (R285). A presence pulse shows the partner on each line. A single module takes part in none. Roles in a
pair (12 R284, R289, 06 R141): position B takes a rank that A has not had READY for 16 F, and neither carries; CLAMP
that has lasted 3 F ends with the stages off. Otherwise neither event changes anything. -/
def Obligations.ClaimsAndRoles : Prop :=
  (∀ (t : Nat) (l : LineSense) (a b x y : Bool) (s : State),
     (paired s.node = true →
       Acts (.outputArbitration t l) s t (fun n u =>
         let m := { n with duplex := { n.duplex with yield_ := n.duplex.handover.isSome && n.duplex.handB.isNone } }
         let own := outClaim m
         SameButRecords u { n with duplex := u.duplex } ∧
         u.duplex = { m.duplex with
           claim := own, arbO := some n.frame, pclaim := u.duplex.pclaim,
           lineA := { n.duplex.lineA with oCode := u.duplex.lineA.oCode, oRes := lineSays own n.duplex.lineA.hist l.aCode l.aPeer },
           lineB := { n.duplex.lineB with oCode := u.duplex.lineB.oCode, oRes := lineSays own n.duplex.lineB.hist l.bCode l.bPeer } } ∧
         (u.duplex.lineA.oRes = 1 → u.duplex.pclaim = l.aPeer) ∧
         (n.duplex.lineA.oRes ≠ 2 → u.duplex.lineA.oRes = 2 → (4, 6) ∈ u.dueB) ∧
         (n.duplex.lineB.oRes ≠ 2 → u.duplex.lineB.oRes = 2 → (4, 6) ∈ u.dueB)) ∧
       Acts (.timeArbitration t l) s t (fun n u =>
         let own := timeClaim n
         SameButRecords u { n with duplex := u.duplex } ∧
         u.duplex = { n.duplex with
           tclaim := own, arbT := some n.frame, ptclaim := u.duplex.ptclaim,
           lineA := { n.duplex.lineA with tCode := u.duplex.lineA.tCode, tRes := lineSays own n.duplex.lineA.hist l.aCode l.aPeer },
           lineB := { n.duplex.lineB with tCode := u.duplex.lineB.tCode, tRes := lineSays own n.duplex.lineB.hist l.bCode l.bPeer } }) ∧
       Acts (.presencePulse t a b x y) s t (fun n u => SameButSignals u { n with duplex := { n.duplex with
         lineA := { n.duplex.lineA with pres := a, hist := (2 * n.duplex.lineA.hist + b2n (a || x)) % 8 },
         lineB := { n.duplex.lineB with pres := b, hist := (2 * n.duplex.lineB.hist + b2n (b || y)) % 8 } } })) ∧
     (paired s.node = false →
       Acts (.outputArbitration t l) s t (fun n u => SameButSignals u n) ∧
       Acts (.timeArbitration t l) s t (fun n u => SameButSignals u n) ∧
       Acts (.presencePulse t a b x y) s t (fun n u => SameButSignals u n))) ∧
  (∀ (t r : Nat) (s : State),
     let theirs := match s.node.duplex.hb with | some h => nbit h.head.inrole r | none => false
     (paired s.node = true → s.node.duplex.posB = true → r < 16 → nbit s.node.duplex.carried r = false → theirs = false →
       nbit (readyRanks s.node) r = true → 16 ≤ tget 0 s.node.duplex.notReady r →
       Acts (.carrierTakeTimeout t r) s t (fun n u =>
         SameButRecords u { n with duplex := u.duplex, ranks := u.ranks, acqs := u.acqs } ∧
         nbit u.duplex.carried r = true ∧ (∀ k, k ≠ r → nbit u.duplex.carried k = nbit n.duplex.carried k) ∧
         (rankOf u r).observe = false ∧ (4, 5) ∈ u.dueB)) ∧
     (paired s.node = false ∨ s.node.duplex.posB = false ∨ 16 ≤ r ∨ nbit s.node.duplex.carried r = true ∨ theirs = true ∨
         tget 0 s.node.duplex.notReady r < 16 →
       Acts (.carrierTakeTimeout t r) s t (fun n u => SameButSignals u n)) ∧
     (paired s.node = true → s.node.duplex.drive = .clamp →
       (s.node.duplex.clampAt + 3 * s.node.period ≤ max s.node.now t → Acts (.clampTimeout t) s t (fun n u =>
         SameButRecords u { n with duplex := { n.duplex with drive := .off }, stages := u.stages } ∧
         ∀ c, stageOf u c = if c ∈ aoChs n then stageOff .standby (stageOf n c) else stageOf n c)) ∧
       (max s.node.now t < s.node.duplex.clampAt + 3 * s.node.period →
         Acts (.clampTimeout t) s t (fun n u => SameButSignals u n))) ∧
     (paired s.node = false ∨ s.node.duplex.drive ≠ .clamp → Acts (.clampTimeout t) s t (fun n u => SameButSignals u n)))

/-- Heartbeats of a pair (12 R281, R282, R284, R289, 06 R141): a module sends one a frame, after its vote, in the 48
bytes of Table 12.5 with a CRC-32C over offsets 0 to 43, that hold the numbers it has just sent, and after it, from the
holder, the state the partner takes; a copy of bad length or CRC counts on its link alone, one of another frame or too
late is ignored, and the first good one is the frame's; a module that holds the output claim takes none of its partner's
state, one that does not takes the holder's. The second miss in a row is PLOST, the second reception in a row its end.
-/
def Obligations.HeartbeatsOfThePair : Prop :=
  (∀ (t : Nat) (s : State),
    (paired s.node = true → s.node.laneSt.voted = true → Acts (.heartbeatSend t) s t (fun n u =>
      SameButSignals u { n with duplex := { n.duplex with takes := if takeNow n then n.duplex.takes ++ [n.frame] else n.duplex.takes } } ∧
      ∃ (e : HbHead) (h : PeerState), .hb (hbBytes e) h ∈ u.outs ∧ e.frame = n.frame ∧ e.oclaim = n.duplex.claim ∧
        e.tclaim = n.duplex.tclaim ∧ e.posA = !n.duplex.posB ∧
        e.ohold = n.duplex.ohold ∧ e.thold = n.duplex.thold ∧ e.take = takeNow n ∧ e.seen = n.duplex.seen.contains n.duplex.prevFrame ∧
        e.plost = n.duplex.plost ∧ e.yield_ = n.duplex.yield_ ∧ e.synced = syncedNow n ∧ e.drive = driveCode n.duplex.drive ∧
        e.lines = n.duplex.lineA.oRes + 4 * n.duplex.lineB.oRes ∧ e.lstate = n.laneSt.state ∧ e.inrole = n.duplex.carried ∧
        e.check = n.config.check ∧ e.stime = n.sampleT ∧
        h.ready = readyRanks n ∧ h.souts = n.safety.outs ∧
        (n.duplex.ohold = true → h.points = n.points ∧ h.groups = n.groups ∧ h.call = n.call ∧ h.stations = n.stations ∧
          h.fns = n.safety.fns ∧ h.pairs = n.safety.pairs ∧ h.sets = (aoChs n).map (fun c => (c, (stageOf n c).set))))) ∧
    (paired s.node = false ∨ s.node.laneSt.voted = false → Acts (.heartbeatSend t) s t (fun n u => SameButSignals u n))) ∧
  (∀ e : HbHead, (hbBytes e).length = 48 ∧ hbGood (hbBytes e) = true ∧ ((hbBytes e).drop 32).take 12 = List.replicate 12 0 ∧
    (e.frame < 2 ^ 64 → e.oclaim < 2 ^ 16 → e.tclaim < 2 ^ 16 → e.drive < 2 ^ 8 → e.lines < 2 ^ 8 → e.lstate < 2 ^ 8 →
      e.fw < 2 ^ 16 → e.inrole < 2 ^ 16 → e.stime < 2 ^ 64 → hbFields (hbBytes e) = e)) ∧
  (∀ (t xl delay : Nat) (bytes : List Byte) (p : PeerState) (s : State), paired s.node = true → xl < 2 →
    Acts (.heartbeatReceived t xl bytes delay p) s t (fun n u =>
      let m := fabricAdvance n
      let h : Heartbeat := { p with head := hbFields bytes }
      fabricHolds u ∧
      (xlOf u xl).phy = true ∧ (xlOf u xl).heard = true ∧
      (hbGood bytes = false →
        SameButSignals u { m with duplex := { n.duplex with x0 := u.duplex.x0, x1 := u.duplex.x1 }, safety := u.safety, cmds := u.cmds } ∧
        xlOf u xl = { xlOf n xl with phy := true, heard := true, bad := min 65535 ((xlOf n xl).bad + 1) } ∧
        xlOf u (1 - xl) = xlOf n (1 - xl)) ∧
      (hbGood bytes = true → h.head.frame ≠ n.frame ∨ n.sAt + n.period < n.now + 10000 →
        SameButSignals u { m with duplex := { n.duplex with x0 := u.duplex.x0, x1 := u.duplex.x1 }, safety := u.safety, cmds := u.cmds } ∧
        xlOf u xl = { xlOf n xl with phy := true, heard := true } ∧ xlOf u (1 - xl) = xlOf n (1 - xl)) ∧
      (hbGood bytes = true → h.head.frame = n.frame → n.now + 10000 ≤ n.sAt + n.period →
        (xlOf u xl).got = true ∧ (xlOf u xl).delay = delay ∧
        ((hbOf n n.frame).isSome = true → u.duplex.hb = n.duplex.hb) ∧
        (hbOf n n.frame = none → u.duplex.hb = some h ∧ u.duplex.pclaim = h.head.oclaim ∧ u.duplex.ptclaim = h.head.tclaim ∧
          (h.head.take = true → n.frame ∈ u.duplex.seen) ∧
          (n.duplex.ohold = true ∨ h.head.ohold = false → u.points = n.points ∧ u.call = n.call ∧ u.regs = n.regs) ∧
          (n.duplex.ohold = false → h.head.ohold = true → u.points = h.points ∧ u.groups = h.groups ∧ u.call = h.call ∧
            u.stations = h.stations))))) ∧
  ∀ (t : Nat) (s : State),
    (paired s.node = false ∨ s.node.duplex.checked = some s.node.frame ∨
        max s.node.now t + 10000 < s.node.sAt + s.node.period →
      Acts (.heartbeatMiss t) s t (fun n u => SameButSignals u n)) ∧
    (paired s.node = true → s.node.duplex.checked ≠ some s.node.frame →
      s.node.sAt + s.node.period ≤ max s.node.now t + 10000 → Acts (.heartbeatMiss t) s t (fun n u =>
        u.regs = n.regs ∧ u.points = n.points ∧
        (hbOf n n.frame = none → u.duplex.missed = min 65535 (n.duplex.missed + 1) ∧ u.duplex.peer = false ∧
          u.duplex.consecMiss = min 3 (n.duplex.consecMiss + 1) ∧
          (n.duplex.consecMiss = 1 → u.duplex.plost = true ∧ (n.duplex.plost = false → (4, 3) ∈ u.dueB)) ∧
          (n.duplex.consecMiss ≠ 1 → u.duplex.plost = n.duplex.plost)) ∧
        ((hbOf n n.frame).isSome = true → u.duplex.consecMiss = 0 ∧ u.duplex.peer = true ∧
          u.duplex.missed = n.duplex.missed ∧
          (1 ≤ n.duplex.consecRx → u.duplex.plost = false ∧ (n.duplex.plost = true → (4, 4) ∈ u.dueB)))))

/-! The CAN controllers (13) -/

/-- What a controller's traffic changes: that controller, the interrupts and records it raises, the free values; no other
controller and no register. -/
def Sys2Proof.canOnly (c : Nat) (n u : Node) : Prop :=
  SameButRecords u { n with cans := u.cans, headers := u.headers, free := u.free } ∧ (∀ k, k ≠ c → canOf u k = canOf n k) ∧
  ∀ p, p ≠ 0x40 + c → p ≠ 6 → headerOf u p = headerOf n p

/-- Reception (13 R304 to R307, R312, R316): a frame that a controller in ACTIVE or PASSIVE receives is counted and ends
ALONE; the first matching filter entry names where it goes, with the entry and the stamp of its start of frame; where
that buffer is full it is discarded and counted, and either is told at once; a REC above 127 comes to between 119 and
127. A controller off the bus receives nothing, and one with FDOE = 0 takes an FD frame as a form error, at which REC
rises by 1 under ISO 11898-1. A frame that began before a configuration write is received to its end (R301); a buffer
that a FLUSH took ends ABORTED where its attempt ends in lost arbitration (R310). The dwell of rate detection ends after
RD_DWELL without a counted frame. -/
def Obligations.FramesAreReceived : Prop :=
  ∀ (t c sof : Nat) (f : CanFrame) (s : State), c < 24 →
    let x := canOf s.node c
    let tail := x.wasRx = true ∧ sof < x.since ∧ max s.node.now t ≤ x.since + 10000000
    (x.state = .off ∨ x.state = .busOff ∨ x.state = .recovering ∨ x.state = .integrating → ¬ tail →
      Acts (.canFrameReceived t c sof f) s t (fun n u => SameButSignals u n)) ∧
    (tail → Acts (.canFrameReceived t c sof f) s t (fun n u => canOnly c n u ∧ (canOf u c).cntRx = x.cntRx + 1 ∧
      (canOf u c).state = x.state ∧ (canOf u c).tec = x.tec ∧ (canOf u c).rec_ = x.rec_ ∧ (canOf u c).wasRx = false)) ∧
    (x.state = .active ∨ x.state = .passive → ¬ tail → f.fdf = true → fdoe s.node c = false → intxBuf x = none → x.cfgPend = false →
      Acts (.canFrameReceived t c sof f) s t (fun n u =>
        (∀ k, k ≠ c → canOf u k = canOf n k) ∧ u.regs = n.regs ∧
        (canOf u c).errs = min 65535 (x.errs + 1) ∧ (canOf u c).lec = 2 ∧ (canOf u c).cntRx = x.cntRx ∧
        (x.mode = 2 → (canOf u c).state = .integrating) ∧
        (canOf u c).rec_ = (if x.mode = 1 then min 255 (x.rec_ + 1) else x.rec_) ∧ (canOf u c).fifoA = x.fifoA ∧
        (canOf u c).fifoB = x.fifoB ∧ (canOf u c).hpb = x.hpb)) ∧
    (∀ b z m r, x.state = .active → x.mode = 1 → x.tec ≤ 255 → ¬ tail → f.fdf = false ∨ fdoe s.node c = true →
      b < 3 → getBuf x b = some z → intxBuf x = some b → (∀ d, d < 3 → d ≠ b → getBuf x d = none) → z.body = .host m r →
      x.cfgPend = false → z.flushed = true → Acts (.canFrameReceived t c sof f) s t (fun _ u =>
        ((canOf u c).txc.drop x.txc.length).map Completion.status = [4])) ∧
    (x.state = .active ∨ x.state = .passive → x.tec ≤ 255 → ¬ tail → f.fdf = false ∨ fdoe s.node c = true →
      (∀ b z, getBuf x b = some z → z.intx = true → z.flushed = false) → x.cfgPend = false →
      Acts (.canFrameReceived t c sof f) s t (fun n u => canOnly c n u ∧
      let y := canOf u c
      y.cntRx = x.cntRx + 1 ∧ y.alone = false ∧ y.ackRun = 0 ∧ y.txc = x.txc ∧
      (x.mode = 1 → x.rec_ ≤ 127 → y.rec_ = x.rec_ - 1) ∧
      (x.mode = 1 → 127 < x.rec_ → 119 ≤ y.rec_ ∧ y.rec_ ≤ 127) ∧ (x.mode ≠ 1 → y.rec_ = x.rec_ ∧ y.state = x.state) ∧
      (matchEntry n c sof f = none → bit (canReg n c 0x40) 9 = false → y.fifoA = x.fifoA ∧ y.fifoB = x.fifoB ∧ y.hpb = x.hpb) ∧
      (∀ e, matchEntry n c sof f = some (e, 0) → y.fifoB = x.fifoB ∧ y.hpb = x.hpb ∧
        (x.fifoA.length < 64 → y.fifoA = x.fifoA ++ [{ frame := f, entry := e, ts := tsAt n sof }] ∧ y.ovfA = x.ovfA ∧
          bit (headerOf u (0x40 + c)).irqStat 0 = true) ∧
        (64 ≤ x.fifoA.length → y.fifoA = x.fifoA ∧ y.ovfA = min 255 (x.ovfA + 1) ∧
          bit (headerOf u (0x40 + c)).irqStat 2 = true)) ∧
      (∀ e, matchEntry n c sof f = some (e, 1) → y.fifoA = x.fifoA ∧ y.hpb = x.hpb ∧
        (x.fifoB.length < 64 → y.fifoB = x.fifoB ++ [{ frame := f, entry := e, ts := tsAt n sof }]) ∧
        (64 ≤ x.fifoB.length → y.fifoB = x.fifoB ∧ y.ovfB = min 255 (x.ovfB + 1))) ∧
      (∀ e, matchEntry n c sof f = some (e, 2) → y.fifoA = x.fifoA ∧ y.fifoB = x.fifoB ∧
        (x.hpb.length < 4 → y.hpb = x.hpb ++ [{ frame := f, entry := e, ts := tsAt n sof }]) ∧
        (4 ≤ x.hpb.length → y.hpb = x.hpb ∧ y.ovfH = min 255 (x.ovfH + 1))))) ∧
    let ends := x.rdSince + fld (canReg s.node c 0x40) 23 16 * 10000000
    (x.state = .searching → rdCands s.node c ≠ [] → ends ≤ max s.node.now t → Acts (.rdDwellTimeout t c) s t (fun n u =>
      SameButSignals u { n with cans := u.cans } ∧ (∀ k, k ≠ c → canOf u k = canOf n k) ∧
      canOf u c = { x with
        rdCand := nextCand n c, rdFrames := 0, rdSince := n.now, rdSwitches := min 65535 (x.rdSwitches + 1) })) ∧
    (x.state ≠ .searching ∨ rdCands s.node c = [] ∨ max s.node.now t < ends → Acts (.rdDwellTimeout t c) s t (fun n u => SameButSignals u n))

/-- Transmission (13 R308, R310, R312, R316): a message staged in the window is taken where R308 admits it, and is then
outstanding until its completion; a push that is not taken is counted and told. A frame sent takes one from TEC, and a
host message gives its completion with the stamp of its start of frame. -/
def Obligations.FramesAreSent : Prop :=
  ∀ (t c b sof : Nat) (w : Word) (m : HostMsg) (r : Nat) (s : State), c < 24 → b < 3 →
    let x := canOf s.node c
    ((headerOf s.node (0x40 + c)).locked = true → Acts (.canTxPush t c w) s t (fun n u =>
      SameButSignals u { n with seqs := u.seqs } ∧ seqOf u hostPath (0x40 + c) = { seqOf n hostPath (0x40 + c) with cmdRes := 8 })) ∧
    ((headerOf s.node (0x40 + c)).locked = false → Acts (.canTxPush t c w) s t (fun n u => canOnly c n u ∧
      (pushOk n c = true → outstanding (canOf u c) = outstanding x + 1 ∧ (canOf u c).txc = x.txc ∧ (canOf u c).rejs = x.rejs) ∧
      (pushOk n c = false → canOf u c = { x with rejs := min 255 (x.rejs + 1) } ∧
        bit (headerOf u (0x40 + c)).irqStat 5 = true))) ∧
    (getBuf x b = none ∨ mayTx s.node c x b = false → Acts (.canTxComplete t c b sof) s t (fun n u => SameButSignals u n)) ∧
    (∀ z, getBuf x b = some z → mayTx s.node c x b = true → x.cfgPend = false →
      (∀ d y, d ≠ b → getBuf x d = some y → y.intx = false) → z.body = .host m r → x.tec ≤ 256 → Acts (.canTxComplete t c b sof) s t (fun n u =>
      canOnly c n u ∧
      let y := canOf u c
      y.cntTx = x.cntTx + 1 ∧ y.alone = false ∧ y.tec = x.tec - 1 ∧ y.rec_ = x.rec_ ∧ y.lastDone = b ∧
      y.txc = x.txc ++ [{ tag := m.tag, attempts := min 15 z.attempts, status := 1, ts := tsAt n sof,
                          id := idWord m.frame.ide m.frame.id }] ∧
      outstanding y = outstanding x ∧ bit (headerOf u (0x40 + c)).irqStat 4 = true)) ∧
    ∀ z q, getBuf x b = some z → mayTx s.node c x b = true → x.cfgPend = false →
      (∀ d y, d ≠ b → getBuf x d = some y → y.intx = false) → z.body = .node q → x.tec ≤ 256 → Acts (.canTxComplete t c b sof) s t (fun n u =>
      u.regs = n.regs ∧ (∀ k, k ≠ c → canOf u k = canOf n k) ∧ (canOf u c).cntTx = x.cntTx + 1 ∧ (canOf u c).txc = x.txc ∧
      (canOf u c).tec = x.tec - 1 ∧
      (q.typ = 1 → tget none u.tb.sent c = some (q.sub, some (taiPast n sof))))

/-- A controller in RESTRICTED (13 R314): its own traffic and errors change neither TEC nor REC and take it into neither
ERROR_PASSIVE nor BUS_OFF; an error sets CAN_LEC as in NORMAL. -/
def Obligations.RestrictedKeepsItsCounts : Prop :=
  ∀ (t c b sof : Nat) (e : CanErr) (f : CanFrame) (s : State), c < 24 →
    ((canOf s.node c).mode = 2 →
      ∀ i ∈ [Instr.canError t c e, .canFrameReceived t c sof f, .canTxComplete t c b sof, .canProtocolException t c],
        Acts i s t (fun n u => (∀ k, k ≠ c → canOf u k = canOf n k) ∧
          (canOf u c).tec = (canOf n c).tec ∧ (canOf u c).rec_ = (canOf n c).rec_ ∧
          ((canOf n c).state ≠ .passive → (canOf u c).state ≠ .passive) ∧
          ((canOf n c).state ≠ .busOff → (canOf u c).state ≠ .busOff))) ∧
    ((canOf s.node c).mode = 1 ∨ (canOf s.node c).mode = 2 → (canOf s.node c).state = .active ∨ (canOf s.node c).state = .passive →
      Acts (.canError t c e) s t (fun _ u => (canOf u c).lec = e.code ∧ (canOf u c).lecData = e.dataPhase))

/-- The vector of a high-priority buffer (13 R306): its condition is that the buffer holds a frame while its IEN is 1; a
POP that leaves a frame sends its message again, or keeps it pending where the vector is masked. -/
def Obligations.HighPriorityVectorRepeats : Prop :=
  ∀ (t c : Nat) (s : State), c < 24 →
    (condition s.node (40 + c) = true ↔ (canOf s.node c).hpb ≠ [] ∧ bit (canReg s.node c 0x9C) 0 = true) ∧
    ((headerOf s.node (0x40 + c)).locked = false → (canOf s.node c).hpb.tail ≠ [] → bit (canReg s.node c 0x9C) 0 = true →
      Acts (.canRxPop t c 2) s t (fun n u =>
        (canOf u c).hpb = (canOf n c).hpb.tail ∧ (∀ k, k ≠ c → canOf u k = canOf n k) ∧
        ((vectorOf n (40 + c)).masked = false → .msix (40 + c) ∈ u.outs) ∧
        ((vectorOf n (40 + c)).masked = true → (vectorOf u (40 + c)).pending = true)))

/-- Errors and fault confinement (13 R310, R312 to R317, R323): an error is counted with its code; a controller whose
REC reaches 128 is error-passive, one whose TEC passes 255 is bus-off with every buffer and its node queue ended, each
told at the next boundary, and modes other than NORMAL count in neither. Recovery and integration end in ACTIVE,
recovery with both counters 0 and in mode RD back in its search. A protocol exception is no error: it changes no
counter, and the controller integrates again. The increments are those of ISO 11898-1, which the spec names (PRESUMED,
log entry 62). Transceivers (13 R296, R297, R323): a dominant time-out is shown and told; a fault of a group takes its
four controllers into BUS_OFF with their buffers and node queues ended, one that is off staying off, and its end clears
the mark and nothing else. -/
def Obligations.FaultsAreConfined : Prop :=
  (∀ (t c : Nat) (e : CanErr) (s : State), c < 24 →
     let x := canOf s.node c
     (x.state = .off ∨ x.state = .busOff ∨ x.state = .recovering ∨ x.state = .integrating → Acts (.canError t c e) s t (fun n u => SameButSignals u n)) ∧
     (x.state = .active ∨ x.state = .passive → Acts (.canError t c e) s t (fun n u =>
       (∀ k, k ≠ c → canOf u k = canOf n k) ∧ u.regs = n.regs ∧
       let y := canOf u c
       y.errs = min 65535 (x.errs + 1) ∧ y.lec = e.code ∧ y.lecData = e.dataPhase ∧
       (x.mode ≠ 1 → y.tec = x.tec ∧ y.rec_ = x.rec_ ∧ y.state = (if x.mode = 2 then .integrating else x.state)) ∧
       let plus := (if e.flagBit then 8 else 1 + (if e.domFirst then 8 else 0)) + 8 * e.domRuns
       (x.mode = 1 → e.buf = none → x.tec < 128 → x.cfgPend = false → y.tec = x.tec ∧ y.rec_ = min 255 (x.rec_ + plus) ∧
         y.state = (if x.rec_ + plus < 128 then .active else .passive) ∧
         (x.state = .active → 128 ≤ x.rec_ + plus → (0x40 + c, 7) ∈ u.dueB)) ∧
       (∀ b, x.mode = 1 → e.buf = some b → mayTx n c x b = true → x.cfgPend = false → e.code ≠ 3 → e.stuffArb = false → e.domRuns = 0 →
         x.tec < 120 → x.rec_ < 128 → y.tec = x.tec + 8 ∧ y.rec_ = x.rec_ ∧ y.state = .active) ∧
       (∀ b, x.mode = 1 → e.buf = some b → mayTx n c x b = true → x.cfgPend = false → e.code ≠ 3 → e.stuffArb = false →
         255 < x.tec + 8 + 8 * e.domRuns →
         y.state = .busOff ∧ y.tec = 256 ∧ y.b0 = none ∧ y.b1 = none ∧ y.b2 = none ∧ y.nodeQ = [] ∧
         y.busoffs = min 255 (x.busoffs + 1) ∧ (0x40 + c, 8) ∈ u.dueB))) ∧
     (x.state = .recovering → x.trxFlt = false → Acts (.canRecoveryDone t c) s t (fun n u => canOnly c n u ∧
       (canOf u c).state = (if x.mode = 4 then .searching else .active) ∧ (canOf u c).tec = 0 ∧ (canOf u c).rec_ = 0 ∧ (0x40 + c, 9) ∈ u.dueB)) ∧
     (x.state ≠ .recovering ∨ x.trxFlt = true → Acts (.canRecoveryDone t c) s t (fun n u => SameButSignals u n)) ∧
     (x.state = .integrating → Acts (.canIntegrationDone t c) s t (fun n u =>
       SameButSignals u { n with cans := u.cans } ∧ (∀ k, k ≠ c → canOf u k = canOf n k) ∧
       (canOf u c).state = (if x.mode = 1 ∧ (128 ≤ x.tec ∨ 128 ≤ x.rec_) then .passive else .active) ∧
       (canOf u c).tec = x.tec ∧ outstanding (canOf u c) = outstanding x)) ∧
     (x.state ≠ .integrating → Acts (.canIntegrationDone t c) s t (fun n u => SameButSignals u n)) ∧
     (receives s.node c = false ∨ fdoe s.node c = false →
       Acts (.canProtocolException t c) s t (fun n u => SameButSignals u n)) ∧
     (x.state = .active ∨ x.state = .passive → fdoe s.node c = true → intxBuf x = none → x.cfgPend = false → Acts (.canProtocolException t c) s t (fun n u =>
       SameButSignals u { n with cans := u.cans } ∧ (∀ k, k ≠ c → canOf u k = canOf n k) ∧
       canOf u c = { x with pxe := min 255 (x.pxe + 1), state := .integrating })) ∧
     (x.state = .searching → rdTries s.node c = true → fdoe s.node c = true → intxBuf x = none → Acts (.canProtocolException t c) s t (fun n u =>
       SameButSignals u { n with cans := u.cans } ∧ (∀ k, k ≠ c → canOf u k = canOf n k) ∧
       canOf u c = { x with
         pxe := min 255 (x.pxe + 1), rdCand := nextCand n c, rdFrames := 0, rdSince := n.now,
         rdSwitches := min 65535 (x.rdSwitches + 1) }))) ∧
  (∀ (t c g : Nat) (s : State), c < 24 → g < 6 →
     Acts (.txdTimeout t c) s t (fun n u => SameButRecords u { n with cans := u.cans } ∧ (∀ k, k ≠ c → canOf u k = canOf n k) ∧
       canOf u c = { canOf n c with txdTmo := true } ∧ (0x40 + c, 13) ∈ u.dueB) ∧
     Acts (.trxFault t g) s t (fun n u => u.regs = n.regs ∧ (∀ k, k / 4 ≠ g → canOf u k = canOf n k) ∧
       ∀ k, k / 4 = g → (canOf u k).trxFlt = true ∧
         ((canOf n k).trxFlt = true → canOf u k = canOf n k) ∧
         ((canOf n k).trxFlt = false → (canOf u k).state = (if (canOf n k).state = .off then .off else .busOff) ∧
           (canOf u k).hostQ = (canOf n k).hostQ ∧ (0x40 + k, 14) ∈ u.dueB ∧
           ((canOf n k).state ≠ .off → (canOf n k).state ≠ .busOff → (canOf u k).tec = 256 ∧
             (canOf u k).b0 = none ∧ (canOf u k).b1 = none ∧ (canOf u k).b2 = none ∧ (canOf u k).nodeQ = [] ∧
             (canOf u k).busoffs = min 255 ((canOf n k).busoffs + 1) ∧ (0x40 + k, 8) ∈ u.dueB))) ∧
     Acts (.trxFltClear t g) s t (fun n u => SameButSignals u { n with cans := u.cans } ∧
       ∀ k, canOf u k = if k / 4 = g then { canOf n k with trxFlt := false } else canOf n k))

/-- POP and CAN_CTRL (13 R305, R306, R311): a POP takes the head of its buffer, on a locked page nothing; a frame left
in the high-priority buffer sends its vector again. CAN_CTRL takes TXPRIO and RETRY; RECOVER begins recovery of a
bus-off controller and otherwise ends FAILED without effect, TXPRIO and RETRY as they were; FLUSH empties the host queue
and every host buffer not in transmission, each message giving its completion; CLEAR zeroes the counts, TEC and REC
apart. -/
def Obligations.ControllerCommands : Prop :=
  ∀ (t c fifo retry : Nat) (prio : Bool) (intx : Option Nat) (s : State), c < 24 →
    let x := canOf s.node c
    let ok := fun (w : Word) => judge (atInstant s t) hostPath (0x40 + c) (canCtrlCheck s.node w) = .accept
    let acc := fun (w : Word) (r : Bool) => accepted (atInstant s t) hostPath (0x40 + c) (at_ (0x40 + c) 0x50) w (some r)
    ((headerOf s.node (0x40 + c)).locked = false →
      Acts (.canRxPop t c fifo) s t (fun n u => SameButSignals u { n with cans := u.cans } ∧
        (∀ k, k ≠ c → canOf u k = canOf n k) ∧
        canOf u c = (match fifo with
          | 0 => { x with fifoA := x.fifoA.tail }
          | 1 => { x with fifoB := x.fifoB.tail }
          | 2 => { x with hpb := x.hpb.tail }
          | _ => x) ∧
        (fifo = 2 → x.hpb.tail ≠ [] → hpbEnabled n c = true → (vectorOf n (40 + c)).masked = false → .msix (40 + c) ∈ u.outs)) ∧
      Acts (.canTxcPop t c) s t (fun n u => SameButSignals u { n with cans := u.cans } ∧
        (∀ k, k ≠ c → canOf u k = canOf n k) ∧ canOf u c = { x with txc := x.txc.tail })) ∧
    ((headerOf s.node (0x40 + c)).locked = true → ∀ i, i ∈ [Instr.canRxPop t c fifo, .canTxcPop t c] →
      Acts i s t (fun n u => SameButSignals u { n with seqs := u.seqs } ∧
        seqOf u hostPath (0x40 + c) = { seqOf n hostPath (0x40 + c) with cmdRes := 8 })) ∧
    (ok (canCtrlWord 0 prio retry) → Acts (.canCtrlNone t c prio retry) s t (fun n u =>
      SameButSignals u { acc (canCtrlWord 0 prio retry) true with cans := u.cans } ∧ (∀ k, k ≠ c → canOf u k = canOf n k) ∧
      canOf u c = { x with txprio := prio, retry := retry % 32 })) ∧
    (ok (canCtrlWord 1 prio retry) →
      (x.state = .busOff → Acts (.canRecover t c prio retry) s t (fun n u =>
        SameButRecords u { acc (canCtrlWord 1 prio retry) true with cans := u.cans } ∧
        (∀ k, k ≠ c → canOf u k = canOf n k) ∧
        canOf u c = { x with txprio := prio, retry := retry % 32, state := .recovering })) ∧
      (x.state ≠ .busOff → Acts (.canRecover t c prio retry) s t (fun _ u =>
        SameButRecords u (acc (canCtrlWord 1 prio retry) false)))) ∧
    (ok (canCtrlWord 2 prio retry) → Acts (.canFlush t c prio retry intx) s t (fun n u =>
      u.regs = n.regs ∧ (∀ k, k ≠ c → canOf u k = canOf n k) ∧
      cmdOf u (0x40 + c) = cmdOf (acc (canCtrlWord 2 prio retry) true) (0x40 + c) ∧ (canOf u c).hostQ = [] ∧
      (∀ b z, b < 3 → getBuf (canOf u c) b = some z → isHostBuf (some z) = true → intx = some b ∧ z.flushed = true) ∧
      outstanding (canOf u c) = outstanding x ∧ (canOf u c).tec = x.tec)) ∧
    (ok (canCtrlWord 3 prio retry) → Acts (.canClear t c prio retry) s t (fun n u =>
      SameButRecords u { acc (canCtrlWord 3 prio retry) true with cans := u.cans } ∧
      (∀ k, k ≠ c → canOf u k = canOf n k) ∧
      canOf u c = { x with
        txprio := prio, retry := retry % 32, ovfA := 0, ovfB := 0, ovfH := 0, rejs := 0, errs := 0, pxe := 0, busoffs := 0,
        cntRx := 0, cntTx := 0, idcoll := false, txdTmo := false, collId := none }))

/-! The recorder (15) -/

/-- Scarab's stores (15 R352, R353, R360 to R362, R435): a commit puts the staged records, as many as the usable
segments take, behind those of the store in use, and none while frozen or before READY; OVERRUN is staged once a third
of staging is free; a store that fails is left for the other, a failed MRAM losing its records and the stored time; a
retired block without a spare takes a segment from the ring, and below 1 GiB of ring the flash has failed; an erasure
takes the oldest records alone, where fewer than three erased segments are left, and not while frozen, and it counts;
READY opens the stores that were found good. A read of REC_RATE answers what the page shows and starts PEAK afresh. -/
def Obligations.StoresOfTheRecorder : Prop :=
  ∀ (t k : Nat) (a b : Bool) (s : State),
    let r := s.node.rec_
    (r.frozen.isSome = true ∨ r.ready = false → Acts (.recordCommit t) s t (fun n u => SameButSignals u n)) ∧
    (r.frozen = none → r.ready = true → r.store = .flash → Acts (.recordCommit t) s t (fun n u =>
      SameButSignals u { n with rec_ := { r with flash := u.rec_.flash, staging := u.rec_.staging, committed := u.rec_.committed } } ∧
      u.rec_.flash ++ u.rec_.staging = r.flash ++ r.staging ∧
      (bytesOf (r.flash ++ r.staging) ≤ r.segs * 1048576 → u.rec_.staging = [] ∧
        ∀ x, r.staging.getLast? = some x → u.rec_.committed = x.rseq))) ∧
    (r.frozen = none → r.ready = true → r.store = .mram → Acts (.recordCommit t) s t (fun n u =>
      SameButSignals u { n with rec_ := { r with mram := u.rec_.mram, staging := [], committed := u.rec_.committed } } ∧
      ∀ x ∈ r.mram ++ r.staging, pinned x = true → x ∈ u.rec_.mram)) ∧
    (∀ o, r.overrun = some o → r.frozen = none → r.ready = true → 1048576 ≤ freeStaging s.node →
      Acts (.overrunRecord t) s t (fun n u => SameButRecords u n ∧ u.rec_.overrun = none ∧
        ∃ x, u.rec_.staging = r.staging ++ [x] ∧ x.body.typ = 12 ∧ x.rseq = r.nextRseq ∧ x.link = r.lastCrc)) ∧
    (r.overrun = none ∨ r.frozen.isSome = true ∨ r.ready = false ∨ freeStaging s.node < 1048576 →
      Acts (.overrunRecord t) s t (fun n u => SameButSignals u n)) ∧
    (r.store ≠ .flash ∨ k ∉ [1, 2, 4] → Acts (.flashFail t k) s t (fun n u => SameButSignals u n)) ∧
    (r.store = .flash → k ∈ [1, 2, 4] → Acts (.flashFail t k) s t (fun n u => SameButRecords u n ∧ u.rec_.flash = r.flash ∧
      u.rec_.store = (if r.mramOk then .mram else .none) ∧ (6, 4) ∈ u.dueB ∧
      (r.mramOk = true → ∀ x ∈ u.rec_.staging, x.mram = true))) ∧
    (r.mramOk = false → Acts (.mramFail t) s t (fun n u => SameButSignals u n)) ∧
    (r.mramOk = true → Acts (.mramFail t) s t (fun n u => SameButRecords u { n with tb := { n.tb with stored := none } } ∧
      u.rec_.mramOk = false ∧ u.rec_.mram = [] ∧ u.rec_.flash = r.flash ∧
      u.rec_.store = (if r.store = .mram then .none else r.store) ∧ (r.store = .mram → (6, 4) ∈ u.dueB))) ∧
    Acts (.blockRetire t k a) s t (fun n u => SameButRecords u n ∧ u.rec_.retired = min 65535 (r.retired + 1) ∧
      u.rec_.segs = (if a = true ∧ r.segs = 8192 then r.segs else r.segs - 1) ∧ u.rec_.flash = r.flash ∧
      (1024 ≤ u.rec_.segs ∨ r.store ≠ .flash → u.rec_.mram = r.mram ∧ u.rec_.store = r.store) ∧
      (u.rec_.segs < 1024 → r.store = .flash →
        u.rec_.store = (if r.mramOk then .mram else .none) ∧ (6, 4) ∈ u.dueB)) ∧
    (r.frozen.isSome = true ∨ r.store ≠ .flash ∨ usedSegs s.node + 2 < r.segs →
      Acts (.segmentErase t k) s t (fun n u => SameButSignals u n)) ∧
    (r.frozen = none → r.store = .flash → r.segs ≤ usedSegs s.node + 2 →
      Acts (.segmentErase t k) s t (fun n u => SameButRecords u n ∧
        (∃ j, u.rec_.flash = r.flash.drop j) ∧ u.rec_.mram = r.mram ∧ u.rec_.erases = r.erases + 1 ∧
        u.rec_.wear = max r.wear (min 255 (max k (divUp (r.erases + 1) r.segs) * 100 / 30000)) ∧
        (r.wear < 80 → 80 ≤ u.rec_.wear → (6, 5) ∈ u.dueB))) ∧
    (r.ready = true → Acts (.recorderReady t a b) s t (fun n u => SameButSignals u n)) ∧
    (r.ready = false → (∀ w ∈ r.waiting, w.clearTo = none) → Acts (.recorderReady t a b) s t (fun n u =>
      u.rec_.ready = true ∧ u.rec_.store = (if a then .flash else if b then .mram else .none) ∧ u.rec_.mramOk = b ∧
      u.rec_.flash = r.flash ∧ u.regs = n.regs ∧ (b = false → u.rec_.mram = []) ∧
      (a = true ∨ b = true ∨ r.store ≠ .flash → u.rec_.waiting = []) ∧
      (r.waiting = [] → a = true → r.store = .flash → b = true ∨ r.mramOk = false → u.rec_.staging = r.staging ∧
        u.rec_.nextRseq = (if b && r.mramOk then r.nextRseq
          else newestCommitted { n with rec_ := { r with mram := if b then r.mram else [] } } + 1048576)))) ∧
    (∀ path, path ≠ 0 → exec (.recRateRead t path) s = exec (.mgmtRead t path { off := 0x6064 }) s) ∧
    Acts (.recRateRead t 0) s t (fun n u =>
      let b := viewB s 6
      SameButSignals u { n with rec_ := { r with ratePeak := rateNow n } } ∧
      .read (pack [(min 65535 (b.rec_.ratePeak / 10), 16, 16), (min 65535 (rateNow b / 10), 0, 16)]) ∈ u.outs)

/-- No record yet has the next RSEQ (15 R347). -/
def Sys2Proof.newRseq (n : Node) : Prop :=
  ∀ x ∈ n.rec_.flash ++ n.rec_.mram ++ n.rec_.staging, x.rseq < n.rec_.nextRseq

/-- A word of REC_CMD: its code and a capture definition (15 Table 15.7). -/
def Sys2Proof.recWord (op d : Nat) : Word := pack [(d, 16, 3), (op, 0, 4)]

/-- The recorder's freeze and reading (15 R356, R357): FREEZE begins a freeze of REC_FREEZE_MAX seconds at the longest,
which a THAW or that limit ends and tells; a second FREEZE, and a THAW without one, end FAILED without effect. READ
copies committed records into the buffer, which is not valid until its command ends; at shed level 3 and above that is
not before its copy at 1 MiB/s. Clearing and captures (15 R354, R355, R359): TOKEN gives a random token for 60 s, bound
to its path; CLEAR without it ends FAILED; with it its record waits for its place in the frame's order (R351), and once
it is staged and committed every record up to the one named goes but the CLEAR records, its own among them, and no other
of the flash, and the command ends; where it cannot be committed none goes and the command ends FAILED (the model's
choice, log entry 107); ARM and DISARM set the definition's state, a trigger waits for its boundary, at which it begins
the capture of an ARMED definition alone, dated at S of its frame; a capture whose records are all staged ends DONE or
begins again. CLEAR_FLAGS clears LOSS. -/
def Obligations.FreezeReadClearAndCapture : Prop :=
  (∀ (t : Nat) (s : State),
     let n := atInstant s t
     let lv1 : CmdCheck := { level := levelOk n hostPath 1 }
     (judge n hostPath 6 lv1 = .accept →
       (s.node.rec_.frozen = none → Acts (.recFreeze t) s t (fun n u =>
         SameButRecords u (accepted n hostPath 6 (at_ 6 0x70) 1 (some true)) ∧
         u.rec_.frozen = some (n.now, n.now + fld (reg n (at_ 6 0x68)) 9 0 * 1000000000)) ∧
         Acts (.recThaw t) s t (fun n u => SameButSignals u (accepted n hostPath 6 (at_ 6 0x70) 0 (some false)))) ∧
       (s.node.rec_.frozen.isSome = true → Acts (.recThaw t) s t (fun n u =>
         SameButRecords u (accepted n hostPath 6 (at_ 6 0x70) 0 (some true)) ∧ u.rec_.frozen = none ∧ (6, 2) ∈ u.dueB) ∧
         Acts (.recFreeze t) s t (fun n u => SameButSignals u (accepted n hostPath 6 (at_ 6 0x70) 1 (some false))))) ∧
     (∀ b e, s.node.rec_.frozen = some (b, e) →
       (e ≤ n.now → Acts (.freezeExpire t) s t (fun n u => SameButRecords u n ∧ u.rec_.frozen = none ∧ (6, 2) ∈ u.dueB)) ∧
       (n.now < e → Acts (.freezeExpire t) s t (fun n u => SameButSignals u n))) ∧
     (s.node.rec_.frozen = none → Acts (.freezeExpire t) s t (fun n u => SameButSignals u n)) ∧
     (judge n hostPath 6 (recCmdCheck n hostPath (recWord 1 0)) = .accept → Acts (.recRead t) s t (fun n u =>
       let b := (readBuffer n).take 0x02000000
       let v := { accepted n hostPath 6 (at_ 6 0x74) (recWord 1 0) (some true) with
         rec_ := { n.rec_ with
           rdValid := false, readBuf := b, rdReq := some (pairValue n 6 0x78, readMax n, newestCommitted n) } }
       SameButSignals u (if n.mgt.shed < 3 then v else delayCmd v 6 (n.now + (b.length - 64) * 1000000000 / 1048576))))) ∧
  ((∀ (n : Node) (k last : Nat) (c : Command), cmdOf n 6 = some c → n.rec_.waiting = [recClearRec n last k] → newRseq n →
     n.rec_.store = .flash → 60 ≤ freeStaging n → bytesOf (n.rec_.flash ++ n.rec_.staging) + 60 ≤ n.rec_.segs * 1048576 →
       let u := stageWaiting n
       cmdOf u 6 = some { c with result := some true } ∧
       ∀ x ∈ u.rec_.flash ++ u.rec_.mram, x.body.typ = 8 ∨ last < x.rseq) ∧
   (∀ (auto : Bool) (d : Nat) (n : Node), lanesNone n = false →
     ((capOf n d).state ≠ .armed → actEff auto (.capTrig d) n = (n, some true)) ∧
     ((capOf n d).state = .armed →
       let r := actEff auto (.capTrig d) n
       r.2 = some true ∧ SameButRecords r.1 n ∧ (capOf r.1 d).state = .capturing ∧ (capOf r.1 d).trigT = n.sampleT ∧
       (6, 0) ∈ r.1.dueB ∧ ∀ k, k ≠ d → capOf r.1 k = capOf n k)) ∧
   ∀ (t d : Nat) (s : State), d < 8 →
     let n := atInstant s t
     let acc := fun (op d : Nat) (r : Bool) => accepted n hostPath 6 (at_ 6 0x74) (recWord op d) (some r)
     let ok := fun (op d : Nat) => judge n hostPath 6 (recCmdCheck n hostPath (recWord op d)) = .accept
     let others := fun (u : Node) => ∀ k, k ≠ d → capOf u k = capOf n k
     (ok 3 0 → Acts (.recToken t) s t (fun n u => SameButSignals u { acc 3 0 true with
       free := n.free + 1,
       rec_ := { n.rec_ with token := some { value := Config.randomWord n.free, deadline := n.now + 60000000000, path := hostPath } } })) ∧
     (∀ k, s.node.rec_.token = some k →
       (k.deadline ≤ n.now → Acts (.tokenExpire t) s t (fun n u =>
         SameButSignals u { n with rec_ := { n.rec_ with token := none } })) ∧
       (n.now < k.deadline → Acts (.tokenExpire t) s t (fun n u => SameButSignals u n))) ∧
     (s.node.rec_.token = none → Acts (.tokenExpire t) s t (fun n u => SameButSignals u n)) ∧
     (ok 2 0 → tokenOk n hostPath = false → Acts (.recClear t) s t (fun _ u => SameButSignals u (acc 2 0 false))) ∧
     (ok 2 0 → tokenOk n hostPath = true →
       ((n.rec_.frameStaged && n.rec_.ready) = false → Acts (.recClear t) s t (fun n u =>
         SameButRecords u (accepted n hostPath 6 (at_ 6 0x74) (recWord 2 0) none) ∧ u.rec_.token = none ∧
         u.rec_.flash = n.rec_.flash ∧ u.rec_.mram = n.rec_.mram ∧
         u.rec_.waiting = n.rec_.waiting ++ [recClearRec n (pairValue n 6 0x78) (pathAccount n hostPath)])) ∧
       (n.rec_.frameStaged = true → n.rec_.ready = true → newRseq n → n.rec_.clearDone = none → Acts (.recClear t) s t (fun n u =>
         ∃ r, SameButRecords u (acc 2 0 r) ∧ u.rec_.token = none ∧
           (r = true → (∃ x ∈ u.rec_.flash ++ u.rec_.mram, x.body.typ = 8 ∧ x.rseq = n.rec_.nextRseq) ∧
             ∀ x ∈ u.rec_.flash ++ u.rec_.mram, x.body.typ = 8 ∨ pairValue n 6 0x78 < x.rseq) ∧
           (∀ x ∈ n.rec_.flash, r = false ∨ x.body.typ = 8 ∨ pairValue n 6 0x78 < x.rseq → x ∈ u.rec_.flash) ∧
           (n.rec_.store = .none → r = false) ∧
           (n.rec_.store = .flash → 60 ≤ freeStaging n →
             bytesOf (n.rec_.flash ++ n.rec_.staging) + 60 ≤ n.rec_.segs * 1048576 → r = true)))) ∧
     (ok 4 d → Acts (.recCapTrig t d) s t (fun _ u =>
       SameButSignals u (deferred n hostPath 6 (at_ 6 0x74) (recWord 4 d) (.capTrig d)))) ∧
     (ok 5 d → Acts (.recArm t d) s t (fun n u =>
       SameButSignals u { acc 5 d true with rec_ := { n.rec_ with caps := u.rec_.caps } } ∧ others u ∧
       capOf u d = { capOf n d with state := .armed, slots := [] })) ∧
     (ok 6 d → Acts (.recDisarm t d) s t (fun n u =>
       SameButSignals u { acc 6 d true with rec_ := { n.rec_ with caps := u.rec_.caps } } ∧ others u ∧
       capOf u d = { capOf n d with state := .idle, slots := [] })) ∧
     (ok 7 0 → Acts (.recClearFlags t) s t (fun n u =>
       SameButSignals u { acc 7 0 true with rec_ := { n.rec_ with loss := false } })) ∧
     (captureFull s.node d = true → Acts (.captureEnd t d) s t (fun n u =>
       SameButSignals u { n with rec_ := { n.rec_ with caps := u.rec_.caps }, dueB := n.dueB ++ [(6, 1)] } ∧ others u ∧
       capOf u d = { capOf n d with state := if bit (reg n (at_ 6 (0x100 + 0x40 * d))) 31 then .armed else .done, slots := [] })) ∧
     (captureFull s.node d = false → Acts (.captureEnd t d) s t (fun n u => SameButSignals u n)))

/-! Configuration and security (16) -/

/-- The commands of the CFG page on a path (16 Table 16.7). -/
def Sys2Proof.cfgCommands (t p : Nat) (v : Word) (agree : Bool) : List Instr :=
  [.cfgOpen t p, .cfgClose t p, .cfgChpw t p, .cfgCommit t { path := p, agree := agree }, .cfgDiscard t p, .cfgAcctSet t p,
   .cfgAcctDel t p, .cfgKick t p, .cfgUnlock t p, .cfgConfirm t p v]

/-- A command of CFG_CMD that a path carries to the page: a connection that stands with a session, or that opens one (16 R372). -/
def Sys2Proof.reaches (n : Node) (path op : Nat) : Prop := carries n path ∨ (op = 1 ∧ mgmtUp n path = true)

/-- Sessions (16 R369, R372 to R374, R375): OPEN on a path without one tests the lock, the credentials, the level and
the other editing session; passing, it opens the session the host asks for and forgets failed attempts; a wrong password
counts, afresh once a lock has run out, the fifth locks the account for 15 min, and a command that fails ends no earlier
than 1 s. CLOSE, KICK, a timeout and the end of a connection end one path's session and no other; UNLOCK and the end of
the lock forget the attempts. On a connection that does not stand no command of the page has an effect, and without a
session all but OPEN are answered NO_SESSION. -/
def Obligations.SessionsOpenAndEnd : Prop :=
  ∀ (t p : Nat) (s : State),
    let n := atInstant s t
    let ok := fun (op : Nat) => reaches n p op ∧ judge n p 5 (cfgCmdCheck n p (BitVec.ofNat 32 op)) = .accept
    let ends := fun (u : Node) (r : Bool) => (cmdOf u 5).map (·.result) = some (some r)
    let others := fun (u : Node) => ∀ q, q ≠ p → sessionOf u q = sessionOf n q
    let a := fld (pAcct n) 3 0
    let lv := fld (pAcct n) 10 8
    let acct := accountOf n a
    let tries := (if lockOver n a then 0 else acct.fails) + 1
    let late := fun (u : Node) => (cmdOf u 5).map (·.notBefore) = some (n.now + 1000000000)
    (p ≠ 0 → mgmtUp n p = false → ∀ v agree, ∀ c ∈ cfgCommands t p v agree, Acts c s t (fun n u => SameButSignals u n)) ∧
    (mgmtUp n p = true → sessionOf n p = none → ∀ v agree, ∀ c ∈ cfgCommands t p v agree, c ≠ .cfgOpen t p →
      Acts c s t (fun n u => SameButSignals u n ∧ .mgmt p 2 0 ∈ u.outs)) ∧
    (ok 1 → sessionOf n p = none → acct.en = true → isLocked n a = false →
      (pwMatches acct (pwBytes n p 0) = true → lv ≤ acct.level → lv < 2 ∨ editPath n = none →
        Acts (.cfgOpen t p) s t (fun n u => ends u true ∧ others u ∧
          sessionOf u p = some { account := a, level := lv, last := n.now } ∧ (accountOf u a).fails = 0 ∧
          (∀ k, k ≠ a → accountOf u k = accountOf n k) ∧ u.regs = n.regs ∧ u.staged = n.staged)) ∧
      (pwMatches acct (pwBytes n p 0) = true → acct.level < lv ∨ (2 ≤ lv ∧ (editPath n).isSome = true) →
        Acts (.cfgOpen t p) s t (fun n u => ends u false ∧ others u ∧ sessionOf u p = none ∧
          u.config.accounts = n.config.accounts ∧ late u)) ∧
      (pwMatches acct (pwBytes n p 0) = false → Acts (.cfgOpen t p) s t (fun n u => ends u false ∧ others u ∧
        sessionOf u p = none ∧ late u ∧
        tget 0 u.config.result p = 1 ∧ (∀ k, k ≠ a → accountOf u k = accountOf n k) ∧
        (tries < 5 → accountOf u a = { acct with fails := tries, lockUntil := none }) ∧
        (5 ≤ tries → accountOf u a = { acct with fails := 5, lockUntil := some (n.now + 900000000000) } ∧
          bit (headerOf u 5).irqStat 3 = true)))) ∧
    (ok 1 → sessionOf n p = none → (acct.en = true ∧ isLocked n a = true) ∨ acct.en = false →
      Acts (.cfgOpen t p) s t (fun n u => ends u false ∧ others u ∧ sessionOf u p = none ∧ late u ∧
        tget 0 u.config.result p = (if acct.en then 2 else 1) ∧ u.config.accounts = n.config.accounts)) ∧
    (ok 2 → Acts (.cfgClose t p) s t (fun n u => ends u true ∧ others u ∧ sessionOf u p = none ∧ u.regs = n.regs ∧
      u.config.accounts = n.config.accounts)) ∧
    (ok 8 →
      (∀ q x, q = fld (pAcct n) 26 24 → q ≠ p → sessionOf n q = some x → Acts (.cfgKick t p) s t (fun n u =>
        ends u true ∧ sessionOf u q = none ∧ (∀ j, j ≠ q → j ≠ p → sessionOf u j = sessionOf n j) ∧
        (sessionOf u p).isSome = (sessionOf n p).isSome ∧ bit (headerOf u 5).irqStat 2 = true ∧ u.regs = n.regs)) ∧
      (fld (pAcct n) 26 24 = p ∨ sessionOf n (fld (pAcct n) 26 24) = none → Acts (.cfgKick t p) s t (fun n u =>
        ends u false ∧ tget 0 u.config.result p = 12 ∧ others u ∧ (sessionOf u p).isSome = (sessionOf n p).isSome))) ∧
    (ok 9 → Acts (.cfgUnlock t p) s t (fun n u => ends u true ∧
      accountOf u a = { acct with fails := 0, lockUntil := none } ∧ (∀ k, k ≠ a → accountOf u k = accountOf n k) ∧
      u.regs = n.regs)) ∧
    (∀ e, (accountOf n p).lockUntil = some e →
      (n.mgt.state = .run → e ≤ n.now → Acts (.lockoutExpire t p) s t (fun n u => SameButSignals u { n with config := u.config } ∧
        accountOf u p = { accountOf n p with fails := 0, lockUntil := none } ∧
        (∀ k, k ≠ p → accountOf u k = accountOf n k) ∧ u.config.sessions = n.config.sessions)) ∧
      (n.mgt.state ≠ .run ∨ n.now < e → Acts (.lockoutExpire t p) s t (fun n u => SameButSignals u n))) ∧
    (∀ e, timeoutAt n p = some e →
      (e ≤ n.now → Acts (.sessionTimeout t p) s t (fun n u => sessionOf u p = none ∧ others u ∧
        bit (headerOf u 5).irqStat 2 = true ∧ u.regs = n.regs ∧ u.config.accounts = n.config.accounts)) ∧
      (n.now < e → Acts (.sessionTimeout t p) s t (fun n u => SameButSignals u n))) ∧
    (timeoutAt n p = none → Acts (.sessionTimeout t p) s t (fun n u => SameButSignals u n)) ∧
    (1 ≤ p ∧ p ≤ 4 →
      Acts (.tlsClose t p) s t (fun n u => sessionOf u p = none ∧ others u ∧ tget false u.config.tls p = false ∧
        u.regs = n.regs) ∧
      (∀ q, q < 4 → bit (reg n (at_ (0x58 + q) 0x58)) 0 = true → bit (reg n (at_ (0x58 + q) 0x58)) 3 = true →
        s.node.mgt.state = .run → s.node.mgt.shed < 4 → Acts (.tlsConnect t p) s t (fun n u =>
          SameButSignals u { n with config := { n.config with tls := u.config.tls } } ∧
          tget false u.config.tls p = true ∧ ∀ j, j ≠ p → tget false u.config.tls j = tget false n.config.tls j)) ∧
      (s.node.mgt.state ≠ .run ∨ 4 ≤ s.node.mgt.shed ∨
          (∀ q, q < 4 → bit (reg n (at_ (0x58 + q) 0x58)) 0 = false ∨ bit (reg n (at_ (0x58 + q) 0x58)) 3 = false) →
        Acts (.tlsConnect t p) s t (fun n u => SameButSignals u n)))

/-- Accounts and passwords (16 R366 to R371): CHPW of a session's own account, not locked and with the password in
force, takes a new password that meets R368 and differs from it, and ends once the write of configuration flash has put
its hash into the accounts, attempts forgotten; ACCT_SET gives an account its level, name and password, to be changed at
the first OPEN, and ACCT_DEL clears it, each only while an enabled account of level 4 remains. No other account changes.
-/
def Obligations.AccountsAndPasswords : Prop :=
  ∀ (t p : Nat) (s : State),
    let n := atInstant s t
    let ok := fun (op : Nat) => reaches n p op ∧ judge n p 5 (cfgCmdCheck n p (BitVec.ofNat 32 op)) = .accept
    let ends := fun (u : Node) (r : Bool) => (cmdOf u 5).map (·.result) = some (some r)
    let a := fld (pAcct n) 3 0
    let acct := accountOf n a
    let name := (nameBytes n).takeWhile (· ≠ 0)
    (∀ x, ok 3 → sessionOf n p = some x → isLocked n x.account = false →
      (pwMatches (accountOf n x.account) (pwBytes n p 8) = true →
        (pwRule (pwBytes n p 0) (accountOf n x.account).name = true → pwBytes n p 0 ≠ pwBytes n p 8 →
          Acts (.cfgChpw t p) s t (fun n u => (cmdOf u 5).map (·.result) = some none ∧ u.regs = n.regs ∧
            u.free = n.free + 1 ∧ u.config.accounts = n.config.accounts ∧ u.config.chpw = some {
              account := x.account, level := x.level, salt := Config.salt n.free,
              hash := pwHash (pwBytes n p 0) (Config.salt n.free) })) ∧
        (pwRule (pwBytes n p 0) (accountOf n x.account).name = false ∨ pwBytes n p 0 = pwBytes n p 8 →
          Acts (.cfgChpw t p) s t (fun n u => ends u false ∧ u.config.accounts = n.config.accounts ∧
            tget 0 u.config.result p = 4))) ∧
      (pwMatches (accountOf n x.account) (pwBytes n p 8) = false → Acts (.cfgChpw t p) s t (fun n u =>
        ends u false ∧ tget 0 u.config.result p = 1 ∧ (∀ k, k ≠ x.account → accountOf u k = accountOf n k) ∧
        (accountOf u x.account).hash = (accountOf n x.account).hash ∧
        (cmdOf u 5).map (·.notBefore) = some (n.now + 1000000000) ∧
        (accountOf u x.account).fails = min 5 ((if lockOver n x.account then 0 else (accountOf n x.account).fails) + 1)))) ∧
    (∀ x, ok 3 → sessionOf n p = some x → isLocked n x.account = true → Acts (.cfgChpw t p) s t (fun n u =>
      ends u false ∧ tget 0 u.config.result p = 2 ∧ u.config.accounts = n.config.accounts)) ∧
    (∀ x, s.node.config.chpw = some x → s.node.mgt.state = .run → s.node.config.pend = none → s.node.config.half = none →
      Acts (.configFlashWrite t true) s t (fun n u => u.config.chpw = none ∧ u.regs = n.regs ∧
        cmdOf u 5 = (cmdOf n 5).map (fun c => { c with result := some true }) ∧
        accountOf u x.account = { accountOf n x.account with
          salt := x.salt, hash := x.hash, mustchg := false, fails := 0, lockUntil := none } ∧
        (∀ k, k ≠ x.account → accountOf u k = accountOf n k) ∧
        (flashOf u.config (firstCopy n.config)).accounts = u.config.accounts)) ∧
    (ok 6 →
      let y : Account := { acct with en := bit (pAcct n) 16, level := fld (pAcct n) 10 8, name := name }
      (superRemains n a y = true → pwRule (pwBytes n p 0) name = true → Acts (.cfgAcctSet t p) s t (fun n u =>
        ends u true ∧ u.regs = n.regs ∧ (∀ k, k ≠ a → accountOf u k = accountOf n k) ∧
        accountOf u a = { y with
          salt := Config.salt n.free, hash := pwHash (pwBytes n p 0) (Config.salt n.free), mustchg := true })) ∧
      (superRemains n a y = false → Acts (.cfgAcctSet t p) s t (fun n u => ends u false ∧
        u.config.accounts = n.config.accounts ∧ tget 0 u.config.result p = 11)) ∧
      (superRemains n a y = true → pwRule (pwBytes n p 0) name = false → Acts (.cfgAcctSet t p) s t (fun n u => ends u false ∧
        u.config.accounts = n.config.accounts ∧ tget 0 u.config.result p = 4))) ∧
    (ok 7 →
      (superRemains n a {} = true → Acts (.cfgAcctDel t p) s t (fun n u => ends u true ∧ u.regs = n.regs ∧
        accountOf u a = {} ∧ ∀ k, k ≠ a → accountOf u k = accountOf n k)) ∧
      (superRemains n a {} = false → Acts (.cfgAcctDel t p) s t (fun n u => ends u false ∧
        u.config.accounts = n.config.accounts ∧ tget 0 u.config.result p = 11)))

/-- Images (16 R377 to R379, R383): COMMIT checks the staged values in order; the first check that fails ends it FAILED
with its number, and so do check values of the lanes that differ; an image that passes is PENDING with its check value
and its period, no active value changing; CONFIRM with that value waits for the flash, another counts, and the third
discards the image; DISCARD and the closing of the window discard it, an accepted CONFIRM apart. The first copy that is
written and verified lets the image take effect at a boundary in CONFIG: every staged value that differs becomes the
active one. -/
def Obligations.ImagesCommitAndConfirm : Prop :=
  (∀ (n : Node) (x : Pending), n.config.pend = some x →
    (x.verified = true → isConfig n = true → lanesNone n = false →
      let u := applyImage n
      let es := stagedChanges (takeStages n)
      u.staged = [] ∧ u.config.pend = some { x with verified := false } ∧ bit (headerOf u 5).irqStat 4 = true ∧
      ((es.map Prod.fst).Nodup → ∀ e ∈ es, reg u e.1 = e.2) ∧
      ∀ k, k ∉ es.map Prod.fst → reg u k = reg n k) ∧
    (x.verified = false ∨ isConfig n = false ∨ lanesNone n = true → applyImage n = n)) ∧
  ∀ (t p : Nat) (v : Word) (x : Pending) (s : State),
    let n := atInstant s t
    let ok := fun (op : Nat) => reaches n p op ∧ judge n p 5 (cfgCmdCheck n p (BitVec.ofNat 32 op)) = .accept
    let result := fun (u : Node) => (cmdOf u 5).map (·.result)
    let image := stagedView (takeStages (acceptCmd n p 5 (at_ 5 0x5C) 4))
    (ok 4 →
      (∀ f agree, commitFail image = some f → Acts (.cfgCommit t { path := p, agree := agree }) s t (fun n u => result u = some (some false) ∧
        u.config.cfail = f ∧ u.config.pend = none ∧ tget 0 u.config.result p = 6 ∧ u.regs = n.regs ∧ u.staged = n.staged)) ∧
      (commitFail image = none → Acts (.cfgCommit t { path := p, agree := false }) s t (fun n u => result u = some (some false) ∧
        u.config.pend = none ∧ tget 0 u.config.result p = 7 ∧ u.regs = n.regs ∧ u.staged = n.staged)) ∧
      (commitFail image = none → Acts (.cfgCommit t { path := p }) s t (fun n u => result u = some (some true) ∧
        u.config.pend = some {
          check := imageCheck image, until_ := n.now + 600000000000, period := fld (reg image (at_ 1 0x64)) 3 0 } ∧
        bit (headerOf u 5).irqStat 1 = true ∧ u.regs = n.regs ∧ u.staged = n.staged))) ∧
    (ok 5 → s.node.config.pend = none → Acts (.cfgDiscard t p) s t (fun n u => result u = some (some false) ∧
      tget 0 u.config.result p = 8 ∧ u.staged = n.staged ∧ u.regs = n.regs)) ∧
    (ok 5 → s.node.config.pend = some x → x.confirmed = false → Acts (.cfgDiscard t p) s t (fun n u =>
      result u = some (some true) ∧ u.config.pend = none ∧ u.staged = [] ∧ u.regs = n.regs)) ∧
    (carries n p → judge n p 5 { state := isConfig n, level := levelOk n p 3 } = .accept → s.node.config.pend = some x →
      x.confirmed = false → n.now ≤ x.until_ →
      (v = x.check → Acts (.cfgConfirm t p v) s t (fun n u => result u = some none ∧
        u.config.pend = some { x with confirmed := true } ∧ u.staged = n.staged ∧ u.regs = n.regs)) ∧
      (v ≠ x.check → Acts (.cfgConfirm t p v) s t (fun n u => result u = some (some false) ∧ u.regs = n.regs ∧
        tget 0 u.config.result p = 9 ∧
        (x.unequal < 2 → u.config.pend = some { x with unequal := x.unequal + 1 } ∧ u.staged = n.staged) ∧
        (2 ≤ x.unequal → u.config.pend = none ∧ u.staged = [])))) ∧
    (s.node.config.pend = some x → x.confirmed = false → x.until_ ≤ n.now → Acts (.confirmWindowExpire t) s t (fun n u =>
      u.config.pend = none ∧ u.staged = [] ∧ bit (headerOf u 5).irqStat 5 = true ∧ u.regs = n.regs)) ∧
    (s.node.config.pend = none → Acts (.confirmWindowExpire t) s t (fun n u => SameButSignals u n)) ∧
    (s.node.config.pend = some x → x.confirmed = true ∨ n.now < x.until_ →
      Acts (.confirmWindowExpire t) s t (fun n u => SameButSignals u n)) ∧
    (s.node.mgt.state ≠ .run → ∀ b, Acts (.configFlashWrite t b) s t (fun n u => SameButSignals u n)) ∧
    (s.node.mgt.state = .run → s.node.config.pend = some x → x.confirmed = true → s.node.config.half = none →
      Acts (.configFlashWrite t true) s t (fun n u => SameButSignals u { n with config := u.config } ∧
        u.config.pend = some { x with verified := true, first := true } ∧ u.config.gen = n.config.gen + 1 ∧
        u.config.half = some (!firstCopy n.config) ∧ (flashOf u.config (firstCopy n.config)).valid = true ∧
        (flashOf u.config (firstCopy n.config)).check = x.check ∧
        flashOf u.config (!firstCopy n.config) = flashOf n.config (!firstCopy n.config)) ∧
      Acts (.configFlashWrite t false) s t (fun n u =>
        SameButSignals u { n with config := u.config, headers := u.headers } ∧ u.config.pend = some x ∧
        (flashOf u.config (firstCopy n.config)).valid = false ∧ Raised n u 5 0)) ∧
    (∀ b, s.node.mgt.state = .run → s.node.config.half = some b →
        s.node.config.pend = none ∨ (s.node.config.pend = some x ∧ x.first = false) →
      Acts (.configFlashWrite t true) s t (fun n u => SameButSignals u { n with config := u.config } ∧
        u.config.half = none ∧ flashOf u.config b = flashOf n.config (!b) ∧ flashOf u.config (!b) = flashOf n.config (!b) ∧
        u.config.pend = n.config.pend ∧ u.config.dirty = n.config.dirty)) ∧
    (∀ b, s.node.mgt.state = .run → s.node.config.pend = some x → x.first = true → x.verified = false →
        s.node.config.half = some b →
      Acts (.configFlashWrite t true) s t (fun n u => u.config.pend = none ∧ u.config.half = none ∧
        u.config.check = x.check ∧ flashOf u.config b = flashOf n.config (!b) ∧
        flashOf u.config (!b) = flashOf n.config (!b) ∧
        cmdOf u 5 = (cmdOf n 5).map (fun c => { c with result := some true }) ∧ u.regs = n.regs)) ∧
    (s.node.mgt.state = .run → s.node.config.pend = none → s.node.config.half = none → s.node.config.dirty = true →
        s.node.config.chpw = none →
      Acts (.configFlashWrite t true) s t (fun n u => SameButSignals u { n with config := u.config } ∧
        let b := firstCopy n.config
        u.config.dirty = false ∧ u.config.gen = n.config.gen + 1 ∧ u.config.half = some (!b) ∧
        (flashOf u.config b).regs = flashRegs n ∧ (flashOf u.config b).valid = true ∧
        (flashOf u.config b).gen = n.config.gen + 1 ∧ flashOf u.config (!b) = flashOf n.config (!b) ∧
        u.config.accounts = n.config.accounts))

/-! Node states, resets and power (17) -/

/-- A copy whose accounts stay locked `d` longer (16 R369). -/
def Sys2Proof.laterCopy (d : Nat) (x : FlashCopy) : FlashCopy :=
  { x with accounts := x.accounts.map (fun e => (e.1, { e.2 with lockUntil := e.2.lockUntil.map (· + d) })) }

/-- What every reset leaves (17 R395, R396): INIT, every register at its Reset column value, nothing staged for the flash or
the recorder, no session, the lanes in NONE, every page's shadow words as they are at reset, nothing held, the mirror ring
empty; the configuration's copies stand, their locks later by the time `d` without power, and RST_N and the records committed to
flash do, but for what a CLEAR that had been accepted removes. -/
def Sys2Proof.wasReset (d : Nat) (s u : State) : Prop :=
  u.node.nodeSt.state = .init ∧ u.node.regs = [] ∧ u.node.staged = [] ∧ u.node.headers = [] ∧ u.node.seqs = [] ∧
  u.node.cmds = [] ∧ u.node.config.sessions = [] ∧ u.node.rec_.staging = [] ∧ u.node.laneSt = {} ∧ u.node.points = [] ∧
  u.node.config.copyA = laterCopy d s.node.config.copyA ∧ u.node.config.copyB = laterCopy d s.node.config.copyB ∧
  ((∀ w ∈ s.node.rec_.waiting, w.clearTo = none) → s.node.rec_.flash <+: u.node.rec_.flash) ∧
  (∀ k, reg u.atB k = regInit k) ∧ (∀ k, reg u.atR k = regInit k) ∧ u.holds = [] ∧ u.bar2 = [] ∧ u.pending = s.pending

/-- Resets (17 R395 to R398): the commanded reset, RST_N, and PERST_N where PERST_RST is set, with their causes; without
it PERST_N resets the endpoint alone; RST_N holds the node until it rises, whatever resets it meanwhile. The reset
command is refused and repeated as every command, and at the instant at which a power-fail begins with STATE; a start-up
that begins counts in BOOT, and none begins with RST_N low or the rails off. The cause that a release tells is the last
source of the time in reset, the model's choice (log entry 111). Feeds and power (17 R402, R403, R432, 15 R363): the
loss of the second feed begins a power-fail, whose shutdown, 30 ms later at the earliest, commits the records that are
sure and switches the rails off; with the rails off, or before a first feed, one feed or both start the node, with the
cause the marker tells, once RST_N is high; the locks of accounts go on with the time that remained; a feed that is
already there, and a shutdown without a power-fail, change nothing. -/
def Obligations.ResetsAndFeeds : Prop :=
  (∀ (t : Nat) (s : State),
     let st := s.node.nodeSt
     let off := s.node.power.off
     let starts := fun (u : State) =>
       (st.held = false → off = false → u.node.nodeSt.boot = (st.boot + 1) % 4294967296) ∧
       (st.held = true ∨ off = true → u.node.nodeSt.boot = st.boot) ∧ u.node.nodeSt.held = st.held ∧ u.node.nodeSt.phase = 1
     (judge (atInstant s t) hostPath 0 { state := !failNow (atInstant s t) } = .accept → Yields (.nodeResetCmd t) s (fun u =>
       wasReset 0 s u ∧ u.node.nodeSt.rstCause = 4 ∧ starts u)) ∧
     (judge (atInstant s t) hostPath 0 { state := !failNow (atInstant s t) } = .duplicate → Acts (.nodeResetCmd t) s t (fun n u => SameButSignals u n)) ∧
     (∀ c, judge (atInstant s t) hostPath 0 { state := !failNow (atInstant s t) } = .refuse c → Acts (.nodeResetCmd t) s t (fun n u =>
       SameButSignals u { n with seqs := u.seqs } ∧ seqOf u hostPath 0 = { seqOf n hostPath 0 with cmdRes := c })) ∧
     Yields (.rstNAssert t) s (fun u => wasReset 0 s u ∧ u.node.nodeSt.held = true ∧ u.node.nodeSt.rstCause = 2 ∧
       u.node.nodeSt.boot = s.node.nodeSt.boot) ∧
     (s.node.nodeSt.held = true → Yields (.rstNRelease t) s (fun u => u.node.nodeSt.held = false ∧
       u.node.nodeSt.rstCause = st.rstCause ∧ u.node.nodeSt.state = st.state ∧
       (off = false → u.node.nodeSt.phase = 1 ∧ u.node.nodeSt.boot = (st.boot + 1) % 4294967296) ∧
       (off = true → u.node.nodeSt.boot = st.boot) ∧ u.node.regs = s.node.regs ∧ u.pending = s.pending)) ∧
     (s.node.nodeSt.held = false → Acts (.rstNRelease t) s t (fun n u => SameButSignals u n)) ∧
     (bit (reg s.node (at_ 0 0x70)) 0 = true → Yields (.perstNAssert t) s (fun u => wasReset 0 s u ∧
       u.node.nodeSt.rstCause = 3 ∧ starts u)) ∧
     (bit (reg s.node (at_ 0 0x70)) 0 = false → Acts (.perstNAssert t) s t (fun n u =>
       SameButSignals u { n with mirror := { n.mirror with linkUp := false }, endpoint := {} } ∧
       ∀ v, v < 64 → (vectorOf u v).masked = true))) ∧
  (∀ (t : Nat) (a b : Bool) (s : State),
     let p := s.node.power
     let has := if b then p.bOk else p.aOk
     let other := if b then p.aOk else p.bOk
     let now := max s.node.now t
     let started : Bool → Bool → State → Prop := fun a b u =>
       wasReset (now - p.offAt.getD now) s u ∧ u.node.nodeSt.phase = 1 ∧ u.node.nodeSt.held = s.node.nodeSt.held ∧
       u.node.nodeSt.boot = (if s.node.nodeSt.held then s.node.nodeSt.boot else (s.node.nodeSt.boot + 1) % 4294967296) ∧
       u.node.power.aOk = a ∧ u.node.power.bOk = b ∧ u.node.power.off = false ∧ u.node.duplex = { posB := s.node.duplex.posB } ∧
       (p.offAt = none → u.node.nodeSt.rstCause = 1) ∧
       (∀ a, p.offAt = some a → (now ≤ a + 1000000000 → u.node.nodeSt.rstCause = 5) ∧
         (a + 3000000000 < now → u.node.nodeSt.rstCause = 1))
     (has = true → Acts (.feedLost t b) s t (fun n u =>
       u.regs = n.regs ∧ u.nodeSt = n.nodeSt ∧ (if b then u.power.bOk else u.power.aOk) = false ∧
       (if b then u.power.aOk else u.power.bOk) = other ∧ (0x0D, if b then 2 else 0) ∈ u.dueB ∧
       (other = true → u.power.pfail = p.pfail) ∧
       (other = false → u.power.pfail = true ∧ u.power.pfailAt = n.now ∧ (0x0D, 4) ∈ u.dueB))) ∧
     (has = false → Acts (.feedLost t b) s t (fun n u => SameButSignals u n)) ∧
     (p.off = false → has = true → Acts (.feedPresent t b) s t (fun n u => SameButSignals u n)) ∧
     (p.off = false → has = false → Acts (.feedPresent t b) s t (fun n u =>
       SameButRecords u { n with power := u.power } ∧ (if b then u.power.bOk else u.power.aOk) = true ∧
       (if b then u.power.aOk else u.power.bOk) = other ∧ u.power.pfail = false ∧
       (0x0D, if b then 3 else 1) ∈ u.dueB)) ∧
     (p.off = true → Yields (.feedPresent t b) s (started (!b) b)) ∧
     ((a || b) = true → p.off = true ∨ (p.aOk = false ∧ p.bOk = false ∧ p.pfail = false) →
       Yields (.powerUp t a b) s (started a b)) ∧
     ((a || b) = false ∨ (p.off = false ∧ (p.aOk = true ∨ p.bOk = true ∨ p.pfail = true)) →
       Acts (.powerUp t a b) s t (fun n u => SameButSignals u n)) ∧
     (p.pfail = true → p.pfailAt + 30000000 ≤ now → Yields (.shutdown t) s (fun u => wasReset 0 s u ∧ u.node.power.off = true ∧
       u.node.power.pfail = false ∧ u.node.power.offAt = some now ∧
       (s.node.rec_.store = .flash →
         bytesOf (s.node.rec_.flash ++ s.node.rec_.staging) ≤ s.node.rec_.segs * 1048576 →
         u.node.rec_.flash = s.node.rec_.flash ++ s.node.rec_.staging.filter (fun x => decide (x.rseq ≤ p.sure))))) ∧
     (p.pfail = false ∨ now < p.pfailAt + 30000000 → Acts (.shutdown t) s t (fun n u => SameButSignals u n)))

/-- Start-up (17 R399, R400, 11 R261, 16 R383, 18 R421): phase 1 ends with the lanes that passed voting, where two did,
and the position strap sampled; phase 2 loads the newer valid copy with every value in range, or the factory
configuration where neither is, and powers the enabled ranks; phase 3 ends once each has ended its self-test, and leaves
them unpowered; phase 4 ends in STANDBY once the time base no longer acquires. A rank that passes its self-test is
READY, but for phase 3, where no acquisition follows; one that fails is unpowered with code 1 or 5 and FAULTY with
another. Outside INIT and while held nothing moves on. -/
def Obligations.StartUp : Prop :=
  ∀ (t lanesOk r code : Nat) (aBad bBad posB : Bool) (s : State),
    let st := s.node.nodeSt
    let testing : Nat → Prop := fun r => r < 16 ∧ nbit (reg s.node (at_ 0x0D 0x50)).toNat r = true ∧ rankTesting s.node r = true
    let still : Node → Node → Prop := fun n u =>
      SameButSignals u { fabricAdvance n with safety := u.safety, cmds := u.cmds } ∧ fabricHolds u
    (st.state ≠ .init ∨ st.held = true ∨ s.node.power.off = true ∨ (st.phase = 4 ∧ s.node.tb.state = .acquiring) ∨
        (st.phase = 3 ∧ ∃ k, testing k) →
      Acts (.startupPhaseEnd t lanesOk { a := aBad, b := bBad } posB) s t still) ∧
    (st.state = .init → st.held = false → s.node.power.off = false →
      Acts (.startupPhaseEnd t lanesOk { a := aBad, b := bBad } posB) s t (fun n u => fabricHolds u ∧
        let aGood : Prop := n.config.copyA.valid = true ∧ aBad = false ∧ copyRangeOk n n.config.copyA = true
        let bGood : Prop := n.config.copyB.valid = true ∧ bBad = false ∧ copyRangeOk n n.config.copyB = true
        (st.phase = 1 → u.nodeSt = { n.nodeSt with phase := 2 } ∧ u.regs = n.regs ∧ u.duplex = { n.duplex with posB := posB } ∧
          ((members lanesOk 3).length < 2 → u.laneSt.state = n.laneSt.state) ∧
          (2 ≤ (members lanesOk 3).length →
            u.laneSt.state = 3 - (members lanesOk 3).length ∧ (3, 0) ∈ u.dueR ∧
            ∀ l, l < 3 → nbit lanesOk l = true → (laneOf u l).phase = 0) ∧
          (∀ l, l < 3 → nbit lanesOk l = false → (laneOf u l).cause = 11 ∧ (3, 1) ∈ u.dueR ∧ 0 < u.laneSt.excl ∧
            ((laneOf n l).attempts = [] → (laneOf u l).phase = 1))) ∧
        (st.phase = 2 → u.nodeSt = { n.nodeSt with phase := 3 } ∧ u.laneSt = n.laneSt ∧
          (∀ k, k < 16 → nbit (reg u (at_ 0x0D 0x50)).toNat k = true → (rankOf n k).failed = false → (rankOf u k).powered = true) ∧
          (aGood → ¬bGood ∨ n.config.copyB.gen ≤ n.config.copyA.gen →
            u.config.accounts = n.config.copyA.accounts ∧ u.config.check = n.config.copyA.check ∧ u.config.factory = false) ∧
          (bGood → ¬aGood ∨ n.config.copyA.gen < n.config.copyB.gen →
            u.config.accounts = n.config.copyB.accounts ∧ u.config.check = n.config.copyB.check ∧ u.config.factory = false) ∧
          (¬aGood → ¬bGood → u.config.factory = true ∧ (accountOf u 0).level = 4 ∧ (accountOf u 0).mustchg = true)) ∧
        (st.phase = 3 → (∀ k, ¬testing k) → u.nodeSt = { n.nodeSt with phase := 4, rsDone := 0 } ∧ u.regs = n.regs ∧
          ∀ k, (rankOf u k).powered = false) ∧
        (st.phase = 4 → n.tb.state ≠ .acquiring → u.nodeSt = { n.nodeSt with state := .standby, phase := 0, upSince := n.now } ∧ u.regs = n.regs ∧
          (0, 1) ∈ u.dueB))) ∧
    (r < 16 → code < 8 → rankTesting s.node r = true →
      Acts (.rankSelftestDone t r code) s t (fun n u => fabricHolds u ∧ u.regs = n.regs ∧
        (∀ k, k ≠ r → rankOf u k = rankOf n k) ∧ tget 0 u.nodeSt.rstest r = code ∧
        (code = 1 ∨ code = 5 → (rankOf u r).powered = false ∧ (rankOf u r).failed = true ∧
          ((rankOf n r).failed = false → (0x0D, 5) ∈ u.dueB)) ∧
        (code = 0 → st.phase = 3 → rankOf u r = rankOf n r ∧ nbit u.nodeSt.rsDone r = true) ∧
        (code = 0 → st.phase ≠ 3 → rankOf u r = { rankOf n r with ready := true, selftest := 0 } ∧
          bit (headerOf u (0x10 + r)).irqStat 4 = true) ∧
        (code ≠ 0 → code ≠ 1 → code ≠ 5 → rankOf u r = { rankOf n r with ready := true, faulty := true, selftest := code } ∧
          bit (headerOf u (0x10 + r)).irqStat 1 = true))) ∧
    (16 ≤ r ∨ 8 ≤ code ∨ rankTesting s.node r = false → Acts (.rankSelftestDone t r code) s t still)

/-- The host watchdog and the return from NONE (17 R391, R393, 11 R261): in RUN, without a KICK for its time, the
watchdog sets HWDOG and asks for SAFE with cause 3, or where an entry for LANES waits leaves it that cause, the model's
choice (log entry 37); where its own entry waits nothing more follows; a KICK restarts it unless the page is locked; the
lanes resume in TMR with their dynamic state at its reset values, the supervision of the bridge link apart, and every
enabled function LOCKED, with cause 11 after a fabric failure (log entry 72), and an operational node enters SAFE with
cause 2. The entry to SAFE takes place at the next boundary. -/
def Obligations.WatchdogAndResume : Prop :=
  (∀ (t : Nat) (s : State),
    let tmo := fld (reg s.node (at_ 0 0x60)) 15 0
    (s.node.nodeSt.state = .run → tmo ≠ 0 → s.node.nodeSt.safePend ≠ some 3 →
      s.node.nodeSt.kickAt + tmo * 100000000 ≤ max s.node.now t → Acts (.hwdogExpire t) s t (fun n u => SameButSignals u
        { n with nodeSt := { n.nodeSt with hwdogFault := true, safePend := some (n.nodeSt.safePend.getD 3) }, dueB := n.dueB ++ [(0, 3)] })) ∧
    (s.node.nodeSt.state ≠ .run ∨ tmo = 0 ∨ s.node.nodeSt.safePend = some 3 ∨ max s.node.now t < s.node.nodeSt.kickAt + tmo * 100000000 →
      Acts (.hwdogExpire t) s t (fun n u => SameButSignals u n)) ∧
    ((headerOf s.node 0).locked = false → Acts (.nodeKick t) s t (fun n u =>
      SameButSignals u { n with nodeSt := { n.nodeSt with kickAt := n.now } })) ∧
    ((headerOf s.node 0).locked = true → Acts (.nodeKick t) s t (fun n u =>
      SameButSignals u { n with seqs := u.seqs } ∧ seqOf u hostPath 0 = { seqOf n hostPath 0 with cmdRes := 8 })) ∧
    (s.node.laneSt.state = 3 → s.node.nodeSt.state ≠ .init ∨ s.node.nodeSt.phase ≠ 1 →
      Acts (.lanesResume t) s t (fun n u => fabricHolds u ∧ u.laneSt.state = 0 ∧ u.laneSt.mask = 7 ∧
        u.laneSt.counted = 7 ∧ u.laneSt.tmrSince = some n.now ∧ (∀ l, l < 3 → (laneOf u l).phase = 0) ∧ (3, 0) ∈ u.dueR ∧ u.points = [] ∧ u.groups = [] ∧
        u.call = { lastHbt := n.call.lastHbt, brLost := n.call.brLost } ∧ u.launches = [] ∧ u.regs = n.regs ∧
        (∀ fn ∈ enabledFns n, (fnOf u fn).state = .locked ∧ (fnOf u fn).cause = (if n.safety.failed then 11 else 12)) ∧
        u.nodeSt.safePend = (if operational n then some 2 else n.nodeSt.safePend) ∧ u.nodeSt.state = n.nodeSt.state)) ∧
    (s.node.laneSt.state ≠ 3 ∨ (s.node.nodeSt.state = .init ∧ s.node.nodeSt.phase = 1) →
      Acts (.lanesResume t) s t (fun n u =>
        SameButSignals u { fabricAdvance n with safety := u.safety, cmds := u.cmds } ∧ fabricHolds u))) ∧
  ∀ (n : Node) (c : Nat), n.nodeSt.safePend = some c → n.power.pfail = false →
    let r := autoSafe n
    r.1.nodeSt.safePend = none ∧ r.1.regs = n.regs ∧
    (n.nodeSt.state = .run ∨ (n.nodeSt.state = .config ∧ c = 2) →
      r.2 = true ∧ r.1.nodeSt.state = .safe ∧ r.1.nodeSt.safeCause = c ∧ (0, 2) ∈ r.1.dueB) ∧
    (n.nodeSt.state = .safe → r.2 = false ∧ r.1.nodeSt.state = .safe ∧
      r.1.nodeSt.safeCause = (if c = 2 then 2 else n.nodeSt.safeCause)) ∧
    (n.nodeSt.state = .init ∨ n.nodeSt.state = .standby ∨ (n.nodeSt.state = .config ∧ c ≠ 2) → r.2 = false ∧ r.1.nodeSt.state = n.nodeSt.state)

/-! Events that nothing commands -/

/-- Events that nothing commands have their own effect, under conditions on the state and the operands alone: the result
mirror and the link (02 R34, R51), the frame's exchanges (11 R248, R249, R251), the fast inputs and the safety outputs
(04 R96, 07 R146, 10 R220, R224, R227 to R233), the claim lines and the partner's heartbeats (12 R277 to R284, 06 R141),
the recorder's stores (15 R352, R353, R355, R360 to R362, R435), and the images (16 R377 to R379, R383). Each clause
names a state in which the event acts and what it leaves there. -/
def Obligations.EventsHaveTheirEffect : Prop :=
  (∀ (t lane rank dest : Nat) (crcOk : Bool) (frame : Nat) (alt : List (Nat × Nat)) (cfg : Endpoint) (m : ExchMsg) (s : State),
    let h := s.atR.resHead
    (s.node.mgt.state = .run → h.period ≠ 0 → s.node.mirror.last ≠ some h.frame →
      Yields (.mirrorBlockWrite t) s (fun u => u.node.mirror.last = some h.frame ∧
        memBytes u.bar2 (h.frame % 1024 * 4096) 8 = bytesLE 8 h.frame)) ∧
    Yields (.pcieLinkLoss t) s (fun u => u.node.mirror.linkUp = false ∧ u.node.regs = s.node.regs) ∧
    Yields (.pcieLinkReturn t cfg) s (fun u => u.node.mirror.linkUp = true ∧ u.node.endpoint.busMaster = cfg.busMaster) ∧
    (lane < 3 → rank < 16 → (rankOf s.node rank).powered = true →
      Yields (.rankTransfer t lane rank crcOk frame) s (fun u => nbit (rankOf u.node rank).got lane = true ∧
        nbit (rankOf u.node rank).good lane = (crcOk && decide (frame = s.node.frame)))) ∧
    (s.node.laneSt.state < 3 → s.node.laneSt.inDone = false →
      Yields (.inputExchange t alt) s (fun u => u.node.laneSt.inDone = true)) ∧
    (dest < 3 → m.lane < 3 → dest ≠ m.lane → s.node.laneSt.state < 3 → (laneOf s.node m.lane).phase = 0 →
      (laneOf s.node m.lane).wdog = false → (laneOf s.node m.lane).held = false → m.good = true → m.frame = s.node.frame →
      Yields (.outputExchange t dest m) s (fun u =>
        (laneOf u.node m.lane).lastMsg = some (max s.node.now t) ∧ (dest, m) ∈ u.node.laneSt.msgs))) ∧
  (∀ (t ch : Nat) (sigHi sigLo : Int) (copies pair copy since : Nat) (s : State),
    let n := atInstant s t
    let at_ := (since / 10000 + sinDt n pair) * 10000
    (watched n ch = true → isDi n ch = true → hasCmp n ch = true →
      Yields (.comparatorCrossing t ch sigHi sigLo copies) s (fun u =>
        (21000 ≤ sigHi → (frontOf u.node ch).hiSet = true) ∧ (sigHi ≤ 12000 → (frontOf u.node ch).hiSet = false))) ∧
    (ch < 512 → chnSel n ch ≠ 0 → ch % 8 = n.frame % 8 → (rankOf n (ch / 32)).powered = true →
      (rankOf n (ch / 32)).ready = true → Yields (.diagSlot t []) s (fun u => (diagOf u.node ch).lastSlot = slotKind n ch)) ∧
    (holdsEnded n = [] → copy < 3 → pair ∈ enabledPairs n → (evalOf n copy pair).disSince = some since →
      (evalOf n copy pair).agreeAt = none → (evalOf n copy pair).discAt < at_ → at_ ≤ n.now →
      Yields (.discrepancyTimeout t pair copy) s (fun u => (evalOf u.node copy pair).discFlt = true)) ∧
    ((copyOf n 0).excluded = false → (copyOf n 1).excluded = false → (copyOf n 2).excluded = false →
      Yields (.fabricTest t) s (fun u => u.node.safety.testCopy = (n.safety.testCopy + 1) % 3))) ∧
  (∀ (t o a b c : Nat) (low : Bool) (s : State), o < 32 →
    let n := atInstant s t
    let x := outputOf n o
    (fabricAdvance n = n →
      (x.phase = .due → Yields (.energisationTest t o) s (fun u => (outputOf u.node o).phase = .testing)) ∧
      (x.phase = .testing → Yields (.energisationTestDone t o 0) s (fun u => (outputOf u.node o).phase = .on) ∧
        Yields (.energisationTestDone t o 3) s (fun u =>
          (outputOf u.node o).phase = .off ∧ (outputOf u.node o).soFlt = true)) ∧
      (∀ d, x.phase = .on → x.pulse = false → tpEn n o = true → x.nextDue = some d → d ≤ n.now → n.launches = [] →
        paired n = false →
        Yields (.testPulse t o) s (fun u => (outputOf u.node o).pulse = true ∧ (outputOf u.node o).hs = x.nextLs)) ∧
      (x.pulse = true → Yields (.testPulseEnd t o 1) s (fun u =>
        (outputOf u.node o).pulse = false ∧ (outputOf u.node o).last = 1)) ∧
      (x.phase = .off → paired n = false → Yields (.soMonitorFault t o low a b c) s (fun u =>
        (outputOf u.node o).soFlt = true ∧ (outputOf u.node o).vplus = min a 4000)) ∧
      (x.phase = .on → x.hs = true → Yields (.soOverload t o c) s (fun u =>
        (outputOf u.node o).phase = .off ∧ (outputOf u.node o).soFlt = true)) ∧
      (∀ d, x.misSince = some d → fbEn n o = true → paired n = false →
        max d x.expectAt + fld (soFb n o) 8 0 * 1000000 ≤ n.now → Yields (.fbTimeout t o) s (fun u => (outputOf u.node o).fbFlt = true))) ∧
    (a < 4 → Yields (.vsLowChange t a b) s (fun u =>
      tget {} u.node.safety.vs a = { volt := min b 4000, low := decide (b < 1600) })) ∧
    Yields (.fbSettle t o low) s (fun u => fbVal u.node o = low)) ∧
  (∀ (t xl delay r : Nat) (l : LineSense) (a b x y : Bool) (h : PeerState) (s : State), paired s.node = true →
    Yields (.outputArbitration t l) s (fun u => u.node.duplex.arbO = some s.node.frame) ∧
    Yields (.timeArbitration t l) s (fun u => u.node.duplex.arbT = some s.node.frame) ∧
    Yields (.presencePulse t a b x y) s (fun u => u.node.duplex.lineA.pres = a ∧ u.node.duplex.lineB.pres = b) ∧
    (s.node.laneSt.voted = true → Yields (.heartbeatSend t) s (fun u =>
      ∃ (e : HbHead) (m : PeerState), .hb (hbBytes e) m ∈ u.node.outs ∧ e.frame = s.node.frame)) ∧
    (xl < 2 → Yields (.heartbeatReceived t xl [] delay h) s (fun u =>
      (xlOf u.node xl).bad = min 65535 ((xlOf s.node xl).bad + 1))) ∧
    (s.node.duplex.checked = none → s.node.sAt + s.node.period ≤ max s.node.now t + 10000 → s.node.duplex.hb = none →
      Yields (.heartbeatMiss t) s (fun u => u.node.duplex.missed = min 65535 (s.node.duplex.missed + 1))) ∧
    (∀ i, s.node.duplex.handover = some i → i + 8 * s.node.period ≤ max s.node.now t →
      Yields (.handoverTimeout t) s (fun u => u.node.duplex.handover = none)) ∧
    (s.node.duplex.drive = .clamp → s.node.duplex.clampAt + 3 * s.node.period ≤ max s.node.now t →
      Yields (.clampTimeout t) s (fun u => u.node.duplex.drive = .off)) ∧
    (s.node.duplex.posB = true → s.node.duplex.hb = none → r < 16 → nbit s.node.duplex.carried r = false →
      nbit (readyRanks s.node) r = true → 16 ≤ tget 0 s.node.duplex.notReady r →
      Yields (.carrierTakeTimeout t r) s (fun u => nbit u.node.duplex.carried r = true))) ∧
  ∀ (t k d : Nat) (a b : Bool) (s : State),
    let r := s.node.rec_
    (r.frozen = none → r.ready = true → r.store = .flash →
      (bytesOf (r.flash ++ r.staging) ≤ r.segs * 1048576 → Yields (.recordCommit t) s (fun u =>
        u.node.rec_.flash = r.flash ++ r.staging ∧ u.node.rec_.staging = [])) ∧
      (r.segs ≤ usedSegs s.node + 2 → Yields (.segmentErase t k) s (fun u => u.node.rec_.erases = r.erases + 1)) ∧
      (k ∈ [1, 2, 4] → Yields (.flashFail t k) s (fun u => u.node.rec_.store = (if r.mramOk then .mram else .none)))) ∧
    (r.frozen = none → r.ready = true → r.overrun.isSome = true → r.staging = [] →
      Yields (.overrunRecord t) s (fun u => u.node.rec_.overrun = none ∧ u.node.rec_.staging.length = 1)) ∧
    (r.mramOk = true → Yields (.mramFail t) s (fun u => u.node.rec_.mramOk = false ∧ u.node.rec_.mram = [])) ∧
    Yields (.blockRetire t k a) s (fun u => u.node.rec_.retired = min 65535 (r.retired + 1)) ∧
    (r.ready = false → Yields (.recorderReady t a b) s (fun u => u.node.rec_.ready = true ∧ u.node.rec_.mramOk = b)) ∧
    (d < 8 → captureFull s.node d = true → Yields (.captureEnd t d) s (fun u => (capOf u.node d).slots = [])) ∧
    Yields (.recRateRead t 0) s (fun u => u.node.rec_.ratePeak = rateNow (atInstant s t)) ∧
    (∀ x, s.node.config.pend = some x → x.confirmed = false → x.until_ ≤ max s.node.now t →
      Yields (.confirmWindowExpire t) s (fun u => u.node.config.pend = none ∧ u.node.staged = [])) ∧
    (s.node.mgt.state = .run → s.node.config.pend = none → s.node.config.half = none → s.node.config.dirty = true →
      Yields (.configFlashWrite t true) s (fun u => u.node.config.dirty = false ∧
        u.node.config.half = some (!firstCopy s.node.config)))
end

