-- ==== Sys2Proof/Laws/Tables.lean ====
section
/-! SUPPORT. Laws of the sparse tables: a read after a write, and the canonical form that every write keeps. -/

namespace Sys2Proof.Machine

variable {α : Type}

/-! Reads after writes -/

theorem lookup_erase_self (t : Tbl α) (k : Nat) : lookup (erase t k) k = none := by
  induction t with
  | nil => rfl
  | cons e r ih => obtain ⟨j, v⟩ := e; by_cases h : j = k <;> simp [erase, lookup, h, ih]

theorem lookup_erase_ne (t : Tbl α) {k j : Nat} (h : j ≠ k) : lookup (erase t k) j = lookup t j := by
  induction t with
  | nil => rfl
  | cons e r ih =>
    obtain ⟨i, v⟩ := e
    by_cases hi : i = k
    · simp [erase, lookup, hi, ih, Ne.symm h]
    · simp [erase, lookup, hi, ih]

theorem lookup_insertKey_self (t : Tbl α) (k : Nat) (v : α) (h : lookup t k = none) :
    lookup (insertKey t k v) k = some v := by
  induction t with
  | nil => simp [insertKey, lookup]
  | cons e r ih =>
    obtain ⟨j, w⟩ := e
    have hj : j ≠ k := by rintro rfl; simp [lookup] at h
    by_cases hk : k < j
    · simp [insertKey, lookup, hk]
    · simp [insertKey, lookup, hk, hj] at h ⊢; exact ih h

theorem lookup_insertKey_ne (t : Tbl α) {k j : Nat} (v : α) (h : j ≠ k) :
    lookup (insertKey t k v) j = lookup t j := by
  induction t with
  | nil => simp [insertKey, lookup, Ne.symm h]
  | cons e r ih =>
    obtain ⟨i, w⟩ := e
    by_cases hk : k < i
    · simp [insertKey, lookup, hk, Ne.symm h]
    · simp [insertKey, lookup, hk, ih]

/-- Keys strictly rising, above a bound. -/
def rising (b : Option Nat) : Tbl α → Prop
  | [] => True
  | (k, _) :: r => (∀ x, b = some x → x < k) ∧ rising (some k) r

theorem rising_weaken {b c : Option Nat} (t : Tbl α) (h : rising b t) (hc : ∀ x, c = some x → ∃ y, b = some y ∧ x ≤ y) :
    rising c t := by
  cases t with
  | nil => trivial
  | cons e r =>
    obtain ⟨k, v⟩ := e
    refine ⟨fun x hx => ?_, h.2⟩
    obtain ⟨y, hy, hxy⟩ := hc x hx
    exact lt_of_le_of_lt hxy (h.1 y hy)

theorem rising_erase {b : Option Nat} (t : Tbl α) (k : Nat) (h : rising b t) : rising b (erase t k) := by
  induction t generalizing b with
  | nil => trivial
  | cons e r ih =>
    obtain ⟨j, v⟩ := e
    by_cases hj : j = k
    · simp only [erase, hj, if_true]
      refine ih (rising_weaken r h.2 ?_)
      intro x hx
      exact ⟨j, rfl, le_of_lt (h.1 x hx)⟩
    · simp only [erase, hj, if_false]
      exact ⟨h.1, ih h.2⟩

theorem rising_insertKey {b : Option Nat} (t : Tbl α) (k : Nat) (v : α) (h : rising b t) (hk : lookup t k = none)
    (hb : ∀ x, b = some x → x < k) : rising b (insertKey t k v) := by
  induction t generalizing b with
  | nil => exact ⟨hb, trivial⟩
  | cons e r ih =>
    obtain ⟨j, w⟩ := e
    have hj : j ≠ k := by rintro rfl; simp [lookup] at hk
    by_cases hlt : k < j
    · simp only [insertKey, hlt, if_true]
      exact ⟨hb, fun x hx => by cases hx; exact hlt, h.2⟩
    · simp only [insertKey, hlt, if_false]
      refine ⟨h.1, ih h.2 ?_ ?_⟩
      · simpa [lookup, hj] using hk
      · intro x hx; cases hx; omega

theorem mem_erase_of {t : Tbl α} {k : Nat} {e : Nat × α} (h : e ∈ erase t k) : e ∈ t := by
  induction t with
  | nil => simp [erase] at h
  | cons x r ih =>
    obtain ⟨j, v⟩ := x
    by_cases hj : j = k
    · simp [erase, hj] at h; exact List.mem_cons_of_mem _ (ih h)
    · simp [erase, hj] at h
      rcases h with rfl | h
      · exact List.mem_cons_self
      · exact List.mem_cons_of_mem _ (ih h)

theorem mem_insertKey_of {t : Tbl α} {k : Nat} {v : α} {e : Nat × α} (h : e ∈ insertKey t k v) : e = (k, v) ∨ e ∈ t := by
  induction t with
  | nil => simpa [insertKey] using h
  | cons x r ih =>
    obtain ⟨j, w⟩ := x
    by_cases hk : k < j
    · simp [insertKey, hk] at h; simpa using h
    · simp [insertKey, hk] at h
      rcases h with rfl | h
      · exact Or.inr List.mem_cons_self
      · rcases ih h with h | h
        · exact Or.inl h
        · exact Or.inr (List.mem_cons_of_mem _ h)

variable [DecidableEq α]

/-- A read of the key just written gives the value written. -/
@[simp] theorem tget_tset_self (d : α) (t : Tbl α) (k : Nat) (v : α) : tget d (tset d t k v) k = v := by
  unfold tget tset
  by_cases h : v = d
  · simp [h, lookup_erase_self]
  · simp [h, lookup_insertKey_self _ _ _ (lookup_erase_self t k)]

/-- A write leaves every other key alone. -/
theorem tget_tset_ne (d : α) (t : Tbl α) {k j : Nat} (v : α) (h : j ≠ k) : tget d (tset d t k v) j = tget d t j := by
  unfold tget tset
  by_cases hv : v = d
  · simp [hv, lookup_erase_ne t h]
  · simp [hv, lookup_insertKey_ne _ v h, lookup_erase_ne t h]

theorem tget_tset (d : α) (t : Tbl α) (k j : Nat) (v : α) :
    tget d (tset d t k v) j = if j = k then v else tget d t j := by
  by_cases h : j = k
  · subst h; simp
  · simp [h, tget_tset_ne d t v h]

@[simp] theorem tget_tmod_self (d : α) (t : Tbl α) (k : Nat) (f : α → α) : tget d (tmod d t k f) k = f (tget d t k) := by
  simp [tmod]

theorem tget_tmod_ne (d : α) (t : Tbl α) {k j : Nat} (f : α → α) (h : j ≠ k) : tget d (tmod d t k f) j = tget d t j :=
  tget_tset_ne d t _ h

theorem tget_tmod (d : α) (t : Tbl α) (k j : Nat) (f : α → α) :
    tget d (tmod d t k f) j = if j = k then f (tget d t j) else tget d t j := by
  by_cases h : j = k
  · subst h; simp
  · simp [h, tget_tmod_ne d t f h]

/-! The canonical form -/

/-- The canonical form, as keys that rise and entries that differ from what an unlisted key reads. -/
theorem twf_iff (d : Nat → α) (t : Tbl α) : twf d t = true ↔ rising none t ∧ ∀ e ∈ t, e.2 ≠ d e.1 := by
  have key : ∀ (b : Option Nat) (t : Tbl α), (∀ x, b = some x → ∀ e ∈ t.head?, x < e.1) →
      (twf d t = true ↔ rising b t ∧ ∀ e ∈ t, e.2 ≠ d e.1) := by
    intro b t
    induction t generalizing b with
    | nil => intro _; simp [twf, rising]
    | cons e r ih =>
      obtain ⟨k, v⟩ := e
      intro hb
      cases r with
      | nil =>
        simp only [twf, rising, decide_eq_true_eq, List.mem_singleton, forall_eq, and_true]
        constructor
        · exact fun h => ⟨fun x hx => hb x hx (k, v) rfl, h⟩
        · exact fun h => h.2
      | cons e' r' =>
        obtain ⟨j, w⟩ := e'
        simp only [twf, Bool.and_eq_true, decide_eq_true_eq]
        constructor
        · rintro ⟨⟨h1, h2⟩, h3⟩
          have := (ih (some k) (by intro x hx e he; cases hx; simp at he; subst he; exact h2)).1 h3
          refine ⟨⟨fun x hx => hb x hx (k, v) rfl, this.1⟩, ?_⟩
          intro e he
          rcases List.mem_cons.1 he with rfl | he
          · exact h1
          · exact this.2 e he
        · rintro ⟨⟨_, h2⟩, h3⟩
          have hkj : k < j := h2.1 k rfl
          refine ⟨⟨h3 (k, v) (List.mem_cons_self), hkj⟩, ?_⟩
          exact (ih (some k) (by intro x hx e he; cases hx; simp at he; subst he; exact hkj)).2
            ⟨h2, fun e he => h3 e (List.mem_cons_of_mem _ he)⟩
  exact key none t (by simp)

/-- A write keeps the canonical form. -/
theorem twf_tset (d : α) (t : Tbl α) (k : Nat) (v : α) (h : twf (fun _ => d) t = true) :
    twf (fun _ => d) (tset d t k v) = true := by
  rw [twf_iff] at h ⊢
  unfold tset
  by_cases hv : v = d
  · simp only [hv, if_true]
    exact ⟨rising_erase t k h.1, fun e he => h.2 e (mem_erase_of he)⟩
  · simp only [hv, if_false]
    refine ⟨rising_insertKey _ k v (rising_erase t k h.1) (lookup_erase_self t k) (by simp), ?_⟩
    intro e he
    rcases mem_insertKey_of he with rfl | he
    · exact hv
    · exact h.2 e (mem_erase_of he)

theorem twf_tmod (d : α) (t : Tbl α) (k : Nat) (f : α → α) (h : twf (fun _ => d) t = true) :
    twf (fun _ => d) (tmod d t k f) = true := twf_tset d t k _ h

end Sys2Proof.Machine
end

