-- ==== Sys2Proof/Laws/Memory.lean ====
section
/-! SUPPORT. Laws of the BAR2 memory: what a byte reads after a block is written, and the canonical form. -/

namespace Sys2Proof.Machine

theorem lookup_append {α : Type} (t u : Tbl α) (k : Nat) : lookup (t ++ u) k = (lookup t k).or (lookup u k) := by
  induction t with
  | nil => simp [lookup]
  | cons e r ih => obtain ⟨j, v⟩ := e; by_cases h : j = k <;> simp [lookup, h, ih]

theorem lookup_filter_keys {α : Type} (t : Tbl α) (p : Nat → Bool) (k : Nat) :
    lookup (t.filter (fun c => p c.1)) k = if p k then lookup t k else none := by
  induction t with
  | nil => simp [lookup]
  | cons e r ih =>
    obtain ⟨j, v⟩ := e
    by_cases hp : p j <;> by_cases hj : j = k
    · subst hj; simp [lookup, hp]
    · simp [lookup, hp, hj, ih]
    · subst hj; simp [hp, ih]
    · simp [lookup, hp, hj, ih]

/-- A byte of the cells of a list: the byte at its place, where it is not 0. -/
theorem lookup_cellsOf (lo : Nat) (bs : List Byte) (a : Nat) :
    (lookup (cellsOf lo bs) a).getD 0 = if lo ≤ a then bs.getD (a - lo) 0 else 0 := by
  induction bs generalizing lo with
  | nil => simp [cellsOf, lookup]
  | cons b r ih =>
    by_cases hb : b = 0
    · simp only [cellsOf, hb, if_true, ih]
      rcases Nat.lt_trichotomy a lo with h | h | h
      · rw [if_neg (by omega), if_neg (by omega)]
      · subst h; rw [if_neg (by omega), if_pos (le_refl _)]; simp
      · rw [if_pos (by omega), if_pos (by omega)]
        obtain ⟨d, rfl⟩ : ∃ d, a = lo + 1 + d := ⟨a - (lo + 1), by omega⟩
        have : lo + 1 + d - lo = d + 1 := by omega
        simp [this]
    · simp only [cellsOf, hb, if_false, lookup]
      rcases Nat.lt_trichotomy a lo with h | h | h
      · rw [if_neg (by omega), if_neg (by omega), ih, if_neg (by omega)]
      · subst h; simp
      · rw [if_neg (by omega), if_pos (by omega), ih, if_pos (by omega)]
        obtain ⟨d, rfl⟩ : ∃ d, a = lo + 1 + d := ⟨a - (lo + 1), by omega⟩
        have : lo + 1 + d - lo = d + 1 := by omega
        simp [this]

theorem lookup_cellsOf_out (lo : Nat) (bs : List Byte) {a : Nat} (h : a < lo ∨ lo + bs.length ≤ a) :
    lookup (cellsOf lo bs) a = none := by
  induction bs generalizing lo with
  | nil => simp [cellsOf, lookup]
  | cons b r ih =>
    have h' : a < lo + 1 ∨ lo + 1 + r.length ≤ a := by simp at h; omega
    have hne : lo ≠ a := by rintro rfl; simp at h
    by_cases hb : b = 0
    · simp [cellsOf, hb, ih (lo + 1) h']
    · have hb' : ¬ b = 0#8 := hb
      simp [cellsOf, hb', lookup, hne, ih (lo + 1) h']

/-- A byte of a range that is replaced is the new byte; every other byte is unchanged. -/
theorem memRead_memReplace (m : List Host.Cell) {lo hi : Nat} (bs : List Byte) (hle : lo ≤ hi) (a : Nat) :
    memRead (memReplace m lo hi bs) a = if lo ≤ a ∧ a < hi then (bs.take (hi - lo)).getD (a - lo) 0 else memRead m a := by
  unfold memRead memReplace tget
  rw [lookup_append, lookup_append, lookup_filter_keys m (fun k => decide (k < lo)) a,
    lookup_filter_keys m (fun k => decide (hi ≤ k)) a]
  have hlen : (bs.take (hi - lo)).length ≤ hi - lo := List.length_take_le _ _
  rcases Nat.lt_or_ge a lo with h | h
  · have h2 : ¬ (lo ≤ a ∧ a < hi) := by omega
    have h3 : ¬ hi ≤ a := by omega
    rw [lookup_cellsOf_out _ _ (Or.inl h), if_neg h2]
    simp [h, h3]
  · have h3 : ¬ a < lo := by omega
    rcases Nat.lt_or_ge a hi with h2 | h2
    · have h4 : ¬ hi ≤ a := by omega
      have key := lookup_cellsOf lo (bs.take (hi - lo)) a
      rw [if_pos h] at key
      have h5 : lo ≤ a ∧ a < hi := ⟨h, h2⟩
      simp only [h3, h4, decide_false, Bool.false_eq_true, if_false, Option.none_or, Option.or_none]
      rw [if_pos h5]
      exact key
    · have h4 : ¬ (lo ≤ a ∧ a < hi) := by omega
      have h5 : lo + (bs.take (hi - lo)).length ≤ a := by omega
      rw [lookup_cellsOf_out _ _ (Or.inr h5), if_neg h4]
      simp [h2, h3]

theorem rising_append {α : Type} {b : Option Nat} (t u : Tbl α) (ht : rising b t) (hu : rising none u)
    (h : ∀ e ∈ t, ∀ f ∈ u, e.1 < f.1) (hb : ∀ x, b = some x → ∀ f ∈ u, x < f.1) : rising b (t ++ u) := by
  induction t generalizing b with
  | nil =>
    cases u with
    | nil => trivial
    | cons e r => exact ⟨fun x hx => hb x hx e List.mem_cons_self, hu.2⟩
  | cons e r ih =>
    obtain ⟨k, v⟩ := e
    refine ⟨ht.1, ih ht.2 (fun e he => h e (List.mem_cons_of_mem _ he)) ?_⟩
    intro x hx f hf
    cases hx
    exact h (k, v) List.mem_cons_self f hf

theorem rising_filter {α : Type} {b : Option Nat} (t : Tbl α) (p : Nat × α → Bool) (h : rising b t) :
    rising b (t.filter p) := by
  induction t generalizing b with
  | nil => trivial
  | cons e r ih =>
    obtain ⟨k, v⟩ := e
    by_cases hp : p (k, v)
    · simp only [List.filter_cons, hp, if_true]
      exact ⟨h.1, ih h.2⟩
    · simp only [List.filter_cons, hp]
      exact ih (rising_weaken r h.2 (fun x hx => ⟨k, rfl, le_of_lt (h.1 x hx)⟩))

theorem rising_cellsOf (lo : Nat) (bs : List Byte) (b : Option Nat) (hb : ∀ x, b = some x → x < lo) :
    rising b (cellsOf lo bs) := by
  induction bs generalizing lo b with
  | nil => trivial
  | cons y r ih =>
    by_cases hy : y = 0
    · simp only [cellsOf, hy, if_true]
      exact ih (lo + 1) b (fun x hx => Nat.lt_succ_of_lt (hb x hx))
    · simp only [cellsOf, hy, if_false]
      exact ⟨hb, ih (lo + 1) (some lo) (fun x hx => by cases hx; omega)⟩

theorem mem_cellsOf {lo : Nat} {bs : List Byte} {e : Host.Cell} (h : e ∈ cellsOf lo bs) :
    lo ≤ e.1 ∧ e.1 < lo + bs.length ∧ e.2 ≠ 0 := by
  induction bs generalizing lo with
  | nil => simp [cellsOf] at h
  | cons y r ih =>
    by_cases hy : y = 0
    · simp only [cellsOf, hy, if_true] at h
      have := ih h
      exact ⟨by omega, by simp; omega, this.2.2⟩
    · simp only [cellsOf, hy, if_false, List.mem_cons] at h
      rcases h with rfl | h
      · exact ⟨le_refl _, by simp, hy⟩
      · have := ih h
        exact ⟨by omega, by simp; omega, this.2.2⟩

/-- A block write keeps the canonical form. -/
theorem memWf_memReplace (m : List Host.Cell) {lo hi : Nat} (bs : List Byte) (hle : lo ≤ hi) (h : memWf m = true) :
    memWf (memReplace m lo hi bs) = true := by
  unfold memWf at h ⊢
  rw [twf_iff] at h ⊢
  unfold memReplace
  have hlen : (bs.take (hi - lo)).length ≤ hi - lo := List.length_take_le _ _
  constructor
  · refine rising_append _ _ (rising_append _ _ (rising_filter m _ h.1) (rising_cellsOf _ _ _ (by simp)) ?_ (by simp))
      (rising_filter m _ h.1) ?_ (by simp)
    · intro e he f hf
      have h1 := (List.mem_filter.1 he).2
      have h2 := mem_cellsOf hf
      simp at h1; omega
    · intro e he f hf
      have h2 := (List.mem_filter.1 hf).2
      rcases List.mem_append.1 he with he | he
      · have h1 := (List.mem_filter.1 he).2
        simp at h1 h2; omega
      · have h1 := mem_cellsOf he
        simp at h2; omega
  · intro e he
    rcases List.mem_append.1 he with he | he
    · rcases List.mem_append.1 he with he | he
      · exact h.2 e (List.mem_filter.1 he).1
      · exact (mem_cellsOf he).2.2
    · exact h.2 e (List.mem_filter.1 he).1

end Sys2Proof.Machine
end

