-- ==== Sys2Proof/Laws/State.lean ====
section
/-! SUPPORT. What each update of the node leaves: one lemma for each field. -/

namespace Sys2Proof.Machine

variable (n : Node)

@[simp] theorem begin_now (t : Nat) : (begin_ n t).now = max n.now t := rfl
@[simp] theorem begin_taiOff (t : Nat) : (begin_ n t).taiOff = n.taiOff := rfl
@[simp] theorem begin_slewFrom (t : Nat) : (begin_ n t).slewFrom = n.slewFrom := rfl
@[simp] theorem begin_slewBy (t : Nat) : (begin_ n t).slewBy = n.slewBy := rfl
@[simp] theorem begin_frame (t : Nat) : (begin_ n t).frame = n.frame := rfl
@[simp] theorem begin_period (t : Nat) : (begin_ n t).period = n.period := rfl
@[simp] theorem begin_sampleT (t : Nat) : (begin_ n t).sampleT = n.sampleT := rfl
@[simp] theorem begin_sAt (t : Nat) : (begin_ n t).sAt = n.sAt := rfl
@[simp] theorem begin_bAt (t : Nat) : (begin_ n t).bAt = n.bAt := rfl
@[simp] theorem begin_regs (t : Nat) : (begin_ n t).regs = n.regs := rfl
@[simp] theorem begin_staged (t : Nat) : (begin_ n t).staged = n.staged := rfl
@[simp] theorem begin_headers (t : Nat) : (begin_ n t).headers = n.headers := rfl
@[simp] theorem begin_seqs (t : Nat) : (begin_ n t).seqs = n.seqs := rfl
@[simp] theorem begin_cmds (t : Nat) : (begin_ n t).cmds = n.cmds := rfl
@[simp] theorem begin_acts (t : Nat) : (begin_ n t).acts = n.acts := rfl
@[simp] theorem begin_vectors (t : Nat) : (begin_ n t).vectors = n.vectors := rfl
@[simp] theorem begin_endpoint (t : Nat) : (begin_ n t).endpoint = n.endpoint := rfl
@[simp] theorem begin_unshown (t : Nat) : (begin_ n t).unshown = n.unshown := rfl
@[simp] theorem begin_unshownStaged (t : Nat) : (begin_ n t).unshownStaged = n.unshownStaged := rfl
@[simp] theorem begin_readHold (t : Nat) : (begin_ n t).readHold = n.readHold := rfl
@[simp] theorem begin_writeHold (t : Nat) : (begin_ n t).writeHold = n.writeHold := rfl
@[simp] theorem begin_mgt (t : Nat) : (begin_ n t).mgt = n.mgt := rfl
@[simp] theorem begin_mirror (t : Nat) : (begin_ n t).mirror = n.mirror := rfl
@[simp] theorem begin_rec_ (t : Nat) : (begin_ n t).rec_ = n.rec_ := rfl
@[simp] theorem begin_tb (t : Nat) : (begin_ n t).tb = n.tb := rfl
@[simp] theorem begin_launches (t : Nat) : (begin_ n t).launches = n.launches := rfl
@[simp] theorem begin_lchLast (t : Nat) : (begin_ n t).lchLast = n.lchLast := rfl
@[simp] theorem begin_ranks (t : Nat) : (begin_ n t).ranks = n.ranks := rfl
@[simp] theorem begin_fronts (t : Nat) : (begin_ n t).fronts = n.fronts := rfl
@[simp] theorem begin_acqs (t : Nat) : (begin_ n t).acqs = n.acqs := rfl
@[simp] theorem begin_diags (t : Nat) : (begin_ n t).diags = n.diags := rfl
@[simp] theorem begin_stages (t : Nat) : (begin_ n t).stages = n.stages := rfl
@[simp] theorem begin_res (t : Nat) : (begin_ n t).res = n.res := rfl
@[simp] theorem begin_resHead (t : Nat) : (begin_ n t).resHead = n.resHead := rfl
@[simp] theorem begin_late (t : Nat) : (begin_ n t).late = n.late := rfl
@[simp] theorem begin_peers (t : Nat) : (begin_ n t).peers = n.peers := rfl
@[simp] theorem begin_peerMsgs (t : Nat) : (begin_ n t).peerMsgs = n.peerMsgs := rfl
@[simp] theorem begin_points (t : Nat) : (begin_ n t).points = n.points := rfl
@[simp] theorem begin_groups (t : Nat) : (begin_ n t).groups = n.groups := rfl
@[simp] theorem begin_remoteFos (t : Nat) : (begin_ n t).remoteFos = n.remoteFos := rfl
@[simp] theorem begin_remoteActs (t : Nat) : (begin_ n t).remoteActs = n.remoteActs := rfl
@[simp] theorem begin_almCnt (t : Nat) : (begin_ n t).almCnt = n.almCnt := rfl
@[simp] theorem begin_call (t : Nat) : (begin_ n t).call = n.call := rfl
@[simp] theorem begin_stations (t : Nat) : (begin_ n t).stations = n.stations := rfl
@[simp] theorem begin_safety (t : Nat) : (begin_ n t).safety = n.safety := rfl
@[simp] theorem begin_lanes (t : Nat) : (begin_ n t).lanes = n.lanes := rfl
@[simp] theorem begin_laneSt (t : Nat) : (begin_ n t).laneSt = n.laneSt := rfl
@[simp] theorem begin_duplex (t : Nat) : (begin_ n t).duplex = n.duplex := rfl
@[simp] theorem begin_cans (t : Nat) : (begin_ n t).cans = n.cans := rfl
@[simp] theorem begin_tsRef (t : Nat) : (begin_ n t).tsRef = n.tsRef := rfl
@[simp] theorem begin_net (t : Nat) : (begin_ n t).net = n.net := rfl
@[simp] theorem begin_config (t : Nat) : (begin_ n t).config = n.config := rfl
@[simp] theorem begin_nodeSt (t : Nat) : (begin_ n t).nodeSt = n.nodeSt := rfl
@[simp] theorem begin_power (t : Nat) : (begin_ n t).power = n.power := rfl
@[simp] theorem begin_dueB (t : Nat) : (begin_ n t).dueB = n.dueB := rfl
@[simp] theorem begin_dueR (t : Nat) : (begin_ n t).dueR = n.dueR := rfl
@[simp] theorem begin_free (t : Nat) : (begin_ n t).free = n.free := rfl
@[simp] theorem begin_outs (t : Nat) : (begin_ n t).outs = [] := rfl

@[simp] theorem emit_now (o : Out) : (emit n o).now = n.now := rfl
@[simp] theorem emit_taiOff (o : Out) : (emit n o).taiOff = n.taiOff := rfl
@[simp] theorem emit_slewFrom (o : Out) : (emit n o).slewFrom = n.slewFrom := rfl
@[simp] theorem emit_slewBy (o : Out) : (emit n o).slewBy = n.slewBy := rfl
@[simp] theorem emit_frame (o : Out) : (emit n o).frame = n.frame := rfl
@[simp] theorem emit_period (o : Out) : (emit n o).period = n.period := rfl
@[simp] theorem emit_sampleT (o : Out) : (emit n o).sampleT = n.sampleT := rfl
@[simp] theorem emit_sAt (o : Out) : (emit n o).sAt = n.sAt := rfl
@[simp] theorem emit_bAt (o : Out) : (emit n o).bAt = n.bAt := rfl
@[simp] theorem emit_regs (o : Out) : (emit n o).regs = n.regs := rfl
@[simp] theorem emit_staged (o : Out) : (emit n o).staged = n.staged := rfl
@[simp] theorem emit_headers (o : Out) : (emit n o).headers = n.headers := rfl
@[simp] theorem emit_seqs (o : Out) : (emit n o).seqs = n.seqs := rfl
@[simp] theorem emit_cmds (o : Out) : (emit n o).cmds = n.cmds := rfl
@[simp] theorem emit_acts (o : Out) : (emit n o).acts = n.acts := rfl
@[simp] theorem emit_vectors (o : Out) : (emit n o).vectors = n.vectors := rfl
@[simp] theorem emit_endpoint (o : Out) : (emit n o).endpoint = n.endpoint := rfl
@[simp] theorem emit_unshown (o : Out) : (emit n o).unshown = n.unshown := rfl
@[simp] theorem emit_unshownStaged (o : Out) : (emit n o).unshownStaged = n.unshownStaged := rfl
@[simp] theorem emit_readHold (o : Out) : (emit n o).readHold = n.readHold := rfl
@[simp] theorem emit_writeHold (o : Out) : (emit n o).writeHold = n.writeHold := rfl
@[simp] theorem emit_mgt (o : Out) : (emit n o).mgt = n.mgt := rfl
@[simp] theorem emit_mirror (o : Out) : (emit n o).mirror = n.mirror := rfl
@[simp] theorem emit_rec_ (o : Out) : (emit n o).rec_ = n.rec_ := rfl
@[simp] theorem emit_tb (o : Out) : (emit n o).tb = n.tb := rfl
@[simp] theorem emit_launches (o : Out) : (emit n o).launches = n.launches := rfl
@[simp] theorem emit_lchLast (o : Out) : (emit n o).lchLast = n.lchLast := rfl
@[simp] theorem emit_ranks (o : Out) : (emit n o).ranks = n.ranks := rfl
@[simp] theorem emit_fronts (o : Out) : (emit n o).fronts = n.fronts := rfl
@[simp] theorem emit_acqs (o : Out) : (emit n o).acqs = n.acqs := rfl
@[simp] theorem emit_diags (o : Out) : (emit n o).diags = n.diags := rfl
@[simp] theorem emit_stages (o : Out) : (emit n o).stages = n.stages := rfl
@[simp] theorem emit_res (o : Out) : (emit n o).res = n.res := rfl
@[simp] theorem emit_resHead (o : Out) : (emit n o).resHead = n.resHead := rfl
@[simp] theorem emit_late (o : Out) : (emit n o).late = n.late := rfl
@[simp] theorem emit_peers (o : Out) : (emit n o).peers = n.peers := rfl
@[simp] theorem emit_peerMsgs (o : Out) : (emit n o).peerMsgs = n.peerMsgs := rfl
@[simp] theorem emit_points (o : Out) : (emit n o).points = n.points := rfl
@[simp] theorem emit_groups (o : Out) : (emit n o).groups = n.groups := rfl
@[simp] theorem emit_remoteFos (o : Out) : (emit n o).remoteFos = n.remoteFos := rfl
@[simp] theorem emit_remoteActs (o : Out) : (emit n o).remoteActs = n.remoteActs := rfl
@[simp] theorem emit_almCnt (o : Out) : (emit n o).almCnt = n.almCnt := rfl
@[simp] theorem emit_call (o : Out) : (emit n o).call = n.call := rfl
@[simp] theorem emit_stations (o : Out) : (emit n o).stations = n.stations := rfl
@[simp] theorem emit_safety (o : Out) : (emit n o).safety = n.safety := rfl
@[simp] theorem emit_lanes (o : Out) : (emit n o).lanes = n.lanes := rfl
@[simp] theorem emit_laneSt (o : Out) : (emit n o).laneSt = n.laneSt := rfl
@[simp] theorem emit_duplex (o : Out) : (emit n o).duplex = n.duplex := rfl
@[simp] theorem emit_cans (o : Out) : (emit n o).cans = n.cans := rfl
@[simp] theorem emit_tsRef (o : Out) : (emit n o).tsRef = n.tsRef := rfl
@[simp] theorem emit_net (o : Out) : (emit n o).net = n.net := rfl
@[simp] theorem emit_config (o : Out) : (emit n o).config = n.config := rfl
@[simp] theorem emit_nodeSt (o : Out) : (emit n o).nodeSt = n.nodeSt := rfl
@[simp] theorem emit_power (o : Out) : (emit n o).power = n.power := rfl
@[simp] theorem emit_dueB (o : Out) : (emit n o).dueB = n.dueB := rfl
@[simp] theorem emit_dueR (o : Out) : (emit n o).dueR = n.dueR := rfl
@[simp] theorem emit_free (o : Out) : (emit n o).free = n.free := rfl
@[simp] theorem emit_outs (o : Out) : (emit n o).outs = n.outs ++ [o] := rfl

@[simp] theorem settleWith_now (vs : List Nat) : (settleWith vs n).now = n.now := rfl
@[simp] theorem settleWith_taiOff (vs : List Nat) : (settleWith vs n).taiOff = n.taiOff := rfl
@[simp] theorem settleWith_slewFrom (vs : List Nat) : (settleWith vs n).slewFrom = n.slewFrom := rfl
@[simp] theorem settleWith_slewBy (vs : List Nat) : (settleWith vs n).slewBy = n.slewBy := rfl
@[simp] theorem settleWith_frame (vs : List Nat) : (settleWith vs n).frame = n.frame := rfl
@[simp] theorem settleWith_period (vs : List Nat) : (settleWith vs n).period = n.period := rfl
@[simp] theorem settleWith_sampleT (vs : List Nat) : (settleWith vs n).sampleT = n.sampleT := rfl
@[simp] theorem settleWith_sAt (vs : List Nat) : (settleWith vs n).sAt = n.sAt := rfl
@[simp] theorem settleWith_bAt (vs : List Nat) : (settleWith vs n).bAt = n.bAt := rfl
@[simp] theorem settleWith_regs (vs : List Nat) : (settleWith vs n).regs = n.regs := rfl
@[simp] theorem settleWith_staged (vs : List Nat) : (settleWith vs n).staged = n.staged := rfl
@[simp] theorem settleWith_headers (vs : List Nat) : (settleWith vs n).headers = n.headers := rfl
@[simp] theorem settleWith_seqs (vs : List Nat) : (settleWith vs n).seqs = n.seqs := rfl
@[simp] theorem settleWith_cmds (vs : List Nat) : (settleWith vs n).cmds = n.cmds := rfl
@[simp] theorem settleWith_acts (vs : List Nat) : (settleWith vs n).acts = n.acts := rfl
@[simp] theorem settleWith_endpoint (vs : List Nat) : (settleWith vs n).endpoint = n.endpoint := rfl
@[simp] theorem settleWith_unshown (vs : List Nat) : (settleWith vs n).unshown = n.unshown := rfl
@[simp] theorem settleWith_unshownStaged (vs : List Nat) : (settleWith vs n).unshownStaged = n.unshownStaged := rfl
@[simp] theorem settleWith_readHold (vs : List Nat) : (settleWith vs n).readHold = n.readHold := rfl
@[simp] theorem settleWith_writeHold (vs : List Nat) : (settleWith vs n).writeHold = n.writeHold := rfl
@[simp] theorem settleWith_mgt (vs : List Nat) : (settleWith vs n).mgt = n.mgt := rfl
@[simp] theorem settleWith_mirror (vs : List Nat) : (settleWith vs n).mirror = n.mirror := rfl
@[simp] theorem settleWith_rec_ (vs : List Nat) : (settleWith vs n).rec_ = n.rec_ := rfl
@[simp] theorem settleWith_tb (vs : List Nat) : (settleWith vs n).tb = n.tb := rfl
@[simp] theorem settleWith_launches (vs : List Nat) : (settleWith vs n).launches = n.launches := rfl
@[simp] theorem settleWith_lchLast (vs : List Nat) : (settleWith vs n).lchLast = n.lchLast := rfl
@[simp] theorem settleWith_ranks (vs : List Nat) : (settleWith vs n).ranks = n.ranks := rfl
@[simp] theorem settleWith_fronts (vs : List Nat) : (settleWith vs n).fronts = n.fronts := rfl
@[simp] theorem settleWith_acqs (vs : List Nat) : (settleWith vs n).acqs = n.acqs := rfl
@[simp] theorem settleWith_diags (vs : List Nat) : (settleWith vs n).diags = n.diags := rfl
@[simp] theorem settleWith_stages (vs : List Nat) : (settleWith vs n).stages = n.stages := rfl
@[simp] theorem settleWith_res (vs : List Nat) : (settleWith vs n).res = n.res := rfl
@[simp] theorem settleWith_resHead (vs : List Nat) : (settleWith vs n).resHead = n.resHead := rfl
@[simp] theorem settleWith_late (vs : List Nat) : (settleWith vs n).late = n.late := rfl
@[simp] theorem settleWith_peers (vs : List Nat) : (settleWith vs n).peers = n.peers := rfl
@[simp] theorem settleWith_peerMsgs (vs : List Nat) : (settleWith vs n).peerMsgs = n.peerMsgs := rfl
@[simp] theorem settleWith_points (vs : List Nat) : (settleWith vs n).points = n.points := rfl
@[simp] theorem settleWith_groups (vs : List Nat) : (settleWith vs n).groups = n.groups := rfl
@[simp] theorem settleWith_remoteFos (vs : List Nat) : (settleWith vs n).remoteFos = n.remoteFos := rfl
@[simp] theorem settleWith_remoteActs (vs : List Nat) : (settleWith vs n).remoteActs = n.remoteActs := rfl
@[simp] theorem settleWith_almCnt (vs : List Nat) : (settleWith vs n).almCnt = n.almCnt := rfl
@[simp] theorem settleWith_call (vs : List Nat) : (settleWith vs n).call = n.call := rfl
@[simp] theorem settleWith_stations (vs : List Nat) : (settleWith vs n).stations = n.stations := rfl
@[simp] theorem settleWith_safety (vs : List Nat) : (settleWith vs n).safety = n.safety := rfl
@[simp] theorem settleWith_lanes (vs : List Nat) : (settleWith vs n).lanes = n.lanes := rfl
@[simp] theorem settleWith_laneSt (vs : List Nat) : (settleWith vs n).laneSt = n.laneSt := rfl
@[simp] theorem settleWith_duplex (vs : List Nat) : (settleWith vs n).duplex = n.duplex := rfl
@[simp] theorem settleWith_cans (vs : List Nat) : (settleWith vs n).cans = n.cans := rfl
@[simp] theorem settleWith_tsRef (vs : List Nat) : (settleWith vs n).tsRef = n.tsRef := rfl
@[simp] theorem settleWith_net (vs : List Nat) : (settleWith vs n).net = n.net := rfl
@[simp] theorem settleWith_config (vs : List Nat) : (settleWith vs n).config = n.config := rfl
@[simp] theorem settleWith_nodeSt (vs : List Nat) : (settleWith vs n).nodeSt = n.nodeSt := rfl
@[simp] theorem settleWith_power (vs : List Nat) : (settleWith vs n).power = n.power := rfl
@[simp] theorem settleWith_dueB (vs : List Nat) : (settleWith vs n).dueB = n.dueB := rfl
@[simp] theorem settleWith_dueR (vs : List Nat) : (settleWith vs n).dueR = n.dueR := rfl
@[simp] theorem settleWith_free (vs : List Nat) : (settleWith vs n).free = n.free := rfl

@[simp] theorem settle_now : (settle n).now = n.now := rfl
@[simp] theorem settle_taiOff : (settle n).taiOff = n.taiOff := rfl
@[simp] theorem settle_slewFrom : (settle n).slewFrom = n.slewFrom := rfl
@[simp] theorem settle_slewBy : (settle n).slewBy = n.slewBy := rfl
@[simp] theorem settle_frame : (settle n).frame = n.frame := rfl
@[simp] theorem settle_period : (settle n).period = n.period := rfl
@[simp] theorem settle_sampleT : (settle n).sampleT = n.sampleT := rfl
@[simp] theorem settle_sAt : (settle n).sAt = n.sAt := rfl
@[simp] theorem settle_bAt : (settle n).bAt = n.bAt := rfl
@[simp] theorem settle_regs : (settle n).regs = n.regs := rfl
@[simp] theorem settle_staged : (settle n).staged = n.staged := rfl
@[simp] theorem settle_headers : (settle n).headers = n.headers := rfl
@[simp] theorem settle_seqs : (settle n).seqs = n.seqs := rfl
@[simp] theorem settle_cmds : (settle n).cmds = n.cmds := rfl
@[simp] theorem settle_acts : (settle n).acts = n.acts := rfl
@[simp] theorem settle_endpoint : (settle n).endpoint = n.endpoint := rfl
@[simp] theorem settle_unshown : (settle n).unshown = n.unshown := rfl
@[simp] theorem settle_unshownStaged : (settle n).unshownStaged = n.unshownStaged := rfl
@[simp] theorem settle_readHold : (settle n).readHold = n.readHold := rfl
@[simp] theorem settle_writeHold : (settle n).writeHold = n.writeHold := rfl
@[simp] theorem settle_mgt : (settle n).mgt = n.mgt := rfl
@[simp] theorem settle_mirror : (settle n).mirror = n.mirror := rfl
@[simp] theorem settle_rec_ : (settle n).rec_ = n.rec_ := rfl
@[simp] theorem settle_tb : (settle n).tb = n.tb := rfl
@[simp] theorem settle_launches : (settle n).launches = n.launches := rfl
@[simp] theorem settle_lchLast : (settle n).lchLast = n.lchLast := rfl
@[simp] theorem settle_ranks : (settle n).ranks = n.ranks := rfl
@[simp] theorem settle_fronts : (settle n).fronts = n.fronts := rfl
@[simp] theorem settle_acqs : (settle n).acqs = n.acqs := rfl
@[simp] theorem settle_diags : (settle n).diags = n.diags := rfl
@[simp] theorem settle_stages : (settle n).stages = n.stages := rfl
@[simp] theorem settle_res : (settle n).res = n.res := rfl
@[simp] theorem settle_resHead : (settle n).resHead = n.resHead := rfl
@[simp] theorem settle_late : (settle n).late = n.late := rfl
@[simp] theorem settle_peers : (settle n).peers = n.peers := rfl
@[simp] theorem settle_peerMsgs : (settle n).peerMsgs = n.peerMsgs := rfl
@[simp] theorem settle_points : (settle n).points = n.points := rfl
@[simp] theorem settle_groups : (settle n).groups = n.groups := rfl
@[simp] theorem settle_remoteFos : (settle n).remoteFos = n.remoteFos := rfl
@[simp] theorem settle_remoteActs : (settle n).remoteActs = n.remoteActs := rfl
@[simp] theorem settle_almCnt : (settle n).almCnt = n.almCnt := rfl
@[simp] theorem settle_call : (settle n).call = n.call := rfl
@[simp] theorem settle_stations : (settle n).stations = n.stations := rfl
@[simp] theorem settle_safety : (settle n).safety = n.safety := rfl
@[simp] theorem settle_lanes : (settle n).lanes = n.lanes := rfl
@[simp] theorem settle_laneSt : (settle n).laneSt = n.laneSt := rfl
@[simp] theorem settle_duplex : (settle n).duplex = n.duplex := rfl
@[simp] theorem settle_cans : (settle n).cans = n.cans := rfl
@[simp] theorem settle_tsRef : (settle n).tsRef = n.tsRef := rfl
@[simp] theorem settle_net : (settle n).net = n.net := rfl
@[simp] theorem settle_config : (settle n).config = n.config := rfl
@[simp] theorem settle_nodeSt : (settle n).nodeSt = n.nodeSt := rfl
@[simp] theorem settle_power : (settle n).power = n.power := rfl
@[simp] theorem settle_dueB : (settle n).dueB = n.dueB := rfl
@[simp] theorem settle_dueR : (settle n).dueR = n.dueR := rfl
@[simp] theorem settle_free : (settle n).free = n.free := rfl

@[simp] theorem drawn_now : (drawn n).now = n.now := rfl
@[simp] theorem drawn_taiOff : (drawn n).taiOff = n.taiOff := rfl
@[simp] theorem drawn_slewFrom : (drawn n).slewFrom = n.slewFrom := rfl
@[simp] theorem drawn_slewBy : (drawn n).slewBy = n.slewBy := rfl
@[simp] theorem drawn_frame : (drawn n).frame = n.frame := rfl
@[simp] theorem drawn_period : (drawn n).period = n.period := rfl
@[simp] theorem drawn_sampleT : (drawn n).sampleT = n.sampleT := rfl
@[simp] theorem drawn_sAt : (drawn n).sAt = n.sAt := rfl
@[simp] theorem drawn_bAt : (drawn n).bAt = n.bAt := rfl
@[simp] theorem drawn_regs : (drawn n).regs = n.regs := rfl
@[simp] theorem drawn_staged : (drawn n).staged = n.staged := rfl
@[simp] theorem drawn_headers : (drawn n).headers = n.headers := rfl
@[simp] theorem drawn_seqs : (drawn n).seqs = n.seqs := rfl
@[simp] theorem drawn_cmds : (drawn n).cmds = n.cmds := rfl
@[simp] theorem drawn_acts : (drawn n).acts = n.acts := rfl
@[simp] theorem drawn_vectors : (drawn n).vectors = n.vectors := rfl
@[simp] theorem drawn_endpoint : (drawn n).endpoint = n.endpoint := rfl
@[simp] theorem drawn_unshown : (drawn n).unshown = n.unshown := rfl
@[simp] theorem drawn_unshownStaged : (drawn n).unshownStaged = n.unshownStaged := rfl
@[simp] theorem drawn_readHold : (drawn n).readHold = n.readHold := rfl
@[simp] theorem drawn_writeHold : (drawn n).writeHold = n.writeHold := rfl
@[simp] theorem drawn_mgt : (drawn n).mgt = n.mgt := rfl
@[simp] theorem drawn_mirror : (drawn n).mirror = n.mirror := rfl
@[simp] theorem drawn_rec_ : (drawn n).rec_ = n.rec_ := rfl
@[simp] theorem drawn_tb : (drawn n).tb = n.tb := rfl
@[simp] theorem drawn_launches : (drawn n).launches = n.launches := rfl
@[simp] theorem drawn_lchLast : (drawn n).lchLast = n.lchLast := rfl
@[simp] theorem drawn_ranks : (drawn n).ranks = n.ranks := rfl
@[simp] theorem drawn_fronts : (drawn n).fronts = n.fronts := rfl
@[simp] theorem drawn_acqs : (drawn n).acqs = n.acqs := rfl
@[simp] theorem drawn_diags : (drawn n).diags = n.diags := rfl
@[simp] theorem drawn_stages : (drawn n).stages = n.stages := rfl
@[simp] theorem drawn_res : (drawn n).res = n.res := rfl
@[simp] theorem drawn_resHead : (drawn n).resHead = n.resHead := rfl
@[simp] theorem drawn_late : (drawn n).late = n.late := rfl
@[simp] theorem drawn_peers : (drawn n).peers = n.peers := rfl
@[simp] theorem drawn_peerMsgs : (drawn n).peerMsgs = n.peerMsgs := rfl
@[simp] theorem drawn_points : (drawn n).points = n.points := rfl
@[simp] theorem drawn_groups : (drawn n).groups = n.groups := rfl
@[simp] theorem drawn_remoteFos : (drawn n).remoteFos = n.remoteFos := rfl
@[simp] theorem drawn_remoteActs : (drawn n).remoteActs = n.remoteActs := rfl
@[simp] theorem drawn_almCnt : (drawn n).almCnt = n.almCnt := rfl
@[simp] theorem drawn_call : (drawn n).call = n.call := rfl
@[simp] theorem drawn_stations : (drawn n).stations = n.stations := rfl
@[simp] theorem drawn_safety : (drawn n).safety = n.safety := rfl
@[simp] theorem drawn_lanes : (drawn n).lanes = n.lanes := rfl
@[simp] theorem drawn_laneSt : (drawn n).laneSt = n.laneSt := rfl
@[simp] theorem drawn_duplex : (drawn n).duplex = n.duplex := rfl
@[simp] theorem drawn_cans : (drawn n).cans = n.cans := rfl
@[simp] theorem drawn_tsRef : (drawn n).tsRef = n.tsRef := rfl
@[simp] theorem drawn_net : (drawn n).net = n.net := rfl
@[simp] theorem drawn_config : (drawn n).config = n.config := rfl
@[simp] theorem drawn_nodeSt : (drawn n).nodeSt = n.nodeSt := rfl
@[simp] theorem drawn_power : (drawn n).power = n.power := rfl
@[simp] theorem drawn_dueB : (drawn n).dueB = n.dueB := rfl
@[simp] theorem drawn_dueR : (drawn n).dueR = n.dueR := rfl
@[simp] theorem drawn_free : (drawn n).free = n.free + 1 := rfl
@[simp] theorem drawn_outs : (drawn n).outs = n.outs := rfl

@[simp] theorem raise_now (p b : Nat) : (raise n p b).now = n.now := rfl
@[simp] theorem raise_taiOff (p b : Nat) : (raise n p b).taiOff = n.taiOff := rfl
@[simp] theorem raise_slewFrom (p b : Nat) : (raise n p b).slewFrom = n.slewFrom := rfl
@[simp] theorem raise_slewBy (p b : Nat) : (raise n p b).slewBy = n.slewBy := rfl
@[simp] theorem raise_frame (p b : Nat) : (raise n p b).frame = n.frame := rfl
@[simp] theorem raise_period (p b : Nat) : (raise n p b).period = n.period := rfl
@[simp] theorem raise_sampleT (p b : Nat) : (raise n p b).sampleT = n.sampleT := rfl
@[simp] theorem raise_sAt (p b : Nat) : (raise n p b).sAt = n.sAt := rfl
@[simp] theorem raise_bAt (p b : Nat) : (raise n p b).bAt = n.bAt := rfl
@[simp] theorem raise_regs (p b : Nat) : (raise n p b).regs = n.regs := rfl
@[simp] theorem raise_staged (p b : Nat) : (raise n p b).staged = n.staged := rfl
@[simp] theorem raise_headers (p b : Nat) : (raise n p b).headers = tmod {} n.headers p (irqHeader b) := rfl
@[simp] theorem raise_seqs (p b : Nat) : (raise n p b).seqs = n.seqs := rfl
@[simp] theorem raise_cmds (p b : Nat) : (raise n p b).cmds = n.cmds := rfl
@[simp] theorem raise_acts (p b : Nat) : (raise n p b).acts = n.acts := rfl
@[simp] theorem raise_vectors (p b : Nat) : (raise n p b).vectors = n.vectors := rfl
@[simp] theorem raise_endpoint (p b : Nat) : (raise n p b).endpoint = n.endpoint := rfl
@[simp] theorem raise_unshown (p b : Nat) : (raise n p b).unshown = n.unshown := rfl
@[simp] theorem raise_unshownStaged (p b : Nat) : (raise n p b).unshownStaged = n.unshownStaged := rfl
@[simp] theorem raise_readHold (p b : Nat) : (raise n p b).readHold = n.readHold := rfl
@[simp] theorem raise_writeHold (p b : Nat) : (raise n p b).writeHold = n.writeHold := rfl
@[simp] theorem raise_mgt (p b : Nat) : (raise n p b).mgt = n.mgt := rfl
@[simp] theorem raise_mirror (p b : Nat) : (raise n p b).mirror = n.mirror := rfl
@[simp] theorem raise_rec_ (p b : Nat) : (raise n p b).rec_ = n.rec_ := rfl
@[simp] theorem raise_tb (p b : Nat) : (raise n p b).tb = n.tb := rfl
@[simp] theorem raise_launches (p b : Nat) : (raise n p b).launches = n.launches := rfl
@[simp] theorem raise_lchLast (p b : Nat) : (raise n p b).lchLast = n.lchLast := rfl
@[simp] theorem raise_ranks (p b : Nat) : (raise n p b).ranks = n.ranks := rfl
@[simp] theorem raise_fronts (p b : Nat) : (raise n p b).fronts = n.fronts := rfl
@[simp] theorem raise_acqs (p b : Nat) : (raise n p b).acqs = n.acqs := rfl
@[simp] theorem raise_diags (p b : Nat) : (raise n p b).diags = n.diags := rfl
@[simp] theorem raise_stages (p b : Nat) : (raise n p b).stages = n.stages := rfl
@[simp] theorem raise_res (p b : Nat) : (raise n p b).res = n.res := rfl
@[simp] theorem raise_resHead (p b : Nat) : (raise n p b).resHead = n.resHead := rfl
@[simp] theorem raise_late (p b : Nat) : (raise n p b).late = n.late := rfl
@[simp] theorem raise_peers (p b : Nat) : (raise n p b).peers = n.peers := rfl
@[simp] theorem raise_peerMsgs (p b : Nat) : (raise n p b).peerMsgs = n.peerMsgs := rfl
@[simp] theorem raise_points (p b : Nat) : (raise n p b).points = n.points := rfl
@[simp] theorem raise_groups (p b : Nat) : (raise n p b).groups = n.groups := rfl
@[simp] theorem raise_remoteFos (p b : Nat) : (raise n p b).remoteFos = n.remoteFos := rfl
@[simp] theorem raise_remoteActs (p b : Nat) : (raise n p b).remoteActs = n.remoteActs := rfl
@[simp] theorem raise_almCnt (p b : Nat) : (raise n p b).almCnt = n.almCnt := rfl
@[simp] theorem raise_call (p b : Nat) : (raise n p b).call = n.call := rfl
@[simp] theorem raise_stations (p b : Nat) : (raise n p b).stations = n.stations := rfl
@[simp] theorem raise_safety (p b : Nat) : (raise n p b).safety = n.safety := rfl
@[simp] theorem raise_lanes (p b : Nat) : (raise n p b).lanes = n.lanes := rfl
@[simp] theorem raise_laneSt (p b : Nat) : (raise n p b).laneSt = n.laneSt := rfl
@[simp] theorem raise_duplex (p b : Nat) : (raise n p b).duplex = n.duplex := rfl
@[simp] theorem raise_cans (p b : Nat) : (raise n p b).cans = n.cans := rfl
@[simp] theorem raise_tsRef (p b : Nat) : (raise n p b).tsRef = n.tsRef := rfl
@[simp] theorem raise_net (p b : Nat) : (raise n p b).net = n.net := rfl
@[simp] theorem raise_config (p b : Nat) : (raise n p b).config = n.config := rfl
@[simp] theorem raise_nodeSt (p b : Nat) : (raise n p b).nodeSt = n.nodeSt := rfl
@[simp] theorem raise_power (p b : Nat) : (raise n p b).power = n.power := rfl
@[simp] theorem raise_dueB (p b : Nat) : (raise n p b).dueB = n.dueB := rfl
@[simp] theorem raise_dueR (p b : Nat) : (raise n p b).dueR = n.dueR := rfl
@[simp] theorem raise_free (p b : Nat) : (raise n p b).free = n.free := rfl
@[simp] theorem raise_outs (p b : Nat) : (raise n p b).outs = n.outs := rfl

@[simp] theorem raiseB_now (p b : Nat) : (raiseB n p b).now = n.now := rfl
@[simp] theorem raiseB_taiOff (p b : Nat) : (raiseB n p b).taiOff = n.taiOff := rfl
@[simp] theorem raiseB_slewFrom (p b : Nat) : (raiseB n p b).slewFrom = n.slewFrom := rfl
@[simp] theorem raiseB_slewBy (p b : Nat) : (raiseB n p b).slewBy = n.slewBy := rfl
@[simp] theorem raiseB_frame (p b : Nat) : (raiseB n p b).frame = n.frame := rfl
@[simp] theorem raiseB_period (p b : Nat) : (raiseB n p b).period = n.period := rfl
@[simp] theorem raiseB_sampleT (p b : Nat) : (raiseB n p b).sampleT = n.sampleT := rfl
@[simp] theorem raiseB_sAt (p b : Nat) : (raiseB n p b).sAt = n.sAt := rfl
@[simp] theorem raiseB_bAt (p b : Nat) : (raiseB n p b).bAt = n.bAt := rfl
@[simp] theorem raiseB_regs (p b : Nat) : (raiseB n p b).regs = n.regs := rfl
@[simp] theorem raiseB_staged (p b : Nat) : (raiseB n p b).staged = n.staged := rfl
@[simp] theorem raiseB_headers (p b : Nat) : (raiseB n p b).headers = n.headers := rfl
@[simp] theorem raiseB_seqs (p b : Nat) : (raiseB n p b).seqs = n.seqs := rfl
@[simp] theorem raiseB_cmds (p b : Nat) : (raiseB n p b).cmds = n.cmds := rfl
@[simp] theorem raiseB_acts (p b : Nat) : (raiseB n p b).acts = n.acts := rfl
@[simp] theorem raiseB_vectors (p b : Nat) : (raiseB n p b).vectors = n.vectors := rfl
@[simp] theorem raiseB_endpoint (p b : Nat) : (raiseB n p b).endpoint = n.endpoint := rfl
@[simp] theorem raiseB_unshown (p b : Nat) : (raiseB n p b).unshown = n.unshown := rfl
@[simp] theorem raiseB_unshownStaged (p b : Nat) : (raiseB n p b).unshownStaged = n.unshownStaged := rfl
@[simp] theorem raiseB_readHold (p b : Nat) : (raiseB n p b).readHold = n.readHold := rfl
@[simp] theorem raiseB_writeHold (p b : Nat) : (raiseB n p b).writeHold = n.writeHold := rfl
@[simp] theorem raiseB_mgt (p b : Nat) : (raiseB n p b).mgt = n.mgt := rfl
@[simp] theorem raiseB_mirror (p b : Nat) : (raiseB n p b).mirror = n.mirror := rfl
@[simp] theorem raiseB_rec_ (p b : Nat) : (raiseB n p b).rec_ = n.rec_ := rfl
@[simp] theorem raiseB_tb (p b : Nat) : (raiseB n p b).tb = n.tb := rfl
@[simp] theorem raiseB_launches (p b : Nat) : (raiseB n p b).launches = n.launches := rfl
@[simp] theorem raiseB_lchLast (p b : Nat) : (raiseB n p b).lchLast = n.lchLast := rfl
@[simp] theorem raiseB_ranks (p b : Nat) : (raiseB n p b).ranks = n.ranks := rfl
@[simp] theorem raiseB_fronts (p b : Nat) : (raiseB n p b).fronts = n.fronts := rfl
@[simp] theorem raiseB_acqs (p b : Nat) : (raiseB n p b).acqs = n.acqs := rfl
@[simp] theorem raiseB_diags (p b : Nat) : (raiseB n p b).diags = n.diags := rfl
@[simp] theorem raiseB_stages (p b : Nat) : (raiseB n p b).stages = n.stages := rfl
@[simp] theorem raiseB_res (p b : Nat) : (raiseB n p b).res = n.res := rfl
@[simp] theorem raiseB_resHead (p b : Nat) : (raiseB n p b).resHead = n.resHead := rfl
@[simp] theorem raiseB_late (p b : Nat) : (raiseB n p b).late = n.late := rfl
@[simp] theorem raiseB_peers (p b : Nat) : (raiseB n p b).peers = n.peers := rfl
@[simp] theorem raiseB_peerMsgs (p b : Nat) : (raiseB n p b).peerMsgs = n.peerMsgs := rfl
@[simp] theorem raiseB_points (p b : Nat) : (raiseB n p b).points = n.points := rfl
@[simp] theorem raiseB_groups (p b : Nat) : (raiseB n p b).groups = n.groups := rfl
@[simp] theorem raiseB_remoteFos (p b : Nat) : (raiseB n p b).remoteFos = n.remoteFos := rfl
@[simp] theorem raiseB_remoteActs (p b : Nat) : (raiseB n p b).remoteActs = n.remoteActs := rfl
@[simp] theorem raiseB_almCnt (p b : Nat) : (raiseB n p b).almCnt = n.almCnt := rfl
@[simp] theorem raiseB_call (p b : Nat) : (raiseB n p b).call = n.call := rfl
@[simp] theorem raiseB_stations (p b : Nat) : (raiseB n p b).stations = n.stations := rfl
@[simp] theorem raiseB_safety (p b : Nat) : (raiseB n p b).safety = n.safety := rfl
@[simp] theorem raiseB_lanes (p b : Nat) : (raiseB n p b).lanes = n.lanes := rfl
@[simp] theorem raiseB_laneSt (p b : Nat) : (raiseB n p b).laneSt = n.laneSt := rfl
@[simp] theorem raiseB_duplex (p b : Nat) : (raiseB n p b).duplex = n.duplex := rfl
@[simp] theorem raiseB_cans (p b : Nat) : (raiseB n p b).cans = n.cans := rfl
@[simp] theorem raiseB_tsRef (p b : Nat) : (raiseB n p b).tsRef = n.tsRef := rfl
@[simp] theorem raiseB_net (p b : Nat) : (raiseB n p b).net = n.net := rfl
@[simp] theorem raiseB_config (p b : Nat) : (raiseB n p b).config = n.config := rfl
@[simp] theorem raiseB_nodeSt (p b : Nat) : (raiseB n p b).nodeSt = n.nodeSt := rfl
@[simp] theorem raiseB_power (p b : Nat) : (raiseB n p b).power = n.power := rfl
@[simp] theorem raiseB_dueB (p b : Nat) : (raiseB n p b).dueB = n.dueB ++ [(p, b)] := rfl
@[simp] theorem raiseB_dueR (p b : Nat) : (raiseB n p b).dueR = n.dueR := rfl
@[simp] theorem raiseB_free (p b : Nat) : (raiseB n p b).free = n.free := rfl
@[simp] theorem raiseB_outs (p b : Nat) : (raiseB n p b).outs = n.outs := rfl

@[simp] theorem raiseR_now (p b : Nat) : (raiseR n p b).now = n.now := rfl
@[simp] theorem raiseR_taiOff (p b : Nat) : (raiseR n p b).taiOff = n.taiOff := rfl
@[simp] theorem raiseR_slewFrom (p b : Nat) : (raiseR n p b).slewFrom = n.slewFrom := rfl
@[simp] theorem raiseR_slewBy (p b : Nat) : (raiseR n p b).slewBy = n.slewBy := rfl
@[simp] theorem raiseR_frame (p b : Nat) : (raiseR n p b).frame = n.frame := rfl
@[simp] theorem raiseR_period (p b : Nat) : (raiseR n p b).period = n.period := rfl
@[simp] theorem raiseR_sampleT (p b : Nat) : (raiseR n p b).sampleT = n.sampleT := rfl
@[simp] theorem raiseR_sAt (p b : Nat) : (raiseR n p b).sAt = n.sAt := rfl
@[simp] theorem raiseR_bAt (p b : Nat) : (raiseR n p b).bAt = n.bAt := rfl
@[simp] theorem raiseR_regs (p b : Nat) : (raiseR n p b).regs = n.regs := rfl
@[simp] theorem raiseR_staged (p b : Nat) : (raiseR n p b).staged = n.staged := rfl
@[simp] theorem raiseR_headers (p b : Nat) : (raiseR n p b).headers = n.headers := rfl
@[simp] theorem raiseR_seqs (p b : Nat) : (raiseR n p b).seqs = n.seqs := rfl
@[simp] theorem raiseR_cmds (p b : Nat) : (raiseR n p b).cmds = n.cmds := rfl
@[simp] theorem raiseR_acts (p b : Nat) : (raiseR n p b).acts = n.acts := rfl
@[simp] theorem raiseR_vectors (p b : Nat) : (raiseR n p b).vectors = n.vectors := rfl
@[simp] theorem raiseR_endpoint (p b : Nat) : (raiseR n p b).endpoint = n.endpoint := rfl
@[simp] theorem raiseR_unshown (p b : Nat) : (raiseR n p b).unshown = n.unshown := rfl
@[simp] theorem raiseR_unshownStaged (p b : Nat) : (raiseR n p b).unshownStaged = n.unshownStaged := rfl
@[simp] theorem raiseR_readHold (p b : Nat) : (raiseR n p b).readHold = n.readHold := rfl
@[simp] theorem raiseR_writeHold (p b : Nat) : (raiseR n p b).writeHold = n.writeHold := rfl
@[simp] theorem raiseR_mgt (p b : Nat) : (raiseR n p b).mgt = n.mgt := rfl
@[simp] theorem raiseR_mirror (p b : Nat) : (raiseR n p b).mirror = n.mirror := rfl
@[simp] theorem raiseR_rec_ (p b : Nat) : (raiseR n p b).rec_ = n.rec_ := rfl
@[simp] theorem raiseR_tb (p b : Nat) : (raiseR n p b).tb = n.tb := rfl
@[simp] theorem raiseR_launches (p b : Nat) : (raiseR n p b).launches = n.launches := rfl
@[simp] theorem raiseR_lchLast (p b : Nat) : (raiseR n p b).lchLast = n.lchLast := rfl
@[simp] theorem raiseR_ranks (p b : Nat) : (raiseR n p b).ranks = n.ranks := rfl
@[simp] theorem raiseR_fronts (p b : Nat) : (raiseR n p b).fronts = n.fronts := rfl
@[simp] theorem raiseR_acqs (p b : Nat) : (raiseR n p b).acqs = n.acqs := rfl
@[simp] theorem raiseR_diags (p b : Nat) : (raiseR n p b).diags = n.diags := rfl
@[simp] theorem raiseR_stages (p b : Nat) : (raiseR n p b).stages = n.stages := rfl
@[simp] theorem raiseR_res (p b : Nat) : (raiseR n p b).res = n.res := rfl
@[simp] theorem raiseR_resHead (p b : Nat) : (raiseR n p b).resHead = n.resHead := rfl
@[simp] theorem raiseR_late (p b : Nat) : (raiseR n p b).late = n.late := rfl
@[simp] theorem raiseR_peers (p b : Nat) : (raiseR n p b).peers = n.peers := rfl
@[simp] theorem raiseR_peerMsgs (p b : Nat) : (raiseR n p b).peerMsgs = n.peerMsgs := rfl
@[simp] theorem raiseR_points (p b : Nat) : (raiseR n p b).points = n.points := rfl
@[simp] theorem raiseR_groups (p b : Nat) : (raiseR n p b).groups = n.groups := rfl
@[simp] theorem raiseR_remoteFos (p b : Nat) : (raiseR n p b).remoteFos = n.remoteFos := rfl
@[simp] theorem raiseR_remoteActs (p b : Nat) : (raiseR n p b).remoteActs = n.remoteActs := rfl
@[simp] theorem raiseR_almCnt (p b : Nat) : (raiseR n p b).almCnt = n.almCnt := rfl
@[simp] theorem raiseR_call (p b : Nat) : (raiseR n p b).call = n.call := rfl
@[simp] theorem raiseR_stations (p b : Nat) : (raiseR n p b).stations = n.stations := rfl
@[simp] theorem raiseR_safety (p b : Nat) : (raiseR n p b).safety = n.safety := rfl
@[simp] theorem raiseR_lanes (p b : Nat) : (raiseR n p b).lanes = n.lanes := rfl
@[simp] theorem raiseR_laneSt (p b : Nat) : (raiseR n p b).laneSt = n.laneSt := rfl
@[simp] theorem raiseR_duplex (p b : Nat) : (raiseR n p b).duplex = n.duplex := rfl
@[simp] theorem raiseR_cans (p b : Nat) : (raiseR n p b).cans = n.cans := rfl
@[simp] theorem raiseR_tsRef (p b : Nat) : (raiseR n p b).tsRef = n.tsRef := rfl
@[simp] theorem raiseR_net (p b : Nat) : (raiseR n p b).net = n.net := rfl
@[simp] theorem raiseR_config (p b : Nat) : (raiseR n p b).config = n.config := rfl
@[simp] theorem raiseR_nodeSt (p b : Nat) : (raiseR n p b).nodeSt = n.nodeSt := rfl
@[simp] theorem raiseR_power (p b : Nat) : (raiseR n p b).power = n.power := rfl
@[simp] theorem raiseR_dueB (p b : Nat) : (raiseR n p b).dueB = n.dueB := rfl
@[simp] theorem raiseR_dueR (p b : Nat) : (raiseR n p b).dueR = n.dueR ++ [(p, b)] := rfl
@[simp] theorem raiseR_free (p b : Nat) : (raiseR n p b).free = n.free := rfl
@[simp] theorem raiseR_outs (p b : Nat) : (raiseR n p b).outs = n.outs := rfl

@[simp] theorem setReg_now (k : Nat) (v : Word) : (setReg n k v).now = n.now := rfl
@[simp] theorem setReg_taiOff (k : Nat) (v : Word) : (setReg n k v).taiOff = n.taiOff := rfl
@[simp] theorem setReg_slewFrom (k : Nat) (v : Word) : (setReg n k v).slewFrom = n.slewFrom := rfl
@[simp] theorem setReg_slewBy (k : Nat) (v : Word) : (setReg n k v).slewBy = n.slewBy := rfl
@[simp] theorem setReg_frame (k : Nat) (v : Word) : (setReg n k v).frame = n.frame := rfl
@[simp] theorem setReg_period (k : Nat) (v : Word) : (setReg n k v).period = n.period := rfl
@[simp] theorem setReg_sampleT (k : Nat) (v : Word) : (setReg n k v).sampleT = n.sampleT := rfl
@[simp] theorem setReg_sAt (k : Nat) (v : Word) : (setReg n k v).sAt = n.sAt := rfl
@[simp] theorem setReg_bAt (k : Nat) (v : Word) : (setReg n k v).bAt = n.bAt := rfl
@[simp] theorem setReg_regs (k : Nat) (v : Word) : (setReg n k v).regs = tset (regInit k) n.regs k v := rfl
@[simp] theorem setReg_staged (k : Nat) (v : Word) : (setReg n k v).staged = n.staged := rfl
@[simp] theorem setReg_headers (k : Nat) (v : Word) : (setReg n k v).headers = n.headers := rfl
@[simp] theorem setReg_seqs (k : Nat) (v : Word) : (setReg n k v).seqs = n.seqs := rfl
@[simp] theorem setReg_cmds (k : Nat) (v : Word) : (setReg n k v).cmds = n.cmds := rfl
@[simp] theorem setReg_acts (k : Nat) (v : Word) : (setReg n k v).acts = n.acts := rfl
@[simp] theorem setReg_vectors (k : Nat) (v : Word) : (setReg n k v).vectors = n.vectors := rfl
@[simp] theorem setReg_endpoint (k : Nat) (v : Word) : (setReg n k v).endpoint = n.endpoint := rfl
@[simp] theorem setReg_unshown (k : Nat) (v : Word) : (setReg n k v).unshown = n.unshown := rfl
@[simp] theorem setReg_unshownStaged (k : Nat) (v : Word) : (setReg n k v).unshownStaged = n.unshownStaged := rfl
@[simp] theorem setReg_readHold (k : Nat) (v : Word) : (setReg n k v).readHold = n.readHold := rfl
@[simp] theorem setReg_writeHold (k : Nat) (v : Word) : (setReg n k v).writeHold = n.writeHold := rfl
@[simp] theorem setReg_mgt (k : Nat) (v : Word) : (setReg n k v).mgt = n.mgt := rfl
@[simp] theorem setReg_mirror (k : Nat) (v : Word) : (setReg n k v).mirror = n.mirror := rfl
@[simp] theorem setReg_rec_ (k : Nat) (v : Word) : (setReg n k v).rec_ = n.rec_ := rfl
@[simp] theorem setReg_tb (k : Nat) (v : Word) : (setReg n k v).tb = n.tb := rfl
@[simp] theorem setReg_launches (k : Nat) (v : Word) : (setReg n k v).launches = n.launches := rfl
@[simp] theorem setReg_lchLast (k : Nat) (v : Word) : (setReg n k v).lchLast = n.lchLast := rfl
@[simp] theorem setReg_ranks (k : Nat) (v : Word) : (setReg n k v).ranks = n.ranks := rfl
@[simp] theorem setReg_fronts (k : Nat) (v : Word) : (setReg n k v).fronts = n.fronts := rfl
@[simp] theorem setReg_acqs (k : Nat) (v : Word) : (setReg n k v).acqs = n.acqs := rfl
@[simp] theorem setReg_diags (k : Nat) (v : Word) : (setReg n k v).diags = n.diags := rfl
@[simp] theorem setReg_stages (k : Nat) (v : Word) : (setReg n k v).stages = n.stages := rfl
@[simp] theorem setReg_res (k : Nat) (v : Word) : (setReg n k v).res = n.res := rfl
@[simp] theorem setReg_resHead (k : Nat) (v : Word) : (setReg n k v).resHead = n.resHead := rfl
@[simp] theorem setReg_late (k : Nat) (v : Word) : (setReg n k v).late = n.late := rfl
@[simp] theorem setReg_peers (k : Nat) (v : Word) : (setReg n k v).peers = n.peers := rfl
@[simp] theorem setReg_peerMsgs (k : Nat) (v : Word) : (setReg n k v).peerMsgs = n.peerMsgs := rfl
@[simp] theorem setReg_points (k : Nat) (v : Word) : (setReg n k v).points = n.points := rfl
@[simp] theorem setReg_groups (k : Nat) (v : Word) : (setReg n k v).groups = n.groups := rfl
@[simp] theorem setReg_remoteFos (k : Nat) (v : Word) : (setReg n k v).remoteFos = n.remoteFos := rfl
@[simp] theorem setReg_remoteActs (k : Nat) (v : Word) : (setReg n k v).remoteActs = n.remoteActs := rfl
@[simp] theorem setReg_almCnt (k : Nat) (v : Word) : (setReg n k v).almCnt = n.almCnt := rfl
@[simp] theorem setReg_call (k : Nat) (v : Word) : (setReg n k v).call = n.call := rfl
@[simp] theorem setReg_stations (k : Nat) (v : Word) : (setReg n k v).stations = n.stations := rfl
@[simp] theorem setReg_safety (k : Nat) (v : Word) : (setReg n k v).safety = n.safety := rfl
@[simp] theorem setReg_lanes (k : Nat) (v : Word) : (setReg n k v).lanes = n.lanes := rfl
@[simp] theorem setReg_laneSt (k : Nat) (v : Word) : (setReg n k v).laneSt = n.laneSt := rfl
@[simp] theorem setReg_duplex (k : Nat) (v : Word) : (setReg n k v).duplex = n.duplex := rfl
@[simp] theorem setReg_cans (k : Nat) (v : Word) : (setReg n k v).cans = n.cans := rfl
@[simp] theorem setReg_tsRef (k : Nat) (v : Word) : (setReg n k v).tsRef = n.tsRef := rfl
@[simp] theorem setReg_net (k : Nat) (v : Word) : (setReg n k v).net = n.net := rfl
@[simp] theorem setReg_config (k : Nat) (v : Word) : (setReg n k v).config = n.config := rfl
@[simp] theorem setReg_nodeSt (k : Nat) (v : Word) : (setReg n k v).nodeSt = n.nodeSt := rfl
@[simp] theorem setReg_power (k : Nat) (v : Word) : (setReg n k v).power = n.power := rfl
@[simp] theorem setReg_dueB (k : Nat) (v : Word) : (setReg n k v).dueB = n.dueB := rfl
@[simp] theorem setReg_dueR (k : Nat) (v : Word) : (setReg n k v).dueR = n.dueR := rfl
@[simp] theorem setReg_free (k : Nat) (v : Word) : (setReg n k v).free = n.free := rfl
@[simp] theorem setReg_outs (k : Nat) (v : Word) : (setReg n k v).outs = n.outs := rfl

@[simp] theorem modHeader_now (p : Nat) (f : Header → Header) : (modHeader n p f).now = n.now := rfl
@[simp] theorem modHeader_taiOff (p : Nat) (f : Header → Header) : (modHeader n p f).taiOff = n.taiOff := rfl
@[simp] theorem modHeader_slewFrom (p : Nat) (f : Header → Header) : (modHeader n p f).slewFrom = n.slewFrom := rfl
@[simp] theorem modHeader_slewBy (p : Nat) (f : Header → Header) : (modHeader n p f).slewBy = n.slewBy := rfl
@[simp] theorem modHeader_frame (p : Nat) (f : Header → Header) : (modHeader n p f).frame = n.frame := rfl
@[simp] theorem modHeader_period (p : Nat) (f : Header → Header) : (modHeader n p f).period = n.period := rfl
@[simp] theorem modHeader_sampleT (p : Nat) (f : Header → Header) : (modHeader n p f).sampleT = n.sampleT := rfl
@[simp] theorem modHeader_sAt (p : Nat) (f : Header → Header) : (modHeader n p f).sAt = n.sAt := rfl
@[simp] theorem modHeader_bAt (p : Nat) (f : Header → Header) : (modHeader n p f).bAt = n.bAt := rfl
@[simp] theorem modHeader_regs (p : Nat) (f : Header → Header) : (modHeader n p f).regs = n.regs := rfl
@[simp] theorem modHeader_staged (p : Nat) (f : Header → Header) : (modHeader n p f).staged = n.staged := rfl
@[simp] theorem modHeader_headers (p : Nat) (f : Header → Header) : (modHeader n p f).headers = tmod {} n.headers p f := rfl
@[simp] theorem modHeader_seqs (p : Nat) (f : Header → Header) : (modHeader n p f).seqs = n.seqs := rfl
@[simp] theorem modHeader_cmds (p : Nat) (f : Header → Header) : (modHeader n p f).cmds = n.cmds := rfl
@[simp] theorem modHeader_acts (p : Nat) (f : Header → Header) : (modHeader n p f).acts = n.acts := rfl
@[simp] theorem modHeader_vectors (p : Nat) (f : Header → Header) : (modHeader n p f).vectors = n.vectors := rfl
@[simp] theorem modHeader_endpoint (p : Nat) (f : Header → Header) : (modHeader n p f).endpoint = n.endpoint := rfl
@[simp] theorem modHeader_unshown (p : Nat) (f : Header → Header) : (modHeader n p f).unshown = n.unshown := rfl
@[simp] theorem modHeader_unshownStaged (p : Nat) (f : Header → Header) : (modHeader n p f).unshownStaged = n.unshownStaged := rfl
@[simp] theorem modHeader_readHold (p : Nat) (f : Header → Header) : (modHeader n p f).readHold = n.readHold := rfl
@[simp] theorem modHeader_writeHold (p : Nat) (f : Header → Header) : (modHeader n p f).writeHold = n.writeHold := rfl
@[simp] theorem modHeader_mgt (p : Nat) (f : Header → Header) : (modHeader n p f).mgt = n.mgt := rfl
@[simp] theorem modHeader_mirror (p : Nat) (f : Header → Header) : (modHeader n p f).mirror = n.mirror := rfl
@[simp] theorem modHeader_rec_ (p : Nat) (f : Header → Header) : (modHeader n p f).rec_ = n.rec_ := rfl
@[simp] theorem modHeader_tb (p : Nat) (f : Header → Header) : (modHeader n p f).tb = n.tb := rfl
@[simp] theorem modHeader_launches (p : Nat) (f : Header → Header) : (modHeader n p f).launches = n.launches := rfl
@[simp] theorem modHeader_lchLast (p : Nat) (f : Header → Header) : (modHeader n p f).lchLast = n.lchLast := rfl
@[simp] theorem modHeader_ranks (p : Nat) (f : Header → Header) : (modHeader n p f).ranks = n.ranks := rfl
@[simp] theorem modHeader_fronts (p : Nat) (f : Header → Header) : (modHeader n p f).fronts = n.fronts := rfl
@[simp] theorem modHeader_acqs (p : Nat) (f : Header → Header) : (modHeader n p f).acqs = n.acqs := rfl
@[simp] theorem modHeader_diags (p : Nat) (f : Header → Header) : (modHeader n p f).diags = n.diags := rfl
@[simp] theorem modHeader_stages (p : Nat) (f : Header → Header) : (modHeader n p f).stages = n.stages := rfl
@[simp] theorem modHeader_res (p : Nat) (f : Header → Header) : (modHeader n p f).res = n.res := rfl
@[simp] theorem modHeader_resHead (p : Nat) (f : Header → Header) : (modHeader n p f).resHead = n.resHead := rfl
@[simp] theorem modHeader_late (p : Nat) (f : Header → Header) : (modHeader n p f).late = n.late := rfl
@[simp] theorem modHeader_peers (p : Nat) (f : Header → Header) : (modHeader n p f).peers = n.peers := rfl
@[simp] theorem modHeader_peerMsgs (p : Nat) (f : Header → Header) : (modHeader n p f).peerMsgs = n.peerMsgs := rfl
@[simp] theorem modHeader_points (p : Nat) (f : Header → Header) : (modHeader n p f).points = n.points := rfl
@[simp] theorem modHeader_groups (p : Nat) (f : Header → Header) : (modHeader n p f).groups = n.groups := rfl
@[simp] theorem modHeader_remoteFos (p : Nat) (f : Header → Header) : (modHeader n p f).remoteFos = n.remoteFos := rfl
@[simp] theorem modHeader_remoteActs (p : Nat) (f : Header → Header) : (modHeader n p f).remoteActs = n.remoteActs := rfl
@[simp] theorem modHeader_almCnt (p : Nat) (f : Header → Header) : (modHeader n p f).almCnt = n.almCnt := rfl
@[simp] theorem modHeader_call (p : Nat) (f : Header → Header) : (modHeader n p f).call = n.call := rfl
@[simp] theorem modHeader_stations (p : Nat) (f : Header → Header) : (modHeader n p f).stations = n.stations := rfl
@[simp] theorem modHeader_safety (p : Nat) (f : Header → Header) : (modHeader n p f).safety = n.safety := rfl
@[simp] theorem modHeader_lanes (p : Nat) (f : Header → Header) : (modHeader n p f).lanes = n.lanes := rfl
@[simp] theorem modHeader_laneSt (p : Nat) (f : Header → Header) : (modHeader n p f).laneSt = n.laneSt := rfl
@[simp] theorem modHeader_duplex (p : Nat) (f : Header → Header) : (modHeader n p f).duplex = n.duplex := rfl
@[simp] theorem modHeader_cans (p : Nat) (f : Header → Header) : (modHeader n p f).cans = n.cans := rfl
@[simp] theorem modHeader_tsRef (p : Nat) (f : Header → Header) : (modHeader n p f).tsRef = n.tsRef := rfl
@[simp] theorem modHeader_net (p : Nat) (f : Header → Header) : (modHeader n p f).net = n.net := rfl
@[simp] theorem modHeader_config (p : Nat) (f : Header → Header) : (modHeader n p f).config = n.config := rfl
@[simp] theorem modHeader_nodeSt (p : Nat) (f : Header → Header) : (modHeader n p f).nodeSt = n.nodeSt := rfl
@[simp] theorem modHeader_power (p : Nat) (f : Header → Header) : (modHeader n p f).power = n.power := rfl
@[simp] theorem modHeader_dueB (p : Nat) (f : Header → Header) : (modHeader n p f).dueB = n.dueB := rfl
@[simp] theorem modHeader_dueR (p : Nat) (f : Header → Header) : (modHeader n p f).dueR = n.dueR := rfl
@[simp] theorem modHeader_free (p : Nat) (f : Header → Header) : (modHeader n p f).free = n.free := rfl
@[simp] theorem modHeader_outs (p : Nat) (f : Header → Header) : (modHeader n p f).outs = n.outs := rfl

@[simp] theorem modSeq_now (path p : Nat) (f : PathSeq → PathSeq) : (modSeq n path p f).now = n.now := rfl
@[simp] theorem modSeq_taiOff (path p : Nat) (f : PathSeq → PathSeq) : (modSeq n path p f).taiOff = n.taiOff := rfl
@[simp] theorem modSeq_slewFrom (path p : Nat) (f : PathSeq → PathSeq) : (modSeq n path p f).slewFrom = n.slewFrom := rfl
@[simp] theorem modSeq_slewBy (path p : Nat) (f : PathSeq → PathSeq) : (modSeq n path p f).slewBy = n.slewBy := rfl
@[simp] theorem modSeq_frame (path p : Nat) (f : PathSeq → PathSeq) : (modSeq n path p f).frame = n.frame := rfl
@[simp] theorem modSeq_period (path p : Nat) (f : PathSeq → PathSeq) : (modSeq n path p f).period = n.period := rfl
@[simp] theorem modSeq_sampleT (path p : Nat) (f : PathSeq → PathSeq) : (modSeq n path p f).sampleT = n.sampleT := rfl
@[simp] theorem modSeq_sAt (path p : Nat) (f : PathSeq → PathSeq) : (modSeq n path p f).sAt = n.sAt := rfl
@[simp] theorem modSeq_bAt (path p : Nat) (f : PathSeq → PathSeq) : (modSeq n path p f).bAt = n.bAt := rfl
@[simp] theorem modSeq_regs (path p : Nat) (f : PathSeq → PathSeq) : (modSeq n path p f).regs = n.regs := rfl
@[simp] theorem modSeq_staged (path p : Nat) (f : PathSeq → PathSeq) : (modSeq n path p f).staged = n.staged := rfl
@[simp] theorem modSeq_headers (path p : Nat) (f : PathSeq → PathSeq) : (modSeq n path p f).headers = n.headers := rfl
@[simp] theorem modSeq_seqs (path p : Nat) (f : PathSeq → PathSeq) : (modSeq n path p f).seqs = tmod {} n.seqs (p + 256 * path) f := rfl
@[simp] theorem modSeq_cmds (path p : Nat) (f : PathSeq → PathSeq) : (modSeq n path p f).cmds = n.cmds := rfl
@[simp] theorem modSeq_acts (path p : Nat) (f : PathSeq → PathSeq) : (modSeq n path p f).acts = n.acts := rfl
@[simp] theorem modSeq_vectors (path p : Nat) (f : PathSeq → PathSeq) : (modSeq n path p f).vectors = n.vectors := rfl
@[simp] theorem modSeq_endpoint (path p : Nat) (f : PathSeq → PathSeq) : (modSeq n path p f).endpoint = n.endpoint := rfl
@[simp] theorem modSeq_unshown (path p : Nat) (f : PathSeq → PathSeq) : (modSeq n path p f).unshown = n.unshown := rfl
@[simp] theorem modSeq_unshownStaged (path p : Nat) (f : PathSeq → PathSeq) : (modSeq n path p f).unshownStaged = n.unshownStaged := rfl
@[simp] theorem modSeq_readHold (path p : Nat) (f : PathSeq → PathSeq) : (modSeq n path p f).readHold = n.readHold := rfl
@[simp] theorem modSeq_writeHold (path p : Nat) (f : PathSeq → PathSeq) : (modSeq n path p f).writeHold = n.writeHold := rfl
@[simp] theorem modSeq_mgt (path p : Nat) (f : PathSeq → PathSeq) : (modSeq n path p f).mgt = n.mgt := rfl
@[simp] theorem modSeq_mirror (path p : Nat) (f : PathSeq → PathSeq) : (modSeq n path p f).mirror = n.mirror := rfl
@[simp] theorem modSeq_rec_ (path p : Nat) (f : PathSeq → PathSeq) : (modSeq n path p f).rec_ = n.rec_ := rfl
@[simp] theorem modSeq_tb (path p : Nat) (f : PathSeq → PathSeq) : (modSeq n path p f).tb = n.tb := rfl
@[simp] theorem modSeq_launches (path p : Nat) (f : PathSeq → PathSeq) : (modSeq n path p f).launches = n.launches := rfl
@[simp] theorem modSeq_lchLast (path p : Nat) (f : PathSeq → PathSeq) : (modSeq n path p f).lchLast = n.lchLast := rfl
@[simp] theorem modSeq_ranks (path p : Nat) (f : PathSeq → PathSeq) : (modSeq n path p f).ranks = n.ranks := rfl
@[simp] theorem modSeq_fronts (path p : Nat) (f : PathSeq → PathSeq) : (modSeq n path p f).fronts = n.fronts := rfl
@[simp] theorem modSeq_acqs (path p : Nat) (f : PathSeq → PathSeq) : (modSeq n path p f).acqs = n.acqs := rfl
@[simp] theorem modSeq_diags (path p : Nat) (f : PathSeq → PathSeq) : (modSeq n path p f).diags = n.diags := rfl
@[simp] theorem modSeq_stages (path p : Nat) (f : PathSeq → PathSeq) : (modSeq n path p f).stages = n.stages := rfl
@[simp] theorem modSeq_res (path p : Nat) (f : PathSeq → PathSeq) : (modSeq n path p f).res = n.res := rfl
@[simp] theorem modSeq_resHead (path p : Nat) (f : PathSeq → PathSeq) : (modSeq n path p f).resHead = n.resHead := rfl
@[simp] theorem modSeq_late (path p : Nat) (f : PathSeq → PathSeq) : (modSeq n path p f).late = n.late := rfl
@[simp] theorem modSeq_peers (path p : Nat) (f : PathSeq → PathSeq) : (modSeq n path p f).peers = n.peers := rfl
@[simp] theorem modSeq_peerMsgs (path p : Nat) (f : PathSeq → PathSeq) : (modSeq n path p f).peerMsgs = n.peerMsgs := rfl
@[simp] theorem modSeq_points (path p : Nat) (f : PathSeq → PathSeq) : (modSeq n path p f).points = n.points := rfl
@[simp] theorem modSeq_groups (path p : Nat) (f : PathSeq → PathSeq) : (modSeq n path p f).groups = n.groups := rfl
@[simp] theorem modSeq_remoteFos (path p : Nat) (f : PathSeq → PathSeq) : (modSeq n path p f).remoteFos = n.remoteFos := rfl
@[simp] theorem modSeq_remoteActs (path p : Nat) (f : PathSeq → PathSeq) : (modSeq n path p f).remoteActs = n.remoteActs := rfl
@[simp] theorem modSeq_almCnt (path p : Nat) (f : PathSeq → PathSeq) : (modSeq n path p f).almCnt = n.almCnt := rfl
@[simp] theorem modSeq_call (path p : Nat) (f : PathSeq → PathSeq) : (modSeq n path p f).call = n.call := rfl
@[simp] theorem modSeq_stations (path p : Nat) (f : PathSeq → PathSeq) : (modSeq n path p f).stations = n.stations := rfl
@[simp] theorem modSeq_safety (path p : Nat) (f : PathSeq → PathSeq) : (modSeq n path p f).safety = n.safety := rfl
@[simp] theorem modSeq_lanes (path p : Nat) (f : PathSeq → PathSeq) : (modSeq n path p f).lanes = n.lanes := rfl
@[simp] theorem modSeq_laneSt (path p : Nat) (f : PathSeq → PathSeq) : (modSeq n path p f).laneSt = n.laneSt := rfl
@[simp] theorem modSeq_duplex (path p : Nat) (f : PathSeq → PathSeq) : (modSeq n path p f).duplex = n.duplex := rfl
@[simp] theorem modSeq_cans (path p : Nat) (f : PathSeq → PathSeq) : (modSeq n path p f).cans = n.cans := rfl
@[simp] theorem modSeq_tsRef (path p : Nat) (f : PathSeq → PathSeq) : (modSeq n path p f).tsRef = n.tsRef := rfl
@[simp] theorem modSeq_net (path p : Nat) (f : PathSeq → PathSeq) : (modSeq n path p f).net = n.net := rfl
@[simp] theorem modSeq_config (path p : Nat) (f : PathSeq → PathSeq) : (modSeq n path p f).config = n.config := rfl
@[simp] theorem modSeq_nodeSt (path p : Nat) (f : PathSeq → PathSeq) : (modSeq n path p f).nodeSt = n.nodeSt := rfl
@[simp] theorem modSeq_power (path p : Nat) (f : PathSeq → PathSeq) : (modSeq n path p f).power = n.power := rfl
@[simp] theorem modSeq_dueB (path p : Nat) (f : PathSeq → PathSeq) : (modSeq n path p f).dueB = n.dueB := rfl
@[simp] theorem modSeq_dueR (path p : Nat) (f : PathSeq → PathSeq) : (modSeq n path p f).dueR = n.dueR := rfl
@[simp] theorem modSeq_free (path p : Nat) (f : PathSeq → PathSeq) : (modSeq n path p f).free = n.free := rfl
@[simp] theorem modSeq_outs (path p : Nat) (f : PathSeq → PathSeq) : (modSeq n path p f).outs = n.outs := rfl

@[simp] theorem setCmd_now (p : Nat) (c : Option Command) : (setCmd n p c).now = n.now := rfl
@[simp] theorem setCmd_taiOff (p : Nat) (c : Option Command) : (setCmd n p c).taiOff = n.taiOff := rfl
@[simp] theorem setCmd_slewFrom (p : Nat) (c : Option Command) : (setCmd n p c).slewFrom = n.slewFrom := rfl
@[simp] theorem setCmd_slewBy (p : Nat) (c : Option Command) : (setCmd n p c).slewBy = n.slewBy := rfl
@[simp] theorem setCmd_frame (p : Nat) (c : Option Command) : (setCmd n p c).frame = n.frame := rfl
@[simp] theorem setCmd_period (p : Nat) (c : Option Command) : (setCmd n p c).period = n.period := rfl
@[simp] theorem setCmd_sampleT (p : Nat) (c : Option Command) : (setCmd n p c).sampleT = n.sampleT := rfl
@[simp] theorem setCmd_sAt (p : Nat) (c : Option Command) : (setCmd n p c).sAt = n.sAt := rfl
@[simp] theorem setCmd_bAt (p : Nat) (c : Option Command) : (setCmd n p c).bAt = n.bAt := rfl
@[simp] theorem setCmd_regs (p : Nat) (c : Option Command) : (setCmd n p c).regs = n.regs := rfl
@[simp] theorem setCmd_staged (p : Nat) (c : Option Command) : (setCmd n p c).staged = n.staged := rfl
@[simp] theorem setCmd_headers (p : Nat) (c : Option Command) : (setCmd n p c).headers = n.headers := rfl
@[simp] theorem setCmd_seqs (p : Nat) (c : Option Command) : (setCmd n p c).seqs = n.seqs := rfl
@[simp] theorem setCmd_cmds (p : Nat) (c : Option Command) : (setCmd n p c).cmds = tset none n.cmds p c := rfl
@[simp] theorem setCmd_acts (p : Nat) (c : Option Command) : (setCmd n p c).acts = n.acts := rfl
@[simp] theorem setCmd_vectors (p : Nat) (c : Option Command) : (setCmd n p c).vectors = n.vectors := rfl
@[simp] theorem setCmd_endpoint (p : Nat) (c : Option Command) : (setCmd n p c).endpoint = n.endpoint := rfl
@[simp] theorem setCmd_unshown (p : Nat) (c : Option Command) : (setCmd n p c).unshown = n.unshown := rfl
@[simp] theorem setCmd_unshownStaged (p : Nat) (c : Option Command) : (setCmd n p c).unshownStaged = n.unshownStaged := rfl
@[simp] theorem setCmd_readHold (p : Nat) (c : Option Command) : (setCmd n p c).readHold = n.readHold := rfl
@[simp] theorem setCmd_writeHold (p : Nat) (c : Option Command) : (setCmd n p c).writeHold = n.writeHold := rfl
@[simp] theorem setCmd_mgt (p : Nat) (c : Option Command) : (setCmd n p c).mgt = n.mgt := rfl
@[simp] theorem setCmd_mirror (p : Nat) (c : Option Command) : (setCmd n p c).mirror = n.mirror := rfl
@[simp] theorem setCmd_rec_ (p : Nat) (c : Option Command) : (setCmd n p c).rec_ = n.rec_ := rfl
@[simp] theorem setCmd_tb (p : Nat) (c : Option Command) : (setCmd n p c).tb = n.tb := rfl
@[simp] theorem setCmd_launches (p : Nat) (c : Option Command) : (setCmd n p c).launches = n.launches := rfl
@[simp] theorem setCmd_lchLast (p : Nat) (c : Option Command) : (setCmd n p c).lchLast = n.lchLast := rfl
@[simp] theorem setCmd_ranks (p : Nat) (c : Option Command) : (setCmd n p c).ranks = n.ranks := rfl
@[simp] theorem setCmd_fronts (p : Nat) (c : Option Command) : (setCmd n p c).fronts = n.fronts := rfl
@[simp] theorem setCmd_acqs (p : Nat) (c : Option Command) : (setCmd n p c).acqs = n.acqs := rfl
@[simp] theorem setCmd_diags (p : Nat) (c : Option Command) : (setCmd n p c).diags = n.diags := rfl
@[simp] theorem setCmd_stages (p : Nat) (c : Option Command) : (setCmd n p c).stages = n.stages := rfl
@[simp] theorem setCmd_res (p : Nat) (c : Option Command) : (setCmd n p c).res = n.res := rfl
@[simp] theorem setCmd_resHead (p : Nat) (c : Option Command) : (setCmd n p c).resHead = n.resHead := rfl
@[simp] theorem setCmd_late (p : Nat) (c : Option Command) : (setCmd n p c).late = n.late := rfl
@[simp] theorem setCmd_peers (p : Nat) (c : Option Command) : (setCmd n p c).peers = n.peers := rfl
@[simp] theorem setCmd_peerMsgs (p : Nat) (c : Option Command) : (setCmd n p c).peerMsgs = n.peerMsgs := rfl
@[simp] theorem setCmd_points (p : Nat) (c : Option Command) : (setCmd n p c).points = n.points := rfl
@[simp] theorem setCmd_groups (p : Nat) (c : Option Command) : (setCmd n p c).groups = n.groups := rfl
@[simp] theorem setCmd_remoteFos (p : Nat) (c : Option Command) : (setCmd n p c).remoteFos = n.remoteFos := rfl
@[simp] theorem setCmd_remoteActs (p : Nat) (c : Option Command) : (setCmd n p c).remoteActs = n.remoteActs := rfl
@[simp] theorem setCmd_almCnt (p : Nat) (c : Option Command) : (setCmd n p c).almCnt = n.almCnt := rfl
@[simp] theorem setCmd_call (p : Nat) (c : Option Command) : (setCmd n p c).call = n.call := rfl
@[simp] theorem setCmd_stations (p : Nat) (c : Option Command) : (setCmd n p c).stations = n.stations := rfl
@[simp] theorem setCmd_safety (p : Nat) (c : Option Command) : (setCmd n p c).safety = n.safety := rfl
@[simp] theorem setCmd_lanes (p : Nat) (c : Option Command) : (setCmd n p c).lanes = n.lanes := rfl
@[simp] theorem setCmd_laneSt (p : Nat) (c : Option Command) : (setCmd n p c).laneSt = n.laneSt := rfl
@[simp] theorem setCmd_duplex (p : Nat) (c : Option Command) : (setCmd n p c).duplex = n.duplex := rfl
@[simp] theorem setCmd_cans (p : Nat) (c : Option Command) : (setCmd n p c).cans = n.cans := rfl
@[simp] theorem setCmd_tsRef (p : Nat) (c : Option Command) : (setCmd n p c).tsRef = n.tsRef := rfl
@[simp] theorem setCmd_net (p : Nat) (c : Option Command) : (setCmd n p c).net = n.net := rfl
@[simp] theorem setCmd_config (p : Nat) (c : Option Command) : (setCmd n p c).config = n.config := rfl
@[simp] theorem setCmd_nodeSt (p : Nat) (c : Option Command) : (setCmd n p c).nodeSt = n.nodeSt := rfl
@[simp] theorem setCmd_power (p : Nat) (c : Option Command) : (setCmd n p c).power = n.power := rfl
@[simp] theorem setCmd_dueB (p : Nat) (c : Option Command) : (setCmd n p c).dueB = n.dueB := rfl
@[simp] theorem setCmd_dueR (p : Nat) (c : Option Command) : (setCmd n p c).dueR = n.dueR := rfl
@[simp] theorem setCmd_free (p : Nat) (c : Option Command) : (setCmd n p c).free = n.free := rfl
@[simp] theorem setCmd_outs (p : Nat) (c : Option Command) : (setCmd n p c).outs = n.outs := rfl

@[simp] theorem modRank_now (k : Nat) (f : Rank → Rank) : (modRank n k f).now = n.now := rfl
@[simp] theorem modRank_taiOff (k : Nat) (f : Rank → Rank) : (modRank n k f).taiOff = n.taiOff := rfl
@[simp] theorem modRank_slewFrom (k : Nat) (f : Rank → Rank) : (modRank n k f).slewFrom = n.slewFrom := rfl
@[simp] theorem modRank_slewBy (k : Nat) (f : Rank → Rank) : (modRank n k f).slewBy = n.slewBy := rfl
@[simp] theorem modRank_frame (k : Nat) (f : Rank → Rank) : (modRank n k f).frame = n.frame := rfl
@[simp] theorem modRank_period (k : Nat) (f : Rank → Rank) : (modRank n k f).period = n.period := rfl
@[simp] theorem modRank_sampleT (k : Nat) (f : Rank → Rank) : (modRank n k f).sampleT = n.sampleT := rfl
@[simp] theorem modRank_sAt (k : Nat) (f : Rank → Rank) : (modRank n k f).sAt = n.sAt := rfl
@[simp] theorem modRank_bAt (k : Nat) (f : Rank → Rank) : (modRank n k f).bAt = n.bAt := rfl
@[simp] theorem modRank_regs (k : Nat) (f : Rank → Rank) : (modRank n k f).regs = n.regs := rfl
@[simp] theorem modRank_staged (k : Nat) (f : Rank → Rank) : (modRank n k f).staged = n.staged := rfl
@[simp] theorem modRank_headers (k : Nat) (f : Rank → Rank) : (modRank n k f).headers = n.headers := rfl
@[simp] theorem modRank_seqs (k : Nat) (f : Rank → Rank) : (modRank n k f).seqs = n.seqs := rfl
@[simp] theorem modRank_cmds (k : Nat) (f : Rank → Rank) : (modRank n k f).cmds = n.cmds := rfl
@[simp] theorem modRank_acts (k : Nat) (f : Rank → Rank) : (modRank n k f).acts = n.acts := rfl
@[simp] theorem modRank_vectors (k : Nat) (f : Rank → Rank) : (modRank n k f).vectors = n.vectors := rfl
@[simp] theorem modRank_endpoint (k : Nat) (f : Rank → Rank) : (modRank n k f).endpoint = n.endpoint := rfl
@[simp] theorem modRank_unshown (k : Nat) (f : Rank → Rank) : (modRank n k f).unshown = n.unshown := rfl
@[simp] theorem modRank_unshownStaged (k : Nat) (f : Rank → Rank) : (modRank n k f).unshownStaged = n.unshownStaged := rfl
@[simp] theorem modRank_readHold (k : Nat) (f : Rank → Rank) : (modRank n k f).readHold = n.readHold := rfl
@[simp] theorem modRank_writeHold (k : Nat) (f : Rank → Rank) : (modRank n k f).writeHold = n.writeHold := rfl
@[simp] theorem modRank_mgt (k : Nat) (f : Rank → Rank) : (modRank n k f).mgt = n.mgt := rfl
@[simp] theorem modRank_mirror (k : Nat) (f : Rank → Rank) : (modRank n k f).mirror = n.mirror := rfl
@[simp] theorem modRank_rec_ (k : Nat) (f : Rank → Rank) : (modRank n k f).rec_ = n.rec_ := rfl
@[simp] theorem modRank_tb (k : Nat) (f : Rank → Rank) : (modRank n k f).tb = n.tb := rfl
@[simp] theorem modRank_launches (k : Nat) (f : Rank → Rank) : (modRank n k f).launches = n.launches := rfl
@[simp] theorem modRank_lchLast (k : Nat) (f : Rank → Rank) : (modRank n k f).lchLast = n.lchLast := rfl
@[simp] theorem modRank_ranks (k : Nat) (f : Rank → Rank) : (modRank n k f).ranks = tmod {} n.ranks k f := rfl
@[simp] theorem modRank_fronts (k : Nat) (f : Rank → Rank) : (modRank n k f).fronts = n.fronts := rfl
@[simp] theorem modRank_acqs (k : Nat) (f : Rank → Rank) : (modRank n k f).acqs = n.acqs := rfl
@[simp] theorem modRank_diags (k : Nat) (f : Rank → Rank) : (modRank n k f).diags = n.diags := rfl
@[simp] theorem modRank_stages (k : Nat) (f : Rank → Rank) : (modRank n k f).stages = n.stages := rfl
@[simp] theorem modRank_res (k : Nat) (f : Rank → Rank) : (modRank n k f).res = n.res := rfl
@[simp] theorem modRank_resHead (k : Nat) (f : Rank → Rank) : (modRank n k f).resHead = n.resHead := rfl
@[simp] theorem modRank_late (k : Nat) (f : Rank → Rank) : (modRank n k f).late = n.late := rfl
@[simp] theorem modRank_peers (k : Nat) (f : Rank → Rank) : (modRank n k f).peers = n.peers := rfl
@[simp] theorem modRank_peerMsgs (k : Nat) (f : Rank → Rank) : (modRank n k f).peerMsgs = n.peerMsgs := rfl
@[simp] theorem modRank_points (k : Nat) (f : Rank → Rank) : (modRank n k f).points = n.points := rfl
@[simp] theorem modRank_groups (k : Nat) (f : Rank → Rank) : (modRank n k f).groups = n.groups := rfl
@[simp] theorem modRank_remoteFos (k : Nat) (f : Rank → Rank) : (modRank n k f).remoteFos = n.remoteFos := rfl
@[simp] theorem modRank_remoteActs (k : Nat) (f : Rank → Rank) : (modRank n k f).remoteActs = n.remoteActs := rfl
@[simp] theorem modRank_almCnt (k : Nat) (f : Rank → Rank) : (modRank n k f).almCnt = n.almCnt := rfl
@[simp] theorem modRank_call (k : Nat) (f : Rank → Rank) : (modRank n k f).call = n.call := rfl
@[simp] theorem modRank_stations (k : Nat) (f : Rank → Rank) : (modRank n k f).stations = n.stations := rfl
@[simp] theorem modRank_safety (k : Nat) (f : Rank → Rank) : (modRank n k f).safety = n.safety := rfl
@[simp] theorem modRank_lanes (k : Nat) (f : Rank → Rank) : (modRank n k f).lanes = n.lanes := rfl
@[simp] theorem modRank_laneSt (k : Nat) (f : Rank → Rank) : (modRank n k f).laneSt = n.laneSt := rfl
@[simp] theorem modRank_duplex (k : Nat) (f : Rank → Rank) : (modRank n k f).duplex = n.duplex := rfl
@[simp] theorem modRank_cans (k : Nat) (f : Rank → Rank) : (modRank n k f).cans = n.cans := rfl
@[simp] theorem modRank_tsRef (k : Nat) (f : Rank → Rank) : (modRank n k f).tsRef = n.tsRef := rfl
@[simp] theorem modRank_net (k : Nat) (f : Rank → Rank) : (modRank n k f).net = n.net := rfl
@[simp] theorem modRank_config (k : Nat) (f : Rank → Rank) : (modRank n k f).config = n.config := rfl
@[simp] theorem modRank_nodeSt (k : Nat) (f : Rank → Rank) : (modRank n k f).nodeSt = n.nodeSt := rfl
@[simp] theorem modRank_power (k : Nat) (f : Rank → Rank) : (modRank n k f).power = n.power := rfl
@[simp] theorem modRank_dueB (k : Nat) (f : Rank → Rank) : (modRank n k f).dueB = n.dueB := rfl
@[simp] theorem modRank_dueR (k : Nat) (f : Rank → Rank) : (modRank n k f).dueR = n.dueR := rfl
@[simp] theorem modRank_free (k : Nat) (f : Rank → Rank) : (modRank n k f).free = n.free := rfl
@[simp] theorem modRank_outs (k : Nat) (f : Rank → Rank) : (modRank n k f).outs = n.outs := rfl

@[simp] theorem modFront_now (k : Nat) (f : Front → Front) : (modFront n k f).now = n.now := rfl
@[simp] theorem modFront_taiOff (k : Nat) (f : Front → Front) : (modFront n k f).taiOff = n.taiOff := rfl
@[simp] theorem modFront_slewFrom (k : Nat) (f : Front → Front) : (modFront n k f).slewFrom = n.slewFrom := rfl
@[simp] theorem modFront_slewBy (k : Nat) (f : Front → Front) : (modFront n k f).slewBy = n.slewBy := rfl
@[simp] theorem modFront_frame (k : Nat) (f : Front → Front) : (modFront n k f).frame = n.frame := rfl
@[simp] theorem modFront_period (k : Nat) (f : Front → Front) : (modFront n k f).period = n.period := rfl
@[simp] theorem modFront_sampleT (k : Nat) (f : Front → Front) : (modFront n k f).sampleT = n.sampleT := rfl
@[simp] theorem modFront_sAt (k : Nat) (f : Front → Front) : (modFront n k f).sAt = n.sAt := rfl
@[simp] theorem modFront_bAt (k : Nat) (f : Front → Front) : (modFront n k f).bAt = n.bAt := rfl
@[simp] theorem modFront_regs (k : Nat) (f : Front → Front) : (modFront n k f).regs = n.regs := rfl
@[simp] theorem modFront_staged (k : Nat) (f : Front → Front) : (modFront n k f).staged = n.staged := rfl
@[simp] theorem modFront_headers (k : Nat) (f : Front → Front) : (modFront n k f).headers = n.headers := rfl
@[simp] theorem modFront_seqs (k : Nat) (f : Front → Front) : (modFront n k f).seqs = n.seqs := rfl
@[simp] theorem modFront_cmds (k : Nat) (f : Front → Front) : (modFront n k f).cmds = n.cmds := rfl
@[simp] theorem modFront_acts (k : Nat) (f : Front → Front) : (modFront n k f).acts = n.acts := rfl
@[simp] theorem modFront_vectors (k : Nat) (f : Front → Front) : (modFront n k f).vectors = n.vectors := rfl
@[simp] theorem modFront_endpoint (k : Nat) (f : Front → Front) : (modFront n k f).endpoint = n.endpoint := rfl
@[simp] theorem modFront_unshown (k : Nat) (f : Front → Front) : (modFront n k f).unshown = n.unshown := rfl
@[simp] theorem modFront_unshownStaged (k : Nat) (f : Front → Front) : (modFront n k f).unshownStaged = n.unshownStaged := rfl
@[simp] theorem modFront_readHold (k : Nat) (f : Front → Front) : (modFront n k f).readHold = n.readHold := rfl
@[simp] theorem modFront_writeHold (k : Nat) (f : Front → Front) : (modFront n k f).writeHold = n.writeHold := rfl
@[simp] theorem modFront_mgt (k : Nat) (f : Front → Front) : (modFront n k f).mgt = n.mgt := rfl
@[simp] theorem modFront_mirror (k : Nat) (f : Front → Front) : (modFront n k f).mirror = n.mirror := rfl
@[simp] theorem modFront_rec_ (k : Nat) (f : Front → Front) : (modFront n k f).rec_ = n.rec_ := rfl
@[simp] theorem modFront_tb (k : Nat) (f : Front → Front) : (modFront n k f).tb = n.tb := rfl
@[simp] theorem modFront_launches (k : Nat) (f : Front → Front) : (modFront n k f).launches = n.launches := rfl
@[simp] theorem modFront_lchLast (k : Nat) (f : Front → Front) : (modFront n k f).lchLast = n.lchLast := rfl
@[simp] theorem modFront_ranks (k : Nat) (f : Front → Front) : (modFront n k f).ranks = n.ranks := rfl
@[simp] theorem modFront_fronts (k : Nat) (f : Front → Front) : (modFront n k f).fronts = tmod {} n.fronts k f := rfl
@[simp] theorem modFront_acqs (k : Nat) (f : Front → Front) : (modFront n k f).acqs = n.acqs := rfl
@[simp] theorem modFront_diags (k : Nat) (f : Front → Front) : (modFront n k f).diags = n.diags := rfl
@[simp] theorem modFront_stages (k : Nat) (f : Front → Front) : (modFront n k f).stages = n.stages := rfl
@[simp] theorem modFront_res (k : Nat) (f : Front → Front) : (modFront n k f).res = n.res := rfl
@[simp] theorem modFront_resHead (k : Nat) (f : Front → Front) : (modFront n k f).resHead = n.resHead := rfl
@[simp] theorem modFront_late (k : Nat) (f : Front → Front) : (modFront n k f).late = n.late := rfl
@[simp] theorem modFront_peers (k : Nat) (f : Front → Front) : (modFront n k f).peers = n.peers := rfl
@[simp] theorem modFront_peerMsgs (k : Nat) (f : Front → Front) : (modFront n k f).peerMsgs = n.peerMsgs := rfl
@[simp] theorem modFront_points (k : Nat) (f : Front → Front) : (modFront n k f).points = n.points := rfl
@[simp] theorem modFront_groups (k : Nat) (f : Front → Front) : (modFront n k f).groups = n.groups := rfl
@[simp] theorem modFront_remoteFos (k : Nat) (f : Front → Front) : (modFront n k f).remoteFos = n.remoteFos := rfl
@[simp] theorem modFront_remoteActs (k : Nat) (f : Front → Front) : (modFront n k f).remoteActs = n.remoteActs := rfl
@[simp] theorem modFront_almCnt (k : Nat) (f : Front → Front) : (modFront n k f).almCnt = n.almCnt := rfl
@[simp] theorem modFront_call (k : Nat) (f : Front → Front) : (modFront n k f).call = n.call := rfl
@[simp] theorem modFront_stations (k : Nat) (f : Front → Front) : (modFront n k f).stations = n.stations := rfl
@[simp] theorem modFront_safety (k : Nat) (f : Front → Front) : (modFront n k f).safety = n.safety := rfl
@[simp] theorem modFront_lanes (k : Nat) (f : Front → Front) : (modFront n k f).lanes = n.lanes := rfl
@[simp] theorem modFront_laneSt (k : Nat) (f : Front → Front) : (modFront n k f).laneSt = n.laneSt := rfl
@[simp] theorem modFront_duplex (k : Nat) (f : Front → Front) : (modFront n k f).duplex = n.duplex := rfl
@[simp] theorem modFront_cans (k : Nat) (f : Front → Front) : (modFront n k f).cans = n.cans := rfl
@[simp] theorem modFront_tsRef (k : Nat) (f : Front → Front) : (modFront n k f).tsRef = n.tsRef := rfl
@[simp] theorem modFront_net (k : Nat) (f : Front → Front) : (modFront n k f).net = n.net := rfl
@[simp] theorem modFront_config (k : Nat) (f : Front → Front) : (modFront n k f).config = n.config := rfl
@[simp] theorem modFront_nodeSt (k : Nat) (f : Front → Front) : (modFront n k f).nodeSt = n.nodeSt := rfl
@[simp] theorem modFront_power (k : Nat) (f : Front → Front) : (modFront n k f).power = n.power := rfl
@[simp] theorem modFront_dueB (k : Nat) (f : Front → Front) : (modFront n k f).dueB = n.dueB := rfl
@[simp] theorem modFront_dueR (k : Nat) (f : Front → Front) : (modFront n k f).dueR = n.dueR := rfl
@[simp] theorem modFront_free (k : Nat) (f : Front → Front) : (modFront n k f).free = n.free := rfl
@[simp] theorem modFront_outs (k : Nat) (f : Front → Front) : (modFront n k f).outs = n.outs := rfl

@[simp] theorem modAcq_now (k : Nat) (f : Acq → Acq) : (modAcq n k f).now = n.now := rfl
@[simp] theorem modAcq_taiOff (k : Nat) (f : Acq → Acq) : (modAcq n k f).taiOff = n.taiOff := rfl
@[simp] theorem modAcq_slewFrom (k : Nat) (f : Acq → Acq) : (modAcq n k f).slewFrom = n.slewFrom := rfl
@[simp] theorem modAcq_slewBy (k : Nat) (f : Acq → Acq) : (modAcq n k f).slewBy = n.slewBy := rfl
@[simp] theorem modAcq_frame (k : Nat) (f : Acq → Acq) : (modAcq n k f).frame = n.frame := rfl
@[simp] theorem modAcq_period (k : Nat) (f : Acq → Acq) : (modAcq n k f).period = n.period := rfl
@[simp] theorem modAcq_sampleT (k : Nat) (f : Acq → Acq) : (modAcq n k f).sampleT = n.sampleT := rfl
@[simp] theorem modAcq_sAt (k : Nat) (f : Acq → Acq) : (modAcq n k f).sAt = n.sAt := rfl
@[simp] theorem modAcq_bAt (k : Nat) (f : Acq → Acq) : (modAcq n k f).bAt = n.bAt := rfl
@[simp] theorem modAcq_regs (k : Nat) (f : Acq → Acq) : (modAcq n k f).regs = n.regs := rfl
@[simp] theorem modAcq_staged (k : Nat) (f : Acq → Acq) : (modAcq n k f).staged = n.staged := rfl
@[simp] theorem modAcq_headers (k : Nat) (f : Acq → Acq) : (modAcq n k f).headers = n.headers := rfl
@[simp] theorem modAcq_seqs (k : Nat) (f : Acq → Acq) : (modAcq n k f).seqs = n.seqs := rfl
@[simp] theorem modAcq_cmds (k : Nat) (f : Acq → Acq) : (modAcq n k f).cmds = n.cmds := rfl
@[simp] theorem modAcq_acts (k : Nat) (f : Acq → Acq) : (modAcq n k f).acts = n.acts := rfl
@[simp] theorem modAcq_vectors (k : Nat) (f : Acq → Acq) : (modAcq n k f).vectors = n.vectors := rfl
@[simp] theorem modAcq_endpoint (k : Nat) (f : Acq → Acq) : (modAcq n k f).endpoint = n.endpoint := rfl
@[simp] theorem modAcq_unshown (k : Nat) (f : Acq → Acq) : (modAcq n k f).unshown = n.unshown := rfl
@[simp] theorem modAcq_unshownStaged (k : Nat) (f : Acq → Acq) : (modAcq n k f).unshownStaged = n.unshownStaged := rfl
@[simp] theorem modAcq_readHold (k : Nat) (f : Acq → Acq) : (modAcq n k f).readHold = n.readHold := rfl
@[simp] theorem modAcq_writeHold (k : Nat) (f : Acq → Acq) : (modAcq n k f).writeHold = n.writeHold := rfl
@[simp] theorem modAcq_mgt (k : Nat) (f : Acq → Acq) : (modAcq n k f).mgt = n.mgt := rfl
@[simp] theorem modAcq_mirror (k : Nat) (f : Acq → Acq) : (modAcq n k f).mirror = n.mirror := rfl
@[simp] theorem modAcq_rec_ (k : Nat) (f : Acq → Acq) : (modAcq n k f).rec_ = n.rec_ := rfl
@[simp] theorem modAcq_tb (k : Nat) (f : Acq → Acq) : (modAcq n k f).tb = n.tb := rfl
@[simp] theorem modAcq_launches (k : Nat) (f : Acq → Acq) : (modAcq n k f).launches = n.launches := rfl
@[simp] theorem modAcq_lchLast (k : Nat) (f : Acq → Acq) : (modAcq n k f).lchLast = n.lchLast := rfl
@[simp] theorem modAcq_ranks (k : Nat) (f : Acq → Acq) : (modAcq n k f).ranks = n.ranks := rfl
@[simp] theorem modAcq_fronts (k : Nat) (f : Acq → Acq) : (modAcq n k f).fronts = n.fronts := rfl
@[simp] theorem modAcq_acqs (k : Nat) (f : Acq → Acq) : (modAcq n k f).acqs = tmod {} n.acqs k f := rfl
@[simp] theorem modAcq_diags (k : Nat) (f : Acq → Acq) : (modAcq n k f).diags = n.diags := rfl
@[simp] theorem modAcq_stages (k : Nat) (f : Acq → Acq) : (modAcq n k f).stages = n.stages := rfl
@[simp] theorem modAcq_res (k : Nat) (f : Acq → Acq) : (modAcq n k f).res = n.res := rfl
@[simp] theorem modAcq_resHead (k : Nat) (f : Acq → Acq) : (modAcq n k f).resHead = n.resHead := rfl
@[simp] theorem modAcq_late (k : Nat) (f : Acq → Acq) : (modAcq n k f).late = n.late := rfl
@[simp] theorem modAcq_peers (k : Nat) (f : Acq → Acq) : (modAcq n k f).peers = n.peers := rfl
@[simp] theorem modAcq_peerMsgs (k : Nat) (f : Acq → Acq) : (modAcq n k f).peerMsgs = n.peerMsgs := rfl
@[simp] theorem modAcq_points (k : Nat) (f : Acq → Acq) : (modAcq n k f).points = n.points := rfl
@[simp] theorem modAcq_groups (k : Nat) (f : Acq → Acq) : (modAcq n k f).groups = n.groups := rfl
@[simp] theorem modAcq_remoteFos (k : Nat) (f : Acq → Acq) : (modAcq n k f).remoteFos = n.remoteFos := rfl
@[simp] theorem modAcq_remoteActs (k : Nat) (f : Acq → Acq) : (modAcq n k f).remoteActs = n.remoteActs := rfl
@[simp] theorem modAcq_almCnt (k : Nat) (f : Acq → Acq) : (modAcq n k f).almCnt = n.almCnt := rfl
@[simp] theorem modAcq_call (k : Nat) (f : Acq → Acq) : (modAcq n k f).call = n.call := rfl
@[simp] theorem modAcq_stations (k : Nat) (f : Acq → Acq) : (modAcq n k f).stations = n.stations := rfl
@[simp] theorem modAcq_safety (k : Nat) (f : Acq → Acq) : (modAcq n k f).safety = n.safety := rfl
@[simp] theorem modAcq_lanes (k : Nat) (f : Acq → Acq) : (modAcq n k f).lanes = n.lanes := rfl
@[simp] theorem modAcq_laneSt (k : Nat) (f : Acq → Acq) : (modAcq n k f).laneSt = n.laneSt := rfl
@[simp] theorem modAcq_duplex (k : Nat) (f : Acq → Acq) : (modAcq n k f).duplex = n.duplex := rfl
@[simp] theorem modAcq_cans (k : Nat) (f : Acq → Acq) : (modAcq n k f).cans = n.cans := rfl
@[simp] theorem modAcq_tsRef (k : Nat) (f : Acq → Acq) : (modAcq n k f).tsRef = n.tsRef := rfl
@[simp] theorem modAcq_net (k : Nat) (f : Acq → Acq) : (modAcq n k f).net = n.net := rfl
@[simp] theorem modAcq_config (k : Nat) (f : Acq → Acq) : (modAcq n k f).config = n.config := rfl
@[simp] theorem modAcq_nodeSt (k : Nat) (f : Acq → Acq) : (modAcq n k f).nodeSt = n.nodeSt := rfl
@[simp] theorem modAcq_power (k : Nat) (f : Acq → Acq) : (modAcq n k f).power = n.power := rfl
@[simp] theorem modAcq_dueB (k : Nat) (f : Acq → Acq) : (modAcq n k f).dueB = n.dueB := rfl
@[simp] theorem modAcq_dueR (k : Nat) (f : Acq → Acq) : (modAcq n k f).dueR = n.dueR := rfl
@[simp] theorem modAcq_free (k : Nat) (f : Acq → Acq) : (modAcq n k f).free = n.free := rfl
@[simp] theorem modAcq_outs (k : Nat) (f : Acq → Acq) : (modAcq n k f).outs = n.outs := rfl

@[simp] theorem modDiag_now (k : Nat) (f : Diag → Diag) : (modDiag n k f).now = n.now := rfl
@[simp] theorem modDiag_taiOff (k : Nat) (f : Diag → Diag) : (modDiag n k f).taiOff = n.taiOff := rfl
@[simp] theorem modDiag_slewFrom (k : Nat) (f : Diag → Diag) : (modDiag n k f).slewFrom = n.slewFrom := rfl
@[simp] theorem modDiag_slewBy (k : Nat) (f : Diag → Diag) : (modDiag n k f).slewBy = n.slewBy := rfl
@[simp] theorem modDiag_frame (k : Nat) (f : Diag → Diag) : (modDiag n k f).frame = n.frame := rfl
@[simp] theorem modDiag_period (k : Nat) (f : Diag → Diag) : (modDiag n k f).period = n.period := rfl
@[simp] theorem modDiag_sampleT (k : Nat) (f : Diag → Diag) : (modDiag n k f).sampleT = n.sampleT := rfl
@[simp] theorem modDiag_sAt (k : Nat) (f : Diag → Diag) : (modDiag n k f).sAt = n.sAt := rfl
@[simp] theorem modDiag_bAt (k : Nat) (f : Diag → Diag) : (modDiag n k f).bAt = n.bAt := rfl
@[simp] theorem modDiag_regs (k : Nat) (f : Diag → Diag) : (modDiag n k f).regs = n.regs := rfl
@[simp] theorem modDiag_staged (k : Nat) (f : Diag → Diag) : (modDiag n k f).staged = n.staged := rfl
@[simp] theorem modDiag_headers (k : Nat) (f : Diag → Diag) : (modDiag n k f).headers = n.headers := rfl
@[simp] theorem modDiag_seqs (k : Nat) (f : Diag → Diag) : (modDiag n k f).seqs = n.seqs := rfl
@[simp] theorem modDiag_cmds (k : Nat) (f : Diag → Diag) : (modDiag n k f).cmds = n.cmds := rfl
@[simp] theorem modDiag_acts (k : Nat) (f : Diag → Diag) : (modDiag n k f).acts = n.acts := rfl
@[simp] theorem modDiag_vectors (k : Nat) (f : Diag → Diag) : (modDiag n k f).vectors = n.vectors := rfl
@[simp] theorem modDiag_endpoint (k : Nat) (f : Diag → Diag) : (modDiag n k f).endpoint = n.endpoint := rfl
@[simp] theorem modDiag_unshown (k : Nat) (f : Diag → Diag) : (modDiag n k f).unshown = n.unshown := rfl
@[simp] theorem modDiag_unshownStaged (k : Nat) (f : Diag → Diag) : (modDiag n k f).unshownStaged = n.unshownStaged := rfl
@[simp] theorem modDiag_readHold (k : Nat) (f : Diag → Diag) : (modDiag n k f).readHold = n.readHold := rfl
@[simp] theorem modDiag_writeHold (k : Nat) (f : Diag → Diag) : (modDiag n k f).writeHold = n.writeHold := rfl
@[simp] theorem modDiag_mgt (k : Nat) (f : Diag → Diag) : (modDiag n k f).mgt = n.mgt := rfl
@[simp] theorem modDiag_mirror (k : Nat) (f : Diag → Diag) : (modDiag n k f).mirror = n.mirror := rfl
@[simp] theorem modDiag_rec_ (k : Nat) (f : Diag → Diag) : (modDiag n k f).rec_ = n.rec_ := rfl
@[simp] theorem modDiag_tb (k : Nat) (f : Diag → Diag) : (modDiag n k f).tb = n.tb := rfl
@[simp] theorem modDiag_launches (k : Nat) (f : Diag → Diag) : (modDiag n k f).launches = n.launches := rfl
@[simp] theorem modDiag_lchLast (k : Nat) (f : Diag → Diag) : (modDiag n k f).lchLast = n.lchLast := rfl
@[simp] theorem modDiag_ranks (k : Nat) (f : Diag → Diag) : (modDiag n k f).ranks = n.ranks := rfl
@[simp] theorem modDiag_fronts (k : Nat) (f : Diag → Diag) : (modDiag n k f).fronts = n.fronts := rfl
@[simp] theorem modDiag_acqs (k : Nat) (f : Diag → Diag) : (modDiag n k f).acqs = n.acqs := rfl
@[simp] theorem modDiag_diags (k : Nat) (f : Diag → Diag) : (modDiag n k f).diags = tmod {} n.diags k f := rfl
@[simp] theorem modDiag_stages (k : Nat) (f : Diag → Diag) : (modDiag n k f).stages = n.stages := rfl
@[simp] theorem modDiag_res (k : Nat) (f : Diag → Diag) : (modDiag n k f).res = n.res := rfl
@[simp] theorem modDiag_resHead (k : Nat) (f : Diag → Diag) : (modDiag n k f).resHead = n.resHead := rfl
@[simp] theorem modDiag_late (k : Nat) (f : Diag → Diag) : (modDiag n k f).late = n.late := rfl
@[simp] theorem modDiag_peers (k : Nat) (f : Diag → Diag) : (modDiag n k f).peers = n.peers := rfl
@[simp] theorem modDiag_peerMsgs (k : Nat) (f : Diag → Diag) : (modDiag n k f).peerMsgs = n.peerMsgs := rfl
@[simp] theorem modDiag_points (k : Nat) (f : Diag → Diag) : (modDiag n k f).points = n.points := rfl
@[simp] theorem modDiag_groups (k : Nat) (f : Diag → Diag) : (modDiag n k f).groups = n.groups := rfl
@[simp] theorem modDiag_remoteFos (k : Nat) (f : Diag → Diag) : (modDiag n k f).remoteFos = n.remoteFos := rfl
@[simp] theorem modDiag_remoteActs (k : Nat) (f : Diag → Diag) : (modDiag n k f).remoteActs = n.remoteActs := rfl
@[simp] theorem modDiag_almCnt (k : Nat) (f : Diag → Diag) : (modDiag n k f).almCnt = n.almCnt := rfl
@[simp] theorem modDiag_call (k : Nat) (f : Diag → Diag) : (modDiag n k f).call = n.call := rfl
@[simp] theorem modDiag_stations (k : Nat) (f : Diag → Diag) : (modDiag n k f).stations = n.stations := rfl
@[simp] theorem modDiag_safety (k : Nat) (f : Diag → Diag) : (modDiag n k f).safety = n.safety := rfl
@[simp] theorem modDiag_lanes (k : Nat) (f : Diag → Diag) : (modDiag n k f).lanes = n.lanes := rfl
@[simp] theorem modDiag_laneSt (k : Nat) (f : Diag → Diag) : (modDiag n k f).laneSt = n.laneSt := rfl
@[simp] theorem modDiag_duplex (k : Nat) (f : Diag → Diag) : (modDiag n k f).duplex = n.duplex := rfl
@[simp] theorem modDiag_cans (k : Nat) (f : Diag → Diag) : (modDiag n k f).cans = n.cans := rfl
@[simp] theorem modDiag_tsRef (k : Nat) (f : Diag → Diag) : (modDiag n k f).tsRef = n.tsRef := rfl
@[simp] theorem modDiag_net (k : Nat) (f : Diag → Diag) : (modDiag n k f).net = n.net := rfl
@[simp] theorem modDiag_config (k : Nat) (f : Diag → Diag) : (modDiag n k f).config = n.config := rfl
@[simp] theorem modDiag_nodeSt (k : Nat) (f : Diag → Diag) : (modDiag n k f).nodeSt = n.nodeSt := rfl
@[simp] theorem modDiag_power (k : Nat) (f : Diag → Diag) : (modDiag n k f).power = n.power := rfl
@[simp] theorem modDiag_dueB (k : Nat) (f : Diag → Diag) : (modDiag n k f).dueB = n.dueB := rfl
@[simp] theorem modDiag_dueR (k : Nat) (f : Diag → Diag) : (modDiag n k f).dueR = n.dueR := rfl
@[simp] theorem modDiag_free (k : Nat) (f : Diag → Diag) : (modDiag n k f).free = n.free := rfl
@[simp] theorem modDiag_outs (k : Nat) (f : Diag → Diag) : (modDiag n k f).outs = n.outs := rfl

@[simp] theorem modStage_now (k : Nat) (f : Stage → Stage) : (modStage n k f).now = n.now := rfl
@[simp] theorem modStage_taiOff (k : Nat) (f : Stage → Stage) : (modStage n k f).taiOff = n.taiOff := rfl
@[simp] theorem modStage_slewFrom (k : Nat) (f : Stage → Stage) : (modStage n k f).slewFrom = n.slewFrom := rfl
@[simp] theorem modStage_slewBy (k : Nat) (f : Stage → Stage) : (modStage n k f).slewBy = n.slewBy := rfl
@[simp] theorem modStage_frame (k : Nat) (f : Stage → Stage) : (modStage n k f).frame = n.frame := rfl
@[simp] theorem modStage_period (k : Nat) (f : Stage → Stage) : (modStage n k f).period = n.period := rfl
@[simp] theorem modStage_sampleT (k : Nat) (f : Stage → Stage) : (modStage n k f).sampleT = n.sampleT := rfl
@[simp] theorem modStage_sAt (k : Nat) (f : Stage → Stage) : (modStage n k f).sAt = n.sAt := rfl
@[simp] theorem modStage_bAt (k : Nat) (f : Stage → Stage) : (modStage n k f).bAt = n.bAt := rfl
@[simp] theorem modStage_regs (k : Nat) (f : Stage → Stage) : (modStage n k f).regs = n.regs := rfl
@[simp] theorem modStage_staged (k : Nat) (f : Stage → Stage) : (modStage n k f).staged = n.staged := rfl
@[simp] theorem modStage_headers (k : Nat) (f : Stage → Stage) : (modStage n k f).headers = n.headers := rfl
@[simp] theorem modStage_seqs (k : Nat) (f : Stage → Stage) : (modStage n k f).seqs = n.seqs := rfl
@[simp] theorem modStage_cmds (k : Nat) (f : Stage → Stage) : (modStage n k f).cmds = n.cmds := rfl
@[simp] theorem modStage_acts (k : Nat) (f : Stage → Stage) : (modStage n k f).acts = n.acts := rfl
@[simp] theorem modStage_vectors (k : Nat) (f : Stage → Stage) : (modStage n k f).vectors = n.vectors := rfl
@[simp] theorem modStage_endpoint (k : Nat) (f : Stage → Stage) : (modStage n k f).endpoint = n.endpoint := rfl
@[simp] theorem modStage_unshown (k : Nat) (f : Stage → Stage) : (modStage n k f).unshown = n.unshown := rfl
@[simp] theorem modStage_unshownStaged (k : Nat) (f : Stage → Stage) : (modStage n k f).unshownStaged = n.unshownStaged := rfl
@[simp] theorem modStage_readHold (k : Nat) (f : Stage → Stage) : (modStage n k f).readHold = n.readHold := rfl
@[simp] theorem modStage_writeHold (k : Nat) (f : Stage → Stage) : (modStage n k f).writeHold = n.writeHold := rfl
@[simp] theorem modStage_mgt (k : Nat) (f : Stage → Stage) : (modStage n k f).mgt = n.mgt := rfl
@[simp] theorem modStage_mirror (k : Nat) (f : Stage → Stage) : (modStage n k f).mirror = n.mirror := rfl
@[simp] theorem modStage_rec_ (k : Nat) (f : Stage → Stage) : (modStage n k f).rec_ = n.rec_ := rfl
@[simp] theorem modStage_tb (k : Nat) (f : Stage → Stage) : (modStage n k f).tb = n.tb := rfl
@[simp] theorem modStage_launches (k : Nat) (f : Stage → Stage) : (modStage n k f).launches = n.launches := rfl
@[simp] theorem modStage_lchLast (k : Nat) (f : Stage → Stage) : (modStage n k f).lchLast = n.lchLast := rfl
@[simp] theorem modStage_ranks (k : Nat) (f : Stage → Stage) : (modStage n k f).ranks = n.ranks := rfl
@[simp] theorem modStage_fronts (k : Nat) (f : Stage → Stage) : (modStage n k f).fronts = n.fronts := rfl
@[simp] theorem modStage_acqs (k : Nat) (f : Stage → Stage) : (modStage n k f).acqs = n.acqs := rfl
@[simp] theorem modStage_diags (k : Nat) (f : Stage → Stage) : (modStage n k f).diags = n.diags := rfl
@[simp] theorem modStage_stages (k : Nat) (f : Stage → Stage) : (modStage n k f).stages = tmod {} n.stages k f := rfl
@[simp] theorem modStage_res (k : Nat) (f : Stage → Stage) : (modStage n k f).res = n.res := rfl
@[simp] theorem modStage_resHead (k : Nat) (f : Stage → Stage) : (modStage n k f).resHead = n.resHead := rfl
@[simp] theorem modStage_late (k : Nat) (f : Stage → Stage) : (modStage n k f).late = n.late := rfl
@[simp] theorem modStage_peers (k : Nat) (f : Stage → Stage) : (modStage n k f).peers = n.peers := rfl
@[simp] theorem modStage_peerMsgs (k : Nat) (f : Stage → Stage) : (modStage n k f).peerMsgs = n.peerMsgs := rfl
@[simp] theorem modStage_points (k : Nat) (f : Stage → Stage) : (modStage n k f).points = n.points := rfl
@[simp] theorem modStage_groups (k : Nat) (f : Stage → Stage) : (modStage n k f).groups = n.groups := rfl
@[simp] theorem modStage_remoteFos (k : Nat) (f : Stage → Stage) : (modStage n k f).remoteFos = n.remoteFos := rfl
@[simp] theorem modStage_remoteActs (k : Nat) (f : Stage → Stage) : (modStage n k f).remoteActs = n.remoteActs := rfl
@[simp] theorem modStage_almCnt (k : Nat) (f : Stage → Stage) : (modStage n k f).almCnt = n.almCnt := rfl
@[simp] theorem modStage_call (k : Nat) (f : Stage → Stage) : (modStage n k f).call = n.call := rfl
@[simp] theorem modStage_stations (k : Nat) (f : Stage → Stage) : (modStage n k f).stations = n.stations := rfl
@[simp] theorem modStage_safety (k : Nat) (f : Stage → Stage) : (modStage n k f).safety = n.safety := rfl
@[simp] theorem modStage_lanes (k : Nat) (f : Stage → Stage) : (modStage n k f).lanes = n.lanes := rfl
@[simp] theorem modStage_laneSt (k : Nat) (f : Stage → Stage) : (modStage n k f).laneSt = n.laneSt := rfl
@[simp] theorem modStage_duplex (k : Nat) (f : Stage → Stage) : (modStage n k f).duplex = n.duplex := rfl
@[simp] theorem modStage_cans (k : Nat) (f : Stage → Stage) : (modStage n k f).cans = n.cans := rfl
@[simp] theorem modStage_tsRef (k : Nat) (f : Stage → Stage) : (modStage n k f).tsRef = n.tsRef := rfl
@[simp] theorem modStage_net (k : Nat) (f : Stage → Stage) : (modStage n k f).net = n.net := rfl
@[simp] theorem modStage_config (k : Nat) (f : Stage → Stage) : (modStage n k f).config = n.config := rfl
@[simp] theorem modStage_nodeSt (k : Nat) (f : Stage → Stage) : (modStage n k f).nodeSt = n.nodeSt := rfl
@[simp] theorem modStage_power (k : Nat) (f : Stage → Stage) : (modStage n k f).power = n.power := rfl
@[simp] theorem modStage_dueB (k : Nat) (f : Stage → Stage) : (modStage n k f).dueB = n.dueB := rfl
@[simp] theorem modStage_dueR (k : Nat) (f : Stage → Stage) : (modStage n k f).dueR = n.dueR := rfl
@[simp] theorem modStage_free (k : Nat) (f : Stage → Stage) : (modStage n k f).free = n.free := rfl
@[simp] theorem modStage_outs (k : Nat) (f : Stage → Stage) : (modStage n k f).outs = n.outs := rfl

@[simp] theorem modPeer_now (k : Nat) (f : Peer → Peer) : (modPeer n k f).now = n.now := rfl
@[simp] theorem modPeer_taiOff (k : Nat) (f : Peer → Peer) : (modPeer n k f).taiOff = n.taiOff := rfl
@[simp] theorem modPeer_slewFrom (k : Nat) (f : Peer → Peer) : (modPeer n k f).slewFrom = n.slewFrom := rfl
@[simp] theorem modPeer_slewBy (k : Nat) (f : Peer → Peer) : (modPeer n k f).slewBy = n.slewBy := rfl
@[simp] theorem modPeer_frame (k : Nat) (f : Peer → Peer) : (modPeer n k f).frame = n.frame := rfl
@[simp] theorem modPeer_period (k : Nat) (f : Peer → Peer) : (modPeer n k f).period = n.period := rfl
@[simp] theorem modPeer_sampleT (k : Nat) (f : Peer → Peer) : (modPeer n k f).sampleT = n.sampleT := rfl
@[simp] theorem modPeer_sAt (k : Nat) (f : Peer → Peer) : (modPeer n k f).sAt = n.sAt := rfl
@[simp] theorem modPeer_bAt (k : Nat) (f : Peer → Peer) : (modPeer n k f).bAt = n.bAt := rfl
@[simp] theorem modPeer_regs (k : Nat) (f : Peer → Peer) : (modPeer n k f).regs = n.regs := rfl
@[simp] theorem modPeer_staged (k : Nat) (f : Peer → Peer) : (modPeer n k f).staged = n.staged := rfl
@[simp] theorem modPeer_headers (k : Nat) (f : Peer → Peer) : (modPeer n k f).headers = n.headers := rfl
@[simp] theorem modPeer_seqs (k : Nat) (f : Peer → Peer) : (modPeer n k f).seqs = n.seqs := rfl
@[simp] theorem modPeer_cmds (k : Nat) (f : Peer → Peer) : (modPeer n k f).cmds = n.cmds := rfl
@[simp] theorem modPeer_acts (k : Nat) (f : Peer → Peer) : (modPeer n k f).acts = n.acts := rfl
@[simp] theorem modPeer_vectors (k : Nat) (f : Peer → Peer) : (modPeer n k f).vectors = n.vectors := rfl
@[simp] theorem modPeer_endpoint (k : Nat) (f : Peer → Peer) : (modPeer n k f).endpoint = n.endpoint := rfl
@[simp] theorem modPeer_unshown (k : Nat) (f : Peer → Peer) : (modPeer n k f).unshown = n.unshown := rfl
@[simp] theorem modPeer_unshownStaged (k : Nat) (f : Peer → Peer) : (modPeer n k f).unshownStaged = n.unshownStaged := rfl
@[simp] theorem modPeer_readHold (k : Nat) (f : Peer → Peer) : (modPeer n k f).readHold = n.readHold := rfl
@[simp] theorem modPeer_writeHold (k : Nat) (f : Peer → Peer) : (modPeer n k f).writeHold = n.writeHold := rfl
@[simp] theorem modPeer_mgt (k : Nat) (f : Peer → Peer) : (modPeer n k f).mgt = n.mgt := rfl
@[simp] theorem modPeer_mirror (k : Nat) (f : Peer → Peer) : (modPeer n k f).mirror = n.mirror := rfl
@[simp] theorem modPeer_rec_ (k : Nat) (f : Peer → Peer) : (modPeer n k f).rec_ = n.rec_ := rfl
@[simp] theorem modPeer_tb (k : Nat) (f : Peer → Peer) : (modPeer n k f).tb = n.tb := rfl
@[simp] theorem modPeer_launches (k : Nat) (f : Peer → Peer) : (modPeer n k f).launches = n.launches := rfl
@[simp] theorem modPeer_lchLast (k : Nat) (f : Peer → Peer) : (modPeer n k f).lchLast = n.lchLast := rfl
@[simp] theorem modPeer_ranks (k : Nat) (f : Peer → Peer) : (modPeer n k f).ranks = n.ranks := rfl
@[simp] theorem modPeer_fronts (k : Nat) (f : Peer → Peer) : (modPeer n k f).fronts = n.fronts := rfl
@[simp] theorem modPeer_acqs (k : Nat) (f : Peer → Peer) : (modPeer n k f).acqs = n.acqs := rfl
@[simp] theorem modPeer_diags (k : Nat) (f : Peer → Peer) : (modPeer n k f).diags = n.diags := rfl
@[simp] theorem modPeer_stages (k : Nat) (f : Peer → Peer) : (modPeer n k f).stages = n.stages := rfl
@[simp] theorem modPeer_res (k : Nat) (f : Peer → Peer) : (modPeer n k f).res = n.res := rfl
@[simp] theorem modPeer_resHead (k : Nat) (f : Peer → Peer) : (modPeer n k f).resHead = n.resHead := rfl
@[simp] theorem modPeer_late (k : Nat) (f : Peer → Peer) : (modPeer n k f).late = n.late := rfl
@[simp] theorem modPeer_peers (k : Nat) (f : Peer → Peer) : (modPeer n k f).peers = tmod {} n.peers k f := rfl
@[simp] theorem modPeer_peerMsgs (k : Nat) (f : Peer → Peer) : (modPeer n k f).peerMsgs = n.peerMsgs := rfl
@[simp] theorem modPeer_points (k : Nat) (f : Peer → Peer) : (modPeer n k f).points = n.points := rfl
@[simp] theorem modPeer_groups (k : Nat) (f : Peer → Peer) : (modPeer n k f).groups = n.groups := rfl
@[simp] theorem modPeer_remoteFos (k : Nat) (f : Peer → Peer) : (modPeer n k f).remoteFos = n.remoteFos := rfl
@[simp] theorem modPeer_remoteActs (k : Nat) (f : Peer → Peer) : (modPeer n k f).remoteActs = n.remoteActs := rfl
@[simp] theorem modPeer_almCnt (k : Nat) (f : Peer → Peer) : (modPeer n k f).almCnt = n.almCnt := rfl
@[simp] theorem modPeer_call (k : Nat) (f : Peer → Peer) : (modPeer n k f).call = n.call := rfl
@[simp] theorem modPeer_stations (k : Nat) (f : Peer → Peer) : (modPeer n k f).stations = n.stations := rfl
@[simp] theorem modPeer_safety (k : Nat) (f : Peer → Peer) : (modPeer n k f).safety = n.safety := rfl
@[simp] theorem modPeer_lanes (k : Nat) (f : Peer → Peer) : (modPeer n k f).lanes = n.lanes := rfl
@[simp] theorem modPeer_laneSt (k : Nat) (f : Peer → Peer) : (modPeer n k f).laneSt = n.laneSt := rfl
@[simp] theorem modPeer_duplex (k : Nat) (f : Peer → Peer) : (modPeer n k f).duplex = n.duplex := rfl
@[simp] theorem modPeer_cans (k : Nat) (f : Peer → Peer) : (modPeer n k f).cans = n.cans := rfl
@[simp] theorem modPeer_tsRef (k : Nat) (f : Peer → Peer) : (modPeer n k f).tsRef = n.tsRef := rfl
@[simp] theorem modPeer_net (k : Nat) (f : Peer → Peer) : (modPeer n k f).net = n.net := rfl
@[simp] theorem modPeer_config (k : Nat) (f : Peer → Peer) : (modPeer n k f).config = n.config := rfl
@[simp] theorem modPeer_nodeSt (k : Nat) (f : Peer → Peer) : (modPeer n k f).nodeSt = n.nodeSt := rfl
@[simp] theorem modPeer_power (k : Nat) (f : Peer → Peer) : (modPeer n k f).power = n.power := rfl
@[simp] theorem modPeer_dueB (k : Nat) (f : Peer → Peer) : (modPeer n k f).dueB = n.dueB := rfl
@[simp] theorem modPeer_dueR (k : Nat) (f : Peer → Peer) : (modPeer n k f).dueR = n.dueR := rfl
@[simp] theorem modPeer_free (k : Nat) (f : Peer → Peer) : (modPeer n k f).free = n.free := rfl
@[simp] theorem modPeer_outs (k : Nat) (f : Peer → Peer) : (modPeer n k f).outs = n.outs := rfl

@[simp] theorem modPoint_now (k : Nat) (f : Point → Point) : (modPoint n k f).now = n.now := rfl
@[simp] theorem modPoint_taiOff (k : Nat) (f : Point → Point) : (modPoint n k f).taiOff = n.taiOff := rfl
@[simp] theorem modPoint_slewFrom (k : Nat) (f : Point → Point) : (modPoint n k f).slewFrom = n.slewFrom := rfl
@[simp] theorem modPoint_slewBy (k : Nat) (f : Point → Point) : (modPoint n k f).slewBy = n.slewBy := rfl
@[simp] theorem modPoint_frame (k : Nat) (f : Point → Point) : (modPoint n k f).frame = n.frame := rfl
@[simp] theorem modPoint_period (k : Nat) (f : Point → Point) : (modPoint n k f).period = n.period := rfl
@[simp] theorem modPoint_sampleT (k : Nat) (f : Point → Point) : (modPoint n k f).sampleT = n.sampleT := rfl
@[simp] theorem modPoint_sAt (k : Nat) (f : Point → Point) : (modPoint n k f).sAt = n.sAt := rfl
@[simp] theorem modPoint_bAt (k : Nat) (f : Point → Point) : (modPoint n k f).bAt = n.bAt := rfl
@[simp] theorem modPoint_regs (k : Nat) (f : Point → Point) : (modPoint n k f).regs = n.regs := rfl
@[simp] theorem modPoint_staged (k : Nat) (f : Point → Point) : (modPoint n k f).staged = n.staged := rfl
@[simp] theorem modPoint_headers (k : Nat) (f : Point → Point) : (modPoint n k f).headers = n.headers := rfl
@[simp] theorem modPoint_seqs (k : Nat) (f : Point → Point) : (modPoint n k f).seqs = n.seqs := rfl
@[simp] theorem modPoint_cmds (k : Nat) (f : Point → Point) : (modPoint n k f).cmds = n.cmds := rfl
@[simp] theorem modPoint_acts (k : Nat) (f : Point → Point) : (modPoint n k f).acts = n.acts := rfl
@[simp] theorem modPoint_vectors (k : Nat) (f : Point → Point) : (modPoint n k f).vectors = n.vectors := rfl
@[simp] theorem modPoint_endpoint (k : Nat) (f : Point → Point) : (modPoint n k f).endpoint = n.endpoint := rfl
@[simp] theorem modPoint_unshown (k : Nat) (f : Point → Point) : (modPoint n k f).unshown = n.unshown := rfl
@[simp] theorem modPoint_unshownStaged (k : Nat) (f : Point → Point) : (modPoint n k f).unshownStaged = n.unshownStaged := rfl
@[simp] theorem modPoint_readHold (k : Nat) (f : Point → Point) : (modPoint n k f).readHold = n.readHold := rfl
@[simp] theorem modPoint_writeHold (k : Nat) (f : Point → Point) : (modPoint n k f).writeHold = n.writeHold := rfl
@[simp] theorem modPoint_mgt (k : Nat) (f : Point → Point) : (modPoint n k f).mgt = n.mgt := rfl
@[simp] theorem modPoint_mirror (k : Nat) (f : Point → Point) : (modPoint n k f).mirror = n.mirror := rfl
@[simp] theorem modPoint_rec_ (k : Nat) (f : Point → Point) : (modPoint n k f).rec_ = n.rec_ := rfl
@[simp] theorem modPoint_tb (k : Nat) (f : Point → Point) : (modPoint n k f).tb = n.tb := rfl
@[simp] theorem modPoint_launches (k : Nat) (f : Point → Point) : (modPoint n k f).launches = n.launches := rfl
@[simp] theorem modPoint_lchLast (k : Nat) (f : Point → Point) : (modPoint n k f).lchLast = n.lchLast := rfl
@[simp] theorem modPoint_ranks (k : Nat) (f : Point → Point) : (modPoint n k f).ranks = n.ranks := rfl
@[simp] theorem modPoint_fronts (k : Nat) (f : Point → Point) : (modPoint n k f).fronts = n.fronts := rfl
@[simp] theorem modPoint_acqs (k : Nat) (f : Point → Point) : (modPoint n k f).acqs = n.acqs := rfl
@[simp] theorem modPoint_diags (k : Nat) (f : Point → Point) : (modPoint n k f).diags = n.diags := rfl
@[simp] theorem modPoint_stages (k : Nat) (f : Point → Point) : (modPoint n k f).stages = n.stages := rfl
@[simp] theorem modPoint_res (k : Nat) (f : Point → Point) : (modPoint n k f).res = n.res := rfl
@[simp] theorem modPoint_resHead (k : Nat) (f : Point → Point) : (modPoint n k f).resHead = n.resHead := rfl
@[simp] theorem modPoint_late (k : Nat) (f : Point → Point) : (modPoint n k f).late = n.late := rfl
@[simp] theorem modPoint_peers (k : Nat) (f : Point → Point) : (modPoint n k f).peers = n.peers := rfl
@[simp] theorem modPoint_peerMsgs (k : Nat) (f : Point → Point) : (modPoint n k f).peerMsgs = n.peerMsgs := rfl
@[simp] theorem modPoint_points (k : Nat) (f : Point → Point) : (modPoint n k f).points = tmod {} n.points k f := rfl
@[simp] theorem modPoint_groups (k : Nat) (f : Point → Point) : (modPoint n k f).groups = n.groups := rfl
@[simp] theorem modPoint_remoteFos (k : Nat) (f : Point → Point) : (modPoint n k f).remoteFos = n.remoteFos := rfl
@[simp] theorem modPoint_remoteActs (k : Nat) (f : Point → Point) : (modPoint n k f).remoteActs = n.remoteActs := rfl
@[simp] theorem modPoint_almCnt (k : Nat) (f : Point → Point) : (modPoint n k f).almCnt = n.almCnt := rfl
@[simp] theorem modPoint_call (k : Nat) (f : Point → Point) : (modPoint n k f).call = n.call := rfl
@[simp] theorem modPoint_stations (k : Nat) (f : Point → Point) : (modPoint n k f).stations = n.stations := rfl
@[simp] theorem modPoint_safety (k : Nat) (f : Point → Point) : (modPoint n k f).safety = n.safety := rfl
@[simp] theorem modPoint_lanes (k : Nat) (f : Point → Point) : (modPoint n k f).lanes = n.lanes := rfl
@[simp] theorem modPoint_laneSt (k : Nat) (f : Point → Point) : (modPoint n k f).laneSt = n.laneSt := rfl
@[simp] theorem modPoint_duplex (k : Nat) (f : Point → Point) : (modPoint n k f).duplex = n.duplex := rfl
@[simp] theorem modPoint_cans (k : Nat) (f : Point → Point) : (modPoint n k f).cans = n.cans := rfl
@[simp] theorem modPoint_tsRef (k : Nat) (f : Point → Point) : (modPoint n k f).tsRef = n.tsRef := rfl
@[simp] theorem modPoint_net (k : Nat) (f : Point → Point) : (modPoint n k f).net = n.net := rfl
@[simp] theorem modPoint_config (k : Nat) (f : Point → Point) : (modPoint n k f).config = n.config := rfl
@[simp] theorem modPoint_nodeSt (k : Nat) (f : Point → Point) : (modPoint n k f).nodeSt = n.nodeSt := rfl
@[simp] theorem modPoint_power (k : Nat) (f : Point → Point) : (modPoint n k f).power = n.power := rfl
@[simp] theorem modPoint_dueB (k : Nat) (f : Point → Point) : (modPoint n k f).dueB = n.dueB := rfl
@[simp] theorem modPoint_dueR (k : Nat) (f : Point → Point) : (modPoint n k f).dueR = n.dueR := rfl
@[simp] theorem modPoint_free (k : Nat) (f : Point → Point) : (modPoint n k f).free = n.free := rfl
@[simp] theorem modPoint_outs (k : Nat) (f : Point → Point) : (modPoint n k f).outs = n.outs := rfl

@[simp] theorem modGroup_now (k : Nat) (f : AlmGroup → AlmGroup) : (modGroup n k f).now = n.now := rfl
@[simp] theorem modGroup_taiOff (k : Nat) (f : AlmGroup → AlmGroup) : (modGroup n k f).taiOff = n.taiOff := rfl
@[simp] theorem modGroup_slewFrom (k : Nat) (f : AlmGroup → AlmGroup) : (modGroup n k f).slewFrom = n.slewFrom := rfl
@[simp] theorem modGroup_slewBy (k : Nat) (f : AlmGroup → AlmGroup) : (modGroup n k f).slewBy = n.slewBy := rfl
@[simp] theorem modGroup_frame (k : Nat) (f : AlmGroup → AlmGroup) : (modGroup n k f).frame = n.frame := rfl
@[simp] theorem modGroup_period (k : Nat) (f : AlmGroup → AlmGroup) : (modGroup n k f).period = n.period := rfl
@[simp] theorem modGroup_sampleT (k : Nat) (f : AlmGroup → AlmGroup) : (modGroup n k f).sampleT = n.sampleT := rfl
@[simp] theorem modGroup_sAt (k : Nat) (f : AlmGroup → AlmGroup) : (modGroup n k f).sAt = n.sAt := rfl
@[simp] theorem modGroup_bAt (k : Nat) (f : AlmGroup → AlmGroup) : (modGroup n k f).bAt = n.bAt := rfl
@[simp] theorem modGroup_regs (k : Nat) (f : AlmGroup → AlmGroup) : (modGroup n k f).regs = n.regs := rfl
@[simp] theorem modGroup_staged (k : Nat) (f : AlmGroup → AlmGroup) : (modGroup n k f).staged = n.staged := rfl
@[simp] theorem modGroup_headers (k : Nat) (f : AlmGroup → AlmGroup) : (modGroup n k f).headers = n.headers := rfl
@[simp] theorem modGroup_seqs (k : Nat) (f : AlmGroup → AlmGroup) : (modGroup n k f).seqs = n.seqs := rfl
@[simp] theorem modGroup_cmds (k : Nat) (f : AlmGroup → AlmGroup) : (modGroup n k f).cmds = n.cmds := rfl
@[simp] theorem modGroup_acts (k : Nat) (f : AlmGroup → AlmGroup) : (modGroup n k f).acts = n.acts := rfl
@[simp] theorem modGroup_vectors (k : Nat) (f : AlmGroup → AlmGroup) : (modGroup n k f).vectors = n.vectors := rfl
@[simp] theorem modGroup_endpoint (k : Nat) (f : AlmGroup → AlmGroup) : (modGroup n k f).endpoint = n.endpoint := rfl
@[simp] theorem modGroup_unshown (k : Nat) (f : AlmGroup → AlmGroup) : (modGroup n k f).unshown = n.unshown := rfl
@[simp] theorem modGroup_unshownStaged (k : Nat) (f : AlmGroup → AlmGroup) : (modGroup n k f).unshownStaged = n.unshownStaged := rfl
@[simp] theorem modGroup_readHold (k : Nat) (f : AlmGroup → AlmGroup) : (modGroup n k f).readHold = n.readHold := rfl
@[simp] theorem modGroup_writeHold (k : Nat) (f : AlmGroup → AlmGroup) : (modGroup n k f).writeHold = n.writeHold := rfl
@[simp] theorem modGroup_mgt (k : Nat) (f : AlmGroup → AlmGroup) : (modGroup n k f).mgt = n.mgt := rfl
@[simp] theorem modGroup_mirror (k : Nat) (f : AlmGroup → AlmGroup) : (modGroup n k f).mirror = n.mirror := rfl
@[simp] theorem modGroup_rec_ (k : Nat) (f : AlmGroup → AlmGroup) : (modGroup n k f).rec_ = n.rec_ := rfl
@[simp] theorem modGroup_tb (k : Nat) (f : AlmGroup → AlmGroup) : (modGroup n k f).tb = n.tb := rfl
@[simp] theorem modGroup_launches (k : Nat) (f : AlmGroup → AlmGroup) : (modGroup n k f).launches = n.launches := rfl
@[simp] theorem modGroup_lchLast (k : Nat) (f : AlmGroup → AlmGroup) : (modGroup n k f).lchLast = n.lchLast := rfl
@[simp] theorem modGroup_ranks (k : Nat) (f : AlmGroup → AlmGroup) : (modGroup n k f).ranks = n.ranks := rfl
@[simp] theorem modGroup_fronts (k : Nat) (f : AlmGroup → AlmGroup) : (modGroup n k f).fronts = n.fronts := rfl
@[simp] theorem modGroup_acqs (k : Nat) (f : AlmGroup → AlmGroup) : (modGroup n k f).acqs = n.acqs := rfl
@[simp] theorem modGroup_diags (k : Nat) (f : AlmGroup → AlmGroup) : (modGroup n k f).diags = n.diags := rfl
@[simp] theorem modGroup_stages (k : Nat) (f : AlmGroup → AlmGroup) : (modGroup n k f).stages = n.stages := rfl
@[simp] theorem modGroup_res (k : Nat) (f : AlmGroup → AlmGroup) : (modGroup n k f).res = n.res := rfl
@[simp] theorem modGroup_resHead (k : Nat) (f : AlmGroup → AlmGroup) : (modGroup n k f).resHead = n.resHead := rfl
@[simp] theorem modGroup_late (k : Nat) (f : AlmGroup → AlmGroup) : (modGroup n k f).late = n.late := rfl
@[simp] theorem modGroup_peers (k : Nat) (f : AlmGroup → AlmGroup) : (modGroup n k f).peers = n.peers := rfl
@[simp] theorem modGroup_peerMsgs (k : Nat) (f : AlmGroup → AlmGroup) : (modGroup n k f).peerMsgs = n.peerMsgs := rfl
@[simp] theorem modGroup_points (k : Nat) (f : AlmGroup → AlmGroup) : (modGroup n k f).points = n.points := rfl
@[simp] theorem modGroup_groups (k : Nat) (f : AlmGroup → AlmGroup) : (modGroup n k f).groups = tmod {} n.groups k f := rfl
@[simp] theorem modGroup_remoteFos (k : Nat) (f : AlmGroup → AlmGroup) : (modGroup n k f).remoteFos = n.remoteFos := rfl
@[simp] theorem modGroup_remoteActs (k : Nat) (f : AlmGroup → AlmGroup) : (modGroup n k f).remoteActs = n.remoteActs := rfl
@[simp] theorem modGroup_almCnt (k : Nat) (f : AlmGroup → AlmGroup) : (modGroup n k f).almCnt = n.almCnt := rfl
@[simp] theorem modGroup_call (k : Nat) (f : AlmGroup → AlmGroup) : (modGroup n k f).call = n.call := rfl
@[simp] theorem modGroup_stations (k : Nat) (f : AlmGroup → AlmGroup) : (modGroup n k f).stations = n.stations := rfl
@[simp] theorem modGroup_safety (k : Nat) (f : AlmGroup → AlmGroup) : (modGroup n k f).safety = n.safety := rfl
@[simp] theorem modGroup_lanes (k : Nat) (f : AlmGroup → AlmGroup) : (modGroup n k f).lanes = n.lanes := rfl
@[simp] theorem modGroup_laneSt (k : Nat) (f : AlmGroup → AlmGroup) : (modGroup n k f).laneSt = n.laneSt := rfl
@[simp] theorem modGroup_duplex (k : Nat) (f : AlmGroup → AlmGroup) : (modGroup n k f).duplex = n.duplex := rfl
@[simp] theorem modGroup_cans (k : Nat) (f : AlmGroup → AlmGroup) : (modGroup n k f).cans = n.cans := rfl
@[simp] theorem modGroup_tsRef (k : Nat) (f : AlmGroup → AlmGroup) : (modGroup n k f).tsRef = n.tsRef := rfl
@[simp] theorem modGroup_net (k : Nat) (f : AlmGroup → AlmGroup) : (modGroup n k f).net = n.net := rfl
@[simp] theorem modGroup_config (k : Nat) (f : AlmGroup → AlmGroup) : (modGroup n k f).config = n.config := rfl
@[simp] theorem modGroup_nodeSt (k : Nat) (f : AlmGroup → AlmGroup) : (modGroup n k f).nodeSt = n.nodeSt := rfl
@[simp] theorem modGroup_power (k : Nat) (f : AlmGroup → AlmGroup) : (modGroup n k f).power = n.power := rfl
@[simp] theorem modGroup_dueB (k : Nat) (f : AlmGroup → AlmGroup) : (modGroup n k f).dueB = n.dueB := rfl
@[simp] theorem modGroup_dueR (k : Nat) (f : AlmGroup → AlmGroup) : (modGroup n k f).dueR = n.dueR := rfl
@[simp] theorem modGroup_free (k : Nat) (f : AlmGroup → AlmGroup) : (modGroup n k f).free = n.free := rfl
@[simp] theorem modGroup_outs (k : Nat) (f : AlmGroup → AlmGroup) : (modGroup n k f).outs = n.outs := rfl

@[simp] theorem modStation_now (k : Nat) (f : Station → Station) : (modStation n k f).now = n.now := rfl
@[simp] theorem modStation_taiOff (k : Nat) (f : Station → Station) : (modStation n k f).taiOff = n.taiOff := rfl
@[simp] theorem modStation_slewFrom (k : Nat) (f : Station → Station) : (modStation n k f).slewFrom = n.slewFrom := rfl
@[simp] theorem modStation_slewBy (k : Nat) (f : Station → Station) : (modStation n k f).slewBy = n.slewBy := rfl
@[simp] theorem modStation_frame (k : Nat) (f : Station → Station) : (modStation n k f).frame = n.frame := rfl
@[simp] theorem modStation_period (k : Nat) (f : Station → Station) : (modStation n k f).period = n.period := rfl
@[simp] theorem modStation_sampleT (k : Nat) (f : Station → Station) : (modStation n k f).sampleT = n.sampleT := rfl
@[simp] theorem modStation_sAt (k : Nat) (f : Station → Station) : (modStation n k f).sAt = n.sAt := rfl
@[simp] theorem modStation_bAt (k : Nat) (f : Station → Station) : (modStation n k f).bAt = n.bAt := rfl
@[simp] theorem modStation_regs (k : Nat) (f : Station → Station) : (modStation n k f).regs = n.regs := rfl
@[simp] theorem modStation_staged (k : Nat) (f : Station → Station) : (modStation n k f).staged = n.staged := rfl
@[simp] theorem modStation_headers (k : Nat) (f : Station → Station) : (modStation n k f).headers = n.headers := rfl
@[simp] theorem modStation_seqs (k : Nat) (f : Station → Station) : (modStation n k f).seqs = n.seqs := rfl
@[simp] theorem modStation_cmds (k : Nat) (f : Station → Station) : (modStation n k f).cmds = n.cmds := rfl
@[simp] theorem modStation_acts (k : Nat) (f : Station → Station) : (modStation n k f).acts = n.acts := rfl
@[simp] theorem modStation_vectors (k : Nat) (f : Station → Station) : (modStation n k f).vectors = n.vectors := rfl
@[simp] theorem modStation_endpoint (k : Nat) (f : Station → Station) : (modStation n k f).endpoint = n.endpoint := rfl
@[simp] theorem modStation_unshown (k : Nat) (f : Station → Station) : (modStation n k f).unshown = n.unshown := rfl
@[simp] theorem modStation_unshownStaged (k : Nat) (f : Station → Station) : (modStation n k f).unshownStaged = n.unshownStaged := rfl
@[simp] theorem modStation_readHold (k : Nat) (f : Station → Station) : (modStation n k f).readHold = n.readHold := rfl
@[simp] theorem modStation_writeHold (k : Nat) (f : Station → Station) : (modStation n k f).writeHold = n.writeHold := rfl
@[simp] theorem modStation_mgt (k : Nat) (f : Station → Station) : (modStation n k f).mgt = n.mgt := rfl
@[simp] theorem modStation_mirror (k : Nat) (f : Station → Station) : (modStation n k f).mirror = n.mirror := rfl
@[simp] theorem modStation_rec_ (k : Nat) (f : Station → Station) : (modStation n k f).rec_ = n.rec_ := rfl
@[simp] theorem modStation_tb (k : Nat) (f : Station → Station) : (modStation n k f).tb = n.tb := rfl
@[simp] theorem modStation_launches (k : Nat) (f : Station → Station) : (modStation n k f).launches = n.launches := rfl
@[simp] theorem modStation_lchLast (k : Nat) (f : Station → Station) : (modStation n k f).lchLast = n.lchLast := rfl
@[simp] theorem modStation_ranks (k : Nat) (f : Station → Station) : (modStation n k f).ranks = n.ranks := rfl
@[simp] theorem modStation_fronts (k : Nat) (f : Station → Station) : (modStation n k f).fronts = n.fronts := rfl
@[simp] theorem modStation_acqs (k : Nat) (f : Station → Station) : (modStation n k f).acqs = n.acqs := rfl
@[simp] theorem modStation_diags (k : Nat) (f : Station → Station) : (modStation n k f).diags = n.diags := rfl
@[simp] theorem modStation_stages (k : Nat) (f : Station → Station) : (modStation n k f).stages = n.stages := rfl
@[simp] theorem modStation_res (k : Nat) (f : Station → Station) : (modStation n k f).res = n.res := rfl
@[simp] theorem modStation_resHead (k : Nat) (f : Station → Station) : (modStation n k f).resHead = n.resHead := rfl
@[simp] theorem modStation_late (k : Nat) (f : Station → Station) : (modStation n k f).late = n.late := rfl
@[simp] theorem modStation_peers (k : Nat) (f : Station → Station) : (modStation n k f).peers = n.peers := rfl
@[simp] theorem modStation_peerMsgs (k : Nat) (f : Station → Station) : (modStation n k f).peerMsgs = n.peerMsgs := rfl
@[simp] theorem modStation_points (k : Nat) (f : Station → Station) : (modStation n k f).points = n.points := rfl
@[simp] theorem modStation_groups (k : Nat) (f : Station → Station) : (modStation n k f).groups = n.groups := rfl
@[simp] theorem modStation_remoteFos (k : Nat) (f : Station → Station) : (modStation n k f).remoteFos = n.remoteFos := rfl
@[simp] theorem modStation_remoteActs (k : Nat) (f : Station → Station) : (modStation n k f).remoteActs = n.remoteActs := rfl
@[simp] theorem modStation_almCnt (k : Nat) (f : Station → Station) : (modStation n k f).almCnt = n.almCnt := rfl
@[simp] theorem modStation_call (k : Nat) (f : Station → Station) : (modStation n k f).call = n.call := rfl
@[simp] theorem modStation_stations (k : Nat) (f : Station → Station) : (modStation n k f).stations = tmod {} n.stations k f := rfl
@[simp] theorem modStation_safety (k : Nat) (f : Station → Station) : (modStation n k f).safety = n.safety := rfl
@[simp] theorem modStation_lanes (k : Nat) (f : Station → Station) : (modStation n k f).lanes = n.lanes := rfl
@[simp] theorem modStation_laneSt (k : Nat) (f : Station → Station) : (modStation n k f).laneSt = n.laneSt := rfl
@[simp] theorem modStation_duplex (k : Nat) (f : Station → Station) : (modStation n k f).duplex = n.duplex := rfl
@[simp] theorem modStation_cans (k : Nat) (f : Station → Station) : (modStation n k f).cans = n.cans := rfl
@[simp] theorem modStation_tsRef (k : Nat) (f : Station → Station) : (modStation n k f).tsRef = n.tsRef := rfl
@[simp] theorem modStation_net (k : Nat) (f : Station → Station) : (modStation n k f).net = n.net := rfl
@[simp] theorem modStation_config (k : Nat) (f : Station → Station) : (modStation n k f).config = n.config := rfl
@[simp] theorem modStation_nodeSt (k : Nat) (f : Station → Station) : (modStation n k f).nodeSt = n.nodeSt := rfl
@[simp] theorem modStation_power (k : Nat) (f : Station → Station) : (modStation n k f).power = n.power := rfl
@[simp] theorem modStation_dueB (k : Nat) (f : Station → Station) : (modStation n k f).dueB = n.dueB := rfl
@[simp] theorem modStation_dueR (k : Nat) (f : Station → Station) : (modStation n k f).dueR = n.dueR := rfl
@[simp] theorem modStation_free (k : Nat) (f : Station → Station) : (modStation n k f).free = n.free := rfl
@[simp] theorem modStation_outs (k : Nat) (f : Station → Station) : (modStation n k f).outs = n.outs := rfl

@[simp] theorem modLaunch_now (k : Nat) (f : Launch → Launch) : (modLaunch n k f).now = n.now := rfl
@[simp] theorem modLaunch_taiOff (k : Nat) (f : Launch → Launch) : (modLaunch n k f).taiOff = n.taiOff := rfl
@[simp] theorem modLaunch_slewFrom (k : Nat) (f : Launch → Launch) : (modLaunch n k f).slewFrom = n.slewFrom := rfl
@[simp] theorem modLaunch_slewBy (k : Nat) (f : Launch → Launch) : (modLaunch n k f).slewBy = n.slewBy := rfl
@[simp] theorem modLaunch_frame (k : Nat) (f : Launch → Launch) : (modLaunch n k f).frame = n.frame := rfl
@[simp] theorem modLaunch_period (k : Nat) (f : Launch → Launch) : (modLaunch n k f).period = n.period := rfl
@[simp] theorem modLaunch_sampleT (k : Nat) (f : Launch → Launch) : (modLaunch n k f).sampleT = n.sampleT := rfl
@[simp] theorem modLaunch_sAt (k : Nat) (f : Launch → Launch) : (modLaunch n k f).sAt = n.sAt := rfl
@[simp] theorem modLaunch_bAt (k : Nat) (f : Launch → Launch) : (modLaunch n k f).bAt = n.bAt := rfl
@[simp] theorem modLaunch_regs (k : Nat) (f : Launch → Launch) : (modLaunch n k f).regs = n.regs := rfl
@[simp] theorem modLaunch_staged (k : Nat) (f : Launch → Launch) : (modLaunch n k f).staged = n.staged := rfl
@[simp] theorem modLaunch_headers (k : Nat) (f : Launch → Launch) : (modLaunch n k f).headers = n.headers := rfl
@[simp] theorem modLaunch_seqs (k : Nat) (f : Launch → Launch) : (modLaunch n k f).seqs = n.seqs := rfl
@[simp] theorem modLaunch_cmds (k : Nat) (f : Launch → Launch) : (modLaunch n k f).cmds = n.cmds := rfl
@[simp] theorem modLaunch_acts (k : Nat) (f : Launch → Launch) : (modLaunch n k f).acts = n.acts := rfl
@[simp] theorem modLaunch_vectors (k : Nat) (f : Launch → Launch) : (modLaunch n k f).vectors = n.vectors := rfl
@[simp] theorem modLaunch_endpoint (k : Nat) (f : Launch → Launch) : (modLaunch n k f).endpoint = n.endpoint := rfl
@[simp] theorem modLaunch_unshown (k : Nat) (f : Launch → Launch) : (modLaunch n k f).unshown = n.unshown := rfl
@[simp] theorem modLaunch_unshownStaged (k : Nat) (f : Launch → Launch) : (modLaunch n k f).unshownStaged = n.unshownStaged := rfl
@[simp] theorem modLaunch_readHold (k : Nat) (f : Launch → Launch) : (modLaunch n k f).readHold = n.readHold := rfl
@[simp] theorem modLaunch_writeHold (k : Nat) (f : Launch → Launch) : (modLaunch n k f).writeHold = n.writeHold := rfl
@[simp] theorem modLaunch_mgt (k : Nat) (f : Launch → Launch) : (modLaunch n k f).mgt = n.mgt := rfl
@[simp] theorem modLaunch_mirror (k : Nat) (f : Launch → Launch) : (modLaunch n k f).mirror = n.mirror := rfl
@[simp] theorem modLaunch_rec_ (k : Nat) (f : Launch → Launch) : (modLaunch n k f).rec_ = n.rec_ := rfl
@[simp] theorem modLaunch_tb (k : Nat) (f : Launch → Launch) : (modLaunch n k f).tb = n.tb := rfl
@[simp] theorem modLaunch_launches (k : Nat) (f : Launch → Launch) : (modLaunch n k f).launches = tmod {} n.launches k f := rfl
@[simp] theorem modLaunch_lchLast (k : Nat) (f : Launch → Launch) : (modLaunch n k f).lchLast = n.lchLast := rfl
@[simp] theorem modLaunch_ranks (k : Nat) (f : Launch → Launch) : (modLaunch n k f).ranks = n.ranks := rfl
@[simp] theorem modLaunch_fronts (k : Nat) (f : Launch → Launch) : (modLaunch n k f).fronts = n.fronts := rfl
@[simp] theorem modLaunch_acqs (k : Nat) (f : Launch → Launch) : (modLaunch n k f).acqs = n.acqs := rfl
@[simp] theorem modLaunch_diags (k : Nat) (f : Launch → Launch) : (modLaunch n k f).diags = n.diags := rfl
@[simp] theorem modLaunch_stages (k : Nat) (f : Launch → Launch) : (modLaunch n k f).stages = n.stages := rfl
@[simp] theorem modLaunch_res (k : Nat) (f : Launch → Launch) : (modLaunch n k f).res = n.res := rfl
@[simp] theorem modLaunch_resHead (k : Nat) (f : Launch → Launch) : (modLaunch n k f).resHead = n.resHead := rfl
@[simp] theorem modLaunch_late (k : Nat) (f : Launch → Launch) : (modLaunch n k f).late = n.late := rfl
@[simp] theorem modLaunch_peers (k : Nat) (f : Launch → Launch) : (modLaunch n k f).peers = n.peers := rfl
@[simp] theorem modLaunch_peerMsgs (k : Nat) (f : Launch → Launch) : (modLaunch n k f).peerMsgs = n.peerMsgs := rfl
@[simp] theorem modLaunch_points (k : Nat) (f : Launch → Launch) : (modLaunch n k f).points = n.points := rfl
@[simp] theorem modLaunch_groups (k : Nat) (f : Launch → Launch) : (modLaunch n k f).groups = n.groups := rfl
@[simp] theorem modLaunch_remoteFos (k : Nat) (f : Launch → Launch) : (modLaunch n k f).remoteFos = n.remoteFos := rfl
@[simp] theorem modLaunch_remoteActs (k : Nat) (f : Launch → Launch) : (modLaunch n k f).remoteActs = n.remoteActs := rfl
@[simp] theorem modLaunch_almCnt (k : Nat) (f : Launch → Launch) : (modLaunch n k f).almCnt = n.almCnt := rfl
@[simp] theorem modLaunch_call (k : Nat) (f : Launch → Launch) : (modLaunch n k f).call = n.call := rfl
@[simp] theorem modLaunch_stations (k : Nat) (f : Launch → Launch) : (modLaunch n k f).stations = n.stations := rfl
@[simp] theorem modLaunch_safety (k : Nat) (f : Launch → Launch) : (modLaunch n k f).safety = n.safety := rfl
@[simp] theorem modLaunch_lanes (k : Nat) (f : Launch → Launch) : (modLaunch n k f).lanes = n.lanes := rfl
@[simp] theorem modLaunch_laneSt (k : Nat) (f : Launch → Launch) : (modLaunch n k f).laneSt = n.laneSt := rfl
@[simp] theorem modLaunch_duplex (k : Nat) (f : Launch → Launch) : (modLaunch n k f).duplex = n.duplex := rfl
@[simp] theorem modLaunch_cans (k : Nat) (f : Launch → Launch) : (modLaunch n k f).cans = n.cans := rfl
@[simp] theorem modLaunch_tsRef (k : Nat) (f : Launch → Launch) : (modLaunch n k f).tsRef = n.tsRef := rfl
@[simp] theorem modLaunch_net (k : Nat) (f : Launch → Launch) : (modLaunch n k f).net = n.net := rfl
@[simp] theorem modLaunch_config (k : Nat) (f : Launch → Launch) : (modLaunch n k f).config = n.config := rfl
@[simp] theorem modLaunch_nodeSt (k : Nat) (f : Launch → Launch) : (modLaunch n k f).nodeSt = n.nodeSt := rfl
@[simp] theorem modLaunch_power (k : Nat) (f : Launch → Launch) : (modLaunch n k f).power = n.power := rfl
@[simp] theorem modLaunch_dueB (k : Nat) (f : Launch → Launch) : (modLaunch n k f).dueB = n.dueB := rfl
@[simp] theorem modLaunch_dueR (k : Nat) (f : Launch → Launch) : (modLaunch n k f).dueR = n.dueR := rfl
@[simp] theorem modLaunch_free (k : Nat) (f : Launch → Launch) : (modLaunch n k f).free = n.free := rfl
@[simp] theorem modLaunch_outs (k : Nat) (f : Launch → Launch) : (modLaunch n k f).outs = n.outs := rfl

@[simp] theorem modLane_now (k : Nat) (f : Lane → Lane) : (modLane n k f).now = n.now := rfl
@[simp] theorem modLane_taiOff (k : Nat) (f : Lane → Lane) : (modLane n k f).taiOff = n.taiOff := rfl
@[simp] theorem modLane_slewFrom (k : Nat) (f : Lane → Lane) : (modLane n k f).slewFrom = n.slewFrom := rfl
@[simp] theorem modLane_slewBy (k : Nat) (f : Lane → Lane) : (modLane n k f).slewBy = n.slewBy := rfl
@[simp] theorem modLane_frame (k : Nat) (f : Lane → Lane) : (modLane n k f).frame = n.frame := rfl
@[simp] theorem modLane_period (k : Nat) (f : Lane → Lane) : (modLane n k f).period = n.period := rfl
@[simp] theorem modLane_sampleT (k : Nat) (f : Lane → Lane) : (modLane n k f).sampleT = n.sampleT := rfl
@[simp] theorem modLane_sAt (k : Nat) (f : Lane → Lane) : (modLane n k f).sAt = n.sAt := rfl
@[simp] theorem modLane_bAt (k : Nat) (f : Lane → Lane) : (modLane n k f).bAt = n.bAt := rfl
@[simp] theorem modLane_regs (k : Nat) (f : Lane → Lane) : (modLane n k f).regs = n.regs := rfl
@[simp] theorem modLane_staged (k : Nat) (f : Lane → Lane) : (modLane n k f).staged = n.staged := rfl
@[simp] theorem modLane_headers (k : Nat) (f : Lane → Lane) : (modLane n k f).headers = n.headers := rfl
@[simp] theorem modLane_seqs (k : Nat) (f : Lane → Lane) : (modLane n k f).seqs = n.seqs := rfl
@[simp] theorem modLane_cmds (k : Nat) (f : Lane → Lane) : (modLane n k f).cmds = n.cmds := rfl
@[simp] theorem modLane_acts (k : Nat) (f : Lane → Lane) : (modLane n k f).acts = n.acts := rfl
@[simp] theorem modLane_vectors (k : Nat) (f : Lane → Lane) : (modLane n k f).vectors = n.vectors := rfl
@[simp] theorem modLane_endpoint (k : Nat) (f : Lane → Lane) : (modLane n k f).endpoint = n.endpoint := rfl
@[simp] theorem modLane_unshown (k : Nat) (f : Lane → Lane) : (modLane n k f).unshown = n.unshown := rfl
@[simp] theorem modLane_unshownStaged (k : Nat) (f : Lane → Lane) : (modLane n k f).unshownStaged = n.unshownStaged := rfl
@[simp] theorem modLane_readHold (k : Nat) (f : Lane → Lane) : (modLane n k f).readHold = n.readHold := rfl
@[simp] theorem modLane_writeHold (k : Nat) (f : Lane → Lane) : (modLane n k f).writeHold = n.writeHold := rfl
@[simp] theorem modLane_mgt (k : Nat) (f : Lane → Lane) : (modLane n k f).mgt = n.mgt := rfl
@[simp] theorem modLane_mirror (k : Nat) (f : Lane → Lane) : (modLane n k f).mirror = n.mirror := rfl
@[simp] theorem modLane_rec_ (k : Nat) (f : Lane → Lane) : (modLane n k f).rec_ = n.rec_ := rfl
@[simp] theorem modLane_tb (k : Nat) (f : Lane → Lane) : (modLane n k f).tb = n.tb := rfl
@[simp] theorem modLane_launches (k : Nat) (f : Lane → Lane) : (modLane n k f).launches = n.launches := rfl
@[simp] theorem modLane_lchLast (k : Nat) (f : Lane → Lane) : (modLane n k f).lchLast = n.lchLast := rfl
@[simp] theorem modLane_ranks (k : Nat) (f : Lane → Lane) : (modLane n k f).ranks = n.ranks := rfl
@[simp] theorem modLane_fronts (k : Nat) (f : Lane → Lane) : (modLane n k f).fronts = n.fronts := rfl
@[simp] theorem modLane_acqs (k : Nat) (f : Lane → Lane) : (modLane n k f).acqs = n.acqs := rfl
@[simp] theorem modLane_diags (k : Nat) (f : Lane → Lane) : (modLane n k f).diags = n.diags := rfl
@[simp] theorem modLane_stages (k : Nat) (f : Lane → Lane) : (modLane n k f).stages = n.stages := rfl
@[simp] theorem modLane_res (k : Nat) (f : Lane → Lane) : (modLane n k f).res = n.res := rfl
@[simp] theorem modLane_resHead (k : Nat) (f : Lane → Lane) : (modLane n k f).resHead = n.resHead := rfl
@[simp] theorem modLane_late (k : Nat) (f : Lane → Lane) : (modLane n k f).late = n.late := rfl
@[simp] theorem modLane_peers (k : Nat) (f : Lane → Lane) : (modLane n k f).peers = n.peers := rfl
@[simp] theorem modLane_peerMsgs (k : Nat) (f : Lane → Lane) : (modLane n k f).peerMsgs = n.peerMsgs := rfl
@[simp] theorem modLane_points (k : Nat) (f : Lane → Lane) : (modLane n k f).points = n.points := rfl
@[simp] theorem modLane_groups (k : Nat) (f : Lane → Lane) : (modLane n k f).groups = n.groups := rfl
@[simp] theorem modLane_remoteFos (k : Nat) (f : Lane → Lane) : (modLane n k f).remoteFos = n.remoteFos := rfl
@[simp] theorem modLane_remoteActs (k : Nat) (f : Lane → Lane) : (modLane n k f).remoteActs = n.remoteActs := rfl
@[simp] theorem modLane_almCnt (k : Nat) (f : Lane → Lane) : (modLane n k f).almCnt = n.almCnt := rfl
@[simp] theorem modLane_call (k : Nat) (f : Lane → Lane) : (modLane n k f).call = n.call := rfl
@[simp] theorem modLane_stations (k : Nat) (f : Lane → Lane) : (modLane n k f).stations = n.stations := rfl
@[simp] theorem modLane_safety (k : Nat) (f : Lane → Lane) : (modLane n k f).safety = n.safety := rfl
@[simp] theorem modLane_lanes (k : Nat) (f : Lane → Lane) : (modLane n k f).lanes = tmod {} n.lanes k f := rfl
@[simp] theorem modLane_laneSt (k : Nat) (f : Lane → Lane) : (modLane n k f).laneSt = n.laneSt := rfl
@[simp] theorem modLane_duplex (k : Nat) (f : Lane → Lane) : (modLane n k f).duplex = n.duplex := rfl
@[simp] theorem modLane_cans (k : Nat) (f : Lane → Lane) : (modLane n k f).cans = n.cans := rfl
@[simp] theorem modLane_tsRef (k : Nat) (f : Lane → Lane) : (modLane n k f).tsRef = n.tsRef := rfl
@[simp] theorem modLane_net (k : Nat) (f : Lane → Lane) : (modLane n k f).net = n.net := rfl
@[simp] theorem modLane_config (k : Nat) (f : Lane → Lane) : (modLane n k f).config = n.config := rfl
@[simp] theorem modLane_nodeSt (k : Nat) (f : Lane → Lane) : (modLane n k f).nodeSt = n.nodeSt := rfl
@[simp] theorem modLane_power (k : Nat) (f : Lane → Lane) : (modLane n k f).power = n.power := rfl
@[simp] theorem modLane_dueB (k : Nat) (f : Lane → Lane) : (modLane n k f).dueB = n.dueB := rfl
@[simp] theorem modLane_dueR (k : Nat) (f : Lane → Lane) : (modLane n k f).dueR = n.dueR := rfl
@[simp] theorem modLane_free (k : Nat) (f : Lane → Lane) : (modLane n k f).free = n.free := rfl
@[simp] theorem modLane_outs (k : Nat) (f : Lane → Lane) : (modLane n k f).outs = n.outs := rfl

@[simp] theorem modCan_now (k : Nat) (f : CanCtl → CanCtl) : (modCan n k f).now = n.now := rfl
@[simp] theorem modCan_taiOff (k : Nat) (f : CanCtl → CanCtl) : (modCan n k f).taiOff = n.taiOff := rfl
@[simp] theorem modCan_slewFrom (k : Nat) (f : CanCtl → CanCtl) : (modCan n k f).slewFrom = n.slewFrom := rfl
@[simp] theorem modCan_slewBy (k : Nat) (f : CanCtl → CanCtl) : (modCan n k f).slewBy = n.slewBy := rfl
@[simp] theorem modCan_frame (k : Nat) (f : CanCtl → CanCtl) : (modCan n k f).frame = n.frame := rfl
@[simp] theorem modCan_period (k : Nat) (f : CanCtl → CanCtl) : (modCan n k f).period = n.period := rfl
@[simp] theorem modCan_sampleT (k : Nat) (f : CanCtl → CanCtl) : (modCan n k f).sampleT = n.sampleT := rfl
@[simp] theorem modCan_sAt (k : Nat) (f : CanCtl → CanCtl) : (modCan n k f).sAt = n.sAt := rfl
@[simp] theorem modCan_bAt (k : Nat) (f : CanCtl → CanCtl) : (modCan n k f).bAt = n.bAt := rfl
@[simp] theorem modCan_regs (k : Nat) (f : CanCtl → CanCtl) : (modCan n k f).regs = n.regs := rfl
@[simp] theorem modCan_staged (k : Nat) (f : CanCtl → CanCtl) : (modCan n k f).staged = n.staged := rfl
@[simp] theorem modCan_headers (k : Nat) (f : CanCtl → CanCtl) : (modCan n k f).headers = n.headers := rfl
@[simp] theorem modCan_seqs (k : Nat) (f : CanCtl → CanCtl) : (modCan n k f).seqs = n.seqs := rfl
@[simp] theorem modCan_cmds (k : Nat) (f : CanCtl → CanCtl) : (modCan n k f).cmds = n.cmds := rfl
@[simp] theorem modCan_acts (k : Nat) (f : CanCtl → CanCtl) : (modCan n k f).acts = n.acts := rfl
@[simp] theorem modCan_vectors (k : Nat) (f : CanCtl → CanCtl) : (modCan n k f).vectors = n.vectors := rfl
@[simp] theorem modCan_endpoint (k : Nat) (f : CanCtl → CanCtl) : (modCan n k f).endpoint = n.endpoint := rfl
@[simp] theorem modCan_unshown (k : Nat) (f : CanCtl → CanCtl) : (modCan n k f).unshown = n.unshown := rfl
@[simp] theorem modCan_unshownStaged (k : Nat) (f : CanCtl → CanCtl) : (modCan n k f).unshownStaged = n.unshownStaged := rfl
@[simp] theorem modCan_readHold (k : Nat) (f : CanCtl → CanCtl) : (modCan n k f).readHold = n.readHold := rfl
@[simp] theorem modCan_writeHold (k : Nat) (f : CanCtl → CanCtl) : (modCan n k f).writeHold = n.writeHold := rfl
@[simp] theorem modCan_mgt (k : Nat) (f : CanCtl → CanCtl) : (modCan n k f).mgt = n.mgt := rfl
@[simp] theorem modCan_mirror (k : Nat) (f : CanCtl → CanCtl) : (modCan n k f).mirror = n.mirror := rfl
@[simp] theorem modCan_rec_ (k : Nat) (f : CanCtl → CanCtl) : (modCan n k f).rec_ = n.rec_ := rfl
@[simp] theorem modCan_tb (k : Nat) (f : CanCtl → CanCtl) : (modCan n k f).tb = n.tb := rfl
@[simp] theorem modCan_launches (k : Nat) (f : CanCtl → CanCtl) : (modCan n k f).launches = n.launches := rfl
@[simp] theorem modCan_lchLast (k : Nat) (f : CanCtl → CanCtl) : (modCan n k f).lchLast = n.lchLast := rfl
@[simp] theorem modCan_ranks (k : Nat) (f : CanCtl → CanCtl) : (modCan n k f).ranks = n.ranks := rfl
@[simp] theorem modCan_fronts (k : Nat) (f : CanCtl → CanCtl) : (modCan n k f).fronts = n.fronts := rfl
@[simp] theorem modCan_acqs (k : Nat) (f : CanCtl → CanCtl) : (modCan n k f).acqs = n.acqs := rfl
@[simp] theorem modCan_diags (k : Nat) (f : CanCtl → CanCtl) : (modCan n k f).diags = n.diags := rfl
@[simp] theorem modCan_stages (k : Nat) (f : CanCtl → CanCtl) : (modCan n k f).stages = n.stages := rfl
@[simp] theorem modCan_res (k : Nat) (f : CanCtl → CanCtl) : (modCan n k f).res = n.res := rfl
@[simp] theorem modCan_resHead (k : Nat) (f : CanCtl → CanCtl) : (modCan n k f).resHead = n.resHead := rfl
@[simp] theorem modCan_late (k : Nat) (f : CanCtl → CanCtl) : (modCan n k f).late = n.late := rfl
@[simp] theorem modCan_peers (k : Nat) (f : CanCtl → CanCtl) : (modCan n k f).peers = n.peers := rfl
@[simp] theorem modCan_peerMsgs (k : Nat) (f : CanCtl → CanCtl) : (modCan n k f).peerMsgs = n.peerMsgs := rfl
@[simp] theorem modCan_points (k : Nat) (f : CanCtl → CanCtl) : (modCan n k f).points = n.points := rfl
@[simp] theorem modCan_groups (k : Nat) (f : CanCtl → CanCtl) : (modCan n k f).groups = n.groups := rfl
@[simp] theorem modCan_remoteFos (k : Nat) (f : CanCtl → CanCtl) : (modCan n k f).remoteFos = n.remoteFos := rfl
@[simp] theorem modCan_remoteActs (k : Nat) (f : CanCtl → CanCtl) : (modCan n k f).remoteActs = n.remoteActs := rfl
@[simp] theorem modCan_almCnt (k : Nat) (f : CanCtl → CanCtl) : (modCan n k f).almCnt = n.almCnt := rfl
@[simp] theorem modCan_call (k : Nat) (f : CanCtl → CanCtl) : (modCan n k f).call = n.call := rfl
@[simp] theorem modCan_stations (k : Nat) (f : CanCtl → CanCtl) : (modCan n k f).stations = n.stations := rfl
@[simp] theorem modCan_safety (k : Nat) (f : CanCtl → CanCtl) : (modCan n k f).safety = n.safety := rfl
@[simp] theorem modCan_lanes (k : Nat) (f : CanCtl → CanCtl) : (modCan n k f).lanes = n.lanes := rfl
@[simp] theorem modCan_laneSt (k : Nat) (f : CanCtl → CanCtl) : (modCan n k f).laneSt = n.laneSt := rfl
@[simp] theorem modCan_duplex (k : Nat) (f : CanCtl → CanCtl) : (modCan n k f).duplex = n.duplex := rfl
@[simp] theorem modCan_cans (k : Nat) (f : CanCtl → CanCtl) : (modCan n k f).cans = tmod {} n.cans k f := rfl
@[simp] theorem modCan_tsRef (k : Nat) (f : CanCtl → CanCtl) : (modCan n k f).tsRef = n.tsRef := rfl
@[simp] theorem modCan_net (k : Nat) (f : CanCtl → CanCtl) : (modCan n k f).net = n.net := rfl
@[simp] theorem modCan_config (k : Nat) (f : CanCtl → CanCtl) : (modCan n k f).config = n.config := rfl
@[simp] theorem modCan_nodeSt (k : Nat) (f : CanCtl → CanCtl) : (modCan n k f).nodeSt = n.nodeSt := rfl
@[simp] theorem modCan_power (k : Nat) (f : CanCtl → CanCtl) : (modCan n k f).power = n.power := rfl
@[simp] theorem modCan_dueB (k : Nat) (f : CanCtl → CanCtl) : (modCan n k f).dueB = n.dueB := rfl
@[simp] theorem modCan_dueR (k : Nat) (f : CanCtl → CanCtl) : (modCan n k f).dueR = n.dueR := rfl
@[simp] theorem modCan_free (k : Nat) (f : CanCtl → CanCtl) : (modCan n k f).free = n.free := rfl
@[simp] theorem modCan_outs (k : Nat) (f : CanCtl → CanCtl) : (modCan n k f).outs = n.outs := rfl

@[simp] theorem setRes_now (k : Nat) (r : Result) : (setRes n k r).now = n.now := rfl
@[simp] theorem setRes_taiOff (k : Nat) (r : Result) : (setRes n k r).taiOff = n.taiOff := rfl
@[simp] theorem setRes_slewFrom (k : Nat) (r : Result) : (setRes n k r).slewFrom = n.slewFrom := rfl
@[simp] theorem setRes_slewBy (k : Nat) (r : Result) : (setRes n k r).slewBy = n.slewBy := rfl
@[simp] theorem setRes_frame (k : Nat) (r : Result) : (setRes n k r).frame = n.frame := rfl
@[simp] theorem setRes_period (k : Nat) (r : Result) : (setRes n k r).period = n.period := rfl
@[simp] theorem setRes_sampleT (k : Nat) (r : Result) : (setRes n k r).sampleT = n.sampleT := rfl
@[simp] theorem setRes_sAt (k : Nat) (r : Result) : (setRes n k r).sAt = n.sAt := rfl
@[simp] theorem setRes_bAt (k : Nat) (r : Result) : (setRes n k r).bAt = n.bAt := rfl
@[simp] theorem setRes_regs (k : Nat) (r : Result) : (setRes n k r).regs = n.regs := rfl
@[simp] theorem setRes_staged (k : Nat) (r : Result) : (setRes n k r).staged = n.staged := rfl
@[simp] theorem setRes_headers (k : Nat) (r : Result) : (setRes n k r).headers = n.headers := rfl
@[simp] theorem setRes_seqs (k : Nat) (r : Result) : (setRes n k r).seqs = n.seqs := rfl
@[simp] theorem setRes_cmds (k : Nat) (r : Result) : (setRes n k r).cmds = n.cmds := rfl
@[simp] theorem setRes_acts (k : Nat) (r : Result) : (setRes n k r).acts = n.acts := rfl
@[simp] theorem setRes_vectors (k : Nat) (r : Result) : (setRes n k r).vectors = n.vectors := rfl
@[simp] theorem setRes_endpoint (k : Nat) (r : Result) : (setRes n k r).endpoint = n.endpoint := rfl
@[simp] theorem setRes_unshown (k : Nat) (r : Result) : (setRes n k r).unshown = n.unshown := rfl
@[simp] theorem setRes_unshownStaged (k : Nat) (r : Result) : (setRes n k r).unshownStaged = n.unshownStaged := rfl
@[simp] theorem setRes_readHold (k : Nat) (r : Result) : (setRes n k r).readHold = n.readHold := rfl
@[simp] theorem setRes_writeHold (k : Nat) (r : Result) : (setRes n k r).writeHold = n.writeHold := rfl
@[simp] theorem setRes_mgt (k : Nat) (r : Result) : (setRes n k r).mgt = n.mgt := rfl
@[simp] theorem setRes_mirror (k : Nat) (r : Result) : (setRes n k r).mirror = n.mirror := rfl
@[simp] theorem setRes_rec_ (k : Nat) (r : Result) : (setRes n k r).rec_ = n.rec_ := rfl
@[simp] theorem setRes_tb (k : Nat) (r : Result) : (setRes n k r).tb = n.tb := rfl
@[simp] theorem setRes_launches (k : Nat) (r : Result) : (setRes n k r).launches = n.launches := rfl
@[simp] theorem setRes_lchLast (k : Nat) (r : Result) : (setRes n k r).lchLast = n.lchLast := rfl
@[simp] theorem setRes_ranks (k : Nat) (r : Result) : (setRes n k r).ranks = n.ranks := rfl
@[simp] theorem setRes_fronts (k : Nat) (r : Result) : (setRes n k r).fronts = n.fronts := rfl
@[simp] theorem setRes_acqs (k : Nat) (r : Result) : (setRes n k r).acqs = n.acqs := rfl
@[simp] theorem setRes_diags (k : Nat) (r : Result) : (setRes n k r).diags = n.diags := rfl
@[simp] theorem setRes_stages (k : Nat) (r : Result) : (setRes n k r).stages = n.stages := rfl
@[simp] theorem setRes_res (k : Nat) (r : Result) : (setRes n k r).res = tset {} n.res k r := rfl
@[simp] theorem setRes_resHead (k : Nat) (r : Result) : (setRes n k r).resHead = n.resHead := rfl
@[simp] theorem setRes_late (k : Nat) (r : Result) : (setRes n k r).late = n.late := rfl
@[simp] theorem setRes_peers (k : Nat) (r : Result) : (setRes n k r).peers = n.peers := rfl
@[simp] theorem setRes_peerMsgs (k : Nat) (r : Result) : (setRes n k r).peerMsgs = n.peerMsgs := rfl
@[simp] theorem setRes_points (k : Nat) (r : Result) : (setRes n k r).points = n.points := rfl
@[simp] theorem setRes_groups (k : Nat) (r : Result) : (setRes n k r).groups = n.groups := rfl
@[simp] theorem setRes_remoteFos (k : Nat) (r : Result) : (setRes n k r).remoteFos = n.remoteFos := rfl
@[simp] theorem setRes_remoteActs (k : Nat) (r : Result) : (setRes n k r).remoteActs = n.remoteActs := rfl
@[simp] theorem setRes_almCnt (k : Nat) (r : Result) : (setRes n k r).almCnt = n.almCnt := rfl
@[simp] theorem setRes_call (k : Nat) (r : Result) : (setRes n k r).call = n.call := rfl
@[simp] theorem setRes_stations (k : Nat) (r : Result) : (setRes n k r).stations = n.stations := rfl
@[simp] theorem setRes_safety (k : Nat) (r : Result) : (setRes n k r).safety = n.safety := rfl
@[simp] theorem setRes_lanes (k : Nat) (r : Result) : (setRes n k r).lanes = n.lanes := rfl
@[simp] theorem setRes_laneSt (k : Nat) (r : Result) : (setRes n k r).laneSt = n.laneSt := rfl
@[simp] theorem setRes_duplex (k : Nat) (r : Result) : (setRes n k r).duplex = n.duplex := rfl
@[simp] theorem setRes_cans (k : Nat) (r : Result) : (setRes n k r).cans = n.cans := rfl
@[simp] theorem setRes_tsRef (k : Nat) (r : Result) : (setRes n k r).tsRef = n.tsRef := rfl
@[simp] theorem setRes_net (k : Nat) (r : Result) : (setRes n k r).net = n.net := rfl
@[simp] theorem setRes_config (k : Nat) (r : Result) : (setRes n k r).config = n.config := rfl
@[simp] theorem setRes_nodeSt (k : Nat) (r : Result) : (setRes n k r).nodeSt = n.nodeSt := rfl
@[simp] theorem setRes_power (k : Nat) (r : Result) : (setRes n k r).power = n.power := rfl
@[simp] theorem setRes_dueB (k : Nat) (r : Result) : (setRes n k r).dueB = n.dueB := rfl
@[simp] theorem setRes_dueR (k : Nat) (r : Result) : (setRes n k r).dueR = n.dueR := rfl
@[simp] theorem setRes_free (k : Nat) (r : Result) : (setRes n k r).free = n.free := rfl
@[simp] theorem setRes_outs (k : Nat) (r : Result) : (setRes n k r).outs = n.outs := rfl

@[simp] theorem modFn_now (k : Nat) (f : SafetyFn → SafetyFn) : (modFn n k f).now = n.now := rfl
@[simp] theorem modFn_taiOff (k : Nat) (f : SafetyFn → SafetyFn) : (modFn n k f).taiOff = n.taiOff := rfl
@[simp] theorem modFn_slewFrom (k : Nat) (f : SafetyFn → SafetyFn) : (modFn n k f).slewFrom = n.slewFrom := rfl
@[simp] theorem modFn_slewBy (k : Nat) (f : SafetyFn → SafetyFn) : (modFn n k f).slewBy = n.slewBy := rfl
@[simp] theorem modFn_frame (k : Nat) (f : SafetyFn → SafetyFn) : (modFn n k f).frame = n.frame := rfl
@[simp] theorem modFn_period (k : Nat) (f : SafetyFn → SafetyFn) : (modFn n k f).period = n.period := rfl
@[simp] theorem modFn_sampleT (k : Nat) (f : SafetyFn → SafetyFn) : (modFn n k f).sampleT = n.sampleT := rfl
@[simp] theorem modFn_sAt (k : Nat) (f : SafetyFn → SafetyFn) : (modFn n k f).sAt = n.sAt := rfl
@[simp] theorem modFn_bAt (k : Nat) (f : SafetyFn → SafetyFn) : (modFn n k f).bAt = n.bAt := rfl
@[simp] theorem modFn_regs (k : Nat) (f : SafetyFn → SafetyFn) : (modFn n k f).regs = n.regs := rfl
@[simp] theorem modFn_staged (k : Nat) (f : SafetyFn → SafetyFn) : (modFn n k f).staged = n.staged := rfl
@[simp] theorem modFn_headers (k : Nat) (f : SafetyFn → SafetyFn) : (modFn n k f).headers = n.headers := rfl
@[simp] theorem modFn_seqs (k : Nat) (f : SafetyFn → SafetyFn) : (modFn n k f).seqs = n.seqs := rfl
@[simp] theorem modFn_cmds (k : Nat) (f : SafetyFn → SafetyFn) : (modFn n k f).cmds = n.cmds := rfl
@[simp] theorem modFn_acts (k : Nat) (f : SafetyFn → SafetyFn) : (modFn n k f).acts = n.acts := rfl
@[simp] theorem modFn_vectors (k : Nat) (f : SafetyFn → SafetyFn) : (modFn n k f).vectors = n.vectors := rfl
@[simp] theorem modFn_endpoint (k : Nat) (f : SafetyFn → SafetyFn) : (modFn n k f).endpoint = n.endpoint := rfl
@[simp] theorem modFn_unshown (k : Nat) (f : SafetyFn → SafetyFn) : (modFn n k f).unshown = n.unshown := rfl
@[simp] theorem modFn_unshownStaged (k : Nat) (f : SafetyFn → SafetyFn) : (modFn n k f).unshownStaged = n.unshownStaged := rfl
@[simp] theorem modFn_readHold (k : Nat) (f : SafetyFn → SafetyFn) : (modFn n k f).readHold = n.readHold := rfl
@[simp] theorem modFn_writeHold (k : Nat) (f : SafetyFn → SafetyFn) : (modFn n k f).writeHold = n.writeHold := rfl
@[simp] theorem modFn_mgt (k : Nat) (f : SafetyFn → SafetyFn) : (modFn n k f).mgt = n.mgt := rfl
@[simp] theorem modFn_mirror (k : Nat) (f : SafetyFn → SafetyFn) : (modFn n k f).mirror = n.mirror := rfl
@[simp] theorem modFn_rec_ (k : Nat) (f : SafetyFn → SafetyFn) : (modFn n k f).rec_ = n.rec_ := rfl
@[simp] theorem modFn_tb (k : Nat) (f : SafetyFn → SafetyFn) : (modFn n k f).tb = n.tb := rfl
@[simp] theorem modFn_launches (k : Nat) (f : SafetyFn → SafetyFn) : (modFn n k f).launches = n.launches := rfl
@[simp] theorem modFn_lchLast (k : Nat) (f : SafetyFn → SafetyFn) : (modFn n k f).lchLast = n.lchLast := rfl
@[simp] theorem modFn_ranks (k : Nat) (f : SafetyFn → SafetyFn) : (modFn n k f).ranks = n.ranks := rfl
@[simp] theorem modFn_fronts (k : Nat) (f : SafetyFn → SafetyFn) : (modFn n k f).fronts = n.fronts := rfl
@[simp] theorem modFn_acqs (k : Nat) (f : SafetyFn → SafetyFn) : (modFn n k f).acqs = n.acqs := rfl
@[simp] theorem modFn_diags (k : Nat) (f : SafetyFn → SafetyFn) : (modFn n k f).diags = n.diags := rfl
@[simp] theorem modFn_stages (k : Nat) (f : SafetyFn → SafetyFn) : (modFn n k f).stages = n.stages := rfl
@[simp] theorem modFn_res (k : Nat) (f : SafetyFn → SafetyFn) : (modFn n k f).res = n.res := rfl
@[simp] theorem modFn_resHead (k : Nat) (f : SafetyFn → SafetyFn) : (modFn n k f).resHead = n.resHead := rfl
@[simp] theorem modFn_late (k : Nat) (f : SafetyFn → SafetyFn) : (modFn n k f).late = n.late := rfl
@[simp] theorem modFn_peers (k : Nat) (f : SafetyFn → SafetyFn) : (modFn n k f).peers = n.peers := rfl
@[simp] theorem modFn_peerMsgs (k : Nat) (f : SafetyFn → SafetyFn) : (modFn n k f).peerMsgs = n.peerMsgs := rfl
@[simp] theorem modFn_points (k : Nat) (f : SafetyFn → SafetyFn) : (modFn n k f).points = n.points := rfl
@[simp] theorem modFn_groups (k : Nat) (f : SafetyFn → SafetyFn) : (modFn n k f).groups = n.groups := rfl
@[simp] theorem modFn_remoteFos (k : Nat) (f : SafetyFn → SafetyFn) : (modFn n k f).remoteFos = n.remoteFos := rfl
@[simp] theorem modFn_remoteActs (k : Nat) (f : SafetyFn → SafetyFn) : (modFn n k f).remoteActs = n.remoteActs := rfl
@[simp] theorem modFn_almCnt (k : Nat) (f : SafetyFn → SafetyFn) : (modFn n k f).almCnt = n.almCnt := rfl
@[simp] theorem modFn_call (k : Nat) (f : SafetyFn → SafetyFn) : (modFn n k f).call = n.call := rfl
@[simp] theorem modFn_stations (k : Nat) (f : SafetyFn → SafetyFn) : (modFn n k f).stations = n.stations := rfl
@[simp] theorem modFn_lanes (k : Nat) (f : SafetyFn → SafetyFn) : (modFn n k f).lanes = n.lanes := rfl
@[simp] theorem modFn_laneSt (k : Nat) (f : SafetyFn → SafetyFn) : (modFn n k f).laneSt = n.laneSt := rfl
@[simp] theorem modFn_duplex (k : Nat) (f : SafetyFn → SafetyFn) : (modFn n k f).duplex = n.duplex := rfl
@[simp] theorem modFn_cans (k : Nat) (f : SafetyFn → SafetyFn) : (modFn n k f).cans = n.cans := rfl
@[simp] theorem modFn_tsRef (k : Nat) (f : SafetyFn → SafetyFn) : (modFn n k f).tsRef = n.tsRef := rfl
@[simp] theorem modFn_net (k : Nat) (f : SafetyFn → SafetyFn) : (modFn n k f).net = n.net := rfl
@[simp] theorem modFn_config (k : Nat) (f : SafetyFn → SafetyFn) : (modFn n k f).config = n.config := rfl
@[simp] theorem modFn_nodeSt (k : Nat) (f : SafetyFn → SafetyFn) : (modFn n k f).nodeSt = n.nodeSt := rfl
@[simp] theorem modFn_power (k : Nat) (f : SafetyFn → SafetyFn) : (modFn n k f).power = n.power := rfl
@[simp] theorem modFn_dueB (k : Nat) (f : SafetyFn → SafetyFn) : (modFn n k f).dueB = n.dueB := rfl
@[simp] theorem modFn_dueR (k : Nat) (f : SafetyFn → SafetyFn) : (modFn n k f).dueR = n.dueR := rfl
@[simp] theorem modFn_free (k : Nat) (f : SafetyFn → SafetyFn) : (modFn n k f).free = n.free := rfl
@[simp] theorem modFn_outs (k : Nat) (f : SafetyFn → SafetyFn) : (modFn n k f).outs = n.outs := rfl

@[simp] theorem modOutput_now (k : Nat) (f : Output → Output) : (modOutput n k f).now = n.now := rfl
@[simp] theorem modOutput_taiOff (k : Nat) (f : Output → Output) : (modOutput n k f).taiOff = n.taiOff := rfl
@[simp] theorem modOutput_slewFrom (k : Nat) (f : Output → Output) : (modOutput n k f).slewFrom = n.slewFrom := rfl
@[simp] theorem modOutput_slewBy (k : Nat) (f : Output → Output) : (modOutput n k f).slewBy = n.slewBy := rfl
@[simp] theorem modOutput_frame (k : Nat) (f : Output → Output) : (modOutput n k f).frame = n.frame := rfl
@[simp] theorem modOutput_period (k : Nat) (f : Output → Output) : (modOutput n k f).period = n.period := rfl
@[simp] theorem modOutput_sampleT (k : Nat) (f : Output → Output) : (modOutput n k f).sampleT = n.sampleT := rfl
@[simp] theorem modOutput_sAt (k : Nat) (f : Output → Output) : (modOutput n k f).sAt = n.sAt := rfl
@[simp] theorem modOutput_bAt (k : Nat) (f : Output → Output) : (modOutput n k f).bAt = n.bAt := rfl
@[simp] theorem modOutput_regs (k : Nat) (f : Output → Output) : (modOutput n k f).regs = n.regs := rfl
@[simp] theorem modOutput_staged (k : Nat) (f : Output → Output) : (modOutput n k f).staged = n.staged := rfl
@[simp] theorem modOutput_headers (k : Nat) (f : Output → Output) : (modOutput n k f).headers = n.headers := rfl
@[simp] theorem modOutput_seqs (k : Nat) (f : Output → Output) : (modOutput n k f).seqs = n.seqs := rfl
@[simp] theorem modOutput_cmds (k : Nat) (f : Output → Output) : (modOutput n k f).cmds = n.cmds := rfl
@[simp] theorem modOutput_acts (k : Nat) (f : Output → Output) : (modOutput n k f).acts = n.acts := rfl
@[simp] theorem modOutput_vectors (k : Nat) (f : Output → Output) : (modOutput n k f).vectors = n.vectors := rfl
@[simp] theorem modOutput_endpoint (k : Nat) (f : Output → Output) : (modOutput n k f).endpoint = n.endpoint := rfl
@[simp] theorem modOutput_unshown (k : Nat) (f : Output → Output) : (modOutput n k f).unshown = n.unshown := rfl
@[simp] theorem modOutput_unshownStaged (k : Nat) (f : Output → Output) : (modOutput n k f).unshownStaged = n.unshownStaged := rfl
@[simp] theorem modOutput_readHold (k : Nat) (f : Output → Output) : (modOutput n k f).readHold = n.readHold := rfl
@[simp] theorem modOutput_writeHold (k : Nat) (f : Output → Output) : (modOutput n k f).writeHold = n.writeHold := rfl
@[simp] theorem modOutput_mgt (k : Nat) (f : Output → Output) : (modOutput n k f).mgt = n.mgt := rfl
@[simp] theorem modOutput_mirror (k : Nat) (f : Output → Output) : (modOutput n k f).mirror = n.mirror := rfl
@[simp] theorem modOutput_rec_ (k : Nat) (f : Output → Output) : (modOutput n k f).rec_ = n.rec_ := rfl
@[simp] theorem modOutput_tb (k : Nat) (f : Output → Output) : (modOutput n k f).tb = n.tb := rfl
@[simp] theorem modOutput_launches (k : Nat) (f : Output → Output) : (modOutput n k f).launches = n.launches := rfl
@[simp] theorem modOutput_lchLast (k : Nat) (f : Output → Output) : (modOutput n k f).lchLast = n.lchLast := rfl
@[simp] theorem modOutput_ranks (k : Nat) (f : Output → Output) : (modOutput n k f).ranks = n.ranks := rfl
@[simp] theorem modOutput_fronts (k : Nat) (f : Output → Output) : (modOutput n k f).fronts = n.fronts := rfl
@[simp] theorem modOutput_acqs (k : Nat) (f : Output → Output) : (modOutput n k f).acqs = n.acqs := rfl
@[simp] theorem modOutput_diags (k : Nat) (f : Output → Output) : (modOutput n k f).diags = n.diags := rfl
@[simp] theorem modOutput_stages (k : Nat) (f : Output → Output) : (modOutput n k f).stages = n.stages := rfl
@[simp] theorem modOutput_res (k : Nat) (f : Output → Output) : (modOutput n k f).res = n.res := rfl
@[simp] theorem modOutput_resHead (k : Nat) (f : Output → Output) : (modOutput n k f).resHead = n.resHead := rfl
@[simp] theorem modOutput_late (k : Nat) (f : Output → Output) : (modOutput n k f).late = n.late := rfl
@[simp] theorem modOutput_peers (k : Nat) (f : Output → Output) : (modOutput n k f).peers = n.peers := rfl
@[simp] theorem modOutput_peerMsgs (k : Nat) (f : Output → Output) : (modOutput n k f).peerMsgs = n.peerMsgs := rfl
@[simp] theorem modOutput_points (k : Nat) (f : Output → Output) : (modOutput n k f).points = n.points := rfl
@[simp] theorem modOutput_groups (k : Nat) (f : Output → Output) : (modOutput n k f).groups = n.groups := rfl
@[simp] theorem modOutput_remoteFos (k : Nat) (f : Output → Output) : (modOutput n k f).remoteFos = n.remoteFos := rfl
@[simp] theorem modOutput_remoteActs (k : Nat) (f : Output → Output) : (modOutput n k f).remoteActs = n.remoteActs := rfl
@[simp] theorem modOutput_almCnt (k : Nat) (f : Output → Output) : (modOutput n k f).almCnt = n.almCnt := rfl
@[simp] theorem modOutput_call (k : Nat) (f : Output → Output) : (modOutput n k f).call = n.call := rfl
@[simp] theorem modOutput_stations (k : Nat) (f : Output → Output) : (modOutput n k f).stations = n.stations := rfl
@[simp] theorem modOutput_lanes (k : Nat) (f : Output → Output) : (modOutput n k f).lanes = n.lanes := rfl
@[simp] theorem modOutput_laneSt (k : Nat) (f : Output → Output) : (modOutput n k f).laneSt = n.laneSt := rfl
@[simp] theorem modOutput_duplex (k : Nat) (f : Output → Output) : (modOutput n k f).duplex = n.duplex := rfl
@[simp] theorem modOutput_cans (k : Nat) (f : Output → Output) : (modOutput n k f).cans = n.cans := rfl
@[simp] theorem modOutput_tsRef (k : Nat) (f : Output → Output) : (modOutput n k f).tsRef = n.tsRef := rfl
@[simp] theorem modOutput_net (k : Nat) (f : Output → Output) : (modOutput n k f).net = n.net := rfl
@[simp] theorem modOutput_config (k : Nat) (f : Output → Output) : (modOutput n k f).config = n.config := rfl
@[simp] theorem modOutput_nodeSt (k : Nat) (f : Output → Output) : (modOutput n k f).nodeSt = n.nodeSt := rfl
@[simp] theorem modOutput_power (k : Nat) (f : Output → Output) : (modOutput n k f).power = n.power := rfl
@[simp] theorem modOutput_dueB (k : Nat) (f : Output → Output) : (modOutput n k f).dueB = n.dueB := rfl
@[simp] theorem modOutput_dueR (k : Nat) (f : Output → Output) : (modOutput n k f).dueR = n.dueR := rfl
@[simp] theorem modOutput_free (k : Nat) (f : Output → Output) : (modOutput n k f).free = n.free := rfl
@[simp] theorem modOutput_outs (k : Nat) (f : Output → Output) : (modOutput n k f).outs = n.outs := rfl

@[simp] theorem modPair_now (k : Nat) (f : PairSt → PairSt) : (modPair n k f).now = n.now := rfl
@[simp] theorem modPair_taiOff (k : Nat) (f : PairSt → PairSt) : (modPair n k f).taiOff = n.taiOff := rfl
@[simp] theorem modPair_slewFrom (k : Nat) (f : PairSt → PairSt) : (modPair n k f).slewFrom = n.slewFrom := rfl
@[simp] theorem modPair_slewBy (k : Nat) (f : PairSt → PairSt) : (modPair n k f).slewBy = n.slewBy := rfl
@[simp] theorem modPair_frame (k : Nat) (f : PairSt → PairSt) : (modPair n k f).frame = n.frame := rfl
@[simp] theorem modPair_period (k : Nat) (f : PairSt → PairSt) : (modPair n k f).period = n.period := rfl
@[simp] theorem modPair_sampleT (k : Nat) (f : PairSt → PairSt) : (modPair n k f).sampleT = n.sampleT := rfl
@[simp] theorem modPair_sAt (k : Nat) (f : PairSt → PairSt) : (modPair n k f).sAt = n.sAt := rfl
@[simp] theorem modPair_bAt (k : Nat) (f : PairSt → PairSt) : (modPair n k f).bAt = n.bAt := rfl
@[simp] theorem modPair_regs (k : Nat) (f : PairSt → PairSt) : (modPair n k f).regs = n.regs := rfl
@[simp] theorem modPair_staged (k : Nat) (f : PairSt → PairSt) : (modPair n k f).staged = n.staged := rfl
@[simp] theorem modPair_headers (k : Nat) (f : PairSt → PairSt) : (modPair n k f).headers = n.headers := rfl
@[simp] theorem modPair_seqs (k : Nat) (f : PairSt → PairSt) : (modPair n k f).seqs = n.seqs := rfl
@[simp] theorem modPair_cmds (k : Nat) (f : PairSt → PairSt) : (modPair n k f).cmds = n.cmds := rfl
@[simp] theorem modPair_acts (k : Nat) (f : PairSt → PairSt) : (modPair n k f).acts = n.acts := rfl
@[simp] theorem modPair_vectors (k : Nat) (f : PairSt → PairSt) : (modPair n k f).vectors = n.vectors := rfl
@[simp] theorem modPair_endpoint (k : Nat) (f : PairSt → PairSt) : (modPair n k f).endpoint = n.endpoint := rfl
@[simp] theorem modPair_unshown (k : Nat) (f : PairSt → PairSt) : (modPair n k f).unshown = n.unshown := rfl
@[simp] theorem modPair_unshownStaged (k : Nat) (f : PairSt → PairSt) : (modPair n k f).unshownStaged = n.unshownStaged := rfl
@[simp] theorem modPair_readHold (k : Nat) (f : PairSt → PairSt) : (modPair n k f).readHold = n.readHold := rfl
@[simp] theorem modPair_writeHold (k : Nat) (f : PairSt → PairSt) : (modPair n k f).writeHold = n.writeHold := rfl
@[simp] theorem modPair_mgt (k : Nat) (f : PairSt → PairSt) : (modPair n k f).mgt = n.mgt := rfl
@[simp] theorem modPair_mirror (k : Nat) (f : PairSt → PairSt) : (modPair n k f).mirror = n.mirror := rfl
@[simp] theorem modPair_rec_ (k : Nat) (f : PairSt → PairSt) : (modPair n k f).rec_ = n.rec_ := rfl
@[simp] theorem modPair_tb (k : Nat) (f : PairSt → PairSt) : (modPair n k f).tb = n.tb := rfl
@[simp] theorem modPair_launches (k : Nat) (f : PairSt → PairSt) : (modPair n k f).launches = n.launches := rfl
@[simp] theorem modPair_lchLast (k : Nat) (f : PairSt → PairSt) : (modPair n k f).lchLast = n.lchLast := rfl
@[simp] theorem modPair_ranks (k : Nat) (f : PairSt → PairSt) : (modPair n k f).ranks = n.ranks := rfl
@[simp] theorem modPair_fronts (k : Nat) (f : PairSt → PairSt) : (modPair n k f).fronts = n.fronts := rfl
@[simp] theorem modPair_acqs (k : Nat) (f : PairSt → PairSt) : (modPair n k f).acqs = n.acqs := rfl
@[simp] theorem modPair_diags (k : Nat) (f : PairSt → PairSt) : (modPair n k f).diags = n.diags := rfl
@[simp] theorem modPair_stages (k : Nat) (f : PairSt → PairSt) : (modPair n k f).stages = n.stages := rfl
@[simp] theorem modPair_res (k : Nat) (f : PairSt → PairSt) : (modPair n k f).res = n.res := rfl
@[simp] theorem modPair_resHead (k : Nat) (f : PairSt → PairSt) : (modPair n k f).resHead = n.resHead := rfl
@[simp] theorem modPair_late (k : Nat) (f : PairSt → PairSt) : (modPair n k f).late = n.late := rfl
@[simp] theorem modPair_peers (k : Nat) (f : PairSt → PairSt) : (modPair n k f).peers = n.peers := rfl
@[simp] theorem modPair_peerMsgs (k : Nat) (f : PairSt → PairSt) : (modPair n k f).peerMsgs = n.peerMsgs := rfl
@[simp] theorem modPair_points (k : Nat) (f : PairSt → PairSt) : (modPair n k f).points = n.points := rfl
@[simp] theorem modPair_groups (k : Nat) (f : PairSt → PairSt) : (modPair n k f).groups = n.groups := rfl
@[simp] theorem modPair_remoteFos (k : Nat) (f : PairSt → PairSt) : (modPair n k f).remoteFos = n.remoteFos := rfl
@[simp] theorem modPair_remoteActs (k : Nat) (f : PairSt → PairSt) : (modPair n k f).remoteActs = n.remoteActs := rfl
@[simp] theorem modPair_almCnt (k : Nat) (f : PairSt → PairSt) : (modPair n k f).almCnt = n.almCnt := rfl
@[simp] theorem modPair_call (k : Nat) (f : PairSt → PairSt) : (modPair n k f).call = n.call := rfl
@[simp] theorem modPair_stations (k : Nat) (f : PairSt → PairSt) : (modPair n k f).stations = n.stations := rfl
@[simp] theorem modPair_lanes (k : Nat) (f : PairSt → PairSt) : (modPair n k f).lanes = n.lanes := rfl
@[simp] theorem modPair_laneSt (k : Nat) (f : PairSt → PairSt) : (modPair n k f).laneSt = n.laneSt := rfl
@[simp] theorem modPair_duplex (k : Nat) (f : PairSt → PairSt) : (modPair n k f).duplex = n.duplex := rfl
@[simp] theorem modPair_cans (k : Nat) (f : PairSt → PairSt) : (modPair n k f).cans = n.cans := rfl
@[simp] theorem modPair_tsRef (k : Nat) (f : PairSt → PairSt) : (modPair n k f).tsRef = n.tsRef := rfl
@[simp] theorem modPair_net (k : Nat) (f : PairSt → PairSt) : (modPair n k f).net = n.net := rfl
@[simp] theorem modPair_config (k : Nat) (f : PairSt → PairSt) : (modPair n k f).config = n.config := rfl
@[simp] theorem modPair_nodeSt (k : Nat) (f : PairSt → PairSt) : (modPair n k f).nodeSt = n.nodeSt := rfl
@[simp] theorem modPair_power (k : Nat) (f : PairSt → PairSt) : (modPair n k f).power = n.power := rfl
@[simp] theorem modPair_dueB (k : Nat) (f : PairSt → PairSt) : (modPair n k f).dueB = n.dueB := rfl
@[simp] theorem modPair_dueR (k : Nat) (f : PairSt → PairSt) : (modPair n k f).dueR = n.dueR := rfl
@[simp] theorem modPair_free (k : Nat) (f : PairSt → PairSt) : (modPair n k f).free = n.free := rfl
@[simp] theorem modPair_outs (k : Nat) (f : PairSt → PairSt) : (modPair n k f).outs = n.outs := rfl

@[simp] theorem modEth_now (k : Nat) (f : EthPort → EthPort) : (modEth n k f).now = n.now := rfl
@[simp] theorem modEth_taiOff (k : Nat) (f : EthPort → EthPort) : (modEth n k f).taiOff = n.taiOff := rfl
@[simp] theorem modEth_slewFrom (k : Nat) (f : EthPort → EthPort) : (modEth n k f).slewFrom = n.slewFrom := rfl
@[simp] theorem modEth_slewBy (k : Nat) (f : EthPort → EthPort) : (modEth n k f).slewBy = n.slewBy := rfl
@[simp] theorem modEth_frame (k : Nat) (f : EthPort → EthPort) : (modEth n k f).frame = n.frame := rfl
@[simp] theorem modEth_period (k : Nat) (f : EthPort → EthPort) : (modEth n k f).period = n.period := rfl
@[simp] theorem modEth_sampleT (k : Nat) (f : EthPort → EthPort) : (modEth n k f).sampleT = n.sampleT := rfl
@[simp] theorem modEth_sAt (k : Nat) (f : EthPort → EthPort) : (modEth n k f).sAt = n.sAt := rfl
@[simp] theorem modEth_bAt (k : Nat) (f : EthPort → EthPort) : (modEth n k f).bAt = n.bAt := rfl
@[simp] theorem modEth_regs (k : Nat) (f : EthPort → EthPort) : (modEth n k f).regs = n.regs := rfl
@[simp] theorem modEth_staged (k : Nat) (f : EthPort → EthPort) : (modEth n k f).staged = n.staged := rfl
@[simp] theorem modEth_headers (k : Nat) (f : EthPort → EthPort) : (modEth n k f).headers = n.headers := rfl
@[simp] theorem modEth_seqs (k : Nat) (f : EthPort → EthPort) : (modEth n k f).seqs = n.seqs := rfl
@[simp] theorem modEth_cmds (k : Nat) (f : EthPort → EthPort) : (modEth n k f).cmds = n.cmds := rfl
@[simp] theorem modEth_acts (k : Nat) (f : EthPort → EthPort) : (modEth n k f).acts = n.acts := rfl
@[simp] theorem modEth_vectors (k : Nat) (f : EthPort → EthPort) : (modEth n k f).vectors = n.vectors := rfl
@[simp] theorem modEth_endpoint (k : Nat) (f : EthPort → EthPort) : (modEth n k f).endpoint = n.endpoint := rfl
@[simp] theorem modEth_unshown (k : Nat) (f : EthPort → EthPort) : (modEth n k f).unshown = n.unshown := rfl
@[simp] theorem modEth_unshownStaged (k : Nat) (f : EthPort → EthPort) : (modEth n k f).unshownStaged = n.unshownStaged := rfl
@[simp] theorem modEth_readHold (k : Nat) (f : EthPort → EthPort) : (modEth n k f).readHold = n.readHold := rfl
@[simp] theorem modEth_writeHold (k : Nat) (f : EthPort → EthPort) : (modEth n k f).writeHold = n.writeHold := rfl
@[simp] theorem modEth_mgt (k : Nat) (f : EthPort → EthPort) : (modEth n k f).mgt = n.mgt := rfl
@[simp] theorem modEth_mirror (k : Nat) (f : EthPort → EthPort) : (modEth n k f).mirror = n.mirror := rfl
@[simp] theorem modEth_rec_ (k : Nat) (f : EthPort → EthPort) : (modEth n k f).rec_ = n.rec_ := rfl
@[simp] theorem modEth_tb (k : Nat) (f : EthPort → EthPort) : (modEth n k f).tb = n.tb := rfl
@[simp] theorem modEth_launches (k : Nat) (f : EthPort → EthPort) : (modEth n k f).launches = n.launches := rfl
@[simp] theorem modEth_lchLast (k : Nat) (f : EthPort → EthPort) : (modEth n k f).lchLast = n.lchLast := rfl
@[simp] theorem modEth_ranks (k : Nat) (f : EthPort → EthPort) : (modEth n k f).ranks = n.ranks := rfl
@[simp] theorem modEth_fronts (k : Nat) (f : EthPort → EthPort) : (modEth n k f).fronts = n.fronts := rfl
@[simp] theorem modEth_acqs (k : Nat) (f : EthPort → EthPort) : (modEth n k f).acqs = n.acqs := rfl
@[simp] theorem modEth_diags (k : Nat) (f : EthPort → EthPort) : (modEth n k f).diags = n.diags := rfl
@[simp] theorem modEth_stages (k : Nat) (f : EthPort → EthPort) : (modEth n k f).stages = n.stages := rfl
@[simp] theorem modEth_res (k : Nat) (f : EthPort → EthPort) : (modEth n k f).res = n.res := rfl
@[simp] theorem modEth_resHead (k : Nat) (f : EthPort → EthPort) : (modEth n k f).resHead = n.resHead := rfl
@[simp] theorem modEth_late (k : Nat) (f : EthPort → EthPort) : (modEth n k f).late = n.late := rfl
@[simp] theorem modEth_peers (k : Nat) (f : EthPort → EthPort) : (modEth n k f).peers = n.peers := rfl
@[simp] theorem modEth_peerMsgs (k : Nat) (f : EthPort → EthPort) : (modEth n k f).peerMsgs = n.peerMsgs := rfl
@[simp] theorem modEth_points (k : Nat) (f : EthPort → EthPort) : (modEth n k f).points = n.points := rfl
@[simp] theorem modEth_groups (k : Nat) (f : EthPort → EthPort) : (modEth n k f).groups = n.groups := rfl
@[simp] theorem modEth_remoteFos (k : Nat) (f : EthPort → EthPort) : (modEth n k f).remoteFos = n.remoteFos := rfl
@[simp] theorem modEth_remoteActs (k : Nat) (f : EthPort → EthPort) : (modEth n k f).remoteActs = n.remoteActs := rfl
@[simp] theorem modEth_almCnt (k : Nat) (f : EthPort → EthPort) : (modEth n k f).almCnt = n.almCnt := rfl
@[simp] theorem modEth_call (k : Nat) (f : EthPort → EthPort) : (modEth n k f).call = n.call := rfl
@[simp] theorem modEth_stations (k : Nat) (f : EthPort → EthPort) : (modEth n k f).stations = n.stations := rfl
@[simp] theorem modEth_safety (k : Nat) (f : EthPort → EthPort) : (modEth n k f).safety = n.safety := rfl
@[simp] theorem modEth_lanes (k : Nat) (f : EthPort → EthPort) : (modEth n k f).lanes = n.lanes := rfl
@[simp] theorem modEth_laneSt (k : Nat) (f : EthPort → EthPort) : (modEth n k f).laneSt = n.laneSt := rfl
@[simp] theorem modEth_duplex (k : Nat) (f : EthPort → EthPort) : (modEth n k f).duplex = n.duplex := rfl
@[simp] theorem modEth_cans (k : Nat) (f : EthPort → EthPort) : (modEth n k f).cans = n.cans := rfl
@[simp] theorem modEth_tsRef (k : Nat) (f : EthPort → EthPort) : (modEth n k f).tsRef = n.tsRef := rfl
@[simp] theorem modEth_config (k : Nat) (f : EthPort → EthPort) : (modEth n k f).config = n.config := rfl
@[simp] theorem modEth_nodeSt (k : Nat) (f : EthPort → EthPort) : (modEth n k f).nodeSt = n.nodeSt := rfl
@[simp] theorem modEth_power (k : Nat) (f : EthPort → EthPort) : (modEth n k f).power = n.power := rfl
@[simp] theorem modEth_dueB (k : Nat) (f : EthPort → EthPort) : (modEth n k f).dueB = n.dueB := rfl
@[simp] theorem modEth_dueR (k : Nat) (f : EthPort → EthPort) : (modEth n k f).dueR = n.dueR := rfl
@[simp] theorem modEth_free (k : Nat) (f : EthPort → EthPort) : (modEth n k f).free = n.free := rfl
@[simp] theorem modEth_outs (k : Nat) (f : EthPort → EthPort) : (modEth n k f).outs = n.outs := rfl

@[simp] theorem modSer_now (k : Nat) (f : SerPort → SerPort) : (modSer n k f).now = n.now := rfl
@[simp] theorem modSer_taiOff (k : Nat) (f : SerPort → SerPort) : (modSer n k f).taiOff = n.taiOff := rfl
@[simp] theorem modSer_slewFrom (k : Nat) (f : SerPort → SerPort) : (modSer n k f).slewFrom = n.slewFrom := rfl
@[simp] theorem modSer_slewBy (k : Nat) (f : SerPort → SerPort) : (modSer n k f).slewBy = n.slewBy := rfl
@[simp] theorem modSer_frame (k : Nat) (f : SerPort → SerPort) : (modSer n k f).frame = n.frame := rfl
@[simp] theorem modSer_period (k : Nat) (f : SerPort → SerPort) : (modSer n k f).period = n.period := rfl
@[simp] theorem modSer_sampleT (k : Nat) (f : SerPort → SerPort) : (modSer n k f).sampleT = n.sampleT := rfl
@[simp] theorem modSer_sAt (k : Nat) (f : SerPort → SerPort) : (modSer n k f).sAt = n.sAt := rfl
@[simp] theorem modSer_bAt (k : Nat) (f : SerPort → SerPort) : (modSer n k f).bAt = n.bAt := rfl
@[simp] theorem modSer_regs (k : Nat) (f : SerPort → SerPort) : (modSer n k f).regs = n.regs := rfl
@[simp] theorem modSer_staged (k : Nat) (f : SerPort → SerPort) : (modSer n k f).staged = n.staged := rfl
@[simp] theorem modSer_headers (k : Nat) (f : SerPort → SerPort) : (modSer n k f).headers = n.headers := rfl
@[simp] theorem modSer_seqs (k : Nat) (f : SerPort → SerPort) : (modSer n k f).seqs = n.seqs := rfl
@[simp] theorem modSer_cmds (k : Nat) (f : SerPort → SerPort) : (modSer n k f).cmds = n.cmds := rfl
@[simp] theorem modSer_acts (k : Nat) (f : SerPort → SerPort) : (modSer n k f).acts = n.acts := rfl
@[simp] theorem modSer_vectors (k : Nat) (f : SerPort → SerPort) : (modSer n k f).vectors = n.vectors := rfl
@[simp] theorem modSer_endpoint (k : Nat) (f : SerPort → SerPort) : (modSer n k f).endpoint = n.endpoint := rfl
@[simp] theorem modSer_unshown (k : Nat) (f : SerPort → SerPort) : (modSer n k f).unshown = n.unshown := rfl
@[simp] theorem modSer_unshownStaged (k : Nat) (f : SerPort → SerPort) : (modSer n k f).unshownStaged = n.unshownStaged := rfl
@[simp] theorem modSer_readHold (k : Nat) (f : SerPort → SerPort) : (modSer n k f).readHold = n.readHold := rfl
@[simp] theorem modSer_writeHold (k : Nat) (f : SerPort → SerPort) : (modSer n k f).writeHold = n.writeHold := rfl
@[simp] theorem modSer_mgt (k : Nat) (f : SerPort → SerPort) : (modSer n k f).mgt = n.mgt := rfl
@[simp] theorem modSer_mirror (k : Nat) (f : SerPort → SerPort) : (modSer n k f).mirror = n.mirror := rfl
@[simp] theorem modSer_rec_ (k : Nat) (f : SerPort → SerPort) : (modSer n k f).rec_ = n.rec_ := rfl
@[simp] theorem modSer_tb (k : Nat) (f : SerPort → SerPort) : (modSer n k f).tb = n.tb := rfl
@[simp] theorem modSer_launches (k : Nat) (f : SerPort → SerPort) : (modSer n k f).launches = n.launches := rfl
@[simp] theorem modSer_lchLast (k : Nat) (f : SerPort → SerPort) : (modSer n k f).lchLast = n.lchLast := rfl
@[simp] theorem modSer_ranks (k : Nat) (f : SerPort → SerPort) : (modSer n k f).ranks = n.ranks := rfl
@[simp] theorem modSer_fronts (k : Nat) (f : SerPort → SerPort) : (modSer n k f).fronts = n.fronts := rfl
@[simp] theorem modSer_acqs (k : Nat) (f : SerPort → SerPort) : (modSer n k f).acqs = n.acqs := rfl
@[simp] theorem modSer_diags (k : Nat) (f : SerPort → SerPort) : (modSer n k f).diags = n.diags := rfl
@[simp] theorem modSer_stages (k : Nat) (f : SerPort → SerPort) : (modSer n k f).stages = n.stages := rfl
@[simp] theorem modSer_res (k : Nat) (f : SerPort → SerPort) : (modSer n k f).res = n.res := rfl
@[simp] theorem modSer_resHead (k : Nat) (f : SerPort → SerPort) : (modSer n k f).resHead = n.resHead := rfl
@[simp] theorem modSer_late (k : Nat) (f : SerPort → SerPort) : (modSer n k f).late = n.late := rfl
@[simp] theorem modSer_peers (k : Nat) (f : SerPort → SerPort) : (modSer n k f).peers = n.peers := rfl
@[simp] theorem modSer_peerMsgs (k : Nat) (f : SerPort → SerPort) : (modSer n k f).peerMsgs = n.peerMsgs := rfl
@[simp] theorem modSer_points (k : Nat) (f : SerPort → SerPort) : (modSer n k f).points = n.points := rfl
@[simp] theorem modSer_groups (k : Nat) (f : SerPort → SerPort) : (modSer n k f).groups = n.groups := rfl
@[simp] theorem modSer_remoteFos (k : Nat) (f : SerPort → SerPort) : (modSer n k f).remoteFos = n.remoteFos := rfl
@[simp] theorem modSer_remoteActs (k : Nat) (f : SerPort → SerPort) : (modSer n k f).remoteActs = n.remoteActs := rfl
@[simp] theorem modSer_almCnt (k : Nat) (f : SerPort → SerPort) : (modSer n k f).almCnt = n.almCnt := rfl
@[simp] theorem modSer_call (k : Nat) (f : SerPort → SerPort) : (modSer n k f).call = n.call := rfl
@[simp] theorem modSer_stations (k : Nat) (f : SerPort → SerPort) : (modSer n k f).stations = n.stations := rfl
@[simp] theorem modSer_safety (k : Nat) (f : SerPort → SerPort) : (modSer n k f).safety = n.safety := rfl
@[simp] theorem modSer_lanes (k : Nat) (f : SerPort → SerPort) : (modSer n k f).lanes = n.lanes := rfl
@[simp] theorem modSer_laneSt (k : Nat) (f : SerPort → SerPort) : (modSer n k f).laneSt = n.laneSt := rfl
@[simp] theorem modSer_duplex (k : Nat) (f : SerPort → SerPort) : (modSer n k f).duplex = n.duplex := rfl
@[simp] theorem modSer_cans (k : Nat) (f : SerPort → SerPort) : (modSer n k f).cans = n.cans := rfl
@[simp] theorem modSer_tsRef (k : Nat) (f : SerPort → SerPort) : (modSer n k f).tsRef = n.tsRef := rfl
@[simp] theorem modSer_config (k : Nat) (f : SerPort → SerPort) : (modSer n k f).config = n.config := rfl
@[simp] theorem modSer_nodeSt (k : Nat) (f : SerPort → SerPort) : (modSer n k f).nodeSt = n.nodeSt := rfl
@[simp] theorem modSer_power (k : Nat) (f : SerPort → SerPort) : (modSer n k f).power = n.power := rfl
@[simp] theorem modSer_dueB (k : Nat) (f : SerPort → SerPort) : (modSer n k f).dueB = n.dueB := rfl
@[simp] theorem modSer_dueR (k : Nat) (f : SerPort → SerPort) : (modSer n k f).dueR = n.dueR := rfl
@[simp] theorem modSer_free (k : Nat) (f : SerPort → SerPort) : (modSer n k f).free = n.free := rfl
@[simp] theorem modSer_outs (k : Nat) (f : SerPort → SerPort) : (modSer n k f).outs = n.outs := rfl

@[simp] theorem modCap_now (k : Nat) (f : Capture → Capture) : (modCap n k f).now = n.now := rfl
@[simp] theorem modCap_taiOff (k : Nat) (f : Capture → Capture) : (modCap n k f).taiOff = n.taiOff := rfl
@[simp] theorem modCap_slewFrom (k : Nat) (f : Capture → Capture) : (modCap n k f).slewFrom = n.slewFrom := rfl
@[simp] theorem modCap_slewBy (k : Nat) (f : Capture → Capture) : (modCap n k f).slewBy = n.slewBy := rfl
@[simp] theorem modCap_frame (k : Nat) (f : Capture → Capture) : (modCap n k f).frame = n.frame := rfl
@[simp] theorem modCap_period (k : Nat) (f : Capture → Capture) : (modCap n k f).period = n.period := rfl
@[simp] theorem modCap_sampleT (k : Nat) (f : Capture → Capture) : (modCap n k f).sampleT = n.sampleT := rfl
@[simp] theorem modCap_sAt (k : Nat) (f : Capture → Capture) : (modCap n k f).sAt = n.sAt := rfl
@[simp] theorem modCap_bAt (k : Nat) (f : Capture → Capture) : (modCap n k f).bAt = n.bAt := rfl
@[simp] theorem modCap_regs (k : Nat) (f : Capture → Capture) : (modCap n k f).regs = n.regs := rfl
@[simp] theorem modCap_staged (k : Nat) (f : Capture → Capture) : (modCap n k f).staged = n.staged := rfl
@[simp] theorem modCap_headers (k : Nat) (f : Capture → Capture) : (modCap n k f).headers = n.headers := rfl
@[simp] theorem modCap_seqs (k : Nat) (f : Capture → Capture) : (modCap n k f).seqs = n.seqs := rfl
@[simp] theorem modCap_cmds (k : Nat) (f : Capture → Capture) : (modCap n k f).cmds = n.cmds := rfl
@[simp] theorem modCap_acts (k : Nat) (f : Capture → Capture) : (modCap n k f).acts = n.acts := rfl
@[simp] theorem modCap_vectors (k : Nat) (f : Capture → Capture) : (modCap n k f).vectors = n.vectors := rfl
@[simp] theorem modCap_endpoint (k : Nat) (f : Capture → Capture) : (modCap n k f).endpoint = n.endpoint := rfl
@[simp] theorem modCap_unshown (k : Nat) (f : Capture → Capture) : (modCap n k f).unshown = n.unshown := rfl
@[simp] theorem modCap_unshownStaged (k : Nat) (f : Capture → Capture) : (modCap n k f).unshownStaged = n.unshownStaged := rfl
@[simp] theorem modCap_readHold (k : Nat) (f : Capture → Capture) : (modCap n k f).readHold = n.readHold := rfl
@[simp] theorem modCap_writeHold (k : Nat) (f : Capture → Capture) : (modCap n k f).writeHold = n.writeHold := rfl
@[simp] theorem modCap_mgt (k : Nat) (f : Capture → Capture) : (modCap n k f).mgt = n.mgt := rfl
@[simp] theorem modCap_mirror (k : Nat) (f : Capture → Capture) : (modCap n k f).mirror = n.mirror := rfl
@[simp] theorem modCap_tb (k : Nat) (f : Capture → Capture) : (modCap n k f).tb = n.tb := rfl
@[simp] theorem modCap_launches (k : Nat) (f : Capture → Capture) : (modCap n k f).launches = n.launches := rfl
@[simp] theorem modCap_lchLast (k : Nat) (f : Capture → Capture) : (modCap n k f).lchLast = n.lchLast := rfl
@[simp] theorem modCap_ranks (k : Nat) (f : Capture → Capture) : (modCap n k f).ranks = n.ranks := rfl
@[simp] theorem modCap_fronts (k : Nat) (f : Capture → Capture) : (modCap n k f).fronts = n.fronts := rfl
@[simp] theorem modCap_acqs (k : Nat) (f : Capture → Capture) : (modCap n k f).acqs = n.acqs := rfl
@[simp] theorem modCap_diags (k : Nat) (f : Capture → Capture) : (modCap n k f).diags = n.diags := rfl
@[simp] theorem modCap_stages (k : Nat) (f : Capture → Capture) : (modCap n k f).stages = n.stages := rfl
@[simp] theorem modCap_res (k : Nat) (f : Capture → Capture) : (modCap n k f).res = n.res := rfl
@[simp] theorem modCap_resHead (k : Nat) (f : Capture → Capture) : (modCap n k f).resHead = n.resHead := rfl
@[simp] theorem modCap_late (k : Nat) (f : Capture → Capture) : (modCap n k f).late = n.late := rfl
@[simp] theorem modCap_peers (k : Nat) (f : Capture → Capture) : (modCap n k f).peers = n.peers := rfl
@[simp] theorem modCap_peerMsgs (k : Nat) (f : Capture → Capture) : (modCap n k f).peerMsgs = n.peerMsgs := rfl
@[simp] theorem modCap_points (k : Nat) (f : Capture → Capture) : (modCap n k f).points = n.points := rfl
@[simp] theorem modCap_groups (k : Nat) (f : Capture → Capture) : (modCap n k f).groups = n.groups := rfl
@[simp] theorem modCap_remoteFos (k : Nat) (f : Capture → Capture) : (modCap n k f).remoteFos = n.remoteFos := rfl
@[simp] theorem modCap_remoteActs (k : Nat) (f : Capture → Capture) : (modCap n k f).remoteActs = n.remoteActs := rfl
@[simp] theorem modCap_almCnt (k : Nat) (f : Capture → Capture) : (modCap n k f).almCnt = n.almCnt := rfl
@[simp] theorem modCap_call (k : Nat) (f : Capture → Capture) : (modCap n k f).call = n.call := rfl
@[simp] theorem modCap_stations (k : Nat) (f : Capture → Capture) : (modCap n k f).stations = n.stations := rfl
@[simp] theorem modCap_safety (k : Nat) (f : Capture → Capture) : (modCap n k f).safety = n.safety := rfl
@[simp] theorem modCap_lanes (k : Nat) (f : Capture → Capture) : (modCap n k f).lanes = n.lanes := rfl
@[simp] theorem modCap_laneSt (k : Nat) (f : Capture → Capture) : (modCap n k f).laneSt = n.laneSt := rfl
@[simp] theorem modCap_duplex (k : Nat) (f : Capture → Capture) : (modCap n k f).duplex = n.duplex := rfl
@[simp] theorem modCap_cans (k : Nat) (f : Capture → Capture) : (modCap n k f).cans = n.cans := rfl
@[simp] theorem modCap_tsRef (k : Nat) (f : Capture → Capture) : (modCap n k f).tsRef = n.tsRef := rfl
@[simp] theorem modCap_net (k : Nat) (f : Capture → Capture) : (modCap n k f).net = n.net := rfl
@[simp] theorem modCap_config (k : Nat) (f : Capture → Capture) : (modCap n k f).config = n.config := rfl
@[simp] theorem modCap_nodeSt (k : Nat) (f : Capture → Capture) : (modCap n k f).nodeSt = n.nodeSt := rfl
@[simp] theorem modCap_power (k : Nat) (f : Capture → Capture) : (modCap n k f).power = n.power := rfl
@[simp] theorem modCap_dueB (k : Nat) (f : Capture → Capture) : (modCap n k f).dueB = n.dueB := rfl
@[simp] theorem modCap_dueR (k : Nat) (f : Capture → Capture) : (modCap n k f).dueR = n.dueR := rfl
@[simp] theorem modCap_free (k : Nat) (f : Capture → Capture) : (modCap n k f).free = n.free := rfl
@[simp] theorem modCap_outs (k : Nat) (f : Capture → Capture) : (modCap n k f).outs = n.outs := rfl

@[simp] theorem modAccount_now (k : Nat) (f : Account → Account) : (modAccount n k f).now = n.now := rfl
@[simp] theorem modAccount_taiOff (k : Nat) (f : Account → Account) : (modAccount n k f).taiOff = n.taiOff := rfl
@[simp] theorem modAccount_slewFrom (k : Nat) (f : Account → Account) : (modAccount n k f).slewFrom = n.slewFrom := rfl
@[simp] theorem modAccount_slewBy (k : Nat) (f : Account → Account) : (modAccount n k f).slewBy = n.slewBy := rfl
@[simp] theorem modAccount_frame (k : Nat) (f : Account → Account) : (modAccount n k f).frame = n.frame := rfl
@[simp] theorem modAccount_period (k : Nat) (f : Account → Account) : (modAccount n k f).period = n.period := rfl
@[simp] theorem modAccount_sampleT (k : Nat) (f : Account → Account) : (modAccount n k f).sampleT = n.sampleT := rfl
@[simp] theorem modAccount_sAt (k : Nat) (f : Account → Account) : (modAccount n k f).sAt = n.sAt := rfl
@[simp] theorem modAccount_bAt (k : Nat) (f : Account → Account) : (modAccount n k f).bAt = n.bAt := rfl
@[simp] theorem modAccount_regs (k : Nat) (f : Account → Account) : (modAccount n k f).regs = n.regs := rfl
@[simp] theorem modAccount_staged (k : Nat) (f : Account → Account) : (modAccount n k f).staged = n.staged := rfl
@[simp] theorem modAccount_headers (k : Nat) (f : Account → Account) : (modAccount n k f).headers = n.headers := rfl
@[simp] theorem modAccount_seqs (k : Nat) (f : Account → Account) : (modAccount n k f).seqs = n.seqs := rfl
@[simp] theorem modAccount_cmds (k : Nat) (f : Account → Account) : (modAccount n k f).cmds = n.cmds := rfl
@[simp] theorem modAccount_acts (k : Nat) (f : Account → Account) : (modAccount n k f).acts = n.acts := rfl
@[simp] theorem modAccount_vectors (k : Nat) (f : Account → Account) : (modAccount n k f).vectors = n.vectors := rfl
@[simp] theorem modAccount_endpoint (k : Nat) (f : Account → Account) : (modAccount n k f).endpoint = n.endpoint := rfl
@[simp] theorem modAccount_unshown (k : Nat) (f : Account → Account) : (modAccount n k f).unshown = n.unshown := rfl
@[simp] theorem modAccount_unshownStaged (k : Nat) (f : Account → Account) : (modAccount n k f).unshownStaged = n.unshownStaged := rfl
@[simp] theorem modAccount_readHold (k : Nat) (f : Account → Account) : (modAccount n k f).readHold = n.readHold := rfl
@[simp] theorem modAccount_writeHold (k : Nat) (f : Account → Account) : (modAccount n k f).writeHold = n.writeHold := rfl
@[simp] theorem modAccount_mgt (k : Nat) (f : Account → Account) : (modAccount n k f).mgt = n.mgt := rfl
@[simp] theorem modAccount_mirror (k : Nat) (f : Account → Account) : (modAccount n k f).mirror = n.mirror := rfl
@[simp] theorem modAccount_rec_ (k : Nat) (f : Account → Account) : (modAccount n k f).rec_ = n.rec_ := rfl
@[simp] theorem modAccount_tb (k : Nat) (f : Account → Account) : (modAccount n k f).tb = n.tb := rfl
@[simp] theorem modAccount_launches (k : Nat) (f : Account → Account) : (modAccount n k f).launches = n.launches := rfl
@[simp] theorem modAccount_lchLast (k : Nat) (f : Account → Account) : (modAccount n k f).lchLast = n.lchLast := rfl
@[simp] theorem modAccount_ranks (k : Nat) (f : Account → Account) : (modAccount n k f).ranks = n.ranks := rfl
@[simp] theorem modAccount_fronts (k : Nat) (f : Account → Account) : (modAccount n k f).fronts = n.fronts := rfl
@[simp] theorem modAccount_acqs (k : Nat) (f : Account → Account) : (modAccount n k f).acqs = n.acqs := rfl
@[simp] theorem modAccount_diags (k : Nat) (f : Account → Account) : (modAccount n k f).diags = n.diags := rfl
@[simp] theorem modAccount_stages (k : Nat) (f : Account → Account) : (modAccount n k f).stages = n.stages := rfl
@[simp] theorem modAccount_res (k : Nat) (f : Account → Account) : (modAccount n k f).res = n.res := rfl
@[simp] theorem modAccount_resHead (k : Nat) (f : Account → Account) : (modAccount n k f).resHead = n.resHead := rfl
@[simp] theorem modAccount_late (k : Nat) (f : Account → Account) : (modAccount n k f).late = n.late := rfl
@[simp] theorem modAccount_peers (k : Nat) (f : Account → Account) : (modAccount n k f).peers = n.peers := rfl
@[simp] theorem modAccount_peerMsgs (k : Nat) (f : Account → Account) : (modAccount n k f).peerMsgs = n.peerMsgs := rfl
@[simp] theorem modAccount_points (k : Nat) (f : Account → Account) : (modAccount n k f).points = n.points := rfl
@[simp] theorem modAccount_groups (k : Nat) (f : Account → Account) : (modAccount n k f).groups = n.groups := rfl
@[simp] theorem modAccount_remoteFos (k : Nat) (f : Account → Account) : (modAccount n k f).remoteFos = n.remoteFos := rfl
@[simp] theorem modAccount_remoteActs (k : Nat) (f : Account → Account) : (modAccount n k f).remoteActs = n.remoteActs := rfl
@[simp] theorem modAccount_almCnt (k : Nat) (f : Account → Account) : (modAccount n k f).almCnt = n.almCnt := rfl
@[simp] theorem modAccount_call (k : Nat) (f : Account → Account) : (modAccount n k f).call = n.call := rfl
@[simp] theorem modAccount_stations (k : Nat) (f : Account → Account) : (modAccount n k f).stations = n.stations := rfl
@[simp] theorem modAccount_safety (k : Nat) (f : Account → Account) : (modAccount n k f).safety = n.safety := rfl
@[simp] theorem modAccount_lanes (k : Nat) (f : Account → Account) : (modAccount n k f).lanes = n.lanes := rfl
@[simp] theorem modAccount_laneSt (k : Nat) (f : Account → Account) : (modAccount n k f).laneSt = n.laneSt := rfl
@[simp] theorem modAccount_duplex (k : Nat) (f : Account → Account) : (modAccount n k f).duplex = n.duplex := rfl
@[simp] theorem modAccount_cans (k : Nat) (f : Account → Account) : (modAccount n k f).cans = n.cans := rfl
@[simp] theorem modAccount_tsRef (k : Nat) (f : Account → Account) : (modAccount n k f).tsRef = n.tsRef := rfl
@[simp] theorem modAccount_net (k : Nat) (f : Account → Account) : (modAccount n k f).net = n.net := rfl
@[simp] theorem modAccount_nodeSt (k : Nat) (f : Account → Account) : (modAccount n k f).nodeSt = n.nodeSt := rfl
@[simp] theorem modAccount_power (k : Nat) (f : Account → Account) : (modAccount n k f).power = n.power := rfl
@[simp] theorem modAccount_dueB (k : Nat) (f : Account → Account) : (modAccount n k f).dueB = n.dueB := rfl
@[simp] theorem modAccount_dueR (k : Nat) (f : Account → Account) : (modAccount n k f).dueR = n.dueR := rfl
@[simp] theorem modAccount_free (k : Nat) (f : Account → Account) : (modAccount n k f).free = n.free := rfl
@[simp] theorem modAccount_outs (k : Nat) (f : Account → Account) : (modAccount n k f).outs = n.outs := rfl

@[simp] theorem modEval_now (c k : Nat) (f : Evaluator → Evaluator) : (modEval n c k f).now = n.now := rfl
@[simp] theorem modEval_taiOff (c k : Nat) (f : Evaluator → Evaluator) : (modEval n c k f).taiOff = n.taiOff := rfl
@[simp] theorem modEval_slewFrom (c k : Nat) (f : Evaluator → Evaluator) : (modEval n c k f).slewFrom = n.slewFrom := rfl
@[simp] theorem modEval_slewBy (c k : Nat) (f : Evaluator → Evaluator) : (modEval n c k f).slewBy = n.slewBy := rfl
@[simp] theorem modEval_frame (c k : Nat) (f : Evaluator → Evaluator) : (modEval n c k f).frame = n.frame := rfl
@[simp] theorem modEval_period (c k : Nat) (f : Evaluator → Evaluator) : (modEval n c k f).period = n.period := rfl
@[simp] theorem modEval_sampleT (c k : Nat) (f : Evaluator → Evaluator) : (modEval n c k f).sampleT = n.sampleT := rfl
@[simp] theorem modEval_sAt (c k : Nat) (f : Evaluator → Evaluator) : (modEval n c k f).sAt = n.sAt := rfl
@[simp] theorem modEval_bAt (c k : Nat) (f : Evaluator → Evaluator) : (modEval n c k f).bAt = n.bAt := rfl
@[simp] theorem modEval_regs (c k : Nat) (f : Evaluator → Evaluator) : (modEval n c k f).regs = n.regs := rfl
@[simp] theorem modEval_staged (c k : Nat) (f : Evaluator → Evaluator) : (modEval n c k f).staged = n.staged := rfl
@[simp] theorem modEval_headers (c k : Nat) (f : Evaluator → Evaluator) : (modEval n c k f).headers = n.headers := rfl
@[simp] theorem modEval_seqs (c k : Nat) (f : Evaluator → Evaluator) : (modEval n c k f).seqs = n.seqs := rfl
@[simp] theorem modEval_cmds (c k : Nat) (f : Evaluator → Evaluator) : (modEval n c k f).cmds = n.cmds := rfl
@[simp] theorem modEval_acts (c k : Nat) (f : Evaluator → Evaluator) : (modEval n c k f).acts = n.acts := rfl
@[simp] theorem modEval_vectors (c k : Nat) (f : Evaluator → Evaluator) : (modEval n c k f).vectors = n.vectors := rfl
@[simp] theorem modEval_endpoint (c k : Nat) (f : Evaluator → Evaluator) : (modEval n c k f).endpoint = n.endpoint := rfl
@[simp] theorem modEval_unshown (c k : Nat) (f : Evaluator → Evaluator) : (modEval n c k f).unshown = n.unshown := rfl
@[simp] theorem modEval_unshownStaged (c k : Nat) (f : Evaluator → Evaluator) : (modEval n c k f).unshownStaged = n.unshownStaged := rfl
@[simp] theorem modEval_readHold (c k : Nat) (f : Evaluator → Evaluator) : (modEval n c k f).readHold = n.readHold := rfl
@[simp] theorem modEval_writeHold (c k : Nat) (f : Evaluator → Evaluator) : (modEval n c k f).writeHold = n.writeHold := rfl
@[simp] theorem modEval_mgt (c k : Nat) (f : Evaluator → Evaluator) : (modEval n c k f).mgt = n.mgt := rfl
@[simp] theorem modEval_mirror (c k : Nat) (f : Evaluator → Evaluator) : (modEval n c k f).mirror = n.mirror := rfl
@[simp] theorem modEval_rec_ (c k : Nat) (f : Evaluator → Evaluator) : (modEval n c k f).rec_ = n.rec_ := rfl
@[simp] theorem modEval_tb (c k : Nat) (f : Evaluator → Evaluator) : (modEval n c k f).tb = n.tb := rfl
@[simp] theorem modEval_launches (c k : Nat) (f : Evaluator → Evaluator) : (modEval n c k f).launches = n.launches := rfl
@[simp] theorem modEval_lchLast (c k : Nat) (f : Evaluator → Evaluator) : (modEval n c k f).lchLast = n.lchLast := rfl
@[simp] theorem modEval_ranks (c k : Nat) (f : Evaluator → Evaluator) : (modEval n c k f).ranks = n.ranks := rfl
@[simp] theorem modEval_fronts (c k : Nat) (f : Evaluator → Evaluator) : (modEval n c k f).fronts = n.fronts := rfl
@[simp] theorem modEval_acqs (c k : Nat) (f : Evaluator → Evaluator) : (modEval n c k f).acqs = n.acqs := rfl
@[simp] theorem modEval_diags (c k : Nat) (f : Evaluator → Evaluator) : (modEval n c k f).diags = n.diags := rfl
@[simp] theorem modEval_stages (c k : Nat) (f : Evaluator → Evaluator) : (modEval n c k f).stages = n.stages := rfl
@[simp] theorem modEval_res (c k : Nat) (f : Evaluator → Evaluator) : (modEval n c k f).res = n.res := rfl
@[simp] theorem modEval_resHead (c k : Nat) (f : Evaluator → Evaluator) : (modEval n c k f).resHead = n.resHead := rfl
@[simp] theorem modEval_late (c k : Nat) (f : Evaluator → Evaluator) : (modEval n c k f).late = n.late := rfl
@[simp] theorem modEval_peers (c k : Nat) (f : Evaluator → Evaluator) : (modEval n c k f).peers = n.peers := rfl
@[simp] theorem modEval_peerMsgs (c k : Nat) (f : Evaluator → Evaluator) : (modEval n c k f).peerMsgs = n.peerMsgs := rfl
@[simp] theorem modEval_points (c k : Nat) (f : Evaluator → Evaluator) : (modEval n c k f).points = n.points := rfl
@[simp] theorem modEval_groups (c k : Nat) (f : Evaluator → Evaluator) : (modEval n c k f).groups = n.groups := rfl
@[simp] theorem modEval_remoteFos (c k : Nat) (f : Evaluator → Evaluator) : (modEval n c k f).remoteFos = n.remoteFos := rfl
@[simp] theorem modEval_remoteActs (c k : Nat) (f : Evaluator → Evaluator) : (modEval n c k f).remoteActs = n.remoteActs := rfl
@[simp] theorem modEval_almCnt (c k : Nat) (f : Evaluator → Evaluator) : (modEval n c k f).almCnt = n.almCnt := rfl
@[simp] theorem modEval_call (c k : Nat) (f : Evaluator → Evaluator) : (modEval n c k f).call = n.call := rfl
@[simp] theorem modEval_stations (c k : Nat) (f : Evaluator → Evaluator) : (modEval n c k f).stations = n.stations := rfl
@[simp] theorem modEval_lanes (c k : Nat) (f : Evaluator → Evaluator) : (modEval n c k f).lanes = n.lanes := rfl
@[simp] theorem modEval_laneSt (c k : Nat) (f : Evaluator → Evaluator) : (modEval n c k f).laneSt = n.laneSt := rfl
@[simp] theorem modEval_duplex (c k : Nat) (f : Evaluator → Evaluator) : (modEval n c k f).duplex = n.duplex := rfl
@[simp] theorem modEval_cans (c k : Nat) (f : Evaluator → Evaluator) : (modEval n c k f).cans = n.cans := rfl
@[simp] theorem modEval_tsRef (c k : Nat) (f : Evaluator → Evaluator) : (modEval n c k f).tsRef = n.tsRef := rfl
@[simp] theorem modEval_net (c k : Nat) (f : Evaluator → Evaluator) : (modEval n c k f).net = n.net := rfl
@[simp] theorem modEval_config (c k : Nat) (f : Evaluator → Evaluator) : (modEval n c k f).config = n.config := rfl
@[simp] theorem modEval_nodeSt (c k : Nat) (f : Evaluator → Evaluator) : (modEval n c k f).nodeSt = n.nodeSt := rfl
@[simp] theorem modEval_power (c k : Nat) (f : Evaluator → Evaluator) : (modEval n c k f).power = n.power := rfl
@[simp] theorem modEval_dueB (c k : Nat) (f : Evaluator → Evaluator) : (modEval n c k f).dueB = n.dueB := rfl
@[simp] theorem modEval_dueR (c k : Nat) (f : Evaluator → Evaluator) : (modEval n c k f).dueR = n.dueR := rfl
@[simp] theorem modEval_free (c k : Nat) (f : Evaluator → Evaluator) : (modEval n c k f).free = n.free := rfl
@[simp] theorem modEval_outs (c k : Nat) (f : Evaluator → Evaluator) : (modEval n c k f).outs = n.outs := rfl

@[simp] theorem setSession_now (p : Nat) (x : Option Session) : (setSession n p x).now = n.now := rfl
@[simp] theorem setSession_taiOff (p : Nat) (x : Option Session) : (setSession n p x).taiOff = n.taiOff := rfl
@[simp] theorem setSession_slewFrom (p : Nat) (x : Option Session) : (setSession n p x).slewFrom = n.slewFrom := rfl
@[simp] theorem setSession_slewBy (p : Nat) (x : Option Session) : (setSession n p x).slewBy = n.slewBy := rfl
@[simp] theorem setSession_frame (p : Nat) (x : Option Session) : (setSession n p x).frame = n.frame := rfl
@[simp] theorem setSession_period (p : Nat) (x : Option Session) : (setSession n p x).period = n.period := rfl
@[simp] theorem setSession_sampleT (p : Nat) (x : Option Session) : (setSession n p x).sampleT = n.sampleT := rfl
@[simp] theorem setSession_sAt (p : Nat) (x : Option Session) : (setSession n p x).sAt = n.sAt := rfl
@[simp] theorem setSession_bAt (p : Nat) (x : Option Session) : (setSession n p x).bAt = n.bAt := rfl
@[simp] theorem setSession_regs (p : Nat) (x : Option Session) : (setSession n p x).regs = n.regs := rfl
@[simp] theorem setSession_staged (p : Nat) (x : Option Session) : (setSession n p x).staged = n.staged := rfl
@[simp] theorem setSession_headers (p : Nat) (x : Option Session) : (setSession n p x).headers = n.headers := rfl
@[simp] theorem setSession_seqs (p : Nat) (x : Option Session) : (setSession n p x).seqs = n.seqs := rfl
@[simp] theorem setSession_cmds (p : Nat) (x : Option Session) : (setSession n p x).cmds = n.cmds := rfl
@[simp] theorem setSession_acts (p : Nat) (x : Option Session) : (setSession n p x).acts = n.acts := rfl
@[simp] theorem setSession_vectors (p : Nat) (x : Option Session) : (setSession n p x).vectors = n.vectors := rfl
@[simp] theorem setSession_endpoint (p : Nat) (x : Option Session) : (setSession n p x).endpoint = n.endpoint := rfl
@[simp] theorem setSession_unshown (p : Nat) (x : Option Session) : (setSession n p x).unshown = n.unshown := rfl
@[simp] theorem setSession_unshownStaged (p : Nat) (x : Option Session) : (setSession n p x).unshownStaged = n.unshownStaged := rfl
@[simp] theorem setSession_readHold (p : Nat) (x : Option Session) : (setSession n p x).readHold = n.readHold := rfl
@[simp] theorem setSession_writeHold (p : Nat) (x : Option Session) : (setSession n p x).writeHold = n.writeHold := rfl
@[simp] theorem setSession_mgt (p : Nat) (x : Option Session) : (setSession n p x).mgt = n.mgt := rfl
@[simp] theorem setSession_mirror (p : Nat) (x : Option Session) : (setSession n p x).mirror = n.mirror := rfl
@[simp] theorem setSession_rec_ (p : Nat) (x : Option Session) : (setSession n p x).rec_ = n.rec_ := rfl
@[simp] theorem setSession_tb (p : Nat) (x : Option Session) : (setSession n p x).tb = n.tb := rfl
@[simp] theorem setSession_launches (p : Nat) (x : Option Session) : (setSession n p x).launches = n.launches := rfl
@[simp] theorem setSession_lchLast (p : Nat) (x : Option Session) : (setSession n p x).lchLast = n.lchLast := rfl
@[simp] theorem setSession_ranks (p : Nat) (x : Option Session) : (setSession n p x).ranks = n.ranks := rfl
@[simp] theorem setSession_fronts (p : Nat) (x : Option Session) : (setSession n p x).fronts = n.fronts := rfl
@[simp] theorem setSession_acqs (p : Nat) (x : Option Session) : (setSession n p x).acqs = n.acqs := rfl
@[simp] theorem setSession_diags (p : Nat) (x : Option Session) : (setSession n p x).diags = n.diags := rfl
@[simp] theorem setSession_stages (p : Nat) (x : Option Session) : (setSession n p x).stages = n.stages := rfl
@[simp] theorem setSession_res (p : Nat) (x : Option Session) : (setSession n p x).res = n.res := rfl
@[simp] theorem setSession_resHead (p : Nat) (x : Option Session) : (setSession n p x).resHead = n.resHead := rfl
@[simp] theorem setSession_late (p : Nat) (x : Option Session) : (setSession n p x).late = n.late := rfl
@[simp] theorem setSession_peers (p : Nat) (x : Option Session) : (setSession n p x).peers = n.peers := rfl
@[simp] theorem setSession_peerMsgs (p : Nat) (x : Option Session) : (setSession n p x).peerMsgs = n.peerMsgs := rfl
@[simp] theorem setSession_points (p : Nat) (x : Option Session) : (setSession n p x).points = n.points := rfl
@[simp] theorem setSession_groups (p : Nat) (x : Option Session) : (setSession n p x).groups = n.groups := rfl
@[simp] theorem setSession_remoteFos (p : Nat) (x : Option Session) : (setSession n p x).remoteFos = n.remoteFos := rfl
@[simp] theorem setSession_remoteActs (p : Nat) (x : Option Session) : (setSession n p x).remoteActs = n.remoteActs := rfl
@[simp] theorem setSession_almCnt (p : Nat) (x : Option Session) : (setSession n p x).almCnt = n.almCnt := rfl
@[simp] theorem setSession_call (p : Nat) (x : Option Session) : (setSession n p x).call = n.call := rfl
@[simp] theorem setSession_stations (p : Nat) (x : Option Session) : (setSession n p x).stations = n.stations := rfl
@[simp] theorem setSession_safety (p : Nat) (x : Option Session) : (setSession n p x).safety = n.safety := rfl
@[simp] theorem setSession_lanes (p : Nat) (x : Option Session) : (setSession n p x).lanes = n.lanes := rfl
@[simp] theorem setSession_laneSt (p : Nat) (x : Option Session) : (setSession n p x).laneSt = n.laneSt := rfl
@[simp] theorem setSession_duplex (p : Nat) (x : Option Session) : (setSession n p x).duplex = n.duplex := rfl
@[simp] theorem setSession_cans (p : Nat) (x : Option Session) : (setSession n p x).cans = n.cans := rfl
@[simp] theorem setSession_tsRef (p : Nat) (x : Option Session) : (setSession n p x).tsRef = n.tsRef := rfl
@[simp] theorem setSession_net (p : Nat) (x : Option Session) : (setSession n p x).net = n.net := rfl
@[simp] theorem setSession_nodeSt (p : Nat) (x : Option Session) : (setSession n p x).nodeSt = n.nodeSt := rfl
@[simp] theorem setSession_power (p : Nat) (x : Option Session) : (setSession n p x).power = n.power := rfl
@[simp] theorem setSession_dueB (p : Nat) (x : Option Session) : (setSession n p x).dueB = n.dueB := rfl
@[simp] theorem setSession_dueR (p : Nat) (x : Option Session) : (setSession n p x).dueR = n.dueR := rfl
@[simp] theorem setSession_free (p : Nat) (x : Option Session) : (setSession n p x).free = n.free := rfl
@[simp] theorem setSession_outs (p : Nat) (x : Option Session) : (setSession n p x).outs = n.outs := rfl

@[simp] theorem modRec_now (f : Recorder → Recorder) : (modRec n f).now = n.now := rfl
@[simp] theorem modRec_taiOff (f : Recorder → Recorder) : (modRec n f).taiOff = n.taiOff := rfl
@[simp] theorem modRec_slewFrom (f : Recorder → Recorder) : (modRec n f).slewFrom = n.slewFrom := rfl
@[simp] theorem modRec_slewBy (f : Recorder → Recorder) : (modRec n f).slewBy = n.slewBy := rfl
@[simp] theorem modRec_frame (f : Recorder → Recorder) : (modRec n f).frame = n.frame := rfl
@[simp] theorem modRec_period (f : Recorder → Recorder) : (modRec n f).period = n.period := rfl
@[simp] theorem modRec_sampleT (f : Recorder → Recorder) : (modRec n f).sampleT = n.sampleT := rfl
@[simp] theorem modRec_sAt (f : Recorder → Recorder) : (modRec n f).sAt = n.sAt := rfl
@[simp] theorem modRec_bAt (f : Recorder → Recorder) : (modRec n f).bAt = n.bAt := rfl
@[simp] theorem modRec_regs (f : Recorder → Recorder) : (modRec n f).regs = n.regs := rfl
@[simp] theorem modRec_staged (f : Recorder → Recorder) : (modRec n f).staged = n.staged := rfl
@[simp] theorem modRec_headers (f : Recorder → Recorder) : (modRec n f).headers = n.headers := rfl
@[simp] theorem modRec_seqs (f : Recorder → Recorder) : (modRec n f).seqs = n.seqs := rfl
@[simp] theorem modRec_cmds (f : Recorder → Recorder) : (modRec n f).cmds = n.cmds := rfl
@[simp] theorem modRec_acts (f : Recorder → Recorder) : (modRec n f).acts = n.acts := rfl
@[simp] theorem modRec_vectors (f : Recorder → Recorder) : (modRec n f).vectors = n.vectors := rfl
@[simp] theorem modRec_endpoint (f : Recorder → Recorder) : (modRec n f).endpoint = n.endpoint := rfl
@[simp] theorem modRec_unshown (f : Recorder → Recorder) : (modRec n f).unshown = n.unshown := rfl
@[simp] theorem modRec_unshownStaged (f : Recorder → Recorder) : (modRec n f).unshownStaged = n.unshownStaged := rfl
@[simp] theorem modRec_readHold (f : Recorder → Recorder) : (modRec n f).readHold = n.readHold := rfl
@[simp] theorem modRec_writeHold (f : Recorder → Recorder) : (modRec n f).writeHold = n.writeHold := rfl
@[simp] theorem modRec_mgt (f : Recorder → Recorder) : (modRec n f).mgt = n.mgt := rfl
@[simp] theorem modRec_mirror (f : Recorder → Recorder) : (modRec n f).mirror = n.mirror := rfl
@[simp] theorem modRec_rec_ (f : Recorder → Recorder) : (modRec n f).rec_ = f n.rec_ := rfl
@[simp] theorem modRec_tb (f : Recorder → Recorder) : (modRec n f).tb = n.tb := rfl
@[simp] theorem modRec_launches (f : Recorder → Recorder) : (modRec n f).launches = n.launches := rfl
@[simp] theorem modRec_lchLast (f : Recorder → Recorder) : (modRec n f).lchLast = n.lchLast := rfl
@[simp] theorem modRec_ranks (f : Recorder → Recorder) : (modRec n f).ranks = n.ranks := rfl
@[simp] theorem modRec_fronts (f : Recorder → Recorder) : (modRec n f).fronts = n.fronts := rfl
@[simp] theorem modRec_acqs (f : Recorder → Recorder) : (modRec n f).acqs = n.acqs := rfl
@[simp] theorem modRec_diags (f : Recorder → Recorder) : (modRec n f).diags = n.diags := rfl
@[simp] theorem modRec_stages (f : Recorder → Recorder) : (modRec n f).stages = n.stages := rfl
@[simp] theorem modRec_res (f : Recorder → Recorder) : (modRec n f).res = n.res := rfl
@[simp] theorem modRec_resHead (f : Recorder → Recorder) : (modRec n f).resHead = n.resHead := rfl
@[simp] theorem modRec_late (f : Recorder → Recorder) : (modRec n f).late = n.late := rfl
@[simp] theorem modRec_peers (f : Recorder → Recorder) : (modRec n f).peers = n.peers := rfl
@[simp] theorem modRec_peerMsgs (f : Recorder → Recorder) : (modRec n f).peerMsgs = n.peerMsgs := rfl
@[simp] theorem modRec_points (f : Recorder → Recorder) : (modRec n f).points = n.points := rfl
@[simp] theorem modRec_groups (f : Recorder → Recorder) : (modRec n f).groups = n.groups := rfl
@[simp] theorem modRec_remoteFos (f : Recorder → Recorder) : (modRec n f).remoteFos = n.remoteFos := rfl
@[simp] theorem modRec_remoteActs (f : Recorder → Recorder) : (modRec n f).remoteActs = n.remoteActs := rfl
@[simp] theorem modRec_almCnt (f : Recorder → Recorder) : (modRec n f).almCnt = n.almCnt := rfl
@[simp] theorem modRec_call (f : Recorder → Recorder) : (modRec n f).call = n.call := rfl
@[simp] theorem modRec_stations (f : Recorder → Recorder) : (modRec n f).stations = n.stations := rfl
@[simp] theorem modRec_safety (f : Recorder → Recorder) : (modRec n f).safety = n.safety := rfl
@[simp] theorem modRec_lanes (f : Recorder → Recorder) : (modRec n f).lanes = n.lanes := rfl
@[simp] theorem modRec_laneSt (f : Recorder → Recorder) : (modRec n f).laneSt = n.laneSt := rfl
@[simp] theorem modRec_duplex (f : Recorder → Recorder) : (modRec n f).duplex = n.duplex := rfl
@[simp] theorem modRec_cans (f : Recorder → Recorder) : (modRec n f).cans = n.cans := rfl
@[simp] theorem modRec_tsRef (f : Recorder → Recorder) : (modRec n f).tsRef = n.tsRef := rfl
@[simp] theorem modRec_net (f : Recorder → Recorder) : (modRec n f).net = n.net := rfl
@[simp] theorem modRec_config (f : Recorder → Recorder) : (modRec n f).config = n.config := rfl
@[simp] theorem modRec_nodeSt (f : Recorder → Recorder) : (modRec n f).nodeSt = n.nodeSt := rfl
@[simp] theorem modRec_power (f : Recorder → Recorder) : (modRec n f).power = n.power := rfl
@[simp] theorem modRec_dueB (f : Recorder → Recorder) : (modRec n f).dueB = n.dueB := rfl
@[simp] theorem modRec_dueR (f : Recorder → Recorder) : (modRec n f).dueR = n.dueR := rfl
@[simp] theorem modRec_free (f : Recorder → Recorder) : (modRec n f).free = n.free := rfl
@[simp] theorem modRec_outs (f : Recorder → Recorder) : (modRec n f).outs = n.outs := rfl

@[simp] theorem modMgt_now (f : Mgt → Mgt) : (modMgt n f).now = n.now := rfl
@[simp] theorem modMgt_taiOff (f : Mgt → Mgt) : (modMgt n f).taiOff = n.taiOff := rfl
@[simp] theorem modMgt_slewFrom (f : Mgt → Mgt) : (modMgt n f).slewFrom = n.slewFrom := rfl
@[simp] theorem modMgt_slewBy (f : Mgt → Mgt) : (modMgt n f).slewBy = n.slewBy := rfl
@[simp] theorem modMgt_frame (f : Mgt → Mgt) : (modMgt n f).frame = n.frame := rfl
@[simp] theorem modMgt_period (f : Mgt → Mgt) : (modMgt n f).period = n.period := rfl
@[simp] theorem modMgt_sampleT (f : Mgt → Mgt) : (modMgt n f).sampleT = n.sampleT := rfl
@[simp] theorem modMgt_sAt (f : Mgt → Mgt) : (modMgt n f).sAt = n.sAt := rfl
@[simp] theorem modMgt_bAt (f : Mgt → Mgt) : (modMgt n f).bAt = n.bAt := rfl
@[simp] theorem modMgt_regs (f : Mgt → Mgt) : (modMgt n f).regs = n.regs := rfl
@[simp] theorem modMgt_staged (f : Mgt → Mgt) : (modMgt n f).staged = n.staged := rfl
@[simp] theorem modMgt_headers (f : Mgt → Mgt) : (modMgt n f).headers = n.headers := rfl
@[simp] theorem modMgt_seqs (f : Mgt → Mgt) : (modMgt n f).seqs = n.seqs := rfl
@[simp] theorem modMgt_cmds (f : Mgt → Mgt) : (modMgt n f).cmds = n.cmds := rfl
@[simp] theorem modMgt_acts (f : Mgt → Mgt) : (modMgt n f).acts = n.acts := rfl
@[simp] theorem modMgt_vectors (f : Mgt → Mgt) : (modMgt n f).vectors = n.vectors := rfl
@[simp] theorem modMgt_endpoint (f : Mgt → Mgt) : (modMgt n f).endpoint = n.endpoint := rfl
@[simp] theorem modMgt_unshown (f : Mgt → Mgt) : (modMgt n f).unshown = n.unshown := rfl
@[simp] theorem modMgt_unshownStaged (f : Mgt → Mgt) : (modMgt n f).unshownStaged = n.unshownStaged := rfl
@[simp] theorem modMgt_readHold (f : Mgt → Mgt) : (modMgt n f).readHold = n.readHold := rfl
@[simp] theorem modMgt_writeHold (f : Mgt → Mgt) : (modMgt n f).writeHold = n.writeHold := rfl
@[simp] theorem modMgt_mgt (f : Mgt → Mgt) : (modMgt n f).mgt = f n.mgt := rfl
@[simp] theorem modMgt_mirror (f : Mgt → Mgt) : (modMgt n f).mirror = n.mirror := rfl
@[simp] theorem modMgt_rec_ (f : Mgt → Mgt) : (modMgt n f).rec_ = n.rec_ := rfl
@[simp] theorem modMgt_tb (f : Mgt → Mgt) : (modMgt n f).tb = n.tb := rfl
@[simp] theorem modMgt_launches (f : Mgt → Mgt) : (modMgt n f).launches = n.launches := rfl
@[simp] theorem modMgt_lchLast (f : Mgt → Mgt) : (modMgt n f).lchLast = n.lchLast := rfl
@[simp] theorem modMgt_ranks (f : Mgt → Mgt) : (modMgt n f).ranks = n.ranks := rfl
@[simp] theorem modMgt_fronts (f : Mgt → Mgt) : (modMgt n f).fronts = n.fronts := rfl
@[simp] theorem modMgt_acqs (f : Mgt → Mgt) : (modMgt n f).acqs = n.acqs := rfl
@[simp] theorem modMgt_diags (f : Mgt → Mgt) : (modMgt n f).diags = n.diags := rfl
@[simp] theorem modMgt_stages (f : Mgt → Mgt) : (modMgt n f).stages = n.stages := rfl
@[simp] theorem modMgt_res (f : Mgt → Mgt) : (modMgt n f).res = n.res := rfl
@[simp] theorem modMgt_resHead (f : Mgt → Mgt) : (modMgt n f).resHead = n.resHead := rfl
@[simp] theorem modMgt_late (f : Mgt → Mgt) : (modMgt n f).late = n.late := rfl
@[simp] theorem modMgt_peers (f : Mgt → Mgt) : (modMgt n f).peers = n.peers := rfl
@[simp] theorem modMgt_peerMsgs (f : Mgt → Mgt) : (modMgt n f).peerMsgs = n.peerMsgs := rfl
@[simp] theorem modMgt_points (f : Mgt → Mgt) : (modMgt n f).points = n.points := rfl
@[simp] theorem modMgt_groups (f : Mgt → Mgt) : (modMgt n f).groups = n.groups := rfl
@[simp] theorem modMgt_remoteFos (f : Mgt → Mgt) : (modMgt n f).remoteFos = n.remoteFos := rfl
@[simp] theorem modMgt_remoteActs (f : Mgt → Mgt) : (modMgt n f).remoteActs = n.remoteActs := rfl
@[simp] theorem modMgt_almCnt (f : Mgt → Mgt) : (modMgt n f).almCnt = n.almCnt := rfl
@[simp] theorem modMgt_call (f : Mgt → Mgt) : (modMgt n f).call = n.call := rfl
@[simp] theorem modMgt_stations (f : Mgt → Mgt) : (modMgt n f).stations = n.stations := rfl
@[simp] theorem modMgt_safety (f : Mgt → Mgt) : (modMgt n f).safety = n.safety := rfl
@[simp] theorem modMgt_lanes (f : Mgt → Mgt) : (modMgt n f).lanes = n.lanes := rfl
@[simp] theorem modMgt_laneSt (f : Mgt → Mgt) : (modMgt n f).laneSt = n.laneSt := rfl
@[simp] theorem modMgt_duplex (f : Mgt → Mgt) : (modMgt n f).duplex = n.duplex := rfl
@[simp] theorem modMgt_cans (f : Mgt → Mgt) : (modMgt n f).cans = n.cans := rfl
@[simp] theorem modMgt_tsRef (f : Mgt → Mgt) : (modMgt n f).tsRef = n.tsRef := rfl
@[simp] theorem modMgt_net (f : Mgt → Mgt) : (modMgt n f).net = n.net := rfl
@[simp] theorem modMgt_config (f : Mgt → Mgt) : (modMgt n f).config = n.config := rfl
@[simp] theorem modMgt_nodeSt (f : Mgt → Mgt) : (modMgt n f).nodeSt = n.nodeSt := rfl
@[simp] theorem modMgt_power (f : Mgt → Mgt) : (modMgt n f).power = n.power := rfl
@[simp] theorem modMgt_dueB (f : Mgt → Mgt) : (modMgt n f).dueB = n.dueB := rfl
@[simp] theorem modMgt_dueR (f : Mgt → Mgt) : (modMgt n f).dueR = n.dueR := rfl
@[simp] theorem modMgt_free (f : Mgt → Mgt) : (modMgt n f).free = n.free := rfl
@[simp] theorem modMgt_outs (f : Mgt → Mgt) : (modMgt n f).outs = n.outs := rfl

@[simp] theorem modMirror_now (f : Mirror → Mirror) : (modMirror n f).now = n.now := rfl
@[simp] theorem modMirror_taiOff (f : Mirror → Mirror) : (modMirror n f).taiOff = n.taiOff := rfl
@[simp] theorem modMirror_slewFrom (f : Mirror → Mirror) : (modMirror n f).slewFrom = n.slewFrom := rfl
@[simp] theorem modMirror_slewBy (f : Mirror → Mirror) : (modMirror n f).slewBy = n.slewBy := rfl
@[simp] theorem modMirror_frame (f : Mirror → Mirror) : (modMirror n f).frame = n.frame := rfl
@[simp] theorem modMirror_period (f : Mirror → Mirror) : (modMirror n f).period = n.period := rfl
@[simp] theorem modMirror_sampleT (f : Mirror → Mirror) : (modMirror n f).sampleT = n.sampleT := rfl
@[simp] theorem modMirror_sAt (f : Mirror → Mirror) : (modMirror n f).sAt = n.sAt := rfl
@[simp] theorem modMirror_bAt (f : Mirror → Mirror) : (modMirror n f).bAt = n.bAt := rfl
@[simp] theorem modMirror_regs (f : Mirror → Mirror) : (modMirror n f).regs = n.regs := rfl
@[simp] theorem modMirror_staged (f : Mirror → Mirror) : (modMirror n f).staged = n.staged := rfl
@[simp] theorem modMirror_headers (f : Mirror → Mirror) : (modMirror n f).headers = n.headers := rfl
@[simp] theorem modMirror_seqs (f : Mirror → Mirror) : (modMirror n f).seqs = n.seqs := rfl
@[simp] theorem modMirror_cmds (f : Mirror → Mirror) : (modMirror n f).cmds = n.cmds := rfl
@[simp] theorem modMirror_acts (f : Mirror → Mirror) : (modMirror n f).acts = n.acts := rfl
@[simp] theorem modMirror_vectors (f : Mirror → Mirror) : (modMirror n f).vectors = n.vectors := rfl
@[simp] theorem modMirror_endpoint (f : Mirror → Mirror) : (modMirror n f).endpoint = n.endpoint := rfl
@[simp] theorem modMirror_unshown (f : Mirror → Mirror) : (modMirror n f).unshown = n.unshown := rfl
@[simp] theorem modMirror_unshownStaged (f : Mirror → Mirror) : (modMirror n f).unshownStaged = n.unshownStaged := rfl
@[simp] theorem modMirror_readHold (f : Mirror → Mirror) : (modMirror n f).readHold = n.readHold := rfl
@[simp] theorem modMirror_writeHold (f : Mirror → Mirror) : (modMirror n f).writeHold = n.writeHold := rfl
@[simp] theorem modMirror_mgt (f : Mirror → Mirror) : (modMirror n f).mgt = n.mgt := rfl
@[simp] theorem modMirror_mirror (f : Mirror → Mirror) : (modMirror n f).mirror = f n.mirror := rfl
@[simp] theorem modMirror_rec_ (f : Mirror → Mirror) : (modMirror n f).rec_ = n.rec_ := rfl
@[simp] theorem modMirror_tb (f : Mirror → Mirror) : (modMirror n f).tb = n.tb := rfl
@[simp] theorem modMirror_launches (f : Mirror → Mirror) : (modMirror n f).launches = n.launches := rfl
@[simp] theorem modMirror_lchLast (f : Mirror → Mirror) : (modMirror n f).lchLast = n.lchLast := rfl
@[simp] theorem modMirror_ranks (f : Mirror → Mirror) : (modMirror n f).ranks = n.ranks := rfl
@[simp] theorem modMirror_fronts (f : Mirror → Mirror) : (modMirror n f).fronts = n.fronts := rfl
@[simp] theorem modMirror_acqs (f : Mirror → Mirror) : (modMirror n f).acqs = n.acqs := rfl
@[simp] theorem modMirror_diags (f : Mirror → Mirror) : (modMirror n f).diags = n.diags := rfl
@[simp] theorem modMirror_stages (f : Mirror → Mirror) : (modMirror n f).stages = n.stages := rfl
@[simp] theorem modMirror_res (f : Mirror → Mirror) : (modMirror n f).res = n.res := rfl
@[simp] theorem modMirror_resHead (f : Mirror → Mirror) : (modMirror n f).resHead = n.resHead := rfl
@[simp] theorem modMirror_late (f : Mirror → Mirror) : (modMirror n f).late = n.late := rfl
@[simp] theorem modMirror_peers (f : Mirror → Mirror) : (modMirror n f).peers = n.peers := rfl
@[simp] theorem modMirror_peerMsgs (f : Mirror → Mirror) : (modMirror n f).peerMsgs = n.peerMsgs := rfl
@[simp] theorem modMirror_points (f : Mirror → Mirror) : (modMirror n f).points = n.points := rfl
@[simp] theorem modMirror_groups (f : Mirror → Mirror) : (modMirror n f).groups = n.groups := rfl
@[simp] theorem modMirror_remoteFos (f : Mirror → Mirror) : (modMirror n f).remoteFos = n.remoteFos := rfl
@[simp] theorem modMirror_remoteActs (f : Mirror → Mirror) : (modMirror n f).remoteActs = n.remoteActs := rfl
@[simp] theorem modMirror_almCnt (f : Mirror → Mirror) : (modMirror n f).almCnt = n.almCnt := rfl
@[simp] theorem modMirror_call (f : Mirror → Mirror) : (modMirror n f).call = n.call := rfl
@[simp] theorem modMirror_stations (f : Mirror → Mirror) : (modMirror n f).stations = n.stations := rfl
@[simp] theorem modMirror_safety (f : Mirror → Mirror) : (modMirror n f).safety = n.safety := rfl
@[simp] theorem modMirror_lanes (f : Mirror → Mirror) : (modMirror n f).lanes = n.lanes := rfl
@[simp] theorem modMirror_laneSt (f : Mirror → Mirror) : (modMirror n f).laneSt = n.laneSt := rfl
@[simp] theorem modMirror_duplex (f : Mirror → Mirror) : (modMirror n f).duplex = n.duplex := rfl
@[simp] theorem modMirror_cans (f : Mirror → Mirror) : (modMirror n f).cans = n.cans := rfl
@[simp] theorem modMirror_tsRef (f : Mirror → Mirror) : (modMirror n f).tsRef = n.tsRef := rfl
@[simp] theorem modMirror_net (f : Mirror → Mirror) : (modMirror n f).net = n.net := rfl
@[simp] theorem modMirror_config (f : Mirror → Mirror) : (modMirror n f).config = n.config := rfl
@[simp] theorem modMirror_nodeSt (f : Mirror → Mirror) : (modMirror n f).nodeSt = n.nodeSt := rfl
@[simp] theorem modMirror_power (f : Mirror → Mirror) : (modMirror n f).power = n.power := rfl
@[simp] theorem modMirror_dueB (f : Mirror → Mirror) : (modMirror n f).dueB = n.dueB := rfl
@[simp] theorem modMirror_dueR (f : Mirror → Mirror) : (modMirror n f).dueR = n.dueR := rfl
@[simp] theorem modMirror_free (f : Mirror → Mirror) : (modMirror n f).free = n.free := rfl
@[simp] theorem modMirror_outs (f : Mirror → Mirror) : (modMirror n f).outs = n.outs := rfl

@[simp] theorem modNode_now (f : NodeSt → NodeSt) : (modNode n f).now = n.now := rfl
@[simp] theorem modNode_taiOff (f : NodeSt → NodeSt) : (modNode n f).taiOff = n.taiOff := rfl
@[simp] theorem modNode_slewFrom (f : NodeSt → NodeSt) : (modNode n f).slewFrom = n.slewFrom := rfl
@[simp] theorem modNode_slewBy (f : NodeSt → NodeSt) : (modNode n f).slewBy = n.slewBy := rfl
@[simp] theorem modNode_frame (f : NodeSt → NodeSt) : (modNode n f).frame = n.frame := rfl
@[simp] theorem modNode_period (f : NodeSt → NodeSt) : (modNode n f).period = n.period := rfl
@[simp] theorem modNode_sampleT (f : NodeSt → NodeSt) : (modNode n f).sampleT = n.sampleT := rfl
@[simp] theorem modNode_sAt (f : NodeSt → NodeSt) : (modNode n f).sAt = n.sAt := rfl
@[simp] theorem modNode_bAt (f : NodeSt → NodeSt) : (modNode n f).bAt = n.bAt := rfl
@[simp] theorem modNode_regs (f : NodeSt → NodeSt) : (modNode n f).regs = n.regs := rfl
@[simp] theorem modNode_staged (f : NodeSt → NodeSt) : (modNode n f).staged = n.staged := rfl
@[simp] theorem modNode_headers (f : NodeSt → NodeSt) : (modNode n f).headers = n.headers := rfl
@[simp] theorem modNode_seqs (f : NodeSt → NodeSt) : (modNode n f).seqs = n.seqs := rfl
@[simp] theorem modNode_cmds (f : NodeSt → NodeSt) : (modNode n f).cmds = n.cmds := rfl
@[simp] theorem modNode_acts (f : NodeSt → NodeSt) : (modNode n f).acts = n.acts := rfl
@[simp] theorem modNode_vectors (f : NodeSt → NodeSt) : (modNode n f).vectors = n.vectors := rfl
@[simp] theorem modNode_endpoint (f : NodeSt → NodeSt) : (modNode n f).endpoint = n.endpoint := rfl
@[simp] theorem modNode_unshown (f : NodeSt → NodeSt) : (modNode n f).unshown = n.unshown := rfl
@[simp] theorem modNode_unshownStaged (f : NodeSt → NodeSt) : (modNode n f).unshownStaged = n.unshownStaged := rfl
@[simp] theorem modNode_readHold (f : NodeSt → NodeSt) : (modNode n f).readHold = n.readHold := rfl
@[simp] theorem modNode_writeHold (f : NodeSt → NodeSt) : (modNode n f).writeHold = n.writeHold := rfl
@[simp] theorem modNode_mgt (f : NodeSt → NodeSt) : (modNode n f).mgt = n.mgt := rfl
@[simp] theorem modNode_mirror (f : NodeSt → NodeSt) : (modNode n f).mirror = n.mirror := rfl
@[simp] theorem modNode_rec_ (f : NodeSt → NodeSt) : (modNode n f).rec_ = n.rec_ := rfl
@[simp] theorem modNode_tb (f : NodeSt → NodeSt) : (modNode n f).tb = n.tb := rfl
@[simp] theorem modNode_launches (f : NodeSt → NodeSt) : (modNode n f).launches = n.launches := rfl
@[simp] theorem modNode_lchLast (f : NodeSt → NodeSt) : (modNode n f).lchLast = n.lchLast := rfl
@[simp] theorem modNode_ranks (f : NodeSt → NodeSt) : (modNode n f).ranks = n.ranks := rfl
@[simp] theorem modNode_fronts (f : NodeSt → NodeSt) : (modNode n f).fronts = n.fronts := rfl
@[simp] theorem modNode_acqs (f : NodeSt → NodeSt) : (modNode n f).acqs = n.acqs := rfl
@[simp] theorem modNode_diags (f : NodeSt → NodeSt) : (modNode n f).diags = n.diags := rfl
@[simp] theorem modNode_stages (f : NodeSt → NodeSt) : (modNode n f).stages = n.stages := rfl
@[simp] theorem modNode_res (f : NodeSt → NodeSt) : (modNode n f).res = n.res := rfl
@[simp] theorem modNode_resHead (f : NodeSt → NodeSt) : (modNode n f).resHead = n.resHead := rfl
@[simp] theorem modNode_late (f : NodeSt → NodeSt) : (modNode n f).late = n.late := rfl
@[simp] theorem modNode_peers (f : NodeSt → NodeSt) : (modNode n f).peers = n.peers := rfl
@[simp] theorem modNode_peerMsgs (f : NodeSt → NodeSt) : (modNode n f).peerMsgs = n.peerMsgs := rfl
@[simp] theorem modNode_points (f : NodeSt → NodeSt) : (modNode n f).points = n.points := rfl
@[simp] theorem modNode_groups (f : NodeSt → NodeSt) : (modNode n f).groups = n.groups := rfl
@[simp] theorem modNode_remoteFos (f : NodeSt → NodeSt) : (modNode n f).remoteFos = n.remoteFos := rfl
@[simp] theorem modNode_remoteActs (f : NodeSt → NodeSt) : (modNode n f).remoteActs = n.remoteActs := rfl
@[simp] theorem modNode_almCnt (f : NodeSt → NodeSt) : (modNode n f).almCnt = n.almCnt := rfl
@[simp] theorem modNode_call (f : NodeSt → NodeSt) : (modNode n f).call = n.call := rfl
@[simp] theorem modNode_stations (f : NodeSt → NodeSt) : (modNode n f).stations = n.stations := rfl
@[simp] theorem modNode_safety (f : NodeSt → NodeSt) : (modNode n f).safety = n.safety := rfl
@[simp] theorem modNode_lanes (f : NodeSt → NodeSt) : (modNode n f).lanes = n.lanes := rfl
@[simp] theorem modNode_laneSt (f : NodeSt → NodeSt) : (modNode n f).laneSt = n.laneSt := rfl
@[simp] theorem modNode_duplex (f : NodeSt → NodeSt) : (modNode n f).duplex = n.duplex := rfl
@[simp] theorem modNode_cans (f : NodeSt → NodeSt) : (modNode n f).cans = n.cans := rfl
@[simp] theorem modNode_tsRef (f : NodeSt → NodeSt) : (modNode n f).tsRef = n.tsRef := rfl
@[simp] theorem modNode_net (f : NodeSt → NodeSt) : (modNode n f).net = n.net := rfl
@[simp] theorem modNode_config (f : NodeSt → NodeSt) : (modNode n f).config = n.config := rfl
@[simp] theorem modNode_nodeSt (f : NodeSt → NodeSt) : (modNode n f).nodeSt = f n.nodeSt := rfl
@[simp] theorem modNode_power (f : NodeSt → NodeSt) : (modNode n f).power = n.power := rfl
@[simp] theorem modNode_dueB (f : NodeSt → NodeSt) : (modNode n f).dueB = n.dueB := rfl
@[simp] theorem modNode_dueR (f : NodeSt → NodeSt) : (modNode n f).dueR = n.dueR := rfl
@[simp] theorem modNode_free (f : NodeSt → NodeSt) : (modNode n f).free = n.free := rfl
@[simp] theorem modNode_outs (f : NodeSt → NodeSt) : (modNode n f).outs = n.outs := rfl

@[simp] theorem modPower_now (f : Power → Power) : (modPower n f).now = n.now := rfl
@[simp] theorem modPower_taiOff (f : Power → Power) : (modPower n f).taiOff = n.taiOff := rfl
@[simp] theorem modPower_slewFrom (f : Power → Power) : (modPower n f).slewFrom = n.slewFrom := rfl
@[simp] theorem modPower_slewBy (f : Power → Power) : (modPower n f).slewBy = n.slewBy := rfl
@[simp] theorem modPower_frame (f : Power → Power) : (modPower n f).frame = n.frame := rfl
@[simp] theorem modPower_period (f : Power → Power) : (modPower n f).period = n.period := rfl
@[simp] theorem modPower_sampleT (f : Power → Power) : (modPower n f).sampleT = n.sampleT := rfl
@[simp] theorem modPower_sAt (f : Power → Power) : (modPower n f).sAt = n.sAt := rfl
@[simp] theorem modPower_bAt (f : Power → Power) : (modPower n f).bAt = n.bAt := rfl
@[simp] theorem modPower_regs (f : Power → Power) : (modPower n f).regs = n.regs := rfl
@[simp] theorem modPower_staged (f : Power → Power) : (modPower n f).staged = n.staged := rfl
@[simp] theorem modPower_headers (f : Power → Power) : (modPower n f).headers = n.headers := rfl
@[simp] theorem modPower_seqs (f : Power → Power) : (modPower n f).seqs = n.seqs := rfl
@[simp] theorem modPower_cmds (f : Power → Power) : (modPower n f).cmds = n.cmds := rfl
@[simp] theorem modPower_acts (f : Power → Power) : (modPower n f).acts = n.acts := rfl
@[simp] theorem modPower_vectors (f : Power → Power) : (modPower n f).vectors = n.vectors := rfl
@[simp] theorem modPower_endpoint (f : Power → Power) : (modPower n f).endpoint = n.endpoint := rfl
@[simp] theorem modPower_unshown (f : Power → Power) : (modPower n f).unshown = n.unshown := rfl
@[simp] theorem modPower_unshownStaged (f : Power → Power) : (modPower n f).unshownStaged = n.unshownStaged := rfl
@[simp] theorem modPower_readHold (f : Power → Power) : (modPower n f).readHold = n.readHold := rfl
@[simp] theorem modPower_writeHold (f : Power → Power) : (modPower n f).writeHold = n.writeHold := rfl
@[simp] theorem modPower_mgt (f : Power → Power) : (modPower n f).mgt = n.mgt := rfl
@[simp] theorem modPower_mirror (f : Power → Power) : (modPower n f).mirror = n.mirror := rfl
@[simp] theorem modPower_rec_ (f : Power → Power) : (modPower n f).rec_ = n.rec_ := rfl
@[simp] theorem modPower_tb (f : Power → Power) : (modPower n f).tb = n.tb := rfl
@[simp] theorem modPower_launches (f : Power → Power) : (modPower n f).launches = n.launches := rfl
@[simp] theorem modPower_lchLast (f : Power → Power) : (modPower n f).lchLast = n.lchLast := rfl
@[simp] theorem modPower_ranks (f : Power → Power) : (modPower n f).ranks = n.ranks := rfl
@[simp] theorem modPower_fronts (f : Power → Power) : (modPower n f).fronts = n.fronts := rfl
@[simp] theorem modPower_acqs (f : Power → Power) : (modPower n f).acqs = n.acqs := rfl
@[simp] theorem modPower_diags (f : Power → Power) : (modPower n f).diags = n.diags := rfl
@[simp] theorem modPower_stages (f : Power → Power) : (modPower n f).stages = n.stages := rfl
@[simp] theorem modPower_res (f : Power → Power) : (modPower n f).res = n.res := rfl
@[simp] theorem modPower_resHead (f : Power → Power) : (modPower n f).resHead = n.resHead := rfl
@[simp] theorem modPower_late (f : Power → Power) : (modPower n f).late = n.late := rfl
@[simp] theorem modPower_peers (f : Power → Power) : (modPower n f).peers = n.peers := rfl
@[simp] theorem modPower_peerMsgs (f : Power → Power) : (modPower n f).peerMsgs = n.peerMsgs := rfl
@[simp] theorem modPower_points (f : Power → Power) : (modPower n f).points = n.points := rfl
@[simp] theorem modPower_groups (f : Power → Power) : (modPower n f).groups = n.groups := rfl
@[simp] theorem modPower_remoteFos (f : Power → Power) : (modPower n f).remoteFos = n.remoteFos := rfl
@[simp] theorem modPower_remoteActs (f : Power → Power) : (modPower n f).remoteActs = n.remoteActs := rfl
@[simp] theorem modPower_almCnt (f : Power → Power) : (modPower n f).almCnt = n.almCnt := rfl
@[simp] theorem modPower_call (f : Power → Power) : (modPower n f).call = n.call := rfl
@[simp] theorem modPower_stations (f : Power → Power) : (modPower n f).stations = n.stations := rfl
@[simp] theorem modPower_safety (f : Power → Power) : (modPower n f).safety = n.safety := rfl
@[simp] theorem modPower_lanes (f : Power → Power) : (modPower n f).lanes = n.lanes := rfl
@[simp] theorem modPower_laneSt (f : Power → Power) : (modPower n f).laneSt = n.laneSt := rfl
@[simp] theorem modPower_duplex (f : Power → Power) : (modPower n f).duplex = n.duplex := rfl
@[simp] theorem modPower_cans (f : Power → Power) : (modPower n f).cans = n.cans := rfl
@[simp] theorem modPower_tsRef (f : Power → Power) : (modPower n f).tsRef = n.tsRef := rfl
@[simp] theorem modPower_net (f : Power → Power) : (modPower n f).net = n.net := rfl
@[simp] theorem modPower_config (f : Power → Power) : (modPower n f).config = n.config := rfl
@[simp] theorem modPower_nodeSt (f : Power → Power) : (modPower n f).nodeSt = n.nodeSt := rfl
@[simp] theorem modPower_power (f : Power → Power) : (modPower n f).power = f n.power := rfl
@[simp] theorem modPower_dueB (f : Power → Power) : (modPower n f).dueB = n.dueB := rfl
@[simp] theorem modPower_dueR (f : Power → Power) : (modPower n f).dueR = n.dueR := rfl
@[simp] theorem modPower_free (f : Power → Power) : (modPower n f).free = n.free := rfl
@[simp] theorem modPower_outs (f : Power → Power) : (modPower n f).outs = n.outs := rfl

end Sys2Proof.Machine
end

