-- ==== Sys2Proof/Laws/Events.lean ====
section
/-! SUPPORT. What an event leaves beside the node: the copies of both refreshes, the pages under HOLD, the mirror ring and
the queue. -/

namespace Sys2Proof.Machine

section onNode
variable (s : State) (t : Nat) (f : Node → Node)
@[simp] theorem onNode_node : (onNode s t f).node = settle (f (begin_ s.node t)) := rfl
@[simp] theorem onNode_pending : (onNode s t f).pending = s.pending := rfl
@[simp] theorem onNode_atB : (onNode s t f).atB = s.atB := rfl
@[simp] theorem onNode_atR : (onNode s t f).atR = s.atR := rfl
@[simp] theorem onNode_holds : (onNode s t f).holds = s.holds := rfl
@[simp] theorem onNode_bar2 : (onNode s t f).bar2 = s.bar2 := rfl
end onNode

section onState
variable (s : State) (t : Nat) (f : State → State)
@[simp] theorem onState_node : (onState s t f).node = settle (f { s with node := begin_ s.node t }).node := rfl
@[simp] theorem onState_pending : (onState s t f).pending = (f { s with node := begin_ s.node t }).pending := rfl
@[simp] theorem onState_atB : (onState s t f).atB = (f { s with node := begin_ s.node t }).atB := rfl
@[simp] theorem onState_atR : (onState s t f).atR = (f { s with node := begin_ s.node t }).atR := rfl
@[simp] theorem onState_holds : (onState s t f).holds = (f { s with node := begin_ s.node t }).holds := rfl
@[simp] theorem onState_bar2 : (onState s t f).bar2 = (f { s with node := begin_ s.node t }).bar2 := rfl
end onState

/-- An event on the node alone leaves everything else of the machine. -/
theorem exec_onNode_rest {s u : State} {t : Nat} {f : Node → Node}
    (h : (Host.Outcome.next (onNode s t f) : Host.Outcome State Fault Refusal) = .next u) :
    u.atB = s.atB ∧ u.atR = s.atR ∧ u.holds = s.holds ∧ u.bar2 = s.bar2 ∧ u.pending = s.pending := by
  cases h; exact ⟨rfl, rfl, rfl, rfl, rfl⟩

end Sys2Proof.Machine
end

