-- ==== Sys2Proof/Laws/Step.lean ====
section
/-! SUPPORT. What a command can do to the machine beside the node, said once. -/

namespace Sys2Proof.Machine

/-- The commands whose meaning reaches beyond the node: what refreshes, holds or releases the shadow copies, what writes the
mirror ring, and what can reset the node. Every other command changes the node alone. -/
def beyondNode : Instr → Bool
  | .hostRegisterWrite _ _ _ | .mgmtWrite _ _ _ _ | .holdWrite _ _ _ | .holdExpire _ _ | .votedBoundary _ _
  | .resultReady _ | .mirrorBlockWrite _ | .nodeResetCmd _ | .rstNAssert _ | .rstNRelease _ | .perstNAssert _
  | .powerUp _ _ _ | .feedPresent _ _ | .shutdown _ => true
  | _ => false

theorem nodeOnly_onNode (s : State) (t : Nat) (f : Node → Node) : NodeOnly s (onNode s t f) :=
  ⟨rfl, rfl, rfl, rfl, rfl⟩

theorem nodeOnly_mk (s : State) (n : Node) : NodeOnly s { s with node := n } := ⟨rfl, rfl, rfl, rfl, rfl⟩

/-- Every other command answers a next state, and only the node differs. -/
theorem exec_nodeOnly (c : Instr) (s : State) (h : beyondNode c = false) :
    ∃ u, exec c s = .next u ∧ NodeOnly s u := by
  cases c
  case irqStatClear => exact ⟨_, rfl, nodeOnly_mk _ _⟩
  case irqEnWrite => exact ⟨_, rfl, nodeOnly_mk _ _⟩
  case canRxPop => exact ⟨_, rfl, nodeOnly_mk _ _⟩
  case pairLowRead => exact ⟨_, rfl, nodeOnly_mk _ _⟩
  case mgmtRead => exact ⟨_, rfl, nodeOnly_mk _ _⟩
  case recRateRead => exact ⟨_, rfl, nodeOnly_mk _ _⟩
  all_goals first
    | (change true = false at h; cases h)
    | exact ⟨_, rfl, nodeOnly_onNode _ _ _⟩

/-- The refresh at B sets the copy of B and touches no page's other copy. -/
theorem refreshB_rest (s : State) :
    (refreshB s).atR = s.atR ∧ (refreshB s).bar2 = s.bar2 ∧ (refreshB s).pending = s.pending ∧
      (refreshB s).atB = (refreshB s).node := ⟨rfl, rfl, rfl, rfl⟩

theorem refreshR_rest (s : State) :
    (refreshR s).atB = s.atB ∧ (refreshR s).bar2 = s.bar2 ∧ (refreshR s).pending = s.pending ∧
      (refreshR s).atR = (refreshR s).node := ⟨rfl, rfl, rfl, rfl⟩

end Sys2Proof.Machine
end

