-- ==== Sys2Proof/Laws/Commands.lean ====
section
/-! SUPPORT. What the shared operations of a command write do: registers, the marks of acceptance, refusal and the end, and
the writes that can reach beyond the node. -/

namespace Sys2Proof.Machine

/-! Registers -/

theorem lookup_tset_ne {α : Type} [DecidableEq α] (d : α) (t : Tbl α) {k j : Nat} (v : α) (h : j ≠ k) :
    lookup (tset d t k v) j = lookup t j := by
  unfold tset
  split
  · exact lookup_erase_ne t h
  · rw [lookup_insertKey_ne _ v h, lookup_erase_ne t h]

theorem reg_setReg_self (n : Node) (k : Nat) (v : Word) : reg (setReg n k v) k = v := by
  have h := tget_tset (regInit k) n.regs k k v
  simp only [if_true] at h
  exact h

theorem reg_setReg_ne (n : Node) {k j : Nat} (v : Word) (h : j ≠ k) : reg (setReg n k v) j = reg n j := by
  unfold reg setReg
  rw [lookup_tset_ne _ _ _ h]

/-! Acceptance, refusal, the end -/

/-- A command with `onNode` acts on the node as it stands at the instant. -/
theorem acts_onNode {c : Instr} {s : State} {t : Nat} {f : Node → Node} {P : Node → Node → Prop}
    (hc : exec c s = .next (onNode s t f)) (h : P (atInstant s t) (settle (f (atInstant s t)))) : Acts c s t P :=
  ⟨_, hc, nodeOnly_onNode s t f, h⟩

/-- The restart of a session's timeout changes the sessions alone. -/
theorem touchSession_rest (n : Node) (path : Nat) :
    touchSession n path = { n with config := { n.config with sessions := (touchSession n path).config.sessions } } := by
  unfold touchSession
  split <;> rfl

theorem touchSession_path (n : Node) (path q : Nat) :
    sessionOf (touchSession n path) q = (sessionOf n q).map (fun x => if q = path then { x with last := n.now } else x) := by
  unfold touchSession
  split
  · next x hx =>
    unfold sessionOf setSession at *
    by_cases h : q = path
    · subst h; simp [hx]
    · simp [tget_tset, h]
  · next hx =>
    by_cases h : q = path
    · subst h; simp [hx]
    · simp [h]

/-- Acceptance and the decision of the outcome change the path's sequence, the page's command and the session alone. -/
theorem accepted_rest (n : Node) (path p off : Nat) (v : Word) (res : Option Bool) :
    accepted n path p off v res = { n with
      seqs := (accepted n path p off v res).seqs, cmds := (accepted n path p off v res).cmds,
      config := { n.config with sessions := (accepted n path p off v res).config.sessions } } := by
  unfold accepted resolveCmd acceptCmd touchSession
  dsimp only
  split <;> rfl

/-- A command write, by its judgement. -/
theorem runCommand_cases {P : Node → Prop} (n : Node) (path p off : Nat) (v : Word) (c : CmdCheck)
    (eff : Node → Node × Option Bool) (hd : judge n path p c = .duplicate → P n)
    (hr : ∀ code, judge n path p c = .refuse code → P (setCmdRes n path p code))
    (ha : judge n path p c = .accept →
      P (resolveCmd (eff (acceptCmd n path p off v)).1 p (eff (acceptCmd n path p off v)).2)) :
    P (runCommand n path p off v c eff) := by
  unfold runCommand
  split
  · exact hd ‹_›
  · exact hr _ ‹_›
  · exact ha ‹_›

/-! Writes beyond the node: the shadow copies and the mirror ring stand where the register is not NODE_CTRL, and the queue
always. -/

theorem resetState_pending (s : State) (n : Node) : (resetState s n).pending = s.pending := rfl

theorem nodeCtrl_pending (s : State) (path : Nat) (v : Word) : (nodeCtrlWrite s path v).pending = s.pending := by
  unfold nodeCtrlWrite
  split
  · cases judge s.node path 0 { state := !failNow s.node } with
    | duplicate => exact rfl
    | refuse c => exact rfl
    | accept => exact resetState_pending _ _
  · exact rfl

theorem releaseHold_rest (s : State) (p : Nat) :
    (releaseHold s p).atB = s.atB ∧ (releaseHold s p).atR = s.atR ∧ (releaseHold s p).bar2 = s.bar2 ∧
      (releaseHold s p).pending = s.pending ∧ (releaseHold s p).node = s.node := by
  unfold releaseHold
  split <;> exact ⟨rfl, rfl, rfl, rfl, rfl⟩

theorem writePageCtrl_rest (s : State) (p : Nat) (v : Word) :
    (writePageCtrl s p v).atB = s.atB ∧ (writePageCtrl s p v).atR = s.atR ∧
      (writePageCtrl s p v).bar2 = s.bar2 ∧ (writePageCtrl s p v).pending = s.pending := by
  unfold writePageCtrl
  dsimp only
  split
  · exact ⟨rfl, rfl, rfl, rfl⟩
  · split
    · split <;> exact ⟨rfl, rfl, rfl, rfl⟩
    · obtain ⟨h1, h2, h3, h4, -⟩ := releaseHold_rest { s with node := _ } p
      exact ⟨h1, h2, h3, h4⟩

theorem barWrite_rest (s : State) (path off : Nat) (v : Word) (h : off ≠ 0x54) :
    (barWrite s path off v).atB = s.atB ∧ (barWrite s path off v).atR = s.atR ∧ (barWrite s path off v).bar2 = s.bar2 := by
  unfold barWrite
  dsimp only
  split
  · exact ⟨rfl, rfl, rfl⟩
  · split
    · exact ⟨(writePageCtrl_rest _ _ _).1, (writePageCtrl_rest _ _ _).2.1, (writePageCtrl_rest _ _ _).2.2.1⟩
    · split
      · exact ⟨rfl, rfl, rfl⟩
      · split
        · omega
        · exact ⟨rfl, rfl, rfl⟩

theorem barWrite_pending (s : State) (path off : Nat) (v : Word)  :
    (barWrite s path off v).pending = s.pending := by
  unfold barWrite
  dsimp only
  split
  · rfl
  · split
    · exact (writePageCtrl_rest _ _ _).2.2.2
    · split
      · rfl
      · split
        · exact nodeCtrl_pending _ _ _
        · rfl

theorem pathWrite_pending (s : State) (path off : Nat) (v : Word)  :
    (pathWrite s path off v).pending = s.pending := by
  unfold pathWrite
  dsimp only
  split
  · rfl
  · exact barWrite_pending _ _ _ _

theorem pathWrite_rest (s : State) (path off : Nat) (v : Word) (h : off ≠ 0x54) :
    (pathWrite s path off v).atB = s.atB ∧ (pathWrite s path off v).atR = s.atR ∧ (pathWrite s path off v).bar2 = s.bar2 := by
  unfold pathWrite
  dsimp only
  split
  · exact ⟨rfl, rfl, rfl⟩
  · exact barWrite_rest _ _ _ _ h

theorem mgmtWrite_pending (s : State) (path off : Nat) (v : Word)  :
    (mgmtWrite s path off v).pending = s.pending := by
  unfold mgmtWrite
  split
  · rfl
  · dsimp only; split
    · rfl
    · exact pathWrite_pending _ _ _ _

theorem mgmtWrite_rest (s : State) (path off : Nat) (v : Word) (h : off ≠ 0x54) :
    (mgmtWrite s path off v).atB = s.atB ∧ (mgmtWrite s path off v).atR = s.atR ∧ (mgmtWrite s path off v).bar2 = s.bar2 := by
  unfold mgmtWrite
  split
  · exact ⟨rfl, rfl, rfl⟩
  · dsimp only; split
    · exact ⟨rfl, rfl, rfl⟩
    · exact pathWrite_rest _ _ _ _ h

/-! Commands of the CFG page, and the end of a reset -/

/-- A command of the CFG page has its effect, with the answer a connection gets, or changes nothing but that answer. -/
theorem served_cases (n : Node) (path : Nat) (opens : Bool) (f : Node → Node) :
    (path = hostPath ∧ served n path opens f = f n) ∨
    (path ≠ hostPath ∧ mgmtUp n path = false ∧ served n path opens f = n) ∨
    (path ≠ hostPath ∧ mgmtUp n path = true ∧ ∃ st,
      (st = 2 ∧ served n path opens f = emit n (.mgmt path st 0)) ∨ (st ≠ 2 ∧ served n path opens f = emit (f n) (.mgmt path st 0))) := by
  unfold served
  by_cases h : path = hostPath
  · simp [h]
  · cases hu : mgmtUp n path
    · simp [h]
    · by_cases k : mgmtStatus n path 0 opens = 2
      · exact .inr (.inr ⟨h, rfl, 2, by simp [h, k]⟩)
      · exact .inr (.inr ⟨h, rfl, _, .inr ⟨k, by simp [h, k]⟩⟩)

/-- A reset ends in a start-up, unless RST_N is low or the rails are off. -/
theorem endReset_cases (n : Node) :
    ((n.nodeSt.held = true ∨ n.power.off = true) ∧ endReset n = n) ∨
    (n.nodeSt.held = false ∧ n.power.off = false ∧ endReset n = beginStart n n.nodeSt.rstCause) := by
  unfold endReset
  cases n.nodeSt.held <;> cases n.power.off <;> simp

end Sys2Proof.Machine
end

