-- ==== Sys2Proof/Laws/Records.lean ====
section
/-! SUPPORT. What an event's record leaves of the node: the recorder, the change log and the REC page's interrupts
change, nothing else. -/

namespace Sys2Proof.Machine

/-- A node that differs from another in what a record may change, and in nothing else: the recorder, the log of the
configuration, the interrupts of the REC page, and the bound of the power-fail commit. -/
def RecFrame (n m : Node) : Prop :=
  ∃ r l h d q, m = { n with rec_ := r, config := { n.config with log := l }, headers := h, dueB := d,
                            power := { n.power with sure := q } } ∧
    (∀ p, p ≠ 6 → tget {} h p = tget {} n.headers p)

theorem recFrame_refl (n : Node) : RecFrame n n :=
  ⟨n.rec_, n.config.log, n.headers, n.dueB, n.power.sure, rfl, fun _ _ => rfl⟩

theorem recFrame_trans {a b c : Node} (h : RecFrame a b) (k : RecFrame b c) : RecFrame a c := by
  obtain ⟨r, l, h1, d, q, rfl, hh⟩ := h
  obtain ⟨r', l', h1', d', q', rfl, hh'⟩ := k
  exact ⟨r', l', h1', d', q', rfl, fun p hp => (hh' p hp).trans (hh p hp)⟩

theorem recFrame_rec (n : Node) (r : Recorder) : RecFrame n { n with rec_ := r } :=
  ⟨r, n.config.log, n.headers, n.dueB, n.power.sure, rfl, fun _ _ => rfl⟩

theorem recFrame_modCap (n : Node) (k : Nat) (f : Capture → Capture) : RecFrame n (modCap n k f) := recFrame_rec n _

theorem recFrame_raise (n : Node) (b : Nat) : RecFrame n (raise n 6 b) :=
  ⟨n.rec_, n.config.log, _, n.dueB, n.power.sure, rfl, fun _ hp => tget_tmod_ne _ _ _ hp⟩

theorem recFrame_raiseB (n : Node) (p b : Nat) : RecFrame n (raiseB n p b) :=
  ⟨n.rec_, n.config.log, n.headers, _, n.power.sure, rfl, fun _ _ => rfl⟩

theorem recFrame_afterStage (n : Node) (q : Nat) (r : Rec) : RecFrame n (afterStage n q r) := by
  have log : ∀ l, RecFrame n { n with config := { n.config with log := l } } := fun l =>
    ⟨n.rec_, l, n.headers, n.dueB, n.power.sure, rfl, fun _ _ => rfl⟩
  unfold afterStage
  split <;> split
  · exact recFrame_refl n
  · exact recFrame_modCap n _ _
  · exact log _
  · exact recFrame_trans (log _) (recFrame_modCap _ _ _)

theorem recFrame_raiseIf (c : Bool) (n : Node) (b : Nat) : RecFrame n (raiseIf c n 6 b) := by
  cases c
  · exact recFrame_refl n
  · exact recFrame_raise n b

theorem recFrame_discardRec (n : Node) (r : Rec) : RecFrame n (discardRec n r) := by
  have first := fun c m => recFrame_trans (recFrame_rec n m) (recFrame_raiseIf c { n with rec_ := m } 3)
  cases hc : r.cap with
  | none =>
    simp only [discardRec, hc]
    exact first _ _
  | some d =>
    simp only [discardRec, hc]
    split
    · exact recFrame_trans (first _ _) (recFrame_trans (recFrame_modCap _ _ _) (recFrame_raiseB _ _ _))
    · exact first _ _

theorem recFrame_sureOf (n : Node) (q : Nat) : RecFrame n (sureOf n q) := by
  unfold sureOf
  split
  · exact ⟨n.rec_, n.config.log, n.headers, n.dueB, q, rfl, fun _ _ => rfl⟩
  · exact recFrame_refl n

theorem recFrame_commitTo (n : Node) (q : Nat) : RecFrame n (commitTo n q) := recFrame_rec n _

theorem recFrame_finishClear (n : Node) (q : Option Nat) (r : Rec) : RecFrame n (finishClear n q r) := by
  unfold finishClear
  split
  · exact recFrame_refl n
  · cases q
    · exact recFrame_rec n _
    · exact recFrame_trans (recFrame_commitTo n _) (recFrame_rec _ _)

theorem recFrame_countStaged (n : Node) : RecFrame n (countStaged n) := recFrame_rec n _

/-- Staging a record changes nothing but what `RecFrame` names. -/
theorem recFrame_stageRec (n : Node) (vote : Nat) (r : Rec) : RecFrame n (stageRec n vote r) := by
  unfold stageRec
  split
  · exact recFrame_refl n
  · split
    · exact recFrame_trans (recFrame_discardRec n r) (recFrame_finishClear _ _ _)
    · refine recFrame_trans (recFrame_trans (recFrame_trans (recFrame_trans (recFrame_rec n _) (recFrame_sureOf _ _))
        (recFrame_countStaged _)) (recFrame_afterStage _ _ _)) (recFrame_finishClear _ _ _)

/-- An event's record changes nothing but what `RecFrame` names. -/
theorem recFrame_note (n : Node) (r : Rec) : RecFrame n (note n r) := by
  unfold note
  split
  · exact recFrame_rec n _
  · split
    · exact recFrame_stageRec n 3 r
    · exact recFrame_rec n _

theorem headerOf_note (n : Node) (r : Rec) {p : Nat} (hp : p ≠ 6) : headerOf (note n r) p = headerOf n p := by
  obtain ⟨_, _, h, _, _, e, hh⟩ := recFrame_note n r
  rw [e]
  exact hh p hp

theorem sessionOf_note (n : Node) (r : Rec) (k : Nat) : sessionOf (note n r) k = sessionOf n k := by
  obtain ⟨_, _, _, _, _, e, _⟩ := recFrame_note n r
  rw [e]; rfl

theorem accountOf_note (n : Node) (r : Rec) (k : Nat) : accountOf (note n r) k = accountOf n k := by
  obtain ⟨_, _, _, _, _, e, _⟩ := recFrame_note n r
  rw [e]; rfl

/-! The fields a record leaves -/

@[simp] theorem note_now (n : Node) (r : Rec) : (note n r).now = n.now := by
  obtain ⟨_, _, _, _, _, e, _⟩ := recFrame_note n r; rw [e]
@[simp] theorem note_taiOff (n : Node) (r : Rec) : (note n r).taiOff = n.taiOff := by
  obtain ⟨_, _, _, _, _, e, _⟩ := recFrame_note n r; rw [e]
@[simp] theorem note_slewFrom (n : Node) (r : Rec) : (note n r).slewFrom = n.slewFrom := by
  obtain ⟨_, _, _, _, _, e, _⟩ := recFrame_note n r; rw [e]
@[simp] theorem note_slewBy (n : Node) (r : Rec) : (note n r).slewBy = n.slewBy := by
  obtain ⟨_, _, _, _, _, e, _⟩ := recFrame_note n r; rw [e]
@[simp] theorem note_frame (n : Node) (r : Rec) : (note n r).frame = n.frame := by
  obtain ⟨_, _, _, _, _, e, _⟩ := recFrame_note n r; rw [e]
@[simp] theorem note_period (n : Node) (r : Rec) : (note n r).period = n.period := by
  obtain ⟨_, _, _, _, _, e, _⟩ := recFrame_note n r; rw [e]
@[simp] theorem note_sampleT (n : Node) (r : Rec) : (note n r).sampleT = n.sampleT := by
  obtain ⟨_, _, _, _, _, e, _⟩ := recFrame_note n r; rw [e]
@[simp] theorem note_sAt (n : Node) (r : Rec) : (note n r).sAt = n.sAt := by
  obtain ⟨_, _, _, _, _, e, _⟩ := recFrame_note n r; rw [e]
@[simp] theorem note_bAt (n : Node) (r : Rec) : (note n r).bAt = n.bAt := by
  obtain ⟨_, _, _, _, _, e, _⟩ := recFrame_note n r; rw [e]
@[simp] theorem note_regs (n : Node) (r : Rec) : (note n r).regs = n.regs := by
  obtain ⟨_, _, _, _, _, e, _⟩ := recFrame_note n r; rw [e]
@[simp] theorem note_staged (n : Node) (r : Rec) : (note n r).staged = n.staged := by
  obtain ⟨_, _, _, _, _, e, _⟩ := recFrame_note n r; rw [e]
@[simp] theorem note_seqs (n : Node) (r : Rec) : (note n r).seqs = n.seqs := by
  obtain ⟨_, _, _, _, _, e, _⟩ := recFrame_note n r; rw [e]
@[simp] theorem note_cmds (n : Node) (r : Rec) : (note n r).cmds = n.cmds := by
  obtain ⟨_, _, _, _, _, e, _⟩ := recFrame_note n r; rw [e]
@[simp] theorem note_acts (n : Node) (r : Rec) : (note n r).acts = n.acts := by
  obtain ⟨_, _, _, _, _, e, _⟩ := recFrame_note n r; rw [e]
@[simp] theorem note_vectors (n : Node) (r : Rec) : (note n r).vectors = n.vectors := by
  obtain ⟨_, _, _, _, _, e, _⟩ := recFrame_note n r; rw [e]
@[simp] theorem note_endpoint (n : Node) (r : Rec) : (note n r).endpoint = n.endpoint := by
  obtain ⟨_, _, _, _, _, e, _⟩ := recFrame_note n r; rw [e]
@[simp] theorem note_unshown (n : Node) (r : Rec) : (note n r).unshown = n.unshown := by
  obtain ⟨_, _, _, _, _, e, _⟩ := recFrame_note n r; rw [e]
@[simp] theorem note_unshownStaged (n : Node) (r : Rec) : (note n r).unshownStaged = n.unshownStaged := by
  obtain ⟨_, _, _, _, _, e, _⟩ := recFrame_note n r; rw [e]
@[simp] theorem note_readHold (n : Node) (r : Rec) : (note n r).readHold = n.readHold := by
  obtain ⟨_, _, _, _, _, e, _⟩ := recFrame_note n r; rw [e]
@[simp] theorem note_writeHold (n : Node) (r : Rec) : (note n r).writeHold = n.writeHold := by
  obtain ⟨_, _, _, _, _, e, _⟩ := recFrame_note n r; rw [e]
@[simp] theorem note_mgt (n : Node) (r : Rec) : (note n r).mgt = n.mgt := by
  obtain ⟨_, _, _, _, _, e, _⟩ := recFrame_note n r; rw [e]
@[simp] theorem note_mirror (n : Node) (r : Rec) : (note n r).mirror = n.mirror := by
  obtain ⟨_, _, _, _, _, e, _⟩ := recFrame_note n r; rw [e]
@[simp] theorem note_tb (n : Node) (r : Rec) : (note n r).tb = n.tb := by
  obtain ⟨_, _, _, _, _, e, _⟩ := recFrame_note n r; rw [e]
@[simp] theorem note_launches (n : Node) (r : Rec) : (note n r).launches = n.launches := by
  obtain ⟨_, _, _, _, _, e, _⟩ := recFrame_note n r; rw [e]
@[simp] theorem note_lchLast (n : Node) (r : Rec) : (note n r).lchLast = n.lchLast := by
  obtain ⟨_, _, _, _, _, e, _⟩ := recFrame_note n r; rw [e]
@[simp] theorem note_ranks (n : Node) (r : Rec) : (note n r).ranks = n.ranks := by
  obtain ⟨_, _, _, _, _, e, _⟩ := recFrame_note n r; rw [e]
@[simp] theorem note_fronts (n : Node) (r : Rec) : (note n r).fronts = n.fronts := by
  obtain ⟨_, _, _, _, _, e, _⟩ := recFrame_note n r; rw [e]
@[simp] theorem note_acqs (n : Node) (r : Rec) : (note n r).acqs = n.acqs := by
  obtain ⟨_, _, _, _, _, e, _⟩ := recFrame_note n r; rw [e]
@[simp] theorem note_diags (n : Node) (r : Rec) : (note n r).diags = n.diags := by
  obtain ⟨_, _, _, _, _, e, _⟩ := recFrame_note n r; rw [e]
@[simp] theorem note_stages (n : Node) (r : Rec) : (note n r).stages = n.stages := by
  obtain ⟨_, _, _, _, _, e, _⟩ := recFrame_note n r; rw [e]
@[simp] theorem note_res (n : Node) (r : Rec) : (note n r).res = n.res := by
  obtain ⟨_, _, _, _, _, e, _⟩ := recFrame_note n r; rw [e]
@[simp] theorem note_resHead (n : Node) (r : Rec) : (note n r).resHead = n.resHead := by
  obtain ⟨_, _, _, _, _, e, _⟩ := recFrame_note n r; rw [e]
@[simp] theorem note_late (n : Node) (r : Rec) : (note n r).late = n.late := by
  obtain ⟨_, _, _, _, _, e, _⟩ := recFrame_note n r; rw [e]
@[simp] theorem note_peers (n : Node) (r : Rec) : (note n r).peers = n.peers := by
  obtain ⟨_, _, _, _, _, e, _⟩ := recFrame_note n r; rw [e]
@[simp] theorem note_peerMsgs (n : Node) (r : Rec) : (note n r).peerMsgs = n.peerMsgs := by
  obtain ⟨_, _, _, _, _, e, _⟩ := recFrame_note n r; rw [e]
@[simp] theorem note_points (n : Node) (r : Rec) : (note n r).points = n.points := by
  obtain ⟨_, _, _, _, _, e, _⟩ := recFrame_note n r; rw [e]
@[simp] theorem note_groups (n : Node) (r : Rec) : (note n r).groups = n.groups := by
  obtain ⟨_, _, _, _, _, e, _⟩ := recFrame_note n r; rw [e]
@[simp] theorem note_remoteFos (n : Node) (r : Rec) : (note n r).remoteFos = n.remoteFos := by
  obtain ⟨_, _, _, _, _, e, _⟩ := recFrame_note n r; rw [e]
@[simp] theorem note_remoteActs (n : Node) (r : Rec) : (note n r).remoteActs = n.remoteActs := by
  obtain ⟨_, _, _, _, _, e, _⟩ := recFrame_note n r; rw [e]
@[simp] theorem note_almCnt (n : Node) (r : Rec) : (note n r).almCnt = n.almCnt := by
  obtain ⟨_, _, _, _, _, e, _⟩ := recFrame_note n r; rw [e]
@[simp] theorem note_call (n : Node) (r : Rec) : (note n r).call = n.call := by
  obtain ⟨_, _, _, _, _, e, _⟩ := recFrame_note n r; rw [e]
@[simp] theorem note_stations (n : Node) (r : Rec) : (note n r).stations = n.stations := by
  obtain ⟨_, _, _, _, _, e, _⟩ := recFrame_note n r; rw [e]
@[simp] theorem note_safety (n : Node) (r : Rec) : (note n r).safety = n.safety := by
  obtain ⟨_, _, _, _, _, e, _⟩ := recFrame_note n r; rw [e]
@[simp] theorem note_lanes (n : Node) (r : Rec) : (note n r).lanes = n.lanes := by
  obtain ⟨_, _, _, _, _, e, _⟩ := recFrame_note n r; rw [e]
@[simp] theorem note_laneSt (n : Node) (r : Rec) : (note n r).laneSt = n.laneSt := by
  obtain ⟨_, _, _, _, _, e, _⟩ := recFrame_note n r; rw [e]
@[simp] theorem note_duplex (n : Node) (r : Rec) : (note n r).duplex = n.duplex := by
  obtain ⟨_, _, _, _, _, e, _⟩ := recFrame_note n r; rw [e]
@[simp] theorem note_cans (n : Node) (r : Rec) : (note n r).cans = n.cans := by
  obtain ⟨_, _, _, _, _, e, _⟩ := recFrame_note n r; rw [e]
@[simp] theorem note_tsRef (n : Node) (r : Rec) : (note n r).tsRef = n.tsRef := by
  obtain ⟨_, _, _, _, _, e, _⟩ := recFrame_note n r; rw [e]
@[simp] theorem note_net (n : Node) (r : Rec) : (note n r).net = n.net := by
  obtain ⟨_, _, _, _, _, e, _⟩ := recFrame_note n r; rw [e]
@[simp] theorem note_nodeSt (n : Node) (r : Rec) : (note n r).nodeSt = n.nodeSt := by
  obtain ⟨_, _, _, _, _, e, _⟩ := recFrame_note n r; rw [e]
@[simp] theorem note_dueR (n : Node) (r : Rec) : (note n r).dueR = n.dueR := by
  obtain ⟨_, _, _, _, _, e, _⟩ := recFrame_note n r; rw [e]
@[simp] theorem note_free (n : Node) (r : Rec) : (note n r).free = n.free := by
  obtain ⟨_, _, _, _, _, e, _⟩ := recFrame_note n r; rw [e]
@[simp] theorem note_outs (n : Node) (r : Rec) : (note n r).outs = n.outs := by
  obtain ⟨_, _, _, _, _, e, _⟩ := recFrame_note n r; rw [e]

end Sys2Proof.Machine
end

