-- ==== Sys2Proof/Tests/Slice0.lean ====
section
/-! SUPPORT. Tests: for every obligation that has hypotheses a witness that meets them, the smoke tests of the
well-formedness checks, and values worked out in the spec. -/

namespace Sys2Proof.Tests

open Machine

/-! Every statement's hypotheses are met: each theorem names the statement, its clauses in the statement's order. -/

/-- A machine with this node and nothing else. -/
abbrev st (n : Node) : State := { node := n }

/-- A node in this state: lanes in TMR, the management processor in RUN, the host the next number on page p, and a session of
level 4. -/
abbrev up (p : Nat := 0) (x : NodeState := .run) : Node :=
  { nodeSt := { state := x, phase := 0 }, laneSt := { state := 0, mask := 7 }, mgt := { state := .run },
    seqs := [(p, { hseq := 1 })], config := { sessions := [(0, some { account := 0, level := 4, last := 0 })] } }

/-- Node in RUN with this register. -/
abbrev upReg (k : Nat) (v : Word) : Node := { up with regs := [(k, v)] }

/-- The same with page p locked. -/
abbrev shut (p : Nat) : Node := { up with headers := [(p, { locked := true })] }

theorem wit_StepRunsFront : State.reset.pending = [] := rfl

theorem wit_StepKeepsInv : Inv State.reset ∧ step State.reset = .next State.reset :=
  ⟨⟨by decide, by intro p hp; simp [State.reset, tget, lookup] at hp⟩, rfl⟩

theorem wit_ShadowsChangeAtTheirRefresh :
    (∃ u, exec (.lockWrite 0 2 0) State.reset = .next u) ∧ mayReset (.lockWrite 0 2 0) = false := ⟨⟨_, rfl⟩, rfl⟩

theorem wit_BoundaryRefreshes :
    tget none [(1, some ({ since := 0 } : HoldSt))] 1 = some { since := 0 } ∧
    (∃ h : HoldSt, tget none [(1, some { since := 0, b := some ({} : Node) })] 1 = some h ∧ h.b ≠ none) :=
  ⟨by decide, _, rfl, by simp⟩

theorem wit_ReadyRefreshes :
    publishable { up with laneSt := { state := 0, mask := 7, voted := true, resolved := true, imagesOk := true } } = true ∧
    publishable up = false := by decide

theorem wit_CommandsAreJudged :
    judge up 0 0 {} = .accept ∧ judge up 0 1 {} = .duplicate ∧
    judge { up with seqs := [(0, { hseq := 2 })] } 0 0 {} = .refuse 7 ∧
    judge { shut 0 with seqs := [(0, { hseq := 1 })] } 0 0 {} = .refuse 8 ∧
    judge { up with cmds := [(0, some { path := 0, off := 84, value := 1, hseq := 1, result := none })] } 0 0 {} = .refuse 3 ∧
    judge { up 5 with mgt := {} } 0 5 {} = .refuse 6 ∧ judge up 0 0 { code := false } = .refuse 9 ∧
    judge up 0 0 { state := false } = .refuse 4 ∧ judge up 0 0 { level := false } = .refuse 5 ∧
    judge up 0 0 { value := false } = .refuse 9 := by decide

theorem wit_HeaderWritesAndBadAccesses :
    hasLock 2 = true ∧ fld (0x4C4B0001 : Word) 31 16 = 0x4C4B ∧ hasLock 0x6C = false ∧ hasIrq 2 = true ∧
    bit (up.mgt.badAcc) 31 = false ∧ bit (0x80000000 : Word) 31 = true := by decide

theorem wit_UnmaskSendsWhatStillStands : ∀ k, k < 64 → (vectorOf State.reset.node k).cond = condition State.reset.node k := by
  decide +kernel

theorem wit_PairsReadAndWriteWhole :
    lowWord 1 0x88 = true ∧ pairLow 1 0x88 = true ∧ pairHigh 1 0x8C = true ∧ (headerOf up 1).locked = false ∧
    (headerOf (shut 1) 1).locked = true := by decide

theorem wit_HoldFreezesAndExpires :
    hasShadow 1 = true ∧ hasShadow 9 = false ∧ blockOf 9 ≠ 0 ∧ blockOf 0x6C = 0 ∧ (1 : Word).getLsbD 0 = true ∧
    tget none [(1, some ({ since := 0 } : HoldSt))] 1 = some { since := 0 } ∧ 0 + 256 * up.period ≤ 256000000 ∧
    255999999 < 0 + 256 * up.period := by decide

theorem wit_CommandEndPosts :
    (let c : Command := { path := 0, off := 84, value := 1, hseq := 1, result := some true, lanes := true, notBefore := 5 }
     c.notBefore ≤ max up.now 5 ∧ ¬ c.notBefore ≤ max up.now 4 ∧ c.since + 3 * up.period ≤ max up.now 3000000 ∧
     ¬ c.since + 3 * up.period ≤ max up.now 2999999 ∧ ({ c with shown := true } : Command).shown = true) ∧
    cmdOf { up with cmds := [(0, some { path := 0, off := 84, value := 1, hseq := 1, result := some true })] } 0 =
      some { path := 0, off := 84, value := 1, hseq := 1, result := some true } ∧
    cmdOf { up with cmds := [(5, some { path := 0, off := 84, value := 1, hseq := 1, result := none })] } 5 =
      some { path := 0, off := 84, value := 1, hseq := 1, result := none } ∧ cmdOf up 5 = none := by decide

theorem wit_ProcessorStopsAndSheds :
    up.mgt.state = .run ∧ State.reset.node.mgt.state ≠ .run ∧
    judge (atInstant (st (up 0x0C)) 0) hostPath 0x0C { state := inStates (up 0x0C) 30 } = .accept ∧
    90 < 91 ∧ up.mgt.shed < 6 ∧ up.mgt.lastRaise = none ∧ 0 + 1000000000 ≤ max up.now 1000000000 ∧
    max up.now 999999999 < 0 + 1000000000 ∧ up.config.pend = none ∧
    shedMin { up with mgt := { state := .run, shed := 1, lowSince := some 0 } } < 1 := by decide

theorem wit_MirrorBlocks :
    (let s : State := { node := up, atR := { up with resHead := { period := 1000000, frame := 1023 } } }
     s.node.mgt.state = .run ∧ s.atR.resHead.period ≠ 0 ∧ s.node.mirror.last ≠ some s.atR.resHead.frame) ∧
    (st up).atR.resHead.period = 0 ∧ mirrorMiss up 7 = false ∧
    mirrorMiss { up with mirror := { last := some 5 } } 7 = true := by decide

theorem wit_RegisterWritesOnEveryPath :
    carries up 0 ∧ carries { upReg (at_ 0x5B 0x58) 9 with config := { sessions := [(1, some { account := 0, level := 1, last := 0 })], tls := [(1, true)] } } 1 ∧
    blockOf 0x6C = 0 ∧ hasSeq 0 = true ∧
    (rowAt 4 0x60).map (·.typ) = some .rw ∧ pairLow 4 0x60 = false ∧ pairHigh 4 0x60 = false ∧
    (headerOf (shut 0) 0).locked = true ∧ mgmtUp up 1 = false ∧
    mgmtUp { upReg (at_ 0x5B 0x58) 9 with config := { tls := [(1, true)] } } 1 = true ∧ opensWrite 0x40 0 = false :=
  ⟨Or.inl rfl, Or.inr (by decide), by decide, by decide, by decide, by decide, by decide, by decide, by decide, by decide, by decide⟩
theorem wit_SampleBeginsFrame :
    State.reset.node.nodeSt.state = .init ∧ up.nodeSt.state ≠ .init ∧ up.laneSt.ready = false ∧
    ({ up with laneSt := { ready := true } } : Node).laneSt.ready = true ∧
    wellFormed (.sampleInstant 0 [{ ch := 511 }] []) = true ∧
    chnSel (upReg (chnKey 511 0) 1) 31 = 0 ∧ chnSel (upReg (chnKey 511 0) 1) 511 = 1 := by decide

theorem wit_TransfersAndExchanges :
    let n : Node := { up with ranks := [(15, { powered := true, good := 3 })], lanes := [(2, { phase := 0 }), (1, { phase := 5 }), (0, { phase := 1 })] }
    let m : ExchMsg := { lane := 2, frame := n.frame }
    (rankOf n 15).powered = true ∧ (rankOf up 15).powered = false ∧
    State.reset.node.laneSt.state = 3 ∧ n.laneSt.state < 3 ∧ n.laneSt.inDone = false ∧ n.laneSt.bDone = false ∧
    (laneOf n 2).phase = 0 ∧ (laneOf n 1).phase = 5 ∧ (laneOf n 0).phase ≠ 0 ∧ (laneOf n 0).phase ≠ 5 ∧ (laneOf n 2).wdog = false ∧
    (laneOf n 2).held = false ∧ m.good = true ∧ m.frame = n.frame ∧ m.frame ≠ n.frame + 1 ∧
    ({ m with good := false } : ExchMsg).good = false := by decide

theorem wit_VoteOncePerFrame :
    ({ up with laneSt := { voted := true } } : Node).laneSt.voted = true ∧ up.laneSt.voted = false ∧
    State.reset.node.laneSt.state = 3 ∧ ({ up with laneSt := { state := 0, inDone := true, evalDone := true } } : Node).laneSt.evalDone = true := by
  decide

theorem wit_LanesWatchThemselves :
    let n : Node := { up with lanes := [(0, { phase := 0, lastMsg := some 0 }), (1, { phase := 6 })],
                              laneSt := { state := 1, degNs := 3600000000000, tmrSince := none }, regs := [(at_ 3 0x50, 1)] }
    (laneOf n 0).phase = 0 ∧ (laneOf n 0).lastMsg = some 0 ∧ 0 + max (2 * n.period) 10000000 ≤ max n.now 10000000 ∧
    max n.now 9999999 < 0 + max (2 * n.period) 10000000 ∧
    (laneOf n 0).phase ≠ 1 ∧ (laneOf n 0).phase ≠ 6 ∧ (laneOf n 1).phase = 6 ∧ n.laneSt.state = 1 ∧
    fld (reg n (at_ 3 0x50)) 9 0 * 3600000000000 ≤ n.laneSt.degNs ∧ n.laneSt.degExp = false ∧
    fld (reg n (at_ 3 0x50)) 9 0 * 3600000000000 - 1 < n.laneSt.degNs ∧
    ({ n with laneSt := { state := 0, tmrSince := some 5 } } : Node).laneSt.tmrSince = some 5 := by decide

theorem wit_LanesReturn :
    let n : Node := { up with lanes := [(0, { phase := 1, since := 7 }), (1, { phase := 2, since := 7 }), (2, { phase := 4, sliceAt := 7 })] }
    (laneOf n 0).phase = 1 ∧ n.laneSt.state < 3 ∧ (laneOf n 0).since + 1000000 ≤ max n.now 1000007 ∧
    max n.now 1000006 < (laneOf n 0).since + 1000000 ∧ (laneOf n 1).phase = 2 ∧ (laneOf n 1).tested = false ∧
    max n.now 200000007 ≤ (laneOf n 1).since + 200000000 ∧ (laneOf n 1).since + 200000000 < max n.now 200000008 ∧
    (laneOf n 2).phase = 4 ∧ (laneOf n 2).sliceAt + 96 * n.period ≤ max n.now 96000007 ∧
    max n.now 96000006 < (laneOf n 2).sliceAt + 96 * n.period := by decide

theorem wit_ExchangesAndSecondsMeasured :
    let n : Node := { upReg (at_ 1 0x6C) 0x800 with tb := { tod := some 0, sel := some .ptp } }
    ptpSelected n { port := 3, offset := 0 } ∧ ¬ ptpSelected n { port := 0, offset := 0 } ∧
    ¬ ptpSelected n { port := 3, offset := 0, domain := 1 } ∧ n.tb.ckFail = none ∧
    (∀ p m, p ≠ 3 → p < 4 → (fld (reg n (at_ 1 0x6C)) 11 8).testBit p = true → tget none n.tb.ptpPorts p = some m → 0 < m.ds) ∧
    (stepThr n : Int) < stepThr n + 1 ∧ n.tb.tod = some 0 ∧ up.tb.tod = none ∧ bit (reg n (at_ 1 0x74)) 0 = false ∧
    ({ up with tb := { ckFail := some 0 } } : Node).tb.ckFail.isSome = true ∧
    (let m : Node := { up with regs := [(at_ 1 0x74, 2), (at_ 0x5D 0x44, 0x80000020)] }
     bit (reg m (at_ (0x5C + 1) 0x44)) 31 = true ∧ bit (reg m (at_ (0x5C + 1) 0x44)) 5 = true ∧
     fld (reg m (at_ 1 0x74)) 2 1 = 1) := by
  refine ⟨by unfold ptpSelected; decide, by unfold ptpSelected; decide, by unfold ptpSelected; decide, by decide, ?_, by decide⟩
  intro p m _ _ _ h
  cases h

/-- A node that takes and sends messages on CAN 23. -/
abbrev onCan23 : Node :=
  { up with cans := [(23, { mode := 1, state := .active })], regs := [(at_ 1 0x70, 0xFF800000), (at_ 0x57 0x40, 0x20)],
            tb := { state := .locked, sel := some .ptp, canMaster := some 9, syncs := [(23 * 256 + 9, some { seq := 5, sof := 0, at_ := 0, qual := 0 })],
                    sent := [(23, some (4, some 0))] } }

theorem wit_TimeOverCan :
    accepts onCan23 { ctrl := 23, src := 9 } = true ∧ accepts onCan23 { ctrl := 22, src := 9 } = false ∧
    tget none onCan23.tb.syncs (23 * 256 + 9) = some { seq := 5, sof := 0, at_ := 0, qual := 0 } ∧
    canFollowed onCan23 = some 9 ∧ onCan23.tb.ckFail = none ∧ max onCan23.now 10000000 ≤ 0 + 10000000 ∧
    0 + 10000000 < max onCan23.now 10000001 ∧ onCan23.tb.syncAt = none ∧
    0 + 62500000 * 2 ^ min (fld (reg onCan23 (at_ 1 0x7C)) 27 25) 4 ≤ max onCan23.now 1000000000 ∧
    max onCan23.now 62499999 < 0 + 62500000 * 2 ^ min (fld (reg onCan23 (at_ 1 0x7C)) 27 25) 4 ∧ timeMaster onCan23 = true ∧ timeMaster up = false ∧
    nbit (syncMask onCan23) 23 = true ∧ nodeLayer onCan23 23 = true ∧ nbit (syncMask onCan23) 0 = false ∧
    tget none onCan23.tb.sent 23 = some (4, some 0) := by decide

theorem wit_SourcesLostAndChanged :
    let n : Node := { upReg (at_ 1 0x68) 0x21 with
      tb := { sel := some .can, state := .locked, acqAt := some 0, can := { last := some 0, interval := 1000000000 }, ptp := { qualified := true } } }
    lossDue (atInstant (st n) 4000000000) .can true ∧ ¬ lossDue (atInstant (st n) 3999999999) .can true ∧
    ¬ lossDue (atInstant (st n) 4000000000) .ptp true ∧ srcOfCode 2 = some .can ∧ n.tb.sel = some .can ∧ bestSource n = some .ptp ∧
    (sourceOf n .ptp).since + 10000000000 ≤ max n.now 10000000000 ∧ max n.now 9999999999 < (sourceOf n .ptp).since + 10000000000 ∧
    (let m : Node := { n with tb := { sel := some .can, state := .locked } }
     usable m .ptp = false ∧ usable m .pps = false ∧ usable m .partner = false ∧ m.tb.freqs = []) ∧
    up.tb.state = .acquiring ∧ up.tb.sel = none ∧ up.tb.acqAt = none ∧ n.tb.acqAt = some 0 ∧
    0 + fld (reg n (at_ 1 0x80)) 7 0 * 1000000000 ≤ max n.now 255000000000 ∧ up.rec_.mramOk = true ∧
    ({ up with rec_ := { mramOk := false } } : Node).rec_.mramOk = false := by
  refine ⟨⟨0, rfl, by decide⟩, ?_, ?_, by decide⟩
  · rintro ⟨l, h, h1⟩
    cases h
    exact absurd h1 (by decide)
  · rintro (⟨h, -⟩ | ⟨-, m, h, -⟩)
    · exact absurd h (by decide)
    · cases h

theorem wit_TimeCommandsAndPeriod :
    judge (atInstant (st (up 1)) 0) hostPath 1 { state := isRun (up 1), level := levelOk (up 1) hostPath 2 } = .accept ∧
    judge (atInstant (st (up 1)) 0) hostPath 1 { state := inStates (up 1) 30, level := levelOk (up 1) hostPath 2 } = .accept ∧
    (up 1).tb.timeFar = none ∧ ({ up 1 with tb := { timeFar := some 5 } } : Node).tb.timeFar = some 5 ∧
    fld (reg (upReg (at_ 1 0x74) 4) (at_ 1 0x74)) 2 1 = 2 ∧ fld (reg up (at_ 1 0x74)) 2 1 ≠ 2 ∧
    up.tb.pendPeriod = none ∧ 2000000000 ≤ taiNow (atInstant (st up) 1000000000) ∧
    taiNow (atInstant (st up) 999999999) < 2000000000 := by decide

theorem wit_LaneCommandsWaitForTheirBoundary :
    wellFormed (.acqCmdClear 0) = true ∧
    ∃ x, waitingRow (atInstant (st (up 2)) 0) (.acqCmdClear 0) = some x ∧ judge (atInstant (st (up 2)) 0) hostPath 2 x.2.2.1 = .accept :=
  ⟨by decide, _, rfl, by decide⟩

theorem wit_StateCommandsTakenUp :
    ({ up with power := { pfail := true } } : Node).power.pfail = true ∧ up.power.pfail = false ∧ nodeCode up = 3 ∧
    transition (nodeCode up) 1 = false ∧ nodeCode (up 0 .config) ≠ 3 ∧ runRefuse (up 0 .config) = none ∧
    runRefuse { up 0 .config with config := { pend := some { check := 0, until_ := 0 } } } = some 1 ∧
    (∀ g, g < 5 → leavesConfirm (up 0 .config) g = false) ∧
    leavesConfirm { up 0 .config with config := { pend := some { check := 0, until_ := 0, confirmed := true } } } 3 = true ∧
    ranksDone up = true ∧
    judge (atInstant (st (up 0x0D)) 0) hostPath 0x0D
      { state := inStates (up 0x0D) 30 && rankEnOk (up 0x0D) 0, level := levelOk (up 0x0D) hostPath 2 } = .accept ∧
    (reg (upReg (at_ 0x0D 0x50) 0x8000) (at_ 0x0D 0x50)).getLsbD 15 = true ∧ (0 : Word).getLsbD 15 = false ∧
    operational up = true ∧ (rankOf up 15).failed = false := by decide

theorem wit_LaunchCallAndLaneCommandsTakenUp :
    up.laneSt.state ≠ 3 ∧ operational up = true ∧ operational (up 0 .standby) = false ∧ inStates up (lchStates 1) = true ∧ inStates (up 0 .config) (lchStates 1) = false ∧ up.frame + 2 ≤ 2 ∧
    1 < up.frame + 2 ∧ (launchOf { up with launches := [(63, { state := .armed })] } 63).state = .armed ∧
    (launchOf up 63).state ≠ .armed ∧ up.call.watch = .off ∧ ({ up with call := { watch := .prewarn } } : Node).call.watch = .prewarn ∧
    (laneOf { up with lanes := [(2, { phase := 6 })] } 2).phase = 6 ∧ (laneOf up 2).phase ≠ 6 := by decide

/-- An active warning, and a caution, on points 5119 and 0. -/
abbrev withPoints : Node :=
  { up with
    points := [(0, { disabled := false, active := true, state := .actAck }), (5119, { disabled := false, shelved := true })],
    regs := [(selKey 0 (at_ 0x30 0x5C), 0x10001)] }

theorem wit_AlarmCommandsTakenUp :
    withPoints.laneSt.state ≠ 3 ∧ 0 ∈ keys withPoints.points ∧ 5119 ∈ keys withPoints.points ∧
    (pointOf withPoints 0).disabled = false ∧ (pointOf withPoints 5119).disabled = false ∧ eligible withPoints 0 = true ∧
    eligible withPoints 5119 = false ∧ 7 ∉ keys withPoints.points ∧ (pointOf withPoints 7).disabled = true := by decide

theorem wit_ChannelConditions :
    let n : Node := { upReg (chnKey 511 0) 5 with ranks := [(15, { powered := true })] }
    watched n 511 = true ∧ hasBreak n 511 = true ∧ (frontOf n 511).open_ = false ∧ (frontOf n 511).excLim = false ∧
    isAo n 511 = false ∧ (diagOf n 511).slotEnd ≤ max n.now 0 ∧
    max n.now 0 < (diagOf { n with diags := [(511, { slotEnd := 1 })] } 511).slotEnd ∧
    (let m : Node := { upReg (chnKey 511 0) 2 with ranks := [(15, { powered := true })],
                                                     fronts := [(511, { open_ := true, excLim := true })] }
     watched m 511 = true ∧ hasBreak m 511 = false ∧ (frontOf m 511).open_ = true ∧ (frontOf m 511).tcHigh = 0 ∧
     (frontOf m 511).excLim = true ∧ isAo m 511 = true ∧
     (frontOf m 511).openAt + max 10000000 (3 * m.period) ≤ max m.now 10000000 ∧
     max m.now 9999999 < (frontOf m 511).openAt + max 10000000 (3 * m.period)) := by decide

theorem wit_SetpointsAndRankClear :
    (headerOf (shut 0x1F) (0x10 + 511 / 32)).locked = true ∧ (headerOf up (0x10 + 511 / 32)).locked = false ∧
    (240000 : Word).toNat ≤ 240000 ∧ 240000 < (240001 : Word).toNat ∧ holder up = true ∧
    holder (upReg (at_ 4 0x58) 1) = false ∧
    judge (atInstant (st (up 0x1F)) 0) hostPath (0x10 + 15) { state := inStates (up 0x1F) 30, level := levelOk (up 0x1F) hostPath 1 } =
      .accept := by decide
theorem wit_CautionsNeedNoAcknowledgement : ptPrio up 0 = 0 ∧ (pointOf withPoints 5119).disabled = false ∧ ptPrio withPoints 5119 = 0 := by
  decide

theorem wit_AlarmTimersExpire :
    let n : Node := { up with
      points := [(0, { disabled := false, raw := true, onCnt := 1 }), (1, { disabled := false, cond := true, offCnt := 1 }),
                 (2, { state := .actSilenced }), (3, { shelved := true, active := true })],
      groups := [(255, { suppressing := true, passed := some 1, since := some 1 })], regs := [(at_ 9 0x40, 0x10000)] }
    evaluates n ∧ ¬ evaluates (up 0 .standby) ∧ ptOn n 0 < (pointOf n 0).onCnt ∧ ptOff n 1 < (pointOf n 1).offCnt ∧
    (pointOf n 1).onCnt ≤ ptOn n 1 ∧ (pointOf n 0).offCnt ≤ ptOff n 0 ∧ (pointOf n 0).cond = false ∧ (pointOf n 1).raw = false ∧
    (pointOf n 0).held = false ∧ (pointOf n 1).held = false ∧ srcUnreadable n (fld (grpReg n 255 0x64) 15 0) = false ∧
    srcUnreadable { n with regs := [(selKey 255 (at_ 9 0x64), 0x4000)] } (fld (grpReg { n with regs := [(selKey 255 (at_ 9 0x64), 0x4000)] } 255 0x64) 15 0) = true ∧
    (pointOf n 2).state = .actSilenced ∧ (pointOf n 2).silLeft = 0 ∧ (pointOf n 3).shelLeft = 0 ∧ (pointOf n 3).shelved = true ∧
    fld (grpReg n 255 0x68) 23 0 ≤ 1 ∧ fld (reg n (at_ 9 0x40)) 27 16 ≤ 1 ∧ 0 < fld (reg n (at_ 9 0x40)) 27 16 := by
  refine ⟨⟨by decide, by decide⟩, ?_, by decide +kernel⟩
  rintro ⟨h, -⟩
  exact absurd h (by decide)

theorem wit_CallTimersExpire :
    let n : Node := { up with points := [(0, { state := .actTransferred })], call := { watch := .running }, regs := [(at_ 7 0x4C, 0), (at_ 7 0x50, 0)] }
    evaluates n ∧ (pointOf n 0).state = .actTransferred ∧ (pointOf n 0).again = false ∧ callXfr n ≤ (pointOf n 0).xfr ∧
    n.call.watch = .running ∧ watchT n ≤ n.call.watchCnt ∧
    (let m : Node := { n with call := { watch := .prewarn }, regs := [(at_ 7 0x4C, 1), (at_ 7 0x50, 0)] }
     m.call.watch = .prewarn ∧ watchP m ≤ m.call.watchCnt ∧ (pointOf m 0).xfr < callXfr m) :=
  ⟨⟨by decide, by decide⟩, by decide⟩

/-- A node with station 15 on CAN 23, address 9. -/
abbrev onStn : Node :=
  { up with cans := [(23, { mode := 1, state := .active })], regs := [(at_ 7 0x13C, 0x82170009), (at_ 0x57 0x40, 0x20)],
            stations := [(15, { link := 1, missed := 2, awaiting := true, kseq := some 7 })] }

theorem wit_StationsAndTheirKeys :
    holder onStn = true ∧ inStates onStn 30 = true ∧ onStn.frame % framesPerSec onStn = 0 ∧ stnEn onStn 15 = true ∧
    ({ onStn with frame := 1 } : Node).frame % framesPerSec onStn ≠ 0 ∧ fromStation onStn { ctrl := 23, src := 9 } 15 = true ∧
    fromStation onStn { ctrl := 23, src := 8 } 15 = false ∧ (stationOf onStn 15).awaiting = true ∧ (stationOf up 0).awaiting = false ∧
    stationKey (.stnAck 0 { ctrl := 23, src := 9 } 15 7) = some (0, { ctrl := 23, src := 9 }, 15, 2, 7, 0) ∧
    (stationOf onStn 15).kseq = some 7 ∧ (stationOf onStn 15).kseq ≠ some 8 ∧ 2 ≤ stnRole onStn 15 ∧ stnRole up 0 < 2 ∧
    onStn.call.watch = .off ∧ ({ onStn with call := { watch := .alarm } } : Node).call.watch = .alarm := by decide

theorem wit_RemoteCommandsWaitAndApply :
    accepts onStn { ctrl := 23, src := 9 } = true ∧ accepts onStn { ctrl := 0, src := 9 } = false ∧ holder onStn = true ∧
    msgAddr onStn ≠ 0xFE ∧ rcmdRange 0 5119 = true ∧ rcmdRange 0 5120 = false ∧ bit (ptAttr onStn 0) 17 = false ∧
    tget none [(9, some 4)] 9 = some 4 ∧ tget none onStn.net.rseqs 9 ≠ some 4 := by decide

theorem wit_NodeMessagesReceivedAndSent :
    let n : Node := { onStn with regs := onStn.regs ++ [(at_ 2 0x1FC, 0x81FF0009), (selKey 255 (at_ 9 0x6C), 0x80090003)] }
    tget false n.remoteActs (8192 * 9 + 5119) = false ∧ tget false [(8192 * 9 + 5119, true)] (8192 * 9 + 5119) = true ∧
    peerEntries n 9 511 = [63] ∧ peerEntries n 9 510 = [] ∧ bit (peerCfg n 63) 31 = true ∧ linkedGroups n 9 3 = [255] ∧
    linkedGroups n 9 4 = [] ∧ holder n = true ∧ operational n = true ∧ n.net.refCursor = 0 ∧ n.net.refStart = none ∧ n.net.refLast = none ∧
    nodeLayer n 23 = true ∧ nodeLayer n 0 = false ∧ canSends (canOf { n with cans := [(23, { mode := 1, state := .integrating })] } 23) = false ∧ holder (upReg (at_ 4 0x58) 1) = false := by
  decide

/-- A node whose ETH3 and SER1 are marked for the bridge. -/
abbrev onBridge : Node :=
  { up with regs := [(at_ 7 0x54, 0x280000), (at_ 0x5B 0x58, 3), (at_ 0x5B 0x68, 5), (at_ 0x5D 0x44, 0x80000030)],
            net := { presented := [(0, some { state := 1, time := 0 })] } }

theorem wit_BridgeLinkAndCommands :
    rxTaken onBridge { port := .eth 3, ok := true, sfi := 5 } = true ∧ rxGood onBridge { port := .eth 3, ok := true, sfi := 5 } = true ∧
    rxTaken onBridge { port := .eth 0, ok := true, sfi := 5 } = false ∧ holder onBridge = true ∧ operational onBridge = true ∧
    fld (reg onBridge (at_ 7 0x54)) 21 16 ≠ 0 ∧ onBridge.call.brLost = false ∧ onBridge.nodeSt.state ≠ .init ∧
    onBridge.call.lastHbt.getD onBridge.nodeSt.upSince + fld (reg onBridge (at_ 7 0x54)) 7 0 * 1000000000 ≤ max onBridge.now 255000000000 ∧
    (let m : Node := { onBridge with call := { lastHbt := some 1 } }
     max m.now 0 < m.call.lastHbt.getD m.nodeSt.upSince + fld (reg m (at_ 7 0x54)) 7 0 * 1000000000) ∧
    onBridge.net.hbtAt = none ∧ onBridge.net.alcAt = none ∧ onBridge.net.alfAt = none ∧ 0 + 10000000000 ≤ max onBridge.now 10000000000 ∧
    3 ∈ ethActive onBridge ∧ 1 ∈ serActive onBridge ∧ present onBridge = [.point 0] ∧ present up = [] ∧
    alertOf 10000 = some (.point 0) ∧ (shownOf onBridge (.point 0)).state ≠ 0 ∧ alertB onBridge (.point 0) = false ∧
    alertOf 15119 = some (.point 5119) ∧ (shownOf onBridge (.point 5119)).state = 0 ∧ alertOf 15120 = none ∧
    alertB onBridge .summary = true := by decide

theorem wit_PortsOfTheNode :
    let n : Node := { up 0x5B with net := { eth := [(3, { link := true })], ser := [(1, { lastOk := some 0 })] }, regs := [(at_ 0x5B 0x58, 5), (at_ 0x5B 0x74, 1)] }
    (ethOf n 3).link ≠ false ∧ (ethOf n 3).link = true ∧ bit (reg n (at_ (0x58 + 3) 0x58)) 0 = true ∧
    bit (reg n (at_ (0x58 + 0) 0x58)) 0 = false ∧ (serOf n 1).lastOk = some 0 ∧
    judge (atInstant (st n) 0) hostPath (0x58 + 3) { state := inStates n 30, level := levelOk n hostPath 1 } = .accept ∧
    judge (atInstant (st (up 0x5D)) 0) hostPath (0x5C + 1) { state := inStates (up 0x5D) 30, level := levelOk (up 0x5D) hostPath 1 } = .accept ∧
    trendOn n 3 0 = true ∧ n.mgt.state = .run ∧ 2 ≤ ({ n with mgt := { state := .run, shed := 2 } } : Node).mgt.shed ∧
    n.mgt.shed < 2 ∧ n.net.stopAt = none ∧ 0 + 1000000000 ≤ max n.now 1000000000 ∧ max n.now 999999999 < 0 + 1000000000 := by decide

theorem wit_FastInputsReachTheFabric :
    let n : Node := { up with regs := [(chnKey 510 0, 9), (chnKey 511 0, 9), (at_ 0x6B 0x4F0, 0x80000001)], ranks := [(15, { powered := true, ready := true })],
                              safety := { evals := [(256 * 2 + 255, { disSince := some 19999 })] }, frame := 6 }
    watched n 511 = true ∧ hasCmp n 511 = true ∧ watched n 0 = false ∧ 510 ∈ slotChs n ∧ 511 ∉ slotChs n ∧
    255 ∈ enabledPairs n ∧ (evalOf n 2 255).disSince = some 19999 ∧ (evalOf n 2 255).agreeAt = none ∧
    (evalOf n 2 255).discFlt = false ∧ (evalOf n 2 255).discAt < (19999 / 10000 + sinDt n 255) * 10000 ∧
    holdsEnded n = [] ∧ chnSel n 510 = 9 ∧
    ((copyOf n 0).excluded || (copyOf n 1).excluded || (copyOf n 2).excluded) = false := by decide

/-- Output 31, enabled with pulses and feedback, in this phase. -/
abbrev onSo (x : Output) : Node :=
  { up with regs := [(at_ 0x67 0x1E0, 0xC0000001), (at_ 0x67 0x1E4, 0x801F0001)], safety := { outs := [(31, x)] } }

theorem wit_SafetyOutputsAndSupplies :
    (outputOf (fabricAdvance (atInstant (st (onSo { phase := .due })) 0)) 31).phase = .due ∧
    (outputOf (fabricAdvance (atInstant (st (onSo { phase := .testing })) 0)) 31).phase = .testing ∧
    (let m := fabricAdvance (atInstant (st (onSo { phase := .on, nextDue := some 0, hs := true, misSince := some 0 })) 512000000)
     (outputOf m 31).phase = .on ∧ (outputOf m 31).pulse = false ∧ tpEn m 31 = true ∧ (outputOf m 31).nextDue = some 0 ∧
     withheld m 31 = false ∧ holder m = true ∧ (outputOf m 31).hs = true ∧ (outputOf m 31).misSince = some 0 ∧ fbEn m 31 = true ∧
     (outputOf m 31).fbFlt = false ∧ max 0 (outputOf m 31).expectAt + fld (soFb m 31) 8 0 * 1000000 ≤ m.now) ∧
    (let m := fabricAdvance (atInstant (st (onSo { phase := .on, pulse := true })) 0); (outputOf m 31).pulse = true) ∧
    (let m := fabricAdvance (atInstant (st (onSo {})) 0)
     soEn m 31 = true ∧ (outputOf m 31).phase = .off ∧ (outputOf m 31).cmd = false ∧ partnerEnergised m 31 = false ∧
     (outputOf m 31).hs = false ∧ (outputOf m 31).ls = false ∧ (outputOf m 31).misSince = none) ∧
    (let m := onSo { verdict := true, pulseEnd := 9 }
     (outputOf m 31).verdict = true ∧ (outputOf m 31).pulseEnd + 50000 < 50010 ∧ 50009 ≤ (outputOf m 31).pulseEnd + 50000) ∧
    31 ∈ enabledOuts (onSo {}) ∧ fbInput (onSo {}) 31 = 31 ∧ fbEn (onSo {}) 31 = true := by decide
/-- A module of a pair, position B, holding nothing, in the last 10 us of its frame. -/
abbrev onPair (d : Duplex) : Node := { up 4 with regs := [(at_ 4 0x58, 1), (at_ 4 0x60, 1), (at_ 8 0x600, 0xC0000000)], duplex := d }

theorem wit_SafetyAndDuplexCommands :
    let n : Node := atInstant (st { up 8 with regs := [(at_ 8 0xDE0, 0xC0000000), (at_ 0x67 0x1E0, 0xC0C80001)] }) 0
    judge n hostPath 8 (safCheck n hostPath (pack [(63, 16, 8), (1, 0, 4)])) = .accept ∧
    judge n hostPath 8 (safCheck n hostPath 2) = .accept ∧
    judge n hostPath 8 (safCheck n hostPath (pack [(31, 16, 8), (3, 0, 4)])) = .accept ∧
    judge (atInstant (st (up 0x5F)) 0) hostPath (0x5E + 1) { state := inStates (up 0x5F) 30, level := levelOk (up 0x5F) hostPath 1 } = .accept ∧
    (let m : Node := atInstant (st (onPair { ohold := true, hb := some { head := { synced := true, oclaim := 8192 }, ready := 1 } })) 0
     judge m hostPath 4 (dpxCmdCheck m hostPath 1) = .accept ∧ judge m hostPath 4 (dpxCmdCheck m hostPath 3) = .accept ∧
     judge m hostPath 4 (dpxCmdCheck m hostPath 2) = .accept) ∧
    ({ up with duplex := { handover := some 0 } } : Node).duplex.handover = some 0 ∧ 0 + 8 * up.period ≤ 8000000 ∧
    7999999 < 0 + 8 * up.period ∧ up.duplex.handover = none := by decide

theorem wit_ClaimsAndRoles :
    let n : Node := { onPair { posB := true, drive := .clamp, notReady := [(15, 16)] } with ranks := [(15, { powered := true, ready := true })] }
    paired n = true ∧ paired up = false ∧ n.duplex.posB = true ∧ nbit n.duplex.carried 15 = false ∧ n.duplex.hb = none ∧
    nbit (readyRanks n) 15 = true ∧ 16 ≤ tget 0 n.duplex.notReady 15 ∧ tget 0 n.duplex.notReady 0 < 16 ∧ n.duplex.drive = .clamp ∧
    n.duplex.clampAt + 3 * n.period ≤ max n.now 3000000 ∧ max n.now 2999999 < n.duplex.clampAt + 3 * n.period ∧
    lineSays 5 7 0 5 = 0 ∧ lineSays 5 7 0 6 = 1 ∧ lineSays 5 7 5 6 = 2 ∧ lineSays 5 3 0 6 = 2 := by decide

theorem wit_HeartbeatsOfThePair :
    let n : Node := { onPair { consecMiss := 1, consecRx := 1 } with laneSt := { state := 0, mask := 7, voted := true }, frame := 3 }
    paired n = true ∧ n.laneSt.voted = true ∧ up.laneSt.voted = false ∧ n.duplex.checked ≠ some n.frame ∧
    n.sAt + n.period ≤ max n.now 990000 + 10000 ∧ max n.now 989999 + 10000 < n.sAt + n.period ∧ hbOf n n.frame = none ∧ hbGood [] = false ∧
    (hbOf { n with duplex := { hb := some { head := { frame := 3 } } } } 3).isSome = true ∧ n.duplex.ohold = false := by decide

theorem wit_heartbeat_good : hbGood (hbBytes { frame := 3 }) = true ∧ (hbFields (hbBytes { frame := 3 })).frame = 3 := by decide +kernel

/-- CAN 23 in this state. -/
abbrev onCan (x : CanCtl) : Node := { up 0x57 with cans := [(23, x)], regs := [(at_ 0x57 0x40, 0x20), (at_ 0x57 0x9C, 1)] }
/-- A frame, its storing, and a host message in a buffer. -/
abbrev frm : CanFrame := { ide := true, id := 5, fdf := true, brs := true, esi := false, rtr := false, dlc := 0, data := [] }
abbrev rx : RxFrame := { frame := frm, entry := 0, ts := 0 }
abbrev buf : TxBuf := { body := .host { frame := frm, tag := 1 } 31 }

theorem wit_FramesAreReceived :
    let n : Node := { onCan { state := .active, mode := 1, tec := 255 } with
      regs := [(at_ 0x57 0x40, 0x20), (at_ 0x57 0x200, 0xA0000005), (at_ 0x57 0x300, 0x9FFFFFFF)] }
    (canOf n 23).state = .active ∧ (canOf n 23).tec ≤ 255 ∧ (canOf up 23).state = .off ∧ matchEntry up 23 0 frm = none ∧
    frm.fdf = true ∧ fdoe (upReg (at_ 0x57 0x40) 0) 23 = false ∧ fdoe n 23 = true ∧ bit (canReg up 23 0x40) 9 = false ∧ (canOf (onCan { state := .searching }) 23).state = .searching ∧ (canOf n 23).fifoA.length < 64 ∧
    intxBuf (canOf n 23) = none ∧ (canOf n 23).cfgPend = false ∧ rdCands (onCan {}) 23 ≠ [] ∧
    rdCands { up with regs := (List.range 8).map (fun k => (at_ 0x57 (0xA0 + 4 * k), 0)) } 23 = [] ∧ (3 : Nat) < 4 ∧
    intxBuf { b0 := some { buf with intx := true, flushed := true } } = some 0 ∧ (canOf n 23).rec_ ≤ 127 := by decide

theorem wit_FramesAreSent :
    (headerOf (shut 0x57) (0x40 + 23)).locked = true ∧ (headerOf up (0x40 + 23)).locked = false ∧ getBuf (canOf up 23) 2 = none ∧
    getBuf (canOf (onCan { b2 := some buf }) 23) 2 = some buf ∧
    mayTx (onCan { mode := 1, state := .active, b2 := some buf }) 23 { mode := 1, state := .active, b2 := some buf } 2 = true ∧
    mayTx (onCan {}) 23 {} 2 = false ∧ (canOf (onCan { tec := 256 }) 23).tec ≤ 256 ∧
    pushOk (onCan { mode := 1 }) 23 = true ∧ pushOk (onCan {}) 23 = false ∧
    getBuf (canOf (onCan { b0 := some { body := .node { cls := 0, typ := 1, sub := 2, src := 3, retry := 0, data := [] } } }) 23) 0 =
      some { body := .node { cls := 0, typ := 1, sub := 2, src := 3, retry := 0, data := [] } } := by decide

theorem wit_RestrictedKeepsItsCounts :
    (canOf (onCan { mode := 2, state := .active }) 23).mode = 2 ∧ (canOf (onCan { mode := 2, state := .active }) 23).state = .active ∧
    (canOf (onCan { mode := 1, state := .passive }) 23).mode = 1 := by decide

theorem wit_HighPriorityVectorRepeats :
    condition (onCan { hpb := [rx] }) (40 + 23) = true ∧ (headerOf (onCan {}) (0x40 + 23)).locked = false ∧
    (canOf (onCan { hpb := [rx, rx] }) 23).hpb.tail ≠ [] ∧ bit (canReg (onCan {}) 23 0x9C) 0 = true ∧
    (vectorOf up 63).masked = true ∧ (vectorOf { up with vectors := [(63, { masked := false })] } 63).masked = false := by decide

theorem wit_FaultsAreConfined :
    (canOf (onCan { state := .busOff }) 23).state = .busOff ∧ (canOf (onCan { state := .recovering }) 23).state = .recovering ∧
    (canOf (onCan { state := .active, mode := 1, rec_ := 127 }) 23).tec < 128 ∧ 128 ≤ 127 + 1 ∧ 255 < 248 + 8 ∧ receives (onCan {}) 23 = false ∧
    rdTries { upReg (at_ 0x57 0xA0) 0x80000000 with cans := [(23, { state := .searching })] } 23 = true ∧
    (canOf (onCan { state := .integrating }) 23).state = .integrating ∧ fdoe (onCan {}) 23 = true ∧ fdoe (upReg (at_ 0x57 0x40) 0) 23 = false ∧
    (canOf (onCan { trxFlt := true }) 23).trxFlt = true ∧ 23 / 4 = 5 := by decide

theorem wit_ControllerCommands :
    (headerOf (onCan {}) (0x40 + 23)).locked = false ∧ (headerOf (shut 0x57) (0x40 + 23)).locked = true ∧
    (∀ op, op < 4 → judge (atInstant (st (onCan {})) 0) hostPath (0x40 + 23) (canCtrlCheck (onCan {}) (canCtrlWord op false 31)) = .accept) ∧
    (canOf (onCan { state := .busOff }) 23).state = .busOff ∧ (canOf (onCan { state := .busOff }) 23).trxFlt = false ∧
    (canOf (onCan {}) 23).state ≠ .busOff ∧ hpbEnabled (onCan {}) 23 = true := by decide

theorem wit_StoresOfTheRecorder :
    ({ frozen := some (0, 1) } : Recorder).frozen.isSome = true ∧ ({ ready := true } : Recorder).frozen = none ∧
    ({ ready := true } : Recorder).store = .flash ∧ ({ store := .mram } : Recorder).store ≠ .flash ∧
    ({ overrun := some {} } : Recorder).overrun = some {} ∧ 1048576 ≤ freeStaging up ∧ up.rec_.ready = false ∧ up.rec_.waiting = [] ∧
    ({ wear := 79 } : Recorder).wear < 80 ∧ 1 ∈ [1, 2, 4] ∧ 3 ∉ [1, 2, 4] ∧ usedSegs up + 2 < up.rec_.segs ∧
    usedSegs { up with rec_ := { segs := 2 } } + 2 = 2 ∧ bytesOf (up.rec_.flash ++ up.rec_.staging) ≤ up.rec_.segs * 1048576 := by decide

theorem wit_FreezeReadClearAndCapture :
    let n : Node := atInstant (st { up 6 with
      rec_ := { frozen := some (0, 5), token := some { value := 0, deadline := 6, path := 0 }, caps := [(7, { state := .capturing, parts := 1 })] }
      regs := [(at_ 6 0x84, 0), (at_ 6 0x2C0, 0)] }) 5
    judge n hostPath 6 { level := levelOk n hostPath 1 } = .accept ∧ n.rec_.frozen = some (0, 5) ∧ n.mgt.shed < 3 ∧ lanesNone n = false ∧ (capOf n 7).state ≠ .armed ∧ 5 ≤ n.now ∧ up.rec_.frozen = none ∧
    judge n hostPath 6 (recCmdCheck n hostPath (recWord 1 0)) = .accept ∧ judge n hostPath 6 (recCmdCheck n hostPath (recWord 3 0)) = .accept ∧
    judge (up 6) hostPath 6 (recCmdCheck (up 6) hostPath (recWord 2 0)) = .accept ∧ tokenOk n hostPath = true ∧ n.now < 6 ∧
    tokenOk (up 6) hostPath = false ∧ judge n hostPath 6 (recCmdCheck n hostPath (recWord 7 0)) = .accept ∧
    judge n hostPath 6 (recCmdCheck n hostPath (recWord 6 7)) = .accept ∧ captureFull n 7 = true ∧ captureFull up 7 = false := by decide
/-- A session of level 4 in CONFIG on the CFG page; account 1's password hash is of the empty password unless told otherwise. -/
abbrev onCfg (h : Nat) : Node :=
  { up 5 .config with
    config := { accounts := [(0, { en := true, level := 4 }), (1, { en := true, level := 3, hash := h, fails := 4 })],
                sessions := [(0, some { account := 1, level := 4, last := 0 })] }
    regs := [(at_ 5 0x60, 0x301)] }

theorem wit_SessionsOpenAndEnd_commands :
    let n := onCfg 0
    let m : Node := { n with config := { n.config with sessions := [(1, some { account := 0, level := 1, last := 0 })] } }
    (∀ op ∈ [2, 8, 9], judge (atInstant (st n) 0) 0 5 (cfgCmdCheck n 0 (BitVec.ofNat 32 op)) = .accept) ∧
    judge (atInstant (st m) 0) 0 5 (cfgCmdCheck m 0 1) = .accept ∧ sessionOf m 0 = none ∧ (accountOf m 1).en = true ∧
    isLocked m 1 = false ∧ fld (pAcct m) 3 0 = 1 ∧ fld (pAcct m) 10 8 ≤ (accountOf m 1).level ∧ editPath m = none ∧
    editPath n = some 0 ∧ fld (pAcct n) 26 24 = 0 ∧ 4 ≤ (accountOf m 1).fails ∧ (accountOf m 0).fails < 4 ∧
    (accountOf m 2).en = false ∧ timeoutAt m 0 = none ∧ (timeoutAt n 0).isSome = true ∧
    isLocked { n with config := { accounts := [(1, { lockUntil := some 1 })] } } 1 = true ∧
    (sessionOf { m with regs := [(at_ 5 0x60, 0x1000001)] } (fld (pAcct { m with regs := [(at_ 5 0x60, 0x1000001)] }) 26 24)).isSome = true ∧
    bit (reg (upReg (at_ 0x5B 0x58) 9) (at_ (0x58 + 3) 0x58)) 3 = true ∧ up.mgt.shed < 4 ∧ mgmtUp n 1 = false ∧
    mgmtUp { upReg (at_ 0x5B 0x58) 9 with config := { tls := [(1, true)] } } 1 = true := by decide

/-- A password that matches, and one that does not. -/
theorem wit_SessionsOpenAndEnd_password :
    pwMatches (accountOf (onCfg (pwHash [] 0)) 1) (pwBytes (onCfg (pwHash [] 0)) 0 0) = true ∧
    pwMatches (accountOf (onCfg (pwHash [] 0 + 1)) 1) (pwBytes (onCfg 0) 0 0) = false :=
  have h : ∀ k, (accountOf (onCfg k) 1).hash = k ∧ (accountOf (onCfg k) 1).salt = 0 ∧ pwBytes (onCfg k) 0 0 = [] :=
    have e : pwBytes (onCfg 0) 0 0 = [] := by decide
    fun _ => ⟨rfl, rfl, e⟩
  ⟨by simp only [pwMatches, h, decide_true], by simp [pwMatches, h]⟩

theorem wit_AccountsAndPasswords :
    let n := onCfg 0
    let w : Node := { n with config := { n.config with pw := [(0, 0x31426162), (1, 0x61626364)] } }
    (∀ op ∈ [3, 6, 7], judge (atInstant (st { n with regs := [(at_ 5 0x60, 0x10301), (at_ 5 0x70, 0x61)] }) 0) 0 5
      (cfgCmdCheck { n with regs := [(at_ 5 0x60, 0x10301), (at_ 5 0x70, 0x61)] } 0 (BitVec.ofNat 32 op)) = .accept) ∧
    sessionOf n 0 = some { account := 1, level := 4, last := 0 } ∧ isLocked n 1 = false ∧
    isLocked { n with config := { accounts := [(1, { lockUntil := some 1 })] } } 1 = true ∧
    pwRule (pwBytes w 0 0) [] = true ∧ pwBytes w 0 0 ≠ pwBytes w 0 8 ∧ pwRule (pwBytes n 0 0) [] = false ∧
    pwBytes n 0 0 = pwBytes n 0 8 ∧ superRemains n 1 {} = true ∧ superRemains n 0 {} = false ∧ n.mgt.state = .run ∧
    n.config.pend = none ∧ n.config.half = none ∧
    ({ n with config := { chpw := some { account := 1, level := 4, salt := 0, hash := 0 } } } : Node).config.chpw =
      some { account := 1, level := 4, salt := 0, hash := 0 } := by decide

theorem wit_ImagesCommitAndConfirm :
    let n := onCfg 0
    let q (x : Pending) : Node := { n with config := { n.config with pend := some x } }
    judge (atInstant (st n) 0) 0 5 (cfgCmdCheck n 0 4) = .accept ∧ judge (atInstant (st n) 0) 0 5 (cfgCmdCheck n 0 5) = .accept ∧
    judge (q { check := 0, until_ := 1 }) 0 5 { state := isConfig n, level := levelOk n 0 3 } = .accept ∧
    ({ check := 0, until_ := 1, verified := true } : Pending).verified = true ∧
    ({ check := 0, until_ := 1, first := true } : Pending).first = true ∧ ({ check := 0, until_ := 1 } : Pending).first = false ∧ isConfig n = true ∧ lanesNone n = false ∧
    n.config.chpw = none ∧ ({ check := 0, until_ := 1 } : Pending).confirmed = false ∧ n.mgt.state = .run ∧ State.reset.node.mgt.state ≠ .run ∧
    ({ n with config := { half := some true } } : Node).config.half = some true ∧ n.config.half = none ∧
    ({ n with config := { dirty := true } } : Node).config.dirty = true ∧ n.config.pend = none := by decide

theorem wit_ImagesCommitAndConfirm_fails :
    (commitFail (stagedView { up 5 .config with staged := [(chnKey 0 0, some 0x23)] })).isSome = true := by decide +kernel


theorem wit_ResetsAndFeeds :
    judge (atInstant (st up) 0) hostPath 0 { state := !failNow (atInstant (st up) 0) } = .accept ∧
    judge (atInstant State.reset 0) hostPath 0 { state := !failNow (atInstant State.reset 0) } = .duplicate ∧
    (let s := st { up with power := { pfail := true, pfailAt := 5 } }
     judge (atInstant s 5) hostPath 0 { state := !failNow (atInstant s 5) } = .refuse 4 ∧
     judge (atInstant s 6) hostPath 0 { state := !failNow (atInstant s 6) } = .accept) ∧
    0 + 30000000 ≤ max 0 30000000 ∧ max 0 29999999 < 0 + 30000000 ∧
    ({ up with nodeSt := { held := true } } : Node).nodeSt.held = true ∧ up.nodeSt.held = false ∧
    bit (reg (upReg (at_ 0 0x70) 1) (at_ 0 0x70)) 0 = true ∧ bit (reg up (at_ 0 0x70)) 0 = false ∧
    ({ aOk := true } : Power).aOk = true ∧ ({ aOk := true } : Power).bOk = false ∧ ({} : Power).pfail = false ∧
    ({ off := true, offAt := some 0 } : Power).off = true ∧ max 0 1000000000 ≤ 0 + 1000000000 ∧ 0 + 3000000000 < max 0 3000000001 ∧
    ({ pfail := true } : Power).pfail = true := by decide

theorem wit_StartUp :
    State.reset.node.nodeSt.state = .init ∧ State.reset.node.nodeSt.held = false ∧ State.reset.node.power.off = false ∧
    State.reset.node.nodeSt.phase = 1 ∧ State.reset.node.tb.state = .acquiring ∧
    copyRangeOk up { valid := true, regs := [(chnKey 0 0, 1)] } = true ∧ copyRangeOk up { valid := true, regs := [(chnKey 0 0, 0x1F)] } = false ∧
    nbit (reg (upReg (at_ 0x0D 0x50) 0x8000) (at_ 0x0D 0x50)).toNat 15 = true ∧ up.nodeSt.state ≠ .init ∧ (members 1 3).length < 2 ∧ 2 ≤ (members 6 3).length ∧
    ({ config := { copyA := { valid := true, gen := 2 }, copyB := { valid := true, gen := 1 } } } : Node).config.copyB.gen ≤ 2 ∧
    up.config.copyA.valid = false ∧ up.config.copyB.valid = false ∧
    rankTesting { up with ranks := [(15, { powered := true })] } 15 = true ∧ rankTesting up 15 = false ∧ (rankOf up 15).failed = false := by decide

theorem wit_WatchdogAndResume :
    let n : Node := { upReg (at_ 0 0x60) 1 with nodeSt := { state := .run, phase := 0 } }
    n.nodeSt.state = .run ∧ State.reset.node.nodeSt.state = .init ∧ State.reset.node.nodeSt.phase = 1 ∧ operational n = true ∧
    fld (reg n (at_ 0 0x60)) 15 0 ≠ 0 ∧ n.nodeSt.safePend = none ∧ (none : Option Nat) ≠ some 3 ∧ some 2 ≠ some 3 ∧
    n.nodeSt.kickAt + fld (reg n (at_ 0 0x60)) 15 0 * 100000000 ≤ max n.now 100000000 ∧
    max n.now 99999999 < n.nodeSt.kickAt + fld (reg n (at_ 0 0x60)) 15 0 * 100000000 ∧ (headerOf n 0).locked = false ∧
    (headerOf (shut 0) 0).locked = true ∧ ({ n with laneSt := {} } : Node).laneSt.state = 3 ∧ n.laneSt.state ≠ 3 ∧
    ({ n with nodeSt := { state := .config, safePend := some 2 } } : Node).nodeSt.safePend = some 2 ∧ n.power.pfail = false := by decide
/-- A node on which the events of the last statement act. -/
abbrev onEvents : Node :=
  { onSo { phase := .off } with
    frame := 7, laneSt := { state := 0, mask := 7, voted := true }, lanes := [(2, { phase := 0 })],
    regs := [(at_ 0x67 0x1E0, 0xC0000001), (chnKey 511 0, 9), (at_ 0x6B 0x4F0, 0x80000001)], ranks := [(15, { powered := true, ready := true })],
    safety := { outs := [(31, {})], evals := [(256 * 2 + 255, { disSince := some 19999 })] },
    rec_ := { ready := true, overrun := some {}, caps := [] }, config := { pend := some { check := 0, until_ := 1 } } }

theorem wit_EventsHaveTheirEffect :
    let n := onEvents
    let m : Node := onPair { posB := true, drive := .clamp, notReady := [(15, 16)], handover := some 0 }
    let at_ := (19999 / 10000 + sinDt n 255) * 10000
    (rankOf n 15).powered = true ∧ n.laneSt.state < 3 ∧ n.laneSt.inDone = false ∧ (laneOf n 2).phase = 0 ∧ (laneOf n 2).wdog = false ∧
    (laneOf n 2).held = false ∧ watched n 511 = true ∧ isDi n 511 = true ∧ hasCmp n 511 = true ∧ 511 % 8 = n.frame % 8 ∧
    (rankOf n (511 / 32)).ready = true ∧ holdsEnded n = [] ∧ 255 ∈ enabledPairs n ∧ (evalOf n 2 255).disSince = some 19999 ∧
    (evalOf n 2 255).discAt < at_ ∧ (copyOf n 0).excluded = false ∧ fabricAdvance (onSo { phase := .due }) = onSo { phase := .due } ∧
    (outputOf n 31).phase = .off ∧ (outputOf n 31).cmd = false ∧ paired n = false ∧ n.launches = [] ∧ paired m = true ∧
    m.duplex.checked = none ∧ m.duplex.hb = none ∧ m.duplex.handover = some 0 ∧ m.duplex.drive = .clamp ∧ n.laneSt.voted = true ∧
    n.config.half = none ∧ n.rec_.frozen = none ∧ n.rec_.ready = true ∧ n.rec_.store = .flash ∧ n.rec_.overrun.isSome = true ∧ n.rec_.staging = [] ∧ 4 ∈ [1, 2, 4] ∧
    bytesOf (n.rec_.flash ++ n.rec_.staging) ≤ n.rec_.segs * 1048576 ∧ usedSegs { n with rec_ := { segs := 2 } } + 2 = 2 ∧
    n.config.pend = some { check := 0, until_ := 1 } ∧ (1 : Nat) ≤ max n.now 1 := by decide
/-! The factory configuration passes every check of a commit: every register that a check reads holds 0 there, but the
filter word of a channel. -/

abbrev plain : Node := up 5 .config

theorem plain_init {p o : Nat} (ho : o < 4096) (hp : p < 256) (q : Nat) (hq : q < 256) (h : rowsOf p = rowsOf q) :
    reg plain (at_ p o) = regInit (at_ q o) := by
  have h1 : (at_ p o) % 1048576 / 4096 = p := by unfold at_; omega
  have h2 : (at_ p o) % 1048576 % 4096 = o := by unfold at_; omega
  have h3 : (at_ q o) % 1048576 / 4096 = q := by unfold at_; omega
  have h4 : (at_ q o) % 1048576 % 4096 = o := by unfold at_; omega
  change regInit (at_ p o) = _
  simp only [regInit, rowAt, h1, h2, h3, h4, h]

theorem plain_zero {p o : Nat} (ho : o < 4096) (hp : p < 256) (h : ∀ r ∈ rowsOf p, r.init = 0) : reg plain (at_ p o) = 0 := by
  have h1 : (at_ p o) % 1048576 / 4096 = p := by unfold at_; omega
  have h2 : (at_ p o) % 1048576 % 4096 = o := by unfold at_; omega
  change regInit (at_ p o) = _
  simp only [regInit, rowAt, h1, h2]
  cases hr : (rowsOf p).find? (fun x => rowHas x o) with
  | none => rfl
  | some r => simp only [h r (List.mem_of_find?_eq_some hr)]; rfl

theorem rows_rank : ∀ q, q < 16 → rowsOf (0x10 + q) = rowsOf 0x10 := by decide +kernel
theorem rows_trip : ∀ q, q < 4 → ∀ r ∈ rowsOf (0x60 + q), r.init = 0 := by decide +kernel
theorem rows_sout : ∀ q, q < 4 → ∀ r ∈ rowsOf (0x64 + q), r.init = 0 := by decide +kernel
theorem rows_sin : ∀ q, q < 4 → ∀ r ∈ rowsOf (0x68 + q), r.init = 0 := by decide +kernel
theorem rows_saf : ∀ r ∈ rowsOf 8, r.init = 0 := by decide +kernel

theorem chn_plain (o : Nat) (v : Word) (h : ∀ j, j < 32 → regInit (at_ 0x10 (0x100 + 0x20 * j + o)) = v) (ho : o < 0x20)
    {ch : Nat} (hc : ch < 512) : reg plain (chnKey ch o) = v := by
  unfold chnKey
  rw [plain_init (by omega) (by omega) 0x10 (by omega) (rows_rank _ (by omega)), h _ (by omega)]

theorem p_mode {ch : Nat} (hc : ch < 512) : chnMode plain ch = 0 := chn_plain 0 0 (by decide +kernel) (by omega) hc
theorem p_cfg {ch : Nat} (hc : ch < 512) : chnCfg plain ch = 0 := chn_plain 4 0 (by decide +kernel) (by omega) hc
theorem p_exc {ch : Nat} (hc : ch < 512) : reg plain (chnKey ch 8) = 0 := chn_plain 8 0 (by decide +kernel) (by omega) hc
theorem p_cmp {ch : Nat} (hc : ch < 512) : chnCmp plain ch = 0 := chn_plain 0x0C 0 (by decide +kernel) (by omega) hc
theorem p_aux {ch : Nat} (hc : ch < 512) : chnAux plain ch = 0 := chn_plain 0x10 0 (by decide +kernel) (by omega) hc
theorem p_filt {ch : Nat} (hc : ch < 512) : chnFilt plain ch = 258#32 := chn_plain 0x14 258#32 (by decide +kernel) (by omega) hc
theorem p_sel {ch : Nat} (hc : ch < 512) : chnSel plain ch = 0 := by unfold chnSel; rw [p_mode hc]; rfl
theorem p_dg {ch : Nat} (hc : ch < 512) : dgCfg plain ch = 0 := by
  have h : ∀ j, j < 32 → regInit (at_ 0x10 (0x800 + 4 * j)) = 0 := by decide +kernel
  unfold dgCfg
  rw [plain_init (by omega) (by omega) 0x10 (by omega) (rows_rank _ (by omega)), h _ (by omega)]

section
variable {k : Nat}
theorem p_sf (h : k < 64) : sfCfg plain k = 0 := plain_zero (by omega) (by omega) rows_saf
theorem p_out (h : k < 64) : sfOut plain k = 0 := plain_zero (by omega) (by omega) rows_saf
theorem p_slow {w : Nat} (h : k < 64) (hw : w < 4) : sfSlow plain k w = 0 := plain_zero (by omega) (by omega) rows_saf
theorem p_ao (h : k < 64) : aoMap plain k = 0 := plain_zero (by omega) (by omega) rows_saf
theorem p_so (h : k < 32) : soCfg plain k = 0 := plain_zero (by omega) (by omega) (rows_sout _ (by omega))
theorem p_fb (h : k < 32) : soFb plain k = 0 := plain_zero (by omega) (by omega) (rows_sout _ (by omega))
theorem p_sin (h : k < 256) : sinCfg plain k = 0 := plain_zero (by omega) (by omega) (rows_sin _ (by omega))
theorem p_tc {w : Nat} (h : k < 64) (hw : w < 16) : tripCmp plain k w = 0 := plain_zero (by omega) (by omega) (rows_trip _ (by omega))
theorem p_ts {w : Nat} (h : k < 64) (hw : w < 8) : tripSin plain k w = 0 := plain_zero (by omega) (by omega) (rows_trip _ (by omega))
theorem p_chs (h : k < 64) : mapChs plain k = [] := by
  unfold mapChs; rw [List.flatMap_eq_nil_iff]; intro w hw; rw [p_tc h (List.mem_range.mp hw)]; rfl
theorem p_prs (h : k < 64) : mapPairs plain k = [] := by
  unfold mapPairs; rw [List.flatMap_eq_nil_iff]; intro w hw; rw [p_ts h (List.mem_range.mp hw)]; rfl
theorem p_pts (h : k < 64) : slowPts plain k = [] := by
  unfold slowPts; rw [List.flatMap_eq_nil_iff]; intro w hw; rw [p_slow h (List.mem_range.mp hw)]; rfl
end

theorem bit_zero (k : Nat) : bit 0#32 k = false := by simp [bit]
theorem fld_zero (a b : Nat) : fld 0#32 a b = 0 := by simp [fld]

theorem p_entry (s : Nat) : aoEntryFor plain s = false := by
  unfold aoEntryFor
  rw [List.any_eq_false]
  intro e he
  rw [p_ao (List.mem_range.mp he)]
  simp [bit_zero]

theorem p_named : namedPts plain = [] := by
  have : (List.range 64).flatMap (slowPts plain) = [] := by
    rw [List.flatMap_eq_nil_iff]; intro k hk; exact p_pts (List.mem_range.mp hk)
  unfold namedPts; rw [this]; rfl

theorem p_mapped : (List.range 64).flatMap (mapPairs plain) = [] := by
  rw [List.flatMap_eq_nil_iff]; intro k hk; exact p_prs (List.mem_range.mp hk)

theorem fail_none (c : CommitCheck) (h : ∀ i ∈ c.range, c.ok i = true) : c.fail = none := by
  unfold CommitCheck.fail firstFail
  rw [List.find?_eq_none.mpr (fun i hi => by simp [h i hi])]
  rfl

set_option maxRecDepth 4000 in
theorem wit_ImagesCommitAndConfirm_passes : commitFail (stagedView plain) = none := by
  have hv : stagedView plain = plain := rfl
  have hu : usedByFns plain = [] := rfl
  rw [hv, commitFail, List.findSome?_eq_none_iff]
  intro c hc
  refine fail_none c ?_
  simp only [chChecks, ptChecks, safChecks, List.cons_append, List.nil_append, List.mem_cons, List.not_mem_nil, or_false, hu] at hc
  rcases hc with rfl | rfl | rfl | rfl | rfl | rfl | rfl | rfl | rfl | rfl | rfl | rfl | rfl | rfl | rfl | rfl | rfl | rfl | rfl |
    rfl | rfl | rfl | rfl | rfl | rfl | rfl | rfl <;> intro i hi
  on_goal 26 =>
    simp only [chkSafReserved, Bool.and_eq_true, List.all_eq_true, List.mem_range]
    refine ⟨⟨⟨fun x h => ?_, fun x h => ⟨?_, fun w hw => ?_⟩⟩, fun x h => ⟨?_, ?_⟩⟩, fun x h => ?_⟩
    · rw [p_ao h]; rfl
    · rw [p_sf h]; rfl
    · rw [p_slow h hw]; rfl
    · rw [p_so h]; rfl
    · rw [p_fb h]; rfl
    · rw [p_sin h]; rfl
  on_goal 22 => rw [p_mapped]
  on_goal 20 =>
    rcases List.mem_append.mp hi with hk | hk
    · have h := List.mem_range.mp hk
      simp [chkNames, show i < 256 by omega, sfEn, p_sf h, p_out h, p_chs h, p_prs h, p_entry, bit_zero]
    · obtain ⟨o, ho, rfl⟩ := List.mem_map.mp hk
      simp [chkNames, soEn, p_so (List.mem_range.mp ho), bit_zero]
  on_goal 2 => have hx : i ^^^ 1 < 512 := Nat.xor_lt_two_pow (n := 9) (List.mem_range.mp hi) (by omega)
  all_goals first
    | (have h := List.mem_range.mp hi
       first
         | (simp [chkMode, chnSensor, chnRange, chnWiring, chnExc, chkCmp, chkHyst, chkOut, chkCj, chkAux, chkInv, chkChReserved,
             chkDiFilter, chkDeb, chkMains, chkHold, chkAoMains, chkWbDis, chkDg, isDiMode, isAoMode, p_sel h, p_mode h, p_cfg h,
             p_exc h, p_cmp h, p_aux h, p_filt h, p_dg h, bit_zero, fld_zero, chkPairs, show fld 258#32 23 16 = 0 from rfl, show fld 258#32 9 8 = 1 from rfl]; done)
         | (simp [chkPairs, p_sel h, p_sel hx])
         | (simp [chkMapCmp, p_chs h]; done)
         | (simp [chkReset, chkAoEntry, sfEn, p_sf h, p_ao h, bit_zero])
         | (simp [chkOutput, tpEn, fbEn, p_so h, p_fb h, bit_zero])
         | (simp [chkSinPair, sinEn, p_sin h, bit_zero]))
    | (simp [p_named, safetyPts] at hi; done)
    | (rcases List.mem_singleton.mp hi with rfl; decide +kernel)
/-! The well-formedness checks: for each, a term it refuses; and terms at the ends of their ranges. -/

theorem test_wf_refuses_registers : ∀ c ∈ [Instr.hostRegisterWrite 0 2 0, .hostRegisterWrite 0 0x100000 0, .badAccess 0 true true (2 ^ 32),
    .lockWrite 0 256 0, .irqStatClear 0 256 0, .irqEnWrite 0 256 0, .msixUnmask 0 64 { mask := true }, .msixUnmask 0 0 { addr := 2 }, .pcieLinkReturn 0 { bar0 := 0x80000 }, .pairLowRead 0 1, .pairHighWrite 0 1 0,
    .holdWrite 0 256 0, .holdExpire 0 256, .commandEnd 0 256, .mgtLoadRead 0 101 0, .mgtLoadRead 0 0 101, .shedRaise 0 101,
    .shedLower 0 101, .pairLowWrite 0 1 0], wellFormed c = false := by decide

theorem test_wf_refuses_frame : ∀ c ∈ [Instr.sampleInstant 0 [{ ch := 512 }] [], .sampleInstant 0 [] [{ rank := 16 }],
    .sampleInstant 0 [{ ch := 1 }, { ch := 1 }] [], .sampleInstant 0 [] [{ rank := 1 }, { rank := 0 }], .rankTransfer 0 3 0 true 0,
    .rankTransfer 0 0 16 true 0, .inputExchange 0 [(3, 0)], .inputExchange 0 [(0, 16)], .votedBoundary 0 { fabCrcBad := 8 },
    .votedBoundary 0 { fabDiff := 8 }, .votedBoundary 0 { copies := [(512, 0, none)] }, .votedBoundary 0 { copies := [(0, 3, none)] },
    .votedBoundary 0 { soCopies := [(32, 0, none)] }, .votedBoundary 0 { souts := [{ so := 32 }] }, .votedBoundary 0 { vs := [(4, 0)] },
    .outputExchange 0 3 { lane := 0, frame := 0 }, .outputExchange 0 0 { lane := 3, frame := 0 }, .outputExchange 0 0 { lane := 0, frame := 0 },
    .outputExchange 0 1 { lane := 0, frame := 0, relay := [(3, 0)] },
    .laneWatchdog 0 3, .laneSelfFault 0 3 4, .laneSelfFault 0 0 16, .scrubPass 0 3 [] 0 true],
    wellFormed c = false := by decide

theorem test_wf_refuses_time_and_channels : ∀ c ∈ [Instr.ptpMessage 0 { port := 4, offset := 0 }, .canSyncReceived 0 { ctrl := 24, src := 0 } 0 0 {},
    .canSyncReceived 0 { ctrl := 0, src := 254 } 0 0 {}, .canSyncReceived 0 { ctrl := 0, src := 0 } 256 0 {},
    .canSyncReceived 0 { ctrl := 0, src := 0 } 0 0 { qual := 4 }, .canSyncReceived 0 { ctrl := 0, src := 0 } 0 0 { int := 5 }, .canFollowReceived 0 { ctrl := 0, src := 0 } 0 0 4,
    .zdaReceived 0 2 0, .sourceLost 0 0 true, .sourceLost 0 5 true, .followSend 0 24, .lchArm 0 64, .lchCancel 0 64, .rnkCmdClear 0 16,
    .comparatorCrossing 0 512 0 0 7, .comparatorCrossing 0 0 0 0 8, .wireBreakConfirm 0 512, .diagSlot 0 [(512, {})],
    .diagSlot 0 [(1, {}), (0, {})], .aoSetWrite 0 512 0, .almAck 0 4 0, .onDelayExpire 0 5120, .releaseExpire 0 256, .foStable 0 256],
    wellFormed c = false := by decide

theorem test_wf_refuses_messages : ∀ c ∈ [Instr.alarmMessageReceived 0 { ctrl := 0, src := 0 } 5120 0 0 0 0 true false,
    .alarmMessageReceived 0 { ctrl := 0, src := 0 } 0 256 0 0 0 true false, .alarmMessageReceived 0 { ctrl := 0, src := 0 } 0 0 8 0 0 true false,
    .alarmMessageReceived 0 { ctrl := 0, src := 0 } 0 0 0 0 4 true false, .resultMessageReceived 0 { ctrl := 0, src := 0 } 0 0 4 [],
    .resultMessageReceived 0 { ctrl := 0, src := 0 } 0 0 0 [{ ch := 512, stat := 0, dly := 0, val := 0 }], .peerStale 0 64,
    .rcmdAck 0 { ctrl := 0, src := 0 } 256 0 0 0, .rcmdSilence 0 { ctrl := 0, src := 0 } 0 4 0 0, .stnReply 0 { ctrl := 0, src := 0 } 16,
    .stnDutySet 0 { ctrl := 0, src := 0 } 0 0 256, .bridgeHbtReceived 0 { port := .eth 4, ok := true, sfi := 0 },
    .acnAck 0 { port := .ser 2, ok := true, sfi := 0 } 0 0], wellFormed c = false := by decide

theorem test_wf_refuses_safety_and_can : ∀ c ∈ [Instr.safReset 0 64, .safSoTest 0 32, .energisationTestDone 0 0 16, .testPulseEnd 0 32 0,
    .soMonitorFault 0 32 true 0 0 0, .vsLowChange 0 4 0, .fbSettle 0 32 true, .discrepancyTimeout 0 256 0, .discrepancyTimeout 0 0 3,
    .outputArbitration 0 { aCode := 8 }, .timeArbitration 0 { bCode := 8 }, .heartbeatReceived 0 2 [] 0 {}, .carrierTakeTimeout 0 16,
    .xlCmdClear 0 2, .canFrameReceived 0 24 0 frm, .canFrameReceived 0 0 0 { frm with id := 0x20000000 },
    .canFrameReceived 0 0 0 { frm with ide := false, id := 0x800 }, .canFrameReceived 0 0 0 { frm with dlc := 16 },
    .canFrameReceived 0 0 0 { frm with rtr := true }, .canFrameReceived 0 0 0 { frm with fdf := false },
    .canFrameReceived 0 0 0 { frm with data := List.replicate 65 0 }, .canError 0 0 { code := 0 }, .canError 0 0 { code := 7 },
    .canTxComplete 0 0 3 0, .trxFault 0 6, .trxFltClear 0 6, .canRxPop 0 0 3, .canCtrlNone 0 0 true 32, .canFlush 0 0 true 0 (some 3)],
    wellFormed c = false := by decide

theorem test_wf_refuses_network_and_node : ∀ c ∈ [Instr.ethLinkChange 0 4 true 0, .ethLinkChange 0 0 true 4, .ethCmdClear 0 4, .tlsConnect 0 0, .tlsConnect 0 5,
    .mgmtRead 0 0 { off := 0 }, .mgmtWrite 0 5 0 0, .arpIcmpRequest 0 4 true 0, .serRxLost 0 2, .serCmdClear 0 2, .recArm 0 8, .captureEnd 0 8, .flashFail 0 256,
    .cfgOpen 0 5, .lockoutExpire 0 16, .sessionTimeout 0 5, .startupPhaseEnd 0 8 {} false, .powerUp 0 false false,
    .recRateRead 0 5, .cfgCommit 0 { path := 5 }, .rankSelftestDone 0 16 0, .rankSelftestDone 0 0 16],
    wellFormed c = false := by decide

theorem test_wf_takes_the_ends : ∀ c ∈ [Instr.hostRegisterWrite 0 0xFFFFC 0, .lockWrite 0 255 0, .msixUnmask 0 63 { mask := true, addr := 0xFEE00000, data := 63 }, .votedBoundary 0 { souts := [{ so := 31 }], vs := [(3, 0)] }, .rankTransfer 0 2 15 true 0,
    .outputExchange 0 2 { lane := 1, frame := 0 }, .zdaReceived 0 1 0, .lchArm 0 63, .onDelayExpire 0 5119, .discrepancyTimeout 0 255 2,
    .canFrameReceived 0 23 0 { frm with id := 0x1FFFFFFF }, .canError 0 23 { code := 6 }, .cfgOpen 0 4, .lockoutExpire 0 15], wellFormed c = true := by decide

/-! Values that the spec writes out. -/

/-- 15 R346. -/
theorem test_crc32c_check_value : crc32c [0x31, 0x32, 0x33, 0x34, 0x35, 0x36, 0x37, 0x38, 0x39] = 0xE3069283 := by decide +kernel
/-- 02, the worked example under Table 02.5; 05, the one of RES4. -/
theorem test_page_id : readWord State.reset 0 0x12000 = 0x10020100 ∧ readWord State.reset 0 0x24000 = 0x11040100 := by decide +kernel
/-- 05, PAGE_CAP of RES. -/
theorem test_page_cap_res : pageCap 0x24 = 0x00200100 := by decide
/-- 02, the worked example of ALP4: SEQ_DEV, and the repeat without a session. -/
theorem test_seq_dev : readWord (st { up with seqs := [(0x34, { hseq := 0x1A5, echo := 0x1A5 })], headers := [(0x34, { dseq := 0x313 })] }) 0 0x3401C =
    0x01A50313 := by decide +kernel
theorem test_repeat_without_session :
    judge { up with seqs := [(0x34, { hseq := 0x1A6, echo := 0x1A5 })], config := {} } 0 0x34 { level := levelOk { up with config := {} } 0 2 } = .refuse 5 := by
  decide
/-- 06, the worked example: 20.0 mA is code 50 000. -/
theorem test_ao_code : codeOf 200000 = 0xC350 := by decide
/-- 03, the worked example: N = T / F. -/
theorem test_target_frames : 1780000000000000000 / ({} : Node).period = 0x19E70448800 ∧ 1780000000000000000 / periodOf 3 = 0xCF38224400 := by decide
/-- 00, the worked example of ch77. -/
theorem test_channel_77 : rankOfCh 77 = 2 ∧ groupInRank 77 = 1 ∧ rnkPage 77 = 0x12 := by decide
/-- 00 R13: a reserved page reads 0. -/
theorem test_reserved_page : readWord State.reset 0 0x6C000 = 0 := by decide +kernel
/-- 02 R42: LOCK with and without its key. -/
theorem test_lock_key : exec (.lockWrite 0 1 0x4C4B0001) State.reset =
      .next { State.reset with node := { State.reset.node with headers := [(1, { locked := true })] } } ∧
    exec (.lockWrite 0 1 0x4C4C0001) State.reset = .next State.reset := ⟨rfl, rfl⟩
/-- 08 Table 08.8. -/
theorem test_alert_states : nextAlert .actUnack .falls = .rectUnack ∧ nextAlert .rectUnack .ack = .normal ∧ nextAlert .actAck .rises = .actAck := by decide

/-- 18 R412: at the target of 25.5 V, 0.19 A is within 5.0 W and 0.2 A is not; the rail then falls to 25.0 V. -/
theorem test_group_limit :
    let g : Group := { vsup := 2550, demand := 2400 }
    (groupNext g { vsup := 2550, cur := 190000 }).supOk = true ∧ (groupNext g { vsup := 2550, cur := 200000 }).supOk = false ∧
    groupRail (groupNext g { vsup := 2550, cur := 200000 }) = 2500 := by decide
/-- 17 R393: HWDOG is set although an entry for LANES waits, whose cause stays. -/
theorem test_hwdog_beside_lanes :
    let n := hwdogExpire { upReg (at_ 0 0x60) 1 with now := 100000000, nodeSt := { state := .run, phase := 0, safePend := some 2 } }
    n.nodeSt.hwdogFault = true ∧ n.nodeSt.safePend = some 2 ∧ n.dueB = [(0, 3)] := by decide

end Sys2Proof.Tests
end

section
/-! PROOF. What the page holds of an accepted command (02 R44), and the statement on the judgement of commands. -/

namespace Sys2Proof.Machine

/-- The restart of a session's timeout leaves the commands in progress. -/
@[simp] theorem cmdOf_touchSession (n : Node) (path q : Nat) : cmdOf (touchSession n path) q = cmdOf n q := by
  rw [touchSession_rest]; rfl

/-- The command in progress on a page is the one last put there. -/
@[simp] theorem cmdOf_setCmd_self (n : Node) (p : Nat) (c : Option Command) : cmdOf (setCmd n p c) p = c := by
  simp [cmdOf]

/-- Acceptance makes the page BUSY with the command written and dates it, since the bound of 02 R45 runs from there. -/
theorem cmdOf_acceptCmd (n : Node) (path p off : Nat) (v : Word) :
    cmdOf (acceptCmd n path p off v) p =
      some { path := path, off := off, value := v, hseq := (seqOf n path p).hseq, result := none, since := n.now } := by
  rw [acceptCmd, cmdOf_touchSession]
  exact cmdOf_setCmd_self _ _ _

/-- The decision of the outcome changes nothing else of the command in progress. -/
theorem cmdOf_resolveCmd (n : Node) (p : Nat) (r : Option Bool) :
    cmdOf (resolveCmd n p r) p = (cmdOf n p).map (fun c => { c with result := r }) :=
  cmdOf_setCmd_self _ _ _

/-- A command just accepted keeps the instant of its acceptance, whatever its outcome. -/
theorem cmdOf_accepted (n : Node) (path p off : Nat) (v : Word) (res : Option Bool) :
    cmdOf (accepted n path p off v res) p =
      some { path := path, off := off, value := v, hseq := (seqOf n path p).hseq, result := res, since := n.now } := by
  rw [accepted, cmdOf_resolveCmd, cmdOf_acceptCmd]; rfl

/-- A node in RUN at the instant 1 ns, whose host has written the next number on the NODE page. -/
def runAtOneNs : Node :=
  { nodeSt := { state := .run, phase := 0 }, laneSt := { state := 0, mask := 7 }, seqs := [(0, { hseq := 1 })], now := 1 }

/-- It accepts GOTO SAFE, so the marks of acceptance are what this command leaves there. -/
theorem judge_runAtOneNs_goto_safe : judge runAtOneNs hostPath 0 (gotoCheck runAtOneNs hostPath 4) = .accept := by
  decide

/-- Refutes O9: its clause on acceptance writes the command in progress out without the instant of acceptance, so with
`since` 0, and the model dates it (02 R45 counts 3 F from there). GOTO SAFE accepted at 1 ns stands with `since` 1. -/
theorem not_commandsAreJudged : ¬ Obligations.CommandsAreJudged := by
  rintro ⟨-, marks, -⟩
  obtain ⟨-, -, -, hcmd, -, -⟩ := marks runAtOneNs hostPath 0 (at_ 0 0x54) 4 none
  rw [cmdOf_accepted] at hcmd
  have hsince : runAtOneNs.now = 0 := congrArg Command.since (Option.some.inj hcmd)
  exact absurd hsince (by decide)

end Sys2Proof.Machine
end

section
/-! PROOF. What the operations of the alarm engine on one point keep of its registers, STATE and ACTIVE (08 R171 to R187). -/

namespace Sys2Proof.Machine

/-! Reads of a point and of its configuration -/

@[simp] theorem pointOf_modPoint_self (n : Node) (k : Nat) (f : Point → Point) :
    pointOf (modPoint n k f) k = f (pointOf n k) :=
  tget_tmod_self _ _ _ _

@[simp] theorem pointOf_raiseR (n : Node) (p b k : Nat) : pointOf (raiseR n p b) k = pointOf n k := rfl

@[simp] theorem pointOf_markChange (n : Node) (j k : Nat) : pointOf (markChange n j) k = pointOf n k := rfl

@[simp] theorem pointOf_note (n : Node) (r : Rec) (k : Nat) : pointOf (note n r) k = pointOf n k := by
  simp only [pointOf, note_points]

@[simp] theorem markChange_regs (n : Node) (k : Nat) : (markChange n k).regs = n.regs := rfl

/-- The priority of a point is a register field, so what writes no register keeps it. -/
theorem ptPrio_of_regs_eq {u n : Node} (h : u.regs = n.regs) (k : Nat) : ptPrio u k = ptPrio n k := by
  simp only [ptPrio, ptAttr, slotReg, derReg, reg, h]

/-! What each operation on a point keeps -/

/-- STATE and ACTIVE of a point. -/
def stateAndActive (n : Node) (k : Nat) : AlertState × Bool := ((pointOf n k).state, (pointOf n k).active)

/-- STATE takes the value set and ACTIVE stands. -/
@[simp] theorem stateAndActive_setState (n : Node) (k : Nat) (a : AlertState) (event source : Nat) :
    stateAndActive (setState n k a event source) k = (a, (pointOf n k).active) := by
  simp only [setState]
  split
  case isTrue h => simp only [stateAndActive, h]
  case isFalse => simp [stateAndActive, raiseState]

@[simp] theorem setState_regs (n : Node) (k : Nat) (a : AlertState) (event source : Nat) :
    (setState n k a event source).regs = n.regs := by
  simp only [setState]
  split
  · rfl
  · simp [raiseState]

@[simp] theorem stateAndActive_dropShelf (n : Node) (k source : Nat) :
    stateAndActive (dropShelf n k source) k = stateAndActive n k := by
  simp only [dropShelf]
  split
  · simp [stateAndActive]
  · rfl

@[simp] theorem dropShelf_regs (n : Node) (k source : Nat) : (dropShelf n k source).regs = n.regs := by
  simp only [dropShelf]
  split
  · simp
  · rfl

@[simp] theorem evalActive_regs (n : Node) (k : Nat) : (evalActive n k).regs = n.regs := by
  simp only [evalActive, raiseActive, apply_ite Node.regs, raiseR_regs, modPoint_regs, markChange_regs, ite_self]

/-! Cautions -/

theorem follows184_of_caution {n : Node} {k : Nat} (h : ptPrio n k = 0) : follows184 n k = true := by
  simp [follows184, h]

/-- STATE of a point that follows R184, by its ACTIVE. -/
def calmState (active : Bool) : AlertState := if active then .actAck else .normal

theorem calmState_ne_actSilenced (active : Bool) : calmState active ≠ .actSilenced := by
  cases active <;> decide

theorem command_of_follows184 {n : Node} {k : Nat} (h : follows184 n k = true) (e : AlmEvent) (source : Nat) :
    command n k e source = n := by
  simp only [command, h, if_true]

theorem stateAndActive_evalState_of_follows184 {n : Node} {k : Nat} (h : follows184 n k = true) (was : Bool) :
    stateAndActive (evalState n k was) k = (calmState (pointOf n k).active, (pointOf n k).active) := by
  simp only [evalState, h, if_true, stateAndActive_setState, calmState]

theorem evalState_regs_of_follows184 {n : Node} {k : Nat} (h : follows184 n k = true) (was : Bool) :
    (evalState n k was).regs = n.regs := by
  simp only [evalState, h, if_true, setState_regs]

/-- The silence timer runs in ACT_SILENCED alone. -/
theorem silenceStep_of_state_ne {n : Node} {k : Nat} (h : (pointOf n k).state ≠ .actSilenced) : silenceStep n k = n := by
  simp only [silenceStep, h, if_false]

/-- The end of shelving puts only a point that is no caution into ACT_UNACK (R187). -/
theorem stateAndActive_endShelf_of_caution {n : Node} {k : Nat} (h : ptPrio n k = 0) (source : Nat) :
    stateAndActive (endShelf n k source) k = stateAndActive n k := by
  have hprio : ptPrio (dropShelf n k source) k = 0 := (ptPrio_of_regs_eq (dropShelf_regs n k source) k).trans h
  simp only [endShelf]
  split
  · simp [hprio]
  · rfl

theorem stateAndActive_expireShelf_of_caution {n : Node} {k : Nat} (h : ptPrio n k = 0) :
    stateAndActive (expireShelf n k) k = stateAndActive n k :=
  calc stateAndActive (expireShelf n k) k
      = stateAndActive (endShelf n k 255) k := by simp [expireShelf, stateAndActive]
    _ = stateAndActive n k := stateAndActive_endShelf_of_caution h 255

/-- A frame of shelving, its end included, leaves STATE and ACTIVE of a caution. -/
theorem stateAndActive_shelveStep_of_caution {n : Node} {k : Nat} (h : ptPrio n k = 0) :
    stateAndActive (shelveStep n k) k = stateAndActive n k := by
  have counted : stateAndActive (modPoint n k fun p => { p with shelLeft := p.shelLeft - 1 }) k = stateAndActive n k := by
    simp [stateAndActive]
  simp only [shelveStep]
  split
  · split
    · exact (stateAndActive_expireShelf_of_caution ((ptPrio_of_regs_eq (modPoint_regs n k _) k).trans h)).trans counted
    · exact counted
  · rfl

/-- STATE of a caution is set by its ACTIVE, and neither the silence timer nor shelving changes either after it. -/
theorem stateAndActive_timers_of_caution {n : Node} {k : Nat} (h : ptPrio n k = 0) (was : Bool) :
    stateAndActive (shelveStep (silenceStep (evalState n k was) k) k) k =
      (calmState (pointOf n k).active, (pointOf n k).active) := by
  have hfol : follows184 n k = true := follows184_of_caution h
  have hset : stateAndActive (evalState n k was) k = (calmState (pointOf n k).active, (pointOf n k).active) :=
    stateAndActive_evalState_of_follows184 hfol was
  have hcaution : ptPrio (evalState n k was) k = 0 :=
    (ptPrio_of_regs_eq (evalState_regs_of_follows184 hfol was) k).trans h
  have hquiet : silenceStep (evalState n k was) k = evalState n k was :=
    silenceStep_of_state_ne fun hsil => calmState_ne_actSilenced _ ((congrArg Prod.fst hset).symm.trans hsil)
  rw [hquiet, stateAndActive_shelveStep_of_caution hcaution, hset]

/-- Step 5 of a frame on an enabled point: the ages, ACTIVE, STATE by it, the silence timer, shelving. -/
theorem evalAlert_of_enabled {n : Node} {k : Nat} (h : (pointOf n k).disabled = false) :
    evalAlert n k =
      shelveStep (silenceStep (evalState (evalActive (modPoint n k runAges) k) k (pointOf n k).active) k) k := by
  simp only [evalAlert, h, Bool.false_eq_true, if_false]

/-- After step 5 an enabled caution is ACT_ACK while ACTIVE is 1 and NORMAL otherwise. -/
theorem state_evalAlert_of_caution {n : Node} {k : Nat} (hprio : ptPrio n k = 0) (hen : (pointOf n k).disabled = false) :
    (pointOf (evalAlert n k) k).state = calmState (pointOf (evalAlert n k) k).active := by
  have hactive : ptPrio (evalActive (modPoint n k runAges) k) k = 0 :=
    (ptPrio_of_regs_eq (evalActive_regs _ k) k).trans ((ptPrio_of_regs_eq (modPoint_regs n k runAges) k).trans hprio)
  have hend := stateAndActive_timers_of_caution hactive (pointOf n k).active
  rw [← evalAlert_of_enabled hen] at hend
  obtain ⟨hstate, hact⟩ := Prod.mk.inj hend
  rw [hstate, hact]

/-- A point that becomes DISABLED is NORMAL and not active at once (R175). -/
theorem stateAndActive_disablePt (n : Node) (k : Nat) : stateAndActive (disablePt n k) k = (.normal, false) := by
  have hset := congrArg Prod.fst (stateAndActive_setState (dropShelf n k 255) k .normal 12 255)
  simpa [disablePt, stateAndActive] using hset

/-- Settles O33: no operation of step 5 writes a register, so a caution stays one throughout it and takes its STATE from
ACTIVE; a command finds that the point follows R184 and changes nothing. -/
theorem cautionsNeedNoAcknowledgement : Obligations.CautionsNeedNoAcknowledgement := by
  intro n k src hprio
  obtain ⟨hstate, hactive⟩ := Prod.mk.inj (stateAndActive_disablePt n k)
  exact ⟨state_evalAlert_of_caution hprio,
    fun e _ => command_of_follows184 (follows184_of_caution hprio) e src, hstate, hactive⟩

end Sys2Proof.Machine
end

section
/-! PROOF. What each operation of a CAN controller keeps of its fault confinement, and what its traffic and its errors do to
it in RESTRICTED (13 R310 to R314). -/

namespace Sys2Proof.Machine

/-! A controller after a change of one -/

@[simp] theorem canOf_modCan_self (n : Node) (c : Nat) (f : CanCtl → CanCtl) : canOf (modCan n c f) c = f (canOf n c) :=
  tget_tmod_self _ _ _ _

theorem canOf_modCan_ne (n : Node) (c : Nat) (f : CanCtl → CanCtl) {k : Nat} (h : k ≠ c) :
    canOf (modCan n c f) k = canOf n k :=
  tget_tmod_ne _ _ _ h

@[simp] theorem canOf_note (n : Node) (r : Rec) (k : Nat) : canOf (note n r) k = canOf n k := by
  simp only [canOf, note_cans]

@[simp] theorem canOf_raise (n : Node) (p b k : Nat) : canOf (raise n p b) k = canOf n k := rfl

@[simp] theorem canOf_raiseB (n : Node) (p b k : Nat) : canOf (raiseB n p b) k = canOf n k := rfl

/-- A change that the node makes to a register by itself reaches no controller. -/
@[simp] theorem canOf_writeByNode (n : Node) (key : Nat) (v : Word) (origin k : Nat) :
    canOf (writeByNode n key v origin) k = canOf n k :=
  canOf_note _ _ k

/-! Fault confinement -/

/-- What the rules on fault confinement read and set of a controller: its state, its mode and a mode that waits, TEC, REC and
CAN_LEC. Its queues, its buffers and the counts of its traffic are left out. -/
structure Confinement where
  state : CanState
  mode : Nat
  cfgPend : Bool
  tec : Nat
  rec_ : Nat
  lec : Nat
  lecData : Bool

def confinement (x : CanCtl) : Confinement :=
  { state := x.state, mode := x.mode, cfgPend := x.cfgPend, tec := x.tec, rec_ := x.rec_, lec := x.lec, lecData := x.lecData }

/-- No controller but c changes. -/
def OnlyCan (c : Nat) (n u : Node) : Prop := ∀ k, k ≠ c → canOf u k = canOf n k

/-- No controller but c changes, and c comes to y. -/
def Confines (c : Nat) (y : Confinement) (n u : Node) : Prop := OnlyCan c n u ∧ confinement (canOf u c) = y

/-- No controller but c changes, and c keeps its fault confinement. -/
def KeepsCan (c : Nat) (n u : Node) : Prop := Confines c (confinement (canOf n c)) n u

theorem onlyCan_modCan (n : Node) (c : Nat) (f : CanCtl → CanCtl) : OnlyCan c n (modCan n c f) :=
  fun _ hk => canOf_modCan_ne n c f hk

theorem OnlyCan.trans {c : Nat} {n m u : Node} (h : OnlyCan c n m) (h' : OnlyCan c m u) : OnlyCan c n u :=
  fun k hk => (h' k hk).trans (h k hk)

theorem KeepsCan.refl (c : Nat) (n : Node) : KeepsCan c n n := ⟨fun _ _ => rfl, rfl⟩

theorem Confines.keeps {c : Nat} {y : Confinement} {n m u : Node} (h : Confines c y n m) (h' : KeepsCan c m u) :
    Confines c y n u :=
  ⟨h.1.trans h'.1, h'.2.trans h.2⟩

theorem KeepsCan.trans {c : Nat} {n m u : Node} (h : KeepsCan c n m) (h' : KeepsCan c m u) : KeepsCan c n u :=
  Confines.keeps h h'

theorem Confines.mode_eq {c : Nat} {y : Confinement} {n u : Node} (h : Confines c y n u) : (canOf u c).mode = y.mode :=
  congrArg Confinement.mode h.2

theorem KeepsCan.mode_eq {c : Nat} {n u : Node} (h : KeepsCan c n u) : (canOf u c).mode = (canOf n c).mode := Confines.mode_eq h

theorem keepsCan_modCan (n : Node) (c : Nat) {f : CanCtl → CanCtl}
    (h : confinement (f (canOf n c)) = confinement (canOf n c)) :
    KeepsCan c n (modCan n c f) :=
  ⟨onlyCan_modCan n c f, by rw [canOf_modCan_self, h]⟩

theorem KeepsCan.confines_modCan {c : Nat} {n u : Node} (h : KeepsCan c n u) {f : CanCtl → CanCtl}
    (g : Confinement → Confinement) (hf : ∀ x, confinement (f x) = g (confinement x)) :
    Confines c (g (confinement (canOf n c))) n (modCan u c f) :=
  ⟨h.1.trans (onlyCan_modCan u c f), by rw [canOf_modCan_self, hf, h.2]⟩

theorem KeepsCan.raised {c : Nat} {n u : Node} (h : KeepsCan c n u) (p b : Nat) : KeepsCan c n (raise u p b) := h

theorem KeepsCan.raisedB {c : Nat} {n u : Node} (h : KeepsCan c n u) (p b : Nat) : KeepsCan c n (raiseB u p b) := h

theorem keepsCan_note (n : Node) (r : Rec) (c : Nat) : KeepsCan c n (note n r) :=
  ⟨fun k _ => canOf_note n r k, congrArg confinement (canOf_note n r c)⟩

theorem KeepsCan.foldl {c : Nat} {f : Node → Nat → Node} (h : ∀ m b, KeepsCan c m (f m b)) (l : List Nat) (n : Node) :
    KeepsCan c n (l.foldl f n) := by
  induction l generalizing n with
  | nil => exact KeepsCan.refl c n
  | cons b r ih => exact (h n b).trans (ih (f n b))

theorem KeepsCan.ite {p : Prop} [Decidable p] {c : Nat} {n u v : Node} (hu : KeepsCan c n u) (hv : KeepsCan c n v) :
    KeepsCan c n (if p then u else v) := by
  split
  · exact hu
  · exact hv

/-- The drawing of a free value reaches no controller. -/
theorem KeepsCan.drawn_if {c : Nat} {n u : Node} (h : KeepsCan c n u) (p : Prop) [Decidable p] :
    KeepsCan c n (if p then drawn u else u) :=
  KeepsCan.ite h h

/-! Transmit buffers -/

@[simp] theorem confinement_putBuf (x : CanCtl) (b : Nat) (v : Option TxBuf) :
    confinement (putBuf x b v) = confinement x := by
  unfold putBuf
  split
  · rfl
  · split <;> rfl

theorem confinement_loadOne (x : CanCtl) : confinement (loadOne x) = confinement x := by
  unfold loadOne
  split
  · rfl
  · split
    · exact confinement_putBuf x _ _
    · split
      · exact confinement_putBuf x _ _
      · rfl

theorem confinement_preempt (n : Node) (c : Nat) (x : CanCtl) : confinement (preempt n c x) = confinement x := by
  unfold preempt
  split
  · rfl
  · split
    · rfl
    · split
      · rfl
      · split
        · split
          · exact confinement_putBuf x _ _
          · rfl
        · rfl

theorem confinement_loadAll (n : Node) (c : Nat) (x : CanCtl) : confinement (loadAll n c x) = confinement x := by
  simp only [loadAll, confinement_preempt, confinement_loadOne]

theorem confinement_startTx (n : Node) (c : Nat) (x : CanCtl) : confinement (startTx n c x) = confinement x := by
  unfold startTx
  split
  · rfl
  · split
    · exact confinement_putBuf x _ _
    · rfl

theorem confinement_unloadNode (x : CanCtl) : confinement (unloadNode x) = confinement x := by
  unfold unloadNode
  refine List.foldlRecOn (motive := fun y => confinement y = confinement x) _ _ rfl (fun y hy b _ => ?_)
  split
  · exact (confinement_putBuf y b none).trans hy
  · exact hy

theorem keepsCan_loadBufs (n : Node) (c : Nat) : KeepsCan c n (loadBufs n c) := by
  refine KeepsCan.ite (keepsCan_modCan n c ?_) (KeepsCan.refl c n)
  rw [confinement_startTx]
  split
  · exact (confinement_loadAll n c _).trans (confinement_unloadNode _)
  · exact confinement_loadAll n c _

theorem keepsCan_complete (n : Node) (c : Nat) (m : HostMsg) (attempts status : Nat) (ts : Word) :
    KeepsCan c n (complete n c m attempts status ts) := by
  have told (l : List Completion) : KeepsCan c n (modCan n c fun x => { x with txc := x.txc ++ l }) := keepsCan_modCan n c rfl
  exact (told _).raised _ _

theorem keepsCan_endBuf (n : Node) (c b status : Nat) (ts : Word) : KeepsCan c n (endBuf n c b status ts) := by
  have emptied : KeepsCan c n (modCan n c fun x => { putBuf x b none with lastDone := b }) :=
    keepsCan_modCan n c (confinement_putBuf _ b none)
  unfold endBuf
  split
  · exact KeepsCan.refl c n
  · split
    · exact emptied.trans (keepsCan_complete _ c _ _ _ _)
    · exact KeepsCan.ite emptied emptied

theorem keepsCan_endAllBufs (n : Node) (c status : Nat) : KeepsCan c n (endAllBufs n c status) :=
  ((keepsCan_endBuf n c 0 _ _).trans (keepsCan_endBuf _ c 1 _ _)).trans (keepsCan_endBuf _ c 2 _ _)

theorem keepsCan_loseArb (n : Node) (c : Nat) (keep : Option Nat) : KeepsCan c n (loseArb n c keep) := by
  refine KeepsCan.foldl (fun m b => ?_) _ n
  split
  · next t _ =>
    have stopped : KeepsCan c m (modCan m c fun x => putBuf x b (some { t with intx := false })) :=
      keepsCan_modCan m c (confinement_putBuf _ b _)
    exact KeepsCan.ite (KeepsCan.refl c m) (KeepsCan.ite (stopped.trans (keepsCan_endBuf _ c b 4 0)) stopped)
  · exact KeepsCan.refl c m

/-! Reception and rate detection -/

theorem keepsCan_storeFrame (n : Node) (c fifo : Nat) (r : RxFrame) : KeepsCan c n (storeFrame n c fifo r) := by
  unfold storeFrame
  split
  · exact KeepsCan.ite ((keepsCan_modCan n c rfl).raised _ _) ((keepsCan_modCan n c rfl).raised _ _)
  · exact KeepsCan.ite ((keepsCan_modCan n c rfl).raised _ _) ((keepsCan_modCan n c rfl).raised _ _)
  · exact KeepsCan.ite (keepsCan_modCan n c rfl) ((keepsCan_modCan n c rfl).raised _ _)
  · exact KeepsCan.refl c n

theorem keepsCan_addrDup (n : Node) (c : Nat) (id : Word) : KeepsCan c n (addrDup n c id) :=
  KeepsCan.ite (keepsCan_note { n with net := { n.net with dupAt := some n.now } } _ c) (KeepsCan.refl c n)

theorem keepsCan_storeReceived (n : Node) (c sof : Nat) (f : CanFrame) : KeepsCan c n (storeReceived n c sof f) := by
  have told (m : Node) (hm : KeepsCan c n m) :
      KeepsCan c n (if nodeLayer m c && layerType f && decide (f.id / 1024 % 256 = msgAddr m) then
        addrDup m c (idWord true f.id) else m) :=
    KeepsCan.ite (hm.trans (keepsCan_addrDup m c _)) hm
  refine told _ ?_
  split
  · exact keepsCan_storeFrame n c _ _
  · exact KeepsCan.ite (keepsCan_storeFrame n c _ _) (KeepsCan.refl c n)

theorem keepsCan_rdMove (n : Node) (c : Nat) : KeepsCan c n (rdMove n c) :=
  KeepsCan.ite (KeepsCan.refl c n) (keepsCan_modCan n c rfl)

theorem keepsCan_writeByNode (n : Node) (c key : Nat) (v : Word) (origin : Nat) : KeepsCan c n (writeByNode n key v origin) :=
  ⟨fun k _ => canOf_writeByNode n key v origin k, congrArg confinement (canOf_writeByNode n key v origin c)⟩

/-- What the lock of rate detection makes of a controller: ACTIVE in the mode m, with no mode that waits (13 R303). -/
def Confinement.locked (y : Confinement) (m : Nat) : Confinement := { y with state := .active, mode := m, cfgPend := false }

theorem confines_rdLock (n : Node) (c : Nat) : ∃ m, Confines c ((confinement (canOf n c)).locked m) n (rdLock n c) := by
  have written (u : Node) (k : Nat) (v : Word) : KeepsCan c u (writeByNode u k v oCan) := keepsCan_writeByNode u c k v oCan
  have lock {u : Node} (hu : KeepsCan c n u) (m : Nat) : Confines c ((confinement (canOf n c)).locked m) n
      (modCan u c fun x => { x with rdLocked := true, mode := m, state := .active, cfgPend := false }) :=
    hu.confines_modCan (·.locked m) fun _ => rfl
  unfold rdLock
  refine ⟨_, (lock (KeepsCan.trans ?_ (written _ _ _)) _).keeps
    (((keepsCan_loadBufs _ c).trans (keepsCan_note _ _ c)).raisedB _ _)⟩
  split
  · exact (written _ _ _).trans ((written _ _ _).trans (written _ _ _))
  · exact written _ _ _

/-- No controller but c changes, and c keeps its fault confinement or locks its rate detection. -/
def KeepsOrLocks (c : Nat) (n u : Node) : Prop :=
  KeepsCan c n u ∨ ∃ m, Confines c ((confinement (canOf n c)).locked m) n u

theorem KeepsCan.rdLock_if {c : Nat} {n u : Node} (h : KeepsCan c n u) (p : Prop) [Decidable p] :
    KeepsOrLocks c n (if p then rdLock u c else u) := by
  split
  · obtain ⟨m, honly, hlocked⟩ := confines_rdLock u c
    exact .inr ⟨m, h.1.trans honly, by rw [hlocked, h.2]⟩
  · exact .inl h

/-- A frame that rate detection counts can lock it. -/
theorem KeepsCan.search_if {c : Nat} {n u : Node} (h : KeepsCan c n u) {g : CanCtl → CanCtl}
    (hg : confinement (g (canOf u c)) = confinement (canOf u c)) (p q : Prop) [Decidable p] [Decidable q] :
    KeepsOrLocks c n (if p then if q then rdLock (modCan u c g) c else modCan u c g else u) := by
  split
  · exact (h.trans (keepsCan_modCan u c hg)).rdLock_if q
  · exact .inl h

/-! The end of an attempt and of an error -/

theorem keepsCan_failAttempt (n : Node) (c b code : Nat) : KeepsCan c n (failAttempt n c b code) := by
  unfold failAttempt
  split
  · exact KeepsCan.refl c n
  · next t _ =>
    have failed : KeepsCan c n (modCan n c fun x => putBuf x b (some { t with attempts := t.attempts + 1, intx := false })) :=
      keepsCan_modCan n c (confinement_putBuf _ b _)
    exact KeepsCan.ite (failed.trans (keepsCan_endBuf _ c b _ _))
      (KeepsCan.ite (failed.trans (keepsCan_endBuf _ c b _ _)) failed)

theorem keepsCan_countAck (n : Node) (c code : Nat) : KeepsCan c n (countAck n c code) := by
  have counted : KeepsCan c n (modCan n c fun x => { x with ackRun := if code = 3 then x.ackRun + 1 else 0 }) :=
    keepsCan_modCan n c rfl
  have alone (m : Node) : KeepsCan c m (modCan m c fun x => { x with alone := true }) := keepsCan_modCan m c rfl
  exact KeepsCan.ite (counted.trans (((alone _).trans (keepsCan_note _ _ c)).raisedB _ _)) counted

theorem keepsCan_collide (n : Node) (c b : Nat) : KeepsCan c n (collide n c b) := by
  unfold collide
  split
  · exact KeepsCan.refl c n
  · next t _ =>
    have seen (l : List (Word × Nat)) : KeepsCan c n (modCan n c fun x => { x with colls := l }) := keepsCan_modCan n c rfl
    have told (m : Node) (w : Word) : KeepsCan c m (modCan m c fun x => { x with idcoll := true, collId := some w }) :=
      keepsCan_modCan m c rfl
    exact KeepsCan.ite ((seen _).trans (((told _ _).trans (keepsCan_note _ _ c)).raisedB _ _)) (seen _)

/-! The mode in force -/

theorem confine_of_mode_ne {n : Node} {c : Nat} (h : (canOf n c).mode ≠ 1) : confine n c = n := by
  simp [confine, h]

theorem mayTx_of_mode_ne {x : CanCtl} (h : x.mode ≠ 1) (n : Node) (c b : Nat) : mayTx n c x b = false := by
  simp [mayTx, canSends, h]

theorem txDone_of_mode_ne {n : Node} {c : Nat} (h : (canOf n c).mode ≠ 1) (b sof : Nat) : txDone n c b sof = n := by
  simp [txDone, mayTx_of_mode_ne h]

/-- A configuration takes effect after a transmission only where one waits, in NORMAL. -/
theorem keepsCan_afterTx {n : Node} {c : Nat} (h : (canOf n c).mode ≠ 1 ∨ (canOf n c).cfgPend = false) :
    KeepsCan c n (afterTx n c) := by
  have stands : ¬ ((canOf n c).cfgPend && (canOf n c).mode == 1 && (intxBuf (canOf n c)).isNone) = true := by
    rcases h with h | h <;> simp [h]
  simp only [afterTx, stands]
  exact keepsCan_loadBufs n c

/-! CAN_LEC -/

/-- CAN_LEC: the code of the last error, and whether it came in the data phase. -/
def lastError (x : CanCtl) : Nat × Bool := (x.lec, x.lecData)

theorem Confines.lastError_eq {c : Nat} {y : Confinement} {n u : Node} (h : Confines c y n u) :
    lastError (canOf u c) = (y.lec, y.lecData) :=
  congrArg (fun z => (z.lec, z.lecData)) h.2

theorem KeepsCan.lastError_eq {c : Nat} {n u : Node} (h : KeepsCan c n u) : lastError (canOf u c) = lastError (canOf n c) :=
  Confines.lastError_eq h

theorem lastError_enterBusOff (n : Node) (c : Nat) : lastError (canOf (enterBusOff n c) c) = lastError (canOf n c) := by
  unfold enterBusOff
  rw [canOf_raiseB, canOf_note, (keepsCan_endAllBufs _ c 5).lastError_eq, canOf_modCan_self]
  rfl

theorem lastError_confine (n : Node) (c : Nat) : lastError (canOf (confine n c) c) = lastError (canOf n c) := by
  simp only [confine]
  split
  · rfl
  · split
    · exact lastError_enterBusOff n c
    · split
      · split
        · rw [canOf_raiseB, canOf_modCan_self]; rfl
        · rfl
      · rw [canOf_modCan_self]; rfl

theorem lastError_configure (n : Node) (c : Nat) : lastError (canOf (configure n c) c) = lastError (canOf n c) := by
  unfold configure
  rw [canOf_modCan_self]
  exact (keepsCan_endAllBufs n c 6).lastError_eq

theorem lastError_afterTx (n : Node) (c : Nat) : lastError (canOf (afterTx n c) c) = lastError (canOf n c) := by
  simp only [afterTx]
  split
  · exact lastError_configure n c
  · exact (keepsCan_loadBufs n c).lastError_eq

/-! A detected error -/

/-- What an error makes of a controller before its counters confine it; tx is the buffer of it that was sending (13 R312,
R314). -/
def countedError (e : CanErr) (tx : Option Nat) (y : Confinement) : Confinement :=
  { y with
    lec := e.code, lecData := e.dataPhase,
    tec := if y.mode = 1 ∧ tx.isSome then y.tec + tecUp (decide (y.state = .passive)) e else y.tec,
    rec_ := if y.mode = 1 ∧ tx = none then sat 255 (y.rec_ + recUp e) else y.rec_,
    state := if y.mode = 2 then .integrating else y.state }

/-- A controller that receives counts an error, and is then confined by its counters. -/
theorem canErr_of_receives {n : Node} {c : Nat} (h : receives n c = true) (e : CanErr) :
    ∃ m, canErr n c e = afterTx (confine m c) c ∧
      Confines c (countedError e (e.buf.filter (mayTx n c (canOf n c))) (confinement (canOf n c))) n m := by
  simp only [canErr, h, Bool.not_true, Bool.false_eq_true, if_false]
  generalize e.buf.filter (mayTx n c (canOf n c)) = tx
  refine ⟨_, rfl, ?_⟩
  have lost := keepsCan_loseArb n c tx
  split
  · refine Confines.keeps ?_ (KeepsCan.ite (keepsCan_rdMove _ c) (KeepsCan.refl c _))
    refine lost.confines_modCan (countedError e none) fun x => ?_
    rfl
  · next b =>
    refine Confines.keeps (Confines.keeps ?_ (KeepsCan.ite (keepsCan_rdMove _ c) (KeepsCan.refl c _)))
      ((KeepsCan.ite (keepsCan_collide _ c b) (KeepsCan.refl c _)).trans
        ((keepsCan_countAck _ c _).trans (keepsCan_failAttempt _ c b _)))
    refine lost.confines_modCan (countedError e (some b)) fun x => ?_
    rfl

theorem canErr_of_not_receives {n : Node} {c : Nat} (h : receives n c = false) (e : CanErr) : canErr n c e = n := by
  simp [canErr, h]

theorem receives_of_onBus {n : Node} {c : Nat} (h : (canOf n c).state = .active ∨ (canOf n c).state = .passive) :
    receives n c = true := by
  rcases h with h | h <;> simp [receives, h]

/-- An error of a controller that receives sets CAN_LEC, and neither the confinement nor what follows it changes that. -/
theorem lastError_canErr {n : Node} {c : Nat} (h : receives n c = true) (e : CanErr) :
    lastError (canOf (canErr n c e) c) = (e.code, e.dataPhase) := by
  obtain ⟨m, herr, hm⟩ := canErr_of_receives h e
  rw [herr, lastError_afterTx, lastError_confine, hm.lastError_eq]
  rfl

/-! RESTRICTED -/

/-- No controller but c changes; c keeps TEC and REC and does not come to ERROR_PASSIVE or BUS_OFF (13 R314). -/
def CountsStand (c : Nat) (n u : Node) : Prop :=
  OnlyCan c n u ∧ (canOf u c).tec = (canOf n c).tec ∧ (canOf u c).rec_ = (canOf n c).rec_ ∧
    ((canOf n c).state ≠ .passive → (canOf u c).state ≠ .passive) ∧
    ((canOf n c).state ≠ .busOff → (canOf u c).state ≠ .busOff)

theorem KeepsCan.countsStand {c : Nat} {n u : Node} (h : KeepsCan c n u) : CountsStand c n u := by
  have hstate : (canOf u c).state = (canOf n c).state := congrArg Confinement.state h.2
  exact ⟨h.1, congrArg Confinement.tec h.2, congrArg Confinement.rec_ h.2, fun hs => hstate ▸ hs, fun hs => hstate ▸ hs⟩

/-- A controller that comes to another state keeps R314 where that is neither ERROR_PASSIVE nor BUS_OFF. -/
theorem Confines.countsStand {c : Nat} {y : Confinement} {n u : Node} (h : Confines c y n u) (htec : y.tec = (canOf n c).tec)
    (hrec : y.rec_ = (canOf n c).rec_) (hp : y.state ≠ .passive) (hb : y.state ≠ .busOff) : CountsStand c n u := by
  obtain ⟨honly, rfl⟩ := h
  exact ⟨honly, htec, hrec, fun _ => hp, fun _ => hb⟩

section restricted
variable {n : Node} {c : Nat} (hmode : (canOf n c).mode = 2)
include hmode

theorem mode_ne_one_of_restricted : (canOf n c).mode ≠ 1 := by omega

/-- In RESTRICTED the confinement by the counters and a waiting configuration have no part after an error: the controller
integrates again. -/
theorem countsStand_canErr (e : CanErr) : CountsStand c n (canErr n c e) := by
  have notNormal : (canOf n c).mode ≠ 1 := mode_ne_one_of_restricted hmode
  cases hrx : receives n c with
  | false =>
    rw [canErr_of_not_receives hrx]
    exact (KeepsCan.refl c n).countsStand
  | true =>
    obtain ⟨m, herr, hm⟩ := canErr_of_receives hrx e
    have hm1 : (canOf m c).mode ≠ 1 := hm.mode_eq ▸ notNormal
    rw [herr, confine_of_mode_ne hm1]
    have done := hm.keeps (keepsCan_afterTx (.inl hm1))
    have hstate : (countedError e (e.buf.filter (mayTx n c (canOf n c))) (confinement (canOf n c))).state = .integrating :=
      if_pos hmode
    refine done.countsStand (if_neg fun h => notNormal h.1) (if_neg fun h => notNormal h.1) ?_ ?_
    · rw [hstate]; decide
    · rw [hstate]; decide

/-- What the end of a received frame still does: it stores the frame, and its engine loads. -/
theorem countsStand_stored {u : Node} (h : KeepsOrLocks c n u) (sof : Nat) (f : CanFrame) :
    CountsStand c n (afterTx (storeReceived u c sof f) c) := by
  rcases h with hkept | ⟨m, hlocked⟩
  · have hs := hkept.trans (keepsCan_storeReceived u c sof f)
    exact (hs.trans (keepsCan_afterTx (.inl (hs.mode_eq ▸ mode_ne_one_of_restricted hmode)))).countsStand
  · have hs := hlocked.keeps (keepsCan_storeReceived u c sof f)
    have hpend : (canOf (storeReceived u c sof f) c).cfgPend = false := congrArg Confinement.cfgPend hs.2
    exact (hs.keeps (keepsCan_afterTx (.inr hpend))).countsStand rfl rfl nofun nofun

theorem KeepsCan.confine_of_restricted {u : Node} (h : KeepsCan c n u) : KeepsCan c n (confine u c) := by
  rw [confine_of_mode_ne (h.mode_eq ▸ mode_ne_one_of_restricted hmode)]
  exact h

/-- A received frame leaves a controller in RESTRICTED as it was, or locks its rate detection where that was searching. -/
theorem countsStand_canReceive (sof : Nat) (f : CanFrame) : CountsStand c n (canReceive n c sof f) := by
  have lost : KeepsCan c n (loseArb n c none) := keepsCan_loseArb n c none
  simp only [canReceive]
  split
  · exact ((keepsCan_modCan n c rfl).trans (keepsCan_storeReceived _ c sof f)).countsStand
  · split
    · exact (KeepsCan.refl c n).countsStand
    · refine countsStand_stored hmode (KeepsCan.search_if (KeepsCan.confine_of_restricted hmode ?_) rfl _ _) sof f
      refine KeepsCan.drawn_if (lost.trans (keepsCan_modCan _ c ?_)) _
      simp [confinement, clearAlone, lost.mode_eq, hmode]

theorem countsStand_takeFrame (sof : Nat) (f : CanFrame) : CountsStand c n (takeFrame n c sof f) := by
  unfold takeFrame
  split
  · exact countsStand_canErr hmode _
  · exact countsStand_canReceive hmode sof f

theorem countsStand_txDone (b sof : Nat) : CountsStand c n (txDone n c b sof) := by
  rw [txDone_of_mode_ne (mode_ne_one_of_restricted hmode)]
  exact (KeepsCan.refl c n).countsStand

/-- A protocol exception ends in integration, or in the next candidate of rate detection. -/
theorem countsStand_canPxe : CountsStand c n (canPxe n c) := by
  have counted : KeepsCan c n (modCan (loseArb n c none) c fun x => { x with pxe := sat 255 (x.pxe + 1) }) :=
    (keepsCan_loseArb n c none).trans (keepsCan_modCan _ c rfl)
  have integrates {u : Node} (hu : KeepsCan c n u) :
      CountsStand c n (afterTx (modCan u c fun x => { x with state := .integrating }) c) := by
    have hi : Confines c { confinement (canOf n c) with state := .integrating } n
        (modCan u c fun x => { x with state := .integrating }) :=
      hu.confines_modCan (fun y => { y with state := .integrating }) fun _ => rfl
    exact (hi.keeps (keepsCan_afterTx (.inl (hi.mode_eq ▸ mode_ne_one_of_restricted hmode)))).countsStand rfl rfl nofun nofun
  simp only [canPxe]
  split
  · exact (KeepsCan.refl c n).countsStand
  · split
    · exact (counted.trans (keepsCan_rdMove _ c)).countsStand
    · exact integrates counted

end restricted

/-! The statement -/

/-- A row about a controller that exists acts on the node as it stands at the instant. -/
theorem acts_onCan {i : Instr} {s : State} {t c : Nat} {f : Node → Node} {P : Node → Node → Prop} (hc : c < 24)
    (he : exec i s = .next (onCan s t c f)) (h : P (atInstant s t) (settle (f (atInstant s t)))) : Acts i s t P :=
  acts_onNode he (by simpa only [hc, if_true] using h)

/-- Settles O48: in RESTRICTED no counter moves, so the confinement by the counters finds nothing to do; CAN_LEC is set where
an error is counted, and nothing after it sets CAN_LEC again. -/
theorem restrictedKeepsItsCounts : Obligations.RestrictedKeepsItsCounts := by
  intro t c b sof e f s hc
  refine ⟨fun hmode i hi => ?_, fun _ hstate => ?_⟩
  · have restricted : (canOf (atInstant s t) c).mode = 2 := hmode
    have acts {g : Node → Node} (he : exec i s = .next (onCan s t c g))
        (hg : CountsStand c (atInstant s t) (g (atInstant s t))) :
        Acts i s t (CountsStand c) := acts_onCan hc he hg
    simp only [List.mem_cons, List.not_mem_nil, or_false] at hi
    rcases hi with rfl | rfl | rfl | rfl
    · exact acts rfl (countsStand_canErr restricted e)
    · exact acts rfl (countsStand_takeFrame restricted sof f)
    · exact acts rfl (countsStand_txDone restricted b sof)
    · exact acts rfl (countsStand_canPxe restricted)
  · have onBus : receives (atInstant s t) c = true := receives_of_onBus hstate
    exact acts_onCan hc rfl (Prod.mk.inj (lastError_canErr onBus e))

end Sys2Proof.Machine
end

section
/-! PROOF. What the interrupts leave of a vector at the end of an event (02 R40), and the vector of a high-priority buffer
(13 R306). -/

namespace Sys2Proof.Machine

/-! Vectors after an event -/

/-- A change of every key of a list changes each entry of the list once, and no other. -/
theorem tget_tmodAll {α : Type} [DecidableEq α] (d : α) (t : Tbl α) {ks : List Nat} (f : Nat → α → α) (h : ks.Nodup)
    (k : Nat) : tget d (tmodAll d t ks f) k = if k ∈ ks then f k (tget d t k) else tget d t k := by
  unfold tmodAll
  induction ks generalizing t with
  | nil => simp
  | cons j r ih =>
    obtain ⟨hj, hr⟩ := List.nodup_cons.mp h
    rw [List.foldl_cons, ih _ hr]
    by_cases hk : k = j
    · subst hk
      simp [hj]
    · simp [hk, tget_tmod_ne]

theorem vectorOf_settleWith (again : List Nat) (n : Node) {v : Nat} (hv : v < 64) :
    vectorOf (settleWith again n) v = (vectorStep n (again.contains v) v).2 := by
  unfold vectorOf settleWith
  rw [tget_tmodAll _ _ _ List.nodup_range, if_pos (List.mem_range.mpr hv)]

theorem msix_mem_outs_settleWith {again : List Nat} {n : Node} {v : Nat} (hv : v < 64)
    (h : (vectorStep n (again.contains v) v).1 = true) : .msix v ∈ (settleWith again n).outs :=
  List.mem_append_right _ (List.mem_map_of_mem (List.mem_filter.mpr ⟨List.mem_range.mpr hv, h⟩))

/-- A vector of `again` whose condition stands sends its message, unless it is masked. -/
theorem msix_mem_outs_of_again {again : List Nat} {n : Node} {v : Nat} (hv : v < 64) (ha : v ∈ again)
    (hc : condition n v = true) (hm : (vectorOf n v).masked = false) : .msix v ∈ (settleWith again n).outs :=
  msix_mem_outs_settleWith hv (by simp [vectorStep, ha, hc, hm])

/-- A masked vector of `again` whose condition stands is pending. -/
theorem pending_of_again {again : List Nat} {n : Node} {v : Nat} (hv : v < 64) (ha : v ∈ again)
    (hc : condition n v = true) (hm : (vectorOf n v).masked = true) : (vectorOf (settleWith again n) v).pending = true := by
  rw [vectorOf_settleWith again n hv]
  simp [vectorStep, ha, hc, hm]

/-! The high-priority buffer -/

/-- CAN_HPB_CTRL of every controller reads 0 at reset. -/
theorem regInit_hpbCtrl : ∀ c, c < 24 → regInit (at_ (0x40 + c) 0x9C) = 0 := by
  decide +kernel

theorem hpbEnabled_eq (n : Node) {c : Nat} (hc : c < 24) : hpbEnabled n c = bit (canReg n c 0x9C) 0 := by
  unfold canReg reg
  rw [regInit_hpbCtrl c hc]
  rfl

theorem condition_hpb_iff (n : Node) {c : Nat} (hc : c < 24) :
    condition n (40 + c) = true ↔ (canOf n c).hpb ≠ [] ∧ bit (canReg n c 0x9C) 0 = true := by
  simp [condition, hpbEnabled_eq n hc, and_comm]

theorem onlyCan_canPop (n : Node) (c fifo : Nat) : OnlyCan c n (canPop n c fifo) := onlyCan_modCan n c _

@[simp] theorem hpb_canPop (n : Node) (c : Nat) : (canOf (canPop n c 2) c).hpb = (canOf n c).hpb.tail := by
  simp [canPop]

@[simp] theorem vectorOf_canPop (n : Node) (c fifo v : Nat) : vectorOf (canPop n c fifo) v = vectorOf n v := rfl

@[simp] theorem canReg_canPop (n : Node) (c fifo k o : Nat) : canReg (canPop n c fifo) k o = canReg n k o := rfl

@[simp] theorem canOf_settleWith (again : List Nat) (n : Node) (k : Nat) : canOf (settleWith again n) k = canOf n k := rfl

/-- A POP on a page that is not locked takes effect, with the vector of the high-priority buffer settled again. -/
theorem exec_canRxPop_hpb {s : State} {c : Nat} (hc : c < 24) (hopen : (headerOf s.node (0x40 + c)).locked = false) (t : Nat) :
    exec (.canRxPop t c 2) s = .next { s with node := settleWith [40 + c] (canPop (atInstant s t) c 2) } := by
  have hnow : (headerOf (begin_ s.node t) (canPage c)).locked = false := hopen
  have hthen : (headerOf s.node (canPage c)).locked = false := hopen
  change execCanRxPop t c 2 s = _
  simp only [execCanRxPop, unlocked, popAgain, hc, hnow, hthen, Bool.false_eq_true, if_true, if_false]
  rfl

/-- Settles O49: a POP that leaves a frame leaves the condition of the vector standing, and the vector is settled again. -/
theorem highPriorityVectorRepeats : Obligations.HighPriorityVectorRepeats := by
  intro t c s hc
  refine ⟨condition_hpb_iff s.node hc, fun hopen hleft hien => ?_⟩
  have hcond : condition (canPop (atInstant s t) c 2) (40 + c) = true := by
    rw [condition_hpb_iff _ hc, hpb_canPop, canReg_canPop]
    exact ⟨hleft, hien⟩
  have hv : 40 + c < 64 := by omega
  refine ⟨_, exec_canRxPop_hpb hc hopen t, nodeOnly_mk s _, ?_, fun k hk => ?_, fun hm => ?_, fun hm => ?_⟩
  · rw [canOf_settleWith, hpb_canPop]
  · rw [canOf_settleWith, onlyCan_canPop _ c 2 k hk]
  · exact msix_mem_outs_of_again hv (List.mem_singleton_self _) hcond hm
  · exact pending_of_again hv (List.mem_singleton_self _) hcond hm

end Sys2Proof.Machine
end

section
/-! PROOF. What the events that reach beyond the node keep of the holds, the shadow copies and the mirror ring (02 R50, R51),
and the statements on the whole machine. -/

namespace Sys2Proof.Machine

/-! The pages' frozen copies -/

/-- A change of every key of a list that does nothing more the second time changes each entry of the list, and no other. -/
theorem tget_tmodAll_of_idem {α : Type} [DecidableEq α] (d : α) (t : Tbl α) (ks : List Nat) {f : Nat → α → α}
    (hf : ∀ k x, f k (f k x) = f k x) (k : Nat) :
    tget d (tmodAll d t ks f) k = if k ∈ ks then f k (tget d t k) else tget d t k := by
  unfold tmodAll
  induction ks generalizing t with
  | nil => simp
  | cons j r ih =>
    rw [List.foldl_cons, ih, tget_tmod]
    by_cases hk : k = j
    · subst hk
      simp [hf]
    · simp [hk]

theorem tget_of_not_mem_keys {α : Type} (d : α) {t : Tbl α} {k : Nat} (h : k ∉ keys t) : tget d t k = d := by
  have none_listed : lookup t k = none := by
    induction t with
    | nil => rfl
    | cons e r ih =>
      obtain ⟨j, v⟩ := e
      obtain ⟨hj, hr⟩ := not_or.mp (List.mem_cons.not.mp h)
      simp [lookup, Ne.symm hj, ih hr]
  simp [tget, none_listed]

/-- A refresh of the pages' copies changes each page's, and leaves out those that are over. -/
theorem tget_holdsNow (t : Tbl (Option HoldSt)) {f : HoldSt → HoldSt} (hf : ∀ h, f (f h) = f h) (p : Nat) :
    tget none (holdsNow t f) p = (tget none t p).bind (fun h => if holdOver (f h) then none else some (f h)) := by
  unfold holdsNow
  rw [tget_tmodAll_of_idem]
  · split
    · rfl
    · next hp => rw [tget_of_not_mem_keys none hp]; rfl
  · intro _ x
    cases x with
    | none => rfl
    | some h => by_cases hover : holdOver (f h) = true <;> simp [hover, hf]

theorem holdB_idem (n : Node) (h : HoldSt) : holdB n (holdB n h) = holdB n h := by
  unfold holdB
  cases hd : h.bDue <;> cases h.held <;> simp [hd]

theorem holdR_idem (n : Node) (h : HoldSt) : holdR n (holdR n h) = holdR n h := by
  unfold holdR
  cases hd : h.rDue <;> cases h.held <;> simp [hd]

/-! The invariant -/

/-- What is under HOLD after an event was so before, or is a page with shadow words. -/
theorem inv_of_holds {s u : State} (hs : Inv s) (hmem : memWf u.bar2 = true)
    (hholds : ∀ p, (tget none u.holds p).isSome → (tget none s.holds p).isSome ∨ hasShadow p = true) : Inv u :=
  ⟨hmem, fun p hp => (hholds p hp).elim (hs.2 p) id⟩

theorem inv_of_same {s u : State} (hs : Inv s) (hb : u.bar2 = s.bar2) (hh : u.holds = s.holds) : Inv u := by
  unfold Inv
  rwa [hb, hh]

theorem inv_of_nodeOnly {s u : State} (hs : Inv s) (h : NodeOnly s u) : Inv u := by
  obtain ⟨-, -, hholds, hbar2, -⟩ := h
  exact inv_of_same hs hbar2 hholds

theorem inv_withNode {s : State} (hs : Inv s) (n : Node) : Inv { s with node := n } := hs

/-- A reset leaves no page under HOLD and the ring empty. -/
theorem inv_resetState (s : State) (n : Node) : Inv (resetState s n) :=
  ⟨rfl, fun _ hp => absurd hp (by simp [resetState, tget, lookup])⟩

/-- A page set aside under a key that is none, or a page with shadow words. -/
theorem inv_tset_holds {s : State} (hs : Inv s) (n : Node) {p : Nat} {x : Option HoldSt}
    (hx : x.isSome → (tget none s.holds p).isSome ∨ hasShadow p = true) :
    Inv { s with node := n, holds := tset none s.holds p x } := by
  refine inv_of_holds hs hs.1 fun q hq => ?_
  rw [tget_tset] at hq
  split at hq
  · next h => exact h ▸ hx hq
  · exact .inl hq

theorem inv_releaseHold {s : State} (hs : Inv s) (p : Nat) : Inv (releaseHold s p) := by
  unfold releaseHold
  split
  · next h hp => exact inv_tset_holds hs s.node fun _ => .inl (by simp [hp])
  · exact hs

theorem inv_writePageCtrl {s : State} (hs : Inv s) (p : Nat) (v : Word) : Inv (writePageCtrl s p v) := by
  unfold writePageCtrl
  dsimp only
  split
  · exact hs
  · split
    · next hhold =>
      have hshadow : hasShadow p = true := (Bool.and_eq_true_iff.mp hhold).1
      split <;> exact inv_tset_holds hs _ fun _ => .inr hshadow
    · exact inv_releaseHold (inv_withNode hs _) p

theorem inv_holdExpire {s : State} (hs : Inv s) (p : Nat) : Inv (holdExpire s p) := by
  unfold holdExpire
  split
  · split
    · exact inv_releaseHold (inv_withNode hs _) p
    · exact hs
  · exact hs

theorem inv_refresh {s u : State} (hs : Inv s) {f : HoldSt → HoldSt} (hf : ∀ h, f (f h) = f h) (hb : u.bar2 = s.bar2)
    (hh : u.holds = holdsNow s.holds f) : Inv u := by
  refine inv_of_holds hs (hb ▸ hs.1) fun p hp => .inl ?_
  rw [hh, tget_holdsNow _ hf] at hp
  cases hx : tget none s.holds p with
  | none => simp [hx] at hp
  | some h => rfl

theorem inv_nodeCtrlWrite {s : State} (hs : Inv s) (path : Nat) (v : Word) : Inv (nodeCtrlWrite s path v) := by
  unfold nodeCtrlWrite
  split
  · split
    · exact hs
    · exact hs
    · exact inv_resetState _ _
  · exact hs

theorem inv_barWrite {s : State} (hs : Inv s) (path off : Nat) (v : Word) : Inv (barWrite s path off v) := by
  unfold barWrite
  dsimp only
  split
  · exact hs
  · split
    · exact inv_writePageCtrl hs _ v
    · split
      · exact hs
      · split
        · exact inv_nodeCtrlWrite hs path v
        · exact hs

theorem inv_pathWrite {s : State} (hs : Inv s) (path off : Nat) (v : Word) : Inv (pathWrite s path off v) := by
  unfold pathWrite
  dsimp only
  split
  · exact hs
  · exact inv_of_nodeOnly (inv_barWrite hs path off v) (nodeOnly_mk _ _)

theorem inv_mgmtWrite {s : State} (hs : Inv s) (path off : Nat) (v : Word) : Inv (mgmtWrite s path off v) := by
  unfold mgmtWrite
  split
  · exact hs
  · dsimp only
    split
    · exact hs
    · exact inv_of_nodeOnly (inv_pathWrite hs path off v) (nodeOnly_mk _ _)

theorem inv_mirrorWrite {s : State} (hs : Inv s) : Inv (mirrorWrite s) := by
  unfold mirrorWrite
  split
  · exact ⟨memWf_memReplace _ _ (Nat.le_add_right _ _) hs.1, hs.2⟩
  · exact hs

/-- An event on the whole machine keeps the invariant where its effect does. -/
theorem inv_onState {s : State} (hs : Inv s) (t : Nat) {f : State → State}
    (hf : Inv { s with node := begin_ s.node t } → Inv (f { s with node := begin_ s.node t })) : Inv (onState s t f) :=
  inv_of_nodeOnly (hf hs) (nodeOnly_mk _ _)

/-- What holds of each command that reaches beyond the node holds of all of them. -/
theorem beyondNode_cases {P : Instr → Prop} {c : Instr} (hc : beyondNode c = true)
    (hostWrite : ∀ t off v, P (.hostRegisterWrite t off v)) (mgmtWrite : ∀ t path off v, P (.mgmtWrite t path off v))
    (holdWrite : ∀ t p v, P (.holdWrite t p v)) (holdExpire : ∀ t p, P (.holdExpire t p))
    (boundary : ∀ t inp, P (.votedBoundary t inp)) (ready : ∀ t, P (.resultReady t)) (mirror : ∀ t, P (.mirrorBlockWrite t))
    (reset : ∀ t, P (.nodeResetCmd t)) (assert : ∀ t, P (.rstNAssert t)) (release : ∀ t, P (.rstNRelease t))
    (perst : ∀ t, P (.perstNAssert t)) (powerUp : ∀ t a b, P (.powerUp t a b)) (feed : ∀ t b, P (.feedPresent t b))
    (shutdown : ∀ t, P (.shutdown t)) : P c := by
  unfold beyondNode at hc
  split at hc
  · exact hostWrite _ _ _
  · exact mgmtWrite _ _ _ _
  · exact holdWrite _ _ _
  · exact holdExpire _ _
  · exact boundary _ _
  · exact ready _
  · exact mirror _
  · exact reset _
  · exact assert _
  · exact release _
  · exact perst _
  · exact powerUp _ _ _
  · exact feed _ _
  · exact shutdown _
  · cases hc

/-- Every command keeps the invariant: those on the node alone have nothing to keep, resets clear what it speaks of. -/
theorem inv_exec {s : State} (c : Instr) (hs : Inv s) : Yields c s Inv := by
  cases hc : beyondNode c with
  | false =>
    obtain ⟨w, hw, hnode⟩ := exec_nodeOnly c s hc
    exact ⟨w, hw, inv_of_nodeOnly hs hnode⟩
  | true =>
    have either (p : Bool) {u v : State} (hu : Inv u) (hv : Inv v) : Inv (if p then u else v) := by split <;> assumption
    refine beyondNode_cases (P := fun c => Yields c s Inv) hc ?hostWrite ?mgmtWrite ?holdWrite ?holdExpire ?boundary ?ready ?mirror
      ?reset ?assert ?release ?perst ?powerUp ?feed ?shutdown
    case hostWrite => exact fun _ _ _ => ⟨_, rfl, inv_pathWrite (inv_withNode hs _) _ _ _⟩
    case mgmtWrite => exact fun _ _ _ _ => ⟨_, rfl, inv_mgmtWrite (inv_withNode hs _) _ _ _⟩
    case holdWrite => exact fun _ _ _ => ⟨_, rfl, inv_writePageCtrl (inv_withNode hs _) _ _⟩
    case holdExpire => exact fun _ _ => ⟨_, rfl, inv_holdExpire (inv_withNode hs _) _⟩
    case boundary => exact fun t _ => ⟨_, rfl, inv_onState hs t fun hb => inv_refresh hb (holdB_idem _) rfl rfl⟩
    case ready => exact fun t => ⟨_, rfl, inv_onState hs t fun hb => either _ (inv_refresh hb (holdR_idem _) rfl rfl) hb⟩
    case mirror => exact fun t => ⟨_, rfl, inv_onState hs t inv_mirrorWrite⟩
    case reset => exact fun t => ⟨_, rfl, inv_onState hs t fun hb => inv_nodeCtrlWrite hb _ _⟩
    case assert => exact fun t => ⟨_, rfl, inv_onState hs t fun _ => inv_resetState _ _⟩
    case release => exact fun t => ⟨_, rfl, inv_onState hs t fun hb => either _ (inv_resetState _ _) hb⟩
    case perst => exact fun t => ⟨_, rfl, inv_onState hs t fun hb => either _ (inv_resetState _ _) hb⟩
    case powerUp => exact fun t _ _ => ⟨_, rfl, inv_onState hs t fun hb => either _ (inv_resetState _ _) hb⟩
    case feed => exact fun t _ => ⟨_, rfl, inv_onState hs t fun hb => either _ (inv_resetState _ _) hb⟩
    case shutdown => exact fun t => ⟨_, rfl, inv_onState hs t fun hb => either _ (inv_resetState _ _) hb⟩

/-- Settles O5: a step runs the command at the front of the queue, and every command keeps the invariant. -/
theorem stepKeepsInv : Obligations.StepKeepsInv := by
  intro s u hs h
  unfold step at h
  split at h
  · cases h
    exact hs
  · next c r _ =>
    obtain ⟨w, hw, hinv⟩ := inv_exec (s := { s with pending := r }) c hs
    cases hw.symm.trans h
    exact hinv

/-! The refreshes -/

/-- What O6 says of a command. -/
def OwnRefresh (c : Instr) (s u : State) : Prop :=
  (u.atB = s.atB ∨ ∃ t inp, c = .votedBoundary t inp) ∧ (u.atR = s.atR ∨ ∃ t, c = .resultReady t) ∧
  (u.bar2 = s.bar2 ∨ ∃ t, c = .mirrorBlockWrite t)

theorem ownRefresh_of_rest {c : Instr} {s u : State} (h : u.atB = s.atB ∧ u.atR = s.atR ∧ u.bar2 = s.bar2) : OwnRefresh c s u :=
  ⟨.inl h.1, .inl h.2.1, .inl h.2.2⟩

theorem holdExpire_rest (s : State) (p : Nat) :
    (holdExpire s p).atB = s.atB ∧ (holdExpire s p).atR = s.atR ∧ (holdExpire s p).bar2 = s.bar2 ∧
      (holdExpire s p).pending = s.pending := by
  unfold holdExpire
  split
  · split
    · obtain ⟨hb, hr, hm, hp, -⟩ := releaseHold_rest { s with node := _ } p
      exact ⟨hb, hr, hm, hp⟩
    · exact ⟨rfl, rfl, rfl, rfl⟩
  · exact ⟨rfl, rfl, rfl, rfl⟩

theorem mirrorWrite_rest (s : State) :
    (mirrorWrite s).atB = s.atB ∧ (mirrorWrite s).atR = s.atR ∧ (mirrorWrite s).holds = s.holds ∧
      (mirrorWrite s).pending = s.pending := by
  unfold mirrorWrite
  split <;> exact ⟨rfl, rfl, rfl, rfl⟩

/-- Settles O6: the commands that change the node alone leave all three; of the others, register writes and HOLD leave them by
`pathWrite_rest` and its like, and each refresh leaves the two that are not its own. -/
theorem shadowsChangeAtTheirRefresh : Obligations.ShadowsChangeAtTheirRefresh := by
  intro c s u h hr
  suffices key : mayReset c = false → Yields c s (OwnRefresh c s) by
    obtain ⟨w, hw, hown⟩ := key hr
    cases hw.symm.trans h
    exact hown
  cases hc : beyondNode c with
  | false =>
    obtain ⟨w, hw, hb, hr', -, hm, -⟩ := exec_nodeOnly c s hc
    exact fun _ => ⟨w, hw, ownRefresh_of_rest ⟨hb, hr', hm⟩⟩
  | true =>
    refine beyondNode_cases (P := fun c => mayReset c = false → Yields c s (OwnRefresh c s)) hc ?hostWrite ?mgmtWrite ?holdWrite
      ?holdExpire ?boundary ?ready ?mirror ?reset ?assert ?release ?perst ?powerUp ?feed ?shutdown
    case hostWrite =>
      exact fun _ _ _ hoff => ⟨_, rfl, ownRefresh_of_rest (pathWrite_rest { s with node := _ } _ _ _ (by simpa [mayReset] using hoff))⟩
    case mgmtWrite =>
      exact fun _ _ _ _ hoff => ⟨_, rfl, ownRefresh_of_rest (mgmtWrite_rest { s with node := _ } _ _ _ (by simpa [mayReset] using hoff))⟩
    case holdWrite =>
      intro t p v _
      obtain ⟨hb, hr', hm, -⟩ := writePageCtrl_rest { s with node := settle (begin_ s.node t) } p v
      exact ⟨_, rfl, ownRefresh_of_rest ⟨hb, hr', hm⟩⟩
    case holdExpire =>
      intro t p _
      obtain ⟨hb, hr', hm, -⟩ := holdExpire_rest { s with node := settle (begin_ s.node t) } p
      exact ⟨_, rfl, ownRefresh_of_rest ⟨hb, hr', hm⟩⟩
    case boundary => exact fun t inp _ => ⟨_, rfl, .inr ⟨t, inp, rfl⟩, .inl rfl, .inl rfl⟩
    case ready =>
      refine fun t _ => ⟨_, rfl, .inl ?_, .inr ⟨t, rfl⟩, .inl ?_⟩
      · rw [onState_atB]; split <;> rfl
      · rw [onState_bar2]; split <;> rfl
    case mirror =>
      intro t _
      obtain ⟨hb, hr', -, -⟩ := mirrorWrite_rest { s with node := begin_ s.node t }
      exact ⟨_, rfl, .inl hb, .inl hr', .inr ⟨t, rfl⟩⟩
    case reset => exact fun _ h => nomatch h
    case assert => exact fun _ h => nomatch h
    case release => exact fun _ h => nomatch h
    case perst => exact fun _ h => nomatch h
    case powerUp => exact fun _ _ _ h => nomatch h
    case feed => exact fun _ _ h => nomatch h
    case shutdown => exact fun _ h => nomatch h

end Sys2Proof.Machine
end

section
/-! PROOF. The statements on the queue and on reset, on the page headers, the vectors, the register pairs and HOLD
(02 R38 to R50). -/

namespace Sys2Proof

open Machine

theorem SameButSignals.trans {a b c : Node} (h : SameButSignals a b) (k : SameButSignals b c) : SameButSignals a c := by
  unfold SameButSignals at *
  rw [k] at h
  exact h

end Sys2Proof

namespace Sys2Proof.Machine

/-! The queue and reset -/

/-- Settles O1: both clauses are the two cases of `step`. -/
theorem stepRunsFront : Obligations.StepRunsFront :=
  ⟨fun _ _ _ => rfl, fun s h => by unfold step; rw [h]⟩

/-- Settles O2: a command on the node alone keeps the queue, and each of the others by its own lemma. -/
theorem everyCommandCompletes : Obligations.EveryCommandCompletes := by
  intro c s
  have either (p : Bool) {u v : State} (hu : u.pending = s.pending) (hv : v.pending = s.pending) :
      (if p then u else v).pending = s.pending := by split <;> assumption
  cases hc : beyondNode c with
  | false =>
    obtain ⟨u, hu, -, -, -, -, hp⟩ := exec_nodeOnly c s hc
    exact ⟨u, hu, hp⟩
  | true =>
    refine beyondNode_cases (P := fun c => Yields c s fun u => u.pending = s.pending) hc ?hostWrite ?mgmtWrite ?holdWrite ?holdExpire
      ?boundary ?ready ?mirror ?reset ?assert ?release ?perst ?powerUp ?feed ?shutdown
    case hostWrite => exact fun _ _ _ => ⟨_, rfl, pathWrite_pending { s with node := _ } _ _ _⟩
    case mgmtWrite => exact fun _ _ _ _ => ⟨_, rfl, mgmtWrite_pending { s with node := _ } _ _ _⟩
    case holdWrite => exact fun t p v => ⟨_, rfl, (writePageCtrl_rest { s with node := settle (begin_ s.node t) } p v).2.2.2⟩
    case holdExpire => exact fun t p => ⟨_, rfl, (holdExpire_rest { s with node := settle (begin_ s.node t) } p).2.2.2⟩
    case boundary => exact fun _ _ => ⟨_, rfl, rfl⟩
    case ready => exact fun _ => ⟨_, rfl, either _ rfl rfl⟩
    case mirror => exact fun t => ⟨_, rfl, (mirrorWrite_rest { s with node := begin_ s.node t }).2.2.2⟩
    case reset => exact fun _ => ⟨_, rfl, nodeCtrl_pending { s with node := _ } _ _⟩
    case assert => exact fun _ => ⟨_, rfl, rfl⟩
    case release => exact fun _ => ⟨_, rfl, either _ rfl rfl⟩
    case perst => exact fun _ => ⟨_, rfl, either _ rfl rfl⟩
    case powerUp => exact fun _ _ _ => ⟨_, rfl, either _ rfl rfl⟩
    case feed => exact fun _ _ => ⟨_, rfl, either _ rfl rfl⟩
    case shutdown => exact fun _ => ⟨_, rfl, either _ rfl rfl⟩

/-- Settles O3: every table is empty after reset, so each read is of its default. -/
theorem resetValues : Obligations.ResetValues :=
  ⟨rfl, rfl, rfl, fun _ => rfl, fun _ => ⟨rfl, rfl, rfl, rfl⟩, fun _ _ => rfl, fun _ => rfl, rfl, fun _ => rfl⟩

/-- Settles O4: no page is under HOLD and the ring is empty. -/
theorem resetInv : Obligations.ResetInv := inv_resetState {} {}

/-! What an event leaves, signals apart -/

theorem sameButSignals_rfl (n : Node) : SameButSignals n n := rfl

theorem sameButSignals_settleWith (again : List Nat) (n : Node) : SameButSignals (settleWith again n) n := rfl

theorem sameButSignals_settle (n : Node) : SameButSignals (settle n) n := rfl

theorem sameButSignals_emit (n : Node) (o : Out) : SameButSignals (emit n o) n := rfl

theorem sameButSignals_settleWith_of_eq {m v : Node} (h : m = v) (again : List Nat) : SameButSignals (settleWith again m) v := by
  subst h
  rfl

/-- A row on the node alone, at its instant, with the interrupts settled as the row asks. -/
theorem acts_settleWith {c : Instr} {s : State} {t : Nat} (again : List Nat) (m : Node) {P : Node → Node → Prop}
    (hc : exec c s = .next { s with node := settleWith again m }) (h : P (atInstant s t) (settleWith again m)) : Acts c s t P :=
  ⟨_, hc, nodeOnly_mk s _, h⟩

/-! Headers -/

@[simp] theorem headerOf_settleWith (again : List Nat) (n : Node) (p : Nat) : headerOf (settleWith again n) p = headerOf n p := rfl

@[simp] theorem headerOf_settle (n : Node) (p : Nat) : headerOf (settle n) p = headerOf n p := rfl

@[simp] theorem headerOf_modHeader_self (n : Node) (p : Nat) (f : Header → Header) :
    headerOf (modHeader n p f) p = f (headerOf n p) := by simp [headerOf]

theorem headerOf_modHeader_ne (n : Node) {p q : Nat} (f : Header → Header) (h : q ≠ p) :
    headerOf (modHeader n p f) q = headerOf n q := tget_tmod_ne _ _ _ h

theorem raised_raise (n : Node) (p b : Nat) : Raised n (raise n p b) p b := headerOf_modHeader_self _ _ _

theorem headerOf_raise_ne (n : Node) {p q : Nat} (b : Nat) (h : q ≠ p) : headerOf (raise n p b) q = headerOf n q :=
  headerOf_modHeader_ne n _ h

/-- A change of one page's header, where a condition holds: what O10 says of each header write. -/
theorem headerWrite_frame (c : Prop) [Decidable c] (n : Node) (p : Nat) (f : Header → Header) :
    (if c then modHeader n p f else n) = { n with headers := (if c then modHeader n p f else n).headers } ∧
    (∀ q, q ≠ p → headerOf (if c then modHeader n p f else n) q = headerOf n q) ∧
    headerOf (if c then modHeader n p f else n) p = if c then f (headerOf n p) else headerOf n p := by
  split
  · exact ⟨rfl, fun q hq => headerOf_modHeader_ne n f hq, headerOf_modHeader_self n p f⟩
  · exact ⟨rfl, fun _ _ => rfl, rfl⟩

theorem acts_lockWrite (t p : Nat) (v : Word) (s : State) :
    Acts (.lockWrite t p v) s t (fun n u => SameButSignals u { n with headers := u.headers } ∧
      (∀ q, q ≠ p → headerOf u q = headerOf n q) ∧
      (hasLock p = true → fld v 31 16 = 0x4C4B → headerOf u p = { headerOf n p with locked := v.getLsbD 0 }) ∧
      (hasLock p = false ∨ fld v 31 16 ≠ 0x4C4B → headerOf u p = headerOf n p)) := by
  obtain ⟨hrest, hothers, hself⟩ := headerWrite_frame (hasLock p && fld v 31 16 == 0x4C4B) (atInstant s t) p
    (fun h => { h with locked := bit v 0 })
  refine acts_onNode rfl ⟨sameButSignals_settleWith_of_eq hrest [], hothers, fun hl hk => ?_, fun hno => ?_⟩
  · exact hself.trans (by simp [hl, hk, bit])
  · exact hself.trans (if_neg (by rcases hno with h | h <;> simp [h]))

theorem acts_irqStatClear (t p : Nat) (v : Word) (s : State) :
    Acts (.irqStatClear t p v) s t (fun n u => SameButSignals u { n with headers := u.headers } ∧
      (∀ q, q ≠ p → headerOf u q = headerOf n q) ∧
      headerOf u p = { headerOf n p with irqStat := (headerOf u p).irqStat } ∧
      (∀ i, (headerOf u p).irqStat.getLsbD i =
        ((headerOf n p).irqStat.getLsbD i && !(hasIrq p && v.getLsbD i)))) := by
  obtain ⟨hrest, hothers, hself⟩ := headerWrite_frame (hasIrq p) (atInstant s t) p
    (fun h => { h with irqStat := h.irqStat &&& ~~~v })
  refine acts_settleWith (vectorsOfPage p) (writeIrqStat (atInstant s t) p v) rfl
    ⟨sameButSignals_settleWith_of_eq hrest _, hothers, ?_, fun i => ?_⟩
  all_goals
    rw [headerOf_settleWith, writeIrqStat, hself]
    cases hi : hasIrq p
  · simp
  · simp
  · simp
  · simp only [if_true, BitVec.getLsbD_and, BitVec.getLsbD_not, Bool.true_and]
    by_cases hlt : i < 32
    · simp [hlt]
    · simp [BitVec.getLsbD_of_ge (headerOf (atInstant s t) p).irqStat i (by omega)]

theorem acts_irqEnWrite (t p : Nat) (v : Word) (s : State) :
    Acts (.irqEnWrite t p v) s t (fun n u => SameButSignals u { n with headers := u.headers } ∧
      (∀ q, q ≠ p → headerOf u q = headerOf n q) ∧
      headerOf u p = { headerOf n p with irqEn := if hasIrq p then v else (headerOf n p).irqEn }) := by
  obtain ⟨hrest, hothers, hself⟩ := headerWrite_frame (hasIrq p) (atInstant s t) p (fun h => { h with irqEn := v })
  refine acts_settleWith (vectorsOfPage p) (writeIrqEn (atInstant s t) p v) rfl ⟨sameButSignals_settleWith_of_eq hrest _, hothers, ?_⟩
  exact hself.trans (by split <;> rfl)

/-- What a bad access leaves of the node: the management page's capture, count and interrupt, and the answer of a read. -/
theorem badAccessNode_eq (n : Node) (bar2 wr : Bool) (addr : Nat) :
    ∃ outs, (wr = false → .read 0xFFFFFFFF ∈ outs) ∧
    badAccessNode n bar2 wr addr = raise { n with outs := outs, mgt := { n.mgt with
      badAcc := if bit n.mgt.badAcc 31 then n.mgt.badAcc else pack [(1, 31, 1), (b2n bar2, 30, 1), (b2n wr, 29, 1), (addr, 0, 26)],
      badCnt := min 65535 (n.mgt.badCnt + 1) } } 0x0C 3 := by
  cases wr with
  | true => exact ⟨n.outs, nofun, rfl⟩
  | false => exact ⟨n.outs ++ [.read 0xFFFFFFFF], fun _ => List.mem_append_right _ (List.mem_singleton_self _), rfl⟩

/-- Settles O10: each write changes one page's header, a bad access the management page's. -/
theorem headerWritesAndBadAccesses : Obligations.HeaderWritesAndBadAccesses := by
  refine ⟨fun t p v s => ⟨acts_lockWrite t p v s, acts_irqStatClear t p v s, acts_irqEnWrite t p v s⟩, fun t bar2 wr addr s => ?_⟩
  obtain ⟨outs, hread, heq⟩ := badAccessNode_eq (atInstant s t) bar2 wr addr
  refine acts_onNode rfl ?_
  rw [heq]
  refine ⟨rfl, rfl, fun hset => if_pos hset, fun hclear => if_neg (by simp [hclear]), fun p hp => ?_, ?_, fun hwr => ?_⟩
  · exact headerOf_raise_ne _ 3 hp
  · exact raised_raise _ 0x0C 3
  · exact List.mem_append_left _ (hread hwr)

/-! Vectors (02 R40) -/

/-- An event at whose end every vector has seen its condition sends nothing and changes no vector. -/
theorem settle_of_seen {n : Node} (h : ∀ k, k < 64 → (vectorOf n k).cond = condition n k) :
    (∀ k, vectorOf (settle n) k = vectorOf n k) ∧ (settle n).outs = n.outs := by
  have quiet (k : Nat) (hk : k < 64) : vectorStep n false k = (false, vectorOf n k) := by
    simp only [vectorStep, ← h k hk]
    cases hv : vectorOf n k with
    | mk addr data masked pending cond => cases cond <;> simp
  constructor
  · intro k
    by_cases hk : k < 64
    · rw [settle, vectorOf_settleWith _ _ hk]
      exact congrArg Prod.snd (quiet k hk)
    · unfold vectorOf settle settleWith
      rw [tget_tmodAll _ _ _ List.nodup_range, if_neg (by simpa using hk)]
  · have silent : ∀ k, k < 64 → (vectorStep n false k).1 = false := fun k hk => by rw [quiet k hk]
    simpa [settle, settleWith] using silent

/-- The node with one vector written, and what left it. -/
def withVector (n : Node) (v : Nat) (x : Vector_) (outs : List Out) : Node :=
  { n with vectors := tset {} n.vectors v x, outs := outs }

theorem settle_withVector {n : Node} (hseen : ∀ k, k < 64 → (vectorOf n k).cond = condition n k) (v : Nat) (x : Vector_)
    (hx : x.cond = condition n v) (outs : List Out) :
    vectorOf (settle (withVector n v x outs)) v = x ∧ (∀ k, k ≠ v → vectorOf (settle (withVector n v x outs)) k = vectorOf n k) ∧
    (settle (withVector n v x outs)).outs = outs := by
  have hv (k : Nat) : vectorOf (withVector n v x outs) k = if k = v then x else vectorOf n k := tget_tset _ _ _ _ _
  obtain ⟨hsame, houts⟩ := settle_of_seen (n := withVector n v x outs) (fun k hk => by
    rw [hv]
    split
    · next h => subst h; exact hx
    · exact hseen k hk)
  exact ⟨by rw [hsame, hv, if_pos rfl], fun k hk => by rw [hsame, hv, if_neg hk], houts⟩

theorem tset_tset {α : Type} [DecidableEq α] (d : α) (t : Tbl α) (k : Nat) (v w : α) :
    tset d (tset d t k v) k w = tset d t k w := by
  have erase_erase (t : Tbl α) : erase (erase t k) k = erase t k := by
    induction t with
    | nil => rfl
    | cons e r ih => obtain ⟨j, x⟩ := e; by_cases h : j = k <;> simp [erase, h, ih]
  have erase_insertKey (t : Tbl α) (x : α) : erase (insertKey (erase t k) k x) k = erase t k := by
    induction t with
    | nil => simp [erase, insertKey]
    | cons e r ih =>
      obtain ⟨j, y⟩ := e
      by_cases h : j = k
      · simpa [erase, h] using ih
      · by_cases hlt : k < j
        · simp [erase, insertKey, h, hlt, erase_erase]
        · simp [erase, insertKey, h, hlt, ih]
  unfold tset
  split_ifs <;> simp only [erase_erase, erase_insertKey]

/-- The vector of an entry of the MSI-X table as the host writes it. -/
def writtenVector (n : Node) (v : Nat) (mask : Bool) (addr : Nat) (data : Word) : Vector_ :=
  { vectorOf n v with
    addr := addr % 2 ^ 64, data := data, masked := mask, cond := condition n v, pending := (vectorOf n v).pending && mask }

/-- Writing the entry and the mask of a vector that has seen its condition. -/
theorem maskVector_setEntry {n : Node} {v : Nat} (hv : v < 64) (hseen : (vectorOf n v).cond = condition n v) (mask : Bool) (addr : Nat)
    (data : Word) :
    maskVector (setEntry n v addr data) v mask = withVector n v (writtenVector n v mask addr data)
      (n.outs ++ if !mask && (vectorOf n v).masked && (vectorOf n v).pending && condition n v then [.msix v] else []) := by
  have h64 : ¬ 64 ≤ v := by omega
  have hentry : setEntry n v addr data = { n with vectors := tset {} n.vectors v { vectorOf n v with addr := addr % 2 ^ 64, data := data } } := by
    simp only [setEntry, h64, if_false]; rfl
  have hcond : condition (setEntry n v addr data) v = condition n v := by rw [hentry]; rfl
  have hvec : vectorOf (setEntry n v addr data) v = { vectorOf n v with addr := addr % 2 ^ 64, data := data } := by
    rw [hentry]; exact tget_tset_self _ _ _ _
  unfold maskVector
  simp only [h64, if_false, hcond, hvec]
  cases mask with
  | true =>
    simp only [if_true, Bool.not_true, Bool.false_and, Bool.false_eq_true, if_false, List.append_nil, hentry, tset_tset]
    simp [withVector, writtenVector, hseen]
  | false =>
    simp only [Bool.false_eq_true, if_false, Bool.not_false, Bool.true_and, hentry, tset_tset]
    split <;> simp [withVector, writtenVector, emit]

/-- Settles O11: the vector alone is written, and since every vector has seen its condition the end of the event sends nothing
more. -/
theorem unmaskSendsWhatStillStands : Obligations.UnmaskSendsWhatStillStands := by
  intro t v addr data s hv hseen
  have written (m : Bool) {P : Node → Node → Prop}
      (h : P (atInstant s t) (settle (maskVector (setEntry (atInstant s t) v addr data) v m))) :
      Acts (.msixUnmask t v { mask := m, addr := addr, data := data }) s t P := acts_onNode rfl h
  have settled (m : Bool) (outs : List Out) := settle_withVector (n := atInstant s t) hseen v
    (writtenVector (atInstant s t) v m addr data) rfl outs
  have eq (m : Bool) := maskVector_setEntry (n := atInstant s t) hv (hseen v hv) m addr data
  refine ⟨fun m => written m ?_, written true ?_, written false ?_⟩
  · rw [eq]
    obtain ⟨hself, hothers, -⟩ := settled m _
    exact ⟨rfl, hothers, by rw [hself]; rfl, by rw [hself]; rfl, by rw [hself]; rfl⟩
  · rw [eq]
    obtain ⟨hself, -, houts⟩ := settled true _
    exact ⟨by rw [hself]; simp [writtenVector], houts⟩
  · rw [eq]
    obtain ⟨hself, -, houts⟩ := settled false _
    exact ⟨by rw [hself]; simp [writtenVector], houts⟩

end Sys2Proof.Machine
end

section
/-! PROOF. The 64-bit register pairs (02 R49) and HOLD (02 R50). -/

namespace Sys2Proof.Machine

/-! Register pairs (02 R49) -/

@[simp] theorem at_div (p o : Nat) (h : o < 4096) : at_ p o / 4096 = p := by unfold at_; omega

@[simp] theorem at_mod (p o : Nat) (h : o < 4096) : at_ p o % 4096 = o := by unfold at_; omega

theorem highWord_add_four {p o : Nat} (h : lowWord p o = true) : highWord p (o + 4) = true := by simp [highWord, h]

theorem acts_pairLowRead (t p o : Nat) (s : State) (ho : o + 4 < 4096) (halign : o % 4 = 0) (hlow : lowWord p o = true) :
    Acts (.pairLowRead t (at_ p o)) s t (fun n u => SameButSignals u { n with readHold := u.readHold } ∧
      .read (readWord { s with node := n } hostPath (at_ p o)) ∈ u.outs) ∧
    Yields (.pairLowRead t (at_ p o)) s (fun u => readWord u hostPath (at_ p (o + 4)) =
      liveRead { s with node := atInstant s t } hostPath (at_ p (o + 4))) := by
  have hdiv : at_ p o / 4096 = p := at_div p o (by omega)
  have hmod : at_ p o % 4096 = o := at_mod p o (by omega)
  have haligned : at_ p o % 4 = 0 := by unfold at_; omega
  have hnext : at_ p o + 4 = at_ p (o + 4) := Nat.add_assoc _ _ _
  have hcaptured : afterRead { s with node := atInstant s t } hostPath (at_ p o) = { atInstant s t with
      readHold := tset none s.node.readHold p (some (liveRead { s with node := atInstant s t } hostPath (at_ p (o + 4)))) } := by
    simp only [afterRead, hdiv, hmod, hlow, if_true, hnext]
    rfl
  have hread : pairRead { s with node := atInstant s t } (at_ p o) =
      emit (afterRead { s with node := atInstant s t } hostPath (at_ p o)) (.read (readWord { s with node := atInstant s t } hostPath (at_ p o))) := by
    simp only [pairRead, hdiv, hmod, hlow, haligned, Bool.true_or, and_self, if_true]
  have hexec : exec (.pairLowRead t (at_ p o)) s = .next { s with node := settle (pairRead { s with node := atInstant s t } (at_ p o)) } := rfl
  rw [hread, hcaptured] at hexec
  refine ⟨⟨_, hexec, nodeOnly_mk _ _, rfl, ?_⟩, _, hexec, ?_⟩
  · exact List.mem_append_left _ (List.mem_append_right _ (List.mem_singleton_self _))
  · unfold readWord
    simp only [at_div p (o + 4) ho, at_mod p (o + 4) ho, highWord_add_four hlow, if_true]
    have hheld : tget none (tset none s.node.readHold p
        (some (liveRead { s with node := atInstant s t } hostPath (at_ p (o + 4))))) p = some _ := tget_tset_self _ _ _ _
    exact congrArg (Option.getD · _) hheld

theorem seqOf_setCmdRes_self (n : Node) (path p code : Nat) :
    seqOf (setCmdRes n path p code) path p = { seqOf n path p with cmdRes := code } := by
  simp [seqOf, setCmdRes]

/-- A write to a half of a pair on a locked page sets CMD_RES alone (02 R42). -/
theorem writePair_locked {n : Node} {path p : Nat} (h : (headerOf n p).locked = true) (o : Nat) (v : Word) :
    writePair n path p o v = setCmdRes n path p 8 := by simp [writePair, h, lockedWrite]

/-- What the registers hold after the high half of a pair is written. -/
theorem reg_writePairHigh (n : Node) (p : Nat) {o : Nat} (ho : 4 ≤ o) (v : Word) (k : Nat) :
    reg (writePairHigh n p o v) k =
      if k = at_ p o then maskAt p o v
      else if k = at_ p (o - 4) then (tget none n.writeHold (at_ p (o - 4))).getD (reg n (at_ p (o - 4))) else reg n k := by
  have hne : at_ p (o - 4) ≠ at_ p o := by unfold at_; omega
  change reg (setReg (setReg n (at_ p (o - 4)) _) (at_ p o) (maskAt p o v)) k = _
  split
  · next h => rw [h, reg_setReg_self]
  · next h =>
    rw [reg_setReg_ne _ _ h]
    split
    · next h' => rw [h', reg_setReg_self]
    · next h' => rw [reg_setReg_ne _ _ h']

/-- Settles O12: the holding registers are tables, so each clause is a read after the write it speaks of. -/
theorem pairsReadAndWriteWhole : Obligations.PairsReadAndWriteWhole := by
  intro t p o v s ho
  have hdiv : at_ p o / 4096 = p := at_div p o (by omega)
  have hmod : at_ p o % 4096 = o := at_mod p o (by omega)
  refine ⟨acts_pairLowRead t p o s ho, fun hlow => ?_, fun hhigh => ?_⟩
  · have hexec : exec (.pairLowWrite t (at_ p o) v) s = .next (onNode s t fun n => writePair n hostPath p o v) := by
      change Host.Outcome.next (onNode s t _) = _
      simp only [hdiv, hmod, hlow, if_true]
    refine ⟨fun hopen => acts_onNode hexec ?_, fun hlocked => acts_onNode hexec ?_⟩
    · have hopen' : (headerOf (atInstant s t) p).locked = false := hopen
      simp only [writePair, hopen', hlow, Bool.false_eq_true, if_false, if_true]
      exact ⟨rfl, tget_tset_self none s.node.writeHold (at_ p o) (some (maskAt p o v))⟩
    · rw [writePair_locked (n := atInstant s t) hlocked]
      exact ⟨rfl, seqOf_setCmdRes_self _ _ _ _⟩
  · have hexec : exec (.pairHighWrite t (at_ p o) v) s = .next (onNode s t fun n => writePair n hostPath p o v) := by
      change Host.Outcome.next (onNode s t _) = _
      simp only [hdiv, hmod, hhigh, if_true]
    have ho4 : 4 ≤ o := by
      simp only [pairHigh, Bool.and_eq_true, decide_eq_true_eq] at hhigh
      exact hhigh.1
    have hnlow : pairLow p o = false := by
      simp only [pairHigh, pairLow, Bool.and_eq_true, Bool.or_eq_true, beq_iff_eq, decide_eq_true_eq] at hhigh
      simp only [pairLow, Bool.or_eq_false_iff, Bool.and_eq_false_iff, beq_eq_false_iff_ne]
      omega
    refine ⟨fun hopen => acts_onNode hexec ?_, fun hlocked => acts_onNode hexec ?_⟩
    · have hopen' : (headerOf (atInstant s t) p).locked = false := hopen
      simp only [writePair, hopen', hnlow, hhigh, Bool.false_eq_true, if_false, if_true]
      have hregs := reg_writePairHigh (atInstant s t) p ho4 v
      have hne : at_ p (o - 4) ≠ at_ p o := by unfold at_; omega
      refine ⟨rfl, (hregs _).trans (if_pos rfl), (hregs _).trans ?_, fun k hk hk' => (hregs k).trans ?_,
        tget_tset_self none s.node.writeHold (at_ p (o - 4)) none⟩
      · rw [if_neg hne, if_pos rfl]
      · rw [if_neg hk, if_neg hk']
    · rw [writePair_locked (n := atInstant s t) hlocked]
      exact ⟨rfl, seqOf_setCmdRes_self _ _ _ _⟩

/-! HOLD (02 R50) -/

theorem hasShadow_block {p : Nat} (h : hasShadow p = true) : blockOf p ≠ 0 ∧ blockOf p ≠ 0x0C := by
  constructor <;> intro hb <;> simp [hasShadow, pageCap, hb] at h

/-- The pages with a block lie below 0x6C (02 Table 02.2). -/
theorem blockOf_of_ge {p : Nat} (h : 0x6C ≤ p) : blockOf p = 0 := by
  unfold blockOf
  iterate 12 rw [if_neg (by omega)]

theorem blockOf_eq_twelve {p : Nat} : blockOf p = 0x0C ↔ p = 0x0B := by
  by_cases h : p < 0x6C
  · revert p
    decide
  · rw [blockOf_of_ge (Nat.not_lt.mp h)]
    omega

/-- PAGE_CTRL as a write leaves it: bit 0 is HOLD. -/
theorem bit_zero_pack (a b : Bool) : bit (pack [(b2n a, 0, 1), (b2n b, 16, 1)]) 0 = a := by
  cases a <;> cases b <;> decide

/-- The release of a page's HOLD, by page. -/
theorem tget_releaseHold (s : State) (p q : Nat) :
    tget none (releaseHold s p).holds q = if q = p then (tget none s.holds p).bind released else tget none s.holds q := by
  unfold releaseHold
  split
  · next h hp =>
    rw [hp]
    exact tget_tset none s.holds p q _
  · next hp =>
    split
    · next h => rw [h, hp]; rfl
    · rfl

/-- The page's header with PAGE_CTRL written. -/
def ctrlHeader (p : Nat) (v : Word) (h : Header) : Header :=
  { h with ctrl := pack [(b2n (hasShadow p && bit v 0), 0, 1), (b2n (hasView p && bit v 16), 16, 1)],
           holdExp := if hasShadow p && bit v 0 then false else h.holdExp }

/-- A page put under HOLD at an instant; one already under HOLD stands. -/
def heldFrom (now : Nat) : Option HoldSt → HoldSt
  | some h => if h.held then h else { h with held := true, since := now }
  | none => { since := now }

/-- A write of PAGE_CTRL on the pages that have it: the header, and the page's copies frozen or released. -/
theorem writePageCtrl_eq (s : State) {p : Nat} (v : Word) (h0 : blockOf p ≠ 0) (h12 : blockOf p ≠ 0x0C) :
    writePageCtrl s p v =
      if hasShadow p && bit v 0 then
        { s with node := modHeader s.node p (ctrlHeader p v),
                 holds := tset none s.holds p (some (heldFrom s.node.now (tget none s.holds p))) }
      else releaseHold { s with node := modHeader s.node p (ctrlHeader p v) } p := by
  unfold writePageCtrl
  dsimp only
  rw [if_neg (not_or.mpr ⟨h0, h12⟩)]
  refine if_congr Iff.rfl ?_ rfl
  cases tget none s.holds p <;> rfl

theorem writePageCtrl_of_no_ctrl (s : State) {p : Nat} (v : Word) (h : blockOf p = 0 ∨ blockOf p = 0x0C) :
    writePageCtrl s p v = s := by
  simp only [writePageCtrl, h, if_true]

theorem writePageCtrl_node (s : State) {p : Nat} (v : Word) (h0 : blockOf p ≠ 0) (h12 : blockOf p ≠ 0x0C) :
    (writePageCtrl s p v).node = modHeader s.node p (ctrlHeader p v) := by
  rw [writePageCtrl_eq s v h0 h12]
  split
  · rfl
  · exact (releaseHold_rest _ p).2.2.2.2

theorem tget_writePageCtrl (s : State) {p : Nat} (v : Word) (h0 : blockOf p ≠ 0) (h12 : blockOf p ≠ 0x0C) (q : Nat) :
    tget none (writePageCtrl s p v).holds q = if q = p then
      (if hasShadow p && bit v 0 then some (heldFrom s.node.now (tget none s.holds p)) else (tget none s.holds p).bind released)
      else tget none s.holds q := by
  rw [writePageCtrl_eq s v h0 h12]
  split
  · exact tget_tset none s.holds p q (some (heldFrom s.node.now (tget none s.holds p)))
  · exact tget_releaseHold _ p q

theorem yields_holdWrite (t p : Nat) (v : Word) (s : State) :
    Yields (.holdWrite t p v) s (fun u =>
      u.atB = s.atB ∧ u.atR = s.atR ∧ u.bar2 = s.bar2 ∧ u.pending = s.pending ∧
      SameButSignals u.node { atInstant s t with headers := u.node.headers } ∧
      (∀ q, q ≠ p → tget none u.holds q = tget none s.holds q ∧ headerOf u.node q = headerOf s.node q) ∧
      (blockOf p = 0 ∨ p = 0x0B →
        tget none u.holds p = tget none s.holds p ∧ headerOf u.node p = headerOf s.node p) ∧
      (hasShadow p = true → v.getLsbD 0 = true → bit (headerOf u.node p).ctrl 0 = true ∧
        (tget none s.holds p = none → tget none u.holds p = some { since := max s.node.now t }) ∧
        ∀ h, tget none s.holds p = some h →
          tget none u.holds p = some (if h.held then h else { h with held := true, since := max s.node.now t })) ∧
      (blockOf p ≠ 0 → p ≠ 0x0B → hasShadow p = false ∨ v.getLsbD 0 = false →
        bit (headerOf u.node p).ctrl 0 = false ∧ tget none u.holds p = (tget none s.holds p).bind released)) := by
  obtain ⟨hb, hr, hm, hq⟩ := writePageCtrl_rest { s with node := settle (begin_ s.node t) } p v
  refine ⟨_, rfl, hb, hr, hm, hq, ?_⟩
  by_cases hno : blockOf p = 0 ∨ blockOf p = 0x0C
  · rw [writePageCtrl_of_no_ctrl _ v hno]
    refine ⟨rfl, fun _ _ => ⟨rfl, rfl⟩, fun _ => ⟨rfl, rfl⟩, fun hshadow => ?_, fun h0 h11 => ?_⟩
    · exact (hno.elim (hasShadow_block hshadow).1 (hasShadow_block hshadow).2).elim
    · exact (hno.elim h0 (mt blockOf_eq_twelve.mp h11)).elim
  · obtain ⟨h0, h12⟩ := not_or.mp hno
    have hholds := tget_writePageCtrl { s with node := settle (begin_ s.node t) } v h0 h12
    have hpage := (hholds p).trans (if_pos rfl)
    rw [writePageCtrl_node _ v h0 h12]
    have hctrl : bit (headerOf (modHeader (settle (begin_ s.node t)) p (ctrlHeader p v)) p).ctrl 0 = (hasShadow p && bit v 0) := by
      rw [headerOf_modHeader_self]
      exact bit_zero_pack _ _
    refine ⟨rfl, fun q hq => ⟨(hholds q).trans (if_neg hq), headerOf_modHeader_ne _ _ hq⟩, fun h => ?_, fun hshadow hv => ?_,
      fun _ _ hoff => ?_⟩
    · exact (hno (h.imp id blockOf_eq_twelve.mpr)).elim
    · have hhold : (hasShadow p && bit v 0) = true := Bool.and_eq_true_iff.mpr ⟨hshadow, hv⟩
      rw [if_pos hhold] at hpage
      exact ⟨hctrl.trans hhold, fun hn => hpage.trans (congrArg (fun x => some (heldFrom _ x)) hn),
        fun h hh => hpage.trans (congrArg (fun x => some (heldFrom _ x)) hh)⟩
    · have hhold : (hasShadow p && bit v 0) = false := Bool.and_eq_false_iff.mpr hoff
      rw [hhold] at hpage
      exact ⟨hctrl.trans hhold, hpage⟩

theorem holdExpire_of_due {s : State} {p : Nat} {h : HoldSt} (hp : tget none s.holds p = some h) (hheld : h.held = true)
    (hlong : h.since + 256 * s.node.period ≤ s.node.now) :
    holdExpire s p = releaseHold
      { s with node := modHeader s.node p (fun h => { h with ctrl := h.ctrl &&& ~~~(1 : Word), holdExp := true }) } p := by
  simp only [holdExpire, hp, hheld, hlong, and_self, if_true]

theorem holdExpire_of_not_due {s : State} {p : Nat}
    (hno : ∀ h, tget none s.holds p = some h → h.held = false ∨ s.node.now < h.since + 256 * s.node.period) : holdExpire s p = s := by
  unfold holdExpire
  split
  · next h hp => exact if_neg fun hdue => (hno h hp).elim (fun k => by simp [k] at hdue) fun k => by omega
  · rfl

theorem yields_holdExpire (t p : Nat) (s : State) :
    Yields (.holdExpire t p) s (fun u =>
      u.atB = s.atB ∧ u.atR = s.atR ∧ u.bar2 = s.bar2 ∧ u.pending = s.pending ∧
      SameButSignals u.node { atInstant s t with headers := u.node.headers } ∧
      (∀ q, q ≠ p → tget none u.holds q = tget none s.holds q ∧ headerOf u.node q = headerOf s.node q) ∧
      (∀ h, tget none s.holds p = some h →
        (h.held = true → h.since + 256 * s.node.period ≤ max s.node.now t →
          tget none u.holds p = released h ∧ (headerOf u.node p).holdExp = true ∧ bit (headerOf u.node p).ctrl 0 = false) ∧
        (h.held = false ∨ max s.node.now t < h.since + 256 * s.node.period →
          u.holds = s.holds ∧ headerOf u.node p = headerOf s.node p))) := by
  obtain ⟨hb, hr, hm, hq⟩ := holdExpire_rest { s with node := settle (begin_ s.node t) } p
  refine ⟨_, rfl, hb, hr, hm, hq, ?_⟩
  by_cases hdue : ∃ h, tget none s.holds p = some h ∧ h.held = true ∧ h.since + 256 * s.node.period ≤ max s.node.now t
  · obtain ⟨h, hp, hheld, hlong⟩ := hdue
    rw [holdExpire_of_due (s := { s with node := settle (begin_ s.node t) }) hp hheld hlong, (releaseHold_rest _ p).2.2.2.2]
    have hholds := tget_releaseHold { s with
      node := modHeader (settle (begin_ s.node t)) p (fun h => { h with ctrl := h.ctrl &&& ~~~(1 : Word), holdExp := true }) } p
    refine ⟨rfl, fun q hq => ⟨(hholds q).trans (if_neg hq), headerOf_modHeader_ne _ _ hq⟩, fun h' hh => ?_⟩
    cases hp.symm.trans hh
    refine ⟨fun _ _ => ⟨?_, ?_, ?_⟩, fun hnot => ?_⟩
    · exact (hholds p).trans ((if_pos rfl).trans (congrArg (Option.bind · released) hp))
    · rw [headerOf_modHeader_self]
    · rw [headerOf_modHeader_self]
      simp [bit]
    · exact absurd hlong (Nat.not_le.mpr (hnot.resolve_left (by simp [hheld])))
  · rw [holdExpire_of_not_due (s := { s with node := settle (begin_ s.node t) })]
    · refine ⟨rfl, fun _ _ => ⟨rfl, rfl⟩, fun h hh => ⟨fun hheld hlong => ?_, fun _ => ⟨rfl, rfl⟩⟩⟩
      exact (hdue ⟨h, hh, hheld, hlong⟩).elim
    · intro h hh
      cases hheld : h.held with
      | false => exact .inl rfl
      | true => exact .inr (Nat.not_le.mp fun hlong => hdue ⟨h, hh, hheld, hlong⟩)

/-- Settles O13: a write of PAGE_CTRL and the expiry, each by what it leaves of the page's header and copies. -/
theorem holdFreezesAndExpires : Obligations.HoldFreezesAndExpires :=
  fun t p v s => ⟨yields_holdWrite t p v s, yields_holdExpire t p s⟩

end Sys2Proof.Machine
end

section
/-! PROOF. What the end of an editing session does to the commands of other pages (02 R45, 16 R367, R378). -/

namespace Sys2Proof.Machine

/-- An ACCT_SET on the host's path whose outcome is decided, for account 0. -/
def acctSetEnding : Command := { path := 0, off := at_ 5 0x5C, value := 6, hseq := 1, result := some true, params := [0] }

/-- A write of an RWS register of rank page 0x10 from management path 1, accepted, that waits for its boundary. -/
def stagedWrite : Command := { path := 1, off := at_ 0x10 0x100, value := 1, hseq := 1, result := none }

/-- A node in CONFIG where that write waits, account 0 holds the editing session of path 1, and the host has written the next
number on the MGT page. -/
def whileStaging : Node :=
  { nodeSt := { state := .config, phase := 0 }, mgt := { state := .run }, seqs := [(0x0C, { hseq := 1 })],
    cmds := [(0x10, some stagedWrite)],
    acts := [{ due := 5000, page := 0x10, act := .stage (at_ 0x10 0x100) 1 0 1 }],
    config := { sessions := [(1, some { account := 0, level := 3, last := 0 })] } }

/-- The same with the ACCT_SET in progress. -/
def acctSetWhileStaging : Node := { whileStaging with cmds := [(5, some acctSetEnding), (0x10, some stagedWrite)] }

/-- The end of the ACCT_SET ends the session, the session's end drops the value that waits, and its write ends FAILED. -/
theorem cmdOf_commandEnd_acctSet :
    cmdOf (commandEnd (begin_ acctSetWhileStaging 0) 5) 0x10 = some { stagedWrite with result := some false } := by
  decide +kernel

@[simp] theorem cmdOf_settle (n : Node) (p : Nat) : cmdOf (settle n) p = cmdOf n p := rfl

/-- Refutes O14: it says that no other page's command changes, but an ACCT_SET ends the sessions of its account (16 R367), and
with an editing session the values that wait to be staged, whose writes end FAILED (16 R378). -/
theorem not_commandEndPosts : ¬ Obligations.CommandEndPosts := by
  intro h
  obtain ⟨-, ends⟩ := h 0 5 acctSetEnding { node := acctSetWhileStaging } rfl
  obtain ⟨u, hu, -, -, others, -⟩ := ends true rfl ⟨Nat.zero_le _, .inl rfl⟩
  cases hu
  have hwrite := others 0x10 (by decide)
  rw [onNode_node, cmdOf_settle, cmdOf_commandEnd_acctSet] at hwrite
  exact absurd hwrite (by decide)

theorem judge_mpreset_whileStaging :
    judge (atInstant { node := whileStaging } 0) hostPath 0x0C { state := inStates whileStaging 30 } = .accept := by
  decide +kernel

/-- An MPRESET drops what is staged, and with it the value that waits. -/
theorem cmdOf_mgtCmdWrite_mpreset :
    cmdOf (mgtCmdWrite (begin_ whileStaging 0) hostPath 0x4D500000) 0x10 = some { stagedWrite with result := some false } := by
  decide +kernel

/-- Refutes O15: it says that an MPRESET leaves the commands of every page but CFG and REC as the acceptance does, but the
processor's stop drops every value not confirmed (01 R19), and the writes that wait to stage one end FAILED. -/
theorem not_processorStopsAndSheds : ¬ Obligations.ProcessorStopsAndSheds := by
  rintro ⟨stops, -⟩
  obtain ⟨-, -, mpreset, -⟩ := stops 0 false { node := whileStaging }
  obtain ⟨u, hu, -, -, others, -⟩ := mpreset judge_mpreset_whileStaging
  cases hu
  have hwrite := others 0x10 (by decide) (by decide)
  rw [onNode_node, cmdOf_settle, cmdOf_mgtCmdWrite_mpreset] at hwrite
  have hmarks : cmdOf (accepted (atInstant { node := whileStaging } 0) hostPath 0x0C (at_ 0x0C 0x6C) 0x4D500000 (some true)) 0x10 =
      some stagedWrite := by decide +kernel
  exact absurd (hwrite.trans hmarks) (by decide)

end Sys2Proof.Machine
end

section
/-! PROOF. The operations that change the network part alone (14 R335 to R344), and RESULT_READY (02 R47, R50). -/

namespace Sys2Proof.Machine

/-- A relation that every step of a fold keeps relates the ends. -/
theorem foldl_rel {α : Type} {R : Node → Node → Prop} (refl : ∀ n, R n n) (trans : ∀ {a b c}, R a b → R b c → R a c)
    {f : Node → α → Node} (hf : ∀ n x, R n (f n x)) (l : List α) (n : Node) : R n (l.foldl f n) := by
  induction l generalizing n with
  | nil => exact refl n
  | cons x r ih => exact trans (hf n x) (ih _)

/-- A value that every step of a fold leaves stands at its end. -/
theorem foldl_same {α β : Type} {g : Node → β} {f : Node → α → Node} (hf : ∀ n x, g (f n x) = g n) (l : List α) (n : Node) :
    g (l.foldl f n) = g n :=
  foldl_rel (R := fun a b => g b = g a) (fun _ => rfl) (fun h k => k.trans h) hf l n

/-- What holds of both branches holds of a choice between them. -/
theorem pred_ite {α : Type} {P : α → Prop} {c : Prop} [Decidable c] {a b : α} (ha : P a) (hb : P b) : P (if c then a else b) := by
  split <;> assumption

/-! The formatter and the streams -/

/-- The node m differs from n in its ports, the formatter's state and what left it, and in nothing else. -/
def OnlyNet (n m : Node) : Prop := m = { n with net := m.net, outs := m.outs }

theorem OnlyNet.refl (n : Node) : OnlyNet n n := rfl

theorem onlyNet_withNet (n : Node) (x : Net) : OnlyNet n { n with net := x } := rfl

theorem OnlyNet.trans {a b c : Node} (h : OnlyNet a b) (k : OnlyNet b c) : OnlyNet a c := by
  unfold OnlyNet at *
  rw [h] at k
  exact k

theorem onlyNet_foldl {α : Type} {f : Node → α → Node} (hf : ∀ n x, OnlyNet n (f n x)) (l : List α) (n : Node) :
    OnlyNet n (l.foldl f n) := foldl_rel OnlyNet.refl OnlyNet.trans hf l n

theorem onlyNet_sendEth (n : Node) (p : Nat) (m : Sentence) : OnlyNet n (sendEth n p m) := rfl

theorem onlyNet_sendSer (n : Node) (p : Nat) (m : Sentence) : OnlyNet n (sendSer n p m) := rfl

theorem onlyNet_sendAll (n : Node) (m : Sentence) : OnlyNet n (sendAll n m) :=
  (onlyNet_foldl (fun n p => onlyNet_sendEth n p m) _ n).trans (onlyNet_foldl (fun n p => onlyNet_sendSer n p m) _ _)

theorem onlyNet_queueAlf (n : Node) (a : Alert) : OnlyNet n (queueAlf n a) := by
  have eth (n : Node) (p : Nat) : OnlyNet n (modEth n p fun e => { e with queue := enqueue a e.queue }) := rfl
  have ser (n : Node) (p : Nat) : OnlyNet n (modSer n p fun e => { e with queue := enqueue a e.queue }) := rfl
  exact (onlyNet_foldl eth _ n).trans (onlyNet_foldl ser _ _)

theorem onlyNet_drainEth (n : Node) (p : Nat) : OnlyNet n (drainEth n p) :=
  OnlyNet.trans (b := modEth n p _) rfl (onlyNet_foldl (fun n a => onlyNet_sendEth n p (alfOf n a)) _ _)

theorem onlyNet_drainSer (n : Node) (p : Nat) : OnlyNet n (drainSer n p) :=
  OnlyNet.trans (b := modSer n p _) rfl (onlyNet_foldl (fun n a => onlyNet_sendSer n p (alfOf n a)) _ _)

theorem onlyNet_drain (n : Node) : OnlyNet n (drain n) :=
  ((onlyNet_foldl onlyNet_drainEth _ n).trans (onlyNet_foldl onlyNet_drainSer _ _)).trans rfl

theorem onlyNet_presentPoint (n : Node) (k : Nat) : OnlyNet n (presentPoint n k) :=
  pred_ite (.refl n) ((onlyNet_withNet n _).trans (onlyNet_queueAlf _ _))

theorem onlyNet_setOwn (n : Node) (a : Alert) (x : OwnAlert) : OnlyNet n (setOwn n a x) := by
  have own {m : Node} (hm : OnlyNet n m) (c : Prop) [Decidable c] : OnlyNet n (if c then m else queueAlf m a) :=
    pred_ite hm (hm.trans (onlyNet_queueAlf m a))
  cases a with
  | summary => exact own (onlyNet_withNet n _) _
  | callFault => exact own (onlyNet_withNet n _) _
  | watch => exact own (onlyNet_withNet n _) _
  | point k => exact own (.refl n) _

theorem onlyNet_ownAlerts (n : Node) : OnlyNet n (ownAlerts n) :=
  let on := operational n
  let n₁ := setOwn n .summary (ownStep n.net.summary (on && n.call.stage == 3) n.sampleT)
  let n₂ := setOwn n₁ .callFault (ownStep n₁.net.callFault (on && callFaulty n₁) n₁.sampleT)
  ((onlyNet_setOwn n .summary _).trans (onlyNet_setOwn n₁ .callFault _)).trans (onlyNet_setOwn n₂ .watch _)

theorem onlyNet_resendAll (n : Node) : OnlyNet n (resendAll n) := by
  unfold resendAll
  split
  · exact (onlyNet_foldl onlyNet_queueAlf _ n).trans rfl
  · exact .refl n

theorem onlyNet_formatter (n : Node) : OnlyNet n (formatter n) := by
  unfold formatter
  split
  · exact ((onlyNet_foldl onlyNet_presentPoint _ n).trans (onlyNet_ownAlerts _)).trans ((onlyNet_resendAll _).trans (onlyNet_drain _))
  · exact .refl n

theorem onlyNet_alfRepeat (n : Node) : OnlyNet n (alfRepeat n) := by
  unfold alfRepeat
  split
  · exact ((onlyNet_withNet n _).trans (onlyNet_foldl onlyNet_queueAlf _ _)).trans (onlyNet_drain _)
  · exact .refl n

theorem onlyNet_alcSend (n : Node) : OnlyNet n (alcSend n) := by
  unfold alcSend
  split
  · exact (onlyNet_withNet n _).trans (onlyNet_foldl (fun n c => onlyNet_sendAll n (.alc c)) _ _)
  · exact .refl n

theorem onlyNet_hbtSend (n : Node) : OnlyNet n (hbtSend n) := by
  unfold hbtSend
  split
  · exact (onlyNet_withNet n _).trans (onlyNet_sendAll _ _)
  · exact .refl n

theorem onlyNet_setTrendGap (n : Node) (p s : Nat) (g : Bool) : OnlyNet n (setTrendGap n p s g) := rfl

theorem onlyNet_sendTrend (n : Node) (p s : Nat) (m : TrendMsg) : OnlyNet n (sendTrend n p s m) := rfl

theorem onlyNet_gapAll (n : Node) : OnlyNet n (gapAll n) :=
  onlyNet_foldl (fun n p => (onlyNet_setTrendGap n p 0 true).trans (onlyNet_setTrendGap _ p 1 true)) _ n

theorem onlyNet_trendMissed (n : Node) : OnlyNet n (trendMissed n) := by
  refine onlyNet_foldl (fun n e => ?_) _ n
  split
  · exact onlyNet_setTrendGap _ _ _ _
  · exact .refl n

theorem onlyNet_trendStream (n : Node) (e : Nat × Nat) : OnlyNet n (trendStream n e) := by
  unfold trendStream
  dsimp only
  split
  · exact .refl n
  · exact (onlyNet_sendTrend _ _ _ _).trans (onlyNet_setTrendGap _ _ _ _)

theorem onlyNet_trends (n : Node) : OnlyNet n (trends n) := by
  unfold trends
  split
  · exact onlyNet_foldl onlyNet_trendStream _ n
  · exact .refl n

theorem onlyNet_trendStopped (n : Node) : OnlyNet n (trendStopped n) := by
  unfold trendStopped
  split
  · exact (onlyNet_withNet n _).trans (onlyNet_foldl (fun n (e : Nat × Nat) => onlyNet_sendTrend n e.1 e.2 _) _ _)
  · exact .refl n

/-! RESULT_READY -/

/-- The lanes' state and the header of the RES buffer. -/
def frameHead (n : Node) : LaneSt × ResHead := (n.laneSt, n.resHead)

theorem OnlyNet.frameHead_eq {n m : Node} (h : OnlyNet n m) : frameHead m = frameHead n := by
  rw [h]
  rfl

theorem frameHead_holdPublished (n : Node) : frameHead (holdPublished n) = frameHead n := by
  refine foldl_same (fun n ch => ?_) _ n
  dsimp only
  split <;> rfl

theorem frameHead_lchAtReady (n : Node) (e : Nat) : frameHead (lchAtReady n e) = frameHead n := by
  unfold lchAtReady
  dsimp only
  split
  · simp only [frameHead, raiseR_laneSt, raiseR_resHead, note_laneSt, note_resHead]
    rfl
  · rfl

theorem frameHead_launchReady (n : Node) : frameHead (launchReady n) = frameHead n := foldl_same frameHead_lchAtReady _ n

theorem frameHead_handoverReady (n : Node) : frameHead (handoverReady n) = frameHead n := by
  unfold handoverReady
  split
  · split <;> rfl
  · rfl

theorem frameHead_flushDue (n : Node) (due : List (Nat × Nat)) (frozen : Nat → Bool) : frameHead (flushDue n due frozen) = frameHead n := by
  refine foldl_same (fun n e => ?_) _ n
  split <;> rfl

/-- RESULT_READY takes the header of the frame's results. -/
theorem frameHead_publish (n : Node) :
    frameHead (publish n) = ({ n.laneSt with ready := true }, { n.resHead with
      frame := n.frame, sample := n.sampleT, period := n.period, lanes := n.laneSt.state,
      active := holder (modLaneSt n (fun s => { s with ready := true })) }) := by
  change frameHead (handoverReady _) = _
  rw [frameHead_handoverReady, frameHead_launchReady, (onlyNet_trends _).frameHead_eq, (onlyNet_formatter _).frameHead_eq]
  exact frameHead_holdPublished (takeResHead (modLaneSt n fun s => { s with ready := true }))

theorem missBlock_rest (shown n : Node) : missBlock shown n = { n with mirror := (missBlock shown n).mirror } := by
  unfold missBlock
  split <;> rfl

/-- RESULT_READY on the machine at its instant. -/
def readyStep (s : State) : State :=
  if publishable s.node then refreshR { s with node := publish (missBlock s.atR s.node) } else s

theorem onState_readyStep {s : State} {t : Nat} (h : publishable s.node = true) :
    onState s t readyStep =
      { refreshR { s with node := publish (missBlock s.atR (begin_ s.node t)) } with
        node := settle (refreshR { s with node := publish (missBlock s.atR (begin_ s.node t)) }).node } := by
  have hnow : publishable (begin_ s.node t) = true := h
  simp only [onState, readyStep, hnow, if_true]

theorem onState_readyStep_of_not {s : State} {t : Nat} (h : publishable s.node = false) :
    onState s t readyStep = { s with node := settle (begin_ s.node t) } := by
  have hnow : publishable (begin_ s.node t) = false := h
  simp only [onState, readyStep, hnow, Bool.false_eq_true, if_false]

theorem frameHead_refreshR (s : State) : frameHead (refreshR s).node = frameHead s.node := frameHead_flushDue _ _ _

/-- Settles O8: where the frame is published the copy is the node of the refresh, and its header is that of `publish`; where it is
not, RESULT_READY does nothing. -/
theorem readyRefreshes : Obligations.ReadyRefreshes := by
  intro t s
  have hexec : exec (.resultReady t) s = .next (onState s t readyStep) := rfl
  by_cases hp : publishable s.node = true
  · have hhead := (frameHead_refreshR { s with node := publish (missBlock s.atR (begin_ s.node t)) }).trans (frameHead_publish _)
    have hrest := refreshR_rest { s with node := publish (missBlock s.atR (begin_ s.node t)) }
    rw [onState_readyStep hp] at hexec
    generalize refreshR { s with node := publish (missBlock s.atR (begin_ s.node t)) } = v at hexec hhead hrest
    rw [missBlock_rest] at hhead
    obtain ⟨hlane, hres⟩ := Prod.mk.inj hhead
    obtain ⟨hb, hm, hpending, hcopy⟩ := hrest
    refine ⟨_, hexec, hb, hm, hpending, fun _ => ⟨?_, congrArg LaneSt.ready hlane, congrArg ResHead.frame hres,
      congrArg ResHead.sample hres, congrArg ResHead.period hres⟩, fun h => nomatch hp.symm.trans h⟩
    exact hcopy ▸ sameButSignals_settle v.node
  · rw [onState_readyStep_of_not (Bool.not_eq_true _ ▸ hp)] at hexec
    exact ⟨_, hexec, rfl, rfl, rfl, fun h => absurd h hp, fun _ => ⟨rfl, rfl, rfl⟩⟩

end Sys2Proof.Machine
end

section
/-! PROOF. Sets held as numbers, and the result mirror (02 R51 to R53). -/

namespace Sys2Proof.Machine

/-! Sets held as numbers -/

/-- Adding a power of two that a number does not hold sets its bit and no other. -/
theorem testBit_add_two_pow {a k : Nat} (h : a.testBit k = false) (j : Nat) :
    (a + 2 ^ k).testBit j = (decide (j = k) || a.testBit j) := by
  rcases Nat.lt_trichotomy j k with hlt | rfl | hgt
  · rw [Nat.add_comm, Nat.testBit_two_pow_add_gt hlt]
    simp [Nat.ne_of_lt hlt]
  · rw [Nat.add_comm, Nat.testBit_two_pow_add_eq]
    simp [h]
  · have hlow : a % 2 ^ (k + 1) < 2 ^ k := by
      have hbit : a / 2 ^ k % 2 ≠ 1 := by simpa [Nat.testBit_eq_decide_div_mod_eq] using h
      rw [Nat.mod_pow_succ, show a / 2 ^ k % 2 = 0 by omega]
      exact Nat.mod_lt a (Nat.two_pow_pos k)
    have hhigh : (a + 2 ^ k) / 2 ^ (k + 1) = a / 2 ^ (k + 1) := by
      have hsum : a % 2 ^ (k + 1) + 2 ^ k < 2 ^ (k + 1) := by
        rw [Nat.pow_succ 2 k] at hlow ⊢
        omega
      conv_lhs => rw [← Nat.div_add_mod a (2 ^ (k + 1)), Nat.add_assoc, Nat.mul_add_div (Nat.two_pow_pos _), Nat.div_eq_of_lt hsum]
      rfl
    obtain ⟨d, rfl⟩ : ∃ d, j = k + 1 + d := ⟨j - (k + 1), by omega⟩
    have hne : k + 1 + d ≠ k := by omega
    have shift (x : Nat) : x.testBit (k + 1 + d) = (x / 2 ^ (k + 1)).testBit d := by
      rw [Nat.testBit_div_two_pow, Nat.add_comm]
    rw [shift, hhigh, ← shift]
    simp [hne]

/-- The members of a list are the bits of its set. -/
theorem testBit_bitSet (ks : List Nat) (j : Nat) : (bitSet ks).testBit j = decide (j ∈ ks) := by
  have from_ (a : Nat) : (ks.foldl (fun a k => if a.testBit k then a else a + 2 ^ k) a).testBit j = (a.testBit j || decide (j ∈ ks)) := by
    induction ks generalizing a with
    | nil => simp
    | cons k r ih =>
      rw [List.foldl_cons, ih]
      cases hk : a.testBit k with
      | true =>
        by_cases hj : j = k
        · simp [hj, hk]
        · simp [hj]
      | false =>
        simp only [Bool.false_eq_true, if_false, testBit_add_two_pow hk]
        by_cases hj : j = k
        · simp [hj]
        · simp [hj]
  simpa [bitSet] using from_ 0

/-- A set with one member set or cleared. -/
theorem testBit_setBit (s k : Nat) (b : Bool) (j : Nat) : (setBit s k b).testBit j = if j = k then b else s.testBit j := by
  unfold setBit
  split
  · next h =>
    split
    · next hj => rw [hj, h]
    · rfl
  · next h =>
    cases b with
    | true =>
      simp only [if_true]
      rw [testBit_add_two_pow (by simpa using h)]
      by_cases hj : j = k <;> simp [hj]
    | false =>
      have hk : s.testBit k = true := by simpa using h
      have hle : 2 ^ k ≤ s := Nat.ge_two_pow_of_testBit hk
      have hclear : (s - 2 ^ k).testBit k = false := by
        have := Nat.testBit_two_pow_add_eq (s - 2 ^ k) k
        rw [Nat.add_sub_cancel' hle, hk] at this
        simpa using this.symm
      have hother := testBit_add_two_pow hclear j
      rw [Nat.sub_add_cancel hle] at hother
      simp only [Bool.false_eq_true, if_false]
      by_cases hj : j = k
      · rw [hj, if_pos rfl, hclear]
      · rw [if_neg hj, hother]
        simp [hj]

@[simp] theorem nbit_setBit (s k : Nat) (b : Bool) (j : Nat) : nbit (setBit s k b) j = if j = k then b else nbit s j :=
  testBit_setBit s k b j

/-! Blocks of bytes -/

@[simp] theorem length_bytesLE (count n : Nat) : (bytesLE count n).length = count := by simp [bytesLE]

@[simp] theorem length_bytesI (count : Nat) (i : Int) : (bytesI count i).length = count := length_bytesLE _ _

/-- A part of a range of the memory that is replaced. -/
theorem memBytes_memReplace (m : List Host.Cell) {lo hi : Nat} {pre seg post : List Byte} (hlen : (pre ++ seg ++ post).length = hi - lo)
    (hle : lo ≤ hi) : memBytes (memReplace m lo hi (pre ++ seg ++ post)) (lo + pre.length) seg.length = seg := by
  unfold memBytes
  apply List.ext_getElem
  · simp
  · intro i hi' hseg
    simp only [List.length_append] at hlen
    simp only [List.getElem_map, List.getElem_range]
    rw [memRead_memReplace _ _ hle, if_pos (by omega), List.take_of_length_le (by simp; omega),
      show lo + pre.length + i - lo = pre.length + i by omega, List.append_assoc, List.getD_eq_getElem?_getD,
      List.getElem?_append_right (by omega), Nat.add_sub_cancel_left, List.getElem?_append_left hseg]
    simp [hseg]

/-- The length of a list of parts of one length. -/
theorem length_flatMap_const {α β : Type} (l : List α) (f : α → List β) (k : Nat) (h : ∀ x, (f x).length = k) :
    (l.flatMap f).length = l.length * k := by
  induction l with
  | nil => simp
  | cons x r ih => simp [ih, h, Nat.add_mul, Nat.add_comm]

/-- One part of a list of parts, with what stands before and after it. -/
theorem flatMap_split {β : Type} (f : Nat → List β) {n c : Nat} (h : c < n) :
    (List.range n).flatMap f =
      (List.range c).flatMap f ++ f c ++ ((List.range n).drop (c + 1)).flatMap f := by
  conv_lhs => rw [← List.take_append_drop c (List.range n), List.drop_eq_getElem_cons (by simpa using h)]
  simp [List.take_range, Nat.min_eq_left (Nat.le_of_lt h)]

end Sys2Proof.Machine
end

section
/-! PROOF. The blocks of the result mirror and the PCI Express link (02 R34, R51 to R53). -/

namespace Sys2Proof.Machine

/-! The parts of a block (02 Table 02.11) -/

/-- The values, status bytes, delays and point bits of a block, in the order of their offsets. -/
def blockVals (src : Node) (c : Nat) : List Byte := bytesI 4 (resOf src c).val
def blockStat (src : Node) (c : Nat) : List Byte := [byteOf (resOf src c).stat]
def blockDly (src : Node) (c : Nat) : List Byte := [byteOf (sat 255 ((resOf src c).dly.getD src.resHead.offDly))]
def blockActs (src : Node) (i : Nat) : List Byte :=
  [byteOf (bitSet ((List.range 8).filter fun b => (pointOf src (8 * i + b)).active))]

/-- The flags of a block: ACTIVE, the lane state and GAP. -/
def blockFlags (src : Node) (gap : Bool) : List Byte :=
  bytesLE 4 (packN [(b2n src.resHead.active, 0, 1), (src.resHead.lanes, 1, 2), (b2n gap, 3, 1)])

theorem blockBytes_eq (src : Node) (gap : Bool) : blockBytes src gap =
    bytesLE 8 src.resHead.frame ++ bytesLE 8 src.resHead.sample ++ bytesLE 4 src.resHead.period ++ blockFlags src gap ++
    List.replicate 40 0 ++ (List.range 512).flatMap (blockVals src) ++ (List.range 512).flatMap (blockStat src) ++
    (List.range 512).flatMap (blockDly src) ++ (List.range 640).flatMap (blockActs src) ++ List.replicate 312 0 ++
    bytesLE 8 src.resHead.frame := by
  unfold blockBytes
  dsimp only
  rw [List.map_eq_flatMap, List.map_eq_flatMap, List.map_eq_flatMap]
  rfl

theorem length_vals (src : Node) (l : List Nat) : (l.flatMap (blockVals src)).length = l.length * 4 :=
  length_flatMap_const l _ 4 fun _ => length_bytesI 4 _
theorem length_stats (src : Node) (l : List Nat) : (l.flatMap (blockStat src)).length = l.length * 1 :=
  length_flatMap_const l _ 1 fun _ => rfl
theorem length_dlys (src : Node) (l : List Nat) : (l.flatMap (blockDly src)).length = l.length * 1 :=
  length_flatMap_const l _ 1 fun _ => rfl
theorem length_acts (src : Node) (l : List Nat) : (l.flatMap (blockActs src)).length = l.length * 1 :=
  length_flatMap_const l _ 1 fun _ => rfl

theorem length_flags (src : Node) (gap : Bool) : (blockFlags src gap).length = 4 := length_bytesLE _ _

theorem length_blockBytes (src : Node) (gap : Bool) : (blockBytes src gap).length = 4096 := by
  rw [blockBytes_eq]
  simp only [List.length_append, length_bytesLE, List.length_replicate, length_vals, length_stats, length_dlys, length_acts,
    length_flags, List.length_range]

/-- The ring after a block is written. -/
def ringWith (m : List Host.Cell) (base : Nat) (src : Node) (gap : Bool) : List Host.Cell :=
  memReplace m base (base + 4096) (blockBytes src gap)

theorem memRead_ringWith_out (m : List Host.Cell) (base : Nat) (src : Node) (gap : Bool) {a : Nat} (h : a < base ∨ base + 4096 ≤ a) :
    memRead (ringWith m base src gap) a = memRead m a := by
  rw [ringWith, memRead_memReplace _ _ (Nat.le_add_right _ _), if_neg (by omega)]

/-- A part of the block, by what stands before and after it. -/
theorem memBytes_ringWith (m : List Host.Cell) (base : Nat) (src : Node) (gap : Bool) {pre seg post : List Byte} {k len : Nat}
    (h : blockBytes src gap = pre ++ seg ++ post) (hk : pre.length = k) (hlen : seg.length = len) :
    memBytes (ringWith m base src gap) (base + k) len = seg := by
  subst hk hlen
  rw [ringWith, h]
  refine memBytes_memReplace m ?_ (Nat.le_add_right _ _)
  rw [← h, length_blockBytes, Nat.add_sub_cancel_left]

section parts
variable (m : List Host.Cell) (base : Nat) (src : Node) (gap : Bool)

theorem ring_head : memBytes (ringWith m base src gap) base 8 = bytesLE 8 src.resHead.frame :=
  memBytes_ringWith m base src gap (pre := []) (k := 0) (by rw [blockBytes_eq]; simp only [List.append_assoc, List.nil_append]; rfl)
    rfl (length_bytesLE _ _)

theorem ring_sample : memBytes (ringWith m base src gap) (base + 8) 8 = bytesLE 8 src.resHead.sample :=
  memBytes_ringWith m base src gap (pre := bytesLE 8 src.resHead.frame)
    (by rw [blockBytes_eq]; simp only [List.append_assoc]; rfl) (length_bytesLE _ _) (length_bytesLE _ _)

theorem ring_period : memBytes (ringWith m base src gap) (base + 16) 4 = bytesLE 4 src.resHead.period :=
  memBytes_ringWith m base src gap (pre := bytesLE 8 src.resHead.frame ++ bytesLE 8 src.resHead.sample)
    (by rw [blockBytes_eq]; simp only [List.append_assoc]; rfl) (by simp) (length_bytesLE _ _)

theorem ring_flags : memBytes (ringWith m base src gap) (base + 20) 4 = blockFlags src gap :=
  memBytes_ringWith m base src gap (pre := bytesLE 8 src.resHead.frame ++ bytesLE 8 src.resHead.sample ++ bytesLE 4 src.resHead.period)
    (by rw [blockBytes_eq]; simp only [List.append_assoc]; rfl) (by simp) (length_flags _ _)

/-- What stands before the values. -/
def blockHead : List Byte :=
  bytesLE 8 src.resHead.frame ++ bytesLE 8 src.resHead.sample ++ bytesLE 4 src.resHead.period ++ blockFlags src gap

theorem length_blockHead : (blockHead src gap).length = 24 := by simp [blockHead, length_flags]

theorem ring_zeros_head : memBytes (ringWith m base src gap) (base + 24) 40 = List.replicate 40 0 :=
  memBytes_ringWith m base src gap (pre := blockHead src gap)
    (by rw [blockBytes_eq]; simp only [blockHead, List.append_assoc]; rfl) (length_blockHead _ _) List.length_replicate

theorem ring_val {c : Nat} (hc : c < 512) :
    memBytes (ringWith m base src gap) (base + 64 + 4 * c) 4 = bytesI 4 (resOf src c).val := by
  rw [Nat.add_assoc]
  refine memBytes_ringWith m base src gap
    (pre := blockHead src gap ++ List.replicate 40 0 ++ (List.range c).flatMap (blockVals src))
    (by rw [blockBytes_eq, flatMap_split (blockVals src) hc]; simp only [blockHead, List.append_assoc]; rfl) ?_ (length_bytesI _ _)
  simp only [List.length_append, length_blockHead, List.length_replicate, length_vals, List.length_range]
  omega

theorem ring_stat {c : Nat} (hc : c < 512) :
    memBytes (ringWith m base src gap) (base + 2112 + c) 1 = [byteOf (resOf src c).stat] := by
  rw [Nat.add_assoc]
  refine memBytes_ringWith m base src gap
    (pre := blockHead src gap ++ List.replicate 40 0 ++ (List.range 512).flatMap (blockVals src) ++ (List.range c).flatMap (blockStat src))
    (by rw [blockBytes_eq, flatMap_split (blockStat src) hc]; simp only [blockHead, List.append_assoc]; rfl) ?_ rfl
  simp only [List.length_append, length_blockHead, List.length_replicate, length_vals, length_stats, List.length_range]
  omega

theorem ring_dly {c : Nat} (hc : c < 512) : memBytes (ringWith m base src gap) (base + 2624 + c) 1 =
    [byteOf (sat 255 ((resOf src c).dly.getD src.resHead.offDly))] := by
  rw [Nat.add_assoc]
  refine memBytes_ringWith m base src gap
    (pre := blockHead src gap ++ List.replicate 40 0 ++ (List.range 512).flatMap (blockVals src) ++
      (List.range 512).flatMap (blockStat src) ++ (List.range c).flatMap (blockDly src))
    (by rw [blockBytes_eq, flatMap_split (blockDly src) hc]; simp only [blockHead, List.append_assoc]; rfl) ?_ rfl
  simp only [List.length_append, length_blockHead, List.length_replicate, length_vals, length_stats, length_dlys, List.length_range]
  omega

theorem ring_acts {i : Nat} (hi : i < 640) :
    memBytes (ringWith m base src gap) (base + 3136 + i) 1 = blockActs src i := by
  rw [Nat.add_assoc]
  refine memBytes_ringWith m base src gap
    (pre := blockHead src gap ++ List.replicate 40 0 ++ (List.range 512).flatMap (blockVals src) ++
      (List.range 512).flatMap (blockStat src) ++ (List.range 512).flatMap (blockDly src) ++ (List.range i).flatMap (blockActs src))
    (by rw [blockBytes_eq, flatMap_split (blockActs src) hi]; simp only [blockHead, List.append_assoc]; rfl) ?_ rfl
  simp only [List.length_append, length_blockHead, List.length_replicate, length_vals, length_stats, length_dlys, length_acts,
    List.length_range]
  omega

/-- The bit of a point in the block is its ACTIVE. -/
theorem ring_active {k : Nat} (hk : k < 5120) :
    ((memRead (ringWith m base src gap) (base + 3136 + k / 8)).toNat).testBit (k % 8) = (pointOf src k).active := by
  have hbyte : memRead (ringWith m base src gap) (base + 3136 + k / 8) =
      byteOf (bitSet ((List.range 8).filter fun b => (pointOf src (8 * (k / 8) + b)).active)) :=
    List.singleton_inj.mp (ring_acts m base src gap (show k / 8 < 640 by omega))
  have hlt : k % 8 < 8 := Nat.mod_lt _ (by decide)
  rw [hbyte, byteOf, BitVec.toNat_ofNat, Nat.testBit_mod_two_pow, testBit_bitSet]
  simp [hlt, Nat.div_add_mod]

/-- What stands before the last zeros. -/
def blockBody : List Byte :=
  blockHead src gap ++ List.replicate 40 0 ++ (List.range 512).flatMap (blockVals src) ++ (List.range 512).flatMap (blockStat src) ++
    (List.range 512).flatMap (blockDly src) ++ (List.range 640).flatMap (blockActs src)

theorem length_blockBody : (blockBody src gap).length = 3776 := by
  simp only [blockBody, List.length_append, length_blockHead, List.length_replicate, length_vals, length_stats, length_dlys,
    length_acts, List.length_range]

theorem ring_zeros_tail : memBytes (ringWith m base src gap) (base + 3776) 312 = List.replicate 312 0 :=
  memBytes_ringWith m base src gap (pre := blockBody src gap)
    (by rw [blockBytes_eq]; simp only [blockBody, blockHead, List.append_assoc]; rfl) (length_blockBody _ _) List.length_replicate

theorem ring_tail : memBytes (ringWith m base src gap) (base + 4088) 8 = bytesLE 8 src.resHead.frame :=
  memBytes_ringWith m base src gap (pre := blockBody src gap ++ List.replicate 312 0) (post := [])
    (by rw [blockBytes_eq]; simp only [blockBody, blockHead, List.append_assoc, List.append_nil])
    (by rw [List.length_append, length_blockBody, List.length_replicate]) (length_bytesLE _ _)

end parts

/-! MIRROR_BLOCK_WRITE -/

/-- MGT_MIRR_HEAD names the block; with a gap, MIRR_GAP is raised. -/
theorem mirrorHead_eq (n : Node) (k : Nat) (gap : Bool) : ∃ outs, mirrorHead n k gap =
    raiseIf gap { n with mirror := { n.mirror with head := lo32 k, last := some k, gap := false }, outs := outs } 0x0C 4 := by
  unfold mirrorHead
  dsimp only
  split
  · exact ⟨_, rfl⟩
  · exact ⟨n.outs, rfl⟩

/-- Settles O16: the block that is due is written by `memReplace`, whose parts are those of `blockBytes`. -/
theorem mirrorBlocks : Obligations.MirrorBlocks := by
  refine ⟨fun t s => ?_, fun t cfg s => ⟨acts_onNode rfl rfl, acts_onNode rfl rfl⟩⟩
  have hexec : exec (.mirrorBlockWrite t) s = .next (onState s t mirrorWrite) := rfl
  dsimp only
  have hdue : mirrorDue { s with node := begin_ s.node t } = true ↔
      s.node.mgt.state = .run ∧ s.atR.resHead.period ≠ 0 ∧ s.node.mirror.last ≠ some s.atR.resHead.frame := by
    change mirrorDue s = true ↔ _
    simp [mirrorDue, mpRun, unwritten]
  refine ⟨fun h => ?_, fun h => ?_⟩
  · obtain ⟨outs, houts⟩ := mirrorHead_eq (begin_ s.node t) s.atR.resHead.frame
      (s.node.mirror.gap || mirrorMiss s.node s.atR.resHead.frame)
    have hwrite : mirrorWrite { s with node := begin_ s.node t } = { s with
        bar2 := ringWith s.bar2 (s.atR.resHead.frame % 1024 * 4096) s.atR (s.node.mirror.gap || mirrorMiss s.node s.atR.resHead.frame)
        node := mirrorHead (begin_ s.node t) s.atR.resHead.frame (s.node.mirror.gap || mirrorMiss s.node s.atR.resHead.frame) } :=
      if_pos (hdue.mpr h)
    rw [onState, hwrite, houts] at hexec
    refine ⟨_, hexec, rfl, rfl, rfl, rfl, fun a ha => memRead_ringWith_out _ _ _ _ ha, ring_head _ _ _ _, ring_tail _ _ _ _,
      ring_sample _ _ _ _, ring_period _ _ _ _, ring_flags _ _ _ _, ring_zeros_head _ _ _ _, fun c hc =>
      ⟨ring_val _ _ _ _ hc, ring_stat _ _ _ _ hc, ring_dly _ _ _ _ hc⟩, fun k hk => ring_active _ _ _ _ hk,
      ring_zeros_tail _ _ _ _, ?_⟩
    cases s.node.mirror.gap || mirrorMiss s.node s.atR.resHead.frame with
    | true => exact ⟨rfl, rfl, fun _ => raised_raise _ _ _, nofun⟩
    | false => exact ⟨rfl, rfl, nofun, fun _ => rfl⟩
  · have hwrite : mirrorWrite { s with node := begin_ s.node t } = { s with node := begin_ s.node t } :=
      if_neg (mt hdue.mp h)
    rw [onState, hwrite] at hexec
    exact ⟨_, hexec, nodeOnly_mk _ _, rfl⟩

end Sys2Proof.Machine
end

section
/-! PROOF. What the discarding of staged values and the end of sessions leave (16 R374, R376, R378). -/

namespace Sys2Proof.Machine

/-- The node m differs from n in what discards and the ends of sessions change, and in nothing else: staged values, the commands
and acts that wait, the sessions with the image, reasons and change log, the records, and the interrupts of CFG and REC. -/
def SessFrame (n m : Node) : Prop :=
  m = { n with
    staged := m.staged, acts := m.acts, cmds := m.cmds, rec_ := m.rec_, headers := m.headers, dueB := m.dueB,
    power := { n.power with sure := m.power.sure },
    config := { n.config with log := m.config.log, logCount := m.config.logCount, result := m.config.result, pend := m.config.pend,
                              sessions := m.config.sessions } } ∧
  ∀ p, p ≠ 5 → p ≠ 6 → headerOf m p = headerOf n p

theorem SessFrame.refl (n : Node) : SessFrame n n := ⟨rfl, fun _ _ _ => rfl⟩

theorem SessFrame.trans {a b c : Node} (h : SessFrame a b) (k : SessFrame b c) : SessFrame a c := by
  obtain ⟨heq, hh⟩ := h
  obtain ⟨keq, kh⟩ := k
  refine ⟨?_, fun p h5 h6 => (kh p h5 h6).trans (hh p h5 h6)⟩
  rw [heq] at keq
  exact keq

theorem sessFrame_foldl {α : Type} {f : Node → α → Node} (hf : ∀ n x, SessFrame n (f n x)) (l : List α) (n : Node) :
    SessFrame n (l.foldl f n) := foldl_rel SessFrame.refl SessFrame.trans hf l n

theorem sessFrame_note (n : Node) (r : Rec) : SessFrame n (note n r) := by
  obtain ⟨_, _, _, _, _, heq, hh⟩ := recFrame_note n r
  rw [heq]
  exact ⟨rfl, fun p _ h6 => hh p h6⟩

theorem sessFrame_setCmd (n : Node) (p : Nat) (c : Option Command) : SessFrame n (setCmd n p c) := ⟨rfl, fun _ _ _ => rfl⟩

theorem sessFrame_logChange (n : Node) (e : LogEntry) (origin : Nat) : SessFrame n (logChange n e origin) :=
  SessFrame.trans (b := { n with config := { n.config with
    log := tset none n.config.log (n.config.logCount % 2048) (some e), logCount := (n.config.logCount + 1) % 4294967296 } })
    ⟨rfl, fun _ _ _ => rfl⟩ (sessFrame_note _ _)

theorem sessFrame_logDiscards (n : Node) (who : LogBy) : SessFrame n (logDiscards n who) := by
  refine sessFrame_foldl (fun n e => ?_) _ n
  split
  · exact pred_ite (.refl n) (sessFrame_logChange _ _ _)
  · exact .refl n

theorem sessFrame_dropStages (n : Node) : SessFrame n (dropStages n) :=
  SessFrame.trans (b := { n with acts := n.acts.filter (fun w => !isStage w) }) ⟨rfl, fun _ _ _ => rfl⟩
    (sessFrame_foldl (fun n (w : Waiting) => sessFrame_setCmd n w.page _) _ _)

theorem sessFrame_dropValues (n : Node) (who : LogBy) : SessFrame n (dropValues n who) :=
  ((sessFrame_logDiscards n who).trans (sessFrame_dropStages _)).trans ⟨rfl, fun _ _ _ => rfl⟩

theorem sessFrame_setReason (n : Node) (path reason : Nat) : SessFrame n (setReason n path reason) := ⟨rfl, fun _ _ _ => rfl⟩

theorem sessFrame_failCommit (n : Node) : SessFrame n (failCommit n) := by
  unfold failCommit
  split
  · exact pred_ite ((sessFrame_setReason n _ 8).trans (sessFrame_setCmd _ 5 _)) (.refl n)
  · exact .refl n

theorem sessFrame_discardImage (n : Node) (account level : Nat) (who : LogBy) : SessFrame n (discardImage n account level who) := by
  unfold discardImage
  split
  · refine pred_ite (.refl n) ?_
    exact ((sessFrame_dropValues n who).trans (sessFrame_failCommit _)).trans
      (SessFrame.trans (b := { failCommit (dropValues n who) with config := { (failCommit (dropValues n who)).config with pend := none } })
        ⟨rfl, fun _ _ _ => rfl⟩ (sessFrame_note _ _))
  · exact sessFrame_dropValues n who

theorem sessFrame_raise_cfg (n : Node) (b : Nat) : SessFrame n (raise n 5 b) := ⟨rfl, fun _ h5 _ => headerOf_raise_ne n b h5⟩

/-- The session of a path gone, with the clearing token that was bound to it. -/
def withoutSession (n : Node) (path : Nat) : Node :=
  { setSession n path none with rec_ := { n.rec_ with token := match n.rec_.token with
    | some k => if k.path = path then none else some k
    | none => none } }

theorem sessFrame_withoutSession (n : Node) (path : Nat) : SessFrame n (withoutSession n path) := ⟨rfl, fun _ _ _ => rfl⟩

/-- The end of a session: the image of an editing session is discarded, a record, then the session goes. -/
theorem endSession_eq {n : Node} {path : Nat} {x : Session} (hx : sessionOf n path = some x) (event : Nat) (close : Bool) (who : LogBy) :
    ∃ m r, (m = n ∨ m = discardImage n x.account x.level who) ∧ (2 ≤ x.level → m = discardImage n x.account x.level who) ∧
      endSession n path event close who = raiseIf (!close) (withoutSession (note m r) path) 5 2 := by
  unfold endSession
  rw [hx]
  refine ⟨if 2 ≤ x.level then discardImage n x.account x.level who else n, _, ?_, fun h => if_pos h, rfl⟩
  split
  · exact .inr rfl
  · exact .inl rfl

theorem endSession_of_none {n : Node} {path : Nat} (h : sessionOf n path = none) (event : Nat) (close : Bool) (who : LogBy) :
    endSession n path event close who = n := by
  unfold endSession
  rw [h]

theorem sessFrame_endSession (n : Node) (path event : Nat) (close : Bool) (who : LogBy) :
    SessFrame n (endSession n path event close who) := by
  cases hx : sessionOf n path with
  | none =>
    rw [endSession_of_none hx]
    exact .refl n
  | some x =>
    obtain ⟨m, r, hm, -, heq⟩ := endSession_eq hx event close who
    have hdiscard : SessFrame n m := by
      rcases hm with rfl | rfl
      · exact .refl _
      · exact sessFrame_discardImage _ _ _ _
    rw [heq]
    refine (hdiscard.trans (sessFrame_note m r)).trans ((sessFrame_withoutSession _ path).trans ?_)
    cases close
    · exact sessFrame_raise_cfg _ 2
    · exact .refl _

theorem sessFrame_endAllSessions (n : Node) (event : Nat) : SessFrame n (endAllSessions n event) :=
  sessFrame_foldl (fun n p => sessFrame_endSession n p event false byNode) _ n

/-! The sessions that stand -/

theorem sessions_note (n : Node) (r : Rec) : (note n r).config.sessions = n.config.sessions := by
  obtain ⟨_, _, _, _, _, heq, -⟩ := recFrame_note n r
  rw [heq]

theorem sessions_logDiscards (n : Node) (who : LogBy) : (logDiscards n who).config.sessions = n.config.sessions := by
  refine foldl_same (g := fun n => n.config.sessions) (fun n e => ?_) _ n
  split
  · exact pred_ite (P := fun m : Node => m.config.sessions = n.config.sessions) rfl (sessions_note _ _)
  · rfl

theorem sessions_dropStages (n : Node) : (dropStages n).config.sessions = n.config.sessions :=
  foldl_same (g := fun n => n.config.sessions) (f := fun n (w : Waiting) => resolveCmd n w.page (some false)) (fun _ _ => rfl) _ _

theorem sessions_dropValues (n : Node) (who : LogBy) : (dropValues n who).config.sessions = n.config.sessions :=
  (sessions_dropStages _).trans (sessions_logDiscards n who)

theorem sessions_failCommit (n : Node) : (failCommit n).config.sessions = n.config.sessions := by
  unfold failCommit
  split
  · exact pred_ite (P := fun m : Node => m.config.sessions = n.config.sessions) rfl rfl
  · rfl

theorem sessions_discardImage (n : Node) (account level : Nat) (who : LogBy) :
    (discardImage n account level who).config.sessions = n.config.sessions := by
  unfold discardImage
  split
  · refine pred_ite (P := fun m : Node => m.config.sessions = n.config.sessions) rfl ?_
    exact (sessions_note _ _).trans ((sessions_failCommit _).trans (sessions_dropValues n who))
  · exact sessions_dropValues n who

/-- The end of a session takes that path's session and leaves the others. -/
theorem sessionOf_endSession (n : Node) (path event : Nat) (close : Bool) (who : LogBy) (q : Nat) :
    sessionOf (endSession n path event close who) q = if q = path then none else sessionOf n q := by
  cases hx : sessionOf n path with
  | none =>
    rw [endSession_of_none hx]
    split
    · next h => rw [h, hx]
    · rfl
  | some x =>
    obtain ⟨m, r, hm, -, heq⟩ := endSession_eq hx event close who
    have hsame : (note m r).config.sessions = n.config.sessions := by
      rw [sessions_note]
      rcases hm with rfl | rfl
      · rfl
      · exact sessions_discardImage _ _ _ _
    have hgone : sessionOf (raiseIf (!close) (withoutSession (note m r) path) 5 2) q =
        tget none (tset none (note m r).config.sessions path none) q := by cases close <;> rfl
    rw [heq, hgone, hsame, tget_tset]
    rfl

theorem sessionOf_endAllSessions (n : Node) (event : Nat) (q : Nat) :
    sessionOf (endAllSessions n event) q = if q < 5 then none else sessionOf n q := by
  have ends (l : List Nat) (n : Node) : sessionOf (l.foldl (fun n p => endSession n p event false byNode) n) q =
      if q ∈ l then none else sessionOf n q := by
    induction l generalizing n with
    | nil => simp
    | cons p r ih =>
      rw [List.foldl_cons, ih, sessionOf_endSession]
      by_cases hq : q = p <;> simp [hq]
  rw [endAllSessions, ends]
  simp

end Sys2Proof.Machine
end

section
/-! PROOF. Register writes on every path and the requests of management connections (02 R38 to R43, 16 R372, R375). -/

namespace Sys2Proof

open Machine

/-! What signals leave -/

theorem SameButSignals.headerOf_eq {u v : Node} (h : SameButSignals u v) (p : Nat) : headerOf u p = headerOf v p := by rw [h]; rfl
theorem SameButSignals.seqOf_eq {u v : Node} (h : SameButSignals u v) (path p : Nat) : seqOf u path p = seqOf v path p := by
  rw [h]; rfl
theorem SameButSignals.seqs_eq {u v : Node} (h : SameButSignals u v) : u.seqs = v.seqs := by rw [h]
theorem SameButSignals.reg_eq {u v : Node} (h : SameButSignals u v) (k : Nat) : reg u k = reg v k := by rw [h]; rfl
theorem SameButSignals.mgt_eq {u v : Node} (h : SameButSignals u v) : u.mgt = v.mgt := by rw [h]
theorem SameButSignals.regs_eq {u v : Node} (h : SameButSignals u v) : u.regs = v.regs := by rw [h]

end Sys2Proof

namespace Sys2Proof.Machine

/-! Writes (02 R38 to R43) -/

@[simp] theorem seqOf_modSeq_self (n : Node) (path p : Nat) (f : PathSeq → PathSeq) :
    seqOf (modSeq n path p f) path p = f (seqOf n path p) := by simp [seqOf]

/-- What a write does to the machine before the interrupts settle: a bad access where it is unaligned, else its effect. -/
def writeEffect (s : State) (path off : Nat) (v : Word) : State :=
  if off % 4 ≠ 0 then { s with node := badAccessNode s.node false true off } else barWrite s path off v

/-- A write on a path that carries it leaves what its effect does, signals apart. -/
theorem acts_writeOn {s : State} {path t off : Nat} {v : Word} {m : Node} {P : Node → Node → Prop} (hc : carries s.node path)
    (hw : writeEffect { s with node := atInstant s t } path off v = { s with node := m })
    (h : ∀ u, SameButSignals u m → P (atInstant s t) u) : Acts (writeOn path t off v) s t P := by
  have hwrite : pathWrite { s with node := atInstant s t } path off v = { s with node := settleWith (againAfter m off) m } := by
    have hsettle : pathWrite { s with node := atInstant s t } path off v =
        { writeEffect { s with node := atInstant s t } path off v with
          node := settleWith (againAfter (writeEffect { s with node := atInstant s t } path off v).node off)
            (writeEffect { s with node := atInstant s t } path off v).node } := rfl
    rw [hsettle, hw]
  have hsignals := sameButSignals_settleWith (againAfter m off) m
  by_cases hpath : path = 0
  · subst hpath
    refine ⟨_, congrArg Host.Outcome.next hwrite, nodeOnly_mk _ _, h _ hsignals⟩
  · obtain ⟨hup, hsession⟩ := hc.resolve_left hpath
    have hstatus : mgmtStatus (atInstant s t) path off (opensWrite off v) ≠ 2 := by
      have hsome : (sessionOf (atInstant s t) path).isNone = false := by
        rw [Option.isNone_eq_false_iff]
        exact hsession
      simp only [mgmtStatus, hsome, Bool.false_and, Bool.false_eq_true, if_false]
      split <;> decide
    have hupNow : mgmtUp (atInstant s t) path = true := hup
    have hexec : mgmtWrite { s with node := atInstant s t } path off v = { s with
        node := emit (settleWith (againAfter m off) m) (.mgmt path (mgmtStatus (atInstant s t) path off (opensWrite off v)) 0) } := by
      simp only [mgmtWrite, hupNow, Bool.not_true, Bool.false_eq_true, if_false, hstatus, hwrite]
    have hon : writeOn path t off v = .mgmtWrite t path off v := if_neg hpath
    rw [hon]
    exact ⟨_, congrArg Host.Outcome.next hexec, nodeOnly_mk _ _, h _ (SameButSignals.trans (sameButSignals_emit _ _) hsignals)⟩

theorem writeEffect_aligned {s : State} {path p o : Nat} {v : Word} (h4 : o % 4 = 0) :
    writeEffect s path (at_ p o) v = barWrite s path (at_ p o) v :=
  if_neg (by unfold at_; omega)

theorem blockOf_ne_zero_of_hasSeq {p : Nat} (h : hasSeq p = true) : blockOf p ≠ 0 := by
  intro hb
  simp [hasSeq, pageCap, hb] at h

theorem blockOf_ne_zero_of_row {p o : Nat} {r : RegRow} (h : rowAt p o = some r) : blockOf p ≠ 0 := by
  intro hb
  simp [rowAt, rowsOf, hb] at h

/-- A write to a plain RW register that is no half of a pair and no setpoint. -/
theorem blockWrite_rw {n : Node} {path p o : Nat} {r : RegRow} (v : Word) (hrow : rowAt p o = some r) (hrw : r.typ = .rw)
    (hlow : pairLow p o = false) (hhigh : pairHigh p o = false) (hao : ¬ (0x10 ≤ p ∧ p < 0x20 ∧ 0x500 ≤ o ∧ o < 0x580))
    (hshed : ¬ (p = 0x0C ∧ o = 0x48)) :
    blockWrite n path p o v =
      if (headerOf n p).locked then setCmdRes n path p 8 else setReg n (at_ p o) (v &&& BitVec.ofNat 32 r.mask) := by
  have hpwr : ¬ (p = 0x0D ∧ o = 0x50) := by
    rintro ⟨rfl, rfl⟩
    have hrwl : rowAt 0x0D 0x50 = some { base := 0x50, typ := .rwl, level := 2, states := 30, mask := 0xFFFF } := rfl
    rw [← Option.some.inj (hrwl.symm.trans hrow)] at hrw
    exact absurd hrw (by decide)
  simp only [blockWrite, hlow, hhigh, Bool.or_self, Bool.false_eq_true, if_false, hao, hpwr, hrow, hrw, unlocked, lockedWrite, rwWrite,
    hshed, maskAt]

theorem writes_on_every_path (path t p o : Nat) (v : Word) (s : State) (ho : o < 4096) (hc : carries s.node path) :
    (o % 4 ≠ 0 → Acts (writeOn path t (at_ p o) v) s t (fun n u =>
      SameButSignals u { n with mgt := u.mgt, headers := u.headers } ∧ u.mgt.badCnt = min 65535 (n.mgt.badCnt + 1))) ∧
    (o % 4 = 0 → blockOf p = 0 → Acts (writeOn path t (at_ p o) v) s t (fun n u => SameButSignals u n)) ∧
    (o = 0x18 → hasSeq p = true → Acts (writeOn path t (at_ p o) v) s t (fun n u =>
      SameButSignals u { n with seqs := u.seqs } ∧ seqOf u path p = { seqOf n path p with hseq := v.setWidth 16 } ∧
      ∀ k, k ≠ p + 256 * path → tget {} u.seqs k = tget {} n.seqs k)) ∧
    (∀ r, rowAt p o = some r → r.typ = .rw → pairLow p o = false → pairHigh p o = false → 0x40 ≤ o → o % 4 = 0 →
      ¬ (0x10 ≤ p ∧ p < 0x20 ∧ 0x500 ≤ o ∧ o < 0x580) → ¬ (p = 0x0C ∧ o = 0x48) →
      ((headerOf s.node p).locked = false → Acts (writeOn path t (at_ p o) v) s t (fun n u =>
        SameButSignals u { n with regs := u.regs } ∧ reg u (at_ p o) = v &&& BitVec.ofNat 32 r.mask ∧
        ∀ k, k ≠ at_ p o → reg u k = reg n k)) ∧
      ((headerOf s.node p).locked = true → Acts (writeOn path t (at_ p o) v) s t (fun n u =>
        SameButSignals u { n with seqs := u.seqs } ∧ seqOf u path p = { seqOf n path p with cmdRes := 8 }))) := by
  have hdiv : at_ p o / 4096 = p := at_div p o ho
  have hmod : at_ p o % 4096 = o := at_mod p o ho
  refine ⟨fun h4 => ?_, fun h4 h0 => ?_, fun h18 hseq => ?_, fun r hrow hrw hlow hhigh h40 h4 hao hshed => ?_⟩
  · have hbad : at_ p o % 4 ≠ 0 := by unfold at_; omega
    obtain ⟨outs, -, heq⟩ := badAccessNode_eq (atInstant s t) false true (at_ p o)
    have heffect : writeEffect { s with node := atInstant s t } path (at_ p o) v =
        { s with node := badAccessNode (atInstant s t) false true (at_ p o) } := if_pos hbad
    rw [heq] at heffect
    refine acts_writeOn hc heffect fun u (hu : SameButSignals u _) => ⟨hu.trans ?_, ?_⟩
    · rw [hu.mgt_eq, show u.headers = _ by rw [hu]]
      rfl
    · rw [hu.mgt_eq]
      rfl
  · have heffect : writeEffect { s with node := atInstant s t } path (at_ p o) v = { s with node := atInstant s t } := by
      rw [writeEffect_aligned h4]
      simp only [barWrite, hdiv, h0, if_true]
    exact acts_writeOn hc heffect fun u (hu : SameButSignals u _) => hu
  · subst h18
    have heffect : writeEffect { s with node := atInstant s t } path (at_ p 0x18) v =
        { s with node := modSeq (atInstant s t) path p fun q => { q with hseq := v.setWidth 16 } } := by
      rw [writeEffect_aligned (by decide)]
      simp only [barWrite, hdiv, hmod, blockOf_ne_zero_of_hasSeq hseq, if_false, writeHeader, writeSeqHost, hseq, if_true]
      rfl
    refine acts_writeOn hc heffect fun u (hu : SameButSignals u _) => ⟨?_, ?_, fun k hk => ?_⟩
    · rw [hu.seqs_eq]
      exact hu
    · rw [hu.seqOf_eq]
      exact seqOf_modSeq_self _ _ _ _
    · rw [hu.seqs_eq]
      rw [modSeq_seqs]
      exact tget_tmod_ne _ _ _ hk
  · have h8 : ¬ o = 0x08 := by omega
    have h40' : ¬ o < 0x40 := by omega
    have hcmd : ¬ (p = 0 ∧ o = 0x54) := by
      rintro ⟨rfl, rfl⟩
      have hrow' : rowAt 0 0x54 = some { base := 0x54, typ := .cmd } := rfl
      rw [← Option.some.inj (hrow'.symm.trans hrow)] at hrw
      exact absurd hrw (by decide)
    have heffect : writeEffect { s with node := atInstant s t } path (at_ p o) v = { s with
        node := if (headerOf (atInstant s t) p).locked then setCmdRes (atInstant s t) path p 8
          else setReg (atInstant s t) (at_ p o) (v &&& BitVec.ofNat 32 r.mask) } := by
      rw [writeEffect_aligned h4]
      simp only [barWrite, hdiv, hmod, blockOf_ne_zero_of_row hrow, h8, h40', hcmd, if_false,
        blockWrite_rw v hrow hrw hlow hhigh hao hshed]
    refine ⟨fun hopen => ?_, fun hlocked => ?_⟩
    · have hopen' : (headerOf (atInstant s t) p).locked = false := hopen
      simp only [hopen', Bool.false_eq_true, if_false] at heffect
      refine acts_writeOn hc heffect fun u (hu : SameButSignals u _) => ⟨?_, ?_, fun k hk => ?_⟩
      · rw [hu.regs_eq]
        exact hu
      · rw [hu.reg_eq, reg_setReg_self]
      · rw [hu.reg_eq, reg_setReg_ne _ _ hk]
    · have hlocked' : (headerOf (atInstant s t) p).locked = true := hlocked
      simp only [hlocked', if_true] at heffect
      refine acts_writeOn hc heffect fun u (hu : SameButSignals u _) => ⟨?_, ?_⟩
      · rw [hu.seqs_eq]
        exact hu
      · rw [hu.seqOf_eq, seqOf_setCmdRes_self]

/-! Requests (16 R372, R375) -/

/-- The machine on the node alone at its instant, for rows whose effect reads the whole machine. -/
theorem acts_onState {c : Instr} {s : State} {t : Nat} {f : State → Node} {P : Node → Node → Prop}
    (hc : exec c s = .next (onState s t fun s => { s with node := f s }))
    (h : P (atInstant s t) (settle (f { s with node := atInstant s t }))) : Acts c s t P := ⟨_, hc, nodeOnly_mk _ _, h⟩

theorem exec_mgmtRead (t path : Nat) (q : MgmtReq) (s : State) :
    exec (.mgmtRead t path q) s = .next (onState s t fun s => { s with node := mgmtRead s path q }) := rfl

theorem exec_mgmtWrite_down {t path off : Nat} {v : Word} {s : State} (h : mgmtUp s.node path = false) :
    exec (.mgmtWrite t path off v) s = .next { s with node := begin_ s.node t } := by
  have hnow : mgmtUp (begin_ s.node t) path = false := h
  change Host.Outcome.next (mgmtWrite _ _ _ _) = _
  simp only [mgmtWrite, hnow, Bool.not_false, if_true]

/-- A request on a connection without a session is answered NO_SESSION, unless it may open one. -/
theorem mgmtStatus_of_none {n : Node} {path : Nat} (h : sessionOf n path = none) (off : Nat) : mgmtStatus n path off false = 2 := by
  simp [mgmtStatus, h]

theorem mgmtStatus_of_session {n : Node} {path : Nat} (h : (sessionOf n path).isSome = true) (off : Nat) (opens : Bool) :
    mgmtStatus n path off opens = if off % 4 ≠ 0 then 1 else 0 := by
  have hsome : (sessionOf n path).isNone = false := Option.isNone_eq_false_iff.mpr h
  simp only [mgmtStatus, hsome, Bool.false_and, Bool.false_eq_true, if_false]

theorem mgmtRead_valid (s : State) (path off : Nat) : mgmtRead s path { off := off } = mgmtReadAt s path off := rfl

theorem mgmtRead_broken {s : State} {path : Nat} {q : MgmtReq} (hup : mgmtUp s.node path = true) (h : q.op ≠ 1 ∨ q.value ≠ 0) :
    mgmtRead s path q = tlsClose s.node path := by
  unfold mgmtRead
  rw [if_neg (by rintro ⟨hop, hv⟩; exact h.elim (· hop) (· hv)), if_pos hup]

/-- A connection closed takes its session with it and no other. -/
theorem tlsClose_frame (n : Node) (path : Nat) :
    (tlsClose n path).regs = n.regs ∧ tget false (tlsClose n path).config.tls path = false ∧
    ∀ q, (q ≠ path → tget false (tlsClose n path).config.tls q = tget false n.config.tls q) ∧
      sessionOf (tlsClose n path) q = if q = path then none else sessionOf n q := by
  obtain ⟨heq, -⟩ := sessFrame_endSession n path 2 false byNode
  have htls : (endSession n path 2 false byNode).config.tls = n.config.tls := by rw [heq]
  have hregs : (endSession n path 2 false byNode).regs = n.regs := by rw [heq]
  refine ⟨hregs, tget_tset_self false (endSession n path 2 false byNode).config.tls path false, fun q => ⟨fun hq => ?_, sessionOf_endSession n path 2 false byNode q⟩⟩
  exact (tget_tset_ne false (endSession n path 2 false byNode).config.tls false hq).trans (congrArg (tget false · q) htls)

/-- What a read leaves: a holding register, or a peak that starts afresh. -/
theorem afterRead_rest (s : State) (path off : Nat) : (afterRead s path off).regs = s.node.regs ∧
    (afterRead s path off).headers = s.node.headers ∧ (afterRead s path off).seqs = s.node.seqs := by
  unfold afterRead
  dsimp only
  repeat' split
  all_goals exact ⟨rfl, rfl, rfl⟩

theorem requests_of_connections (t path op off : Nat) (v : Word) (s : State) :
    (mgmtUp s.node path = false → Acts (.mgmtRead t path { op := op, off := off, value := v }) s t (fun n u => SameButSignals u n) ∧
      Acts (.mgmtWrite t path off v) s t (fun n u => SameButSignals u n)) ∧
    (mgmtUp s.node path = true → op ≠ 1 ∨ v ≠ 0 → Acts (.mgmtRead t path { op := op, off := off, value := v }) s t (fun n u =>
      tget false u.config.tls path = false ∧ sessionOf u path = none ∧ u.regs = n.regs ∧
      ∀ q, q ≠ path → tget false u.config.tls q = tget false n.config.tls q ∧ sessionOf u q = sessionOf n q)) ∧
    (mgmtUp s.node path = true → sessionOf s.node path = none →
      Acts (.mgmtRead t path { off := off }) s t (fun n u => SameButSignals u n ∧ .mgmt path 2 0 ∈ u.outs) ∧
      (opensWrite off v = false → Acts (.mgmtWrite t path off v) s t (fun n u => SameButSignals u n ∧ .mgmt path 2 0 ∈ u.outs))) ∧
    (mgmtUp s.node path = true → (sessionOf s.node path).isSome = true → off % 4 ≠ 0 →
      Acts (.mgmtRead t path { off := off }) s t (fun n u => .mgmt path 1 0xFFFFFFFF ∈ u.outs ∧ u.regs = n.regs ∧
        u.mgt.badCnt = min 65535 (n.mgt.badCnt + 1))) ∧
    (mgmtUp s.node path = true → (sessionOf s.node path).isSome = true → off % 4 = 0 →
      Acts (.mgmtRead t path { off := off }) s t (fun n u =>
        .mgmt path 0 (readWord { s with node := n } path off) ∈ u.outs ∧ u.regs = n.regs ∧
        u.headers = n.headers ∧ u.seqs = n.seqs)) := by
  refine ⟨fun hdown => ⟨acts_onState (exec_mgmtRead t path _ s) ?_, ?_⟩, fun hup hbroken => acts_onState (exec_mgmtRead t path _ s) ?_,
    fun hup hnone => ⟨acts_onState (exec_mgmtRead t path _ s) ?_, fun hopens => ?_⟩,
    fun hup hsome h4 => acts_onState (exec_mgmtRead t path _ s) ?_, fun hup hsome h4 => acts_onState (exec_mgmtRead t path _ s) ?_⟩
  · have hnow : mgmtUp (atInstant s t) path = false := hdown
    have hread : mgmtRead { s with node := atInstant s t } path { op := op, off := off, value := v } = atInstant s t := by
      simp only [mgmtRead, mgmtReadAt, hnow, Bool.not_false, if_true, Bool.false_eq_true, if_false, ite_self]
    rw [hread]
    exact sameButSignals_settle _
  · exact ⟨_, exec_mgmtWrite_down hdown, nodeOnly_mk _ _, rfl⟩
  · rw [mgmtRead_broken (s := { s with node := atInstant s t }) hup hbroken]
    obtain ⟨hregs, htls, hq⟩ := tlsClose_frame (atInstant s t) path
    exact ⟨htls, ((hq path).2).trans (if_pos rfl), hregs, fun q hne => ⟨(hq q).1 hne, ((hq q).2).trans (if_neg hne)⟩⟩
  · have hnow : mgmtUp (atInstant s t) path = true := hup
    have hread : mgmtRead { s with node := atInstant s t } path { off := off } = emit (atInstant s t) (.mgmt path 2 0) := by
      rw [mgmtRead_valid]
      simp only [mgmtReadAt, hnow, mgmtStatus_of_none (n := atInstant s t) hnone, Bool.not_true, Bool.false_eq_true, if_false]
    rw [hread]
    exact ⟨rfl, List.mem_append_left _ (List.mem_append_right _ (List.mem_singleton_self _))⟩
  · have hnow : mgmtUp (begin_ s.node t) path = true := hup
    have hstatus : mgmtStatus (begin_ s.node t) path off (opensWrite off v) = 2 := hopens ▸ mgmtStatus_of_none (n := begin_ s.node t) hnone off
    refine ⟨{ s with node := emit (begin_ s.node t) (.mgmt path 2 0) }, ?_, nodeOnly_mk _ _, rfl,
      List.mem_append_right _ (List.mem_singleton_self _)⟩
    change Host.Outcome.next (mgmtWrite _ _ _ _) = _
    simp only [mgmtWrite, hnow, hstatus, Bool.not_true, Bool.false_eq_true, if_false, if_true]
  · have hnow : mgmtUp (atInstant s t) path = true := hup
    obtain ⟨outs, -, heq⟩ := badAccessNode_eq (atInstant s t) false false off
    have hread : mgmtRead { s with node := atInstant s t } path { off := off } =
        emit { badAccessNode (atInstant s t) false false off with outs := [] } (.mgmt path 1 0xFFFFFFFF) := by
      rw [mgmtRead_valid]
      have hstatus : mgmtStatus (atInstant s t) path off false = 1 := (mgmtStatus_of_session hsome off false).trans (if_pos h4)
      simp only [mgmtReadAt, hnow, hstatus, Bool.not_true, Bool.false_eq_true, if_false]
      rfl
    rw [hread, heq]
    exact ⟨List.mem_append_left _ (List.mem_append_right _ (List.mem_singleton_self _)), rfl, rfl⟩
  · have hnow : mgmtUp (atInstant s t) path = true := hup
    have hread : mgmtRead { s with node := atInstant s t } path { off := off } = emit (afterRead { s with node := atInstant s t } path off)
        (.mgmt path 0 (readWord { s with node := atInstant s t } path off)) := by
      rw [mgmtRead_valid]
      have hstatus : mgmtStatus (atInstant s t) path off false = 0 :=
        (mgmtStatus_of_session hsome off false).trans (if_neg (not_not_intro h4))
      simp only [mgmtReadAt, hnow, hstatus, Bool.not_true, Bool.false_eq_true, if_false]
    rw [hread]
    obtain ⟨hregs, hheaders, hseqs⟩ := afterRead_rest { s with node := atInstant s t } path off
    generalize afterRead { s with node := atInstant s t } path off = m at hregs hheaders hseqs
    exact ⟨List.mem_append_left _ (List.mem_append_right _ (List.mem_singleton_self _)), hregs, hheaders, hseqs⟩

/-- Settles O17: both paths share the effect of a write; requests are judged by the connection, the session and the offset. -/
theorem registerWritesOnEveryPath : Obligations.RegisterWritesOnEveryPath :=
  ⟨writes_on_every_path, requests_of_connections⟩

end Sys2Proof.Machine
end

section
/-! PROOF. A lane's watchdog, self-tests and scrubbing, the limits of degraded time, and the way back of a lane (11 R254, R260 to R269). -/

namespace Sys2Proof.Machine

/-! Events on the node -/

/-- An event that finds nothing to do leaves the node, signals apart. -/
theorem acts_same {c : Instr} {s : State} {t : Nat} {f : Node → Node} (hc : exec c s = .next (onNode s t f))
    (h : f (atInstant s t) = atInstant s t) : Acts c s t (fun n u => SameButSignals u n) :=
  acts_onNode hc (by rw [h]; exact sameButSignals_settle _)

/-- An event that leaves a node m leaves, once the interrupts have settled, what differs from m in signals alone. -/
theorem acts_of_eq {c : Instr} {s : State} {t : Nat} {f : Node → Node} {m : Node} {P : Node → Node → Prop}
    (hc : exec c s = .next (onNode s t f)) (hm : f (atInstant s t) = m) (h : P (atInstant s t) (settle m)) : Acts c s t P :=
  acts_onNode hc (by rw [hm]; exact h)

/-! One lane -/

theorem laneOf_modLane_self (n : Node) (l : Nat) (f : Lane → Lane) : laneOf (modLane n l f) l = f (laneOf n l) :=
  tget_tmod_self _ _ _ _

theorem laneOf_modLane_ne (n : Node) {l k : Nat} (f : Lane → Lane) (h : k ≠ l) : laneOf (modLane n l f) k = laneOf n k :=
  tget_tmod_ne _ _ _ h

/-- u differs from n, signals apart, in lane l, which is x, and in the interrupts that wait for RESULT_READY, which are D. -/
structure OnLane (n u : Node) (l : Nat) (x : Lane) (D : List (Nat × Nat)) : Prop where
  rest : SameButSignals u { n with lanes := u.lanes, dueR := D }
  others : ∀ k, k ≠ l → laneOf u k = laneOf n k
  lane : laneOf u l = x

theorem onLane_modLane (n : Node) (l : Nat) (f : Lane → Lane) : OnLane n (modLane n l f) l (f (laneOf n l)) n.dueR :=
  ⟨rfl, fun _ hk => laneOf_modLane_ne n f hk, laneOf_modLane_self n l f⟩

theorem onLane_refl (n : Node) (l : Nat) : OnLane n n l (laneOf n l) n.dueR := ⟨rfl, fun _ _ => rfl, rfl⟩

theorem OnLane.modLane {n u : Node} {l : Nat} {x : Lane} {D : List (Nat × Nat)} (h : OnLane n u l x D) (f : Lane → Lane) :
    OnLane n (Machine.modLane u l f) l (f x) D := by
  obtain ⟨rest, others, lane⟩ := h
  refine ⟨?_, fun k hk => (laneOf_modLane_ne u f hk).trans (others k hk), (laneOf_modLane_self u l f).trans (congrArg f lane)⟩
  generalize hL : (Machine.modLane u l f).lanes = L
  have hmod : Machine.modLane u l f = { u with lanes := L } := by rw [← hL]; rfl
  rw [hmod]
  rw [SameButSignals] at rest ⊢
  rw [rest]

theorem OnLane.raiseR {n u : Node} {l : Nat} {x : Lane} {D : List (Nat × Nat)} (h : OnLane n u l x D) (p b : Nat) :
    OnLane n (Machine.raiseR u p b) l x (D ++ [(p, b)]) := by
  obtain ⟨rest, others, lane⟩ := h
  have hdue : u.dueR = D := by rw [rest]
  refine ⟨?_, others, lane⟩
  rw [Machine.raiseR, hdue]
  rw [SameButSignals] at rest ⊢
  rw [rest]

theorem OnLane.settle {n u : Node} {l : Nat} {x : Lane} {D : List (Nat × Nat)} (h : OnLane n u l x D) :
    OnLane n (Machine.settle u) l x D :=
  ⟨SameButSignals.trans (sameButSignals_settle u) h.rest, h.others, h.lane⟩

/-- An event on one lane acts as it leaves the lane. -/
theorem acts_onLane {c : Instr} {s : State} {t l : Nat} {f : Node → Node} {x : Lane} {D : List (Nat × Nat)}
    {P : Node → Node → Prop} (hc : exec c s = .next (onNode s t f))
    (hf : OnLane (atInstant s t) (f (atInstant s t)) l x D) (h : ∀ u, OnLane (atInstant s t) u l x D → P (atInstant s t) u) :
    Acts c s t P :=
  acts_onNode hc (h _ hf.settle)

theorem exchanges_iff (n : Node) (l : Nat) : exchanges n l = true ↔ (laneOf n l).phase = 0 ∨ (laneOf n l).phase = 5 := by
  simp [exchanges]

/-- A lane that asks for its exclusion: the lower cause stays, and a lane in reset or OUT asks for none (11 R254). -/
def asked (cause : Nat) (x : Lane) : Lane :=
  if x.phase = 1 ∨ x.phase = 6 then x
  else { x with request := some (match x.request with | some c => min c cause | none => cause) }

theorem asked_of_active {x : Lane} (h1 : x.phase ≠ 1) (h6 : x.phase ≠ 6) {cause : Nat} (hc : cause ≤ 16) :
    asked cause x = { x with request := some (min (x.request.getD 16) cause) } := by
  rw [asked, if_neg (by simp [h1, h6])]
  cases hx : x.request with
  | none => simp [hc]
  | some c => rfl

theorem asked_of_reset {x : Lane} (h : x.phase = 1 ∨ x.phase = 6) (cause : Nat) : asked cause x = x := if_pos h

theorem asked_rest (x : Lane) (cause : Nat) : asked cause x = { x with request := (asked cause x).request } := by
  unfold asked
  split <;> rfl

theorem OnLane.requestExclusion {n u : Node} {l : Nat} {x : Lane} {D : List (Nat × Nat)} (h : OnLane n u l x D) (cause : Nat) :
    OnLane n (Machine.requestExclusion u l cause) l (asked cause x) D := by
  have hx := h.lane
  unfold Machine.requestExclusion asked
  rw [hx]
  by_cases hp : x.phase = 1 ∨ x.phase = 6
  · simp only [hp, if_true]
    exact h
  · simp only [hp, if_false]
    exact h.modLane _

/-! The watchdog and the self-tests (11 R254, R262, R268) -/

/-- A lane that exchanges has sent no message for 2 F or 10 ms (11 R262). -/
def silent (n : Node) (x : Lane) : Bool :=
  match x.lastMsg with
  | some a => decide (a + max (2 * n.period) 10000000 ≤ n.now)
  | none => true

theorem laneWatchdog_eq (n : Node) (l : Nat) : laneWatchdog n l =
    if l < 3 ∧ exchanges n l = true ∧ silent n (laneOf n l) = true then modLane n l (fun x => { x with wdog := true }) else n := rfl

theorem silent_of {n : Node} {x : Lane} (h : ∀ a, x.lastMsg = some a → a + max (2 * n.period) 10000000 ≤ n.now) :
    silent n x = true := by
  unfold silent
  cases hx : x.lastMsg with
  | none => rfl
  | some a => exact decide_eq_true (h a hx)

theorem not_silent_of {n : Node} {x : Lane} {a : Nat} (ha : x.lastMsg = some a) (h : n.now < a + max (2 * n.period) 10000000) :
    silent n x = false := by
  unfold silent
  rw [ha]
  exact decide_eq_false (by omega)

theorem acts_laneWatchdog {t l : Nat} {s : State} (hl : l < 3)
    (hx : (laneOf s.node l).phase = 0 ∨ (laneOf s.node l).phase = 5)
    (hlate : ∀ a, (laneOf s.node l).lastMsg = some a → a + max (2 * s.node.period) 10000000 ≤ max s.node.now t) :
    Acts (.laneWatchdog t l) s t (fun n u => SameButSignals u { n with lanes := u.lanes } ∧
      laneOf u l = { laneOf n l with wdog := true } ∧ ∀ k, k ≠ l → laneOf u k = laneOf n k) := by
  refine acts_onLane (f := fun n => laneWatchdog n l) rfl ?_ (fun u hu => ⟨hu.rest, hu.lane, hu.others⟩)
  rw [laneWatchdog_eq, if_pos ⟨hl, (exchanges_iff _ _).2 hx, silent_of hlate⟩]
  exact onLane_modLane _ _ _

theorem acts_laneWatchdog_heard {t l a : Nat} {s : State} (ha : (laneOf s.node l).lastMsg = some a)
    (h : max s.node.now t < a + max (2 * s.node.period) 10000000) :
    Acts (.laneWatchdog t l) s t (fun n u => SameButSignals u n) := by
  refine acts_same (f := fun n => laneWatchdog n l) rfl ?_
  rw [laneWatchdog_eq, if_neg]
  rintro ⟨-, -, hs⟩
  exact Bool.false_ne_true ((not_silent_of ha h).symm.trans hs)

theorem acts_laneWatchdog_other {t l : Nat} {s : State} (h : (laneOf s.node l).phase ≠ 0 ∧ (laneOf s.node l).phase ≠ 5) :
    Acts (.laneWatchdog t l) s t (fun n u => SameButSignals u n) := by
  refine acts_same (f := fun n => laneWatchdog n l) rfl ?_
  rw [laneWatchdog_eq, if_neg]
  rintro ⟨-, hx, -⟩
  exact ((exchanges_iff _ _).1 hx).elim h.1 h.2

/-- A self-test that fails leaves its lane counted and asking for its exclusion. -/
theorem onLane_selfFault (n : Node) {l : Nat} (hl : l < 3) (cause : Nat) :
    OnLane n (selfFault n l cause) l
      (asked (if cause = 4 then 4 else 6)
        { laneOf n l with ue := if cause = 4 then min 255 ((laneOf n l).ue + 1) else (laneOf n l).ue })
      (if cause = 4 then n.dueR ++ [(3, 8)] else n.dueR) := by
  rw [selfFault, if_neg (by omega)]
  split
  · exact ((onLane_modLane n l _).requestExclusion 4).raiseR 3 8
  · exact (onLane_refl n l).requestExclusion 6

theorem acts_selfFault {t l cause : Nat} {s : State} (hl : l < 3) (h1 : (laneOf s.node l).phase ≠ 1)
    (h6 : (laneOf s.node l).phase ≠ 6) : Acts (.laneSelfFault t l cause) s t (fun n u =>
      SameButSignals u { n with lanes := u.lanes, dueR := u.dueR } ∧ (∀ k, k ≠ l → laneOf u k = laneOf n k) ∧
      (laneOf u l).request = some (min ((laneOf n l).request.getD 16) (if cause = 4 then 4 else 6)) ∧
      (laneOf u l).ue = (if cause = 4 then min 255 ((laneOf n l).ue + 1) else (laneOf n l).ue) ∧
      u.dueR = (if cause = 4 then n.dueR ++ [(3, 8)] else n.dueR)) := by
  refine acts_onLane (f := fun n => selfFault n l cause) rfl (onLane_selfFault _ hl cause) (fun u hu => ?_)
  obtain ⟨rest, others, lane⟩ := hu
  rw [asked_of_active (by exact h1) (by exact h6) (by split <;> omega)] at lane
  have hdue : u.dueR = _ := congrArg Node.dueR rest
  refine ⟨?_, others, by rw [lane], by rw [lane], hdue⟩
  rw [hdue]
  exact rest

theorem acts_selfFault_reset {t l cause : Nat} {s : State} (hl : l < 3)
    (hr : (laneOf s.node l).phase = 1 ∨ (laneOf s.node l).phase = 6) : Acts (.laneSelfFault t l cause) s t (fun n u =>
      SameButSignals u { n with lanes := u.lanes, dueR := u.dueR } ∧
      (laneOf u l).request = (laneOf n l).request ∧ ∀ k, k ≠ l → laneOf u k = laneOf n k) := by
  refine acts_onLane (f := fun n => selfFault n l cause) rfl (onLane_selfFault _ hl cause) (fun u hu => ?_)
  obtain ⟨rest, others, lane⟩ := hu
  rw [asked_of_reset (by exact hr)] at lane
  have hdue : u.dueR = _ := congrArg Node.dueR rest
  refine ⟨?_, by rw [lane], others⟩
  rw [hdue]
  exact rest

/-! Scrubbing (11 R269) -/

/-- What a pass counts on its lane. -/
def scrubbed (words : List Nat) (ue : Nat) (hard : Bool) (x : Lane) : Lane :=
  { x with ce := sat 65535 (x.ce + words.length), ue := sat 255 (x.ue + ue), pass := (x.pass + 1) % 256, scrub1 := words,
           scrub2 := x.scrub1, hard := x.hard || hard }

/-- A word was corrected in this pass and in the two before it. -/
def hardWord (words : List Nat) (x : Lane) : Bool := words.any (fun w => x.scrub1.contains w && x.scrub2.contains w)

theorem hardWord_iff (words : List Nat) (x : Lane) :
    hardWord words x = true ↔ ∃ w, w ∈ words ∧ w ∈ x.scrub1 ∧ w ∈ x.scrub2 := by
  simp [hardWord]

/-- The lane after a pass: counted, and asking for its exclusion where the pass found a fault. -/
def afterScrub (words : List Nat) (ue : Nat) (tablesOk hard : Bool) (x : Lane) : Lane :=
  let y := scrubbed words ue hard x
  let z := if 0 < ue then asked 4 y else y
  if tablesOk && !hard then z else asked 6 z

theorem onLane_scrubPass (n : Node) {l : Nat} (hl : l < 3) (words : List Nat) (ue : Nat) (tablesOk : Bool) :
    OnLane n (scrubPass n l words ue tablesOk) l (afterScrub words ue tablesOk (hardWord words (laneOf n l)) (laneOf n l))
      (if 0 < ue then n.dueR ++ [(3, 8)] else n.dueR) := by
  have counted := onLane_modLane n l (scrubbed words ue (hardWord words (laneOf n l)))
  have found : OnLane n (if 0 < ue then
        raiseR (requestExclusion (modLane n l (scrubbed words ue (hardWord words (laneOf n l)))) l 4) 3 8
      else modLane n l (scrubbed words ue (hardWord words (laneOf n l)))) l
      (if 0 < ue then asked 4 (scrubbed words ue (hardWord words (laneOf n l)) (laneOf n l))
        else scrubbed words ue (hardWord words (laneOf n l)) (laneOf n l))
      (if 0 < ue then n.dueR ++ [(3, 8)] else n.dueR) := by
    by_cases hu : 0 < ue
    · simp only [hu, if_true]
      exact (counted.requestExclusion 4).raiseR 3 8
    · simp only [hu, if_false]
      exact counted
  have heff : scrubPass n l words ue tablesOk =
      if (tablesOk && !hardWord words (laneOf n l)) = true then
        if 0 < ue then raiseR (requestExclusion (modLane n l (scrubbed words ue (hardWord words (laneOf n l)))) l 4) 3 8
        else modLane n l (scrubbed words ue (hardWord words (laneOf n l)))
      else requestExclusion (if 0 < ue then
          raiseR (requestExclusion (modLane n l (scrubbed words ue (hardWord words (laneOf n l)))) l 4) 3 8
        else modLane n l (scrubbed words ue (hardWord words (laneOf n l)))) l 6 := by
    rw [scrubPass, if_neg (by omega)]
    rfl
  rw [heff]
  unfold afterScrub
  by_cases hk : (tablesOk && !hardWord words (laneOf n l)) = true
  · simp only [if_pos hk]
    exact found
  · simp only [if_neg hk]
    exact found.requestExclusion 6

theorem afterScrub_rest (words : List Nat) (ue : Nat) (tablesOk hard : Bool) (x : Lane) :
    afterScrub words ue tablesOk hard x =
      { scrubbed words ue hard x with request := (afterScrub words ue tablesOk hard x).request } := by
  have first : ∀ y : Lane, (if 0 < ue then asked 4 y else y) = { y with request := (if 0 < ue then asked 4 y else y).request } := by
    intro y
    split
    · exact asked_rest y 4
    · rfl
  unfold afterScrub
  dsimp only
  split
  · exact first _
  · rw [asked_rest, first]

theorem acts_scrubPass (t ue : Nat) {l : Nat} (words : List Nat) (tablesOk : Bool) (s : State) (hl : l < 3) :
    let hard := ∃ w, w ∈ words ∧ w ∈ (laneOf s.node l).scrub1 ∧ w ∈ (laneOf s.node l).scrub2
    Acts (.scrubPass t l words ue tablesOk) s t (fun n u =>
      SameButSignals u { n with lanes := u.lanes, dueR := u.dueR } ∧ (∀ k, k ≠ l → laneOf u k = laneOf n k) ∧
      (laneOf u l).ce = min 65535 ((laneOf n l).ce + words.length) ∧
      (laneOf u l).ue = min 255 ((laneOf n l).ue + ue) ∧ (laneOf u l).pass = ((laneOf n l).pass + 1) % 256 ∧
      (laneOf u l).scrub1 = words ∧ (laneOf u l).scrub2 = (laneOf n l).scrub1 ∧
      ((laneOf u l).hard = true ↔ (laneOf n l).hard = true ∨ hard) ∧
      u.dueR = (if 0 < ue then n.dueR ++ [(3, 8)] else n.dueR) ∧
      (ue = 0 → tablesOk = true → ¬ hard → (laneOf u l).request = (laneOf n l).request) ∧
      ((laneOf n l).phase ≠ 1 → (laneOf n l).phase ≠ 6 →
        (0 < ue → (laneOf u l).request = some (min ((laneOf n l).request.getD 16) 4)) ∧
        (ue = 0 → tablesOk = false ∨ hard → (laneOf u l).request = some (min ((laneOf n l).request.getD 16) 6)))) := by
  intro hard
  refine acts_onLane (f := fun n => scrubPass n l words ue tablesOk) rfl (onLane_scrubPass _ hl words ue tablesOk) (fun u hu => ?_)
  obtain ⟨rest, others, lane⟩ := hu
  have hdue : u.dueR = _ := congrArg Node.dueR rest
  have hhard : hardWord words (laneOf (atInstant s t) l) = true ↔ hard := hardWord_iff _ _
  have lane' := lane.trans (afterScrub_rest _ _ _ _ _)
  refine ⟨?_, others, by rw [lane']; rfl, by rw [lane']; rfl, by rw [lane']; rfl, by rw [lane']; rfl, by rw [lane']; rfl, ?_, hdue,
    ?_, ?_⟩
  · rw [hdue]
    exact rest
  · rw [lane', ← hhard]
    simp [scrubbed]
  · intro h0 htables hnot
    have hno : hardWord words (laneOf (atInstant s t) l) = false := by
      simpa using mt hhard.1 hnot
    rw [lane, h0, htables, hno]
    rfl
  · intro h1 h6
    have active : ∀ {c} (y : Lane) (h : Bool), c ≤ 16 → y.phase = (laneOf (atInstant s t) l).phase → asked c (scrubbed words ue h y) =
        { scrubbed words ue h y with request := some (min (y.request.getD 16) c) } := fun y h hc hy =>
      asked_of_active (by rw [show (scrubbed words ue h y).phase = y.phase from rfl, hy]; exact h1)
        (by rw [show (scrubbed words ue h y).phase = y.phase from rfl, hy]; exact h6) hc
    refine ⟨fun h0 => ?_, fun h0 hbad => ?_⟩
    · rw [lane]
      unfold afterScrub
      simp only [h0, if_true, active _ _ (by decide : 4 ≤ 16) rfl]
      split
      · rfl
      · rw [asked_of_active (by exact h1) (by exact h6) (by decide)]
        simp only [Option.getD_some, Option.some.injEq]
        omega
    · have hk : (tablesOk && !hardWord words (laneOf (atInstant s t) l)) = false := by
        rcases hbad with h | h
        · rw [h]; rfl
        · rw [hhard.2 h]; simp
      rw [lane]
      unfold afterScrub
      have hnot : ¬ 0 < ue := by omega
      simp only [hk, hnot, if_false, Bool.false_eq_true, active _ _ (by decide : 6 ≤ 16) rfl]

/-! Degraded time (11 R260) -/

theorem acts_degLimitExpire {t : Nat} {s : State} (hexp : s.node.laneSt.degExp = false)
    (hst : s.node.laneSt.state = 1 ∨ s.node.laneSt.state = 2)
    (hdue : fld (reg s.node (at_ 3 0x50)) 9 0 * 3600000000000 ≤ s.node.laneSt.degNs) : Acts (.degLimitExpire t) s t (fun n u =>
      SameButSignals u { n with laneSt := { n.laneSt with degExp := true }, dueR := n.dueR ++ [(3, 5)] }) := by
  have hreach : degReached (atInstant s t) = raiseR (modLaneSt (atInstant s t) (fun s => { s with degExp := true })) 3 5 := by
    have hst' : (atInstant s t).laneSt.state = 1 ∨ (atInstant s t).laneSt.state = 2 := hst
    have hmode : (lanesDual (atInstant s t) || lanesSingle (atInstant s t)) = true := by simpa [lanesDual, lanesSingle] using hst'
    have hlim : degLimit (atInstant s t) ≤ (atInstant s t).laneSt.degNs := hdue
    have hnew : (atInstant s t).laneSt.degExp = false := hexp
    simp only [degReached, hnew, hmode, hlim, decide_true, Bool.not_false, Bool.and_true, if_true]
  exact acts_of_eq rfl hreach rfl

theorem acts_degLimitExpire_before {t : Nat} {s : State}
    (h : s.node.laneSt.degNs < fld (reg s.node (at_ 3 0x50)) 9 0 * 3600000000000 ∨ s.node.laneSt.state = 0) :
    Acts (.degLimitExpire t) s t (fun n u => SameButSignals u n) := by
  refine acts_same rfl ?_
  rw [degReached, if_neg]
  intro hc
  simp only [Bool.and_eq_true, Bool.or_eq_true, decide_eq_true_eq] at hc
  obtain ⟨⟨-, hmode⟩, hlim⟩ := hc
  rcases h with h | h
  · exact absurd (show fld (reg s.node (at_ 3 0x50)) 9 0 * 3600000000000 ≤ s.node.laneSt.degNs from hlim) (by omega)
  · have h0 : (atInstant s t).laneSt.state = 0 := h
    simp [lanesDual, lanesSingle, h0] at hmode

theorem degReset_eq {n : Node} {a : Nat} (ha : n.laneSt.tmrSince = some a) (h0 : n.laneSt.state = 0) : degReset n =
    if a + 3600000000000 ≤ n.now then modLaneSt n (fun s => { s with degNs := 0 }) else n := by
  have hmode : lanesTmr n = true := decide_eq_true h0
  simp only [degReset, ha, hmode, Bool.true_and, decide_eq_true_eq]

theorem degReset_of_degraded {n : Node} (h0 : n.laneSt.state ≠ 0) : degReset n = n := by
  have hmode : lanesTmr n = false := decide_eq_false h0
  unfold degReset
  split <;> simp only [hmode, Bool.false_and, Bool.false_eq_true, if_false]

/-- Settles O21. -/
theorem lanesWatchThemselves : Obligations.LanesWatchThemselves := by
  refine ⟨fun t l cause ue words tablesOk s hl => ⟨fun hx => ⟨acts_laneWatchdog hl hx, fun a ha h => acts_laneWatchdog_heard ha h⟩,
    acts_laneWatchdog_other, acts_selfFault hl, acts_selfFault_reset hl, acts_scrubPass t ue words tablesOk s hl⟩, fun t s =>
    ⟨acts_degLimitExpire, acts_degLimitExpire_before, fun a h0 ha => ⟨fun h => ?_, fun h => ?_⟩, fun h0 => ?_⟩⟩
  · exact acts_of_eq rfl ((degReset_eq (n := atInstant s t) ha h0).trans (if_pos h)) rfl
  · exact acts_same rfl ((degReset_eq (n := atInstant s t) ha h0).trans (if_neg (Nat.not_le.2 h)))
  · exact acts_same rfl (degReset_of_degraded h0)

end Sys2Proof.Machine
end

section
/-! PROOF. The way back of a lane, and where it fails (11 R262 to R266, R269). -/

namespace Sys2Proof.Machine

/-! What a record leaves, as an event shows it -/

theorem recFrame_noteLane (n : Node) (r : Rec) : RecFrame n (noteLane n r) := recFrame_note _ _

theorem recFrame_ite {c : Prop} [Decidable c] {n a b : Node} (ha : RecFrame n a) (hb : RecFrame n b) :
    RecFrame n (if c then a else b) := pred_ite ha hb

/-- What differs from n in what records may change differs so after the interrupts have settled. -/
theorem sameButRecords_settle {n m : Node} (h : RecFrame n m) : SameButRecords (settle m) n := by
  obtain ⟨r, l, hd, d, q, rfl, hh⟩ := h
  exact ⟨rfl, hh⟩

/-! A change of phase -/

@[simp] theorem laneOf_settle (n : Node) (l : Nat) : laneOf (settle n) l = laneOf n l := rfl
@[simp] theorem laneOf_resolveCmd (n : Node) (p : Nat) (r : Option Bool) (l : Nat) : laneOf (resolveCmd n p r) l = laneOf n l := rfl
@[simp] theorem laneOf_modLaneSt (n : Node) (f : LaneSt → LaneSt) (l : Nat) : laneOf (modLaneSt n f) l = laneOf n l := rfl
@[simp] theorem laneOf_raiseR (n : Node) (p b l : Nat) : laneOf (raiseR n p b) l = laneOf n l := rfl
@[simp] theorem laneOf_raiseRIf (c : Bool) (n : Node) (p b l : Nat) : laneOf (raiseRIf c n p b) l = laneOf n l := by
  unfold raiseRIf
  split <;> rfl

theorem setPhase_of_ne {n : Node} {l p : Nat} (h : (laneOf n l).phase ≠ p) :
    ∃ m, RecFrame n m ∧ setPhase n l p = modLane m l (fun x => { x with phase := p, since := m.now }) :=
  ⟨_, recFrame_noteLane _ _, by rw [setPhase, if_neg h]⟩

theorem laneOf_recFrame {n m : Node} (h : RecFrame n m) (l : Nat) : laneOf m l = laneOf n l := by
  obtain ⟨r, lg, hd, d, q, rfl, -⟩ := h
  rfl

/-- Records, and then a change of lanes alone. -/
theorem sameButRecords_modLane {n m : Node} (h : RecFrame n m) (l : Nat) (f : Lane → Lane) :
    SameButRecords (settle (modLane m l f)) { n with lanes := (settle (modLane m l f)).lanes } := by
  obtain ⟨r, lg, hd, d, q, rfl, hh⟩ := h
  exact ⟨rfl, hh⟩

theorem acts_laneResetEnd {t l : Nat} {s : State} (hl : l < 3) (hp : (laneOf s.node l).phase = 1) (hst : s.node.laneSt.state < 3)
    (hdue : (laneOf s.node l).since + 1000000 ≤ max s.node.now t) : Acts (.laneResetEnd t l) s t (fun n u =>
      SameButRecords u { n with lanes := u.lanes } ∧ laneOf u l = { laneOf n l with phase := 2, since := n.now } ∧
      ∀ k, k ≠ l → laneOf u k = laneOf n k) := by
  have hp' : (laneOf (atInstant s t) l).phase = 1 := hp
  obtain ⟨m, hm, heff⟩ := setPhase_of_ne (n := atInstant s t) (l := l) (p := 2) (by omega)
  have hnone : lanesNone (atInstant s t) = false := decide_eq_false (by have : (atInstant s t).laneSt.state < 3 := hst; omega)
  have hend : laneResetEnd (atInstant s t) l = modLane m l (fun x => { x with phase := 2, since := m.now }) := by
    rw [laneResetEnd, if_pos ⟨hl, hp', by rw [hnone]; rfl, hdue⟩, heff]
  have hnow : m.now = (atInstant s t).now := by
    obtain ⟨r, lg, hd, d, q, rfl, -⟩ := hm
    rfl
  refine acts_of_eq rfl hend ⟨sameButRecords_modLane hm l _, ?_, fun k hk => ?_⟩
  · rw [laneOf_settle, laneOf_modLane_self, laneOf_recFrame hm, hnow]
  · rw [laneOf_settle, laneOf_modLane_ne m _ hk, laneOf_recFrame hm k]

theorem laneResetEnd_of_not {n : Node} {l : Nat}
    (h : (laneOf n l).phase ≠ 1 ∨ n.laneSt.state = 3 ∨ n.now < (laneOf n l).since + 1000000) : laneResetEnd n l = n := by
  rw [laneResetEnd, if_neg]
  rintro ⟨-, hp, hst, hdue⟩
  rcases h with h | h | h
  · exact h hp
  · simp [lanesNone, h] at hst
  · omega

/-! Exclusion (11 R262, R263) -/

theorem endHostExclude_rest (n : Node) (l : Nat) (ok : Bool) :
    endHostExclude n l ok = { n with lanes := (endHostExclude n l ok).lanes, cmds := (endHostExclude n l ok).cmds } := by
  unfold endHostExclude
  split <;> rfl

theorem laneOf_endHostExclude (n : Node) (l : Nat) (ok : Bool) (k : Nat) :
    laneOf (endHostExclude n l ok) k = laneOf n k ∨
      (k = l ∧ laneOf (endHostExclude n l ok) k = { laneOf n l with host := none }) := by
  unfold endHostExclude
  split
  · by_cases hk : k = l
    · subst hk
      exact Or.inr ⟨rfl, by rw [laneOf_resolveCmd, laneOf_modLane_self]⟩
    · exact Or.inl (by rw [laneOf_resolveCmd, laneOf_modLane_ne n _ hk])
  · exact Or.inl rfl

/-- The attempts within the hour that an exclusion leaves, a failed one among them (11 R266). -/
def attemptsAfter (n : Node) (l cause : Nat) : List Nat :=
  if [10, 11, 12].contains cause then recentAttempts n l ++ [n.now] else recentAttempts n l

/-- An exclusion puts the lane OUT. -/
def excludedOut (n : Node) (l cause : Nat) : Bool := [10, 11, 12].contains cause && decide (3 ≤ (attemptsAfter n l cause).length)

/-- The records of an exclusion (11 R263). -/
def excludeNotes (n : Node) (l cause : Nat) : Node :=
  let x := laneOf n l
  let phase := if excludedOut n l cause then 6 else 1
  let place := match n.laneSt.diff with
    | some (d, a, e) => if cause = 1 ∧ d = l then (a, e) else (0, 0)
    | none => (0, 0)
  let n' := noteLane n (recLane n 2 l x.phase phase cause place.1 place.2)
  let n'' := if x.phase = phase then n' else noteLane n' (recLane n' 3 l x.phase phase cause 0 0)
  if excludedOut n l cause then noteLane n'' (recLane n'' 5 l x.phase 6 cause 0 0) else n''

theorem recFrame_excludeNotes (n : Node) (l cause : Nat) : RecFrame n (excludeNotes n l cause) := by
  have more : ∀ {c : Prop} [Decidable c] (m : Node) (r : Rec), RecFrame n m → RecFrame n (if c then noteLane m r else m) :=
    fun m r h => recFrame_ite (recFrame_trans h (recFrame_noteLane m r)) h
  have more' : ∀ {c : Prop} [Decidable c] (m : Node) (r : Rec), RecFrame n m → RecFrame n (if c then m else noteLane m r) :=
    fun m r h => recFrame_ite h (recFrame_trans h (recFrame_noteLane m r))
  exact more _ _ (more' _ _ (recFrame_noteLane n _))

theorem excludeLane_steps (n : Node) (l cause : Nat) :
    let k := endHostExclude n l (decide (cause = 9))
    let m := excludeNotes k l cause
    excludeLane n l cause = raiseRIf (excludedOut k l cause) (raiseR (modLaneSt
      (modLane m l (resetLane m.now (if excludedOut k l cause then 6 else 1) cause (attemptsAfter k l cause)))
      (fun s => { s with
        excl := sat 65535 (s.excl + 1)
        exclT := taiNow (modLane m l (resetLane m.now (if excludedOut k l cause then 6 else 1) cause (attemptsAfter k l cause))) }))
        3 1) 3 3 := rfl

/-- An exclusion, records apart: the lane is in reset or OUT, and it counts. -/
theorem excludeLane_eq (n : Node) (l cause : Nat) : ∃ m,
    RecFrame (endHostExclude n l (decide (cause = 9))) m ∧
    excludeLane n l cause = raiseRIf (excludedOut n l cause) (raiseR (modLaneSt
      (modLane m l (resetLane n.now (if excludedOut n l cause then 6 else 1) cause (attemptsAfter n l cause)))
      (fun s => { s with excl := sat 65535 (s.excl + 1), exclT := taiNow n })) 3 1) 3 3 := by
  have hnow : (endHostExclude n l (decide (cause = 9))).now = n.now := by rw [endHostExclude_rest]
  have hrecent : recentAttempts (endHostExclude n l (decide (cause = 9))) l = recentAttempts n l := by
    have hatt : (laneOf (endHostExclude n l (decide (cause = 9))) l).attempts = (laneOf n l).attempts := by
      rcases laneOf_endHostExclude n l (decide (cause = 9)) l with h | ⟨-, h⟩ <;> rw [h]
    rw [recentAttempts, recentAttempts, hnow, hatt]
  have hafter : attemptsAfter (endHostExclude n l (decide (cause = 9))) l cause = attemptsAfter n l cause := by
    rw [attemptsAfter, attemptsAfter, hrecent, hnow]
  have hout : excludedOut (endHostExclude n l (decide (cause = 9))) l cause = excludedOut n l cause := by
    rw [excludedOut, excludedOut, hafter]
  have htai : taiNow (endHostExclude n l (decide (cause = 9))) = taiNow n := by rw [endHostExclude_rest]; rfl
  have hnotes := recFrame_excludeNotes (endHostExclude n l (decide (cause = 9))) l cause
  refine ⟨_, hnotes, ?_⟩
  rw [excludeLane_steps, ← hout, ← hafter, ← htai, ← hnow]
  generalize excludeNotes (endHostExclude n l (decide (cause = 9))) l cause = m at *
  obtain ⟨r, lg, hd, d, q, rfl, -⟩ := hnotes
  rfl

theorem excludedOut_eq (n : Node) (l cause : Nat) (h : cause = 11 ∨ cause = 12) : excludedOut n l cause =
    decide (2 ≤ ((laneOf n l).attempts.filter (fun a => decide (n.now < a + 3600000000000))).length) := by
  have hc : [10, 11, 12].contains cause = true := by rcases h with rfl | rfl <;> rfl
  rw [excludedOut, attemptsAfter, hc, if_pos rfl, Bool.true_and, List.length_append, List.length_singleton, recentAttempts]
  exact decide_eq_decide.2 (by omega)

/-- A lane whose way back has failed. -/
theorem acts_excluded {c : Instr} {s : State} {t l cause : Nat} (h : cause = 11 ∨ cause = 12)
    (hc : exec c s = .next { s with node := settle (excludeLane (atInstant s t) l cause) }) : Acts c s t (fun n u =>
      SameButRecords u { n with lanes := u.lanes, laneSt := u.laneSt, dueR := u.dueR, cmds := u.cmds } ∧
      (laneOf u l).cause = cause ∧
      (laneOf u l).phase =
        (if 2 ≤ ((laneOf n l).attempts.filter (fun a => decide (n.now < a + 3600000000000))).length then 6 else 1) ∧
      u.laneSt.excl = min 65535 (n.laneSt.excl + 1) ∧ ∀ k, k ≠ l → laneOf u k = laneOf n k) := by
  obtain ⟨m, hm, heff⟩ := excludeLane_eq (atInstant s t) l cause
  have hlanes : ∀ k, laneOf m k = laneOf (endHostExclude (atInstant s t) l (decide (cause = 9))) k := laneOf_recFrame hm
  refine ⟨_, hc, nodeOnly_mk s _, ?_, ?_, ?_, ?_, fun k hk => ?_⟩
  · rw [heff]
    obtain ⟨r, lg, hd, d, q, rfl, hh⟩ := hm
    rw [endHostExclude_rest] at hh ⊢
    unfold raiseRIf
    split <;> exact ⟨rfl, hh⟩
  · rw [heff]
    simp only [laneOf_settle, laneOf_raiseRIf, laneOf_raiseR, laneOf_modLaneSt, laneOf_modLane_self]
    rfl
  · rw [heff]
    simp only [laneOf_settle, laneOf_raiseRIf, laneOf_raiseR, laneOf_modLaneSt, laneOf_modLane_self]
    simp only [resetLane, excludedOut_eq _ _ _ h, decide_eq_true_eq]
  · rw [heff]
    have hst : m.laneSt = (atInstant s t).laneSt := by
      obtain ⟨r, lg, hd, d, q, rfl, hh⟩ := hm
      rw [endHostExclude_rest]
    unfold raiseRIf
    split <;> exact congrArg (fun x => min 65535 (LaneSt.excl x + 1)) hst
  · rw [heff]
    simp only [laneOf_settle, laneOf_raiseRIf, laneOf_raiseR, laneOf_modLaneSt, laneOf_modLane_ne _ _ hk, hlanes]
    exact (laneOf_endHostExclude _ _ _ _).resolve_right (fun h => hk h.1)

/-! The self-test and the transfer (11 R263, R264, R269) -/

theorem selftestDone_failed {n : Node} {l : Nat} {ok : Bool} (hl : l < 3) (hp : (laneOf n l).phase = 2) (ht : (laneOf n l).tested = false)
    (hf : ok = false ∨ (laneOf n l).hard = true ∨ (laneOf n l).since + 200000000 < n.now) :
    selftestDone n l ok = excludeLane n l 11 := by
  rw [selftestDone, if_neg (by simp [hp, ht, hl]), if_pos (by simpa using hf)]

theorem selftestDone_of_other {n : Node} {l : Nat} (h : (laneOf n l).phase ≠ 2 ∨ (laneOf n l).tested = true) (ok : Bool) :
    selftestDone n l ok = n := by
  rw [selftestDone, if_pos (Or.inr h)]

theorem transferTimeout_due {n : Node} {l : Nat} (hl : l < 3) (hp : (laneOf n l).phase = 4)
    (hdue : (laneOf n l).sliceAt + 96 * n.period ≤ n.now) : transferTimeout n l = excludeLane n l 12 := by
  rw [transferTimeout, if_pos ⟨hl, hp, hdue⟩]

theorem transferTimeout_of_not {n : Node} {l : Nat}
    (h : (laneOf n l).phase ≠ 4 ∨ n.now < (laneOf n l).sliceAt + 96 * n.period) : transferTimeout n l = n := by
  rw [transferTimeout, if_neg]
  rintro ⟨-, hp, hdue⟩
  rcases h with h | h
  · exact h hp
  · omega

theorem loadLane_rest (n : Node) (l : Nat) : loadLane n l = { n with tb := (loadLane n l).tb } := rfl

theorem rejoining_congr {n m : Node} (h : ∀ l, (laneOf m l).phase = (laneOf n l).phase) : rejoining m = rejoining n := by
  simp only [rejoining, h]

/-- The lane whose self-test has passed. -/
def tested (n : Node) (l : Nat) : Node := modLane (loadLane n l) l (fun x => { x with tested := true })

theorem laneOf_tested_self (n : Node) (l : Nat) : laneOf (tested n l) l = { laneOf n l with tested := true } :=
  laneOf_modLane_self (loadLane n l) l _

theorem laneOf_tested_ne (n : Node) {l k : Nat} (h : k ≠ l) : laneOf (tested n l) k = laneOf n k :=
  laneOf_modLane_ne (loadLane n l) _ h

theorem rejoining_tested (n : Node) (l : Nat) : rejoining (tested n l) = rejoining n := by
  refine rejoining_congr (fun k => ?_)
  by_cases hk : k = l
  · subst hk
    rw [laneOf_tested_self]
  · rw [laneOf_tested_ne n hk]

theorem selftestDone_passed {n : Node} {l : Nat} (hl : l < 3) (hp : (laneOf n l).phase = 2) (ht : (laneOf n l).tested = false)
    (hh : (laneOf n l).hard = false) (hin : n.now ≤ (laneOf n l).since + 200000000) :
    selftestDone n l true = if (rejoining n).isSome then setPhase (tested n l) l 3 else tested n l := by
  rw [selftestDone, if_neg (by simp [hp, ht, hl]), if_neg (by simp [hh, hin])]
  rw [← rejoining_tested n l]
  rfl

theorem acts_selftestDone {t l : Nat} {s : State} (hl : l < 3) (hp : (laneOf s.node l).phase = 2)
    (ht : (laneOf s.node l).tested = false) (hh : (laneOf s.node l).hard = false)
    (hin : max s.node.now t ≤ (laneOf s.node l).since + 200000000) : Acts (.laneSelftestDone t l true) s t (fun n u =>
      SameButRecords u { n with lanes := u.lanes, tb := u.tb } ∧ u.tb = (loadLane n l).tb ∧ (laneOf u l).tested = true ∧
      (laneOf u l).phase = (if (rejoining n).isSome then 3 else 2) ∧ ∀ k, k ≠ l → laneOf u k = laneOf n k) := by
  have hpass := selftestDone_passed (n := atInstant s t) hl hp ht hh hin
  have hphase : (laneOf (tested (atInstant s t) l) l).phase = 2 := by rw [laneOf_tested_self]; exact hp
  by_cases hr : (rejoining (atInstant s t)).isSome = true
  · rw [if_pos hr] at hpass
    obtain ⟨m, hm, heff⟩ := setPhase_of_ne (n := tested (atInstant s t) l) (l := l) (p := 3) (by omega)
    have hlane := laneOf_recFrame hm
    have hframe : ∃ L, tested (atInstant s t) l = { loadLane (atInstant s t) l with lanes := L } := ⟨_, rfl⟩
    refine acts_of_eq rfl (hpass.trans heff) ⟨?_, ?_, ?_, ?_, fun k hk => ?_⟩
    · obtain ⟨r, lg, hd, d, q, rfl, hh⟩ := hm
      exact ⟨rfl, hh⟩
    · obtain ⟨r, lg, hd, d, q, rfl, hh⟩ := hm
      rfl
    · rw [laneOf_settle, laneOf_modLane_self, hlane, laneOf_tested_self]
    · rw [laneOf_settle, laneOf_modLane_self, if_pos hr]
    · rw [laneOf_settle, laneOf_modLane_ne m _ hk, hlane, laneOf_tested_ne _ hk]
  · rw [if_neg hr] at hpass
    refine acts_of_eq rfl hpass ⟨⟨rfl, fun p _ => rfl⟩, rfl, ?_, ?_, fun k hk => ?_⟩
    · rw [laneOf_settle, laneOf_tested_self]
    · rw [laneOf_settle, hphase, if_neg hr]
    · rw [laneOf_settle, laneOf_tested_ne _ hk]

/-- Settles O22. -/
theorem lanesReturn : Obligations.LanesReturn := by
  refine fun t l s hl => ⟨acts_laneResetEnd hl, fun h => ?_, acts_selftestDone hl, fun e ok hf => ?_, fun h => ?_, fun h ok => ?_⟩
  · exact acts_same (f := fun n => laneResetEnd n l) rfl (laneResetEnd_of_not h)
  · cases e with
    | true =>
      obtain ⟨hp, ht, hf⟩ := hf
      refine acts_excluded (Or.inl rfl) ?_
      exact congrArg (fun m => Host.Outcome.next { s with node := settle m }) (selftestDone_failed (n := atInstant s t) hl hp ht hf)
    | false =>
      obtain ⟨hp, hdue⟩ := hf
      refine acts_excluded (Or.inr rfl) ?_
      exact congrArg (fun m => Host.Outcome.next { s with node := settle m }) (transferTimeout_due (n := atInstant s t) hl hp hdue)
  · exact acts_same (f := fun n => transferTimeout n l) rfl (transferTimeout_of_not h)
  · exact acts_same (f := fun n => selftestDone n l ok) rfl (selftestDone_of_other (n := atInstant s t) h ok)

end Sys2Proof.Machine
end

section
/-! PROOF. The rules of the time base: what a measurement and a change of source leave (03 R64 to R73). -/

namespace Sys2Proof.Machine

/-! A record withdraws no interrupt that waits (15 R351) -/

theorem prefix_of_eq {α : Type} {a b : List α} (h : b = a) : a <+: b := by rw [h]

theorem dueB_discardRec (n : Node) (r : Rec) : n.dueB <+: (discardRec n r).dueB := by
  have hif : ∀ (c : Bool) (m : Node), (raiseIf c m 6 3).dueB = m.dueB := fun c m => by unfold raiseIf; split <;> rfl
  unfold discardRec
  cases r.cap with
  | none => exact prefix_of_eq (hif _ _)
  | some d =>
    refine pred_ite (P := fun m : Node => n.dueB <+: m.dueB) ?_ (prefix_of_eq (hif _ _))
    have hmore : ∀ (m : Node) (f : Capture → Capture), m.dueB <+: (raiseB (modCap m d f) 6 1).dueB := fun m f =>
      List.prefix_append m.dueB [(6, 1)]
    refine List.IsPrefix.trans ?_ (hmore _ _)
    exact prefix_of_eq (hif _ _)

theorem dueB_finishClear (n : Node) (q : Option Nat) (r : Rec) : (finishClear n q r).dueB = n.dueB := by
  unfold finishClear
  split
  · rfl
  · cases q <;> rfl

theorem dueB_sureOf (n : Node) (q : Nat) : (sureOf n q).dueB = n.dueB := by unfold sureOf; split <;> rfl

theorem dueB_afterStage (n : Node) (q : Nat) (r : Rec) : (afterStage n q r).dueB = n.dueB := by
  unfold afterStage
  cases r.logSlot <;> cases r.cap <;> rfl

theorem dueB_stageRec (n : Node) (vote : Nat) (r : Rec) : n.dueB <+: (stageRec n vote r).dueB := by
  unfold stageRec
  split
  · exact List.prefix_rfl
  · split
    · rw [dueB_finishClear]
      exact dueB_discardRec n r
    · rw [dueB_finishClear, dueB_afterStage]
      exact prefix_of_eq (dueB_sureOf _ _)

theorem dueB_note (n : Node) (r : Rec) : n.dueB <+: (note n r).dueB := by
  unfold note
  split
  · exact List.prefix_rfl
  · split
    · exact dueB_stageRec n 3 r
    · exact List.prefix_rfl

/-! What a measurement leaves -/

/-- From n to m the phase of time is kept, and so are the frame, what each source has measured, what names the next second, the
SYNC messages that wait for their FOLLOW, and the interrupts that wait: what a use of an offset changes is the discipline alone. -/
structure KeepsPhase (n m : Node) : Prop where
  tai : taiNow m = taiNow n
  now : m.now = n.now
  frame : m.frame = n.frame
  sources : m.tb = { m.tb with
    ptp := n.tb.ptp, can := n.tb.can, pps := n.tb.pps, partner := n.tb.partner, tod := n.tb.tod, todFresh := n.tb.todFresh,
    canMaster := n.tb.canMaster, syncs := n.tb.syncs, senders := n.tb.senders, ptpPorts := n.tb.ptpPorts, sent := n.tb.sent,
    ckFail := n.tb.ckFail, ptpMaster := n.tb.ptpMaster }
  due : n.dueB <+: m.dueB

theorem KeepsPhase.refl (n : Node) : KeepsPhase n n := ⟨rfl, rfl, rfl, rfl, List.prefix_rfl⟩

theorem KeepsPhase.trans {a b c : Node} (h : KeepsPhase a b) (k : KeepsPhase b c) : KeepsPhase a c := by
  refine ⟨k.tai.trans h.tai, k.now.trans h.now, k.frame.trans h.frame, ?_, h.due.trans k.due⟩
  have hs := h.sources
  have ks := k.sources
  rw [hs] at ks
  exact ks

theorem KeepsPhase.ptp {n m : Node} (h : KeepsPhase n m) : m.tb.ptp = n.tb.ptp := by
  have k := congrArg TimeBase.ptp h.sources
  exact k

theorem KeepsPhase.can {n m : Node} (h : KeepsPhase n m) : m.tb.can = n.tb.can := by
  have k := congrArg TimeBase.can h.sources
  exact k

theorem KeepsPhase.pps {n m : Node} (h : KeepsPhase n m) : m.tb.pps = n.tb.pps := by
  have k := congrArg TimeBase.pps h.sources
  exact k

theorem KeepsPhase.partner {n m : Node} (h : KeepsPhase n m) : m.tb.partner = n.tb.partner := by
  have k := congrArg TimeBase.partner h.sources
  exact k

theorem KeepsPhase.tod {n m : Node} (h : KeepsPhase n m) : m.tb.tod = n.tb.tod := by
  have k := congrArg TimeBase.tod h.sources
  exact k

theorem KeepsPhase.todFresh {n m : Node} (h : KeepsPhase n m) : m.tb.todFresh = n.tb.todFresh := by
  have k := congrArg TimeBase.todFresh h.sources
  exact k

theorem KeepsPhase.canMaster {n m : Node} (h : KeepsPhase n m) : m.tb.canMaster = n.tb.canMaster := by
  have k := congrArg TimeBase.canMaster h.sources
  exact k

theorem KeepsPhase.syncs {n m : Node} (h : KeepsPhase n m) : m.tb.syncs = n.tb.syncs := by
  have k := congrArg TimeBase.syncs h.sources
  exact k

theorem KeepsPhase.sent {n m : Node} (h : KeepsPhase n m) : m.tb.sent = n.tb.sent := by
  have k := congrArg TimeBase.sent h.sources
  exact k

theorem KeepsPhase.ckFail {n m : Node} (h : KeepsPhase n m) : m.tb.ckFail = n.tb.ckFail := by
  have k := congrArg TimeBase.ckFail h.sources
  exact k

theorem KeepsPhase.ptpMaster {n m : Node} (h : KeepsPhase n m) : m.tb.ptpMaster = n.tb.ptpMaster := by
  have k := congrArg TimeBase.ptpMaster h.sources
  exact k

theorem taiNow_of_recFrame {n m : Node} (h : RecFrame n m) : taiNow m = taiNow n := by
  obtain ⟨r, l, hd, d, q, rfl, -⟩ := h
  rfl

theorem keepsPhase_note (n : Node) (r : Rec) : KeepsPhase n (note n r) :=
  ⟨taiNow_of_recFrame (recFrame_note n r), note_now n r, note_frame n r, by rw [note_tb], dueB_note n r⟩

theorem keepsPhase_raiseB (n : Node) (p b : Nat) : KeepsPhase n (raiseB n p b) :=
  ⟨rfl, rfl, rfl, rfl, List.prefix_append _ _⟩

theorem slewPart_zero {n : Node} (h : n.slewBy = 0) (t : Nat) : slewPart n t = 0 := by simp [slewPart, h]

theorem taiNow_endRamp (n : Node) : taiNow (endRamp n) = taiNow n := by
  have h0 : slewPart (endRamp n) n.now = 0 := slewPart_zero rfl _
  have hoff : (endRamp n).taiOff = n.taiOff + slewPart n n.now := rfl
  have hnow : (endRamp n).now = n.now := rfl
  simp only [taiNow, taiAt, hnow, hoff, h0, Int.add_zero, Int.add_assoc]

/-- A change of the discipline alone. -/
theorem keepsPhase_modTb (n : Node) {f : TimeBase → TimeBase} (hf : ∀ t, f t = { f t with
    ptp := t.ptp, can := t.can, pps := t.pps, partner := t.partner, tod := t.tod, todFresh := t.todFresh, canMaster := t.canMaster,
    syncs := t.syncs, senders := t.senders, ptpPorts := t.ptpPorts, sent := t.sent, ckFail := t.ckFail, ptpMaster := t.ptpMaster }) :
    KeepsPhase n (modTb n f) := ⟨rfl, rfl, rfl, hf n.tb, List.prefix_rfl⟩

theorem keepsPhase_endRamp (n : Node) : KeepsPhase n (endRamp n) := ⟨taiNow_endRamp n, rfl, rfl, rfl, List.prefix_rfl⟩

theorem keepsPhase_drawn (n : Node) : KeepsPhase n (drawn n) := ⟨rfl, rfl, rfl, rfl, List.prefix_rfl⟩

theorem keepsPhase_stopSlew (n : Node) : KeepsPhase n (stopSlew n) :=
  (keepsPhase_endRamp n).trans (keepsPhase_modTb _ fun _ => rfl)

theorem keepsPhase_takeFreq (n : Node) : KeepsPhase n (takeFreq n) :=
  (keepsPhase_modTb n fun _ => rfl).trans (keepsPhase_drawn _)

theorem keepsPhase_startSlew (n : Node) (off : Int) : KeepsPhase n (startSlew n off) := by
  unfold startSlew
  exact keepsPhase_modTb n fun _ => rfl

theorem keepsPhase_enterLocked (n : Node) (s : TimeSrc) : KeepsPhase n (enterLocked n s) := by
  unfold enterLocked
  split
  · exact keepsPhase_modTb n fun _ => rfl
  · exact ((keepsPhase_modTb n fun _ => rfl).trans (keepsPhase_note _ _)).trans (keepsPhase_raiseB _ _ _)

theorem keepsPhase_setFar (n : Node) (off : Int) : KeepsPhase n (setFar n off) :=
  ((keepsPhase_modTb n fun _ => rfl).trans (keepsPhase_note _ _)).trans (keepsPhase_raiseB _ _ _)

/-! The use of an offset (03 R65, R70, R71) -/

/-- The node with an offset measured and a frequency taken from it. -/
def measured (n : Node) (off : Int) : Node := takeFreq (modTb n (fun t => { t with offset := satI off }))

theorem keepsPhase_measured (n : Node) (off : Int) : KeepsPhase n (measured n off) :=
  (keepsPhase_modTb n fun _ => rfl).trans (keepsPhase_takeFreq _)

/-- An offset within STEP_THR ends TIME_FAR and a step that waits. -/
def settledOffset (n : Node) (off : Int) : Node := modTb (measured n off) (fun t => { t with timeFar := none, stepPend := none })

theorem useOffset_within {n : Node} {off : Int} (h : off.natAbs ≤ stepThr n) (s : TimeSrc) :
    useOffset n s off = startSlew (enterLocked (settledOffset n off) s) off := if_pos h

theorem useOffset_far_in_run {n : Node} {off : Int} (h : stepThr n < off.natAbs) (hr : isRun n = true) (s : TimeSrc) :
    useOffset n s off = if n.tb.timeFar.isSome then modTb (stopSlew (measured n off)) (fun t => { t with timeFar := some off })
      else setFar (stopSlew (measured n off)) off :=
  (if_neg (Nat.not_le.2 h)).trans (if_pos hr)

theorem useOffset_far_outside_run {n : Node} {off : Int} (h : stepThr n < off.natAbs) (hr : isRun n = false) (s : TimeSrc) :
    useOffset n s off = modTb (stopSlew (measured n off)) (fun t => { t with stepPend := some off }) :=
  (if_neg (Nat.not_le.2 h)).trans (if_neg (Bool.eq_false_iff.1 hr))

/-- A large offset in RUN: pending for the host. -/
theorem useOffset_cases (n : Node) (s : TimeSrc) (off : Int) {P : Node → Prop}
    (within : off.natAbs ≤ stepThr n → P (startSlew (enterLocked (settledOffset n off) s) off))
    (far : stepThr n < off.natAbs → isRun n = true → n.tb.timeFar.isSome = true →
      P (modTb (stopSlew (measured n off)) (fun t => { t with timeFar := some off })))
    (farNow : stepThr n < off.natAbs → isRun n = true → n.tb.timeFar = none → P (setFar (stopSlew (measured n off)) off))
    (wait : stepThr n < off.natAbs → isRun n = false →
      P (modTb (stopSlew (measured n off)) (fun t => { t with stepPend := some off }))) : P (useOffset n s off) := by
  by_cases h : off.natAbs ≤ stepThr n
  · rw [useOffset_within h]
    exact within h
  · have h := Nat.not_le.1 h
    cases hr : isRun n with
    | true =>
      rw [useOffset_far_in_run h hr]
      cases hf : n.tb.timeFar with
      | none => exact farNow h hr hf
      | some x => exact far h hr (by rw [hf]; rfl)
    | false =>
      rw [useOffset_far_outside_run h hr]
      exact wait h hr

theorem keepsPhase_useOffset (n : Node) (s : TimeSrc) (off : Int) : KeepsPhase n (useOffset n s off) := by
  have stopped := (keepsPhase_measured n off).trans (keepsPhase_stopSlew _)
  refine useOffset_cases n s off (fun _ => ?_) (fun _ _ _ => ?_) (fun _ _ _ => ?_) (fun _ _ => ?_)
  · exact (((keepsPhase_measured n off).trans (keepsPhase_modTb _ fun _ => rfl)).trans (keepsPhase_enterLocked _ s)).trans
      (keepsPhase_startSlew _ off)
  · exact stopped.trans (keepsPhase_modTb _ fun _ => rfl)
  · exact stopped.trans (keepsPhase_setFar _ off)
  · exact stopped.trans (keepsPhase_modTb _ fun _ => rfl)

theorem sel_enterLocked (n : Node) (s : TimeSrc) : (enterLocked n s).tb.sel = n.tb.sel := by
  unfold enterLocked
  split
  · rfl
  · simp only [raiseB_tb, note_tb]
    rfl

theorem sel_setFar (n : Node) (off : Int) : (setFar n off).tb.sel = n.tb.sel := by
  simp only [setFar, raiseB_tb, note_tb]
  rfl

/-- The use of an offset keeps the selection. -/
theorem sel_useOffset (n : Node) (s : TimeSrc) (off : Int) : (useOffset n s off).tb.sel = n.tb.sel := by
  refine useOffset_cases (P := fun m => m.tb.sel = n.tb.sel) n s off (fun _ => ?_) (fun _ _ _ => ?_) (fun _ _ _ => ?_) (fun _ _ => ?_)
  · exact sel_enterLocked (settledOffset n off) s
  · rfl
  · exact sel_setFar (stopSlew (measured n off)) off
  · rfl

/-! The change of a source -/

/-- A source becomes the selected one, before its offset is used. -/
def selected (n : Node) (s : TimeSrc) : Node :=
  let m := modTb n (fun t => { t with
    sel := some s, port := (sourceOf n s).port, state := if n.tb.state = .free then .acquiring else n.tb.state })
  raiseB (note m (recTime m 2 (bytesI 8 m.tb.offset) 0 m.period)) 1 2

theorem selectSource_eq (n : Node) (s : TimeSrc) : selectSource n s = useOffset (selected n s) s (sourceOf n s).offset := rfl

theorem keepsPhase_selected (n : Node) (s : TimeSrc) : KeepsPhase n (selected n s) :=
  ((keepsPhase_modTb n fun _ => rfl).trans (keepsPhase_note _ _)).trans (keepsPhase_raiseB _ _ _)

theorem keepsPhase_selectSource (n : Node) (s : TimeSrc) : KeepsPhase n (selectSource n s) :=
  (keepsPhase_selected n s).trans (keepsPhase_useOffset _ s _)

theorem sel_selectSource (n : Node) (s : TimeSrc) : (selectSource n s).tb.sel = some s := by
  rw [selectSource_eq, sel_useOffset]
  simp only [selected, raiseB_tb, note_tb]
  rfl

theorem due_selectSource (n : Node) (s : TimeSrc) : (1, 2) ∈ (selectSource n s).dueB := by
  rw [selectSource_eq]
  refine (keepsPhase_useOffset _ _ _).due.subset ?_
  exact List.mem_append_right _ List.mem_cons_self

theorem afterMeasure_selected {n : Node} {s : TimeSrc} (h : n.tb.sel = some s) : afterMeasure n s =
    useOffset (modTb n (fun t => { t with port := (sourceOf n s).port })) s (sourceOf n s).offset := if_pos h

theorem keepsPhase_afterMeasure (n : Node) (s : TimeSrc) : KeepsPhase n (afterMeasure n s) := by
  unfold afterMeasure
  split
  · exact (keepsPhase_modTb n fun _ => rfl).trans (keepsPhase_useOffset _ _ _)
  · split
    · exact keepsPhase_selectSource _ _
    · exact KeepsPhase.refl n

/-- A source that qualifies. -/
theorem qualify_sources (n : Node) (s : TimeSrc) :
    qualify n s = modSource n s (fun x => { x with
      qualified := true, since := (if x.qualified then x.since else n.now) }) := by
  unfold qualify
  congr 1
  funext x
  cases hx : x.qualified
  · rfl
  · obtain ⟨⟩ := x
    simp_all

end Sys2Proof.Machine
end

section
/-! PROOF. PTP exchanges, the PPS input and the ZDA sentence (03 R61, R63, R66, R70, R71, R84). -/

namespace Sys2Proof.Machine

/-! The use of an offset, as it shows (03 R65, R70, R71) -/

theorem state_enterLocked (n : Node) (s : TimeSrc) : (enterLocked n s).tb.state = .locked := by
  unfold enterLocked
  split
  · assumption
  · simp only [raiseB_tb, note_tb]
    rfl

/-- A lock keeps the slew, and a TIME_FAR that has ended stays so. -/
theorem enterLocked_keeps (n : Node) (s : TimeSrc) : (enterLocked n s).tb.slew = n.tb.slew ∧ (enterLocked n s).slewBy = n.slewBy ∧
    (n.tb.timeFar = none → (enterLocked n s).tb.timeFar = none) ∧ (enterLocked n s).tb.stepPend = n.tb.stepPend ∧
    slewPart (enterLocked n s) (enterLocked n s).now = slewPart n n.now := by
  unfold enterLocked
  split
  · exact ⟨rfl, rfl, id, rfl, rfl⟩
  · generalize hm : modTb n (fun t => { t with
      state := .locked, lockedSince := some n.now, holdSince := none, estErr := some (srcAccuracy s), timeFar := none }) = m
    have hrec := recFrame_note m (recTime m 1 (bytesI 8 m.tb.offset) 0 m.period)
    dsimp only
    generalize note m (recTime m 1 (bytesI 8 m.tb.offset) 0 m.period) = k at *
    obtain ⟨r, l, hd, d, q, rfl, -⟩ := hrec
    subst hm
    exact ⟨rfl, rfl, fun _ => rfl, rfl, rfl⟩

/-- From n to m the time base and the free values drawn change, and nothing else. -/
def OnTb (n m : Node) : Prop := ∃ tb k, m = { n with tb := tb, free := k }

theorem OnTb.trans {a b c : Node} (h : OnTb a b) (k : OnTb b c) : OnTb a c := by
  obtain ⟨tb, i, rfl⟩ := h
  obtain ⟨tb', i', rfl⟩ := k
  exact ⟨tb', i', rfl⟩

theorem onTb_modTb (n : Node) (f : TimeBase → TimeBase) : OnTb n (modTb n f) := ⟨_, _, rfl⟩

theorem onTb_drawn (n : Node) : OnTb n (drawn n) := ⟨_, _, rfl⟩

theorem onTb_takeFreq (n : Node) : OnTb n (takeFreq n) := (onTb_modTb n _).trans (onTb_drawn _)

theorem onTb_settledOffset (n : Node) (off : Int) : OnTb n (settledOffset n off) :=
  ((onTb_modTb n _).trans (onTb_takeFreq _)).trans (onTb_modTb _ _)

/-- An offset within STEP_THR is slewed in LOCKED (03 R65, R70). -/
theorem useOffset_slews {n : Node} {off : Int} (h : off.natAbs ≤ stepThr n) (s : TimeSrc) :
    (useOffset n s off).tb.state = .locked ∧ (useOffset n s off).tb.slew = off - (n.slewBy - slewPart n n.now) ∧
    (useOffset n s off).tb.timeFar = none ∧ (useOffset n s off).tb.stepPend = none := by
  rw [useOffset_within h]
  obtain ⟨-, hby, hfar, hstep, hpart⟩ := enterLocked_keeps (settledOffset n off) s
  refine ⟨state_enterLocked _ s, ?_, hfar rfl, hstep⟩
  change off - ((enterLocked (settledOffset n off) s).slewBy - slewPart (enterLocked (settledOffset n off) s)
    (enterLocked (settledOffset n off) s).now) = _
  have hsame : (settledOffset n off).slewBy = n.slewBy ∧
      slewPart (settledOffset n off) (settledOffset n off).now = slewPart n n.now := by
    obtain ⟨tb, k, hk⟩ := onTb_settledOffset n off
    rw [hk]
    exact ⟨rfl, rfl⟩
  rw [hby, hpart, hsame.1, hsame.2]

theorem setFar_keeps (n : Node) (off : Int) : (setFar n off).tb.slew = n.tb.slew ∧ (setFar n off).slewBy = n.slewBy ∧
    (setFar n off).tb.timeFar = some off ∧ (setFar n off).tb.stepPend = n.tb.stepPend ∧ (setFar n off).tb.state = .acquiring ∧
    (1, 4) ∈ (setFar n off).dueB := by
  have htb : (setFar n off).tb = { n.tb with timeFar := some off, state := .acquiring } := by
    simp only [setFar, raiseB_tb, note_tb]
    rfl
  have hby : (setFar n off).slewBy = n.slewBy := by
    simp only [setFar, raiseB_slewBy, note_slewBy]
    rfl
  rw [htb]
  exact ⟨rfl, hby, rfl, rfl, rfl, List.mem_append_right _ List.mem_cons_self⟩

/-- A larger offset keeps the phase: no slew goes on (03 R71). -/
theorem useOffset_far_stops {n : Node} {off : Int} (h : stepThr n < off.natAbs) (s : TimeSrc) :
    (useOffset n s off).tb.slew = 0 ∧ (useOffset n s off).slewBy = 0 := by
  have hn := Nat.not_le.2 h
  refine useOffset_cases (P := fun m => m.tb.slew = 0 ∧ m.slewBy = 0) n s off (fun hw => absurd hw hn) (fun _ _ _ => ⟨rfl, rfl⟩)
    (fun _ _ _ => ?_) (fun _ _ => ⟨rfl, rfl⟩)
  obtain ⟨hslew, hby, -⟩ := setFar_keeps (stopSlew (measured n off)) off
  exact ⟨hslew, hby⟩

/-- In RUN it is pending for the host. -/
theorem useOffset_far_run {n : Node} {off : Int} (h : stepThr n < off.natAbs) (hr : isRun n = true) (s : TimeSrc) :
    (useOffset n s off).tb.timeFar = some off ∧ (useOffset n s off).tb.stepPend = n.tb.stepPend ∧
    (n.tb.timeFar = none → (useOffset n s off).tb.state = .acquiring ∧ (1, 4) ∈ (useOffset n s off).dueB) := by
  rw [useOffset_far_in_run h hr]
  cases hf : n.tb.timeFar with
  | some x => exact ⟨rfl, rfl, fun h => nomatch h⟩
  | none =>
    obtain ⟨-, -, hfar, hstep, hstate, hdue⟩ := setFar_keeps (stopSlew (measured n off)) off
    exact ⟨hfar, hstep, fun _ => ⟨hstate, hdue⟩⟩

theorem useOffset_far_wait {n : Node} {off : Int} (h : stepThr n < off.natAbs) (hr : isRun n = false) (s : TimeSrc) :
    (useOffset n s off).tb.stepPend = some off := by
  rw [useOffset_far_outside_run h hr]
  rfl

/-! PTP (03 R61, R66, R84) -/

theorem ptpTaken_iff (n : Node) (x : PtpExchange) : ptpTaken n x = true ↔ n.tb.ckFail = none ∧ ptpSelected n x := by
  simp [ptpTaken, ptpSelected, ptpRuns, nbit, and_assoc]

theorem ptpExchange_of_not {n : Node} {x : PtpExchange} (h : n.tb.ckFail.isSome = true ∨ ¬ ptpSelected n x) : ptpExchange n x = n := by
  have hno : ptpTaken n x = false := by
    rw [Bool.eq_false_iff]
    intro ht
    obtain ⟨hck, hsel⟩ := (ptpTaken_iff n x).1 ht
    rcases h with h | h
    · rw [hck] at h; exact absurd h (by decide)
    · exact h hsel
  simp only [ptpExchange, hno, Bool.not_false, if_true]

theorem ptpExchange_own {n : Node} {x : PtpExchange} (ht : ptpTaken n x = true) (ho : x.bmcaOwn = true) :
    ptpExchange n x = if timeHolder n && bit (reg n (at_ 1 0x68)) 16 then ptpAdvertise (hearMaster n x) x.port
      else modTb (hearMaster n x) (fun t => { t with ptpMaster := false }) := by
  simp only [ptpExchange, ht, ho, Bool.not_true, Bool.false_eq_true, if_false, if_true]
  rfl

/-- What a port hears of its master. -/
def heardMaster (n : Node) (x : PtpExchange) (m : Option PtpPort) : PtpPort :=
  { ds := x.ds, syncAt := n.now, annAt := match m with | some y => if x.announce then n.now else y.annAt | none => n.now }

theorem ptpPorts_hearMaster (n : Node) (x : PtpExchange) : (hearMaster n x).tb.ptpPorts =
    tmod none n.tb.ptpPorts x.port (fun m => if x.bmcaOwn then none else some (heardMaster n x m)) := rfl

theorem ptpPorts_hearMaster_self (n : Node) {x : PtpExchange} (ho : x.bmcaOwn = false) :
    tget none (hearMaster n x).tb.ptpPorts x.port = some (heardMaster n x (tget none n.tb.ptpPorts x.port)) := by
  rw [ptpPorts_hearMaster, tget_tmod_self]
  simp only [ho, Bool.false_eq_true, if_false]

theorem ptpPorts_hearMaster_ne (n : Node) (x : PtpExchange) {p : Nat} (hp : p ≠ x.port) :
    tget none (hearMaster n x).tb.ptpPorts p = tget none n.tb.ptpPorts p := by
  rw [ptpPorts_hearMaster, tget_tmod_ne _ _ _ hp]

theorem acts_ptpMessage_own {t : Nat} {x : PtpExchange} {s : State} (hck : s.node.tb.ckFail = none) (hsel : ptpSelected s.node x)
    (ho : x.bmcaOwn = true) : Acts (.ptpMessage t x) s t (fun n u =>
      let may := timeHolder n && bit (reg n (at_ 1 0x68)) 16
      SameButSignals u { n with tb := { n.tb with ptpPorts := u.tb.ptpPorts, ptpMaster := may } } ∧
      tget none u.tb.ptpPorts x.port = none ∧
      (may = true → ∃ a, Out.ptp x.port a ∈ u.outs ∧ a.clockClass = 248 ∧ a.prio1 = fld (reg n (at_ 1 0x6C)) 31 24)) := by
  have ht : ptpTaken (atInstant s t) x = true := (ptpTaken_iff _ _).2 ⟨hck, hsel⟩
  have hports : tget none (hearMaster (atInstant s t) x).tb.ptpPorts x.port = none := by
    rw [ptpPorts_hearMaster, tget_tmod_self]
    simp only [ho, if_true]
  have heff := ptpExchange_own ht ho
  cases hm : (timeHolder (atInstant s t) && bit (reg (atInstant s t) (at_ 1 0x68)) 16) with
  | true =>
    rw [hm] at heff
    refine acts_of_eq rfl heff ?_
    dsimp only
    rw [hm]
    refine ⟨rfl, hports, fun _ => ⟨_, List.mem_append_left _ (List.mem_append_right _ List.mem_cons_self), rfl, rfl⟩⟩
  | false =>
    rw [hm] at heff
    refine acts_of_eq rfl heff ?_
    dsimp only
    rw [hm]
    exact ⟨rfl, hports, fun h => nomatch h⟩

/-- The ports heard, with their data sets, of which the best master clock algorithm takes the least. -/
def heardPort (n : Node) (p : Nat) : Option (Nat × Nat) :=
  match tget none n.tb.ptpPorts p with
  | some m => if ptpRuns n p && masterHeard n m then some (m.ds, p) else none
  | none => none

/-- The better of two, as the algorithm of `bestPort` compares. -/
def betterPort (a : Option (Nat × Nat)) (e : Nat × Nat) : Option (Nat × Nat) :=
  match a with
  | none => some e
  | some b => if e.1 < b.1 then some e else some b

theorem bestPort_eq (n : Node) : bestPort n = ((((List.range 4).filterMap (heardPort n)).foldl betterPort none).map Prod.snd) := rfl

/-- The fold keeps an entry that is strictly below every other. -/
theorem foldl_betterPort_of_least {e : Nat × Nat} {l : List (Nat × Nat)} (hmem : e ∈ l) (hleast : ∀ b, b ∈ l → b = e ∨ e.1 < b.1) :
    ∀ a, (a = some e ∨ a = none ∨ ∃ b, a = some b ∧ e.1 < b.1) → l.foldl betterPort a = some e := by
  have keep : ∀ l : List (Nat × Nat), (∀ b, b ∈ l → b = e ∨ e.1 < b.1) → l.foldl betterPort (some e) = some e := by
    intro l
    induction l with
    | nil => intro _; rfl
    | cons b r ih =>
      intro hl
      have hb : betterPort (some e) b = some e := by
        rcases hl b List.mem_cons_self with rfl | hlt
        · simp [betterPort]
        · simp only [betterPort, Nat.not_lt.2 (Nat.le_of_lt hlt), if_false]
      rw [List.foldl_cons, hb]
      exact ih (fun b hb => hl b (List.mem_cons_of_mem _ hb))
  induction l with
  | nil => exact absurd hmem List.not_mem_nil
  | cons b r ih =>
    intro a ha
    have hr : ∀ c, c ∈ r → c = e ∨ e.1 < c.1 := fun c hc => hleast c (List.mem_cons_of_mem _ hc)
    rw [List.foldl_cons]
    rcases hleast b List.mem_cons_self with rfl | hlt
    · have hb : betterPort a b = some b := by
        rcases ha with rfl | rfl | ⟨c, rfl, hc⟩
        · simp [betterPort]
        · rfl
        · simp only [betterPort, hc, if_true]
      rw [hb]
      exact keep r hr
    · have hmem' : e ∈ r := by
        rcases List.mem_cons.1 hmem with rfl | h
        · exact absurd hlt (lt_irrefl _)
        · exact h
      refine ih hmem' hr _ ?_
      rcases ha with rfl | rfl | ⟨c, rfl, hc⟩
      · exact Or.inl (by simp only [betterPort, Nat.not_lt.2 (Nat.le_of_lt hlt), if_false])
      · exact Or.inr (Or.inr ⟨b, rfl, hlt⟩)
      · refine Or.inr (Or.inr ?_)
        unfold betterPort
        dsimp only
        split
        · exact ⟨b, rfl, hlt⟩
        · exact ⟨c, rfl, hc⟩

theorem port_lt_of_selected {n : Node} {x : PtpExchange} (h : ptpSelected n x) : x.port < 4 := by
  obtain ⟨hp, -⟩ := h
  by_contra hge
  have hlt : fld (reg n (at_ 1 0x6C)) 11 8 < 2 ^ x.port := by
    have h1 : fld (reg n (at_ 1 0x6C)) 11 8 < 2 ^ 4 := Nat.mod_lt _ (by decide)
    exact Nat.lt_of_lt_of_le h1 (Nat.pow_le_pow_right (by decide) (by omega))
  rw [Nat.testBit_lt_two_pow hlt] at hp
  exact absurd hp (by decide)

theorem bestPort_of_wins {n : Node} {x : PtpExchange} (hsel : ptpSelected n x) (ho : x.bmcaOwn = false)
    (hwin : ∀ p m, p ≠ x.port → p < 4 → (fld (reg n (at_ 1 0x6C)) 11 8).testBit p = true →
      tget none n.tb.ptpPorts p = some m → masterHeard n m = true → x.ds < m.ds)
    (hann : x.announce = true ∨ ∀ m, tget none n.tb.ptpPorts x.port = some m → n.now < m.annAt + 18000000000) (b : Bool) :
    bestPort (modTb (hearMaster n x) (fun t => { t with ptpMaster := b })) = some x.port := by
  have hp4 := port_lt_of_selected hsel
  have hself : heardPort (modTb (hearMaster n x) (fun t => { t with ptpMaster := b })) x.port = some (x.ds, x.port) := by
    have hsync : (heardMaster n x (tget none n.tb.ptpPorts x.port)).syncAt = n.now := rfl
    have hannAt : n.now < (heardMaster n x (tget none n.tb.ptpPorts x.port)).annAt + 18000000000 := by
      unfold heardMaster
      cases hm : tget none n.tb.ptpPorts x.port with
      | none => dsimp only; omega
      | some m =>
        dsimp only
        rcases hann with h | h
        · rw [if_pos h]; omega
        · split
          · omega
          · exact h m hm
    have hheard : masterHeard (modTb (hearMaster n x) (fun t => { t with ptpMaster := b }))
        (heardMaster n x (tget none n.tb.ptpPorts x.port)) = true := by
      have hpos : 0 < syncSilence (modTb (hearMaster n x) (fun t => { t with ptpMaster := b })) := by
        unfold syncSilence
        positivity
      simp only [masterHeard, Bool.and_eq_true, decide_eq_true_eq, hsync]
      refine ⟨hannAt, ?_⟩
      exact Nat.lt_add_of_pos_right hpos
    have hruns : ptpRuns (modTb (hearMaster n x) (fun t => { t with ptpMaster := b })) x.port = true := hsel.1
    have hport := ptpPorts_hearMaster_self n ho
    unfold heardPort
    change (match tget none (hearMaster n x).tb.ptpPorts x.port with | some m => _ | none => none) = _
    rw [hport]
    dsimp only
    rw [hruns, hheard]
    rfl
  rw [bestPort_eq]
  have hfold := foldl_betterPort_of_least (e := (x.ds, x.port))
    (l := (List.range 4).filterMap (heardPort (modTb (hearMaster n x) (fun t => { t with ptpMaster := b }))))
    (List.mem_filterMap.2 ⟨x.port, List.mem_range.2 hp4, hself⟩) (fun e he => ?_) none (Or.inr (Or.inl rfl))
  · rw [hfold]; rfl
  · obtain ⟨p, hp, hpe⟩ := List.mem_filterMap.1 he
    by_cases hpp : p = x.port
    · subst hpp
      rw [hself] at hpe
      exact Or.inl (Option.some.inj hpe).symm
    · refine Or.inr ?_
      unfold heardPort at hpe
      change (match tget none (hearMaster n x).tb.ptpPorts p with | some m => _ | none => none) = _ at hpe
      rw [ptpPorts_hearMaster_ne n x hpp] at hpe
      cases hm : tget none n.tb.ptpPorts p with
      | none => rw [hm] at hpe; exact absurd hpe (by simp)
      | some m =>
        rw [hm] at hpe
        dsimp only at hpe
        split at hpe
        · rename_i hboth
          obtain ⟨hruns, hheard⟩ := Bool.and_eq_true_iff.1 hboth
          have hlt := hwin p m hpp (List.mem_range.1 hp) hruns hm hheard
          rw [← Option.some.inj hpe]
          exact hlt
        · exact absurd hpe (by simp)

/-- An exchange with the master that wins on its port. -/
theorem ptpExchange_follow {n : Node} {x : PtpExchange} (ht : ptpTaken n x = true) (ho : x.bmcaOwn = false)
    (hbest : bestPort (modTb (hearMaster n x) (fun t => { t with ptpMaster := false })) = some x.port) :
    ptpExchange n x = takeUtc (ptpFollow (modTb (hearMaster n x) (fun t => { t with ptpMaster := false })) x) x.utc := by
  simp only [ptpExchange, ht, ho, Bool.not_true, Bool.false_eq_true, if_false, hbest, if_true]

/-- What an exchange makes of the source: its offset is kept with the last eight of the port. -/
def followed (x : PtpExchange) (now : Nat) (p : Source) : Source :=
  { p with
    offs := (x.offset :: (if p.port != x.port then [] else p.offs)).take 8, offset := x.offset, port := x.port,
    good := if p.port != x.port then 1 else sat 65535 (p.good + 1), last := some now }

/-- Eight offsets within 1 us of each other qualify it. -/
def qualified (now : Nat) (p : Source) : Source :=
  if p.offs.length = 8 ∧ within1us p.offs then (if p.qualified then p else { p with qualified := true, since := now }) else p

theorem ptpFollow_eq (n : Node) (x : PtpExchange) :
    ptpFollow n x = afterMeasure (modTb n (fun t => { t with ptp := qualified n.now (followed x n.now t.ptp) })) .ptp := by
  have hq : ∀ m : Node, (if m.tb.ptp.offs.length = 8 ∧ within1us m.tb.ptp.offs = true then qualify m .ptp else m) =
      modTb m (fun t => { t with ptp := qualified m.now t.ptp }) := by
    intro m
    split
    · rename_i h
      have hin : qualified m.now m.tb.ptp =
          if m.tb.ptp.qualified then m.tb.ptp else { m.tb.ptp with qualified := true, since := m.now } := if_pos h
      rw [modTb, hin]
      rfl
    · rename_i h
      have hin : qualified m.now m.tb.ptp = m.tb.ptp := if_neg h
      rw [modTb, hin]
  have hfirst : ptpFollow n x = afterMeasure (
      if (modSource n .ptp (followed x n.now)).tb.ptp.offs.length = 8 ∧
        within1us (modSource n .ptp (followed x n.now)).tb.ptp.offs = true then qualify (modSource n .ptp (followed x n.now)) .ptp
      else modSource n .ptp (followed x n.now)) .ptp := rfl
  rw [hfirst, hq]
  rfl

theorem taiNow_setReg (n : Node) (k : Nat) (v : Word) : taiNow (setReg n k v) = taiNow n := rfl

/-- TB_UTC_OFS from PTP changes no more than a register and records, and only in LOCKED. -/
theorem takeUtc_rest (n : Node) (u : Option Int) : (takeUtc n u).tb = n.tb ∧ taiNow (takeUtc n u) = taiNow n ∧
    (takeUtc n u).frame = n.frame ∧ (takeUtc n u).slewBy = n.slewBy ∧ n.dueB <+: (takeUtc n u).dueB := by
  have write : ∀ (k : Nat) (v : Word) (o : Nat), (writeByNode n k v o).tb = n.tb ∧ taiNow (writeByNode n k v o) = taiNow n ∧
      (writeByNode n k v o).frame = n.frame ∧ (writeByNode n k v o).slewBy = n.slewBy ∧ n.dueB <+: (writeByNode n k v o).dueB := by
    intro k v o
    unfold writeByNode logChange
    dsimp only
    have hdue := fun (m : Node) r => dueB_note m r
    generalize hr : recChange _ o _ = r
    generalize hm : ({ n with config := _ } : Node) = m
    have hfields : m.tb = n.tb ∧ taiNow m = taiNow n ∧ m.frame = n.frame ∧ m.slewBy = n.slewBy ∧ m.dueB = n.dueB := by
      rw [← hm]
      exact ⟨rfl, rfl, rfl, rfl, rfl⟩
    obtain ⟨htb, htai, hframe, hby, hdueB⟩ := hfields
    refine ⟨(note_tb m r).trans htb, (taiNow_of_recFrame (recFrame_note m r)).trans htai, (note_frame m r).trans hframe,
      (note_slewBy m r).trans hby, ?_⟩
    rw [← hdueB]
    exact dueB_note m r
  unfold takeUtc
  split
  · dsimp only
    split
    · exact write _ _ _
    · exact ⟨rfl, rfl, rfl, rfl, List.prefix_rfl⟩
  · exact ⟨rfl, rfl, rfl, rfl, List.prefix_rfl⟩

/-- What the exchange leaves of the source. -/
theorem ptpFollow_source (n : Node) (x : PtpExchange) : (ptpFollow n x).tb.ptp = qualified n.now (followed x n.now n.tb.ptp) := by
  rw [ptpFollow_eq]
  exact congrArg TimeBase.ptp (keepsPhase_afterMeasure _ _).sources

theorem qualified_fields (now : Nat) (p : Source) : (qualified now p).offset = p.offset ∧ (qualified now p).port = p.port ∧
    (qualified now p).offs = p.offs ∧ (p.offs.length = 8 → within1us p.offs = true → (qualified now p).qualified = true) := by
  unfold qualified
  refine ⟨?_, ?_, ?_, fun h8 hw => ?_⟩
  · split
    · split <;> rfl
    · rfl
  · split
    · split <;> rfl
    · rfl
  · split
    · split <;> rfl
    · rfl
  · rw [if_pos ⟨h8, hw⟩]
    split
    · assumption
    · rfl

/-- Where PTP is selected, the offset is used. -/
theorem ptpFollow_selected {n : Node} {x : PtpExchange} (h : n.tb.sel = some .ptp) :
    ∃ m, ptpFollow n x = useOffset m .ptp x.offset ∧ stepThr m = stepThr n ∧ m.slewBy = n.slewBy ∧
      slewPart m m.now = slewPart n n.now ∧ m.tb.stepPend = n.tb.stepPend ∧ m.tb.timeFar = n.tb.timeFar ∧ isRun m = isRun n := by
  rw [ptpFollow_eq, afterMeasure_selected (by exact h)]
  have hoff : (qualified n.now (followed x n.now n.tb.ptp)).offset = x.offset := (qualified_fields _ _).1
  refine ⟨modTb (modTb n (fun t => { t with ptp := qualified n.now (followed x n.now t.ptp) }))
    (fun t => { t with port := (qualified n.now (followed x n.now n.tb.ptp)).port }), ?_, rfl, rfl, rfl, rfl, rfl, rfl⟩
  exact congrArg (useOffset _ .ptp) hoff

/-- After an exchange the node that the port's master disciplines. -/
theorem acts_ptpMessage_master {t : Nat} {x : PtpExchange} {s : State} (hck : s.node.tb.ckFail = none) (hsel : ptpSelected s.node x)
    (ho : x.bmcaOwn = false)
    (hwin : ∀ p m, p ≠ x.port → p < 4 → (fld (reg s.node (at_ 1 0x6C)) 11 8).testBit p = true →
      tget none s.node.tb.ptpPorts p = some m → masterHeard (atInstant s t) m = true → x.ds < m.ds)
    (hann : x.announce = true ∨ ∀ m, tget none s.node.tb.ptpPorts x.port = some m → (atInstant s t).now < m.annAt + 18000000000) :
    Acts (.ptpMessage t x) s t (fun n u =>
      taiNow u = taiNow n ∧ u.frame = n.frame ∧ u.tb.ptp.offset = x.offset ∧ u.tb.ptp.port = x.port ∧
      u.tb.ptp.offs = (x.offset :: (if n.tb.ptp.port = x.port then n.tb.ptp.offs else [])).take 8 ∧
      (u.tb.ptp.offs.length = 8 → within1us u.tb.ptp.offs = true → u.tb.ptp.qualified = true) ∧
      (n.tb.sel = some .ptp → x.offset.natAbs ≤ stepThr n →
        u.tb.state = .locked ∧ u.tb.slew = x.offset - (n.slewBy - slewPart n n.now) ∧ u.tb.timeFar = none ∧
        u.tb.stepPend = none) ∧
      (n.tb.sel = some .ptp → stepThr n < x.offset.natAbs → u.tb.slew = 0 ∧ u.slewBy = 0) ∧
      (n.tb.sel = some .ptp → stepThr n < x.offset.natAbs → n.nodeSt.state = .run →
        u.tb.timeFar = some x.offset ∧ u.tb.stepPend = n.tb.stepPend ∧
        (n.tb.timeFar = none → u.tb.state = .acquiring ∧ (1, 4) ∈ u.dueB)) ∧
      (n.tb.sel = some .ptp → stepThr n < x.offset.natAbs → n.nodeSt.state ≠ .run → u.tb.stepPend = some x.offset)) := by
  have ht : ptpTaken (atInstant s t) x = true := (ptpTaken_iff _ _).2 ⟨hck, hsel⟩
  have hbest := bestPort_of_wins (n := atInstant s t) hsel ho hwin hann false
  refine acts_of_eq rfl (ptpExchange_follow ht ho hbest) ?_
  generalize hn : atInstant s t = n at *
  clear hn
  generalize hm : modTb (hearMaster n x) (fun t => { t with ptpMaster := false }) = m
  obtain ⟨tb, k, hmn⟩ : OnTb n m := by
    rw [← hm]
    exact (onTb_modTb n _).trans (onTb_modTb _ _)
  have hptp : m.tb.ptp = n.tb.ptp := by rw [← hm]; rfl
  have hselm : m.tb.sel = n.tb.sel := by rw [← hm]; rfl
  have hstep : m.tb.stepPend = n.tb.stepPend := by rw [← hm]; rfl
  have hfar : m.tb.timeFar = n.tb.timeFar := by rw [← hm]; rfl
  have hnow : m.now = n.now ∧ taiNow m = taiNow n ∧ m.frame = n.frame ∧ stepThr m = stepThr n ∧ m.slewBy = n.slewBy ∧
      slewPart m m.now = slewPart n n.now ∧ isRun m = isRun n := by
    rw [hmn]
    exact ⟨rfl, rfl, rfl, rfl, rfl, rfl, rfl⟩
  obtain ⟨hnow, htai, hframe, hthr, hby, hpart, hrun⟩ := hnow
  obtain ⟨utb, utai, uframe, uby, udue⟩ := takeUtc_rest (ptpFollow m x) x.utc
  have hfollow : taiNow (ptpFollow m x) = taiNow m ∧ (ptpFollow m x).frame = m.frame := by
    rw [ptpFollow_eq]
    exact ⟨(keepsPhase_afterMeasure _ _).tai, (keepsPhase_afterMeasure _ _).frame⟩
  have hsource : (takeUtc (ptpFollow m x) x.utc).tb.ptp = qualified m.now (followed x m.now n.tb.ptp) := by
    rw [utb, ptpFollow_source, hptp]
  obtain ⟨hoff, hport, hoffs, hqual⟩ := qualified_fields m.now (followed x m.now n.tb.ptp)
  have used : n.tb.sel = some .ptp → ∃ k, (ptpFollow m x) = useOffset k .ptp x.offset ∧ stepThr k = stepThr n ∧
      k.slewBy = n.slewBy ∧ slewPart k k.now = slewPart n n.now ∧ k.tb.stepPend = n.tb.stepPend ∧ k.tb.timeFar = n.tb.timeFar ∧
      isRun k = isRun n := by
    intro h
    obtain ⟨k, hk, h1, h2, h3, h4, h5, h6⟩ := ptpFollow_selected (x := x) (hselm.trans h)
    exact ⟨k, hk, h1.trans hthr, h2.trans hby, h3.trans hpart, h4.trans hstep, h5.trans hfar, h6.trans hrun⟩
  refine ⟨utai.trans (hfollow.1.trans htai), uframe.trans (hfollow.2.trans hframe), ?_, ?_, ?_, ?_, fun h hle => ?_, fun h hlt => ?_,
    fun h hlt hr => ?_, fun h hlt hr => ?_⟩
  · exact (congrArg Source.offset hsource).trans hoff
  · exact (congrArg Source.port hsource).trans hport
  · refine (congrArg Source.offs hsource).trans (hoffs.trans ?_)
    by_cases hp : n.tb.ptp.port = x.port
    · simp [followed, hp]
    · simp [followed, hp]
  · intro h8 hw
    have h8' : (followed x m.now n.tb.ptp).offs.length = 8 := by
      rw [← hoffs, ← hsource]
      exact h8
    have hw' : within1us (followed x m.now n.tb.ptp).offs = true := by
      rw [← hoffs, ← hsource]
      exact hw
    exact (congrArg Source.qualified hsource).trans (hqual h8' hw')
  · obtain ⟨k, hk, h1, h2, h3, -, -, -⟩ := used h
    have hslews := useOffset_slews (n := k) (off := x.offset) (by rw [h1]; exact hle) .ptp
    rw [← hk, ← utb, h2, h3] at hslews
    exact hslews
  · obtain ⟨k, hk, h1, -⟩ := used h
    have hstops := useOffset_far_stops (n := k) (off := x.offset) (by rw [h1]; exact hlt) .ptp
    rw [← hk, ← utb, ← uby] at hstops
    exact hstops
  · obtain ⟨k, hk, h1, -, -, h4, h5, h6⟩ := used h
    have hpend := useOffset_far_run (n := k) (off := x.offset) (by rw [h1]; exact hlt) (by rw [h6]; exact decide_eq_true hr) .ptp
    rw [← hk, ← utb, h4, h5] at hpend
    exact ⟨hpend.1, hpend.2.1, fun hf => ⟨(hpend.2.2 hf).1, udue.subset (hpend.2.2 hf).2⟩⟩
  · obtain ⟨k, hk, h1, -, -, -, -, h6⟩ := used h
    have hwait := useOffset_far_wait (n := k) (off := x.offset) (by rw [h1]; exact hlt) (by rw [h6]; exact decide_eq_false hr) .ptp
    rw [← hk, ← utb] at hwait
    exact hwait

/-! The PPS input and ZDA (03 R63, R66) -/

/-- The edge is as far from the last one as R66 asks. -/
def regularEdge (n : Node) : Bool :=
  match n.tb.pps.last with
  | some l => decide (((n.now : Int) - l - 1000000000).natAbs ≤ 100000)
  | none => false

/-- What an edge makes of its source; d is the second it marks. -/
def edgeMarks (n : Node) (d : Nat) (p : Source) : Source :=
  { p with
    good := if regularEdge n then sat 65535 (p.good + 1) else 1
    offset := (d : Int) - taiAt n (n.now - fld (reg n (at_ 1 0x74)) 31 16)
    last := some n.now
    port := if fld (reg n (at_ 1 0x74)) 2 1 = 1 then 1 else 0 }

/-- Three regular edges in a row qualify it. -/
def edgesQualify (n : Node) : Node := if 3 ≤ n.tb.pps.good then qualify n .pps else n

theorem ppsEdge_of_not {n : Node} {e : Bool} (h : n.tb.ckFail.isSome = true ∨ e ≠ bit (reg n (at_ 1 0x74)) 0) : ppsEdge n e = n := by
  have hc : (n.tb.ckFail.isSome || e != bit (reg n (at_ 1 0x74)) 0) = true := by simpa using h
  simp only [ppsEdge, hc, if_true]

theorem ppsEdge_unnamed {n : Node} {e : Bool} (hck : n.tb.ckFail = none) (he : e = bit (reg n (at_ 1 0x74)) 0) (ht : n.tb.tod = none) :
    ppsEdge n e = modSource n .pps (fun p => { p with good := 0, last := some n.now }) := by
  have hc : (n.tb.ckFail.isSome || e != bit (reg n (at_ 1 0x74)) 0) = false := by simp [hck, he]
  simp only [ppsEdge, hc, Bool.false_eq_true, if_false, ht]

/-- The second that an edge marks. -/
def markedSecond (n : Node) (d : Nat) : Nat := d + missedEdges n * 1000000000

theorem ppsEdge_named {n : Node} {e : Bool} {d : Nat} (hck : n.tb.ckFail = none) (he : e = bit (reg n (at_ 1 0x74)) 0)
    (ht : n.tb.tod = some d) : ppsEdge n e = afterMeasure (edgesQualify (modSource
      (modTb n (fun t => { t with tod := some (markedSecond n d + 1000000000), todFresh := false })) .pps
      (edgeMarks n (markedSecond n d)))) .pps := by
  have hc : (n.tb.ckFail.isSome || e != bit (reg n (at_ 1 0x74)) 0) = false := by simp [hck, he]
  simp only [ppsEdge, hc, Bool.false_eq_true, if_false, ht]
  rfl

theorem edgesQualify_rest (n : Node) : (edgesQualify n).tb.tod = n.tb.tod ∧ (edgesQualify n).tb.todFresh = n.tb.todFresh ∧
    (edgesQualify n).tb.pps.offset = n.tb.pps.offset ∧ (edgesQualify n).tb.pps.last = n.tb.pps.last ∧
    taiNow (edgesQualify n) = taiNow n ∧ (3 ≤ n.tb.pps.good → (edgesQualify n).tb.pps.qualified = true) := by
  unfold edgesQualify
  split
  · have hin : ∀ p : Source, (if p.qualified then p else { p with qualified := true, since := n.now }).offset = p.offset ∧
        (if p.qualified then p else { p with qualified := true, since := n.now }).last = p.last ∧
        (if p.qualified then p else { p with qualified := true, since := n.now }).qualified = true := by
      intro p
      split
      · exact ⟨rfl, rfl, by assumption⟩
      · exact ⟨rfl, rfl, rfl⟩
    obtain ⟨h1, h2, h3⟩ := hin n.tb.pps
    exact ⟨rfl, rfl, h1, h2, rfl, fun _ => h3⟩
  · rename_i h
    exact ⟨rfl, rfl, rfl, rfl, rfl, fun h3 => absurd h3 h⟩

theorem missedEdges_of_fresh {n : Node} (h : n.tb.todFresh = true ∨ n.tb.pps.last = none) : missedEdges n = 0 := by
  unfold missedEdges
  split
  · rename_i l hl
    rcases h with h | h
    · rw [if_pos h]
    · rw [hl] at h; exact absurd h (by simp)
  · rfl

theorem missedEdges_of_last {n : Node} {l : Nat} (hf : n.tb.todFresh = false) (hl : n.tb.pps.last = some l) :
    missedEdges n = (n.now - l + 500000000) / 1000000000 - 1 := by
  simp only [missedEdges, hl, hf, Bool.false_eq_true, if_false]

theorem regularEdge_of {n : Node} {l : Nat} (hl : n.tb.pps.last = some l)
    (h : ((n.now : Int) - l - 1000000000).natAbs ≤ 100000) : regularEdge n = true := by
  simp only [regularEdge, hl, h, decide_true]

theorem acts_ppsEdge_named {t d : Nat} {e : Bool} {s : State} (ht : s.node.tb.tod = some d) (hck : s.node.tb.ckFail = none)
    (he : e = bit (reg s.node (at_ 1 0x74)) 0) : Acts (.ppsEdge { t := t, falling := e }) s t (fun n u =>
      (∃ d' : Nat, u.tb.tod = some (d' + 1000000000) ∧
        u.tb.pps.offset = (d' : Int) - taiAt n (n.now - fld (reg n (at_ 1 0x74)) 31 16) ∧
        (n.tb.todFresh = true ∨ n.tb.pps.last = none → d' = d) ∧
        ∀ l, n.tb.todFresh = false → n.tb.pps.last = some l → d' = d + ((n.now - l + 500000000) / 1000000000 - 1) * 1000000000) ∧
      u.tb.todFresh = false ∧ u.tb.pps.last = some n.now ∧ taiNow u = taiNow n ∧
      (∀ l, n.tb.pps.last = some l → ((n.now : Int) - l - 1000000000).natAbs ≤ 100000 → 2 ≤ n.tb.pps.good →
        u.tb.pps.qualified = true)) := by
  refine acts_of_eq (f := fun n => ppsEdge n e) rfl (ppsEdge_named (n := atInstant s t) hck he ht) ?_
  generalize atInstant s t = n
  generalize hm : modSource (modTb n (fun t => { t with tod := some (markedSecond n d + 1000000000), todFresh := false })) .pps
      (edgeMarks n (markedSecond n d)) = m
  have hmt : m.tb.tod = some (markedSecond n d + 1000000000) ∧ m.tb.todFresh = false ∧
      m.tb.pps = edgeMarks n (markedSecond n d) n.tb.pps ∧ taiNow m = taiNow n := by
    rw [← hm]
    exact ⟨rfl, rfl, rfl, rfl⟩
  obtain ⟨htod, hfresh, hpps, htai⟩ := hmt
  obtain ⟨qtod, qfresh, qoff, qlast, qtai, qual⟩ := edgesQualify_rest m
  have keep := keepsPhase_afterMeasure (edgesQualify m) .pps
  have ktod : (afterMeasure (edgesQualify m) .pps).tb.tod = (edgesQualify m).tb.tod := keep.tod
  have kfresh : (afterMeasure (edgesQualify m) .pps).tb.todFresh = (edgesQualify m).tb.todFresh := keep.todFresh
  have kpps : (afterMeasure (edgesQualify m) .pps).tb.pps = (edgesQualify m).tb.pps := keep.pps
  refine ⟨⟨markedSecond n d, ktod.trans (qtod.trans htod), ?_, fun h => ?_, fun l hf hl => ?_⟩, kfresh.trans (qfresh.trans hfresh), ?_,
    keep.tai.trans (qtai.trans htai), fun l hl hreg hgood => ?_⟩
  · exact (congrArg Source.offset kpps).trans (qoff.trans (congrArg Source.offset hpps))
  · rw [markedSecond, missedEdges_of_fresh h, Nat.zero_mul, Nat.add_zero]
  · rw [markedSecond, missedEdges_of_last hf hl]
  · exact (congrArg Source.last kpps).trans (qlast.trans (congrArg Source.last hpps))
  · refine (congrArg Source.qualified kpps).trans (qual ?_)
    rw [hpps]
    simp only [edgeMarks, regularEdge_of hl hreg, if_true, sat]
    omega

theorem zdaReceived_taken {n : Node} {port : Nat} (utc : Nat) (hp : port < 2) (h31 : bit (reg n (at_ (0x5C + port) 0x44)) 31 = true)
    (h5 : bit (reg n (at_ (0x5C + port) 0x44)) 5 = true) : zdaReceived n port utc =
      let m := modSer n port (fun s => { s with lastOk := some n.now, ok := sat 65535 (s.ok + 1) })
      if fld (reg n (at_ 1 0x74)) 2 1 = port then
        setTod m (((utc : Int) + sfld (reg n (at_ 1 0x78)) 15 0).toNat * 1000000000)
      else m := by
  have hc : (decide (2 ≤ port) || !bit (reg n (at_ (0x5C + port) 0x44)) 31 || !bit (reg n (at_ (0x5C + port) 0x44)) 5) = false := by
    simp [h31, h5, hp]
  simp only [zdaReceived, hc, Bool.false_eq_true, if_false]
  rfl

theorem zdaReceived_of_not {n : Node} {port : Nat} (utc : Nat) (h : 2 ≤ port ∨ bit (reg n (at_ (0x5C + port) 0x44)) 31 = false ∨
    bit (reg n (at_ (0x5C + port) 0x44)) 5 = false) : zdaReceived n port utc = n := by
  have hc : (decide (2 ≤ port) || !bit (reg n (at_ (0x5C + port) 0x44)) 31 || !bit (reg n (at_ (0x5C + port) 0x44)) 5) = true := by
    rcases h with h | h | h <;> simp [h]
  simp only [zdaReceived, hc, if_true]

/-- What names the next second (03 R66). -/
theorem setTod_eq (n : Node) (d : Nat) : setTod n d = { n with tb := { n.tb with
    tod := some d, todFresh := true,
    pps := { n.tb.pps with good := if n.tb.tod = some d then n.tb.pps.good else 0 } } } := by
  unfold setTod
  cases ht : n.tb.tod with
  | none => simp only [Bool.false_eq_true, if_false, reduceCtorEq]; rfl
  | some x =>
    by_cases hx : x = d
    · subst hx
      simp only [beq_self_eq_true, if_true]
      rfl
    · simp only [beq_eq_false_iff_ne.2 hx, Bool.false_eq_true, if_false, Option.some.injEq, hx]
      rfl

theorem acts_zdaReceived {t port utc : Nat} {s : State} (hp : port < 2) (h31 : bit (reg s.node (at_ (0x5C + port) 0x44)) 31 = true)
    (h5 : bit (reg s.node (at_ (0x5C + port) 0x44)) 5 = true) : Acts (.zdaReceived t port utc) s t (fun n u =>
      serOf u port = { serOf n port with lastOk := some n.now, ok := min 65535 ((serOf n port).ok + 1) } ∧
      (∀ p, p ≠ port → serOf u p = serOf n p) ∧
      SameButSignals u { n with net := { n.net with ser := u.net.ser }, tb := u.tb } ∧
      (fld (reg n (at_ 1 0x74)) 2 1 ≠ port → u.tb = n.tb) ∧
      (fld (reg n (at_ 1 0x74)) 2 1 = port →
        let d := ((utc : Int) + sfld (reg n (at_ 1 0x78)) 15 0).toNat * 1000000000
        u.tb = { n.tb with
          tod := some d, todFresh := true,
          pps := { n.tb.pps with good := if n.tb.tod = some d then n.tb.pps.good else 0 } })) := by
  refine acts_of_eq (f := fun n => zdaReceived n port utc) rfl (zdaReceived_taken (n := atInstant s t) utc hp h31 h5) ?_
  generalize atInstant s t = n
  have hself := tget_tmod_self {} n.net.ser port (fun s => { s with lastOk := some n.now, ok := sat 65535 (s.ok + 1) })
  have hother := fun p (h : p ≠ port) =>
    tget_tmod_ne {} n.net.ser (fun s => { s with lastOk := some n.now, ok := sat 65535 (s.ok + 1) }) h
  dsimp only
  by_cases hport : fld (reg n (at_ 1 0x74)) 2 1 = port
  · rw [if_pos hport, setTod_eq]
    exact ⟨hself, hother, rfl, fun h => absurd hport h, fun _ => rfl⟩
  · rw [if_neg hport]
    exact ⟨hself, hother, rfl, fun _ => rfl, fun h => absurd h hport⟩

/-- Settles O23. -/
theorem exchangesAndSecondsMeasured : Obligations.ExchangesAndSecondsMeasured := by
  refine ⟨fun t x s => ⟨fun h => ?_, acts_ptpMessage_own, acts_ptpMessage_master⟩, fun t port utc e s =>
    ⟨fun d => acts_ppsEdge_named, fun ht hck he => ?_, fun h => ?_, acts_zdaReceived, fun h => ?_⟩⟩
  · exact acts_same (f := fun n => ptpExchange n x) rfl (ptpExchange_of_not (n := atInstant s t) h)
  · exact acts_of_eq (f := fun n => ppsEdge n e) rfl (ppsEdge_unnamed (n := atInstant s t) hck he ht) rfl
  · exact acts_same (f := fun n => ppsEdge n e) rfl (ppsEdge_of_not (n := atInstant s t) h)
  · exact acts_same (f := fun n => zdaReceived n port utc) rfl (zdaReceived_of_not (n := atInstant s t) utc h)

end Sys2Proof.Machine
end

section
/-! PROOF. Time over CAN, received and sent (03 R62, R66, R82, R83, 14 R328). -/

namespace Sys2Proof.Machine

/-! SYNC and FOLLOW received (03 R62, R66, R83) -/

theorem src_lt_of_accepts {n : Node} {h : MsgHead} (ha : accepts n h = true) : h.src < 254 := by
  simp only [accepts, Bool.and_eq_true, decide_eq_true_eq] at ha
  obtain ⟨⟨-, hlt⟩, -⟩ := ha
  exact hlt

/-- The SYNC kept, before what it does to the run of pairs. -/
def syncKept (n : Node) (ctrl src seq sof q int : Nat) : Node := modTb n (fun t => { t with
  syncs := tset none t.syncs (ctrl * 256 + src) (some { seq := seq, sof := sof, at_ := n.now, qual := q })
  senders := tset none t.senders src (some { qual := q, at_ := n.now, interval := syncInterval int }) })

theorem takeSync_eq (n : Node) (ctrl src seq sof q int : Nat) : takeSync n ctrl src seq sof q int =
    if (tget none n.tb.syncs (ctrl * 256 + src)).isSome && canFollowed (syncKept n ctrl src seq sof q int) == some src then
      modSource (syncKept n ctrl src seq sof q int) .can (fun c => { c with good := 0 })
    else syncKept n ctrl src seq sof q int := rfl

theorem canFollowed_of_master {n : Node} {a : Nat} (h : fld (reg n (at_ 1 0x70)) 31 24 = a) (ha : a ≠ 255) :
    canFollowed n = some a := by
  simp only [canFollowed, h, ne_eq, ha, not_false_eq_true, if_true]

theorem acts_canSyncReceived {t seq sof q int : Nat} {h : MsgHead} {s : State} (ha : accepts s.node h = true)
    (hck : s.node.tb.ckFail = none) : Acts (.canSyncReceived t h seq sof { qual := q, int := int }) s t (fun n u =>
      SameButSignals u { n with tb := { n.tb with syncs := u.tb.syncs, senders := u.tb.senders, can := u.tb.can } } ∧
      tget none u.tb.syncs (h.ctrl * 256 + h.src) = some { seq := seq, sof := sof, at_ := n.now, qual := q } ∧
      (∀ k, k ≠ h.ctrl * 256 + h.src → tget none u.tb.syncs k = tget none n.tb.syncs k) ∧
      (tget none n.tb.syncs (h.ctrl * 256 + h.src) = none → u.tb.can = n.tb.can) ∧
      (tget none n.tb.syncs (h.ctrl * 256 + h.src) ≠ none → fld (reg n (at_ 1 0x70)) 31 24 = h.src →
        u.tb.can = { n.tb.can with good := 0 })) := by
  have ha' : accepts (atInstant s t) h = true := ha
  have hck' : (atInstant s t).tb.ckFail = none := hck
  have heff : syncReceived (atInstant s t) h seq sof q int = takeSync (atInstant s t) h.ctrl h.src seq sof q int := by
    simp only [syncReceived, ha', hck', Option.isNone_none, Bool.and_true, if_true]
  refine acts_of_eq (f := fun n => syncReceived n h seq sof q int) rfl (heff.trans (takeSync_eq _ _ _ _ _ _ _)) ?_
  generalize atInstant s t = n
  have hsyncs : (syncKept n h.ctrl h.src seq sof q int).tb.syncs =
      tset none n.tb.syncs (h.ctrl * 256 + h.src) (some { seq := seq, sof := sof, at_ := n.now, qual := q }) := rfl
  have hself := tget_tset_self none n.tb.syncs (h.ctrl * 256 + h.src) (some { seq := seq, sof := sof, at_ := n.now, qual := q })
  have hne := fun k (hk : k ≠ h.ctrl * 256 + h.src) =>
    tget_tset_ne none n.tb.syncs (some { seq := seq, sof := sof, at_ := n.now, qual := q }) hk
  by_cases hopen : ((tget none n.tb.syncs (h.ctrl * 256 + h.src)).isSome &&
      canFollowed (syncKept n h.ctrl h.src seq sof q int) == some h.src) = true
  · rw [if_pos hopen]
    refine ⟨rfl, hself, hne, fun hn => ?_, fun _ _ => rfl⟩
    rw [hn] at hopen
    exact absurd hopen (by simp)
  · rw [if_neg hopen]
    refine ⟨rfl, hself, hne, fun _ => rfl, fun hs hm => absurd ?_ hopen⟩
    have hfollow : canFollowed (syncKept n h.ctrl h.src seq sof q int) = some h.src :=
      canFollowed_of_master hm (by have := src_lt_of_accepts ha; omega)
    rw [hfollow, Option.isSome_iff_ne_none.2 hs]
    simp

theorem syncReceived_of_not {n : Node} {h : MsgHead} (hn : accepts n h = false ∨ n.tb.ckFail.isSome = true) (seq sof q int : Nat) :
    syncReceived n h seq sof q int = n := by
  rcases hn with hn | hn
  · simp only [syncReceived, hn, Bool.false_and, Bool.false_eq_true, if_false]
  · have hc : n.tb.ckFail.isNone = false := by rw [← Option.not_isSome, hn]; rfl
    simp only [syncReceived, hc, Bool.and_false, Bool.false_eq_true, if_false]

theorem followReceived_of_not {n : Node} {h : MsgHead}
    (hn : accepts n h = false ∨ tget none n.tb.syncs (h.ctrl * 256 + h.src) = none) (seq tai : Nat) :
    followReceived n h seq tai = n := by
  rcases hn with hn | hn
  · simp only [followReceived, hn, Bool.false_eq_true, if_false]
  · unfold followReceived
    split
    · simp only [canPair, hn]
    · rfl

/-- The SYNC is no longer kept. -/
def syncTaken (n : Node) (k : Nat) : Node := modTb n (fun t => { t with syncs := tset none t.syncs k none })

/-- A pair of the sender followed, as it measures. -/
def pairMeasured (n : Node) (ctrl src : Nat) (off : Int) (int : Nat) : Node :=
  modSource (modTb n (fun t => { t with canMaster := some src })) .can (fun c => { c with
    offset := off, port := ctrl, good := sat 65535 (c.good + 1), last := some n.now, interval := int })

theorem canFollowed_syncTaken (n : Node) (k : Nat) : canFollowed (syncTaken n k) = canFollowed n := rfl

/-- The FOLLOW of another sequence, or too late. -/
theorem canPair_broken {n : Node} {ctrl src seq : Nat} {y : SyncMsg} (hy : tget none n.tb.syncs (ctrl * 256 + src) = some y)
    (hb : y.seq ≠ seq ∨ y.at_ + 10000000 < n.now) (tai : Nat) : canPair n ctrl src seq tai =
      if canFollowed n = some src then modSource (syncTaken n (ctrl * 256 + src)) .can (fun c => { c with good := 0 })
      else syncTaken n (ctrl * 256 + src) := by
  unfold canPair
  simp only [hy]
  exact if_pos hb

/-- The FOLLOW of a sender not followed. -/
theorem canPair_unfollowed {n : Node} {ctrl src seq : Nat} {y : SyncMsg} (hy : tget none n.tb.syncs (ctrl * 256 + src) = some y)
    (hf : canFollowed n ≠ some src) (tai : Nat) : canPair n ctrl src seq tai = syncTaken n (ctrl * 256 + src) := by
  by_cases hb : y.seq ≠ seq ∨ y.at_ + 10000000 < n.now
  · rw [canPair_broken hy hb, if_neg hf]
  · unfold canPair
    simp only [hy]
    refine (if_neg hb).trans (if_pos ?_)
    rw [Bool.or_eq_true, decide_eq_true_eq]
    exact Or.inl hf

theorem canPair_good {n : Node} {ctrl src seq : Nat} {y : SyncMsg} (hy : tget none n.tb.syncs (ctrl * 256 + src) = some y)
    (hseq : y.seq = seq) (hat : n.now ≤ y.at_ + 10000000) (hf : canFollowed n = some src) (hck : n.tb.ckFail = none) (tai : Nat) :
    ∃ int, canPair n ctrl src seq tai = afterMeasure
      (if 4 ≤ (pairMeasured (syncTaken n (ctrl * 256 + src)) ctrl src ((tai : Int) - taiPast n y.sof) int).tb.can.good then
        qualify (pairMeasured (syncTaken n (ctrl * 256 + src)) ctrl src ((tai : Int) - taiPast n y.sof) int) .can
      else pairMeasured (syncTaken n (ctrl * 256 + src)) ctrl src ((tai : Int) - taiPast n y.sof) int) .can := by
  have hb : ¬ (y.seq ≠ seq ∨ y.at_ + 10000000 < n.now) := by
    rintro (h | h)
    · exact h hseq
    · omega
  have hc : ¬ ((decide (canFollowed (syncTaken n (ctrl * 256 + src)) ≠ some src) || n.tb.ckFail.isSome) = true) := by
    rw [canFollowed_syncTaken, hf, hck]
    simp
  refine ⟨match tget none n.tb.senders src with | some x => x.interval | none => 125000000, ?_⟩
  unfold canPair
  simp only [hy]
  exact (if_neg hb).trans (if_neg hc)

/-- A source's qualification, where a run is long enough. -/
theorem qualify_can (n : Node) (c : Prop) [Decidable c] :
    (if c then qualify n .can else n).tb.can.offset = n.tb.can.offset ∧ (if c then qualify n .can else n).tb.can.port = n.tb.can.port ∧
    (if c then qualify n .can else n).tb.canMaster = n.tb.canMaster ∧ (if c then qualify n .can else n).tb.syncs = n.tb.syncs ∧
    taiNow (if c then qualify n .can else n) = taiNow n ∧ (c → (if c then qualify n .can else n).tb.can.qualified = true) := by
  by_cases h : c
  · rw [if_pos h]
    have hin : ∀ p : Source, (if p.qualified then p else { p with qualified := true, since := n.now }).offset = p.offset ∧
        (if p.qualified then p else { p with qualified := true, since := n.now }).port = p.port ∧
        (if p.qualified then p else { p with qualified := true, since := n.now }).qualified = true := by
      intro p
      split
      · exact ⟨rfl, rfl, by assumption⟩
      · exact ⟨rfl, rfl, rfl⟩
    obtain ⟨h1, h2, h3⟩ := hin n.tb.can
    exact ⟨h1, h2, rfl, rfl, rfl, fun _ => h3⟩
  · rw [if_neg h]
    exact ⟨rfl, rfl, rfl, rfl, rfl, fun hc => absurd hc h⟩

theorem pairMeasured_fields (n : Node) (ctrl src : Nat) (off : Int) (int : Nat) :
    (pairMeasured n ctrl src off int).tb.can.offset = off ∧ (pairMeasured n ctrl src off int).tb.can.port = ctrl ∧
    (pairMeasured n ctrl src off int).tb.canMaster = some src ∧ (pairMeasured n ctrl src off int).tb.syncs = n.tb.syncs ∧
    (pairMeasured n ctrl src off int).tb.can.good = sat 65535 (n.tb.can.good + 1) ∧
    taiNow (pairMeasured n ctrl src off int) = taiNow n := ⟨rfl, rfl, rfl, rfl, rfl, rfl⟩

theorem acts_canFollowReceived {t seq tai q : Nat} {h : MsgHead} {y : SyncMsg} {s : State} (ha : accepts s.node h = true)
    (hy : tget none s.node.tb.syncs (h.ctrl * 256 + h.src) = some y) (hf : canFollowed (atInstant s t) = some h.src)
    (hck : s.node.tb.ckFail = none) (hseq : y.seq = seq) (hat : max s.node.now t ≤ y.at_ + 10000000) :
    Acts (.canFollowReceived t h seq tai q) s t (fun n u =>
      u.tb.can.offset = (tai : Int) - taiPast n y.sof ∧ u.tb.canMaster = some h.src ∧ u.tb.can.port = h.ctrl ∧
      tget none u.tb.syncs (h.ctrl * 256 + h.src) = none ∧ (3 ≤ n.tb.can.good → u.tb.can.qualified = true) ∧
      taiNow u = taiNow n) := by
  have ha' : accepts (atInstant s t) h = true := ha
  obtain ⟨int, hpair⟩ := canPair_good (n := atInstant s t) hy hseq hat hf hck tai
  refine acts_of_eq (f := fun n => followReceived n h seq tai) rfl ((if_pos ha').trans hpair) ?_
  clear hpair
  generalize atInstant s t = n
  obtain ⟨moff, mport, mmaster, msyncs, mgood, mtai⟩ := pairMeasured_fields (syncTaken n (h.ctrl * 256 + h.src)) h.ctrl h.src
    ((tai : Int) - taiPast n y.sof) int
  generalize pairMeasured (syncTaken n (h.ctrl * 256 + h.src)) h.ctrl h.src ((tai : Int) - taiPast n y.sof) int = m at *
  have tsyncs : (syncTaken n (h.ctrl * 256 + h.src)).tb.syncs = tset none n.tb.syncs (h.ctrl * 256 + h.src) none := rfl
  have tgood : (syncTaken n (h.ctrl * 256 + h.src)).tb.can.good = n.tb.can.good := rfl
  have ttai : taiNow (syncTaken n (h.ctrl * 256 + h.src)) = taiNow n := rfl
  obtain ⟨qoff, qport, qmaster, qsyncs, qtai, qqual⟩ := qualify_can m (4 ≤ m.tb.can.good)
  generalize (if 4 ≤ m.tb.can.good then qualify m .can else m) = k at *
  have keep := keepsPhase_afterMeasure k .can
  refine ⟨?_, keep.canMaster.trans (qmaster.trans mmaster), ?_, ?_, fun h3 => ?_, keep.tai.trans (qtai.trans (mtai.trans ttai))⟩
  · exact (congrArg Source.offset keep.can).trans (qoff.trans moff)
  · exact (congrArg Source.port keep.can).trans (qport.trans mport)
  · refine (congrArg (fun x => tget none x (h.ctrl * 256 + h.src)) (keep.syncs.trans (qsyncs.trans (msyncs.trans tsyncs)))).trans ?_
    exact tget_tset_self _ _ _ _
  · refine (congrArg Source.qualified keep.can).trans (qqual ?_)
    rw [mgood, tgood, sat]
    omega

theorem acts_canFollowReceived_broken {t seq tai q : Nat} {h : MsgHead} {y : SyncMsg} {s : State} (ha : accepts s.node h = true)
    (hy : tget none s.node.tb.syncs (h.ctrl * 256 + h.src) = some y) (hf : canFollowed (atInstant s t) = some h.src)
    (hb : y.seq ≠ seq ∨ y.at_ + 10000000 < max s.node.now t) : Acts (.canFollowReceived t h seq tai q) s t (fun n u =>
      SameButSignals u { n with tb := { n.tb with syncs := u.tb.syncs, can := { n.tb.can with good := 0 } } } ∧
      tget none u.tb.syncs (h.ctrl * 256 + h.src) = none) := by
  have ha' : accepts (atInstant s t) h = true := ha
  refine acts_of_eq (f := fun n => followReceived n h seq tai) rfl
    ((if_pos ha').trans ((canPair_broken (n := atInstant s t) hy hb tai).trans (if_pos hf))) ⟨rfl, ?_⟩
  exact tget_tset_self none s.node.tb.syncs (h.ctrl * 256 + h.src) none

theorem acts_canFollowReceived_unfollowed {t seq tai q : Nat} {h : MsgHead} {y : SyncMsg} {s : State} (ha : accepts s.node h = true)
    (hy : tget none s.node.tb.syncs (h.ctrl * 256 + h.src) = some y) (hf : canFollowed (atInstant s t) ≠ some h.src) :
    Acts (.canFollowReceived t h seq tai q) s t (fun n u =>
      SameButSignals u { n with tb := { n.tb with syncs := u.tb.syncs } } ∧
      tget none u.tb.syncs (h.ctrl * 256 + h.src) = none) := by
  have ha' : accepts (atInstant s t) h = true := ha
  refine acts_of_eq (f := fun n => followReceived n h seq tai) rfl
    ((if_pos ha').trans (canPair_unfollowed (n := atInstant s t) hy hf tai)) ⟨rfl, ?_⟩
  exact tget_tset_self none s.node.tb.syncs (h.ctrl * 256 + h.src) none

/-! Node messages that wait (14 R326) -/

/-- From n to m controllers and what records change differ, and nothing else. -/
def Queues (n m : Node) : Prop := ∃ cs, RecFrame { n with cans := cs } m

theorem Queues.refl (n : Node) : Queues n n := ⟨n.cans, recFrame_refl n⟩

theorem Queues.trans {a b c : Node} (h : Queues a b) (k : Queues b c) : Queues a c := by
  obtain ⟨cs, r, l, hd, d, q, rfl, hh⟩ := h
  obtain ⟨cs', r', l', hd', d', q', rfl, hh'⟩ := k
  exact ⟨cs', r', l', hd', d', q', rfl, fun p hp => (hh' p hp).trans (hh p hp)⟩

theorem queues_modCan (n : Node) (c : Nat) (f : CanCtl → CanCtl) : Queues n (modCan n c f) := ⟨_, recFrame_refl _⟩

theorem queues_note (n : Node) (r : Rec) : Queues n (note n r) := ⟨n.cans, recFrame_note n r⟩

theorem queues_loadBufs (n : Node) (c : Nat) : Queues n (loadBufs n c) :=
  pred_ite (queues_modCan n c _) (Queues.refl n)

theorem queues_tellDiscards (n : Node) (c : Nat) : Queues n (tellDiscards n c) := by
  unfold tellDiscards
  exact pred_ite ((queues_modCan n c _).trans (queues_note _ _)) (Queues.refl n)

/-- A message put in the queue of a controller (14 R326). -/
def queueNode (m : NodeMsg) (x : CanCtl) : CanCtl :=
  let q := insertMsg m (replaceResult m x.nodeQ)
  if q.length ≤ 256 then { x with nodeQ := q } else { x with nodeQ := dropNewest q, qDisc := x.qDisc + 1 }

theorem queueMsg_eq (n : Node) (c : Nat) (m : NodeMsg) : queueMsg n c m =
    if !nodeLayer n c || lanesNone n || decide ((canOf n c).state = .busOff) then n
    else loadBufs (tellDiscards (modCan n c (queueNode m)) c) c := rfl

theorem queues_queueMsg (n : Node) (c : Nat) (m : NodeMsg) : Queues n (queueMsg n c m) := by
  rw [queueMsg_eq]
  exact pred_ite (Queues.refl n) (((queues_modCan n c _).trans (queues_tellDiscards _ c)).trans (queues_loadBufs _ c))

theorem keepsCan_tellDiscards (n : Node) (c : Nat) : KeepsCan c n (tellDiscards n c) := by
  unfold tellDiscards
  exact KeepsCan.ite ((keepsCan_modCan n c rfl).trans (keepsCan_note _ _ c)) (KeepsCan.refl c n)

theorem confinement_queueNode (m : NodeMsg) (x : CanCtl) : confinement (queueNode m x) = confinement x := by
  unfold queueNode
  dsimp only
  split <;> rfl

theorem keepsCan_queueMsg (n : Node) (c : Nat) (m : NodeMsg) : KeepsCan c n (queueMsg n c m) := by
  rw [queueMsg_eq]
  exact KeepsCan.ite (KeepsCan.refl c n) (((keepsCan_modCan n c (confinement_queueNode m _)).trans (keepsCan_tellDiscards _ c)).trans
    (keepsCan_loadBufs _ c))

/-! SYNC and FOLLOW sent (03 R82, 14 R328) -/

/-- One controller of TX_MASK at a SYNC of sequence q. -/
def syncOn (q : Nat) (data : List Byte) (n : Node) (c : Nat) : Node :=
  if nodeLayer n c then
    queueMsg (modTb n (fun t => { t with sent := tset none t.sent c (some (q, none)) })) c (ownMsg n 0 1 q 0 data)
  else n

theorem nodeLayer_congr {n m : Node} (hr : m.regs = n.regs) {c : Nat} (hm : (canOf m c).mode = (canOf n c).mode) :
    nodeLayer m c = nodeLayer n c := by
  have hreg : canReg m c 0x40 = canReg n c 0x40 := by simp only [canReg, reg, hr]
  simp only [nodeLayer, fdoe, hreg, hm]

/-- What a SYNC on the controllers of a list leaves. -/
structure SyncsOn (q : Nat) (l : List Nat) (n m : Node) : Prop where
  regs : m.regs = n.regs
  taiOff : m.taiOff = n.taiOff
  layer : ∀ c, nodeLayer m c = nodeLayer n c
  asked : ∀ c, c ∈ l → nodeLayer n c = true → tget none m.tb.sent c = some (q, none)
  others : ∀ c, c ∉ l ∨ nodeLayer n c = false → tget none m.tb.sent c = tget none n.tb.sent c ∧ canOf m c = canOf n c

theorem syncsOn_one (q : Nat) (data : List Byte) (n : Node) (c : Nat) : SyncsOn q [c] n (syncOn q data n c) := by
  unfold syncOn
  by_cases h : nodeLayer n c = true
  · rw [if_pos h]
    generalize hm : modTb n (fun t => { t with sent := tset none t.sent c (some (q, none)) }) = m
    have hq := queues_queueMsg m c (ownMsg n 0 1 q 0 data)
    obtain ⟨honly, hconf⟩ := keepsCan_queueMsg m c (ownMsg n 0 1 q 0 data)
    have hcan : ∀ k, canOf m k = canOf n k := fun k => by rw [← hm]; rfl
    have hsent : m.tb.sent = tset none n.tb.sent c (some (q, none)) := by rw [← hm]; rfl
    have hrest : m.regs = n.regs ∧ m.taiOff = n.taiOff := by rw [← hm]; exact ⟨rfl, rfl⟩
    have hu : (queueMsg m c (ownMsg n 0 1 q 0 data)).regs = m.regs ∧ (queueMsg m c (ownMsg n 0 1 q 0 data)).taiOff = m.taiOff ∧
        (queueMsg m c (ownMsg n 0 1 q 0 data)).tb = m.tb := by
      obtain ⟨cs, r, lg, hd, d, qq, hu, -⟩ := hq
      rw [hu]
      exact ⟨rfl, rfl, rfl⟩
    obtain ⟨uregs, uoff, utb⟩ := hu
    refine ⟨uregs.trans hrest.1, uoff.trans hrest.2, fun k => ?_, fun k hk _ => ?_, fun k hk => ?_⟩
    · refine nodeLayer_congr (uregs.trans hrest.1) ?_
      by_cases hkc : k = c
      · subst hkc
        exact (congrArg Confinement.mode hconf).trans (congrArg CanCtl.mode (hcan k))
      · rw [honly k hkc, hcan]
    · have hkc : k = c := List.mem_singleton.1 hk
      subst hkc
      rw [utb, hsent, tget_tset_self]
    · have hkc : k ≠ c := by
        rintro rfl
        rcases hk with hk | hk
        · exact hk (List.mem_singleton.2 rfl)
        · rw [h] at hk; exact absurd hk (by decide)
      exact ⟨by rw [utb, hsent, tget_tset_ne none _ _ hkc], by rw [honly k hkc, hcan]⟩
  · rw [if_neg h]
    refine ⟨rfl, rfl, fun _ => rfl, fun k hk hl => ?_, fun _ _ => ⟨rfl, rfl⟩⟩
    rw [List.mem_singleton.1 hk] at hl
    exact absurd hl h

theorem syncsOn_foldl (q : Nat) (data : List Byte) (l : List Nat) : ∀ n, SyncsOn q l n (l.foldl (syncOn q data) n) := by
  induction l with
  | nil => exact fun n => ⟨rfl, rfl, fun _ => rfl, fun c hc => absurd hc List.not_mem_nil, fun _ _ => ⟨rfl, rfl⟩⟩
  | cons b r ih =>
    intro n
    have h1 := syncsOn_one q data n b
    have h2 := ih (syncOn q data n b)
    refine ⟨h2.regs.trans h1.regs, h2.taiOff.trans h1.taiOff, fun c => (h2.layer c).trans (h1.layer c), fun c hc hl => ?_, fun c hc => ?_⟩
    · by_cases hr : c ∈ r
      · exact h2.asked c hr ((h1.layer c).trans hl)
      · have hb : c = b := (List.mem_cons.1 hc).resolve_right hr
        refine ((h2.others c (Or.inl hr)).1).trans (h1.asked c (List.mem_singleton.2 hb) hl)
    · have hr : c ∉ r ∨ nodeLayer (syncOn q data n b) c = false :=
        hc.imp (fun h hm => h (List.mem_cons_of_mem _ hm)) (fun h => (h1.layer c).trans h)
      have hb : c ∉ [b] ∨ nodeLayer n c = false :=
        hc.imp (fun h hm => h (List.mem_cons.2 (Or.inl (List.mem_singleton.1 hm)))) id
      obtain ⟨s1, k1⟩ := h1.others c hb
      obtain ⟨s2, k2⟩ := h2.others c hr
      exact ⟨s2.trans s1, k2.trans k1⟩

theorem syncSend_due {n : Node} (hm : timeMaster n = true) (hd : syncDue n = true) : ∃ data, syncSend n =
    modTb ((members (syncMask n) 24).foldl (syncOn n.tb.syncSeq data) n)
      (fun t => { t with syncSeq := (n.tb.syncSeq + 1) % 1024, syncAt := some n.now }) := by
  refine ⟨[byteOf (qual n), byteOf (fld (reg n (at_ 1 0x7C)) 27 25)] ++ List.replicate 6 0, ?_⟩
  have hfold : ((members (syncMask n) 24).foldl
      (syncOn n.tb.syncSeq ([byteOf (qual n), byteOf (fld (reg n (at_ 1 0x7C)) 27 25)] ++ List.replicate 6 0)) n).now = n.now := by
    refine foldl_same (g := Node.now) (fun m c => ?_) _ n
    unfold syncOn
    split
    · obtain ⟨cs, r, lg, hd', d, qq, hu, -⟩ := queues_queueMsg
        (modTb m (fun t => { t with sent := tset none t.sent c (some (n.tb.syncSeq, none)) })) c (ownMsg m 0 1 n.tb.syncSeq 0
          ([byteOf (qual n), byteOf (fld (reg n (at_ 1 0x7C)) 27 25)] ++ List.replicate 6 0))
      rw [hu]
      rfl
    · rfl
  have hc : (timeMaster n && syncDue n) = true := by rw [hm, hd]; rfl
  rw [syncSend, if_pos hc, ← hfold]
  rfl

theorem syncSend_of_not {n : Node} (h : timeMaster n = false ∨ syncDue n = false) : syncSend n = n := by
  rw [syncSend, if_neg]
  rw [Bool.and_eq_true]
  rintro ⟨hm, hd⟩
  rcases h with h | h
  · rw [h] at hm; exact absurd hm (by decide)
  · rw [h] at hd; exact absurd hd (by decide)

theorem syncDue_iff (n : Node) : syncDue n = true ↔ ∀ a, n.tb.syncAt = some a →
    a + 62500000 * 2 ^ min (fld (reg n (at_ 1 0x7C)) 27 25) 4 ≤ n.now := by
  unfold syncDue
  cases h : n.tb.syncAt with
  | none => simp
  | some a =>
    simp only [decide_eq_true_eq, Option.some.injEq, forall_eq']
    rfl

theorem mem_members {s k c : Nat} : c ∈ members s k ↔ c < k ∧ s.testBit c = true := by simp [members]

theorem acts_syncSend {t : Nat} (c : Nat) {s : State} (hm : timeMaster s.node = true)
    (hd : ∀ a, s.node.tb.syncAt = some a → a + 62500000 * 2 ^ min (fld (reg s.node (at_ 1 0x7C)) 27 25) 4 ≤ max s.node.now t) :
    Acts (.syncSend t) s t (fun n u =>
      u.tb.syncSeq = (n.tb.syncSeq + 1) % 1024 ∧ u.tb.syncAt = some n.now ∧ u.taiOff = n.taiOff ∧ u.regs = n.regs ∧
      (c < 24 → nbit (syncMask n) c = true → nodeLayer n c = true → tget none u.tb.sent c = some (n.tb.syncSeq, none)) ∧
      (nbit (syncMask n) c = false ∨ nodeLayer n c = false →
        tget none u.tb.sent c = tget none n.tb.sent c ∧ canOf u c = canOf n c)) := by
  obtain ⟨data, heff⟩ := syncSend_due (n := atInstant s t) hm ((syncDue_iff _).2 hd)
  refine acts_of_eq rfl heff ?_
  clear heff
  generalize atInstant s t = n
  obtain ⟨regs, off, -, asked, others⟩ := syncsOn_foldl n.tb.syncSeq data (members (syncMask n) 24) n
  refine ⟨rfl, rfl, off, regs, fun hc hb hl => asked c (mem_members.2 ⟨hc, hb⟩) hl, fun h => others c (h.imp (fun hb hmem => ?_) id)⟩
  rw [nbit, (mem_members.1 hmem).2] at hb
  exact absurd hb (by decide)

theorem acts_followSend {t c q tai : Nat} {s : State} (hck : s.node.tb.ckFail = none)
    (hs : tget none s.node.tb.sent c = some (q, some tai)) : Acts (.followSend t c) s t (fun n u =>
      tget none u.tb.sent c = none ∧ u.regs = n.regs ∧ u.tb.syncSeq = n.tb.syncSeq ∧ ∀ k, k ≠ c → canOf u k = canOf n k) := by
  have heff : ∃ msg, followSend (atInstant s t) c =
      queueMsg (modTb (atInstant s t) (fun t => { t with sent := tset none t.sent c none })) c msg := by
    refine ⟨ownMsg (atInstant s t) 0 2 q 3 (bytesLE 8 tai ++ [byteOf (qual (atInstant s t)), 0, 0, 0]), ?_⟩
    have h1 : (if (atInstant s t).tb.ckFail.isNone then tget none (atInstant s t).tb.sent c else none) = some (q, some tai) := by
      have hck' : (atInstant s t).tb.ckFail = none := hck
      rw [hck']
      exact hs
    unfold followSend
    rw [h1]
    rfl
  obtain ⟨msg, heff⟩ := heff
  refine acts_of_eq (f := fun n => followSend n c) rfl heff ?_
  generalize atInstant s t = n
  obtain ⟨cs, r, lg, hd, d, qq, hu, -⟩ := queues_queueMsg (modTb n (fun t => { t with sent := tset none t.sent c none })) c msg
  have honly := (keepsCan_queueMsg (modTb n (fun t => { t with sent := tset none t.sent c none })) c msg).1
  refine ⟨?_, ?_, ?_, fun k hk => honly k hk⟩
  · rw [hu]
    exact tget_tset_self none n.tb.sent c none
  · rw [hu]; rfl
  · rw [hu]; rfl

theorem followSend_of_not {n : Node} {c : Nat}
    (h : n.tb.ckFail.isSome = true ∨ ∀ q tai, tget none n.tb.sent c ≠ some (q, some tai)) : followSend n c = n := by
  unfold followSend
  split
  · rename_i q tai heq
    rcases h with h | h
    · have hno : n.tb.ckFail.isNone = false := by rw [← Option.not_isSome, h]; rfl
      rw [hno] at heq
      exact absurd heq (by simp)
    · split at heq
      · exact absurd heq (h q tai)
      · exact absurd heq (by simp)
  · rfl

/-- Settles O24. -/
theorem timeOverCan : Obligations.TimeOverCan := by
  refine ⟨fun t h seq sof q tai int y s => ⟨acts_canSyncReceived, fun hn => ?_, fun hn => ?_,
    fun ha hy hf => ⟨acts_canFollowReceived ha hy hf, acts_canFollowReceived_broken ha hy hf⟩,
    acts_canFollowReceived_unfollowed⟩, fun t c s => ⟨acts_syncSend c, fun h => ?_, fun q tai => acts_followSend, fun h => ?_⟩⟩
  · exact acts_same (f := fun n => syncReceived n h seq sof q int) rfl (syncReceived_of_not (n := atInstant s t) hn seq sof q int)
  · exact acts_same (f := fun n => followReceived n h seq tai) rfl (followReceived_of_not (n := atInstant s t) hn seq tai)
  · refine acts_same rfl (syncSend_of_not (n := atInstant s t) (h.imp id fun ⟨a, ha, hlt⟩ => ?_))
    rw [Bool.eq_false_iff]
    intro hd
    have hle := (syncDue_iff (atInstant s t)).1 hd a ha
    have hlt' : (atInstant s t).now < a + 62500000 * 2 ^ min (fld (reg (atInstant s t) (at_ 1 0x7C)) 27 25) 4 := hlt
    omega
  · exact acts_same (f := fun n => followSend n c) rfl (followSend_of_not (n := atInstant s t) h)

end Sys2Proof.Machine
end

section
/-! PROOF. Time sources lost and changed, the failure of CK_TB, and stored time (03 R64 to R69). -/

namespace Sys2Proof.Machine

/-! The selection (03 R66) -/

theorem better_of_unusable {n : Node} {b : TimeSrc} (h : usable n b = false) (a : Option TimeSrc) : better n a b = a := by
  simp only [better, h, Bool.false_eq_true, if_false]

/-- No source is usable: none is the best. -/
theorem bestSource_of_none {n : Node} (h : ∀ x, usable n x = false) : bestSource n = none := by
  simp only [bestSource, List.foldl_cons, List.foldl_nil, better_of_unusable (h _)]

theorem lostDue_iff (n : Node) (src : TimeSrc) (announce : Bool) : lostDue n src announce = true ↔ lossDue n src announce := by
  have since : ∀ (o : Option Nat) (d : Nat), (match o with | some l => decide (l + d ≤ n.now) | none => false) = true ↔
      ∃ l, o = some l ∧ l + d ≤ n.now := by
    intro o d
    cases o <;> simp
  cases src with
  | ptp =>
    cases announce with
    | true =>
      simp only [lostDue, lossDue, sourceOf, if_true, announceSilence]
      cases hm : tget none n.tb.ptpPorts n.tb.ptp.port with
      | none => simp
      | some m =>
        simp only [Bool.true_eq_false, false_and, true_and, false_or, Option.some.injEq, exists_eq_left']
        exact decide_eq_true_iff
    | false =>
      simp only [lostDue, lossDue, sourceOf, Bool.false_eq_true, if_false, false_and, or_false, true_and]
      exact since _ _
  | can => exact since _ _
  | pps => exact since _ _
  | partner => simp [lostDue, lossDue, or_assoc]

/-! A source lost -/

/-- The source afresh, before it is left. -/
def lost (n : Node) (s : TimeSrc) : Node :=
  let m := modSource n s (fun x => { x with qualified := false, good := 0, offs := [] })
  match s with
  | .can => modTb m (fun t => { t with
      canMaster := none, syncs := t.syncs.filter (fun e => some (e.1 % 256) != t.canMaster),
      senders := t.senders.filter (fun e => some e.1 != t.canMaster) })
  | .ptp => modTb m (fun t => { t with ptpPorts := tset none t.ptpPorts t.ptp.port none })
  | _ => m

theorem loseSource_eq (n : Node) (s : TimeSrc) : loseSource n s = if n.tb.sel = some s then leaveSource (lost n s) else lost n s := by
  have hsel : (lost n s).tb.sel = n.tb.sel := by cases s <;> rfl
  rw [← hsel]
  cases s <;> rfl

/-- What the loss leaves of the time base: the discipline, the phase, and the other sources. -/
theorem lost_rest (n : Node) (s : TimeSrc) : lost n s = { n with tb := (lost n s).tb } ∧ (lost n s).tb.sel = n.tb.sel ∧
    (lost n s).tb.state = n.tb.state ∧ (lost n s).tb.freqs = n.tb.freqs ∧ (lost n s).tb.freq = n.tb.freq ∧
    (sourceOf (lost n s) s).qualified = false ∧ ∀ x, x ≠ s → sourceOf (lost n s) x = sourceOf n x := by
  refine ⟨by cases s <;> rfl, by cases s <;> rfl, by cases s <;> rfl, by cases s <;> rfl, by cases s <;> rfl, by cases s <;> rfl,
    fun x hx => ?_⟩
  cases s <;> cases x
  case ptp.ptp => exact absurd rfl hx
  case can.can => exact absurd rfl hx
  case pps.pps => exact absurd rfl hx
  case partner.partner => exact absurd rfl hx
  all_goals rfl

/-- Holdover, before its record. -/
def holding (n : Node) : Node :=
  let f := if n.tb.freqs = [] then n.tb.freq else meanFreq (n.now - 1000000000000) n.now 0 0 n.tb.freqs
  modTb (stopSlew n) (fun t => { t with
    state := .holdover, sel := none, port := 0, holdSince := some n.now, timeFar := none, stepPend := none,
    freq := f, freqs := (n.now, f) :: recentFreqs (n.now - 1000000000000) t.freqs })

theorem enterHoldover_eq (n : Node) : enterHoldover n =
    raiseB (note (holding n) (recTime (holding n) 3 (bytesI 8 (holding n).tb.offset) 0 (holding n).period)) 1 1 := rfl

theorem keepsPhase_enterHoldover (n : Node) : KeepsPhase n (enterHoldover n) := by
  rw [enterHoldover_eq]
  refine (KeepsPhase.trans ?_ (keepsPhase_note _ _)).trans (keepsPhase_raiseB _ _ _)
  unfold holding
  exact (keepsPhase_stopSlew n).trans (keepsPhase_modTb _ fun _ => rfl)

theorem tb_enterHoldover (n : Node) : (enterHoldover n).tb = (holding n).tb := by
  rw [enterHoldover_eq, raiseB_tb, note_tb]

/-- What holdover shows (03 R64, R68). -/
theorem enterHoldover_shows (n : Node) : (enterHoldover n).tb.state = .holdover ∧ (enterHoldover n).tb.sel = none ∧
    (enterHoldover n).tb.holdSince = some n.now ∧ (enterHoldover n).tb.slew = 0 ∧ (enterHoldover n).tb.timeFar = none ∧
    (enterHoldover n).tb.stepPend = none ∧ (n.tb.freqs = [] → (enterHoldover n).tb.freq = n.tb.freq) ∧
    (1, 1) ∈ (enterHoldover n).dueB := by
  rw [tb_enterHoldover]
  refine ⟨rfl, rfl, rfl, rfl, rfl, rfl, fun h => ?_, ?_⟩
  · exact if_pos h
  · rw [enterHoldover_eq]
    exact List.mem_append_right _ List.mem_cons_self

theorem sourceOf_congr {n m : Node} (h : KeepsPhase n m) (s : TimeSrc) : sourceOf m s = sourceOf n s := by
  cases s with
  | ptp => exact h.ptp
  | can => exact h.can
  | pps => exact h.pps
  | partner => exact h.partner

theorem usable_lost {n : Node} {s : TimeSrc} (h : ∀ x, x ≠ s → usable n x = false) (x : TimeSrc) : usable (lost n s) x = false := by
  obtain ⟨hrest, -, -, -, -, hself, hother⟩ := lost_rest n s
  by_cases hx : x = s
  · subst hx
    simp only [usable, hself, Bool.false_and]
  · have hprio : srcPriority (lost n s) x = srcPriority n x := by
      rw [hrest]
      rfl
    rw [usable, hprio, hother x hx]
    exact h x hx

theorem sourceLost_due {n : Node} {code : Nat} {src : TimeSrc} {announce : Bool} (hc : srcOfCode code = some src)
    (hd : lossDue n src announce) : sourceLost n code announce = loseSource n src := by
  simp only [sourceLost, hc, (lostDue_iff n src announce).2 hd, if_true]

theorem sourceLost_of_not {n : Node} {code : Nat} {announce : Bool}
    (h : ∀ x, srcOfCode code = some x → ¬ lossDue n x announce) : sourceLost n code announce = n := by
  unfold sourceLost
  cases hc : srcOfCode code with
  | none => rfl
  | some x =>
    have hno : lostDue n x announce = false := Bool.eq_false_iff.2 (fun hd => h x hc ((lostDue_iff n x announce).1 hd))
    simp only [hno, Bool.false_eq_true, if_false]

theorem acts_sourceLost_selected {t code : Nat} {announce : Bool} {src : TimeSrc} {s : State} (hc : srcOfCode code = some src)
    (hd : lossDue (atInstant s t) src announce) (hsel : s.node.tb.sel = some src) (hst : s.node.tb.state ≠ .holdover)
    (hun : ∀ x, x ≠ src → usable s.node x = false) : Acts (.sourceLost t code announce) s t (fun n u =>
      u.tb.state = .holdover ∧ u.tb.sel = none ∧ u.tb.holdSince = some n.now ∧ u.tb.slew = 0 ∧ u.tb.timeFar = none ∧
      u.tb.stepPend = none ∧ (n.tb.freqs = [] → u.tb.freq = n.tb.freq) ∧ (1, 1) ∈ u.dueB ∧ taiNow u = taiNow n ∧
      (sourceOf u src).qualified = false) := by
  have hsel' : (atInstant s t).tb.sel = some src := hsel
  have hst' : (atInstant s t).tb.state ≠ .holdover := hst
  have hun' : ∀ x, x ≠ src → usable (atInstant s t) x = false := fun x hx => hun x hx
  have heff : sourceLost (atInstant s t) code announce = enterHoldover (lost (atInstant s t) src) := by
    rw [sourceLost_due hc hd, loseSource_eq, if_pos hsel', leaveSource, bestSource_of_none (usable_lost hun')]
    obtain ⟨-, -, hstate, -⟩ := lost_rest (atInstant s t) src
    simp only [hstate, hst', if_false]
  refine acts_of_eq (f := fun n => sourceLost n code announce) rfl heff ?_
  generalize atInstant s t = n
  obtain ⟨hrest, -, -, hfreqs, hfreq, hself, -⟩ := lost_rest n src
  obtain ⟨h1, h2, h3, h4, h5, h6, h7, h8⟩ := enterHoldover_shows (lost n src)
  have keep := keepsPhase_enterHoldover (lost n src)
  have hnow : (lost n src).now = n.now := by rw [hrest]
  have htai : taiNow (lost n src) = taiNow n := by rw [hrest]; rfl
  refine ⟨h1, h2, h3.trans (congrArg some hnow), h4, h5, h6, fun h => (h7 (hfreqs.trans h)).trans hfreq, h8, keep.tai.trans htai, ?_⟩
  have hsource : sourceOf (settle (enterHoldover (lost n src))) src = sourceOf (lost n src) src := by
    rw [← sourceOf_congr keep src]
    cases src <;> rfl
  rw [hsource, hself]

theorem acts_sourceLost_other {t code : Nat} {announce : Bool} {src : TimeSrc} {s : State} (hc : srcOfCode code = some src)
    (hd : lossDue (atInstant s t) src announce) (hsel : s.node.tb.sel ≠ some src) :
    Acts (.sourceLost t code announce) s t (fun n u =>
      SameButSignals u { n with tb := u.tb } ∧ u.tb.sel = n.tb.sel ∧ u.tb.state = n.tb.state ∧
      (sourceOf u src).qualified = false) := by
  have hsel' : (atInstant s t).tb.sel ≠ some src := hsel
  have heff : sourceLost (atInstant s t) code announce = lost (atInstant s t) src := by
    rw [sourceLost_due hc hd, loseSource_eq, if_neg hsel']
  refine acts_of_eq (f := fun n => sourceLost n code announce) rfl heff ?_
  generalize atInstant s t = n
  obtain ⟨hrest, h1, h2, -, -, hself, -⟩ := lost_rest n src
  refine ⟨?_, h1, h2, ?_⟩
  · generalize lost n src = m at hrest
    rw [SameButSignals, hrest]
    rfl
  · have hsource : sourceOf (settle (lost n src)) src = sourceOf (lost n src) src := by cases src <;> rfl
    rw [hsource, hself]

/-! A better source (03 R66), and the end of acquisition (03 R64) -/

theorem sourceSwitch_due {n : Node} {src b : TimeSrc} (hs : n.tb.sel = some src) (hb : bestSource n = some b) (hne : b ≠ src)
    (hd : (sourceOf n b).since + 10000000000 ≤ n.now) : sourceSwitch n = selectSource n b := by
  simp only [sourceSwitch, hb, hs]
  exact if_pos ⟨hne, hd⟩

theorem sourceSwitch_early {n : Node} {src b : TimeSrc} (hs : n.tb.sel = some src) (hb : bestSource n = some b)
    (hd : n.now < (sourceOf n b).since + 10000000000) : sourceSwitch n = n := by
  simp only [sourceSwitch, hb, hs]
  exact if_neg (fun h => by have := h.2; omega)

theorem sourceSwitch_of_not {n : Node} (h : n.tb.sel = none ∨ bestSource n = none ∨ bestSource n = n.tb.sel) : sourceSwitch n = n := by
  unfold sourceSwitch
  split
  · rename_i b s hb hs
    rcases h with h | h | h
    · rw [h] at hs; exact absurd hs (by simp)
    · rw [h] at hb; exact absurd hb (by simp)
    · rw [hb, hs] at h
      exact if_neg (fun hc => hc.1 (Option.some.inj h))
  · rfl

theorem acqTimeout_due {n : Node} {a : Nat} (ha : n.tb.acqAt = some a) (hst : n.tb.state = .acquiring) (hsel : n.tb.sel = none)
    (hd : a + fld (reg n (at_ 1 0x80)) 7 0 * 1000000000 ≤ n.now) : acqTimeout n = modTb n (fun t => { t with state := .free }) := by
  simp only [acqTimeout, ha]
  exact if_pos ⟨hst, hsel, decide_eq_true hd⟩

theorem acqTimeout_of_not {n : Node} (h : n.tb.state ≠ .acquiring ∨ n.tb.sel.isSome = true ∨ n.tb.acqAt = none ∨
    (∃ a, n.tb.acqAt = some a ∧ n.now < a + fld (reg n (at_ 1 0x80)) 7 0 * 1000000000)) : acqTimeout n = n := by
  unfold acqTimeout
  dsimp only
  refine if_neg ?_
  rintro ⟨hst, hsel, hd⟩
  rcases h with h | h | h | ⟨a, ha, hlt⟩
  · exact h hst
  · rw [hsel] at h; exact absurd h (by decide)
  · rw [h] at hd; exact absurd hd (by simp)
  · rw [ha] at hd
    have := of_decide_eq_true hd
    omega

/-! The failure of CK_TB (03 R69) -/

/-- The failure, before what it does to the selected source. -/
def ckFailed (n : Node) : Node :=
  let m := modTb (stopSlew n) (fun t => { t with
    ckFail := some n.now, estErr := estErrAt n n.now, ptp := {}, can := {}, pps := {}, partner := {}, ptpPorts := [], syncs := [],
    senders := [], sent := [], canMaster := none, ptpMaster := false, tod := none, stepPend := none, timeFar := none })
  raiseB (note m (recTime m 7 (bytesI 8 m.tb.offset) 0 m.period)) 1 5

theorem cktbFail_eq {n : Node} (h : n.tb.ckFail = none) :
    cktbFail n = if (ckFailed n).tb.sel.isSome then enterHoldover (ckFailed n) else ckFailed n := by
  rw [cktbFail, h]
  rfl

theorem ckFailed_shows (n : Node) : (ckFailed n).tb.ckFail = some n.now ∧ (ckFailed n).tb.ptp = {} ∧ (ckFailed n).tb.can = {} ∧
    (ckFailed n).tb.pps = {} ∧ (ckFailed n).tb.partner = {} ∧ (ckFailed n).tb.syncs = [] ∧ (ckFailed n).tb.sent = [] ∧
    (ckFailed n).tb.ptpMaster = false ∧ (ckFailed n).tb.stepPend = none ∧ (ckFailed n).tb.timeFar = none ∧
    (ckFailed n).tb.slew = 0 ∧ taiNow (ckFailed n) = taiNow n ∧ (1, 5) ∈ (ckFailed n).dueB ∧ (ckFailed n).tb.sel = n.tb.sel ∧
    (ckFailed n).tb.state = n.tb.state ∧ (ckFailed n).now = n.now := by
  unfold ckFailed
  generalize hm : modTb (stopSlew n) (fun t => { t with
    ckFail := some n.now, estErr := estErrAt n n.now, ptp := {}, can := {}, pps := {}, partner := {}, ptpPorts := [], syncs := [],
    senders := [], sent := [], canMaster := none, ptpMaster := false, tod := none, stepPend := none, timeFar := none }) = m
  dsimp only
  have htb : (raiseB (note m (recTime m 7 (bytesI 8 m.tb.offset) 0 m.period)) 1 5).tb = m.tb := by rw [raiseB_tb, note_tb]
  have htai : taiNow (raiseB (note m (recTime m 7 (bytesI 8 m.tb.offset) 0 m.period)) 1 5) = taiNow m :=
    taiNow_of_recFrame (n := m) (m := note m (recTime m 7 (bytesI 8 m.tb.offset) 0 m.period)) (recFrame_note m _)
  have hnow : (raiseB (note m (recTime m 7 (bytesI 8 m.tb.offset) 0 m.period)) 1 5).now = m.now := by rw [raiseB_now, note_now]
  have mtai : taiNow m = taiNow n := by
    rw [← hm]
    exact taiNow_endRamp n
  have mnow : m.now = n.now := by rw [← hm]; rfl
  rw [htb, htai, hnow, mtai, mnow, ← hm]
  exact ⟨rfl, rfl, rfl, rfl, rfl, rfl, rfl, rfl, rfl, rfl, rfl, rfl, List.mem_append_right _ List.mem_cons_self, rfl, rfl, rfl⟩

theorem acts_cktbFail {t : Nat} {s : State} (hck : s.node.tb.ckFail = none) : Acts (.cktbFail t) s t (fun n u =>
      u.tb.ckFail = some n.now ∧ u.tb.ptp = {} ∧ u.tb.can = {} ∧ u.tb.pps = {} ∧ u.tb.partner = {} ∧ u.tb.syncs = [] ∧
      u.tb.sent = [] ∧ u.tb.ptpMaster = false ∧ u.tb.stepPend = none ∧ u.tb.timeFar = none ∧ u.tb.slew = 0 ∧
      taiNow u = taiNow n ∧ (1, 5) ∈ u.dueB ∧ u.tb.sel = none ∧
      (n.tb.sel = none → u.tb.state = n.tb.state) ∧
      (n.tb.sel.isSome = true → u.tb.state = .holdover ∧ u.tb.holdSince = some n.now ∧ (1, 1) ∈ u.dueB)) := by
  refine acts_of_eq rfl (cktbFail_eq (n := atInstant s t) hck) ?_
  generalize atInstant s t = n
  obtain ⟨hfail, hptp, hcan, hpps, hpartner, hsyncs, hsent, hmaster, hstep, hfar, hslew, htai, hdue, hsel, hstate, hnow⟩ := ckFailed_shows n
  generalize ckFailed n = m at *
  cases hs : n.tb.sel with
  | none =>
    have hno : m.tb.sel.isSome = false := by rw [hsel, hs]; rfl
    rw [hno, if_neg Bool.false_ne_true]
    exact ⟨hfail, hptp, hcan, hpps, hpartner, hsyncs, hsent, hmaster, hstep, hfar, hslew, htai, hdue, hsel.trans hs, fun _ => hstate,
      fun h => absurd h (by decide)⟩
  | some x =>
    have hyes : m.tb.sel.isSome = true := by rw [hsel, hs]; rfl
    rw [hyes, if_pos rfl]
    have keep := keepsPhase_enterHoldover m
    obtain ⟨h1, h2, h3, h4, h5, h6, -, h8⟩ := enterHoldover_shows m
    exact ⟨keep.ckFail.trans hfail, keep.ptp.trans hptp, keep.can.trans hcan, keep.pps.trans hpps, keep.partner.trans hpartner,
      keep.syncs.trans hsyncs, keep.sent.trans hsent, keep.ptpMaster.trans hmaster, h6, h5, h4, keep.tai.trans htai,
      keep.due.subset hdue, h2, fun h => absurd h (by simp), fun _ => ⟨h1, h3.trans (congrArg some hnow), h8⟩⟩

theorem cktbFail_once {n : Node} (h : n.tb.ckFail.isSome = true) : cktbFail n = n := if_pos h

/-- Settles O25. -/
theorem sourcesLostAndChanged : Obligations.SourcesLostAndChanged := by
  refine ⟨fun t code announce src b s => ⟨fun hc hd => ⟨acts_sourceLost_selected hc hd, acts_sourceLost_other hc hd⟩, fun h => ?_,
    fun hs hb hne => ⟨fun hd => ?_, fun hd => ?_⟩, fun h => ?_, fun a ha hst hsel hd => ?_, fun h => ?_⟩,
    fun t s => ⟨acts_cktbFail, fun h => ?_, fun h => ?_, fun h => ?_⟩⟩
  · exact acts_same (f := fun n => sourceLost n code announce) rfl (sourceLost_of_not (n := atInstant s t) h)
  · refine acts_of_eq rfl (sourceSwitch_due (n := atInstant s t) hs hb hne hd) ⟨sel_selectSource _ b, due_selectSource _ b, ?_⟩
    exact (keepsPhase_selectSource (atInstant s t) b).tai
  · exact acts_same rfl (sourceSwitch_early (n := atInstant s t) hs hb hd)
  · exact acts_same rfl (sourceSwitch_of_not (n := atInstant s t) h)
  · exact acts_of_eq rfl (acqTimeout_due (n := atInstant s t) ha hst hsel hd) rfl
  · exact acts_same rfl (acqTimeout_of_not (n := atInstant s t) h)
  · exact acts_same rfl (cktbFail_once (n := atInstant s t) h)
  · exact acts_of_eq rfl (if_pos h) rfl
  · exact acts_same rfl (if_neg (Bool.eq_false_iff.1 h))

end Sys2Proof.Machine
end

section
/-! PROOF. Commands that the lanes take up wait for their boundary (02 R44, R45). -/

namespace Sys2Proof.Machine

/-! Acceptance of a command that waits -/

/-- The decision and the hand to the lanes, whichever comes first. -/
theorem resolveCmd_byLanes (n : Node) (p : Nat) (r : Option Bool) :
    resolveCmd (byLanes n p) p r = byLanes (resolveCmd n p r) p := by
  have hcmds : (resolveCmd (byLanes n p) p r).cmds = (byLanes (resolveCmd n p r) p).cmds := by
    simp only [resolveCmd, byLanes, setCmd, cmdOf, tget_tset_self, tset_tset, Option.map_map]
    rfl
  have h1 : resolveCmd (byLanes n p) p r = { n with cmds := (resolveCmd (byLanes n p) p r).cmds } := rfl
  have h2 : byLanes (resolveCmd n p r) p = { n with cmds := (byLanes (resolveCmd n p r) p).cmds } := rfl
  rw [h1, h2, hcmds]

theorem acceptCmd_now (n : Node) (path p off : Nat) (v : Word) :
    (acceptCmd n path p off v).now = n.now ∧ (acceptCmd n path p off v).acts = n.acts := by
  rw [acceptCmd, touchSession_rest]
  exact ⟨rfl, rfl⟩

theorem resolveCmd_withActs (n : Node) (p : Nat) (r : Option Bool) (l : List Waiting) :
    resolveCmd { n with acts := l } p r = { resolveCmd n p r with acts := l } := rfl

theorem runCommand_deferred {n : Node} {path p off : Nat} {v : Word} {k : CmdCheck} (h : judge n path p k = .accept) (a : LaneAct) :
    runCommand n path p off v k (defer p a) = deferred n path p off v a := by
  obtain ⟨hnow, hacts⟩ := acceptCmd_now n path p off v
  have heff : runCommand n path p off v k (defer p a) =
      resolveCmd { byLanes (acceptCmd n path p off v) p with acts := (acceptCmd n path p off v).acts ++
        [{ due := (acceptCmd n path p off v).now + 5000, page := p, act := a }] } p none := by
    simp only [runCommand, h]
    rfl
  rw [heff, resolveCmd_withActs, resolveCmd_byLanes, hnow, hacts]
  rfl

theorem runCommand_duplicate {n : Node} {path p off : Nat} {v : Word} {k : CmdCheck} (h : judge n path p k = .duplicate)
    (eff : Node → Node × Option Bool) : runCommand n path p off v k eff = n := by
  simp only [runCommand, h]

theorem runCommand_refuse {n : Node} {path p off code : Nat} {v : Word} {k : CmdCheck} (h : judge n path p k = .refuse code)
    (eff : Node → Node × Option Bool) : runCommand n path p off v k eff = setCmdRes n path p code := by
  simp only [runCommand, h]

theorem runCommand_accept {n : Node} {path p off : Nat} {v : Word} {k : CmdCheck} (h : judge n path p k = .accept)
    (eff : Node → Node × Option Bool) : runCommand n path p off v k eff =
      resolveCmd (eff (acceptCmd n path p off v)).1 p (eff (acceptCmd n path p off v)).2 := by
  simp only [runCommand, h]

/-- What a write of a command leaves that waits for its boundary (02 R44, R45). -/
theorem acts_waiting {c : Instr} {s : State} {t p off : Nat} {v : Word} {k : CmdCheck} {a : LaneAct} {f : Node → Node}
    (hc : exec c s = .next (onNode s t f)) (hf : f (atInstant s t) = runCommand (atInstant s t) hostPath p off v k (defer p a)) :
    Acts c s t (fun n u =>
      match judge n hostPath p k with
      | .duplicate => SameButSignals u n
      | .refuse code =>
        SameButSignals u { n with seqs := u.seqs } ∧
        seqOf u hostPath p = { seqOf n hostPath p with cmdRes := code } ∧ ∀ j, j ≠ p → tget {} u.seqs j = tget {} n.seqs j
      | .accept => SameButSignals u (deferred n hostPath p off v a)) := by
  refine acts_of_eq hc hf ?_
  generalize atInstant s t = n
  cases hj : judge n hostPath p k with
  | duplicate =>
    rw [runCommand_duplicate hj]
    exact sameButSignals_settle n
  | refuse code =>
    rw [runCommand_refuse hj]
    refine ⟨rfl, ?_, fun j hj => ?_⟩
    · exact seqOf_modSeq_self n hostPath p (fun q => { q with cmdRes := code })
    · exact tget_tset_ne {} n.seqs _ hj
  | accept =>
    rw [runCommand_deferred hj]
    exact sameButSignals_settle _

/-! The words of the commands, as the registers take them apart -/

theorem almWord_fields {op tgt : Nat} (ho : op < 16) (ht : tgt < 4) (index : Nat) :
    fld (almWord op tgt index) 3 0 = op ∧ fld (almWord op tgt index) 5 4 = tgt ∧ fld (almWord op tgt index) 28 16 = index % 8192 := by
  have hn : (almWord op tgt index).toNat = index % 8192 * 65536 + tgt * 16 + op := by
    simp only [almWord, pack, packN, List.foldl_cons, List.foldl_nil, BitVec.toNat_ofNat]
    omega
  simp only [fld, hn, Nat.shiftRight_eq_div_pow]
  omega

theorem lchWord_fields {op e : Nat} (ho : op < 4) (he : e < 64) : lchOp (lchWord op e) = op ∧ lchEntry (lchWord op e) = e := by
  have hn : (lchWord op e).toNat = op * 256 + e := by
    simp only [lchWord, pack, packN, List.foldl_cons, List.foldl_nil, BitVec.toNat_ofNat]
    omega
  simp only [lchOp, lchEntry, fld, hn, Nat.shiftRight_eq_div_pow]
  omega

theorem laneCmdWord_fields {op l : Nat} (ho : op < 16) (hl : l < 4) :
    fld (laneCmdWord op l) 3 0 = op ∧ fld (laneCmdWord op l) 5 4 = l := by
  have hn : (laneCmdWord op l).toNat = l * 16 + op := by
    simp only [laneCmdWord, pack, packN, List.foldl_cons, List.foldl_nil, BitVec.toNat_ofNat]
    omega
  simp only [fld, hn, Nat.shiftRight_eq_div_pow]
  omega

/-! The writes themselves -/

theorem almCmdWrite_eq {op tgt : Nat} (ho : op < 16) (ht : tgt < 4) (n : Node) (index : Nat) :
    almCmdWrite n hostPath (almWord op tgt index) = runCommand n hostPath 9 (at_ 9 0x48) (almWord op tgt index)
      (almCheck n 0 (almWord op tgt index)) (defer 9 (.alm op tgt (index % 8192) (almArg n))) := by
  obtain ⟨h1, h2, h3⟩ := almWord_fields ho ht index
  rw [almCmdWrite, h1, h2, h3]
  rfl

theorem lchCmdWrite_eq {op e : Nat} (ho : op < 4) (he : e < 64) (n : Node) :
    lchCmdWrite n hostPath (lchWord op e) = runCommand n hostPath 0x0A (at_ 0x0A 0x50) (lchWord op e)
      (lchCheck n 0 (lchWord op e)) (defer 0x0A (.launch op e (lchTgt n) (lchAct n) (lchArg n))) := by
  obtain ⟨h1, h2⟩ := lchWord_fields ho he
  rw [lchCmdWrite, h1, h2]
  rfl

theorem lchCheck_cancel {e : Nat} (he : e < 64) (n : Node) :
    lchCheck n 0 (lchWord 2 e) = { state := inStates n 30, level := levelOk n 0 2 } := by
  rw [lchCheck, (lchWord_fields (by decide) he).1]
  rfl

/-- The level that an operation of LANE_CMD asks for. -/
def laneLevel (op : Nat) : Nat := match op with | 1 => 2 | 2 => 3 | _ => 1

theorem laneCmdCheck_eq {op l : Nat} (ho : op < 16) (hl : l < 3) (n : Node) : laneCmdCheck n 0 (laneCmdWord op l) =
    { code := decide (1 ≤ op ∧ op ≤ 3), value := true, state := op != 2 || (isConfig n && lanesTmr n),
      level := levelOk n 0 (laneLevel op) } := by
  obtain ⟨h1, h2⟩ := laneCmdWord_fields ho (by omega : l < 4)
  rw [laneCmdCheck, h1, h2]
  have hv : decide (l ≤ 2) = true := decide_eq_true (by omega)
  rw [hv]
  rfl

/-- Each row's write is a command that waits, with what the row gives. -/
theorem waitingRow_runs {c : Instr} {s : State} {off : Nat} {v : Word} {k : CmdCheck} {a : LaneAct} (hw : wellFormed c = true)
    (hr : waitingRow (atInstant s (waitingAt c)) c = some (off, v, k, a)) : ∃ f : Node → Node,
      exec c s = .next (onNode s (waitingAt c) f) ∧ f (atInstant s (waitingAt c)) =
        runCommand (atInstant s (waitingAt c)) hostPath (off / 4096) off v k (defer (off / 4096) a) := by
  cases c <;> simp only [waitingRow, reduceCtorEq] at hr
  case almAck t g i => cases hr; exact ⟨_, rfl, almCmdWrite_eq (by decide) (of_decide_eq_true hw) _ i⟩
  case almSilence t g i => cases hr; exact ⟨_, rfl, almCmdWrite_eq (by decide) (of_decide_eq_true hw) _ i⟩
  case almShelve t g i => cases hr; exact ⟨_, rfl, almCmdWrite_eq (by decide) (of_decide_eq_true hw) _ i⟩
  case almUnshelve t g i => cases hr; exact ⟨_, rfl, almCmdWrite_eq (by decide) (of_decide_eq_true hw) _ i⟩
  case almFoReset t g i => cases hr; exact ⟨_, rfl, almCmdWrite_eq (by decide) (of_decide_eq_true hw) _ i⟩
  case almTransfer t g i => cases hr; exact ⟨_, rfl, almCmdWrite_eq (by decide) (of_decide_eq_true hw) _ i⟩
  case lchArm t e => cases hr; exact ⟨_, rfl, lchCmdWrite_eq (by decide) (of_decide_eq_true hw) _⟩
  case lchCancel t e =>
    cases hr
    refine ⟨_, rfl, ?_⟩
    rw [← lchCheck_cancel (of_decide_eq_true hw)]
    exact lchCmdWrite_eq (by decide) (of_decide_eq_true hw) _
  case laneRetry t l =>
    cases hr
    refine ⟨fun n => laneCmdWrite n hostPath (laneCmdWord 1 l), rfl, ?_⟩
    change runCommand _ hostPath 3 (at_ 3 0x88) _ (laneCmdCheck _ 0 _) _ = _
    exact congrArg (fun k => runCommand _ hostPath 3 (at_ 3 0x88) _ k _) (laneCmdCheck_eq (by decide) (of_decide_eq_true hw) _)
  case laneExclude t l =>
    cases hr
    refine ⟨fun n => laneCmdWrite n hostPath (laneCmdWord 2 l), rfl, ?_⟩
    change runCommand _ hostPath 3 (at_ 3 0x88) _ (laneCmdCheck _ 0 _) _ = _
    exact congrArg (fun k => runCommand _ hostPath 3 (at_ 3 0x88) _ k _) (laneCmdCheck_eq (by decide) (of_decide_eq_true hw) _)
  case laneClear t =>
    cases hr
    refine ⟨fun n => laneCmdWrite n hostPath (laneCmdWord 3 0), rfl, ?_⟩
    change runCommand _ hostPath 3 (at_ 3 0x88) _ (laneCmdCheck _ 0 _) _ = _
    exact congrArg (fun k => runCommand _ hostPath 3 (at_ 3 0x88) _ k _) (laneCmdCheck_eq (by decide) (by decide) _)
  case acqCmdClear t => cases hr; exact ⟨_, rfl, rfl⟩
  case callWatchOn t => cases hr; exact ⟨_, rfl, rfl⟩
  case callWatchOff t =>
    cases hr
    refine ⟨_, rfl, ?_⟩
    have hop : fld (2 : Word) 1 0 = 2 := rfl
    simp only [callCmdWrite, callCmdCheck, hop, true_and]
    rfl
  case callWatchReset t => cases hr; exact ⟨_, rfl, rfl⟩
  case callDuty t w => cases hr; exact ⟨_, rfl, rfl⟩
  case rnkCmdClear t r =>
    split at hr
    · rename_i hlt
      cases hr
      have hpage : at_ (0x10 + r) 0x70 / 4096 = 0x10 + r := at_div _ _ (by decide)
      refine ⟨fun n => if r < 16 then rnkCmdWrite n hostPath r 1 else n, rfl, ?_⟩
      rw [hpage]
      exact if_pos hlt
    · exact absurd hr (by simp)
  case dpxClear t => cases hr; exact ⟨_, rfl, rfl⟩
  case gotoStandby t => cases hr; exact ⟨_, rfl, rfl⟩
  case gotoConfig t => cases hr; exact ⟨_, rfl, rfl⟩
  case gotoRun t => cases hr; exact ⟨_, rfl, rfl⟩
  case gotoSafe t => cases hr; exact ⟨_, rfl, rfl⟩

/-- Settles O27. -/
theorem laneCommandsWaitForTheirBoundary : Obligations.LaneCommandsWaitForTheirBoundary := by
  intro c s off v k a hw hr
  obtain ⟨f, hc, hf⟩ := waitingRow_runs hw hr
  exact acts_waiting hc hf

end Sys2Proof.Machine
end

section
/-! PROOF. TB_CMD, and a change of period at its instant (03 R63, R71, R74, R75). -/

namespace Sys2Proof.Machine

/-! TB_CMD (03 R63, R71) -/

theorem acts_tbStep {t : Nat} {s : State}
    (h : judge (atInstant s t) hostPath 1 { state := isRun s.node, level := levelOk s.node hostPath 2 } = .accept) :
    Acts (.tbStep t) s t (fun n u => SameButSignals u (deferred n hostPath 1 (at_ 1 0x84) 1 .tbStep)) := by
  have heff : tbCmdWrite (atInstant s t) hostPath 1 = runCommand (atInstant s t) hostPath 1 (at_ 1 0x84) 1
      { state := isRun s.node, level := levelOk s.node hostPath 2 } (defer 1 .tbStep) := rfl
  exact acts_of_eq (f := fun n => tbCmdWrite n hostPath 1) rfl (heff.trans (runCommand_deferred h _)) (sameButSignals_settle _)

theorem acts_tbSetTod {t : Nat} {s : State}
    (h : judge (atInstant s t) hostPath 1 { state := inStates s.node 30, level := levelOk s.node hostPath 2 } = .accept) :
    Acts (.tbSetTod t) s t (fun n u => SameButSignals u (deferred n hostPath 1 (at_ 1 0x84) 2
      (.setTod ((reg n (at_ 1 0x88)).toNat + 4294967296 * (reg n (at_ 1 0x8C)).toNat) n.now))) := by
  have heff : tbCmdWrite (atInstant s t) hostPath 2 = runCommand (atInstant s t) hostPath 1 (at_ 1 0x84) 2
      { state := inStates s.node 30, level := levelOk s.node hostPath 2 }
      (defer 1 (.setTod (pairValue (atInstant s t) 1 0x88) (atInstant s t).now)) := rfl
  exact acts_of_eq (f := fun n => tbCmdWrite n hostPath 2) rfl (heff.trans (runCommand_deferred h _)) (sameButSignals_settle _)

/-- While the lanes vote, an act has its own effect. -/
theorem not_lanesNone {n : Node} (h : n.laneSt.state < 3) : lanesNone n = false := decide_eq_false (by omega)

theorem actEff_tbStep {n : Node} (h : n.laneSt.state < 3) (auto : Bool) : actEff auto .tbStep n = tbStepEff n := by
  simp only [actEff, not_lanesNone h, Bool.false_and, Bool.false_eq_true, if_false]

theorem actEff_setTod {n : Node} (h : n.laneSt.state < 3) (auto : Bool) (tai since : Nat) :
    actEff auto (.setTod tai since) n = setTodEff tai since n := by
  simp only [actEff, not_lanesNone h, Bool.false_and, Bool.false_eq_true, if_false]

/-- An edge has come since. -/
def edgeSince (n : Node) (since : Nat) : Bool := match n.tb.pps.last with | some l => decide (since < l) | none => false

theorem setTodEff_named {n : Node} (h : fld (reg n (at_ 1 0x74)) 2 1 = 2) (tai since : Nat) :
    setTodEff tai since n = (setTod n (if edgeSince n since then tai + 1000000000 else tai), some true) := by
  rw [setTodEff, if_neg (by rw [h]; decide)]
  rfl

theorem setTodEff_shows {n : Node} (h : fld (reg n (at_ 1 0x74)) 2 1 = 2) (tai since : Nat) :
    let r := setTodEff tai since n
    r.2 = some true ∧ r.1 = { n with tb := r.1.tb } ∧ r.1.tb.todFresh = true ∧ r.1.tb.state = n.tb.state ∧
    (∀ l, n.tb.pps.last = some l → since < l → r.1.tb.tod = some (tai + 1000000000)) ∧
    ((∀ l, n.tb.pps.last = some l → l ≤ since) → r.1.tb.tod = some tai) := by
  rw [setTodEff_named h, setTod_eq]
  refine ⟨rfl, rfl, rfl, rfl, fun l hl hlt => ?_, fun hle => ?_⟩
  · have hs : edgeSince n since = true := by simp only [edgeSince, hl, hlt, decide_true]
    simp only [hs, if_true]
  · have hs : edgeSince n since = false := by
      unfold edgeSince
      cases hl : n.tb.pps.last with
      | none => rfl
      | some l => exact decide_eq_false (Nat.not_lt.2 (hle l hl))
    simp only [hs, Bool.false_eq_true, if_false]

/-! Launches VOID (03 R81) -/

/-- From n to m launches, their interrupts and what records change differ, and nothing else. -/
def Voids (n m : Node) : Prop := ∃ ls k D, RecFrame { n with launches := ls, lchLast := k, dueR := D } m

theorem Voids.trans {a b c : Node} (h : Voids a b) (k : Voids b c) : Voids a c := by
  obtain ⟨ls, i, D, r, l, hd, d, q, rfl, hh⟩ := h
  obtain ⟨ls', i', D', r', l', hd', d', q', rfl, hh'⟩ := k
  exact ⟨ls', i', D', r', l', hd', d', q', rfl, fun p hp => (hh' p hp).trans (hh p hp)⟩

theorem Voids.refl (n : Node) : Voids n n := ⟨n.launches, n.lchLast, n.dueR, recFrame_refl n⟩

/-- The entry VOID, before its record. -/
def voided (n : Node) (e : Nat) : Node := { modLaunch n e (fun x => { x with state := .void }) with lchLast := e }

theorem voidEntry_eq (n : Node) (e : Nat) : voidEntry n e = if (launchOf n e).state = .armed then
    raiseR (note (voided n e) (recLaunch (voided n e) e 5 (fld (launchOf n e).act 3 0) (launchOf n e).tgt (launchOf n e).arg)) 0x0A 2
    else n := rfl

theorem voids_voidEntry (n : Node) (e : Nat) : Voids n (voidEntry n e) := by
  rw [voidEntry_eq]
  refine pred_ite ?_ (Voids.refl n)
  have hvoided : Voids n (voided n e) := ⟨_, _, _, recFrame_refl _⟩
  have hnote : ∀ m r, Voids m (note m r) := fun m r => ⟨m.launches, m.lchLast, m.dueR, recFrame_note m r⟩
  have hraise : ∀ m, Voids m (raiseR m 0x0A 2) := fun m => ⟨_, _, _, recFrame_refl _⟩
  exact (hvoided.trans (hnote _ _)).trans (hraise _)

theorem launchOf_voidEntry (n : Node) (e : Nat) : (launchOf (voidEntry n e) e).state ≠ .armed ∧
    ∀ j, j ≠ e → launchOf (voidEntry n e) j = launchOf n j := by
  have hlaunches : ∀ r j, launchOf (raiseR (note (voided n e) r) 0x0A 2) j = launchOf (voided n e) j := fun r j => by
    simp only [launchOf, raiseR_launches, note_launches]
  rw [voidEntry_eq]
  split
  · refine ⟨?_, fun j hj => ?_⟩
    · rw [hlaunches]
      have hself : launchOf (voided n e) e = { launchOf n e with state := .void } :=
        tget_tmod_self ({} : Launch) n.launches e (fun x => { x with state := .void })
      rw [hself]
      simp
    · rw [hlaunches]
      exact tget_tmod_ne ({} : Launch) n.launches (fun x => { x with state := .void }) hj
  · exact ⟨by assumption, fun _ _ => rfl⟩

theorem voids_voidAll (n : Node) : Voids n (voidAll n) := foldl_rel Voids.refl Voids.trans voids_voidEntry _ n

theorem launches_foldl_voidEntry (l : List Nat) : ∀ n e, (e ∈ l → (launchOf (l.foldl voidEntry n) e).state ≠ .armed) ∧
    ((launchOf n e).state ≠ .armed → (launchOf (l.foldl voidEntry n) e).state ≠ .armed) := by
  induction l with
  | nil => exact fun n e => ⟨fun h => absurd h List.not_mem_nil, id⟩
  | cons a r ih =>
    intro n e
    obtain ⟨hself, hne⟩ := launchOf_voidEntry n a
    have hkeep : (launchOf n e).state ≠ .armed → (launchOf (voidEntry n a) e).state ≠ .armed := fun h => by
      by_cases hea : e = a
      · rw [hea]; exact hself
      · rw [hne e hea]; exact h
    refine ⟨fun he => ?_, fun h => (ih (voidEntry n a) e).2 (hkeep h)⟩
    rcases List.mem_cons.1 he with rfl | he
    · exact (ih (voidEntry n e) e).2 hself
    · exact (ih (voidEntry n a) e).1 he

/-- No entry is armed any more. -/
theorem voidAll_not_armed (n : Node) (e : Nat) : (launchOf (voidAll n) e).state ≠ .armed := by
  by_cases he : e ∈ keys n.launches
  · exact (launches_foldl_voidEntry (keys n.launches) n e).1 he
  · refine (launches_foldl_voidEntry (keys n.launches) n e).2 ?_
    rw [launchOf, tget_of_not_mem_keys {} he]
    decide

/-! The change of period (03 R74, R75) -/

theorem settleAll_rest (n : Node) : settleAll n = { n with acqs := (settleAll n).acqs } :=
  foldl_rel (R := fun a b => b = { a with acqs := b.acqs }) (fun _ => rfl) (fun h k => by rw [h] at k; exact k) (fun _ _ => rfl) _ n

/-- The node at T, before launches are VOID: frame numbers restart, and the mirror shows the gap. -/
def newPeriod (n : Node) (sel T : Nat) : Node :=
  let m := shiftFrames ((T / periodOf sel : Int) - (T / n.period : Nat)) n
  { modTb m (fun t => { t with pendPeriod := none }) with period := periodOf sel, mirror := { m.mirror with gap := true } }

/-- Timers and channels under the new period. -/
def rescaled (n : Node) (old new : Nat) : Node := settleAll (rescaleCall old new (rescaleTimers old new n))

theorem rescaled_rest (n : Node) (old new : Nat) : rescaled n old new = { n with
    points := (rescaled n old new).points, call := (rescaled n old new).call, acqs := (rescaled n old new).acqs } := by
  rw [rescaled, settleAll_rest]
  rfl

theorem periodChange_due {n : Node} {sel T : Nat} (hp : n.tb.pendPeriod = some (sel, T)) (hT : T ≤ taiNow n) : periodChange n =
    let m := rescaled (voidAll (newPeriod n sel T)) n.period (periodOf sel)
    raiseB (note m { recTime m 6 (bytesI 8 m.tb.offset) 0 (periodOf sel) with time := T }) 1 6 := by
  simp only [periodChange, hp]
  rw [if_neg (by omega)]
  rfl

theorem periodChange_early {n : Node} {sel T : Nat} (hp : n.tb.pendPeriod = some (sel, T)) (hT : taiNow n < T) :
    periodChange n = n := by
  simp only [periodChange, hp, hT, if_true]

theorem acts_periodChange {t sel T : Nat} {s : State} (hp : s.node.tb.pendPeriod = some (sel, T)) (hT : T ≤ taiNow (atInstant s t)) :
    Acts (.periodChange t) s t (fun n u =>
      u.period = periodOf sel ∧ u.tb.pendPeriod = none ∧ u.mirror.gap = true ∧ (1, 6) ∈ u.dueB ∧
      u.frame = ((n.frame : Int) + ((T / periodOf sel : Nat) : Int) - ((T / n.period : Nat) : Int)).toNat ∧
      u.taiOff = n.taiOff ∧ u.regs = n.regs ∧ ∀ e, (launchOf u e).state ≠ .armed) := by
  refine acts_of_eq rfl (periodChange_due (n := atInstant s t) hp hT) ?_
  generalize atInstant s t = n
  dsimp only
  have hnew : (newPeriod n sel T).period = periodOf sel ∧ (newPeriod n sel T).tb.pendPeriod = none ∧
      (newPeriod n sel T).mirror.gap = true ∧
      (newPeriod n sel T).frame = shiftNat ((T / periodOf sel : Int) - (T / n.period : Nat)) n.frame ∧
      (newPeriod n sel T).taiOff = n.taiOff ∧ (newPeriod n sel T).regs = n.regs := ⟨rfl, rfl, rfl, rfl, rfl, rfl⟩
  obtain ⟨hperiod, hpend, hgap, hframe, hoff, hregs⟩ := hnew
  obtain ⟨ls, i, D, r, l, hd, d, q, hvoid, -⟩ := voids_voidAll (newPeriod n sel T)
  have harmed := voidAll_not_armed (newPeriod n sel T)
  have hrest := rescaled_rest (voidAll (newPeriod n sel T)) n.period (periodOf sel)
  generalize rescaled (voidAll (newPeriod n sel T)) n.period (periodOf sel) = m at *
  obtain ⟨r', l', hd', d', q', hnote, -⟩ := recFrame_note m { recTime m 6 (bytesI 8 m.tb.offset) 0 (periodOf sel) with time := T }
  have hfields : m.period = periodOf sel ∧ m.tb.pendPeriod = none ∧ m.mirror.gap = true ∧
      m.frame = shiftNat ((T / periodOf sel : Int) - (T / n.period : Nat)) n.frame ∧ m.taiOff = n.taiOff ∧ m.regs = n.regs ∧
      ∀ e, launchOf m e = launchOf (voidAll (newPeriod n sel T)) e := by
    refine ⟨?_, ?_, ?_, ?_, ?_, ?_, fun e => by rw [hrest]; rfl⟩
    · rw [hrest, hvoid]; exact hperiod
    · rw [hrest, hvoid]; exact hpend
    · rw [hrest, hvoid]; exact hgap
    · rw [hrest, hvoid]; exact hframe
    · rw [hrest, hvoid]; exact hoff
    · rw [hrest, hvoid]; exact hregs
  obtain ⟨mperiod, mpend, mgap, mframe, moff, mregs, mlaunch⟩ := hfields
  rw [hnote]
  refine ⟨mperiod, mpend, mgap, List.mem_append_right _ List.mem_cons_self, ?_, moff, mregs, fun e => ?_⟩
  · refine mframe.trans ?_
    rw [shiftNat, Int.natCast_ediv]
    congr 1
    omega
  · exact (congrArg (fun x : Launch => x.state) (mlaunch e)).trans_ne (harmed e)

/-- Settles O26. -/
theorem timeCommandsAndPeriod : Obligations.TimeCommandsAndPeriod := by
  refine ⟨⟨fun t s => ⟨acts_tbStep, acts_tbSetTod⟩, fun n auto tai since h => ?_⟩, fun t sel T s => ⟨fun h => ?_, fun h =>
    ⟨fun hT => ?_, acts_periodChange h⟩⟩⟩
  · rw [actEff_tbStep h, actEff_setTod h]
    refine ⟨fun hf => ?_, fun off hf => ?_, fun h2 => if_pos h2, fun h2 => setTodEff_shows h2 tai since⟩
    · simp only [tbStepEff, hf]
    · have heff : tbStepEff n = (modTb n (fun t => { t with stepPend := some off }), some true) := by simp only [tbStepEff, hf]
      exact heff
  · exact acts_same rfl (by
      have h' : (atInstant s t).tb.pendPeriod = none := h
      simp only [periodChange, h'])
  · exact acts_same rfl (periodChange_early (n := atInstant s t) h hT)

end Sys2Proof.Machine
end

section
/-! PROOF. What a rank confirms of a channel it watches (04 to 07), AO_SET and RNK_CMD (01, 06). -/

namespace Sys2Proof.Machine

/-! Events on one channel -/

theorem frontOf_modFront_self (n : Node) (ch : Nat) (g : Front → Front) : frontOf (modFront n ch g) ch = g (frontOf n ch) :=
  tget_tmod_self _ _ _ _

theorem frontOf_modFront_ne (n : Node) {ch k : Nat} (g : Front → Front) (h : k ≠ ch) : frontOf (modFront n ch g) k = frontOf n k :=
  tget_tmod_ne _ _ _ h

theorem stageOf_modStage_self (n : Node) (ch : Nat) (g : Stage → Stage) : stageOf (modStage n ch g) ch = g (stageOf n ch) :=
  tget_tmod_self _ _ _ _

theorem stageOf_modStage_ne (n : Node) {ch k : Nat} (g : Stage → Stage) (h : k ≠ ch) : stageOf (modStage n ch g) k = stageOf n k :=
  tget_tmod_ne _ _ _ h

/-- An event that changes the front end of one channel alone. -/
theorem acts_modFront {c : Instr} {s : State} {t ch : Nat} {f : Node → Node} {x : Front} {g : Front → Front}
    (hc : exec c s = .next (onNode s t f)) (hf : f (atInstant s t) = modFront (atInstant s t) ch g)
    (hx : g (frontOf (atInstant s t) ch) = x) :
    Acts c s t (fun n u => SameButSignals u { n with fronts := u.fronts } ∧ (∀ k, k ≠ ch → frontOf u k = frontOf n k) ∧
      frontOf u ch = x) :=
  acts_of_eq hc hf ⟨rfl, fun _ hk => frontOf_modFront_ne _ g hk, (frontOf_modFront_self _ ch g).trans hx⟩

/-- An event that changes the output stage of one channel alone. -/
theorem acts_modStage {c : Instr} {s : State} {t ch : Nat} {f : Node → Node} {x : Stage} {g : Stage → Stage}
    (hc : exec c s = .next (onNode s t f)) (hf : f (atInstant s t) = modStage (atInstant s t) ch g)
    (hx : g (stageOf (atInstant s t) ch) = x) :
    Acts c s t (fun n u => SameButSignals u { n with stages := u.stages } ∧ (∀ k, k ≠ ch → stageOf u k = stageOf n k) ∧
      stageOf u ch = x) :=
  acts_of_eq hc hf ⟨rfl, fun _ hk => stageOf_modStage_ne _ g hk, (stageOf_modStage_self _ ch g).trans hx⟩

theorem modFront_modFront (n : Node) (ch : Nat) (f g : Front → Front) :
    modFront (modFront n ch f) ch g = modFront n ch (fun x => g (f x)) := by
  simp only [modFront, tmod, tset_tset, tget_tset_self]

/-! When each event confirms something (07 R147 to R156) -/

theorem breakConfirm_of {n : Node} {ch : Nat} (hw : watched n ch = true) (hb : hasBreak n ch = true)
    (ho : (frontOf n ch).open_ = false) (hs : (diagOf n ch).slotEnd ≤ n.now) : breakConfirm n ch =
      modFront n ch (fun f => { f with open_ := true, openAt := n.now, cutOpen := f.cutOpen || beforeCut n }) := by
  rw [breakConfirm, if_pos (by simp [hw, hb, ho, hs])]

theorem breakConfirm_not {n : Node} {ch : Nat} (h : watched n ch = false ∨ hasBreak n ch = false ∨
    (frontOf n ch).open_ = true ∨ n.now < (diagOf n ch).slotEnd) : breakConfirm n ch = n := by
  rw [breakConfirm, if_neg]
  rcases h with h | h | h | h <;> simp [h]

theorem repairConfirm_of {n : Node} {ch : Nat} (hw : watched n ch = true) (ho : (frontOf n ch).open_ = true)
    (ht : (frontOf n ch).tcHigh = 0) (hs : max (frontOf n ch).openAt (frontOf n ch).tcEnd + repairTime n ≤ n.now) :
    repairConfirm n ch = modFront n ch (fun f => { f with
      open_ := false, cutOpen := f.cutOpen && !beforeCut n, tes := f.tes ++ [n.now] }) := by
  rw [repairConfirm, if_pos (by simp [hw, ho, ht, hs])]
  exact modFront_modFront _ _ _ _

theorem repairConfirm_not {n : Node} {ch : Nat} (h : watched n ch = false ∨ (frontOf n ch).open_ = false ∨
    (frontOf n ch).tcHigh ≠ 0 ∨ n.now < max (frontOf n ch).openAt (frontOf n ch).tcEnd + repairTime n) :
    repairConfirm n ch = n := by
  rw [repairConfirm, if_neg]
  rcases h with h | h | h | h
  · simp [h]
  · simp [h]
  · simp [h]
  · simp only [Bool.and_eq_true, decide_eq_true_eq, not_and, Nat.not_le]
    exact fun _ => h

theorem excLimit_of {n : Node} {ch : Nat} (hw : watched n ch = true) (he : (frontOf n ch).excLim = false) : excLimit n ch =
    modFront n ch (fun f => { f with excLim := true, cutExc := f.cutExc || beforeCut n }) := by
  rw [excLimit, if_pos (by simp [hw, he])]

theorem excLimit_not {n : Node} {ch : Nat} (h : watched n ch = false ∨ (frontOf n ch).excLim = true) : excLimit n ch = n := by
  rw [excLimit, if_neg]
  rcases h with h | h <;> simp [h]

theorem excLimitEnd_of {n : Node} {ch : Nat} (hw : watched n ch = true) (he : (frontOf n ch).excLim = true) :
    excLimitEnd n ch = modFront n ch (fun f => { f with
      excLim := false, cutExc := f.cutExc && !beforeCut n, tes := f.tes ++ [n.now] }) := by
  rw [excLimitEnd, if_pos (by simp [hw, he])]
  exact modFront_modFront _ _ _ _

theorem excLimitEnd_not {n : Node} {ch : Nat} (h : watched n ch = false ∨ (frontOf n ch).excLim = false) :
    excLimitEnd n ch = n := by
  rw [excLimitEnd, if_neg]
  rcases h with h | h <;> simp [h]

theorem thermalLimit_of {n : Node} {ch : Nat} (hw : watched n ch = true) (ha : isAo n ch = true) (on : Bool) :
    thermalLimit n ch on = modStage n ch (fun s => { s with limiting := on }) := by
  rw [thermalLimit, if_pos (by simp [hw, ha])]

theorem thermalLimit_not {n : Node} {ch : Nat} (h : watched n ch = false ∨ isAo n ch = false) (on : Bool) :
    thermalLimit n ch on = n := by
  rw [thermalLimit, if_neg]
  rcases h with h | h <;> simp [h]

/-- Of a channel that no powered rank watches nothing is confirmed. -/
theorem acts_unwatched {t ch : Nat} {on : Bool} {s : State} (hw : watched s.node ch = false) {c : Instr}
    (hc : c ∈ [Instr.wireBreakConfirm t ch, .repairConfirm t ch, .excitationLimit t ch, .excitationLimitEnd t ch,
      .thermalLimit t ch on]) : Acts c s t (fun n u => SameButSignals u n) := by
  simp only [List.mem_cons, List.not_mem_nil, or_false] at hc
  rcases hc with rfl | rfl | rfl | rfl | rfl
  · exact acts_same rfl (breakConfirm_not (n := atInstant s t) (.inl hw))
  · exact acts_same rfl (repairConfirm_not (n := atInstant s t) (.inl hw))
  · exact acts_same rfl (excLimit_not (n := atInstant s t) (.inl hw))
  · exact acts_same rfl (excLimitEnd_not (n := atInstant s t) (.inl hw))
  · exact acts_same rfl (thermalLimit_not (n := atInstant s t) (.inl hw) on)

/-- Settles O31. -/
theorem channelConditions : Obligations.ChannelConditions := by
  intro t ch on s
  refine ⟨fun hw c hc => acts_unwatched hw hc, fun hw => ⟨fun hb ho hs => ?_, fun h => ?_, fun ho ht hs => ?_, fun h => ?_,
    fun he => ⟨?_, ?_⟩, fun he => ⟨?_, ?_⟩, fun ha => ?_, fun ha => ?_⟩⟩
  · exact acts_modFront rfl (breakConfirm_of (n := atInstant s t) hw hb ho hs) rfl
  · exact acts_same rfl (breakConfirm_not (n := atInstant s t) (.inr h))
  · exact acts_modFront rfl (repairConfirm_of (n := atInstant s t) hw ho ht hs) rfl
  · exact acts_same rfl (repairConfirm_not (n := atInstant s t) (.inr h))
  · exact acts_modFront rfl (excLimit_of (n := atInstant s t) hw he) rfl
  · exact acts_same rfl (excLimitEnd_not (n := atInstant s t) (.inr he))
  · exact acts_modFront rfl (excLimitEnd_of (n := atInstant s t) hw he) rfl
  · exact acts_same rfl (excLimit_not (n := atInstant s t) (.inr he))
  · exact acts_modStage rfl (thermalLimit_of (n := atInstant s t) hw ha on) rfl
  · exact acts_same rfl (thermalLimit_not (n := atInstant s t) (.inr ha) on)

/-! Writes of AO_SET (06 R142, R144) and of RNK_CMD -/

theorem aoSetWrite_locked {n : Node} {ch : Nat} (h : (headerOf n (0x10 + ch / 32)).locked = true) (path : Nat) (v : Word) :
    aoSetWrite n path ch v = lockedWrite n path (0x10 + ch / 32) := if_pos h

theorem aoSetWrite_rejected {n : Node} {ch : Nat} {v : Word} (h : (headerOf n (0x10 + ch / 32)).locked = false)
    (hr : 240000 < v.toNat ∨ holder n = false) (path : Nat) : aoSetWrite n path ch v = raise n (0x10 + ch / 32) 8 := by
  have hl : ¬ (headerOf n (rnkPage ch)).locked = true := fun h' => Bool.false_ne_true (h.symm.trans h')
  rw [aoSetWrite, if_neg hl, if_pos (hr.imp_right fun h => by simp [h])]
  rfl

theorem aoSetWrite_taken {n : Node} {ch : Nat} {v : Word} (h : (headerOf n (0x10 + ch / 32)).locked = false)
    (hv : v.toNat ≤ 240000) (hh : holder n = true) (path : Nat) :
    aoSetWrite n path ch v = modStage n ch (fun s => { s with pend := s.pend ++ [(v.toNat, n.now)] }) := by
  have hl : ¬ (headerOf n (rnkPage ch)).locked = true := fun h' => Bool.false_ne_true (h.symm.trans h')
  rw [aoSetWrite, if_neg hl, if_neg (by simp [hh, hv])]

theorem execAoSetWrite_eq {s : State} {t ch : Nat} {v : Word} (h : ch < 512) :
    exec (.aoSetWrite t ch v) s = .next (onNode s t (fun n => aoSetWrite n hostPath ch v)) := by
  have he : exec (.aoSetWrite t ch v) s = execAoSetWrite t ch v s := rfl
  rw [he, execAoSetWrite]
  simp only [h, if_true]

/-- Settles O32. -/
theorem setpointsAndRankClear : Obligations.SetpointsAndRankClear := by
  intro t ch r v s hch hr
  have hc := execAoSetWrite_eq (s := s) (t := t) (v := v) hch
  refine ⟨fun hl => ?_, fun hl => ⟨fun hrej => ?_, fun hv hh => ?_⟩, fun hj => ?_⟩
  · refine acts_of_eq hc (aoSetWrite_locked (n := atInstant s t) hl _ v) ⟨rfl, ?_⟩
    exact seqOf_modSeq_self _ hostPath _ (fun q => { q with cmdRes := 8 })
  · refine acts_of_eq hc (aoSetWrite_rejected (n := atInstant s t) hl hrej _) ⟨rfl, raised_raise _ _ _, fun p hp => ?_⟩
    exact headerOf_modHeader_ne _ _ hp
  · exact acts_modStage hc (aoSetWrite_taken (n := atInstant s t) hl hv hh _) rfl
  · refine acts_of_eq (f := fun n => if r < 16 then rnkCmdWrite n hostPath r 1 else n) rfl
      (m := deferred (atInstant s t) hostPath (0x10 + r) (at_ (0x10 + r) 0x70) 1 (.rnkClear r)) ?_ (sameButSignals_settle _)
    simp only [hr, if_true]
    exact runCommand_deferred (by exact hj) _

end Sys2Proof.Machine
end

section
/-! PROOF. Alarm commands taken up on one point (08 R183 to R187). -/

namespace Sys2Proof.Machine

/-! Operations on one point -/

theorem pointOf_modPoint_ne (n : Node) {k j : Nat} (f : Point → Point) (h : j ≠ k) : pointOf (modPoint n k f) j = pointOf n j :=
  tget_tmod_ne _ _ _ h

/-- What an operation on point k leaves: the other points, the registers, the period, and the interrupts and messages that
were waiting. -/
structure KeepsOthers (k : Nat) (n m : Node) : Prop where
  others : ∀ j, j ≠ k → pointOf m j = pointOf n j
  regs : m.regs = n.regs
  period : m.period = n.period
  due : ∀ x, x ∈ n.dueR → x ∈ m.dueR
  changes : ∀ j, j ∈ n.net.almChanges → j ∈ m.net.almChanges

theorem KeepsOthers.refl (k : Nat) (n : Node) : KeepsOthers k n n :=
  ⟨fun _ _ => rfl, rfl, rfl, fun _ h => h, fun _ h => h⟩

theorem KeepsOthers.trans {k : Nat} {a b c : Node} (h : KeepsOthers k a b) (g : KeepsOthers k b c) : KeepsOthers k a c :=
  ⟨fun j hj => (g.others j hj).trans (h.others j hj), g.regs.trans h.regs, g.period.trans h.period,
    fun x hx => g.due x (h.due x hx), fun j hj => g.changes j (h.changes j hj)⟩

theorem keepsOthers_modPoint (n : Node) (k : Nat) (f : Point → Point) : KeepsOthers k n (modPoint n k f) :=
  ⟨fun _ hj => pointOf_modPoint_ne n f hj, rfl, rfl, fun _ h => h, fun _ h => h⟩

theorem keepsOthers_note (n : Node) (k : Nat) (r : Rec) : KeepsOthers k n (note n r) :=
  ⟨fun _ _ => pointOf_note n r _, note_regs n r, note_period n r, fun x h => by rw [note_dueR]; exact h,
    fun j h => by rw [note_net]; exact h⟩

theorem mem_insertNat {k j : Nat} {l : List Nat} : j ∈ insertNat k l ↔ j = k ∨ j ∈ l := by
  induction l with
  | nil => simp [insertNat]
  | cons a r ih =>
    unfold insertNat
    split
    · simp
    · split
      · rename_i h; simp [h]
      · simp only [List.mem_cons, ih]
        tauto

theorem keepsOthers_markChange (n : Node) (k : Nat) : KeepsOthers k n (markChange n k) :=
  ⟨fun _ _ => rfl, rfl, rfl, fun _ h => h, fun _ h => mem_insertNat.mpr (.inr h)⟩

theorem keepsOthers_raiseR (n : Node) (k p b : Nat) : KeepsOthers k n (raiseR n p b) :=
  ⟨fun _ _ => rfl, rfl, rfl, fun _ h => List.mem_append_left _ h, fun _ h => h⟩

theorem keepsOthers_raiseState (n : Node) (k : Nat) : KeepsOthers k n (raiseState n k) := keepsOthers_raiseR n k _ _

theorem keepsOthers_setState (n : Node) (k : Nat) (a : AlertState) (event source : Nat) :
    KeepsOthers k n (setState n k a event source) := by
  simp only [setState]
  split
  · exact .refl k n
  · exact (keepsOthers_modPoint n k _).trans ((keepsOthers_note _ k _).trans
      ((keepsOthers_markChange _ k).trans (keepsOthers_raiseState _ k)))

theorem keepsOthers_command (n : Node) (k : Nat) (e : AlmEvent) (source : Nat) : KeepsOthers k n (command n k e source) := by
  unfold command
  split
  · exact .refl k n
  · exact keepsOthers_setState n k _ _ _

theorem keepsOthers_dropShelf (n : Node) (k source : Nat) : KeepsOthers k n (dropShelf n k source) := by
  simp only [dropShelf]
  split
  · exact (keepsOthers_modPoint n k _).trans ((keepsOthers_note _ k _).trans (keepsOthers_markChange _ k))
  · exact .refl k n

theorem keepsOthers_endShelf (n : Node) (k source : Nat) : KeepsOthers k n (endShelf n k source) := by
  simp only [endShelf]
  split
  · refine (keepsOthers_dropShelf n k source).trans ?_
    split
    · exact (keepsOthers_setState _ k _ _ _).trans (keepsOthers_modPoint _ k _)
    · exact .refl k _
  · exact .refl k n

/-- The point shelved, and the record and message of it where it was not. -/
def shelveNow (frames : Nat) (n : Node) (k : Nat) : Node :=
  let u := modPoint n k (fun p => { p with shelved := true, shelLeft := frames + 1 })
  if (pointOf n k).shelved then u else markChange (note u (recAlarm u 2 k 0 1 31 (qual u) (pointOf n k).time)) k

theorem shelvePt_eq (frames : Nat) (n : Node) (k : Nat) : shelvePt frames n k =
    if (pointOf n k).active then setState (shelveNow frames n k) k .actAck 1 31
    else if (pointOf n k).state = .rectUnack then setState (shelveNow frames n k) k .normal 1 31 else shelveNow frames n k := rfl

theorem keepsOthers_shelveNow (frames : Nat) (n : Node) (k : Nat) : KeepsOthers k n (shelveNow frames n k) := by
  simp only [shelveNow]
  split
  · exact keepsOthers_modPoint n k _
  · exact (keepsOthers_modPoint n k _).trans ((keepsOthers_note _ k _).trans (keepsOthers_markChange _ k))

theorem keepsOthers_shelvePt (frames : Nat) (n : Node) (k : Nat) : KeepsOthers k n (shelvePt frames n k) := by
  refine (keepsOthers_shelveNow frames n k).trans ?_
  rw [shelvePt_eq]
  split
  · exact keepsOthers_setState _ k _ _ _
  · split
    · exact keepsOthers_setState _ k _ _ _
    · exact .refl k _

/-! What they leave of the point -/

/-- SHELVED and its count. -/
def shelf (n : Node) (k : Nat) : Bool × Nat := ((pointOf n k).shelved, (pointOf n k).shelLeft)

theorem shelf_setState (n : Node) (k : Nat) (a : AlertState) (event source : Nat) :
    shelf (setState n k a event source) k = shelf n k := by
  simp only [setState]
  split
  · rfl
  · simp [shelf, raiseState]

theorem state_setState (n : Node) (k : Nat) (a : AlertState) (event source : Nat) :
    (pointOf (setState n k a event source) k).state = a := congrArg Prod.fst (stateAndActive_setState n k a event source)

theorem state_command (n : Node) (k : Nat) (e : AlmEvent) (source : Nat) : (pointOf (command n k e source) k).state =
    if ptPrio n k = 0 ∨ (pointOf n k).shelved = true then (pointOf n k).state else nextAlert (pointOf n k).state e := by
  by_cases h : ptPrio n k = 0 ∨ (pointOf n k).shelved = true
  · rw [if_pos h, command_of_follows184 (by simpa [follows184] using h)]
  · have hf : follows184 n k = false := by simpa [follows184] using h
    rw [if_neg h, command, hf]
    exact state_setState n k _ _ _

theorem shelf_shelveNow (frames : Nat) (n : Node) (k : Nat) : shelf (shelveNow frames n k) k = (true, frames + 1) := by
  simp only [shelveNow]
  split <;> simp [shelf]

theorem shelf_shelvePt (frames : Nat) (n : Node) (k : Nat) : shelf (shelvePt frames n k) k = (true, frames + 1) := by
  rw [shelvePt_eq]
  split
  · exact (shelf_setState _ k _ _ _).trans (shelf_shelveNow frames n k)
  · split
    · exact (shelf_setState _ k _ _ _).trans (shelf_shelveNow frames n k)
    · exact shelf_shelveNow frames n k

theorem shelf_dropShelf (n : Node) (k source : Nat) : (pointOf (dropShelf n k source) k).shelved = false := by
  simp only [dropShelf]
  split
  · simp
  · simp_all

theorem shelved_endShelf (n : Node) (k source : Nat) : (pointOf (endShelf n k source) k).shelved = false := by
  simp only [endShelf]
  split
  · split
    · rw [pointOf_modPoint_self]
      exact (congrArg Prod.fst (shelf_setState (dropShelf n k source) k .actUnack 1 source)).trans (shelf_dropShelf n k source)
    · exact shelf_dropShelf n k source
  · simp_all

/-! The commands at their boundary -/

theorem targets_one_of_held {n : Node} {k : Nat} (hk : k ∈ keys n.points) (hd : (pointOf n k).disabled = false) :
    targets n 0 k = [k] := by
  simp [targets, hk, hd]

theorem targets_one_of_not_held {n : Node} {k : Nat} (h : k ∉ keys n.points ∨ (pointOf n k).disabled = true) :
    targets n 0 k = [] := by
  have hc : ¬ (k ∈ keys n.points ∧ (pointOf n k).disabled = false) := by
    rcases h with h | h <;> simp [h]
  simp only [targets, List.contains_eq_mem, List.mem_filter, Bool.not_eq_true', decide_eq_true_eq, if_neg hc]

/-- A command that changes no point but k, by what it leaves of k. -/
theorem transferAll_points (n : Node) (ks : List Nat) (source : Nat) :
    (transferAll n ks source).1.points = (commandAll n ks .transfer source).1.points ∧
    (transferAll n ks source).1.regs = (commandAll n ks .transfer source).1.regs := by
  simp only [transferAll]
  split
  · exact ⟨rfl, rfl⟩
  · simp

/-- ACK, SILENCE and TRANSFER on one point are its command, with the record and the count of the page after it. -/
theorem almEff_point {op : Nat} {ev : AlmEvent} (h : (op, ev) ∈ [(1, AlmEvent.ack), (2, .silence), (6, .transfer)])
    (n : Node) (k arg : Nat) : ∃ source, (almEff op 0 k arg n).2 = some true ∧
      (almEff op 0 k arg n).1.points = ((targets n 0 k).foldl (fun m j => command m j ev source) n).points ∧
      (almEff op 0 k arg n).1.regs = ((targets n 0 k).foldl (fun m j => command m j ev source) n).regs := by
  simp only [List.mem_cons, Prod.mk.injEq, List.not_mem_nil, or_false] at h
  rcases h with ⟨rfl, rfl⟩ | ⟨rfl, rfl⟩ | ⟨rfl, rfl⟩
  · exact ⟨31, rfl, rfl, rfl⟩
  · exact ⟨31, rfl, rfl, rfl⟩
  · exact ⟨arg, rfl, transferAll_points n _ arg⟩

theorem lanesNone_of_ne {n : Node} (h : n.laneSt.state ≠ 3) : lanesNone n = false := decide_eq_false h

theorem actEff_alm {n : Node} (h : n.laneSt.state ≠ 3) (auto : Bool) (op tgt k arg : Nat) :
    actEff auto (.alm op tgt k arg) n = almEff op tgt k arg n := by
  simp only [actEff, lanesNone_of_ne h, Bool.false_and, Bool.false_eq_true, if_false]

theorem almEff_point_effect {op : Nat} {ev : AlmEvent} (h : (op, ev) ∈ [(1, AlmEvent.ack), (2, .silence), (6, .transfer)])
    (n : Node) (k arg : Nat) :
    let r := almEff op 0 k arg n
    r.2 = some true ∧ (∀ j, j ≠ k → pointOf r.1 j = pointOf n j) ∧ r.1.regs = n.regs ∧
    (k ∈ keys n.points → (pointOf n k).disabled = false →
      (pointOf r.1 k).state = (if ptPrio n k = 0 ∨ (pointOf n k).shelved = true then (pointOf n k).state
        else nextAlert (pointOf n k).state ev)) ∧
    (k ∉ keys n.points ∨ (pointOf n k).disabled = true → r.1.points = n.points) := by
  obtain ⟨source, hdone, hpoints, hregs⟩ := almEff_point h n k arg
  have hpt : ∀ u, (almEff op 0 k arg n).1.points = u.points → ∀ j, pointOf (almEff op 0 k arg n).1 j = pointOf u j :=
    fun u hu j => by rw [pointOf, hu]; rfl
  by_cases hk : k ∈ keys n.points ∧ (pointOf n k).disabled = false
  · rw [targets_one_of_held hk.1 hk.2] at hpoints hregs
    have hkeeps := keepsOthers_command n k ev source
    refine ⟨hdone, fun j hj => (hpt _ hpoints j).trans (hkeeps.others j hj), hregs.trans hkeeps.regs, fun _ _ => ?_, fun hn => ?_⟩
    · exact (congrArg Point.state (hpt _ hpoints k)).trans (state_command n k ev source)
    · rcases hn with hn | hn
      · exact absurd hk.1 hn
      · rw [hk.2] at hn
        exact absurd hn (by simp)
  · have hn : k ∉ keys n.points ∨ (pointOf n k).disabled = true := by
      rw [Classical.not_and_iff_not_or_not] at hk
      exact hk.imp_right (by simp)
    rw [targets_one_of_not_held hn] at hpoints hregs
    exact ⟨hdone, fun j _ => hpt _ hpoints j, hregs, fun h1 h2 => absurd ⟨h1, h2⟩ hk, fun _ => hpoints⟩

/-- SHELVE of a point that R187 forbids. -/
theorem almEff_shelve_forbidden {n : Node} {k : Nat} (h : eligible n k = false) (arg : Nat) :
    almEff 3 0 k arg n = (setAlmCnt n 0, some false) := by
  simp [almEff, shelfTargets, h]

theorem almEff_shelve {n : Node} {k : Nat} (h : eligible n k = true) (arg : Nat) :
    (almEff 3 0 k arg n).2 = some true ∧ (almEff 3 0 k arg n).1.points = (shelvePt (shelveFrames n arg) n k).points := by
  simp [almEff, shelfTargets, h, setAlmCnt]

/-- Settles O30. -/
theorem alarmCommandsTakenUp : Obligations.AlarmCommandsTakenUp := by
  intro n auto k arg hl
  simp only [actEff_alm hl]
  refine ⟨fun op ev h => almEff_point_effect h n k arg, ⟨fun he => ?_, fun he => ?_⟩, ?_⟩
  · rw [almEff_shelve_forbidden he]
    exact ⟨rfl, rfl⟩
  · obtain ⟨hdone, hpoints⟩ := almEff_shelve he arg
    have hpt : ∀ j, pointOf (almEff 3 0 k arg n).1 j = pointOf (shelvePt (shelveFrames n arg) n k) j := fun j => by
      rw [pointOf, hpoints]; rfl
    have hshelf := shelf_shelvePt (shelveFrames n arg) n k
    refine ⟨hdone, ?_, ?_, fun j hj => (hpt j).trans ((keepsOthers_shelvePt _ n k).others j hj)⟩
    · rw [hpt]; exact congrArg Prod.fst hshelf
    · rw [hpt]; exact congrArg Prod.snd hshelf
  · exact ⟨rfl, shelved_endShelf n k 31, fun j hj => (keepsOthers_endShelf n k 31).others j hj⟩

end Sys2Proof.Machine
end

section
/-! PROOF. Delays, silence, shelving, release and first-out windows of the alarm engine expire (08 R171 to R190). -/

namespace Sys2Proof.Machine

/-! Events in the module that evaluates -/

theorem engine_runs {s : State} (he : evaluates s.node) (t : Nat) (f : Node → Node) :
    (fun n => if operational n && !follows n then f n else n) (atInstant s t) = f (atInstant s t) := by
  have hev : (operational (atInstant s t) && !follows (atInstant s t)) = true := by
    have hop : operational (atInstant s t) = true := he.1
    have hfo : follows (atInstant s t) = false := he.2
    rw [hop, hfo]; rfl
  exact if_pos hev

/-- An event of the engine where it evaluates. -/
theorem acts_engine {c : Instr} {s : State} {t : Nat} {f : Node → Node} {m : Node} {P : Node → Node → Prop}
    (hc : exec c s = .next (onEngine s t f)) (he : evaluates s.node) (hm : f (atInstant s t) = m)
    (h : P (atInstant s t) (settle m)) : Acts c s t P :=
  acts_of_eq hc ((engine_runs he t f).trans hm) h

/-- An event of the engine in any other module or state. -/
theorem acts_engine_idle {c : Instr} {s : State} {t : Nat} {f : Node → Node}
    (hc : exec c s = .next (onEngine s t f)) (he : ¬ evaluates s.node) : Acts c s t (fun n u => SameButSignals u n) := by
  refine acts_same hc (if_neg fun h => he ?_)
  have h' : (operational s.node && !follows s.node) = true := h
  simpa [evaluates] using h'

/-- An event that changes one point alone. -/
theorem acts_modPoint {c : Instr} {s : State} {t k : Nat} {f : Node → Node} {x : Point} {g : Point → Point}
    (hc : exec c s = .next (onEngine s t f)) (he : evaluates s.node) (hf : f (atInstant s t) = modPoint (atInstant s t) k g)
    (hx : g (pointOf (atInstant s t) k) = x) :
    Acts c s t (fun n u => SameButSignals u { n with points := u.points } ∧ (∀ j, j ≠ k → pointOf u j = pointOf n j) ∧
      pointOf u k = x) :=
  acts_engine hc he hf ⟨rfl, fun _ hj => pointOf_modPoint_ne _ g hj, (pointOf_modPoint_self _ k g).trans hx⟩

/-! The delays (08 R171) -/

/-- The on delay that its count has passed. -/
def onDelay (limit : Nat) (p : Point) : Point :=
  if !p.disabled && !p.held && p.raw && !p.cond && decide (limit < p.onCnt) then { p with cond := true, offCnt := 0 } else p

/-- The off delay that its count has passed. -/
def offDelay (limit : Nat) (p : Point) : Point :=
  if !p.disabled && !p.held && !p.raw && p.cond && decide (limit < p.offCnt) then { p with cond := false, onCnt := 0 } else p

theorem onDelayExpire_eq (n : Node) (k : Nat) : onDelayExpire n k = modPoint n k (onDelay (ptOn n k)) := rfl

theorem offDelayExpire_eq (n : Node) (k : Nat) : offDelayExpire n k = modPoint n k (offDelay (ptOff n k)) := rfl

theorem onDelay_of {limit : Nat} {p : Point} (hd : p.disabled = false) (hh : p.held = false) (hr : p.raw = true)
    (hc : p.cond = false) (hl : limit < p.onCnt) : onDelay limit p = { p with cond := true, offCnt := 0 } := by
  rw [onDelay, if_pos (by simp [hd, hh, hr, hc, hl])]

theorem offDelay_of {limit : Nat} {p : Point} (hd : p.disabled = false) (hh : p.held = false) (hr : p.raw = false)
    (hc : p.cond = true) (hl : limit < p.offCnt) : offDelay limit p = { p with cond := false, onCnt := 0 } := by
  rw [offDelay, if_pos (by simp [hd, hh, hr, hc, hl])]

theorem onDelay_not {limit : Nat} {p : Point} (h : p.disabled = true ∨ p.held = true ∨ p.onCnt ≤ limit) :
    onDelay limit p = p := by
  rw [onDelay, if_neg]
  rcases h with h | h | h <;> simp [h]

theorem offDelay_not {limit : Nat} {p : Point} (h : p.disabled = true ∨ p.held = true ∨ p.offCnt ≤ limit) :
    offDelay limit p = p := by
  rw [offDelay, if_neg]
  rcases h with h | h | h <;> simp [h]

/-- An event that gives a point the state it has. -/
theorem acts_modPoint_same {c : Instr} {s : State} {t k : Nat} {f : Node → Node} {g : Point → Point}
    (hc : exec c s = .next (onEngine s t f)) (he : evaluates s.node) (hf : f (atInstant s t) = modPoint (atInstant s t) k g)
    (hx : g (pointOf (atInstant s t) k) = pointOf (atInstant s t) k) :
    Acts c s t (fun n u => SameButSignals u { n with points := u.points } ∧ ∀ j, pointOf u j = pointOf n j) := by
  refine acts_engine hc he hf ⟨rfl, fun j => ?_⟩
  by_cases hj : j = k
  · exact hj ▸ (pointOf_modPoint_self _ k g).trans hx
  · exact pointOf_modPoint_ne _ g hj

/-! The timers of points (08 R182, R183, R187) -/

/-- STATE set anew: with its interrupt and its message. -/
theorem setState_tells {n : Node} {k : Nat} {a : AlertState} (h : (pointOf n k).state ≠ a) (event source : Nat) :
    (ptPage k, if k < 4096 then 0 else 6) ∈ (setState n k a event source).dueR ∧
    k ∈ (setState n k a event source).net.almChanges := by
  simp only [setState, if_neg h]
  exact ⟨List.mem_append_right _ (List.mem_singleton.mpr rfl), mem_insertNat.mpr (.inl rfl)⟩

theorem silenceExpire_of {n : Node} {k : Nat} (hs : (pointOf n k).state = .actSilenced) (h0 : (pointOf n k).silLeft = 0) :
    silenceExpire n k = setState n k .actUnack 1 255 := if_pos ⟨hs, h0⟩

theorem silenceExpire_not {n : Node} {k : Nat} (hs : (pointOf n k).state ≠ .actSilenced) : silenceExpire n k = n :=
  if_neg fun h => hs h.1

theorem shelveExpire_of {n : Node} {k : Nat} (hs : (pointOf n k).shelved = true) (h0 : (pointOf n k).shelLeft = 0) :
    shelveExpire n k = expireShelf n k := if_pos ⟨hs, h0⟩

theorem shelveExpire_not {n : Node} {k : Nat} (hs : (pointOf n k).shelved = false) : shelveExpire n k = n :=
  if_neg fun h => Bool.false_ne_true (hs.symm.trans h.1)

theorem state_endShelf {n : Node} {k : Nat} (hs : (pointOf n k).shelved = true) (source : Nat) :
    (pointOf (endShelf n k source) k).state =
      if (pointOf n k).active = true ∧ ptPrio n k ≠ 0 then .actUnack else (pointOf n k).state := by
  have hprio : ptPrio (dropShelf n k source) k = ptPrio n k := ptPrio_of_regs_eq (dropShelf_regs n k source) k
  have hstate : (pointOf (dropShelf n k source) k).state = (pointOf n k).state :=
    congrArg Prod.fst (stateAndActive_dropShelf n k source)
  simp only [endShelf, hs, if_true, hprio]
  by_cases h : (pointOf n k).active = true ∧ ptPrio n k ≠ 0
  · rw [if_pos h, if_pos (by simpa using h), pointOf_modPoint_self]
    exact state_setState _ k _ _ _
  · rw [if_neg h, if_neg (by simpa using h)]
    exact hstate

/-- The end of shelving by expiry: the point, and SHELVE_EXP. -/
theorem expireShelf_leaves {n : Node} {k : Nat} (hs : (pointOf n k).shelved = true) :
    (pointOf (expireShelf n k) k).shelved = false ∧ (∀ j, j ≠ k → pointOf (expireShelf n k) j = pointOf n j) ∧
    (9, 4) ∈ (expireShelf n k).dueR ∧ (pointOf (expireShelf n k) k).state =
      (if (pointOf n k).active = true ∧ ptPrio n k ≠ 0 then .actUnack else (pointOf n k).state) := by
  have hpt : ∀ j, pointOf (expireShelf n k) j =
      pointOf (modPoint (endShelf n k 255) k (fun p => { p with expiredAt := some (endShelf n k 255).sampleT })) j := fun _ => rfl
  refine ⟨?_, fun j hj => ?_, List.mem_append_right _ (List.mem_singleton.mpr rfl), ?_⟩
  · rw [hpt, pointOf_modPoint_self]
    exact shelved_endShelf n k 255
  · rw [hpt, pointOf_modPoint_ne _ _ hj]
    exact (keepsOthers_endShelf n k 255).others j hj
  · rw [hpt, pointOf_modPoint_self]
    exact state_endShelf hs 255

/-! The timers of groups (08 R181, R190) -/

theorem groupOf_modGroup_self (n : Node) (k : Nat) (f : AlmGroup → AlmGroup) : groupOf (modGroup n k f) k = f (groupOf n k) :=
  tget_tmod_self _ _ _ _

theorem groupOf_modGroup_ne (n : Node) {k g : Nat} (f : AlmGroup → AlmGroup) (h : g ≠ k) :
    groupOf (modGroup n k f) g = groupOf n g := tget_tmod_ne _ _ _ h

/-- An event that changes one group and tells an interrupt at the next RESULT_READY. -/
theorem acts_modGroup {c : Instr} {s : State} {t k p b : Nat} {f : Node → Node} {x : AlmGroup} {g : AlmGroup → AlmGroup}
    (hc : exec c s = .next (onEngine s t f)) (he : evaluates s.node)
    (hf : f (atInstant s t) = raiseR (modGroup (atInstant s t) k g) p b) (hx : g (groupOf (atInstant s t) k) = x) :
    Acts c s t (fun n u => SameButSignals u { n with groups := u.groups, dueR := n.dueR ++ [(p, b)] } ∧
      (∀ j, j ≠ k → groupOf u j = groupOf n j) ∧ groupOf u k = x) :=
  acts_engine hc he hf ⟨rfl, fun _ hj => groupOf_modGroup_ne _ g hj, (groupOf_modGroup_self _ k g).trans hx⟩

theorem releaseExpire_of {n : Node} {k c : Nat} (hs : (groupOf n k).suppressing = true) (hp : (groupOf n k).passed = some c)
    (h0 : 0 < c) (hl : fld (grpReg n k 0x68) 23 0 ≤ c) (hr : srcUnreadable n (fld (grpReg n k 0x64) 15 0) = false) :
    releaseExpire n k = raiseR (modGroup n k (fun x => { x with suppressing := false })) 9 3 := by
  have hdue : decide (0 < c ∧ fld (grpReg n k 0x68) 23 0 ≤ c) = true := decide_eq_true ⟨h0, hl⟩
  simp only [releaseExpire, hs, hp, hdue, hr, Bool.not_false, Bool.and_self, if_true]

theorem releaseExpire_not {n : Node} {k : Nat} (h : (groupOf n k).suppressing = false ∨
    srcUnreadable n (fld (grpReg n k 0x64) 15 0) = true) : releaseExpire n k = n := by
  rcases h with h | h
  · simp only [releaseExpire, h, Bool.false_and, Bool.false_eq_true, if_false]
  · simp only [releaseExpire, h, Bool.not_true, Bool.and_false, Bool.false_eq_true, if_false]

theorem foStable_of {n : Node} {k c : Nat} (hs : (groupOf n k).since = some c) (hu : (groupOf n k).stable = false)
    (hl : fld (reg n (at_ 9 0x40)) 27 16 ≤ c) :
    foStable n k = raiseR (modGroup n k (fun x => { x with stable := true })) 9 1 := by
  simp only [foStable, hs, hu, decide_eq_true hl, Bool.not_false, Bool.and_self, if_true]

theorem foStable_not {n : Node} {k c : Nat} (hs : (groupOf n k).since = some c)
    (hl : c < fld (reg n (at_ 9 0x40)) 27 16) : foStable n k = n := by
  have hdue : decide (fld (reg n (at_ 9 0x40)) 27 16 ≤ c) = false := decide_eq_false (by omega)
  simp only [foStable, hs, hdue, Bool.false_and, Bool.false_eq_true, if_false]

theorem acts_engine_same {c : Instr} {s : State} {t : Nat} {f : Node → Node} (hc : exec c s = .next (onEngine s t f))
    (he : evaluates s.node) (hf : f (atInstant s t) = atInstant s t) : Acts c s t (fun n u => SameButSignals u n) :=
  acts_engine hc he hf (sameButSignals_settle _)

/-- Where the module does not evaluate, no timer of the engine or the call acts. -/
theorem acts_timer_idle {t k : Nat} {s : State} (he : ¬ evaluates s.node) {c : Instr}
    (hc : c ∈ [Instr.onDelayExpire t k, .offDelayExpire t k, .releaseExpire t k, .silenceTimerExpire t k, .shelveExpire t k,
      .foStable t k, .transferExpire t k, .watchPrewarn t, .watchAlarm t, .callStageEscalate t k]) :
    Acts c s t (fun n u => SameButSignals u n) := by
  simp only [List.mem_cons, List.not_mem_nil, or_false] at hc
  rcases hc with rfl | rfl | rfl | rfl | rfl | rfl | rfl | rfl | rfl | rfl
  all_goals exact acts_engine_idle rfl he

/-- Settles O34. -/
theorem alarmTimersExpire : Obligations.AlarmTimersExpire := by
  refine ⟨fun t k s => ⟨fun he => ⟨fun hd hh hr hc hl => ?_, fun hd hh hr hc hl => ?_, fun h => ?_, fun h => ?_⟩,
    fun he c hc => acts_timer_idle he hc⟩, fun t k s he => ⟨fun hs h0 => ?_, fun hs => ?_, fun hs h0 => ?_, fun hs => ?_,
    fun c hs hp h0 hl hr => ?_, fun h => ?_, fun c hs hu => ⟨fun hl => ?_, fun hl => ?_⟩⟩⟩
  · exact acts_modPoint rfl he (onDelayExpire_eq _ k) (onDelay_of hd hh hr hc hl)
  · exact acts_modPoint rfl he (offDelayExpire_eq _ k) (offDelay_of hd hh hr hc hl)
  · exact acts_modPoint_same rfl he (onDelayExpire_eq _ k) (onDelay_not h)
  · exact acts_modPoint_same rfl he (offDelayExpire_eq _ k) (offDelay_not h)
  · refine acts_engine rfl he (silenceExpire_of (n := atInstant s t) hs h0) ?_
    have hne : (pointOf (atInstant s t) k).state ≠ .actUnack := fun h => by
      rw [show (pointOf (atInstant s t) k).state = _ from hs] at h
      cases h
    obtain ⟨hdue, hnet⟩ := setState_tells hne 1 255
    have hkeeps := keepsOthers_setState (atInstant s t) k .actUnack 1 255
    exact ⟨state_setState _ k _ _ _, hkeeps.others, hdue, hnet, hkeeps.regs⟩
  · exact acts_engine_same rfl he (silenceExpire_not (n := atInstant s t) hs)
  · exact acts_engine rfl he (shelveExpire_of (n := atInstant s t) hs h0) (expireShelf_leaves (n := atInstant s t) hs)
  · exact acts_engine_same rfl he (shelveExpire_not (n := atInstant s t) hs)
  · exact acts_modGroup rfl he (releaseExpire_of (n := atInstant s t) hs hp h0 hl hr) rfl
  · exact acts_engine_same rfl he (releaseExpire_not (n := atInstant s t) h)
  · exact acts_modGroup rfl he (foStable_of (n := atInstant s t) hs hu hl) rfl
  · exact acts_engine_same rfl he (foStable_not (n := atInstant s t) hs hl)

end Sys2Proof.Machine
end

section
/-! PROOF. The call's stages, transfers and the watch in time (09 R199 to R211). -/

namespace Sys2Proof.Machine

/-! What the call changes -/

/-- m differs from n in the call, the stations, the interrupts that wait for RESULT_READY, and what a record may change. -/
def CallFrame (n m : Node) : Prop := ∃ c st d, RecFrame { n with call := c, stations := st, dueR := d } m

theorem CallFrame.refl (n : Node) : CallFrame n n := ⟨n.call, n.stations, n.dueR, recFrame_refl n⟩

theorem CallFrame.trans {a b c : Node} (h : CallFrame a b) (k : CallFrame b c) : CallFrame a c := by
  obtain ⟨x, st, e, r, l, hd, d, q, rfl, hh⟩ := h
  obtain ⟨x', st', e', r', l', hd', d', q', rfl, hh'⟩ := k
  exact ⟨x', st', e', r', l', hd', d', q', rfl, fun p hp => (hh' p hp).trans (hh p hp)⟩

theorem callFrame_modCall (n : Node) (f : Call → Call) : CallFrame n (modCall n f) := ⟨_, n.stations, n.dueR, recFrame_refl _⟩

theorem callFrame_modStation (n : Node) (k : Nat) (f : Station → Station) : CallFrame n (modStation n k f) :=
  ⟨n.call, _, n.dueR, recFrame_refl _⟩

theorem callFrame_stations (n : Node) (st : Tbl Station) : CallFrame n { n with stations := st } :=
  ⟨n.call, st, n.dueR, recFrame_refl _⟩

theorem callFrame_note (n : Node) (r : Rec) : CallFrame n (note n r) := ⟨n.call, n.stations, n.dueR, recFrame_note n r⟩

theorem callFrame_raiseR (n : Node) (p b : Nat) : CallFrame n (raiseR n p b) := ⟨n.call, n.stations, _, recFrame_refl _⟩

theorem CallFrame.points {n m : Node} (h : CallFrame n m) : m.points = n.points := by
  obtain ⟨c, st, e, r, l, hd, d, q, rfl, -⟩ := h
  rfl

theorem CallFrame.regs {n m : Node} (h : CallFrame n m) : m.regs = n.regs := by
  obtain ⟨c, st, e, r, l, hd, d, q, rfl, -⟩ := h
  rfl

theorem CallFrame.sameButRecords {n m : Node} (h : CallFrame n m) : SameButRecords (settle m)
    { n with call := (settle m).call, stations := (settle m).stations, dueR := (settle m).dueR } := by
  obtain ⟨c, st, e, h⟩ := h
  have hs := sameButRecords_settle h
  obtain ⟨r, l, hd, d, q, rfl, hh⟩ := h
  exact hs

theorem callFrame_setStage (n : Node) (st : Nat) : CallFrame n (setStage n st) := by
  simp only [setStage]
  split
  · exact .refl n
  · exact (callFrame_modCall n _).trans ((callFrame_note _ _).trans (callFrame_raiseR _ _ _))

theorem callFrame_setInd (n : Node) (k : Nat) : CallFrame n (setInd n k) := callFrame_modStation n k _

/-- The counts of the call page, by the points that call. -/
def callCounts (ps : List Nat) (o : Nat × Nat) (xs : Nat) (c : Call) : Call :=
  { c with
    oldest := o.1, oldestAge := o.2, ncall := ps.length, nxfr := xs, accValid := c.accValid && decide (xs ≠ 0),
    summary := decide (c.stage = 3) }

def showCalls (ps : List Nat) (n : Node) : Node :=
  modCall n (callCounts ps (oldestOf n ps)
    ((keys n.points).filter (fun k => (pointOf n k).state == .actTransferred)).length)

/-- The highest stage at which a point calls (R199). -/
def topStage (n : Node) : Nat := (callingPts n).foldl (fun a p => max a (effStage n p)) 0

/-- The indications of the stations (R201, R202). -/
def showInds (n : Node) : Node := (List.range 16).foldl setInd n

theorem refreshCall_eq (n : Node) :
    refreshCall n = showCalls (callingPts n) (showInds (setStage n (topStage n))) := rfl

theorem callFrame_showInds (n : Node) : CallFrame n (showInds n) :=
  foldl_rel CallFrame.refl CallFrame.trans (f := setInd) callFrame_setInd _ n

theorem call_showInds (n : Node) : (showInds n).call = n.call := by
  unfold showInds
  exact foldl_same (g := Node.call) (f := setInd) (fun _ _ => rfl) _ _

theorem dueR_showInds (n : Node) : (showInds n).dueR = n.dueR := by
  unfold showInds
  exact foldl_same (g := Node.dueR) (f := setInd) (fun _ _ => rfl) _ _

theorem callFrame_showCalls (ps : List Nat) (n : Node) : CallFrame n (showCalls ps n) := by
  unfold showCalls
  exact callFrame_modCall n _

theorem dueR_showCalls (ps : List Nat) (n : Node) : (showCalls ps n).dueR = n.dueR := by
  unfold showCalls
  rfl

theorem callFrame_refreshCall (n : Node) : CallFrame n (refreshCall n) := by
  rw [refreshCall_eq]
  exact (callFrame_setStage n _).trans ((callFrame_showInds _).trans (callFrame_showCalls _ _))

/-! STAGE -/

theorem setStage_call (n : Node) (st : Nat) : (setStage n st).call = { n.call with stage := st } := by
  simp only [setStage]
  split
  · rename_i h; rw [← h]
  · simp [modCall]

theorem setStage_dueR (n : Node) (st : Nat) :
    (setStage n st).dueR = if n.call.stage = st then n.dueR else n.dueR ++ [(7, 0)] := by
  simp only [setStage]
  split
  · rfl
  · simp [modCall]

theorem refreshCall_dueR (n : Node) :
    (refreshCall n).dueR = if n.call.stage = topStage n then n.dueR else n.dueR ++ [(7, 0)] := by
  rw [refreshCall_eq, dueR_showCalls, dueR_showInds, setStage_dueR]

theorem mem_dueR_refreshCall {n : Node} {x : Nat × Nat} (h : x ∈ n.dueR) : x ∈ (refreshCall n).dueR := by
  rw [refreshCall_dueR]
  split
  · exact h
  · exact List.mem_append_left _ h

/-- The call after STAGE and the counts have been formed (R204). -/
theorem refreshCall_call (n : Node) : ∃ o a x v, (refreshCall n).call = { n.call with
    stage := topStage n, summary := decide (topStage n = 3), ncall := (callingPts n).length, oldest := o, oldestAge := a,
    nxfr := x, accValid := v } := by
  have hind : (showInds (setStage n (topStage n))).call = { n.call with stage := topStage n } :=
    (call_showInds _).trans (setStage_call n _)
  rw [refreshCall_eq]
  generalize showInds (setStage n (topStage n)) = m at hind
  unfold showCalls modCall
  dsimp only
  rw [hind]
  exact ⟨_, _, _, _, rfl⟩

/-! The transfer limit (R206) and the watch (R210) -/

theorem transferDue_of {n : Node} {k : Nat} (hs : (pointOf n k).state = .actTransferred) (ha : (pointOf n k).again = false)
    (hx : callXfr n ≤ (pointOf n k).xfr) :
    transferDue n k = modPoint n k (fun p => { p with again := true, age := callT2 n }) := by
  simp only [transferDue, hs, ha, hx, Bool.not_false, and_self, if_true]

theorem transferDue_not {n : Node} {k : Nat} (h : (pointOf n k).state ≠ .actTransferred ∨ (pointOf n k).again = true ∨
    (pointOf n k).xfr < callXfr n) : transferDue n k = n := by
  simp only [transferDue]
  refine if_neg fun ⟨hs, ha, hx⟩ => ?_
  rcases h with h | h | h
  · exact h hs
  · simp [h] at ha
  · omega

theorem setWatch_call (n : Node) (w : Watch) (source : Nat) :
    (setWatch n w source).call = { n.call with watch := w, watchCnt := 0, watchNew := true } := by
  simp only [setWatch]
  split
  · rfl
  · simp [modCall]

theorem setWatch_tells {n : Node} {w : Watch} (h : n.call.watch ≠ w) (source : Nat) :
    (7, 5) ∈ (setWatch n w source).dueR := by
  simp only [setWatch, if_neg h]
  exact List.mem_append_right _ (List.mem_singleton.mpr rfl)

theorem callFrame_setWatch (n : Node) (w : Watch) (source : Nat) : CallFrame n (setWatch n w source) := by
  simp only [setWatch]
  split
  · exact callFrame_modCall n _
  · exact (callFrame_modCall n _).trans ((callFrame_note _ _).trans (callFrame_raiseR _ _ _))

/-- The watch that has run out, in its next state, and the call formed after it. -/
theorem refreshed_watch {n : Node} {w : Watch} (hw : n.call.watch ≠ w) {u : Node}
    (hu : u = refreshCall (modCall (setWatch n w 255) (fun c => { c with watchNew := false }))) :
    u.call.watch = w ∧ u.call.watchCnt = 0 ∧ (7, 5) ∈ u.dueR ∧ u.points = n.points := by
  obtain ⟨o, a, x, v, hcall⟩ := refreshCall_call (modCall (setWatch n w 255) (fun c => { c with watchNew := false }))
  have hset := setWatch_call n w 255
  subst hu
  refine ⟨?_, ?_, mem_dueR_refreshCall (by exact setWatch_tells hw 255), ?_⟩
  · rw [hcall]; exact congrArg Call.watch hset
  · rw [hcall]; exact congrArg Call.watchCnt hset
  · exact (callFrame_refreshCall _).points.trans (((callFrame_setWatch n w 255).trans (callFrame_modCall _ _)).points)

/-- The call formed while the watch stands. -/
theorem refreshed_still {n u : Node} (hu : u = refreshCall n) : u.call.watch = n.call.watch ∧
    u.call.watchCnt = n.call.watchCnt ∧ u.points = n.points := by
  subst hu
  obtain ⟨o, a, x, v, hcall⟩ := refreshCall_call n
  exact ⟨by rw [hcall], by rw [hcall], (callFrame_refreshCall n).points⟩

theorem watchDue_running {n : Node} (hw : n.call.watch = .running) : watchDue n =
    if watchT n ≤ n.call.watchCnt then modCall (setWatch n .prewarn 255) (fun c => { c with watchNew := false }) else n := by
  simp only [watchDue, hw]

theorem watchDue_prewarn {n : Node} (hw : n.call.watch = .prewarn) : watchDue n =
    if watchP n ≤ n.call.watchCnt then modCall (setWatch n .alarm 255) (fun c => { c with watchNew := false }) else n := by
  simp only [watchDue, hw]

/-- An event of the engine, by what holds of the node that it leaves. -/
theorem acts_engine_leaves {c : Instr} {s : State} {t : Nat} {f : Node → Node} {P : Node → Node → Prop}
    (hc : exec c s = .next (onEngine s t f)) (he : evaluates s.node)
    (h : ∀ u, u = f (atInstant s t) → P (atInstant s t) (settle u)) : Acts c s t P :=
  acts_engine hc he rfl (h _ rfl)

theorem refreshCall_leaves {n u : Node} (hu : u = refreshCall n) :
    SameButRecords (settle u) { n with call := (settle u).call, stations := (settle u).stations, dueR := (settle u).dueR } ∧
    u.call.stage = topStage n ∧ u.call.summary = decide (u.call.stage = 3) ∧ u.call.ncall = (callingPts n).length ∧
    u.call.watch = n.call.watch ∧ (u.call.stage ≠ n.call.stage → (7, 0) ∈ u.dueR) := by
  subst hu
  obtain ⟨o, a, x, v, hcall⟩ := refreshCall_call n
  rw [hcall]
  refine ⟨(callFrame_refreshCall n).sameButRecords, rfl, rfl, rfl, rfl, fun hne => ?_⟩
  rw [refreshCall_dueR, if_neg (fun h => hne h.symm)]
  exact List.mem_append_right _ (List.mem_singleton.mpr rfl)

theorem acts_callStageEscalate {t k : Nat} {s : State} (he : evaluates s.node) : Acts (.callStageEscalate t k) s t (fun n u =>
    SameButRecords u { n with call := u.call, stations := u.stations, dueR := u.dueR } ∧
    u.call.stage = (callingPts n).foldl (fun a p => max a (effStage n p)) 0 ∧
    u.call.summary = decide (u.call.stage = 3) ∧ u.call.ncall = (callingPts n).length ∧
    u.call.watch = n.call.watch ∧ (u.call.stage ≠ n.call.stage → (7, 0) ∈ u.dueR)) :=
  acts_engine_leaves (f := refreshCall) rfl he fun _ hu => refreshCall_leaves hu

theorem pointOf_refreshCall {n u : Node} (hu : u = refreshCall n) (j : Nat) : pointOf u j = pointOf n j := by
  have hpoints : u.points = n.points := by rw [hu]; exact (callFrame_refreshCall n).points
  rw [pointOf, hpoints]
  rfl

theorem acts_transferExpire {t k : Nat} {s : State} (he : evaluates s.node) (hs : (pointOf s.node k).state = .actTransferred)
    (ha : (pointOf s.node k).again = false) (hx : callXfr s.node ≤ (pointOf s.node k).xfr) :
    Acts (.transferExpire t k) s t (fun n u => pointOf u k = { pointOf n k with again := true, age := callT2 n } ∧
      (∀ j, j ≠ k → pointOf u j = pointOf n j) ∧ u.regs = n.regs) := by
  refine acts_engine_leaves (f := fun n => refreshCall (transferDue n k)) rfl he fun u hu => ?_
  rw [transferDue_of (n := atInstant s t) hs ha hx] at hu
  generalize atInstant s t = n at hu ⊢
  have hpt := pointOf_refreshCall hu
  have hregs : u.regs = n.regs := by rw [hu]; exact (callFrame_refreshCall _).regs
  exact ⟨(hpt k).trans (pointOf_modPoint_self _ _ _), fun j hj => (hpt j).trans (pointOf_modPoint_ne _ _ hj), hregs⟩

/-- An event of the watch in the state it is for. -/
theorem acts_watch {c : Instr} {t : Nat} {s : State} {w : Watch} {P : Node → Node → Prop} (he : evaluates s.node)
    (hc : exec c s = .next (onEngine s t (fun n => if n.call.watch = w then refreshCall (watchDue n) else n)))
    (hw : s.node.call.watch = w) (h : ∀ u, u = refreshCall (watchDue (atInstant s t)) → P (atInstant s t) (settle u)) :
    Acts c s t P :=
  acts_engine hc he (if_pos hw) (h _ rfl)

/-- An event of the watch in another state. -/
theorem acts_watch_idle {c : Instr} {t : Nat} {s : State} {w : Watch} (he : evaluates s.node)
    (hc : exec c s = .next (onEngine s t (fun n => if n.call.watch = w then refreshCall (watchDue n) else n)))
    (hw : s.node.call.watch ≠ w) : Acts c s t (fun n u => SameButSignals u n) :=
  acts_engine_same hc he (if_neg hw)

/-- Settles O35. -/
theorem callTimersExpire : Obligations.CallTimersExpire := by
  intro t k s he
  refine ⟨acts_callStageEscalate he, fun hs ha hx => acts_transferExpire he hs ha hx, fun h => ?_, fun hw hl => ?_,
    fun hw hl => ?_, fun hw => acts_watch_idle he rfl hw, fun hw hl => ?_, fun hw hl => ?_, fun hw => acts_watch_idle he rfl hw⟩
  · refine acts_engine (f := fun n => refreshCall (transferDue n k)) rfl he
      (congrArg refreshCall (transferDue_not (n := atInstant s t) h)) ?_
    rw [settle_points]
    exact (callFrame_refreshCall _).points
  · refine acts_watch he rfl hw fun u hu => ?_
    rw [watchDue_running (n := atInstant s t) hw, if_pos (by exact hl)] at hu
    obtain ⟨hwatch, hcnt, htell, hpoints⟩ := refreshed_watch (n := atInstant s t) (u := u)
      (by rw [show (atInstant s t).call.watch = .running from hw]; decide) hu
    exact ⟨hwatch, hcnt, htell, hpoints⟩
  · refine acts_watch he rfl hw fun u hu => ?_
    have hl' : ¬ watchT (atInstant s t) ≤ (atInstant s t).call.watchCnt := Nat.not_le.mpr hl
    rw [watchDue_running (n := atInstant s t) hw, if_neg hl'] at hu
    obtain ⟨hwatch, hcnt, hpoints⟩ := refreshed_still hu
    exact ⟨hwatch.trans hw, hcnt, hpoints⟩
  · refine acts_watch he rfl hw fun u hu => ?_
    rw [watchDue_prewarn (n := atInstant s t) hw, if_pos (by exact hl)] at hu
    obtain ⟨hwatch, hcnt, htell, hpoints⟩ := refreshed_watch (n := atInstant s t) (u := u)
      (by rw [show (atInstant s t).call.watch = .prewarn from hw]; decide) hu
    exact ⟨hwatch, hcnt, htell, hpoints⟩
  · refine acts_watch he rfl hw fun u hu => ?_
    have hl' : ¬ watchP (atInstant s t) ≤ (atInstant s t).call.watchCnt := Nat.not_le.mpr hl
    rw [watchDue_prewarn (n := atInstant s t) hw, if_neg hl'] at hu
    obtain ⟨hwatch, hcnt, hpoints⟩ := refreshed_still hu
    exact ⟨hwatch.trans hw, hcnt, hpoints⟩

end Sys2Proof.Machine
end

section
/-! PROOF. Stations are polled, answer, are lost and come back; their keys wait and apply once (09 R198, 14 R332, R333). -/

namespace Sys2Proof.Machine

/-! One station -/

theorem stationOf_modStation_self (n : Node) (k : Nat) (f : Station → Station) :
    stationOf (modStation n k f) k = f (stationOf n k) := tget_tmod_self _ _ _ _

theorem stationOf_modStation_ne (n : Node) {k j : Nat} (f : Station → Station) (h : j ≠ k) :
    stationOf (modStation n k f) j = stationOf n j := tget_tmod_ne _ _ _ h

theorem stationOf_of_stations {n m : Node} (h : m.stations = n.stations) (k : Nat) : stationOf m k = stationOf n k := by
  rw [stationOf, h]
  rfl

theorem setLink_stations (n : Node) (k link : Nat) :
    (setLink n k link).stations = (modStation n k (fun s => { s with link := link })).stations := by
  simp [setLink]

theorem setLink_call (n : Node) (k link : Nat) : (setLink n k link).call = n.call := by
  simp [setLink]

theorem callFrame_setLink (n : Node) (k link : Nat) : CallFrame n (setLink n k link) :=
  (callFrame_modStation n k _).trans ((callFrame_note _ _).trans (callFrame_raiseR _ _ _))

/-- A change of the call's stations alone. -/
theorem CallFrame.sameStations {n m : Node} (h : CallFrame n m) (hc : m.call = n.call) :
    SameButRecords (settle m) { n with stations := (settle m).stations, dueR := (settle m).dueR } := by
  obtain ⟨c, st, e, r, l, hd, d, q, rfl, hh⟩ := h
  have hc' : c = n.call := hc
  subst hc'
  exact ⟨rfl, hh⟩

/-! Polls (14 R332) -/

/-- A station's state after a poll: an unanswered one before it counts, and the third in a row loses it. -/
def unanswered (s : Station) : Station :=
  if s.awaiting then { s with missed := sat 255 (s.missed + 1), replies := 0 } else s

def lostOf (s : Station) : Station := if s.link = 1 ∧ 3 ≤ s.missed then { s with link := 2 } else s

def polled (s : Station) : Station := { lostOf (unanswered s) with awaiting := true, due := false }

/-- What no step of a poll changes. -/
def regsAndPoints (n : Node) : Tbl Word × Tbl Point := (n.regs, n.points)

theorem regsAndPoints_callFrame {n m : Node} (h : CallFrame n m) : regsAndPoints m = regsAndPoints n := by
  rw [regsAndPoints, h.regs, h.points]
  rfl

theorem queueMsg_keeps (n : Node) (c : Nat) (m : NodeMsg) :
    (queueMsg n c m).stations = n.stations ∧ regsAndPoints (queueMsg n c m) = regsAndPoints n := by
  obtain ⟨cs, r, l, hd, d, q, he, -⟩ := queues_queueMsg n c m
  rw [he]
  exact ⟨rfl, rfl⟩

theorem sendStn_stations (n : Node) (k : Nat) (poll : Bool) :
    (sendStn n k poll).stations = (modStation n k (fun s => { s with due := false })).stations :=
  (queueMsg_keeps _ _ _).1

theorem regsAndPoints_sendStn (n : Node) (k : Nat) (poll : Bool) : regsAndPoints (sendStn n k poll) = regsAndPoints n :=
  (queueMsg_keeps _ _ _).2

/-- The station counted and perhaps lost, before the poll goes. -/
def countPoll (n : Node) (k : Nat) : Node :=
  let n := modStation n k unanswered
  if (stationOf n k).link = 1 ∧ 3 ≤ (stationOf n k).missed then setLink n k 2 else n

theorem pollStation_eq (n : Node) (k : Nat) :
    pollStation n k = sendStn (modStation (countPoll n k) k (fun s => { s with awaiting := true })) k true := rfl

theorem callFrame_countPoll (n : Node) (k : Nat) : CallFrame n (countPoll n k) := by
  simp only [countPoll]
  split
  · exact (callFrame_modStation n k _).trans (callFrame_setLink _ k 2)
  · exact callFrame_modStation n k _

theorem stationOf_countPoll_self (n : Node) (k : Nat) : stationOf (countPoll n k) k = lostOf (unanswered (stationOf n k)) := by
  have hs := stationOf_modStation_self n k unanswered
  simp only [countPoll, lostOf]
  rw [hs]
  split
  · rw [stationOf_of_stations (setLink_stations _ k 2), stationOf_modStation_self, hs]
  · exact hs

theorem stationOf_countPoll_ne (n : Node) {k j : Nat} (h : j ≠ k) : stationOf (countPoll n k) j = stationOf n j := by
  have hs := stationOf_modStation_ne n unanswered h
  simp only [countPoll]
  split
  · rw [stationOf_of_stations (setLink_stations _ k 2), stationOf_modStation_ne _ _ h, hs]
  · exact hs

theorem stationOf_pollStation_self (n : Node) (k : Nat) : stationOf (pollStation n k) k = polled (stationOf n k) := by
  rw [pollStation_eq, stationOf_of_stations (sendStn_stations _ k true), stationOf_modStation_self, stationOf_modStation_self,
    stationOf_countPoll_self]
  rfl

theorem stationOf_pollStation_ne (n : Node) {k j : Nat} (h : j ≠ k) : stationOf (pollStation n k) j = stationOf n j := by
  rw [pollStation_eq, stationOf_of_stations (sendStn_stations _ k true), stationOf_modStation_ne _ _ h,
    stationOf_modStation_ne _ _ h, stationOf_countPoll_ne n h]

theorem regsAndPoints_pollStation (n : Node) (k : Nat) : regsAndPoints (pollStation n k) = regsAndPoints n := by
  rw [pollStation_eq, regsAndPoints_sendStn]
  exact regsAndPoints_callFrame ((callFrame_countPoll n k).trans (callFrame_modStation _ k _))

/-- Of a list of stations without a repetition each is polled once. -/
theorem stationOf_foldl_pollStation {k : Nat} {l : List Nat} (hl : l.Nodup) (n : Node) :
    stationOf (l.foldl pollStation n) k = if k ∈ l then polled (stationOf n k) else stationOf n k := by
  induction l generalizing n with
  | nil => rfl
  | cons x r ih =>
    obtain ⟨hx, hr⟩ := List.nodup_cons.mp hl
    rw [List.foldl_cons, ih hr]
    by_cases hk : k = x
    · subst hk
      rw [if_neg hx, if_pos List.mem_cons_self, stationOf_pollStation_self]
    · rw [stationOf_pollStation_ne n hk]
      simp only [List.mem_cons, hk, false_or]

theorem stationOf_erase_ne (n : Node) {k j : Nat} (h : j ≠ k) :
    stationOf { n with stations := erase n.stations k } j = stationOf n j := by
  simp only [stationOf, tget, lookup_erase_ne _ h]

/-- A station in service stays as it is where the stations are brought into line with the configuration. -/
theorem stationOf_syncStation {n : Node} {k : Nat} (hen : stnEn n k = true) (hlink : (stationOf n k).link = 1) (j : Nat) :
    stationOf (syncStation n j) k = stationOf n k := by
  unfold syncStation
  by_cases hj : k = j
  · subst hj
    rw [if_pos hen, stationOf_modStation_self, hlink]
    rfl
  · split
    · exact stationOf_modStation_ne n _ hj
    · exact stationOf_erase_ne n hj

theorem callFrame_syncStation (n : Node) (k : Nat) : CallFrame n (syncStation n k) := by
  unfold syncStation
  split
  · exact callFrame_modStation n k _
  · exact callFrame_stations n _

theorem regsAndPoints_syncStation (n : Node) (k : Nat) : regsAndPoints (syncStation n k) = regsAndPoints n :=
  regsAndPoints_callFrame (callFrame_syncStation n k)

theorem regsAndPoints_syncStations (n : Node) : regsAndPoints (syncStations n) = regsAndPoints n := by
  unfold syncStations
  exact foldl_same (g := regsAndPoints) (f := syncStation) regsAndPoints_syncStation _ n

theorem stnEn_of_regs {n m : Node} (h : regsAndPoints m = regsAndPoints n) (k : Nat) : stnEn m k = stnEn n k := by
  have hregs : m.regs = n.regs := congrArg Prod.fst h
  simp only [stnEn, stnCfg, callReg, reg, hregs]

theorem stationOf_syncStations {n : Node} {k : Nat} (hen : stnEn n k = true) (hlink : (stationOf n k).link = 1) :
    stationOf (syncStations n) k = stationOf n k := by
  have hfold : ∀ (l : List Nat) (m : Node), stnEn m k = true → (stationOf m k).link = 1 →
      stationOf (l.foldl syncStation m) k = stationOf m k := by
    intro l
    induction l with
    | nil => exact fun m _ _ => rfl
    | cons j r ih =>
      intro m hm hl
      have hj := stationOf_syncStation hm hl j
      have hen' := (stnEn_of_regs (regsAndPoints_syncStation m j) k).trans hm
      exact (ih _ hen' ((congrArg Station.link hj).trans hl)).trans hj
  unfold syncStations
  exact hfold _ n hen hlink

theorem mem_stations {n : Node} {k : Nat} : k ∈ stations n ↔ k < 16 ∧ stnEn n k = true := by
  simp [stations]

theorem stations_nodup (n : Node) : (stations n).Nodup := List.nodup_range.filter _

theorem stationPoll_of {n : Node} (hh : holder n = true) (hs : inStates n 30 = true) (hf : n.frame % framesPerSec n = 0) :
    stationPoll n = (stations (syncStations n)).foldl pollStation (syncStations n) := by
  simp only [stationPoll, hh, hs, hf, decide_true, Bool.and_self, if_true]

theorem stationPoll_not {n : Node} (h : holder n = false ∨ inStates n 30 = false ∨ n.frame % framesPerSec n ≠ 0) :
    stationPoll n = n := by
  unfold stationPoll
  refine if_neg ?_
  rcases h with h | h | h <;> simp [h]

/-- The link of a station in service after a poll. -/
theorem link_polled {s : Station} (h : s.link = 1) :
    (polled s).link = if 3 ≤ (if s.awaiting then min 255 (s.missed + 1) else s.missed) then 2 else 1 := by
  have hmissed : (unanswered s).missed = if s.awaiting then min 255 (s.missed + 1) else s.missed := by
    unfold unanswered
    split <;> simp [sat, Nat.min_comm]
  have hlink : (unanswered s).link = 1 := by
    unfold unanswered
    split <;> exact h
  rw [← hmissed]
  simp only [polled, lostOf, hlink, true_and]
  split
  · rfl
  · exact hlink

/-- What a poll leaves (14 R332). -/
theorem stationPoll_leaves {n u : Node} (hh : holder n = true) (hs : inStates n 30 = true)
    (hf : n.frame % framesPerSec n = 0) (hu : u = stationPoll n) :
    regsAndPoints u = regsAndPoints n ∧ ∀ k, k < 16 → stnEn n k = true →
      (stationOf u k).awaiting = true ∧ ((stationOf n k).link = 1 → stationOf u k = polled (stationOf n k)) := by
  rw [stationPoll_of hh hs hf] at hu
  have hsync := regsAndPoints_syncStations n
  refine ⟨?_, fun k hk hen => ?_⟩
  · rw [hu]
    exact (foldl_same (g := regsAndPoints) (f := pollStation) regsAndPoints_pollStation _ _).trans hsync
  · have hmem : k ∈ stations (syncStations n) := mem_stations.mpr ⟨hk, (stnEn_of_regs hsync k).trans hen⟩
    have hpoll : stationOf u k = polled (stationOf (syncStations n) k) := by
      rw [hu, stationOf_foldl_pollStation (stations_nodup _), if_pos hmem]
    exact ⟨by rw [hpoll]; rfl, fun hlink => by rw [hpoll, stationOf_syncStations hen hlink]⟩

/-- An event on the node, by what holds of the node that it leaves. -/
theorem acts_leaves {c : Instr} {s : State} {t : Nat} {f : Node → Node} {P : Node → Node → Prop}
    (hc : exec c s = .next (onNode s t f)) (h : ∀ u, u = f (atInstant s t) → P (atInstant s t) (settle u)) : Acts c s t P :=
  acts_of_eq hc rfl (h _ rfl)

theorem acts_stationPoll {t k : Nat} {s : State} (hh : holder s.node = true) (hs : inStates s.node 30 = true)
    (hf : s.node.frame % framesPerSec s.node = 0) : Acts (.stationPoll t) s t (fun n u => u.regs = n.regs ∧
      u.points = n.points ∧ (k < 16 → stnEn n k = true → (stationOf u k).awaiting = true ∧
        ((stationOf n k).link = 1 →
          (stationOf u k).link = (if 3 ≤ (if (stationOf n k).awaiting then min 255 ((stationOf n k).missed + 1)
            else (stationOf n k).missed) then 2 else 1)))) := by
  refine acts_leaves (f := stationPoll) rfl fun u hu => ?_
  obtain ⟨hkeep, hstn⟩ := stationPoll_leaves (n := atInstant s t) hh hs hf hu
  refine ⟨congrArg Prod.fst hkeep, congrArg Prod.snd hkeep, fun hk hen => ?_⟩
  obtain ⟨hawait, hpolled⟩ := hstn k hk hen
  exact ⟨hawait, fun hlink => (congrArg Station.link (hpolled hlink)).trans (link_polled hlink)⟩

/-! Replies -/

/-- A station's state after a reply to its poll. -/
def answered (s : Station) : Station :=
  { s with awaiting := false, missed := 0, replies := sat 255 (s.replies + 1),
           link := if s.link = 2 ∧ 2 ≤ s.replies + 1 then 1 else s.link }

/-- What a reply leaves. -/
structure Replied (n u : Node) (k : Nat) (x : Station) : Prop where
  frame : CallFrame n u
  call : u.call = n.call
  others : ∀ j, j ≠ k → stationOf u j = stationOf n j
  station : stationOf u k = x

theorem replied_stnReply {n : Node} {k : Nat} (ha : (stationOf n k).awaiting = true) :
    Replied n (stnReply n k) k (answered (stationOf n k)) := by
  have hself := stationOf_modStation_self n k
    (fun s => { s with awaiting := false, missed := 0, replies := sat 255 (s.replies + 1) })
  have hne := fun j (hj : j ≠ k) => stationOf_modStation_ne n (k := k)
    (fun s => { s with awaiting := false, missed := 0, replies := sat 255 (s.replies + 1) }) hj
  simp only [stnReply, ha, Bool.not_true, Bool.false_eq_true, if_false]
  split
  · rename_i hback
    refine ⟨(callFrame_modStation n k _).trans (callFrame_setLink _ k 1), setLink_call _ k 1, fun j hj => ?_, ?_⟩
    · rw [stationOf_of_stations (setLink_stations _ k 1), stationOf_modStation_ne _ _ hj, hne j hj]
    · rw [stationOf_of_stations (setLink_stations _ k 1), stationOf_modStation_self, hself, answered, if_pos hback]
  · rename_i hback
    exact ⟨callFrame_modStation n k _, rfl, hne, by rw [hself, answered, if_neg hback]⟩

theorem stnReply_not {n : Node} {k : Nat} (ha : (stationOf n k).awaiting = false) : stnReply n k = n := by
  simp only [stnReply, ha, Bool.not_false, if_true]

theorem acts_stnReply {t k : Nat} {h : MsgHead} {s : State} (hf : fromStation s.node h k = true)
    (ha : (stationOf s.node k).awaiting = true) : Acts (.stnReply t h k) s t (fun n u =>
      SameButRecords u { n with stations := u.stations, dueR := u.dueR } ∧
      (∀ j, j ≠ k → stationOf u j = stationOf n j) ∧ (stationOf u k).awaiting = false ∧ (stationOf u k).missed = 0 ∧
      (stationOf u k).replies = min 255 ((stationOf n k).replies + 1) ∧
      (stationOf u k).link = (if (stationOf n k).link = 2 ∧ 2 ≤ (stationOf n k).replies + 1 then 1
        else (stationOf n k).link)) := by
  refine acts_leaves (f := fun n => if fromStation n h k then stnReply n k else n) rfl fun u hu => ?_
  have hf' : fromStation (atInstant s t) h k = true := hf
  rw [if_pos hf'] at hu
  obtain ⟨hframe, hcall, hothers, hstn⟩ := replied_stnReply (n := atInstant s t) ha
  rw [← hu] at hframe hcall hothers hstn
  have hstn' : stationOf (settle u) k = answered (stationOf (atInstant s t) k) := hstn
  refine ⟨hframe.sameStations hcall, hothers, ?_⟩
  rw [hstn']
  exact ⟨rfl, rfl, rfl, rfl⟩

/-! Keys (14 R333) -/

theorem length_insertRemote (x : Remote) (l : List Remote) : (insertRemote x l).length = l.length + 1 := by
  induction l with
  | nil => rfl
  | cons y r ih =>
    unfold insertRemote
    split
    · rfl
    · rw [List.length_cons, ih, List.length_cons]

theorem mem_insertRemote (x : Remote) (l : List Remote) : x ∈ insertRemote x l := by
  induction l with
  | nil => exact List.mem_singleton.mpr rfl
  | cons y r ih =>
    unfold insertRemote
    split
    · exact List.mem_cons_self
    · exact List.mem_cons_of_mem _ ih

/-- A key as it arrives: a reply, where one is awaited, and the key queued. -/
theorem replied_keyReply (n : Node) (k : Nat) : ∃ x, Replied n (stnReply n k) k x := by
  cases ha : (stationOf n k).awaiting with
  | true => exact ⟨_, replied_stnReply ha⟩
  | false =>
    rw [stnReply_not ha]
    exact ⟨_, .refl n, rfl, fun _ _ => rfl, rfl⟩

theorem stationKey_exec {c : Instr} {t k key q arg : Nat} {h : MsgHead} (hc : stationKey c = some (t, h, k, key, q, arg))
    (s : State) : exec c s = .next (onNode s t (fun n => stnKey n h k key q arg)) := by
  cases c <;> simp only [stationKey, reduceCtorEq] at hc
  all_goals (cases hc; rfl)

/-- A key queued behind what a reply leaves. -/
theorem replied_queueRemote {n m : Node} {k : Nat} {x : Station} (h : Replied n m k x) (order : Nat) (a : RemoteAct) {u : Node}
    (hu : u = queueRemote m order a) :
    SameButRecords (settle u) { n with
      stations := (settle u).stations, dueR := (settle u).dueR, net := { n.net with remote := (settle u).net.remote } } ∧
    (∀ j, j ≠ k → stationOf (settle u) j = stationOf n j) ∧ (settle u).net.remote.length = n.net.remote.length + 1 ∧
    { tag := n.frame, at_ := n.now, order := order, act := a } ∈ (settle u).net.remote := by
  obtain ⟨⟨c, st, e, r, l, hd, d, q, rfl, hh⟩, hcall, hothers, -⟩ := h
  have hc' : c = n.call := hcall
  subst hc'
  subst hu
  exact ⟨⟨rfl, hh⟩, hothers, length_insertRemote _ _, mem_insertRemote _ _⟩

theorem acts_stationKey {c : Instr} {t k key q arg : Nat} {h : MsgHead} {s : State}
    (hc : stationKey c = some (t, h, k, key, q, arg)) (hf : fromStation s.node h k = true) : Acts c s t (fun n u =>
      SameButRecords u { n with stations := u.stations, dueR := u.dueR, net := { n.net with remote := u.net.remote } } ∧
      (∀ j, j ≠ k → stationOf u j = stationOf n j) ∧ u.net.remote.length = n.net.remote.length + 1 ∧
      { tag := n.frame, at_ := n.now, order := h.ctrl, act := .key h.ctrl h.src k key q arg } ∈ u.net.remote) := by
  refine acts_leaves (stationKey_exec hc s) fun u hu => ?_
  have hf' : fromStation (atInstant s t) h k = true := hf
  simp only [stnKey, hf', if_true] at hu
  obtain ⟨x, hrep⟩ := replied_keyReply (atInstant s t) k
  exact replied_queueRemote hrep _ _ hu

theorem acts_stationKey_not {c : Instr} {t k key q arg : Nat} {h : MsgHead} {s : State}
    (hc : stationKey c = some (t, h, k, key, q, arg)) (hf : fromStation s.node h k = false) :
    Acts c s t (fun n u => SameButSignals u n) := by
  refine acts_same (stationKey_exec hc s) ?_
  have hf' : fromStation (atInstant s t) h k = false := hf
  simp only [stnKey, hf', Bool.false_eq_true, if_false]

/-! A key applied -/

/-- The station's key counter taken. -/
def keyTaken (n : Node) (k q : Nat) : Node := modStation n k (fun s => { s with kseq := some q })

theorem keyEff_repeated {n : Node} {k q : Nat} (h : (stationOf n k).kseq = some q) (key arg : Nat) :
    keyEff n k key q arg = n := by
  unfold keyEff
  exact if_pos (Or.inl h)

theorem keyEff_forbidden {n : Node} {k : Nat} (hr : stnRole n k < 2) {key : Nat} (h2 : 2 ≤ key) (h6 : key < 6) (q arg : Nat) :
    keyEff n k key q arg = n := by
  have hp : isPanel n k = false := decide_eq_false (Nat.not_le.mpr hr)
  interval_cases key <;> exact if_pos (Or.inr (Or.inl (by simp [hp])))

theorem keyEff_panel {n : Node} {k q : Nat} (hq : (stationOf n k).kseq ≠ some q) (hen : stnEn n k = true)
    (hr : 2 ≤ stnRole n k) (arg : Nat) :
    keyEff n k 3 q arg = watchReset (keyTaken n k q) true k ∧ keyEff n k 4 q arg = watchOn (keyTaken n k q) k ∧
    keyEff n k 5 q arg = watchOff (keyTaken n k q) k := by
  have hp : isPanel n k = true := decide_eq_true hr
  simp only [keyEff, hq, hp, hen, Bool.not_true, Bool.false_eq_true, or_self, if_false]
  exact ⟨rfl, rfl, rfl⟩

theorem keyEff_duty {n : Node} {k q : Nat} (hq : (stationOf n k).kseq ≠ some q) (hen : stnEn n k = true)
    (hr : stnRole n k = 2) {arg : Nat} (ha : arg ≤ 15) : keyEff n k 6 q arg = setDuty (keyTaken n k q) arg k := by
  simp only [keyEff, hq, hen, hr, ha, beq_self_eq_true, decide_true, Bool.and_self, Bool.not_true, Bool.false_eq_true, or_self,
    if_false]
  rfl

theorem fld_ofNat_low {e w : Nat} (hw : w < 32) (he : e < 2 ^ (w + 1)) : fld (BitVec.ofNat 32 e) w 0 = e := by
  have hle : 2 ^ (w + 1) ≤ 2 ^ 32 := Nat.pow_le_pow_right (by decide) (by omega)
  have h32 : e < 2 ^ 32 := by omega
  simp only [fld, BitVec.toNat_ofNat, Nat.mod_eq_of_lt h32, Nat.shiftRight_zero, Nat.sub_zero, Nat.mod_eq_of_lt he]

theorem dutyEng_setDuty (n : Node) {e : Nat} (he : e < 32) (source : Nat) : dutyEng (setDuty n e source) = e := by
  simp only [setDuty]
  split
  · assumption
  · have hreg : ∀ m : Node, m.regs = (setReg n (at_ 7 0x58) (BitVec.ofNat 32 e)).regs → dutyEng m = e := fun m hm => by
      have hm' : reg m (at_ 7 0x58) = BitVec.ofNat 32 e := by
        rw [reg, hm]
        exact reg_setReg_self n _ _
      rw [dutyEng, callReg, hm']
      exact fld_ofNat_low (by decide) he
    exact hreg _ (by simp)

theorem watch_watchReset {n : Node} (hw : n.call.watch = .alarm) (source : Nat) :
    (watchReset n true source).call.watch = .running := by
  simp only [watchReset, hw, if_true, setWatch_call]

theorem watch_watchOn {n : Node} (hw : n.call.watch = .off) (source : Nat) : (watchOn n source).call.watch = .running := by
  simp only [watchOn, hw, if_true, setWatch_call]

theorem watch_watchOff (n : Node) (source : Nat) : (watchOff n source).call.watch = .off := by
  unfold watchOff
  split
  · assumption
  · simp only [setWatch_call]

/-- Settles O36. -/
theorem stationsAndTheirKeys : Obligations.StationsAndTheirKeys := by
  refine ⟨fun t k h s => ⟨fun hh hs hf => acts_stationPoll hh hs hf, fun hn => ?_, fun hf ha => acts_stnReply hf ha, fun hn => ?_⟩,
    fun c t k key q arg h s hc => ⟨fun hf => acts_stationKey hc hf, fun hf => acts_stationKey_not hc hf⟩,
    fun n k key q arg => ⟨fun hq => keyEff_repeated hq key arg, fun hq hen => ⟨fun hr h2 h6 => keyEff_forbidden hr h2 h6 q arg,
      fun hr hw => ?_, fun hr hw => ?_, fun hr => ?_, fun hr ha => ?_⟩⟩⟩
  · exact acts_same rfl (stationPoll_not (n := atInstant s t) hn)
  · refine acts_same (f := fun n => if fromStation n h k then stnReply n k else n) rfl ?_
    have hn' : fromStation (atInstant s t) h k = false ∨ (stationOf (atInstant s t) k).awaiting = false := hn
    rcases hn' with hn' | hn'
    · exact if_neg (by simp [hn'])
    · rw [stnReply_not hn', ite_self]
  · rw [(keyEff_panel hq hen hr arg).1]
    exact watch_watchReset (n := keyTaken n k q) hw k
  · rw [(keyEff_panel hq hen hr arg).2.1]
    exact watch_watchOn (n := keyTaken n k q) hw k
  · rw [(keyEff_panel hq hen hr arg).2.2]
    exact watch_watchOff _ k
  · rw [keyEff_duty hq hen hr ha]
    exact dutyEng_setDuty _ (by omega) k

end Sys2Proof.Machine
end

section
/-! PROOF. Remote commands over CAN (14 R334), and what a heartbeat leaves of a controller off the bus (13 R313, 14 R329). -/

namespace Sys2Proof.Machine

/-! Remote commands wait (14 R334) -/

theorem rcmd_taken {n : Node} {h : MsgHead} {dest : Nat} (ha : accepts n h = true) (hh : holder n = true)
    (hd : dest = msgAddr n ∨ dest = 0xFE) (op tgt index q : Nat) :
    rcmd n h dest op tgt index q = queueRemote n h.ctrl (.rcmd h.ctrl h.src dest op tgt index q) := by
  have hdest : (dest == msgAddr n || dest == 0xFE) = true := by simpa using hd
  simp only [rcmd, ha, hh, hdest, Bool.and_self, if_true]

theorem rcmd_not {n : Node} {h : MsgHead} {dest : Nat} (hn : accepts n h = false ∨ holder n = false ∨
    (dest ≠ msgAddr n ∧ dest ≠ 0xFE)) (op tgt index q : Nat) : rcmd n h dest op tgt index q = n := by
  unfold rcmd
  refine if_neg ?_
  rcases hn with hn | hn | ⟨h1, h2⟩
  · simp [hn]
  · simp [hn]
  · simp [h1, h2]

theorem acts_queueRemote {c : Instr} {s : State} {t order : Nat} {a : RemoteAct} {f : Node → Node}
    (hc : exec c s = .next (onNode s t f)) (hf : f (atInstant s t) = queueRemote (atInstant s t) order a) :
    Acts c s t (fun n u => SameButSignals u { n with net := { n.net with remote := u.net.remote } } ∧
      u.net.remote.length = n.net.remote.length + 1 ∧
      { tag := n.frame, at_ := n.now, order := order, act := a } ∈ u.net.remote) :=
  acts_of_eq hc hf ⟨rfl, length_insertRemote _ _, mem_insertRemote _ _⟩

/-! The evaluation answers or applies them -/

/-- The numbers of the last remote commands stand while points change. -/
theorem rseqs_setState (n : Node) (k : Nat) (a : AlertState) (event source : Nat) :
    (setState n k a event source).net.rseqs = n.net.rseqs := by
  simp only [setState]
  split
  · rfl
  · simp [raiseState, markChange]

theorem rseqs_command (e : AlmEvent) (source : Nat) (n : Node) (k : Nat) :
    (command n k e source).net.rseqs = n.net.rseqs := by
  unfold command
  split
  · rfl
  · exact rseqs_setState n k _ _ _

theorem rseqs_commandAll (n : Node) (ks : List Nat) (e : AlmEvent) (source : Nat) :
    (commandAll n ks e source).1.net.rseqs = n.net.rseqs := by
  simp only [commandAll]
  exact foldl_same (g := fun m => m.net.rseqs) (rseqs_command e source) ks n

theorem rseqs_byRemote (was : Node) (ks : List Nat) (r : Node × Nat) : (byRemote was ks r).net.rseqs = r.1.net.rseqs := by
  unfold byRemote
  split
  · rfl
  · refine foldl_same (g := fun m => m.net.rseqs) (fun m k => ?_) ks r.1
    split <;> rfl

theorem rcmdApply_outOfRange {tgt index : Nat} (h : rcmdRange tgt index = false) (n : Node) (src op q : Nat) :
    rcmdApply n src op tgt index q = (n, 2, 0) := by
  simp only [rcmdApply, h, Bool.not_false, if_true]

theorem rcmdApply_badOp {tgt index op : Nat} (h : rcmdRange tgt index = true) (h1 : op ≠ 1) (h2 : op ≠ 2) (n : Node) (src q : Nat) :
    rcmdApply n src op tgt index q = (n, 1, 0) := by
  simp only [rcmdApply, h, Bool.not_true, Bool.false_eq_true, if_false, if_pos (And.intro h1 h2)]

theorem rcmdApply_noAck {n : Node} {index : Nat} (h : rcmdRange 0 index = true) (hb : bit (ptAttr n index) 17 = false)
    (src q : Nat) : rcmdApply n src 1 0 index q = (n, 1, 0) := by
  simp [rcmdApply, h, hb]

/-- A command that neither its range, its operation nor the point refuses. -/
theorem rcmdApply_admitted {n : Node} {tgt index op : Nat} (h : rcmdRange tgt index = true) (hop : op = 1 ∨ op = 2)
    (hack : ¬ (op = 1 ∧ tgt = 0 ∧ bit (ptAttr n index) 17 = false)) (src q : Nat) :
    rcmdApply n src op tgt index q =
      if tget none n.net.rseqs src = some q then (n, 3, 0)
      else
        let m := { n with net := { n.net with rseqs := tset none n.net.rseqs src (some q) } }
        let r := commandAll m (rcmdTargets m op tgt index) (if op = 1 then .ack else .silence) 255
        (byRemote m (rcmdTargets m op tgt index) r, 0, r.2) := by
  have hop' : ¬ (op ≠ 1 ∧ op ≠ 2) := fun ⟨h1, h2⟩ => hop.elim h1 h2
  have hack' : ¬ (op = 1 ∧ tgt = 0 ∧ (!bit (ptAttr n index) 17) = true) := by simpa using hack
  unfold rcmdApply
  rw [if_neg (by simp [h]), if_neg hop', if_neg hack']

/-- Settles O37. -/
theorem remoteCommandsWaitAndApply : Obligations.RemoteCommandsWaitAndApply := by
  refine ⟨fun t dest tgt index q h s => ⟨fun ha hh hd => ⟨?_, ?_⟩, fun hn => ⟨?_, ?_⟩⟩, fun n src op tgt index q =>
    ⟨fun hr => rcmdApply_outOfRange hr n src op q, fun hr h1 h2 => rcmdApply_badOp hr h1 h2 n src q, fun hr hop hack => ⟨fun hq => ?_,
      fun hq => ?_⟩, fun hr hb => rcmdApply_noAck hr hb src q⟩⟩
  · exact acts_queueRemote rfl (rcmd_taken (n := atInstant s t) ha hh hd 1 tgt index q)
  · exact acts_queueRemote rfl (rcmd_taken (n := atInstant s t) ha hh hd 2 tgt index q)
  · exact acts_same rfl (rcmd_not (n := atInstant s t) hn 1 tgt index q)
  · exact acts_same rfl (rcmd_not (n := atInstant s t) hn 2 tgt index q)
  · rw [rcmdApply_admitted hr hop hack, if_pos hq]
  · rw [rcmdApply_admitted hr hop hack, if_neg hq]
    refine ⟨rfl, ?_⟩
    rw [rseqs_byRemote, rseqs_commandAll]
    exact tget_tset_self none n.net.rseqs src (some q)

/-! The heartbeat and a controller off the bus -/

/-- A single node whose controller 0, with the node layer, is in BUS_OFF. -/
def heartbeatBusOff : Node :=
  { regs := [(at_ 0x40 0x40, 0x20)], cans := [(0, { state := .busOff, mode := 1 })], laneSt := { state := 0 } }

theorem heartbeatBusOff_meets : holder heartbeatBusOff = true ∧
    heartbeatBusOff.frame % framesPerSec heartbeatBusOff = 0 ∧ nodeLayer heartbeatBusOff 0 = true ∧
    canSends (canOf heartbeatBusOff 0) = false ∧ (canOf heartbeatBusOff 0).nodeQ.length < 256 := by decide +kernel

theorem insertMsg_ne_nil (m : NodeMsg) (l : List NodeMsg) : insertMsg m l ≠ [] := by
  cases l with
  | nil => simp [insertMsg]
  | cons x r => simp only [insertMsg]; split <;> simp

@[simp] theorem canOf_settle (n : Node) (c : Nat) : canOf (settle n) c = canOf n c := rfl

/-- In BUS_OFF a message is lost (13 R313): the heartbeat does not wait in the queue. -/
theorem nodeQ_heartbeatSend_busOff : (canOf (heartbeatSend (begin_ heartbeatBusOff 0)) 0).nodeQ = [] := by decide +kernel

/-- Refutes O38: it says that on every controller with the node layer that cannot send at once the heartbeat waits, but in
BUS_OFF it is lost (13 R313). -/
theorem not_nodeMessagesReceivedAndSent : ¬ Obligations.NodeMessagesReceivedAndSent := by
  rintro ⟨-, sent⟩
  obtain ⟨hholder, hframe, hlayer, hsends, hroom⟩ := heartbeatBusOff_meets
  obtain ⟨heartbeat, -⟩ := sent 0 0 { node := heartbeatBusOff }
  obtain ⟨u, hu, -, -, -, waits⟩ := heartbeat hholder hframe
  have hexec : exec (.canHeartbeatSend 0) { node := heartbeatBusOff } = .next (onNode { node := heartbeatBusOff } 0 heartbeatSend) := rfl
  injection hexec.symm.trans hu with hu
  subst hu
  have hqueue := waits (by decide) hlayer (by decide) hsends hroom
  rw [onNode_node, canOf_settle, nodeQ_heartbeatSend_busOff] at hqueue
  exact insertMsg_ne_nil _ _ hqueue.symm

end Sys2Proof.Machine
end

section
/-! PROOF. Ethernet and serial ports: links, requests, counts and stopped streams (14 R335, R340). -/

namespace Sys2Proof.Machine

/-! What leaves the node -/

/-- What an event sent has left once the interrupts have settled. -/
theorem mem_outs_settle {n : Node} {x : Out} (h : x ∈ n.outs) : x ∈ (settle n).outs := List.mem_append_left _ h

/-- The interrupts send messages of vectors alone. -/
theorem mem_outs_of_settle {n : Node} {x : Out} (hx : ∀ v, x ≠ .msix v) (h : x ∈ (settle n).outs) : x ∈ n.outs := by
  rcases List.mem_append.mp h with h | h
  · exact h
  · obtain ⟨v, -, hv⟩ := List.mem_map.mp h
    exact absurd hv.symm (hx v)

/-- What one step of a fold sends has left at its end, where no step takes back what was sent; I holds at every step. -/
theorem foldl_emits {α : Type} {f : Node → α → Node} {I : Node → Prop} {Q : Out → Prop} {e : α} {l : List α}
    (hI : ∀ n x, I n → I (f n x)) (hkeep : ∀ n x y, y ∈ n.outs → y ∈ (f n x).outs)
    (he : ∀ n, I n → ∃ y, y ∈ (f n e).outs ∧ Q y) (hm : e ∈ l) {n : Node} (hn : I n) :
    ∃ y, y ∈ (l.foldl f n).outs ∧ Q y := by
  have kept : ∀ (r : List α) (m : Node) (y : Out), y ∈ m.outs → y ∈ (r.foldl f m).outs := by
    intro r
    induction r with
    | nil => exact fun _ _ h => h
    | cons x r ih => exact fun m y h => ih _ y (hkeep m x y h)
  induction l generalizing n with
  | nil => exact absurd hm List.not_mem_nil
  | cons x r ih =>
    rcases List.mem_cons.mp hm with rfl | hr
    · obtain ⟨y, hy, hq⟩ := he n hn
      exact ⟨y, kept r _ y hy, hq⟩
    · exact ih hr (hI n x hn)

/-! Ports -/

theorem ethOf_modEth_self (n : Node) (p : Nat) (f : EthPort → EthPort) : ethOf (modEth n p f) p = f (ethOf n p) :=
  tget_tmod_self _ _ _ _

theorem ethOf_modEth_ne (n : Node) {p q : Nat} (f : EthPort → EthPort) (h : q ≠ p) : ethOf (modEth n p f) q = ethOf n q :=
  tget_tmod_ne _ _ _ h

theorem serOf_modSer_self (n : Node) (p : Nat) (f : SerPort → SerPort) : serOf (modSer n p f) p = f (serOf n p) :=
  tget_tmod_self _ _ _ _

theorem serOf_modSer_ne (n : Node) {p q : Nat} (f : SerPort → SerPort) (h : q ≠ p) : serOf (modSer n p f) q = serOf n q :=
  tget_tmod_ne _ _ _ h

/-- A port as its link changes. -/
def linked (up : Bool) (speed : Nat) (e : EthPort) : EthPort :=
  { e with link := up, anDone := up, full := up, speed := if up then speed % 4 else 0 }

theorem ethLink_change {n : Node} {p : Nat} {up : Bool} (h : (ethOf n p).link ≠ up) (speed : Nat) :
    ethLink n p up speed = raiseB (modEth n p (linked up speed)) (0x58 + p) (if up then 0 else 1) := if_neg h

theorem ethLink_same {n : Node} {p : Nat} {up : Bool} (h : (ethOf n p).link = up) (speed : Nat) :
    ethLink n p up speed = modEth n p (fun e => if up then { e with speed := speed % 4 } else e) := if_pos h

/-- An event of an ETH port that is one of the four. -/
theorem acts_ethPort {c : Instr} {s : State} {t p : Nat} {f : Node → Node} {P : Node → Node → Prop} (hp : p < 4)
    (hc : exec c s = .next (onNode s t (fun n => if p < 4 then f n else n)))
    (h : P (atInstant s t) (settle (f (atInstant s t)))) : Acts c s t P :=
  acts_of_eq hc (if_pos hp) h

theorem acts_ethLinkChange {t p speed : Nat} {up : Bool} {s : State} (hp : p < 4) (h : (ethOf s.node p).link ≠ up) :
    Acts (.ethLinkChange t p up speed) s t (fun n u =>
      SameButSignals u { n with net := { n.net with eth := u.net.eth }, dueB := n.dueB ++ [(0x58 + p, if up then 0 else 1)] } ∧
      (∀ q, q ≠ p → ethOf u q = ethOf n q) ∧ ethOf u p = linked up speed (ethOf n p)) := by
  refine acts_ethPort (f := fun n => ethLink n p up speed) hp rfl ?_
  dsimp only
  rw [ethLink_change (n := atInstant s t) h]
  exact ⟨rfl, fun q hq => ethOf_modEth_ne _ _ hq, ethOf_modEth_self _ _ _⟩

theorem acts_ethLinkChange_same {t p speed : Nat} {up : Bool} {s : State} (hp : p < 4) (h : (ethOf s.node p).link = up) :
    Acts (.ethLinkChange t p up speed) s t (fun n u =>
      SameButSignals u { n with net := { n.net with eth := u.net.eth } } ∧ (ethOf u p).link = up) := by
  refine acts_ethPort (f := fun n => ethLink n p up speed) hp rfl ?_
  dsimp only
  rw [ethLink_same (n := atInstant s t) h]
  refine ⟨rfl, ?_⟩
  have hlink : ∀ e : EthPort, e.link = up → (if up then { e with speed := speed % 4 } else e : EthPort).link = up := by
    intro e he
    split <;> exact he
  exact (congrArg EthPort.link (ethOf_modEth_self _ _ _)).trans (hlink _ h)

/-- The answer to an ARP or ICMP request for the port's own address. -/
theorem arpIcmp_own {n : Node} {p addr : Nat} (hen : bit (reg n (at_ (0x58 + p) 0x58)) 0 = true)
    (ha : addr = (reg n (at_ (0x58 + p) 0x4C)).toNat) (echo : Bool) :
    arpIcmp n p echo addr = emit n (if echo then .icmp p else .arp p) := by
  refine if_pos ?_
  rw [Bool.and_eq_true, beq_iff_eq]
  exact ⟨hen, ha⟩

theorem arpIcmp_other {n : Node} {p addr : Nat} (h : bit (reg n (at_ (0x58 + p) 0x58)) 0 = false ∨
    addr ≠ (reg n (at_ (0x58 + p) 0x4C)).toNat) (echo : Bool) : arpIcmp n p echo addr = n := by
  refine if_neg ?_
  rw [Bool.and_eq_true, beq_iff_eq]
  rintro ⟨hen, ha⟩
  rcases h with h | h
  · exact Bool.false_ne_true (h.symm.trans hen)
  · exact h ha

theorem acts_arpIcmpRequest {t p addr : Nat} {echo : Bool} {s : State} (hp : p < 4) :
    Acts (.arpIcmpRequest t p echo addr) s t (fun n u => SameButSignals u n ∧
      (bit (reg n (at_ (0x58 + p) 0x58)) 0 = true → addr = (reg n (at_ (0x58 + p) 0x4C)).toNat →
        (if echo then .icmp p else .arp p) ∈ u.outs) ∧
      (bit (reg n (at_ (0x58 + p) 0x58)) 0 = false ∨ addr ≠ (reg n (at_ (0x58 + p) 0x4C)).toNat →
        .icmp p ∉ u.outs ∧ .arp p ∉ u.outs)) := by
  refine acts_ethPort (f := fun n => arpIcmp n p echo addr) hp rfl ?_
  have hnone : (atInstant s t).outs = [] := rfl
  generalize atInstant s t = n at hnone
  refine ⟨?_, fun hen ha => ?_, fun h => ?_⟩
  · unfold arpIcmp
    split <;> rfl
  · rw [arpIcmp_own hen ha]
    exact mem_outs_settle (List.mem_append_right _ (List.mem_singleton.mpr rfl))
  · rw [arpIcmp_other h]
    have hout : ∀ x : Out, (∀ v, x ≠ .msix v) → x ∉ (settle n).outs := fun x hx hm => by
      have hm' := mem_outs_of_settle hx hm
      rw [hnone] at hm'
      exact List.not_mem_nil hm'
    exact ⟨hout _ (fun _ h => by cases h), hout _ (fun _ h => by cases h)⟩

/-! Serial ports (14 R341) -/

theorem serRxLost_due {n : Node} {p a : Nat} (hl : (serOf n p).lastOk = some a) (hd : a + 5000000000 ≤ n.now) :
    serRxLost n p = raiseB (modSer n p (fun e => { e with lastOk := none })) (0x5C + p) 0 := by
  simp only [serRxLost, hl, hd, if_true]
  rfl

theorem serRxLost_early {n : Node} {p a : Nat} (hl : (serOf n p).lastOk = some a) (hd : n.now < a + 5000000000) :
    serRxLost n p = n := by
  simp only [serRxLost, hl, if_neg (Nat.not_le.mpr hd)]

/-! The counters' clears -/

theorem acceptCmd_net (n : Node) (path p off : Nat) (v : Word) : (acceptCmd n path p off v).net = n.net := by
  rw [acceptCmd, touchSession_rest]
  rfl

theorem ethCmdWrite_accept {n : Node} {p : Nat}
    (hj : judge n hostPath (0x58 + p) { state := inStates n 30, level := levelOk n hostPath 1 } = .accept) :
    ethCmdWrite n hostPath p 1 = modEth (accepted n hostPath (0x58 + p) (at_ (0x58 + p) 0x9C) 1 (some true)) p
      (fun e => { e with tx := 0, acn := 0, bad := 0, tr := 0 }) := runCommand_accept hj _

theorem serCmdWrite_accept {n : Node} {p : Nat}
    (hj : judge n hostPath (0x5C + p) { state := inStates n 30, level := levelOk n hostPath 1 } = .accept) :
    serCmdWrite n hostPath p 1 = modSer (accepted n hostPath (0x5C + p) (at_ (0x5C + p) 0x50) 1 (some true)) p
      (fun e => { e with ok := 0, bad := 0, tx := 0 }) := runCommand_accept hj _

theorem accepted_net (n : Node) (path p off : Nat) (v : Word) (r : Option Bool) : (accepted n path p off v r).net = n.net :=
  acceptCmd_net n path p off v

theorem acts_ethCmdClear {t p : Nat} {s : State} (hp : p < 4)
    (hj : judge (atInstant s t) hostPath (0x58 + p) { state := inStates s.node 30, level := levelOk s.node hostPath 1 } = .accept) :
    Acts (.ethCmdClear t p) s t (fun n u =>
      SameButSignals u { accepted n hostPath (0x58 + p) (at_ (0x58 + p) 0x9C) 1 (some true) with
        net := { n.net with eth := u.net.eth } } ∧
      ethOf u p = { ethOf n p with tx := 0, acn := 0, bad := 0, tr := 0 }) := by
  refine acts_ethPort (f := fun n => ethCmdWrite n hostPath p 1) hp rfl ?_
  dsimp only
  rw [ethCmdWrite_accept (n := atInstant s t) hj]
  have hnet := accepted_net (atInstant s t) hostPath (0x58 + p) (at_ (0x58 + p) 0x9C) 1 (some true)
  generalize accepted (atInstant s t) hostPath (0x58 + p) (at_ (0x58 + p) 0x9C) 1 (some true) = m at hnet
  rw [← hnet]
  refine ⟨rfl, (ethOf_modEth_self m p _).trans ?_⟩
  rw [ethOf, hnet]
  rfl

theorem acts_serCmdClear {t p : Nat} {s : State} (hp : p < 2)
    (hj : judge (atInstant s t) hostPath (0x5C + p) { state := inStates s.node 30, level := levelOk s.node hostPath 1 } = .accept) :
    Acts (.serCmdClear t p) s t (fun n u =>
      SameButSignals u { accepted n hostPath (0x5C + p) (at_ (0x5C + p) 0x50) 1 (some true) with
        net := { n.net with ser := u.net.ser } } ∧
      serOf u p = { serOf n p with ok := 0, bad := 0, tx := 0 }) := by
  refine acts_of_eq (f := fun n => if p < 2 then serCmdWrite n hostPath p 1 else n) rfl
    ((if_pos hp).trans (serCmdWrite_accept (n := atInstant s t) hj)) ?_
  have hnet := accepted_net (atInstant s t) hostPath (0x5C + p) (at_ (0x5C + p) 0x50) 1 (some true)
  generalize accepted (atInstant s t) hostPath (0x5C + p) (at_ (0x5C + p) 0x50) 1 (some true) = m at hnet
  rw [← hnet]
  refine ⟨rfl, (serOf_modSer_self m p _).trans ?_⟩
  rw [serOf, hnet]
  rfl

/-! Stopped streams (R340) -/

/-- m differs from n in the ETH ports and what left it. -/
def OnlyEth (n m : Node) : Prop := m = { n with net := { n.net with eth := m.net.eth }, outs := m.outs }

theorem OnlyEth.refl (n : Node) : OnlyEth n n := rfl

theorem OnlyEth.trans {a b c : Node} (h : OnlyEth a b) (k : OnlyEth b c) : OnlyEth a c := by
  unfold OnlyEth at *
  rw [h] at k
  exact k

theorem onlyEth_sendTrend (n : Node) (p s : Nat) (m : TrendMsg) : OnlyEth n (sendTrend n p s m) := rfl

/-- STOPPED of one stream. -/
def sendStopped (n : Node) (e : Nat × Nat) : Node :=
  sendTrend n e.1 e.2 { decimated := false, stopped := true, gap := false, node := msgAddr n, stream := 2 * e.1 + e.2,
                        frame := n.frame, s := n.sampleT, f := n.period,
                        first := fld (ethReg n e.1 (0x78 + 16 * e.2)) 8 0, entries := [] }

theorem dueAgain_of {n : Node} {last : Option Nat} {d : Nat} (h : ∀ a, last = some a → a + d ≤ n.now) :
    dueAgain n last d = true := by
  cases last with
  | none => rfl
  | some a => exact decide_eq_true (h a rfl)

theorem dueAgain_not {n : Node} {last : Option Nat} {d : Nat} (h : ∃ a, last = some a ∧ n.now < a + d) :
    dueAgain n last d = false := by
  obtain ⟨a, rfl, ha⟩ := h
  exact decide_eq_false (Nat.not_le.mpr ha)

theorem trendStopped_of {n : Node} (hr : n.mgt.state = .run) (hs : 2 ≤ n.mgt.shed)
    (ha : ∀ a, n.net.stopAt = some a → a + 1000000000 ≤ n.now) : trendStopped n =
      (trendStreams n).foldl sendStopped { n with net := { n.net with stopAt := some n.now } } := by
  have hrun : mpRun n = true := decide_eq_true hr
  unfold trendStopped
  rw [if_pos (by simp only [hrun, hs, dueAgain_of ha, decide_true, Bool.and_self])]
  rfl

theorem trendStopped_not {n : Node} (h : n.mgt.state ≠ .run ∨ n.mgt.shed < 2 ∨
    ∃ a, n.net.stopAt = some a ∧ n.now < a + 1000000000) : trendStopped n = n := by
  unfold trendStopped
  refine if_neg ?_
  rcases h with h | h | h
  · have hrun : mpRun n = false := decide_eq_false h
    simp [hrun]
  · simp [Nat.not_le.mpr h]
  · simp [dueAgain_not h]

theorem mem_trendStreams {n : Node} {p st : Nat} (hp : p < 4) (hst : st < 2) (ht : trendOn n p st = true) :
    (p, st) ∈ trendStreams n := by
  refine List.mem_filter.mpr ⟨List.mem_flatMap.mpr ⟨p, List.mem_range.mpr hp, ?_⟩, ht⟩
  interval_cases st <;> simp

/-- STOPPED leaves on each stream that runs. -/
theorem stopped_mem_outs {n : Node} {e : Nat × Nat} {l : List (Nat × Nat)} (he : e ∈ l) :
    ∃ d g m, .trend e.1 d g m ∈ (l.foldl sendStopped n).outs ∧ m.stopped = true ∧ m.entries = [] ∧ m.stream = 2 * e.1 + e.2 := by
  obtain ⟨y, hy, d, g, m, rfl, hm⟩ := foldl_emits (f := sendStopped) (I := fun _ => True)
    (Q := fun y => ∃ d g m, y = .trend e.1 d g m ∧ m.stopped = true ∧ m.entries = [] ∧ m.stream = 2 * e.1 + e.2)
    (fun _ _ h => h) (fun _ _ _ h => List.mem_append_left _ h)
    (fun _ _ => ⟨_, List.mem_append_right _ (List.mem_singleton.mpr rfl), _, _, _, rfl, rfl, rfl, rfl⟩) he (n := n) trivial
  exact ⟨d, g, m, hy, hm⟩

theorem acts_trendStoppedSend {t p : Nat} {s : State} (hp : p < 4) (hr : s.node.mgt.state = .run) (hs : 2 ≤ s.node.mgt.shed)
    (ha : ∀ a, s.node.net.stopAt = some a → a + 1000000000 ≤ max s.node.now t) : Acts (.trendStoppedSend t) s t (fun n u =>
      SameButSignals u { n with net := { n.net with eth := u.net.eth, stopAt := some n.now } } ∧
      (∀ st, st < 2 → trendOn n p st = true → ∃ d g m, .trend p d g m ∈ u.outs ∧ m.stopped = true ∧ m.entries = [] ∧
        m.stream = 2 * p + st)) := by
  refine acts_leaves (f := trendStopped) rfl fun u hu => ?_
  rw [trendStopped_of (n := atInstant s t) hr hs ha] at hu
  generalize atInstant s t = n at hu ⊢
  have honly : OnlyEth { n with net := { n.net with stopAt := some n.now } } u := by
    rw [hu]
    exact foldl_rel OnlyEth.refl OnlyEth.trans (fun m _ => onlyEth_sendTrend m _ _ _) _ _
  refine ⟨?_, fun st hst ht => ?_⟩
  · rw [OnlyEth] at honly
    rw [honly]
    rfl
  · obtain ⟨d, g, m, hm, hrest⟩ := stopped_mem_outs (n := { n with net := { n.net with stopAt := some n.now } })
      (mem_trendStreams hp hst ht)
    rw [← hu] at hm
    exact ⟨d, g, m, mem_outs_settle hm, hrest⟩

/-- Settles O40. -/
theorem portsOfTheNode : Obligations.PortsOfTheNode := by
  intro t p speed addr up echo s hp
  refine ⟨fun h => acts_ethLinkChange hp h, fun h => acts_ethLinkChange_same hp h, acts_arpIcmpRequest hp,
    fun a h2 hl => ⟨fun hd => ?_, fun hd => ?_⟩, fun hj => acts_ethCmdClear hp hj, fun h2 hj => acts_serCmdClear h2 hj,
    fun hr hs ha => acts_trendStoppedSend hp hr hs ha, fun h => ?_⟩
  · refine acts_of_eq (f := fun n => if p < 2 then serRxLost n p else n) rfl
      ((if_pos h2).trans (serRxLost_due (n := atInstant s t) hl hd)) ⟨rfl, ?_⟩
    exact serOf_modSer_self _ p (fun e => { e with lastOk := none })
  · exact acts_same (f := fun n => if p < 2 then serRxLost n p else n) rfl
      ((if_pos h2).trans (serRxLost_early (n := atInstant s t) hl hd))
  · exact acts_same rfl (trendStopped_not (n := atInstant s t) h)

end Sys2Proof.Machine
end

section
/-! PROOF. The bridge link, the sentences the formatter sends, and the bridge's commands (09 R209, 14 R337, R338). -/

namespace Sys2Proof.Machine

/-! What sending leaves -/

/-- m differs from n in its ports, the line count and what left it; nothing that had left is taken back. -/
structure Sends (n m : Node) : Prop where
  rest : m = { n with net := { n.net with eth := m.net.eth, ser := m.net.ser, line := m.net.line }, outs := m.outs }
  outs : ∀ y, y ∈ n.outs → y ∈ m.outs

theorem Sends.refl (n : Node) : Sends n n := ⟨rfl, fun _ h => h⟩

theorem Sends.trans {a b c : Node} (h : Sends a b) (k : Sends b c) : Sends a c := by
  obtain ⟨hr, ho⟩ := h
  obtain ⟨kr, ko⟩ := k
  refine ⟨?_, fun y hy => ko y (ho y hy)⟩
  rw [hr] at kr
  exact kr

theorem sends_modEth (n : Node) (p : Nat) (f : EthPort → EthPort) : Sends n (modEth n p f) := ⟨rfl, fun _ h => h⟩

theorem sends_modSer (n : Node) (p : Nat) (f : SerPort → SerPort) : Sends n (modSer n p f) := ⟨rfl, fun _ h => h⟩

theorem sends_sendEth (n : Node) (p : Nat) (m : Sentence) : Sends n (sendEth n p m) :=
  ⟨rfl, fun _ h => List.mem_append_left _ h⟩

theorem sends_sendSer (n : Node) (p : Nat) (m : Sentence) : Sends n (sendSer n p m) :=
  ⟨rfl, fun _ h => List.mem_append_left _ h⟩

theorem sends_foldl {α : Type} {f : Node → α → Node} (hf : ∀ n x, Sends n (f n x)) (l : List α) (n : Node) :
    Sends n (l.foldl f n) := foldl_rel Sends.refl Sends.trans hf l n

theorem sends_queueAlf (n : Node) (a : Alert) : Sends n (queueAlf n a) :=
  (sends_foldl (fun n p => sends_modEth n p _) _ n).trans (sends_foldl (fun n p => sends_modSer n p _) _ _)

theorem sends_sendAll (n : Node) (m : Sentence) : Sends n (sendAll n m) :=
  (sends_foldl (fun n p => sends_sendEth n p m) _ n).trans (sends_foldl (fun n p => sends_sendSer n p m) _ _)

theorem sends_drainEth (n : Node) (p : Nat) : Sends n (drainEth n p) :=
  (sends_modEth n p _).trans (sends_foldl (fun n a => sends_sendEth n p (alfOf n a)) _ _)

theorem sends_drainSer (n : Node) (p : Nat) : Sends n (drainSer n p) :=
  (sends_modSer n p _).trans (sends_foldl (fun n a => sends_sendSer n p (alfOf n a)) _ _)

theorem Sends.regs {n m : Node} (h : Sends n m) : m.regs = n.regs := by
  have k := congrArg Node.regs h.rest
  exact k

theorem Sends.alfOf {n m : Node} (h : Sends n m) (a : Alert) : Machine.alfOf m a = Machine.alfOf n a := by
  rw [h.rest]
  cases a <;> rfl

theorem Sends.remote {n m : Node} (h : Sends n m) : m.net.remote = n.net.remote := by
  rw [h.rest]

theorem reg_of_regs {n m : Node} (h : m.regs = n.regs) (k : Nat) : reg m k = reg n k := by
  rw [reg, h]
  rfl

theorem serActive_of_regs {n m : Node} (h : m.regs = n.regs) : serActive m = serActive n := by
  simp only [serActive, callReg, serCfg, reg_of_regs h]

theorem ethActive_of_regs {n m : Node} (h : m.regs = n.regs) : ethActive m = ethActive n := by
  simp only [ethActive, callReg, ethSvc, ethReg, reg_of_regs h]

theorem OnlyNet.signals {n m : Node} (h : OnlyNet n m) : SameButSignals (settle m) { n with net := (settle m).net } := by
  rw [OnlyNet] at h
  rw [h]
  rfl

theorem Sends.signals {n m : Node} (h : Sends n m) : SameButSignals (settle m) { n with net := (settle m).net } := by
  rw [h.rest]
  rfl

/-! One sentence on every port -/

/-- Of a list without a repetition each key has its step once: what the steps of the other keys leave changes by the key's
own step alone. -/
theorem foldl_once {α : Type} {f : Node → Nat → Node} {g : Node → α} {h : α → α} {p : Nat}
    (self : ∀ k, g (f k p) = h (g k)) (other : ∀ k q, p ≠ q → g (f k q) = g k) {l : List Nat} (hl : l.Nodup) (n : Node) :
    g (l.foldl f n) = if p ∈ l then h (g n) else g n := by
  induction l generalizing n with
  | nil => rfl
  | cons q r ih =>
    obtain ⟨hq, hr⟩ := List.nodup_cons.mp hl
    rw [List.foldl_cons, ih hr]
    by_cases hp : p = q
    · subst hp
      rw [if_neg hq, if_pos List.mem_cons_self, self]
    · rw [other n q hp]
      simp only [List.mem_cons, hp, false_or]

theorem tx_sendEth (m : Sentence) (n : Node) (p : Nat) : (ethOf (sendEth n p m) p).tx = (ethOf n p).tx + 1 :=
  congrArg EthPort.tx (ethOf_modEth_self { n with net := { n.net with line := _ } } p (fun e => { e with tx := e.tx + 1 }))

theorem ethOf_sendEth_ne (m : Sentence) (n : Node) {p q : Nat} (h : p ≠ q) : ethOf (sendEth n q m) p = ethOf n p :=
  ethOf_modEth_ne { n with net := { n.net with line := _ } } (fun e => { e with tx := e.tx + 1 }) h

theorem serOf_sendSer_self (m : Sentence) (n : Node) (p : Nat) :
    serOf (sendSer n p m) p = { serOf n p with tx := (serOf n p).tx + 1 } :=
  serOf_modSer_self n p (fun e => { e with tx := e.tx + 1 })

theorem serOf_sendSer_ne (m : Sentence) (n : Node) {p q : Nat} (h : p ≠ q) : serOf (sendSer n q m) p = serOf n p :=
  serOf_modSer_ne n (fun e => { e with tx := e.tx + 1 }) h

theorem ethOf_foldl_sendSer (l : List Nat) (m : Sentence) (n : Node) (p : Nat) :
    ethOf (l.foldl (fun n p => sendSer n p m) n) p = ethOf n p :=
  foldl_same (g := fun k => ethOf k p) (f := fun n p => sendSer n p m) (fun _ _ => rfl) l n

theorem serOf_foldl_sendEth (l : List Nat) (m : Sentence) (n : Node) (p : Nat) :
    serOf (l.foldl (fun n p => sendEth n p m) n) p = serOf n p :=
  foldl_same (g := fun k => serOf k p) (f := fun n p => sendEth n p m) (fun _ _ => rfl) l n

theorem tx_foldl_sendEth {p : Nat} {l : List Nat} (hl : l.Nodup) (hp : p ∈ l) (m : Sentence) (n : Node) :
    (ethOf (l.foldl (fun n p => sendEth n p m) n) p).tx = (ethOf n p).tx + 1 := by
  have honce := foldl_once (f := fun n p => sendEth n p m) (g := fun k => (ethOf k p).tx) (h := fun x => x + 1)
    (fun k => tx_sendEth m k p) (fun k _ hq => congrArg EthPort.tx (ethOf_sendEth_ne m k hq)) hl n
  rwa [if_pos hp] at honce

theorem tx_foldl_sendSer {p : Nat} {l : List Nat} (hl : l.Nodup) (hp : p ∈ l) (m : Sentence) (n : Node) :
    (serOf (l.foldl (fun n p => sendSer n p m) n) p).tx = (serOf n p).tx + 1 := by
  have honce := foldl_once (f := fun n p => sendSer n p m) (g := fun k => (serOf k p).tx) (h := fun x => x + 1)
    (fun k => congrArg SerPort.tx (serOf_sendSer_self m k p)) (fun k _ hq => congrArg SerPort.tx (serOf_sendSer_ne m k hq)) hl n
  rwa [if_pos hp] at honce

/-- A sentence sent on every port of the formatter leaves once on each. -/
structure SentAll (n u : Node) (m : Sentence) : Prop where
  sends : Sends n u
  eth : ∀ p, p ∈ ethActive n → (ethOf u p).tx = (ethOf n p).tx + 1 ∧
    ∃ l, .eth p (ethReg n p 0x60) (fld (ethReg n p 0x64) 15 0) (ethReg n p 0x5C) l m ∈ u.outs
  ser : ∀ p, p ∈ serActive n → (serOf u p).tx = (serOf n p).tx + 1 ∧ .ser p (fld (serCfg n p) 23 8) m ∈ u.outs

theorem ethActive_nodup (n : Node) : (ethActive n).Nodup := List.nodup_range.filter _

theorem serActive_nodup (n : Node) : (serActive n).Nodup := List.nodup_range.filter _

/-- What one ETH port sends, by the registers. -/
theorem mem_outs_sendEth {n k : Node} (hk : k.regs = n.regs) (p : Nat) (m : Sentence) :
    .eth p (ethReg n p 0x60) (fld (ethReg n p 0x64) 15 0) (ethReg n p 0x5C) k.net.line m ∈ (sendEth k p m).outs := by
  have hreg : ∀ o, ethReg n p o = ethReg k p o := fun o => (reg_of_regs hk _).symm
  rw [hreg, hreg, hreg]
  exact List.mem_append_right _ (List.mem_singleton.mpr rfl)

theorem mem_outs_sendSer {n k : Node} (hk : k.regs = n.regs) (p : Nat) (m : Sentence) :
    .ser p (fld (serCfg n p) 23 8) m ∈ (sendSer k p m).outs := by
  have hreg : serCfg n p = serCfg k p := (reg_of_regs hk _).symm
  rw [hreg]
  exact List.mem_append_right _ (List.mem_singleton.mpr rfl)

theorem sentAll_sendAll (n : Node) (m : Sentence) : SentAll n (sendAll n m) m := by
  have heth := sends_foldl (fun n p => sends_sendEth n p m) (ethActive n) n
  have hser := sends_foldl (fun n p => sends_sendSer n p m) (serActive n) ((ethActive n).foldl (fun n p => sendEth n p m) n)
  have hserOn : serActive ((ethActive n).foldl (fun n p => sendEth n p m) n) = serActive n := serActive_of_regs heth.regs
  have hall : sendAll n m = (serActive n).foldl (fun n p => sendSer n p m) ((ethActive n).foldl (fun n p => sendEth n p m) n) := rfl
  rw [hall]
  refine ⟨heth.trans hser, fun p hp => ⟨?_, ?_⟩, fun p hp => ⟨?_, ?_⟩⟩
  · rw [ethOf_foldl_sendSer]
    exact tx_foldl_sendEth (ethActive_nodup n) hp m n
  · obtain ⟨y, hy, l, rfl⟩ := foldl_emits (f := fun n p => sendEth n p m) (I := fun k => k.regs = n.regs)
      (Q := fun y => ∃ l, y = .eth p (ethReg n p 0x60) (fld (ethReg n p 0x64) 15 0) (ethReg n p 0x5C) l m)
      (fun k _ hk => hk) (fun _ _ _ h => List.mem_append_left _ h)
      (fun k hk => ⟨_, mem_outs_sendEth hk p m, k.net.line, rfl⟩) hp (n := n) rfl
    exact ⟨l, hser.outs _ hy⟩
  · rw [tx_foldl_sendSer (serActive_nodup n) hp, serOf_foldl_sendEth]
  · obtain ⟨y, hy, rfl⟩ := foldl_emits (f := fun n p => sendSer n p m) (I := fun k => k.regs = n.regs)
      (Q := fun y => y = .ser p (fld (serCfg n p) 23 8) m)
      (fun k _ hk => hk) (fun _ _ _ h => List.mem_append_left _ h)
      (fun k hk => ⟨_, mem_outs_sendSer hk p m, rfl⟩) hp
      (n := (ethActive n).foldl (fun n p => sendEth n p m) n) heth.regs
    exact hy

end Sys2Proof.Machine
end

section
/-! PROOF. What the formatter sends of itself, and what the bridge's sentences do (09 R209, 14 R336 to R338). -/

namespace Sys2Proof.Machine

/-! Sentences of the formatter (R337) -/

theorem hbtSend_of {n : Node} (hh : holder n = true) (hd : ∀ a, n.net.hbtAt = some a → a + 10000000000 ≤ n.now) :
    hbtSend n = sendAll { n with net := { n.net with hbtAt := some n.now } }
      (.hbt (if n.laneSt.state = 0 ∨ n.laneSt.state = 1 then 'A' else 'V')) := by
  unfold hbtSend
  rw [if_pos (by rw [hh, dueAgain_of hd]; rfl)]
  congr 2
  simp only [lanesTmr, lanesDual, Bool.or_eq_true, beq_iff_eq]

theorem hbtSend_not {n : Node} (h : holder n = false ∨ ∃ a, n.net.hbtAt = some a ∧ n.now < a + 10000000000) : hbtSend n = n := by
  unfold hbtSend
  refine if_neg ?_
  rcases h with h | h
  · simp [h]
  · simp [dueAgain_not h]

/-- The alerts of the list, as ALC names them. -/
def alcEntries (n : Node) : List (Nat × Nat × Char) :=
  (present n).map (fun a => (alertIdent a, msgAddr n + 1, stateLetter (shownOf n a).state))

theorem alcSend_of {n : Node} (hh : holder n = true) (hd : ∀ a, n.net.alcAt = some a → a + 30000000000 ≤ n.now) :
    alcSend n = (chunk4 (alcEntries n).length (alcEntries n)).foldl (fun n c => sendAll n (.alc c))
      { n with net := { n.net with alcAt := some n.now } } := by
  unfold alcSend
  rw [if_pos (by rw [hh, dueAgain_of hd]; rfl)]
  rfl

theorem alcSend_not {n : Node} (h : holder n = false ∨ ∃ a, n.net.alcAt = some a ∧ n.now < a + 30000000000) : alcSend n = n := by
  unfold alcSend
  refine if_neg ?_
  rcases h with h | h
  · simp [h]
  · simp [dueAgain_not h]

/-- A list of one to four alerts goes in one sentence. -/
theorem chunk4_short {α : Type} {l : List α} (h0 : l ≠ []) (h4 : l.length ≤ 4) : chunk4 l.length l = [l] := by
  match l, h0 with
  | [], h0 => exact absurd rfl h0
  | x :: r, _ =>
    have hdrop : (x :: r).drop 4 = [] := List.drop_eq_nil_of_le h4
    have hrest : ∀ k, chunk4 k ([] : List α) = [] := fun k => by cases k <;> rfl
    simp only [List.length_cons, chunk4, List.take_of_length_le h4, hdrop, hrest]

theorem alfRepeat_of {n : Node} (hh : holder n = true) (hd : ∀ a, n.net.alfAt = some a → a + 60000000000 ≤ n.now) :
    alfRepeat n = drain ((present n).foldl queueAlf { n with net := { n.net with alfAt := some n.now } }) := by
  unfold alfRepeat
  rw [if_pos (by rw [hh, dueAgain_of hd]; rfl)]

theorem alfRepeat_not {n : Node} (h : holder n = false ∨ ∃ a, n.net.alfAt = some a ∧ n.now < a + 60000000000) :
    alfRepeat n = n := by
  unfold alfRepeat
  refine if_neg ?_
  rcases h with h | h
  · simp [h]
  · simp [dueAgain_not h]

/-! The queues of the ports -/

theorem mem_enqueue_self (a : Alert) (q : List Alert) : a ∈ enqueue a q := by
  unfold enqueue
  split
  · rename_i h; exact List.contains_iff_mem.mp h
  · exact List.mem_append_right _ (List.mem_singleton.mpr rfl)

theorem mem_enqueue_of_mem {a b : Alert} {q : List Alert} (h : b ∈ q) : b ∈ enqueue a q := by
  unfold enqueue
  split
  · exact h
  · exact List.mem_append_left _ h

theorem serOf_foldl_modEth (l : List Nat) (f : EthPort → EthPort) (n : Node) (p : Nat) :
    serOf (l.foldl (fun n p => modEth n p f) n) p = serOf n p :=
  foldl_same (g := fun k => serOf k p) (f := fun n p => modEth n p f) (fun _ _ => rfl) l n

/-- The queue of a SER port after an alert has been queued. -/
theorem queue_queueAlf (n : Node) (a : Alert) (p : Nat) :
    (serOf (queueAlf n a) p).queue = if p ∈ serActive n then enqueue a (serOf n p).queue else (serOf n p).queue := by
  have hregs := (sends_foldl (fun n p => sends_modEth n p (fun e => { e with queue := enqueue a e.queue })) (ethActive n) n).regs
  have hon := serActive_of_regs hregs
  have honce := foldl_once (f := fun n p => modSer n p (fun e => { e with queue := enqueue a e.queue }))
    (g := fun k => (serOf k p).queue) (h := enqueue a)
    (fun k => congrArg SerPort.queue (serOf_modSer_self k p _)) (fun k _ hq => congrArg SerPort.queue (serOf_modSer_ne k _ hq))
    (serActive_nodup ((ethActive n).foldl (fun n p => modEth n p (fun e => { e with queue := enqueue a e.queue })) n))
    ((ethActive n).foldl (fun n p => modEth n p (fun e => { e with queue := enqueue a e.queue })) n)
  rw [hon, serOf_foldl_modEth] at honce
  refine Eq.trans ?_ honce
  rw [← hon]
  rfl

/-- Every alert queued waits on every SER port of the formatter. -/
theorem mem_queue_foldl_queueAlf {a : Alert} {l : List Alert} {n : Node} {p : Nat} (hp : p ∈ serActive n)
    (h : a ∈ l ∨ a ∈ (serOf n p).queue) : a ∈ (serOf (l.foldl queueAlf n) p).queue := by
  induction l generalizing n with
  | nil => exact h.resolve_left List.not_mem_nil
  | cons b r ih =>
    have hp' : p ∈ serActive (queueAlf n b) := by rw [serActive_of_regs (sends_queueAlf n b).regs]; exact hp
    refine ih hp' ?_
    rw [queue_queueAlf, if_pos hp]
    rcases h with h | h
    · rcases List.mem_cons.mp h with rfl | h
      · exact .inr (mem_enqueue_self _ _)
      · exact .inl h
    · exact .inr (mem_enqueue_of_mem h)

/-! Everything due is sent -/

theorem serOf_drainEth (n : Node) (q p : Nat) : serOf (drainEth n q) p = serOf n p :=
  foldl_same (g := fun k => serOf k p) (f := fun n a => sendEth n q (alfOf n a)) (fun _ _ => rfl) _ _

theorem queue_sendSer (m : Sentence) (n : Node) (q p : Nat) : (serOf (sendSer n q m) p).queue = (serOf n p).queue := by
  by_cases h : p = q
  · subst h
    rw [serOf_sendSer_self]
  · rw [serOf_sendSer_ne m n h]

theorem queue_drainSer_self (n : Node) (p : Nat) : (serOf (drainSer n p) p).queue = [] := by
  refine (foldl_same (g := fun k => (serOf k p).queue) (f := fun n a => sendSer n p (alfOf n a))
    (fun k a => queue_sendSer _ k p p) _ _).trans ?_
  exact congrArg SerPort.queue (serOf_modSer_self n p (fun e => { e with queue := [] }))

theorem queue_drainSer_ne (n : Node) {q p : Nat} (h : p ≠ q) : (serOf (drainSer n q) p).queue = (serOf n p).queue := by
  refine (foldl_same (g := fun k => (serOf k p).queue) (f := fun n a => sendSer n q (alfOf n a))
    (fun k a => queue_sendSer _ k q p) _ _).trans ?_
  exact congrArg SerPort.queue (serOf_modSer_ne n (fun e => { e with queue := [] }) h)

/-- A port's turn sends each alert of its queue. -/
theorem mem_outs_drainSer {n k : Node} {p : Nat} {a : Alert} (hk : Sends n k) (ha : a ∈ (serOf k p).queue) :
    .ser p (fld (serCfg n p) 23 8) (alfOf n a) ∈ (drainSer k p).outs := by
  have hk' : Sends n (modSer k p (fun e => { e with queue := [] })) := hk.trans (sends_modSer k p _)
  obtain ⟨y, hy, rfl⟩ := foldl_emits (f := fun n a => sendSer n p (alfOf n a)) (I := fun k => Sends n k)
    (Q := fun y => y = .ser p (fld (serCfg n p) 23 8) (alfOf n a))
    (fun m _ hm => hm.trans (sends_sendSer m p _)) (fun _ _ _ h => List.mem_append_left _ h)
    (fun m hm => ⟨_, mem_outs_sendSer hm.regs p _, by rw [hm.alfOf]⟩) ha hk'
  exact hy

/-- What a drain leaves before it strikes the alerts that are presented no more. -/
def drained (n : Node) : Node := (serActive n).foldl drainSer ((ethActive n).foldl drainEth n)

theorem sends_drained (n : Node) : Sends n (drained n) :=
  (sends_foldl sends_drainEth _ n).trans (sends_foldl sends_drainSer _ _)

theorem queue_drained {n : Node} {p : Nat} (hp : p ∈ serActive n) : (serOf (drained n) p).queue = [] := by
  have honce := foldl_once (f := drainSer) (g := fun k => (serOf k p).queue) (h := fun _ => [])
    (fun k => queue_drainSer_self k p) (fun k _ hq => queue_drainSer_ne k hq) (serActive_nodup n)
    ((ethActive n).foldl drainEth n)
  rwa [if_pos hp] at honce

/-- On every SER port of the formatter each alert of its queue is sent. -/
theorem mem_outs_drained {n : Node} {p : Nat} {a : Alert} (hp : p ∈ serActive n) (ha : a ∈ (serOf n p).queue) :
    .ser p (fld (serCfg n p) 23 8) (alfOf n a) ∈ (drained n).outs := by
  have heth := sends_foldl sends_drainEth (ethActive n) n
  have hqueue : serOf ((ethActive n).foldl drainEth n) p = serOf n p :=
    foldl_same (g := fun k => serOf k p) (f := drainEth) (fun k q => serOf_drainEth k q p) _ n
  have kept : ∀ (l : List Nat), p ∈ l → ∀ (k : Node), Sends n k → a ∈ (serOf k p).queue →
      .ser p (fld (serCfg n p) 23 8) (alfOf n a) ∈ (l.foldl drainSer k).outs := by
    intro l
    induction l with
    | nil => exact fun h => absurd h List.not_mem_nil
    | cons q r ih =>
      intro hm k hk hka
      by_cases hpq : p = q
      · subst hpq
        exact (sends_foldl sends_drainSer r _).outs _ (mem_outs_drainSer hk hka)
      · refine ih ((List.mem_cons.mp hm).resolve_left hpq) _ (hk.trans (sends_drainSer k q)) ?_
        rw [queue_drainSer_ne k hpq]
        exact hka
  exact kept _ hp _ heth (by rw [hqueue]; exact ha)

/-- A drain, by what it sends. -/
theorem drain_eq (n : Node) : ∃ x, drain n = { drained n with net := { (drained n).net with presented := x } } := ⟨_, rfl⟩

/-! Sentences received (R336, R338) -/

theorem received_not {n : Node} {rx : RxHead} (h : rxTaken n rx = false) (f : Node → Node) : received n rx f = n := by
  unfold received
  exact if_neg (by simp [h])

theorem received_counted {n : Node} {rx : RxHead} (ht : rxTaken n rx = true) (h : rxGood n rx = false ∨ holder n = false)
    (f : Node → Node) : received n rx f = rxCount n rx := by
  have hc : (rxGood n rx && holder n) = false := by rcases h with h | h <;> simp [h]
  simp only [received, ht, hc, if_true, Bool.false_eq_true, if_false]

theorem received_of {n : Node} {rx : RxHead} (ht : rxTaken n rx = true) (hg : rxGood n rx = true) (hh : holder n = true)
    (f : Node → Node) : received n rx f = f (rxCount n rx) := by
  simp only [received, ht, hg, hh, Bool.and_self, if_true]

/-- A good sentence on an ETH port is not counted. -/
theorem rxCount_eth {n : Node} {rx : RxHead} {p : Nat} (hp : rx.port = .eth p) (hg : rxGood n rx = true) : rxCount n rx = n := by
  simp only [rxCount, hp, hg, if_true]

/-- A good sentence as a SER port counts it. -/
def serGood (now : Nat) (e : SerPort) : SerPort := { e with ok := sat 65535 (e.ok + 1), lastOk := some now }

theorem rxCount_ser {n : Node} {rx : RxHead} {p : Nat} (hp : rx.port = .ser p) (hg : rxGood n rx = true) :
    rxCount n rx = modSer n p (serGood n.now) := by
  simp only [rxCount, hp, hg, if_true]
  rfl

/-- A sentence counted leaves all but the ports and their pages. -/
theorem rxCount_rest (n : Node) (rx : RxHead) : rxCount n rx = { n with
    headers := (rxCount n rx).headers,
    net := { n.net with eth := (rxCount n rx).net.eth, ser := (rxCount n rx).net.ser } } := by
  unfold rxCount
  cases rx.port <;> dsimp only <;> split <;> rfl

/-- What a bridge heartbeat does where it is good and the holder receives it. -/
structure HbtTaken (n u : Node) : Prop where
  call : u.call = { n.call with lastHbt := some n.now, brLost := false }
  regs : u.regs = n.regs
  points : u.points = n.points
  resumed : n.call.brLost = true → u.net.resend = true ∧ (7, 4) ∈ u.dueR
  stood : n.call.brLost = false → u.dueR = n.dueR

theorem hbtTaken_bridgeHbt (n : Node) : HbtTaken n (bridgeHbt n) := by
  cases hb : n.call.brLost with
  | true =>
    refine ⟨?_, ?_, ?_, fun _ => ⟨?_, ?_⟩, fun h => absurd (hb.symm.trans h) (by simp)⟩
    all_goals simp only [bridgeHbt, hb, if_true, raiseR_call, raiseR_regs, raiseR_points, raiseR_net, raiseR_dueR, note_call,
      note_regs, note_points, note_net, note_dueR, modCall]
    exact List.mem_append_right _ (List.mem_singleton.mpr rfl)
  | false =>
    have heq : bridgeHbt n = modCall n (fun c => { c with lastHbt := some n.now, brLost := false }) := by
      simp only [bridgeHbt, hb, Bool.false_eq_true, if_false]
    rw [heq]
    exact ⟨rfl, rfl, rfl, fun h => absurd (hb.symm.trans h) (by simp), fun _ => rfl⟩

/-! The bridge's commands (R338) -/

/-- What a command of the bridge does, once it is received well by the holder. -/
def acnTake (n : Node) (rx : RxHead) (c : Char) (ident inst : Nat) : Node :=
  if inst ≠ msgAddr n + 1 then n
  else
    match (alertOf ident).filter (fun a => (shownOf n a).state != 0) with
    | none => sendArc n rx c ident inst
    | some a =>
      match acnCode c with
      | some letter =>
        if letter = 0 ∧ !alertB n a then sendArc n rx c ident inst
        else queueRemote (countAcn n rx) (rxOrder rx) (.acn letter a)
      | none => if c = 'Q' then drain (queueAlf (countAcn n rx) a) else sendArc n rx c ident inst

theorem acn_eq (n : Node) (rx : RxHead) (c : Char) (ident inst : Nat) :
    acn n rx c ident inst = received n rx (fun n => acnTake n rx c ident inst) := rfl

/-- The letter of a command. -/
def acnChar (letter : Nat) : Char := match letter with | 0 => 'A' | 1 => 'S' | 2 => 'O' | _ => 'Q'

theorem acnCode_acnChar {letter : Nat} (h : letter < 4) :
    acnCode (acnChar letter) = if letter < 3 then some letter else none := by
  interval_cases letter <;> rfl

theorem exec_acnOf {letter : Nat} (h : letter < 4) (t ident inst : Nat) (rx : RxHead) (s : State) :
    exec (acnOf t letter rx ident inst) s = .next (onNode s t (fun n => acn n rx (acnChar letter) ident inst)) := by
  interval_cases letter <;> rfl

theorem acnTake_other {n : Node} {inst : Nat} (h : inst ≠ msgAddr n + 1) (rx : RxHead) (c : Char) (ident : Nat) :
    acnTake n rx c ident inst = n := if_pos h

/-- An alert that an identifier names and that is presented. -/
theorem filter_presented {n : Node} {ident : Nat} {a : Alert} (h : alertOf ident = some a) (hs : (shownOf n a).state ≠ 0) :
    (alertOf ident).filter (fun a => (shownOf n a).state != 0) = some a := by
  rw [h, Option.filter_some, if_pos (by simpa using hs)]

/-- No alert, one not presented, or an acknowledgement that the bridge may not give. -/
theorem acnTake_refused {n : Node} {ident letter : Nat} (hl : letter < 4)
    (h : ∀ a, alertOf ident = some a → (shownOf n a).state = 0 ∨ (letter = 0 ∧ alertB n a = false)) (rx : RxHead) :
    acnTake n rx (acnChar letter) ident (msgAddr n + 1) = sendArc n rx (acnChar letter) ident (msgAddr n + 1) := by
  unfold acnTake
  rw [if_neg (by simp)]
  cases hf : (alertOf ident).filter (fun a => (shownOf n a).state != 0) with
  | none => rfl
  | some a =>
    obtain ⟨ha, hs⟩ := Option.filter_eq_some_iff.mp hf
    obtain ⟨rfl, hb⟩ := (h a ha).resolve_left (by simpa using hs)
    have hc : acnCode (acnChar 0) = some 0 := rfl
    simp only [hc, hb, Bool.not_false, and_self, if_true]

/-- A letter that is none of the four. -/
theorem acnTake_unknown {c : Char} (hc : c ∉ ['A', 'S', 'O', 'Q']) (n : Node) (rx : RxHead) (ident : Nat) :
    acnTake n rx c ident (msgAddr n + 1) = sendArc n rx c ident (msgAddr n + 1) := by
  simp only [List.mem_cons, List.not_mem_nil, or_false, not_or] at hc
  obtain ⟨hA, hS, hO, hQ⟩ := hc
  have hcode : acnCode c = none := by simp only [acnCode, hA, hS, hO, if_false]
  unfold acnTake
  rw [if_neg (by simp)]
  cases (alertOf ident).filter (fun a => (shownOf n a).state != 0) with
  | none => rfl
  | some a => simp only [hcode, if_neg hQ]

/-- An acknowledgement, silence or transfer of a presented alert. -/
theorem acnTake_queued {n : Node} {ident letter : Nat} {a : Alert} (hl : letter < 3) (ha : alertOf ident = some a)
    (hs : (shownOf n a).state ≠ 0) (hb : letter = 0 → alertB n a = true) (rx : RxHead) :
    acnTake n rx (acnChar letter) ident (msgAddr n + 1) = queueRemote (countAcn n rx) (rxOrder rx) (.acn letter a) := by
  have hno : ¬ (letter = 0 ∧ (!alertB n a) = true) := fun ⟨h0, h1⟩ => by simp [hb h0] at h1
  unfold acnTake
  rw [if_neg (by simp), filter_presented ha hs]
  simp only [acnCode_acnChar (Nat.lt_succ_of_lt hl), hl, if_true, if_neg hno]

/-- A request for a presented alert. -/
theorem acnTake_request {n : Node} {ident : Nat} {a : Alert} (ha : alertOf ident = some a) (hs : (shownOf n a).state ≠ 0)
    (rx : RxHead) : acnTake n rx (acnChar 3) ident (msgAddr n + 1) = drain (queueAlf (countAcn n rx) a) := by
  unfold acnTake
  rw [if_neg (by simp), filter_presented ha hs]
  rfl

theorem countAcn_eth {rx : RxHead} {p : Nat} (hp : rx.port = .eth p) (n : Node) :
    countAcn n rx = modEth n p (fun e => { e with acn := sat 65535 (e.acn + 1) }) := by
  simp only [countAcn, hp]

theorem countAcn_ser {rx : RxHead} {p : Nat} (hp : rx.port = .ser p) (n : Node) : countAcn n rx = n := by
  simp only [countAcn, hp]

theorem sendArc_eth {rx : RxHead} {p : Nat} (hp : rx.port = .eth p) (n : Node) (c : Char) (ident inst : Nat) :
    sendArc n rx c ident inst = raise (sendEth n p (.arc c ident inst)) (0x58 + p) 3 := by
  simp only [sendArc, answer, hp]
  rfl

theorem sendArc_ser {rx : RxHead} {p : Nat} (hp : rx.port = .ser p) (n : Node) (c : Char) (ident inst : Nat) :
    sendArc n rx c ident inst = sendSer n p (.arc c ident inst) := by
  simp only [sendArc, answer, hp]

/-- An ARC on an ETH port, with its interrupt bit. -/
theorem arc_eth (n : Node) (p ident inst : Nat) (c : Char) :
    let u := settle (raise (sendEth n p (.arc c ident inst)) (0x58 + p) 3)
    SameButSignals u { n with net := u.net, headers := u.headers } ∧ bit (headerOf u (0x58 + p)).irqStat 3 = true ∧
    ∃ g d f l, .eth p g d f l (.arc c ident inst) ∈ u.outs := by
  refine ⟨rfl, ?_, _, _, _, _, mem_outs_settle (List.mem_append_right _ (List.mem_singleton.mpr rfl))⟩
  have hraised : Raised (sendEth n p (.arc c ident inst)) (raise (sendEth n p (.arc c ident inst)) (0x58 + p) 3) (0x58 + p) 3 :=
    raised_raise _ _ _
  have hirq : (headerOf (settle (raise (sendEth n p (.arc c ident inst)) (0x58 + p) 3)) (0x58 + p)).irqStat = _ :=
    congrArg Header.irqStat hraised
  rw [hirq, bit]
  simp

end Sys2Proof.Machine
end

section
/-! PROOF. The bridge link and the bridge's commands settled (09 R209, 14 R337, R338). -/

namespace Sys2Proof.Machine

/-! The bridge link -/

theorem acts_bridgeHbtReceived {t : Nat} {rx : RxHead} {s : State} (ht : rxTaken s.node rx = true)
    (hg : rxGood s.node rx = true) (hh : holder s.node = true) : Acts (.bridgeHbtReceived t rx) s t (fun n u =>
      u.call = { n.call with lastHbt := some n.now, brLost := false } ∧ u.regs = n.regs ∧ u.points = n.points ∧
      (n.call.brLost = true → u.net.resend = true ∧ (7, 4) ∈ u.dueR) ∧ (n.call.brLost = false → u.dueR = n.dueR)) := by
  refine acts_leaves (f := fun n => bridgeHbtReceived n rx) rfl fun u hu => ?_
  have hu' : u = bridgeHbt (rxCount (atInstant s t) rx) :=
    hu.trans (received_of (n := atInstant s t) ht hg hh bridgeHbt)
  have hrest := rxCount_rest (atInstant s t) rx
  obtain ⟨hcall, hregs, hpoints, hresumed, hstood⟩ := hbtTaken_bridgeHbt (rxCount (atInstant s t) rx)
  rw [← hu'] at hcall hregs hpoints hresumed hstood
  generalize rxCount (atInstant s t) rx = m at *
  rw [hrest] at hcall hregs hpoints hresumed hstood
  exact ⟨hcall, hregs, hpoints, hresumed, hstood⟩

theorem acts_bridgeHbtReceived_counted {t : Nat} {rx : RxHead} {s : State} (ht : rxTaken s.node rx = true)
    (h : rxGood s.node rx = false ∨ holder s.node = false) : Acts (.bridgeHbtReceived t rx) s t (fun n u =>
      u.call = n.call ∧ u.dueR = n.dueR ∧ u.points = n.points ∧ u.net.presented = n.net.presented) := by
  refine acts_leaves (f := fun n => bridgeHbtReceived n rx) rfl fun u hu => ?_
  have hu' : u = rxCount (atInstant s t) rx := hu.trans (received_counted (n := atInstant s t) ht h bridgeHbt)
  have hrest := rxCount_rest (atInstant s t) rx
  rw [← hu'] at hrest
  rw [hrest]
  exact ⟨rfl, rfl, rfl, rfl⟩

theorem bridgeLost_of {n : Node} (hh : holder n = true) (hs : n.nodeSt.state ≠ .init)
    (hp : fld (reg n (at_ 7 0x54)) 21 16 ≠ 0) (hl : n.call.brLost = false)
    (hd : n.call.lastHbt.getD n.nodeSt.upSince + fld (reg n (at_ 7 0x54)) 7 0 * 1000000000 ≤ n.now) :
    bridgeLost n = raiseR (note (modCall n (fun c => { c with brLost := true })) (recAlarm n 11 0 1 0 30 (qual n) 0)) 7 3 := by
  have hports : bridgePorts n = true := by simpa [bridgePorts, callReg] using hp
  have hsilent : bridgeSilent n = true := decide_eq_true hd
  refine (if_pos ?_).trans rfl
  simp [hh, hs, hports, hl, hsilent]

theorem bridgeLost_not {n : Node} (h : holder n = false ∨ n.nodeSt.state = .init ∨ fld (reg n (at_ 7 0x54)) 21 16 = 0 ∨
    n.call.brLost = true ∨ ¬ n.call.lastHbt.getD n.nodeSt.upSince + fld (reg n (at_ 7 0x54)) 7 0 * 1000000000 ≤ n.now) :
    bridgeLost n = n := by
  refine if_neg ?_
  rcases h with h | h | h | h | h
  · simp [h]
  · simp [h]
  · simp [bridgePorts, callReg, h]
  · simp [h]
  · have hsilent : bridgeSilent n = false := decide_eq_false h
    simp [hsilent]

theorem acts_bridgeLinkLost {t : Nat} {s : State} (hh : holder s.node = true) (hs : s.node.nodeSt.state ≠ .init)
    (hp : fld (reg s.node (at_ 7 0x54)) 21 16 ≠ 0) (hl : s.node.call.brLost = false)
    (hd : s.node.call.lastHbt.getD s.node.nodeSt.upSince + fld (reg s.node (at_ 7 0x54)) 7 0 * 1000000000 ≤ max s.node.now t) :
    Acts (.bridgeLinkLost t) s t (fun n u =>
      SameButRecords u { n with call := { n.call with brLost := true }, dueR := n.dueR ++ [(7, 3)] }) := by
  refine acts_of_eq rfl (bridgeLost_of (n := atInstant s t) hh hs hp hl hd) ?_
  generalize atInstant s t = n
  obtain ⟨r, l, hd, d, q, he, hh⟩ := recFrame_note (modCall n (fun c => { c with brLost := true }))
    (recAlarm n 11 0 1 0 30 (qual n) 0)
  rw [he]
  exact ⟨rfl, hh⟩

/-! Sentences of the formatter -/

theorem acts_hbtSend {t p : Nat} {s : State} (hh : holder s.node = true)
    (hd : ∀ a, s.node.net.hbtAt = some a → a + 10000000000 ≤ max s.node.now t) : Acts (.hbtSend t) s t (fun n u =>
      SameButSignals u { n with net := u.net } ∧ u.net.hbtAt = some n.now ∧
      (p ∈ ethActive n → (ethOf u p).tx = (ethOf n p).tx + 1 ∧
        ∃ l, .eth p (ethReg n p 0x60) (fld (ethReg n p 0x64) 15 0) (ethReg n p 0x5C) l
          (.hbt (if n.laneSt.state = 0 ∨ n.laneSt.state = 1 then 'A' else 'V')) ∈ u.outs) ∧
      (p ∈ serActive n → (serOf u p).tx = (serOf n p).tx + 1 ∧
        .ser p (fld (serCfg n p) 23 8) (.hbt (if n.laneSt.state = 0 ∨ n.laneSt.state = 1 then 'A' else 'V')) ∈ u.outs)) := by
  refine acts_leaves (f := hbtSend) rfl fun u hu => ?_
  have honly : OnlyNet (atInstant s t) u := by rw [hu]; exact onlyNet_hbtSend _
  rw [hbtSend_of (n := atInstant s t) hh hd] at hu
  generalize atInstant s t = n at hu honly ⊢
  obtain ⟨hsends, heth, hser⟩ := sentAll_sendAll { n with net := { n.net with hbtAt := some n.now } }
    (.hbt (if n.laneSt.state = 0 ∨ n.laneSt.state = 1 then 'A' else 'V'))
  rw [← hu] at hsends heth hser
  refine ⟨honly.signals, ?_, fun hp => ?_, fun hp => ?_⟩
  · have hat := congrArg (fun m => m.net.hbtAt) hsends.rest
    exact hat
  · obtain ⟨htx, l, hout⟩ := heth p hp
    exact ⟨htx, l, mem_outs_settle hout⟩
  · obtain ⟨htx, hout⟩ := hser p hp
    exact ⟨htx, mem_outs_settle hout⟩

theorem acts_alcSend {t p : Nat} {s : State} (hh : holder s.node = true)
    (hd : ∀ a, s.node.net.alcAt = some a → a + 30000000000 ≤ max s.node.now t) : Acts (.alcSend t) s t (fun n u =>
      SameButSignals u { n with net := u.net } ∧ u.net.alcAt = some n.now ∧ u.net.presented = n.net.presented ∧
      (present n = [] → SameButSignals u { n with net := { n.net with alcAt := some n.now } }) ∧
      (present n ≠ [] → (present n).length ≤ 4 → p ∈ serActive n →
        .ser p (fld (serCfg n p) 23 8)
          (.alc ((present n).map (fun a => (alertIdent a, msgAddr n + 1, stateLetter (shownOf n a).state)))) ∈ u.outs)) := by
  refine acts_leaves (f := alcSend) rfl fun u hu => ?_
  have honly : OnlyNet (atInstant s t) u := by rw [hu]; exact onlyNet_alcSend _
  rw [alcSend_of (n := atInstant s t) hh hd] at hu
  generalize atInstant s t = n at hu honly ⊢
  have hsends : Sends { n with net := { n.net with alcAt := some n.now } } u := by
    rw [hu]
    exact sends_foldl (fun n c => sends_sendAll n (.alc c)) _ _
  refine ⟨honly.signals, ?_, ?_, fun hnone => ?_, fun hsome hlen hp => ?_⟩
  · have hat := congrArg (fun m => m.net.alcAt) hsends.rest
    exact hat
  · have hpres := congrArg (fun m => m.net.presented) hsends.rest
    exact hpres
  · have hentries : alcEntries n = [] := by rw [alcEntries, hnone]; rfl
    rw [hentries] at hu
    rw [hu]
    rfl
  · have hentries : alcEntries n ≠ [] := fun h => hsome (List.map_eq_nil_iff.mp h)
    rw [chunk4_short hentries (by rw [alcEntries, List.length_map]; exact hlen)] at hu
    obtain ⟨-, -, hser⟩ := sentAll_sendAll { n with net := { n.net with alcAt := some n.now } } (.alc (alcEntries n))
    have hu' : u = sendAll { n with net := { n.net with alcAt := some n.now } } (.alc (alcEntries n)) := hu
    rw [← hu'] at hser
    exact mem_outs_settle (hser p hp).2

theorem acts_alfRepeat {t p : Nat} {s : State} (hh : holder s.node = true)
    (hd : ∀ a, s.node.net.alfAt = some a → a + 60000000000 ≤ max s.node.now t) : Acts (.alfRepeat t) s t (fun n u =>
      SameButSignals u { n with net := u.net } ∧ u.net.alfAt = some n.now ∧
      u.net.summary = n.net.summary ∧ u.net.callFault = n.net.callFault ∧ u.net.watch = n.net.watch ∧
      (p ∈ serActive n → (serOf u p).queue = [] ∧
        ∀ a, a ∈ present n → .ser p (fld (serCfg n p) 23 8) (alfOf n a) ∈ u.outs)) := by
  refine acts_leaves (f := alfRepeat) rfl fun u hu => ?_
  have honly : OnlyNet (atInstant s t) u := by rw [hu]; exact onlyNet_alfRepeat _
  rw [alfRepeat_of (n := atInstant s t) hh hd] at hu
  generalize atInstant s t = n at hu honly ⊢
  have hqueued : Sends { n with net := { n.net with alfAt := some n.now } }
      ((present n).foldl queueAlf { n with net := { n.net with alfAt := some n.now } }) := sends_foldl sends_queueAlf _ _
  have hmem := fun (a : Alert) (hp : p ∈ serActive n) (ha : a ∈ present n) => mem_queue_foldl_queueAlf (a := a) (p := p)
    (n := { n with net := { n.net with alfAt := some n.now } }) hp (.inl ha)
  have hon : p ∈ serActive n → p ∈ serActive ((present n).foldl queueAlf { n with net := { n.net with alfAt := some n.now } }) :=
    fun hp => by rw [serActive_of_regs hqueued.regs]; exact hp
  generalize (present n).foldl queueAlf { n with net := { n.net with alfAt := some n.now } } = m at *
  have hall : Sends { n with net := { n.net with alfAt := some n.now } } (drained m) := hqueued.trans (sends_drained m)
  have hempty := fun (h : p ∈ serActive m) => queue_drained h
  have hout := fun (h : p ∈ serActive m) (a : Alert) (ha : a ∈ (serOf m p).queue) => mem_outs_drained h ha
  obtain ⟨x, hx⟩ := drain_eq m
  rw [hx] at hu
  generalize drained m = k at *
  have hnet := hall.rest
  rw [hu] at honly ⊢
  refine ⟨honly.signals, ?_, ?_, ?_, ?_, fun hp => ⟨hempty (hon hp), fun a ha => mem_outs_settle ?_⟩⟩
  · exact congrArg (fun m => m.net.alfAt) hnet
  · exact congrArg (fun m => m.net.summary) hnet
  · exact congrArg (fun m => m.net.callFault) hnet
  · exact congrArg (fun m => m.net.watch) hnet
  · have hsent := hout (hon hp) a (hmem a hp ha)
    have hcfg : serCfg m p = serCfg n p := reg_of_regs hqueued.regs _
    have half : alfOf m a = alfOf n a := (hqueued.alfOf a).trans (by cases a <;> rfl)
    rw [hcfg, half] at hsent
    exact hsent

/-! The bridge's commands -/

/-- A command received well by the holder. -/
theorem acts_acn {t ident inst : Nat} {c : Char} {rx : RxHead} {i : Instr} {s : State} {P : Node → Node → Prop}
    (hc : exec i s = .next (onNode s t (fun n => acn n rx c ident inst)))
    (ht : rxTaken s.node rx = true) (hg : rxGood s.node rx = true) (hh : holder s.node = true)
    (h : ∀ u, u = acnTake (rxCount (atInstant s t) rx) rx c ident inst → P (atInstant s t) (settle u)) : Acts i s t P :=
  acts_leaves hc fun u hu => h u (hu.trans (received_of (n := atInstant s t) ht hg hh _))

/-- A command that is queued, on either port. -/
theorem queued_remote (n : Node) (order : Nat) (a : RemoteAct) :
    { tag := n.frame, at_ := n.now, order := order, act := a } ∈ (queueRemote n order a).net.remote := mem_insertRemote _ _

theorem shownOf_modSer (n : Node) (p : Nat) (f : SerPort → SerPort) (a : Alert) : shownOf (modSer n p f) a = shownOf n a := by
  cases a <;> rfl

theorem alertB_modSer (n : Node) (p : Nat) (f : SerPort → SerPort) (a : Alert) : alertB (modSer n p f) a = alertB n a := by
  cases a <;> rfl

theorem onlyNet_modEth (n : Node) (p : Nat) (f : EthPort → EthPort) : OnlyNet n (modEth n p f) := rfl

/-- A request has the alert sent again, and queues no command. -/
theorem request_leaves (n : Node) (p : Nat) (f : EthPort → EthPort) (a : Alert) {u : Node}
    (hu : u = drain (queueAlf (modEth n p f) a)) :
    SameButSignals (settle u) { n with net := (settle u).net } ∧ (settle u).net.remote = n.net.remote := by
  have honly : OnlyNet n u := by
    rw [hu]
    exact (onlyNet_modEth n p f).trans ((onlyNet_queueAlf _ a).trans (onlyNet_drain _))
  refine ⟨honly.signals, ?_⟩
  have hqueued := (sends_queueAlf (modEth n p f) a).remote
  generalize queueAlf (modEth n p f) a = m at hu hqueued
  have hdrained := (sends_drained m).remote
  obtain ⟨x, hx⟩ := drain_eq m
  rw [hu, hx]
  exact hdrained.trans hqueued

section
variable {t ident inst letter p : Nat} {rx : RxHead} {s : State}

theorem acts_acn_eth_other (hl : letter < 4) (ht : rxTaken s.node rx = true) (hg : rxGood s.node rx = true)
    (hh : holder s.node = true) (hp : rx.port = .eth p) (hi : inst ≠ msgAddr s.node + 1) :
    Acts (acnOf t letter rx ident inst) s t (fun n u => SameButSignals u n) := by
  refine acts_acn (exec_acnOf hl t ident inst rx s) ht hg hh fun u hu => ?_
  rw [rxCount_eth (n := atInstant s t) hp hg, acnTake_other (n := atInstant s t) hi] at hu
  rw [hu]
  exact sameButSignals_settle _

theorem acts_acn_eth_arc {i : Instr} {c : Char} (hc : exec i s = .next (onNode s t (fun n => acn n rx c ident inst)))
    (ht : rxTaken s.node rx = true) (hg : rxGood s.node rx = true) (hh : holder s.node = true) (hp : rx.port = .eth p)
    (htake : acnTake (atInstant s t) rx c ident inst = sendArc (atInstant s t) rx c ident inst) : Acts i s t (fun n u =>
      SameButSignals u { n with net := u.net, headers := u.headers } ∧ bit (headerOf u (0x58 + p)).irqStat 3 = true ∧
      ∃ g d f l, .eth p g d f l (.arc c ident inst) ∈ u.outs) := by
  refine acts_acn hc ht hg hh fun u hu => ?_
  rw [rxCount_eth (n := atInstant s t) hp hg, htake, sendArc_eth hp] at hu
  rw [hu]
  exact arc_eth _ p ident inst c

theorem acts_acn_eth_queued {a : Alert} (hl : letter < 3) (ht : rxTaken s.node rx = true) (hg : rxGood s.node rx = true)
    (hh : holder s.node = true) (hp : rx.port = .eth p) (ha : alertOf ident = some a) (hs : (shownOf s.node a).state ≠ 0)
    (hb : letter = 0 → alertB s.node a = true) :
    Acts (acnOf t letter rx ident (msgAddr s.node + 1)) s t (fun n u =>
      SameButSignals u { n with net := u.net } ∧ (ethOf u p).acn = min 65535 ((ethOf n p).acn + 1) ∧
      { tag := n.frame, at_ := n.now, order := 24 + p, act := .acn letter a } ∈ u.net.remote) := by
  refine acts_acn (exec_acnOf (by omega) t ident _ rx s) ht hg hh fun u hu => ?_
  have htake := acnTake_queued (n := atInstant s t) hl ha (by cases a <;> exact hs) (by cases a <;> exact hb) rx
  have horder : rxOrder rx = 24 + p := by simp only [rxOrder, hp]
  rw [rxCount_eth (n := atInstant s t) hp hg] at hu
  have hu' : u = queueRemote (modEth (atInstant s t) p (fun e => { e with acn := sat 65535 (e.acn + 1) })) (24 + p)
      (.acn letter a) := by
    rw [← horder, ← countAcn_eth hp]
    exact hu.trans htake
  rw [hu']
  exact ⟨rfl, congrArg EthPort.acn (ethOf_modEth_self (atInstant s t) p
    (fun e => { e with acn := sat 65535 (e.acn + 1) })), queued_remote _ _ _⟩

theorem acts_acn_eth_request {a : Alert} (ht : rxTaken s.node rx = true) (hg : rxGood s.node rx = true)
    (hh : holder s.node = true) (hp : rx.port = .eth p) (ha : alertOf ident = some a) (hs : (shownOf s.node a).state ≠ 0) :
    Acts (acnOf t 3 rx ident (msgAddr s.node + 1)) s t (fun n u =>
      SameButSignals u { n with net := u.net } ∧ u.net.remote = n.net.remote) := by
  refine acts_acn (exec_acnOf (by decide) t ident _ rx s) ht hg hh fun u hu => ?_
  have htake := acnTake_request (n := atInstant s t) ha (by cases a <;> exact hs) rx
  rw [rxCount_eth (n := atInstant s t) hp hg] at hu
  refine request_leaves (atInstant s t) p (fun e => { e with acn := sat 65535 (e.acn + 1) }) a ?_
  rw [← countAcn_eth hp]
  exact hu.trans htake

theorem acts_acn_ser_other (hl : letter < 4) (ht : rxTaken s.node rx = true) (hg : rxGood s.node rx = true)
    (hh : holder s.node = true) (hp : rx.port = .ser p) (hi : inst ≠ msgAddr s.node + 1) :
    Acts (acnOf t letter rx ident inst) s t (fun n u =>
      SameButSignals u { n with net := { n.net with ser := u.net.ser } } ∧
      serOf u p = { serOf n p with ok := min 65535 ((serOf n p).ok + 1), lastOk := some n.now }) := by
  refine acts_acn (exec_acnOf hl t ident inst rx s) ht hg hh fun u hu => ?_
  rw [rxCount_ser (n := atInstant s t) hp hg, acnTake_other (n := modSer (atInstant s t) p _) hi] at hu
  rw [hu]
  exact ⟨rfl, serOf_modSer_self (atInstant s t) p _⟩

theorem acts_acn_ser_refused (hl : letter < 4) (ht : rxTaken s.node rx = true) (hg : rxGood s.node rx = true)
    (hh : holder s.node = true) (hp : rx.port = .ser p)
    (h : ∀ a, alertOf ident = some a → (shownOf s.node a).state = 0 ∨ (letter = 0 ∧ alertB s.node a = false)) :
    Acts (acnOf t letter rx ident (msgAddr s.node + 1)) s t (fun n u => SameButSignals u { n with net := u.net } ∧
      ∃ b c, .ser p b (.arc c ident (msgAddr s.node + 1)) ∈ u.outs) := by
  refine acts_acn (exec_acnOf hl t ident _ rx s) ht hg hh fun u hu => ?_
  have htake := acnTake_refused (n := modSer (atInstant s t) p (serGood (max s.node.now t))) hl
    (fun a ha => by rw [shownOf_modSer, alertB_modSer]; have := h a ha; cases a <;> exact this) rx
  rw [rxCount_ser (n := atInstant s t) hp hg] at hu
  have hu' := hu.trans (htake.trans (sendArc_ser hp _ _ _ _))
  rw [hu']
  exact ⟨rfl, _, _, mem_outs_settle (List.mem_append_right _ (List.mem_singleton.mpr rfl))⟩

theorem acts_acn_ser_queued {a : Alert} (hl : letter < 3) (ht : rxTaken s.node rx = true) (hg : rxGood s.node rx = true)
    (hh : holder s.node = true) (hp : rx.port = .ser p) (ha : alertOf ident = some a) (hs : (shownOf s.node a).state ≠ 0)
    (hb : letter = 0 → alertB s.node a = true) :
    Acts (acnOf t letter rx ident (msgAddr s.node + 1)) s t (fun n u => SameButSignals u { n with net := u.net } ∧
      { tag := n.frame, at_ := n.now, order := 28 + p, act := .acn letter a } ∈ u.net.remote) := by
  refine acts_acn (exec_acnOf (by omega) t ident _ rx s) ht hg hh fun u hu => ?_
  have htake := acnTake_queued (n := modSer (atInstant s t) p (serGood (max s.node.now t))) hl ha
    (by rw [shownOf_modSer]; cases a <;> exact hs) (by rw [alertB_modSer]; cases a <;> exact hb) rx
  have horder : rxOrder rx = 28 + p := by simp only [rxOrder, hp]
  rw [countAcn_ser hp, horder] at htake
  rw [rxCount_ser (n := atInstant s t) hp hg] at hu
  have hu' := hu.trans htake
  rw [hu']
  exact ⟨rfl, queued_remote _ _ _⟩

end

theorem acts_acn_not_taken {t letter ident inst : Nat} {rx : RxHead} {s : State} (hl : letter < 4)
    (ht : rxTaken s.node rx = false) : Acts (acnOf t letter rx ident inst) s t (fun n u => SameButSignals u n) :=
  acts_same (exec_acnOf hl t ident inst rx s) (received_not (n := atInstant s t) ht _)

/-- Settles O39. -/
theorem bridgeLinkAndCommands : Obligations.BridgeLinkAndCommands := by
  refine ⟨fun t rx s => ⟨fun ht hg hh => acts_bridgeHbtReceived ht hg hh, fun ht h => acts_bridgeHbtReceived_counted ht h,
      fun ht => acts_same rfl (received_not (n := atInstant s t) ht _),
      fun hh hs hp hl hd => acts_bridgeLinkLost hh hs hp hl hd, fun h => acts_same rfl (bridgeLost_not (n := atInstant s t) h)⟩,
    fun t p s => ⟨fun hh => ⟨fun hd => acts_hbtSend hh hd, fun hd => acts_alcSend hh hd, fun hd => acts_alfRepeat hh hd⟩,
      fun h => acts_same rfl (hbtSend_not (n := atInstant s t) h), fun h => acts_same rfl (alcSend_not (n := atInstant s t) h),
      fun h => acts_same rfl (alfRepeat_not (n := atInstant s t) h)⟩,
    fun t letter ident inst p ch rx s hl => ⟨fun ht => acts_acn_not_taken hl ht, fun ht hg hh => ⟨fun hp => ?_, fun hp => ?_⟩⟩⟩
  · refine ⟨fun hi => acts_acn_eth_other hl ht hg hh hp hi, fun hi => ?_⟩
    subst hi
    refine ⟨fun h => ?_, fun hch => ?_, fun a ha hs hb => ⟨fun h3 => acts_acn_eth_queued h3 ht hg hh hp ha hs hb, fun h3 => ?_⟩⟩
    · obtain ⟨u, hu, hnode, hsame, hirq, g, d, f, l, hout⟩ := acts_acn_eth_arc (exec_acnOf hl t ident _ rx s) ht hg hh hp
        (acnTake_refused (n := atInstant s t) hl (fun a ha => by have := h a ha; cases a <;> exact this) rx)
      exact ⟨u, hu, hnode, hsame, hirq, g, d, f, l, _, hout⟩
    · exact acts_acn_eth_arc rfl ht hg hh hp (acnTake_unknown hch (atInstant s t) rx ident)
    · subst h3
      exact acts_acn_eth_request ht hg hh hp ha hs
  · refine ⟨fun hi => acts_acn_ser_other hl ht hg hh hp hi, fun hi => ?_⟩
    subst hi
    exact ⟨fun h => acts_acn_ser_refused hl ht hg hh hp h, fun a ha hs hb h3 => acts_acn_ser_queued h3 ht hg hh hp ha hs hb⟩

end Sys2Proof.Machine
end

section
/-! PROOF. Commands of the SAF, DPX and cross-link pages (10 R230, R236, 12 R285, R289). -/

namespace Sys2Proof.Machine

/-! Taken up at their boundary -/

theorem outputOf_modOutput_self (n : Node) (o : Nat) (f : Output → Output) : outputOf (modOutput n o f) o = f (outputOf n o) :=
  tget_tmod_self _ _ _ _

theorem outputOf_modOutput_ne (n : Node) {o j : Nat} (f : Output → Output) (h : j ≠ o) :
    outputOf (modOutput n o f) j = outputOf n j := tget_tmod_ne _ _ _ h

theorem actEff_saf {n : Node} (h : lanesNone n = false) (auto : Bool) (op i : Nat) : actEff auto (.saf op i) n = safTake op i n := by
  simp only [actEff, h, Bool.false_and, Bool.false_eq_true, if_false]

/-! Writes of SAF_CMD -/

/-- The words of SAF_CMD, as the register takes them apart. -/
theorem safWord_fields {k op : Nat} (hk : k < 256) (ho : op < 16) :
    fld (pack [(k, 16, 8), (op, 0, 4)]) 3 0 = op ∧ fld (pack [(k, 16, 8), (op, 0, 4)]) 23 16 = k := by
  have hn : (pack [(k, 16, 8), (op, 0, 4)]).toNat = k * 65536 + op := by
    simp only [pack, packN, List.foldl_cons, List.foldl_nil, BitVec.toNat_ofNat]
    omega
  simp only [fld, hn, Nat.shiftRight_eq_div_pow]
  omega

theorem safCmdWrite_deferred {n : Node} {v : Word} (hj : judge n hostPath 8 (safCheck n hostPath v) = .accept) :
    safCmdWrite n hostPath v = deferred n hostPath 8 (at_ 8 0x44) v (.saf (fld v 3 0) (fld v 23 16)) :=
  runCommand_deferred hj _

/-- A write of SAF_CMD that waits for its boundary. -/
theorem acts_safCmd {c : Instr} {t k op : Nat} {s : State} (hk : k < 256) (ho : op < 16)
    (hc : exec c s = .next (onNode s t (fun n => safCmdWrite n hostPath (pack [(k, 16, 8), (op, 0, 4)]))))
    (hj : judge (atInstant s t) hostPath 8 (safCheck (atInstant s t) hostPath (pack [(k, 16, 8), (op, 0, 4)])) = .accept) :
    Acts c s t (fun _ u => SameButSignals u
      (deferred (atInstant s t) hostPath 8 (at_ 8 0x44) (pack [(k, 16, 8), (op, 0, 4)]) (.saf op k))) := by
  obtain ⟨hop, hidx⟩ := safWord_fields hk ho
  refine acts_of_eq hc (safCmdWrite_deferred hj) ?_
  rw [hop, hidx]
  exact sameButSignals_settle _

/-! Writes of DPX_CMD and XL_CMD -/

theorem accepted_duplex (n : Node) (path p off : Nat) (v : Word) (r : Option Bool) :
    (acceptCmd n path p off v).duplex = n.duplex ∧ (accepted n path p off v r).duplex = n.duplex := by
  have h : (acceptCmd n path p off v).duplex = n.duplex := by rw [acceptCmd, touchSession_rest]; rfl
  exact ⟨h, h⟩

theorem dpxHandover_accept {n : Node} (hj : judge n hostPath 4 (dpxCmdCheck n hostPath 1) = .accept) :
    dpxCmdWrite n hostPath 1 = { accepted n hostPath 4 (at_ 4 0x5C) 1 none with
      duplex := { n.duplex with handover := some n.now, handB := none } } := by
  have hnow := (acceptCmd_now n hostPath 4 (at_ 4 0x5C) 1).1
  have hdpx := (accepted_duplex n hostPath 4 (at_ 4 0x5C) 1 none).1
  refine (runCommand_accept hj _).trans ?_
  rw [← hnow, ← hdpx]
  rfl

theorem dpxCarry_accept {n : Node} (hj : judge n hostPath 4 (dpxCmdCheck n hostPath 2) = .accept) :
    dpxCmdWrite n hostPath 2 =
      { byLanes (accepted n hostPath 4 (at_ 4 0x5C) 2 (if paired n then none else some true)) 4 with
        duplex := { n.duplex with carry := some (n.now + 5000, (reg n (at_ 4 0x60)).toNat) } } := by
  have hnow := (acceptCmd_now n hostPath 4 (at_ 4 0x5C) 2).1
  have hdpx := (accepted_duplex n hostPath 4 (at_ 4 0x5C) 2 none).1
  have hregs : (acceptCmd n hostPath 4 (at_ 4 0x5C) 2).regs = n.regs := by rw [acceptCmd, touchSession_rest]; rfl
  have hpair : paired (acceptCmd n hostPath 4 (at_ 4 0x5C) 2) = paired n := by
    simp only [paired, reg_of_regs hregs]
  refine (runCommand_accept hj _).trans ?_
  rw [accepted, ← resolveCmd_byLanes, ← hnow, ← hdpx, ← hpair, ← reg_of_regs hregs]
  rfl

theorem acts_dpxClear {t : Nat} {s : State} (hj : judge (atInstant s t) hostPath 4 (dpxCmdCheck (atInstant s t) hostPath 3) = .accept) :
    Acts (.dpxClear t) s t (fun n u => SameButSignals u (deferred n hostPath 4 (at_ 4 0x5C) 3 .dpxClear)) :=
  acts_of_eq (f := fun n => dpxCmdWrite n hostPath 3) rfl (runCommand_deferred hj _) (sameButSignals_settle _)

theorem xlOf_modXl {i : Nat} (hi : i < 2) (n : Node) (f : XLink → XLink) :
    xlOf (modXl n i f) i = f (xlOf n i) ∧ xlOf (modXl n i f) (1 - i) = xlOf n (1 - i) := by
  interval_cases i <;> exact ⟨rfl, rfl⟩

theorem xlCmdWrite_accept {n : Node} {k : Nat}
    (hj : judge n hostPath (0x5E + k) { state := inStates n 30, level := levelOk n hostPath 1 } = .accept) :
    xlCmdWrite n hostPath k 1 = modXl (accepted n hostPath (0x5E + k) (at_ (0x5E + k) 0x4C) 1 (some true)) k
      (fun x => { x with bad := 0, miss := 0 }) := by
  refine (runCommand_accept hj _).trans ?_
  unfold done modXl
  split <;> rfl

theorem modXl_rest (n : Node) (i : Nat) (f : XLink → XLink) : SameButSignals (settle (modXl n i f)) { n with
    duplex := { n.duplex with x0 := (settle (modXl n i f)).duplex.x0, x1 := (settle (modXl n i f)).duplex.x1 } } := by
  unfold modXl
  split <;> rfl

theorem acts_xlCmdClear {t k : Nat} {s : State} (hk : k < 2)
    (hj : judge (atInstant s t) hostPath (0x5E + k)
      { state := inStates (atInstant s t) 30, level := levelOk (atInstant s t) hostPath 1 } = .accept) :
    Acts (.xlCmdClear t k) s t (fun _ u =>
      SameButSignals u { accepted (atInstant s t) hostPath (0x5E + k) (at_ (0x5E + k) 0x4C) 1 (some true) with
        duplex := { (atInstant s t).duplex with x0 := u.duplex.x0, x1 := u.duplex.x1 } } ∧
      xlOf u k = { xlOf (atInstant s t) k with bad := 0, miss := 0 } ∧ xlOf u (1 - k) = xlOf (atInstant s t) (1 - k)) := by
  refine acts_of_eq (f := fun n => if k < 2 then xlCmdWrite n hostPath k 1 else n) rfl
    ((if_pos hk).trans (xlCmdWrite_accept hj)) ?_
  have hdpx := (accepted_duplex (atInstant s t) hostPath (0x5E + k) (at_ (0x5E + k) 0x4C) 1 (some true)).2
  generalize accepted (atInstant s t) hostPath (0x5E + k) (at_ (0x5E + k) 0x4C) 1 (some true) = m at hdpx
  have hxl : ∀ i, xlOf (atInstant s t) i = xlOf m i := fun i => by rw [xlOf, xlOf, hdpx]
  obtain ⟨hself, hother⟩ := xlOf_modXl hk m (fun x => { x with bad := 0, miss := 0 })
  rw [hxl, hxl, ← hdpx]
  exact ⟨modXl_rest m k _, hself, hother⟩

/-! The outcome of a handover (R285) -/

theorem handoverTimeout_due {n : Node} {a : Nat} (h : n.duplex.handover = some a) (hd : a + 8 * n.period ≤ n.now) :
    handoverTimeout n =
      resolveCmd { n with duplex := { n.duplex with handover := none, handB := none, yield_ := false } } 4 (some false) := by
  simp only [handoverTimeout, h, hd, if_true]
  rfl

theorem handoverTimeout_early {n : Node} {a : Nat} (h : n.duplex.handover = some a) (hd : n.now < a + 8 * n.period) :
    handoverTimeout n = n := by
  simp only [handoverTimeout, h, if_neg (Nat.not_le.mpr hd)]

theorem handoverTimeout_none {n : Node} (h : n.duplex.handover = none) : handoverTimeout n = n := by
  simp only [handoverTimeout, h]

/-- Settles O43. -/
theorem safetyAndDuplexCommands : Obligations.SafetyAndDuplexCommands := by
  refine ⟨fun auto i n hl => ⟨actEff_saf hl auto 1 i, actEff_saf hl auto 2 i, ?_⟩, fun t k s =>
    ⟨fun hj hk => acts_safCmd (by omega) (by decide) rfl hj, fun hj => ?_, fun hj hk => acts_safCmd (by omega) (by decide) rfl hj,
      fun hj => ?_, fun hj => ?_, fun hj => acts_dpxClear hj, fun hk hj => acts_xlCmdClear hk hj,
      fun a ha => ⟨fun hd => ?_, fun hd => ?_⟩, fun ha => acts_same rfl (handoverTimeout_none (n := atInstant s t) ha)⟩⟩
  · rw [actEff_saf hl]
    exact ⟨rfl, outputOf_modOutput_self (ownEnd n 8) i _, fun j hj => outputOf_modOutput_ne (ownEnd n 8) _ hj⟩
  · exact acts_of_eq (f := fun n => safCmdWrite n hostPath 2) rfl (safCmdWrite_deferred hj) (sameButSignals_settle _)
  · exact acts_of_eq (f := fun n => dpxCmdWrite n hostPath 1) rfl (dpxHandover_accept hj) (sameButSignals_settle _)
  · exact acts_of_eq (f := fun n => dpxCmdWrite n hostPath 2) rfl (dpxCarry_accept hj) (sameButSignals_settle _)
  · exact acts_of_eq rfl (handoverTimeout_due (n := atInstant s t) ha hd) (sameButSignals_settle _)
  · exact acts_same rfl (handoverTimeout_early (n := atInstant s t) ha hd)

end Sys2Proof.Machine
end

section
/-! PROOF. A received frame under the module's own address (13 R307, 14 R327). -/

namespace Sys2Proof.Machine

/-- A heartbeat that carries this module's own address. -/
def ownHeartbeat : CanFrame :=
  { ide := true, id := 0x10 * 262144 + 253 * 1024, fdf := true, brs := false, esi := false, rtr := false, dlc := 10, data := List.replicate 16 0 }

/-- A single node, of address 253 as at reset, whose controller 0 is error-active on the bus, with the node layer. -/
def hearsItself : Node :=
  { regs := [(at_ 0x40 0x40, 0x20)], cans := [(0, { state := .active, mode := 1 })], laneSt := { state := 0 } }

theorem hearsItself_meets : (canOf hearsItself 0).state = .active ∧ (canOf hearsItself 0).tec ≤ 255 ∧
    (canOf hearsItself 0).wasRx = false ∧ fdoe hearsItself 0 = true ∧ (canOf hearsItself 0).cfgPend = false ∧
    (canOf hearsItself 0).b0 = none ∧ (canOf hearsItself 0).b1 = none ∧ (canOf hearsItself 0).b2 = none := by decide +kernel

/-- The duplicate address is told, and the instant of the telling kept. -/
theorem dupAt_takeFrame_own : (takeFrame (begin_ hearsItself 0) 0 0 ownHeartbeat).net.dupAt = some 0 := by decide +kernel

/-- Refutes O46: it says that a frame received changes its controller, headers, free values and records alone, but one that
carries the module's own address is told as a duplicate, and the node keeps when (14 R327). -/
theorem not_framesAreReceived : ¬ Obligations.FramesAreReceived := by
  intro h
  obtain ⟨hstate, htec, hwas, hfdoe, hpend, hb0, hb1, hb2⟩ := hearsItself_meets
  obtain ⟨-, -, -, -, received, -⟩ := h 0 0 0 ownHeartbeat { node := hearsItself } (by decide)
  have hbufs : ∀ b z, getBuf (canOf hearsItself 0) b = some z → z.intx = true → z.flushed = false := fun b z hz => by
    have hnone : getBuf (canOf hearsItself 0) b = none := by
      simp only [getBuf, hb0, hb1, hb2, ite_self]
    rw [hnone] at hz
    cases hz
  have hexec : exec (.canFrameReceived 0 0 0 ownHeartbeat) { node := hearsItself } =
      .next (onNode { node := hearsItself } 0 (fun n => takeFrame n 0 0 ownHeartbeat)) := rfl
  obtain ⟨u, hu, -, ⟨⟨hsame, -⟩, -⟩, -⟩ := received (.inl hstate) htec (fun ht => Bool.false_ne_true (hwas.symm.trans ht.1))
    (.inr hfdoe) hbufs hpend
  injection hexec.symm.trans hu with hu
  subst hu
  have hnet := congrArg (fun m => m.net.dupAt) hsame
  have hdup : (onNode { node := hearsItself } 0 (fun n => takeFrame n 0 0 ownHeartbeat)).node.net.dupAt = some 0 := by
    rw [onNode_node]
    exact dupAt_takeFrame_own
  exact absurd (hdup.symm.trans hnet) (by simp [atInstant, hearsItself])

end Sys2Proof.Machine
end

section
/-! PROOF. The transmit buffers of a CAN controller: what loading, ending and losing arbitration leave (13 R308 to R310). -/

namespace Sys2Proof.Machine

/-! Buffers -/

theorem getBuf_putBuf_self (x : CanCtl) (b : Nat) (v : Option TxBuf) : getBuf (putBuf x b v) b = v := by
  unfold getBuf putBuf
  by_cases h0 : b = 0
  · simp only [h0, if_true]
  · by_cases h1 : b = 1
    · simp [h1]
    · simp only [h0, h1, if_false]

theorem getBuf_putBuf_ne {b d : Nat} (hb : b < 3) (hd : d < 3) (h : d ≠ b) (x : CanCtl) (v : Option TxBuf) :
    getBuf (putBuf x b v) d = getBuf x d := by
  interval_cases b <;> interval_cases d <;> simp_all [getBuf, putBuf]

/-- Nothing but the buffer changes. -/
def unloaded (x : CanCtl) : CanCtl :=
  { x with b0 := none, b1 := none, b2 := none, nodeQ := [], hostQ := [], lastLoad := 0 }

/-- The host message in a buffer, counted. -/
def hosts (x : CanCtl) (b : Nat) : Nat := b2n (isHostBuf (getBuf x b))

theorem unloaded_putBuf (x : CanCtl) (b : Nat) (v : Option TxBuf) : unloaded (putBuf x b v) = unloaded x := by
  unfold putBuf
  split
  · rfl
  · split <;> rfl

/-- A buffer that changes changes what is outstanding by what it held and holds. -/
theorem outstanding_putBuf (x : CanCtl) (b : Nat) (v : Option TxBuf) :
    outstanding (putBuf x b v) + hosts x b = outstanding x + b2n (isHostBuf v) := by
  unfold putBuf hosts getBuf outstanding
  split
  · dsimp only; omega
  · split <;> dsimp only <;> omega

/-! Loading -/

/-- y differs from x in its buffers, its queues and the order of loading; the host messages outstanding stay. -/
def Loads (x y : CanCtl) : Prop := unloaded y = unloaded x ∧ outstanding y = outstanding x

theorem Loads.refl (x : CanCtl) : Loads x x := ⟨rfl, rfl⟩

theorem Loads.trans {x y z : CanCtl} (h : Loads x y) (k : Loads y z) : Loads x z := ⟨k.1.trans h.1, k.2.trans h.2⟩

theorem isNone_of_freeBuf {x : CanCtl} {b : Nat} (h : freeBuf x = some b) : getBuf x b = none := by
  unfold freeBuf at h
  split at h
  · simp only [Option.ite_none_right_eq_some, Option.some.injEq] at h
    obtain ⟨hfree, rfl⟩ := h
    exact Option.isNone_iff_eq_none.mp hfree
  · exact Option.isNone_iff_eq_none.mp (List.find?_some (p := fun b => (getBuf x b).isNone) h)

theorem outstanding_hostQ (x : CanCtl) (q : List HostMsg) :
    outstanding { x with hostQ := q } + x.hostQ.length = outstanding x + q.length := by
  unfold outstanding
  dsimp only
  omega

/-- The queues and the order of loading have no part in what is outstanding but the host messages that wait. -/
theorem hostQ_putBuf (x : CanCtl) (b : Nat) (v : Option TxBuf) : (putBuf x b v).hostQ = x.hostQ := by
  unfold putBuf
  split
  · rfl
  · split <;> rfl

theorem loads_loadOne (x : CanCtl) : Loads x (loadOne x) := by
  unfold loadOne
  split
  · exact Loads.refl x
  next b hb =>
    have hput := outstanding_putBuf x b
    rw [hosts, isNone_of_freeBuf hb] at hput
    split
    · exact ⟨unloaded_putBuf x b _, hput _⟩
    · split
      next m r hq =>
        have hrest := outstanding_hostQ (putBuf x b (some { body := .host m x.retry, attempts := m.attempts })) r
        rw [hostQ_putBuf, hq] at hrest
        have hload : outstanding (putBuf x b (some { body := .host m x.retry, attempts := m.attempts })) + 0 =
          outstanding x + 1 := hput _
        refine ⟨unloaded_putBuf x b _, Nat.add_right_cancel (hrest.trans ?_)⟩
        rw [List.length_cons]
        omega
      · exact Loads.refl x

theorem loserBuf_lt {n : Node} {c b : Nat} {x : CanCtl} (h : loserBuf n c x = some b) :
    b < 3 ∧ isHostBuf (getBuf x b) = true ∧ ∀ z, getBuf x b = some z → z.intx = false := by
  unfold loserBuf at h
  dsimp only at h
  split at h
  next d hd =>
    rw [Option.ite_none_left_eq_some] at h
    obtain ⟨hx, hdb⟩ := h
    cases hdb
    obtain ⟨hr, hh⟩ := List.mem_filter.mp (List.mem_of_find?_eq_some hd)
    refine ⟨List.mem_range.mp hr, hh, fun z hz => ?_⟩
    rw [hz] at hx
    exact Bool.eq_false_iff.mpr hx
  · exact nomatch h

theorem loads_preempt (n : Node) (c : Nat) (x : CanCtl) : Loads x (preempt n c x) := by
  unfold preempt
  split
  · exact Loads.refl x
  next m r _ =>
    split
    · exact Loads.refl x
    · split
      · exact Loads.refl x
      next b _ =>
        split
        next z hz =>
          split
          next h hr hbody =>
            refine ⟨unloaded_putBuf x b _, ?_⟩
            have hput : outstanding (putBuf x b (some { body := .node m })) + 1 = outstanding x + 0 := by
              have hp := outstanding_putBuf x b (some { body := .node m })
              rw [hosts, hz, isHostBuf, hbody] at hp
              exact hp
            have hrest := outstanding_hostQ (putBuf x b (some { body := .node m })) ({ h with attempts := z.attempts } :: x.hostQ)
            rw [hostQ_putBuf, List.length_cons] at hrest
            exact Nat.add_right_cancel (hrest.trans (by omega))
          · exact Loads.refl x
        · exact Loads.refl x

theorem loads_loadAll (n : Node) (c : Nat) (x : CanCtl) : Loads x (loadAll n c x) := by
  have loads3 := ((loads_loadOne x).trans (loads_loadOne _)).trans (loads_loadOne _)
  exact ((loads3.trans (loads_preempt n c _)).trans (loads_preempt n c _)).trans (loads_preempt n c _)

/-- A buffer whose message stays what it is changes nothing outstanding. -/
theorem loads_putBuf {x : CanCtl} {b : Nat} {v : Option TxBuf} (h : isHostBuf v = isHostBuf (getBuf x b)) : Loads x (putBuf x b v) := by
  have hput := outstanding_putBuf x b v
  rw [hosts, h] at hput
  exact ⟨unloaded_putBuf x b v, Nat.add_right_cancel hput⟩

theorem loads_startTx (n : Node) (c : Nat) (x : CanCtl) : Loads x (startTx n c x) := by
  unfold startTx
  split
  · exact Loads.refl x
  · split
    next b _ =>
      refine loads_putBuf ?_
      cases getBuf x b <;> rfl
    · exact Loads.refl x

theorem loads_unloadNode (x : CanCtl) : Loads x (unloadNode x) := by
  unfold unloadNode
  refine List.foldlRecOn (motive := fun y => Loads x y) _ _ (Loads.refl x) (fun y hy b _ => ?_)
  split
  next hb => exact hy.trans (loads_putBuf (x := y) (v := none) (by rw [hb]; rfl))
  · exact hy

/-- What a controller's engine loads: it and no other changes, and of it the buffers and queues alone. -/
theorem loadBufs_loads (n : Node) (c : Nat) :
    Loads (canOf n c) (canOf (loadBufs n c) c) ∧ loadBufs n c = { n with cans := (loadBufs n c).cans } := by
  unfold loadBufs
  split
  · refine ⟨?_, rfl⟩
    rw [canOf_modCan_self]
    refine Loads.trans ?_ (loads_startTx n c _)
    split
    · exact (loads_unloadNode _).trans (loads_loadAll n c { unloadNode (canOf n c) with nodeQ := [] })
    · exact loads_loadAll n c _
  · exact ⟨Loads.refl _, rfl⟩

theorem loadBufs_of_not_sends {n : Node} {c : Nat} (h : canSends (canOf n c) = false) : loadBufs n c = n := by
  rw [loadBufs, h]
  rfl

end Sys2Proof.Machine
end

section
/-! PROOF. What the operations of one CAN controller leave of the node, and the end of a loaded buffer (13 R308, R310). -/

namespace Sys2Proof.Machine

/-! What the operations of one controller leave -/

/-- u differs from n in controller c, in its page's header and in what a record may change. -/
def CtlFrame (c : Nat) (n u : Node) : Prop :=
  ∃ r l h d q cs, u = { n with rec_ := r, config := { n.config with log := l }, headers := h, dueB := d,
                               power := { n.power with sure := q }, cans := cs } ∧
    (∀ p, p ≠ 0x40 + c → p ≠ 6 → tget {} h p = tget {} n.headers p) ∧ ∀ k, k ≠ c → tget {} cs k = tget {} n.cans k

theorem CtlFrame.refl (c : Nat) (n : Node) : CtlFrame c n n :=
  ⟨_, _, _, _, _, _, rfl, fun _ _ _ => rfl, fun _ _ => rfl⟩

theorem CtlFrame.trans {c : Nat} {n m u : Node} (h : CtlFrame c n m) (k : CtlFrame c m u) : CtlFrame c n u := by
  obtain ⟨r, l, hd, d, q, cs, rfl, hh, hc⟩ := h
  obtain ⟨r', l', hd', d', q', cs', rfl, hh', hc'⟩ := k
  exact ⟨_, _, _, _, _, _, rfl, fun p hp h6 => (hh' p hp h6).trans (hh p hp h6), fun k hk => (hc' k hk).trans (hc k hk)⟩

theorem RecFrame.ctl {n m : Node} (h : RecFrame n m) (c : Nat) : CtlFrame c n m := by
  obtain ⟨r, l, hd, d, q, rfl, hh⟩ := h
  exact ⟨_, _, _, _, _, _, rfl, fun p _ h6 => hh p h6, fun _ _ => rfl⟩

theorem ctl_modCan (n : Node) (c : Nat) (f : CanCtl → CanCtl) : CtlFrame c n (modCan n c f) :=
  ⟨_, _, _, _, _, _, rfl, fun _ _ _ => rfl, fun _ hk => tget_tmod_ne _ _ _ hk⟩

theorem ctl_raise (n : Node) (c b : Nat) : CtlFrame c n (raise n (canPage c) b) :=
  ⟨_, _, _, _, _, _, rfl, fun _ hp _ => tget_tmod_ne _ _ _ hp, fun _ _ => rfl⟩

theorem ctl_raiseB (n : Node) (c p b : Nat) : CtlFrame c n (raiseB n p b) :=
  ⟨_, _, _, _, _, _, rfl, fun _ _ _ => rfl, fun _ _ => rfl⟩

theorem ctl_complete (n : Node) (c : Nat) (m : HostMsg) (attempts status : Nat) (ts : Word) :
    CtlFrame c n (complete n c m attempts status ts) := (ctl_modCan n c _).trans (ctl_raise _ c 4)

theorem ctl_loadBufs (n : Node) (c : Nat) : CtlFrame c n (loadBufs n c) := by
  rw [(loadBufs_loads n c).2]
  exact ⟨_, _, _, _, _, _, rfl, fun _ _ _ => rfl, fun k hk => (keepsCan_loadBufs n c).1 k hk⟩

theorem CtlFrame.canOnly {c : Nat} {n u : Node} (h : CtlFrame c n u) : canOnly c n (settle u) := by
  obtain ⟨r, l, hd, d, q, cs, rfl, hh, hc⟩ := h
  exact ⟨⟨rfl, fun _ _ => rfl⟩, hc, hh⟩

/-- The registers and the commands under way stay, and no interrupt that waits is withdrawn. -/
structure KeepsRegs (n u : Node) : Prop where
  regs : u.regs = n.regs
  cmds : u.cmds = n.cmds
  due : n.dueB <+: u.dueB

theorem KeepsRegs.refl (n : Node) : KeepsRegs n n := ⟨rfl, rfl, List.prefix_rfl⟩

theorem KeepsRegs.trans {n m u : Node} (h : KeepsRegs n m) (k : KeepsRegs m u) : KeepsRegs n u :=
  ⟨k.regs.trans h.regs, k.cmds.trans h.cmds, h.due.trans k.due⟩

theorem keepsRegs_modCan (n : Node) (c : Nat) (f : CanCtl → CanCtl) : KeepsRegs n (modCan n c f) := ⟨rfl, rfl, List.prefix_rfl⟩

theorem keepsRegs_note (n : Node) (r : Rec) : KeepsRegs n (note n r) := ⟨note_regs n r, note_cmds n r, dueB_note n r⟩

theorem keepsRegs_raiseB (n : Node) (p b : Nat) : KeepsRegs n (raiseB n p b) := ⟨rfl, rfl, List.prefix_append _ _⟩

theorem keepsRegs_complete (n : Node) (c : Nat) (m : HostMsg) (attempts status : Nat) (ts : Word) :
    KeepsRegs n (complete n c m attempts status ts) := ⟨rfl, rfl, List.prefix_rfl⟩

theorem keepsRegs_ite {p : Prop} [Decidable p] {n a b : Node} (ha : KeepsRegs n a) (hb : KeepsRegs n b) :
    KeepsRegs n (if p then a else b) := pred_ite ha hb

theorem keepsRegs_endBuf (n : Node) (c b status : Nat) (ts : Word) : KeepsRegs n (endBuf n c b status ts) := by
  unfold endBuf
  split
  · exact KeepsRegs.refl n
  · dsimp only
    split
    · exact (keepsRegs_modCan n c _).trans (keepsRegs_complete _ c _ _ _ _)
    · exact keepsRegs_ite ⟨rfl, rfl, List.prefix_rfl⟩ (keepsRegs_modCan n c _)

theorem keepsRegs_foldl {α : Type} {f : Node → α → Node} (h : ∀ n b, KeepsRegs n (f n b)) (l : List α) (n : Node) :
    KeepsRegs n (l.foldl f n) := foldl_rel KeepsRegs.refl KeepsRegs.trans h l n

theorem keepsRegs_loseArb (n : Node) (c : Nat) (keep : Option Nat) : KeepsRegs n (loseArb n c keep) := by
  refine keepsRegs_foldl (fun m b => ?_) _ n
  split
  · exact keepsRegs_ite (KeepsRegs.refl m)
      (keepsRegs_ite ((keepsRegs_modCan m c _).trans (keepsRegs_endBuf _ c b 4 0)) (keepsRegs_modCan m c _))
  · exact KeepsRegs.refl m

theorem keepsRegs_loadBufs (n : Node) (c : Nat) : KeepsRegs n (loadBufs n c) := by
  rw [(loadBufs_loads n c).2]
  exact ⟨rfl, rfl, List.prefix_rfl⟩

/-! The end of a loaded buffer -/

@[simp] theorem canOf_modTb (n : Node) (f : TimeBase → TimeBase) (k : Nat) : canOf (modTb n f) k = canOf n k := rfl

/-- Of what a completion leaves, all but the completion FIFO is as before. -/
theorem canOf_complete (n : Node) (c : Nat) (m : HostMsg) (attempts status : Nat) (ts : Word) :
    canOf (complete n c m attempts status ts) c = { canOf n c with txc := (canOf n c).txc ++
      [{ tag := m.tag, attempts := sat 15 attempts, status := status, ts := ts, id := idWord m.frame.ide m.frame.id }] } := by
  rw [complete, canOf_raise, canOf_modCan_self]

theorem outstanding_complete (n : Node) (c : Nat) (m : HostMsg) (attempts status : Nat) (ts : Word) :
    outstanding (canOf (complete n c m attempts status ts) c) = outstanding (canOf n c) + 1 := by
  rw [canOf_complete]
  simp only [outstanding, List.length_append, List.length_singleton]
  omega

/-- A buffer that ends is empty; the others stay, and so does what is outstanding, a host message's completion being of it. -/
theorem endBuf_leaves {n : Node} {c b : Nat} (hb : b < 3) (status : Nat) (ts : Word) :
    getBuf (canOf (endBuf n c b status ts) c) b = none ∧
    (∀ d, d < 3 → d ≠ b → getBuf (canOf (endBuf n c b status ts) c) d = getBuf (canOf n c) d) ∧
    outstanding (canOf (endBuf n c b status ts) c) = outstanding (canOf n c) ∧
    (canOf (endBuf n c b status ts) c).hostQ = (canOf n c).hostQ ∧ (canOf (endBuf n c b status ts) c).nodeQ = (canOf n c).nodeQ := by
  unfold endBuf
  split
  next hnone => exact ⟨hnone, fun _ _ _ => rfl, rfl, rfl, rfl⟩
  next z hz =>
    have hself := getBuf_putBuf_self (canOf n c) b none
    have hne : ∀ d, d < 3 → d ≠ b → getBuf (putBuf (canOf n c) b none) d = getBuf (canOf n c) d :=
      fun d hd hdb => getBuf_putBuf_ne hb hd hdb _ _
    have hq := hostQ_putBuf (canOf n c) b none
    have hnq : (putBuf (canOf n c) b none).nodeQ = (canOf n c).nodeQ := by
      unfold putBuf
      split
      · rfl
      · split <;> rfl
    have hout := outstanding_putBuf (canOf n c) b none
    rw [hosts, hz] at hout
    dsimp only
    split
    next m r hbody =>
      rw [isHostBuf, hbody] at hout
      rw [outstanding_complete, canOf_complete, canOf_modCan_self]
      exact ⟨hself, hne, hout, hq, hnq⟩
    next m hbody =>
      rw [isHostBuf, hbody] at hout
      refine pred_ite (P := fun u : Node => getBuf (canOf u c) b = none ∧
        (∀ d, d < 3 → d ≠ b → getBuf (canOf u c) d = getBuf (canOf n c) d) ∧ outstanding (canOf u c) = outstanding (canOf n c) ∧
        (canOf u c).hostQ = (canOf n c).hostQ ∧ (canOf u c).nodeQ = (canOf n c).nodeQ) ?_ ?_
      · rw [canOf_modTb, canOf_modCan_self]
        exact ⟨hself, hne, hout, hq, hnq⟩
      · rw [canOf_modCan_self]
        exact ⟨hself, hne, hout, hq, hnq⟩

/-- One buffer's part in the loss of an arbitration. -/
theorem outstanding_loses {m : Node} {c b : Nat} (hb : b < 3) {t : TxBuf} (ht : getBuf (canOf m c) b = some t) :
    outstanding (canOf (if t.flushed then endBuf (modCan m c fun x => putBuf x b (some { t with intx := false })) c b 4 0
      else modCan m c fun x => putBuf x b (some { t with intx := false })) c) = outstanding (canOf m c) := by
  have hstop : outstanding (canOf (modCan m c fun x => putBuf x b (some { t with intx := false })) c) = outstanding (canOf m c) := by
    rw [canOf_modCan_self]
    exact (loads_putBuf (by rw [ht]; rfl)).2
  split
  · exact (endBuf_leaves hb 4 0).2.2.1.trans hstop
  · exact hstop

theorem outstanding_loseArb (n : Node) (c : Nat) (keep : Option Nat) :
    outstanding (canOf (loseArb n c keep) c) = outstanding (canOf n c) := by
  refine List.foldlRecOn (motive := fun m => outstanding (canOf m c) = outstanding (canOf n c)) _ _ rfl (fun m hm b hb => ?_)
  split
  next t ht =>
    split
    · exact hm
    · exact (outstanding_loses (List.mem_range.mp hb) ht).trans hm
  · exact hm

end Sys2Proof.Machine
end

section
/-! PROOF. POP and the commands of CAN_CTRL (13 R305, R306, R311). -/

namespace Sys2Proof.Machine

/-! FLUSH -/

/-- What FLUSH leaves in a buffer of the host: the one in transmission, taken by it. -/
def Flushed (i : Option Nat) (x : CanCtl) (b : Nat) : Prop :=
  ∀ z, getBuf x b = some z → isHostBuf (some z) = true → i = some b ∧ z.intx = true ∧ z.flushed = true

/-- No host message waits, and every host buffer is the one in transmission. -/
def Drained (i : Option Nat) (x : CanCtl) : Prop := x.hostQ = [] ∧ ∀ b, b < 3 → Flushed i x b

theorem Flushed.of_getBuf {i : Option Nat} {x y : CanCtl} {b : Nat} (h : Flushed i x b) (hy : getBuf y b = getBuf x b) :
    Flushed i y b := fun z hz hh => h z (hy ▸ hz) hh

theorem Drained.putNode {i : Option Nat} {x : CanCtl} (h : Drained i x) {b : Nat} (hb : b < 3) {v : Option TxBuf}
    (hv : isHostBuf v = false) : Drained i (putBuf x b v) := by
  obtain ⟨hq, hbuf⟩ := h
  refine ⟨(hostQ_putBuf x b v).trans hq, fun d hd => ?_⟩
  by_cases hdb : d = b
  · subst hdb
    intro z hz hh
    rw [getBuf_putBuf_self] at hz
    rw [← hz, hv] at hh
    exact nomatch hh
  · exact (hbuf d hd).of_getBuf (getBuf_putBuf_ne hb hd hdb x v)

theorem freeBuf_lt {x : CanCtl} {b : Nat} (h : freeBuf x = some b) : b < 3 := by
  unfold freeBuf at h
  split at h
  · simp only [Option.ite_none_right_eq_some, Option.some.injEq] at h
    obtain ⟨-, rfl⟩ := h
    exact Nat.mod_lt _ (by decide)
  · exact List.mem_range.mp (List.mem_of_find?_eq_some h)

theorem drained_loadOne {i : Option Nat} {x : CanCtl} (h : Drained i x) : Drained i (loadOne x) := by
  unfold loadOne
  split
  · exact h
  next b hb =>
    split
    · exact h.putNode (freeBuf_lt hb) rfl
    · rw [h.1]
      exact h

/-- No node message takes the place of a buffer in transmission. -/
theorem preempt_of_drained {i : Option Nat} {x : CanCtl} (h : Drained i x) (n : Node) (c : Nat) : preempt n c x = x := by
  unfold preempt
  split
  · rfl
  · split
    · rfl
    · split
      · rfl
      next b hb =>
        obtain ⟨hlt, hhost, hnot⟩ := loserBuf_lt hb
        split
        next z hz =>
          have hin := (h.2 b hlt z hz (hz ▸ hhost)).2.1
          rw [hnot z hz] at hin
          exact nomatch hin
        · rfl

theorem drained_loadAll {i : Option Nat} {x : CanCtl} (h : Drained i x) (n : Node) (c : Nat) : Drained i (loadAll n c x) := by
  have h3 := drained_loadOne (drained_loadOne (drained_loadOne h))
  rw [loadAll, preempt_of_drained h3, preempt_of_drained h3, preempt_of_drained h3]
  exact h3

/-- A buffer that begins transmission is one of the node's: that of the host would be in transmission already. -/
theorem drained_startTx {i : Option Nat} {x : CanCtl} (h : Drained i x) (n : Node) (c : Nat) : Drained i (startTx n c x) := by
  unfold startTx
  split
  · exact h
  next hno =>
    split
    next b hb =>
      have hidle : ∀ d, d < 3 → (getBuf x d).any TxBuf.intx = false := fun d hd => by
        have hnone : intxBuf x = none := by simpa using hno
        have hfind := List.find?_eq_none.mp hnone d (List.mem_range.mpr hd)
        exact Bool.eq_false_iff.mpr hfind
      have hlt : b < 3 := by
        unfold offered at hb
        dsimp only at hb
        split at hb
        · have hmem := List.mem_of_find?_eq_some hb
          simp only [List.mem_cons, List.not_mem_nil, or_false] at hmem
          omega
        · exact List.mem_range.mp (List.mem_filter.mp (List.mem_of_find?_eq_some hb)).1
      refine h.putNode hlt ?_
      cases hz : getBuf x b with
      | none => rfl
      | some z =>
        cases hh : isHostBuf (some z) with
        | false => exact hh
        | true =>
          have hin := (h.2 b hlt z hz hh).2.1
          have hout := hidle b hlt
          rw [hz, Option.any_some, hin] at hout
          exact nomatch hout
    · exact h

theorem drained_unloadNode {i : Option Nat} {x : CanCtl} (h : Drained i x) : Drained i (unloadNode x) := by
  unfold unloadNode
  refine List.foldlRecOn (motive := Drained i) _ _ h (fun y hy b hb => ?_)
  have hlt : b < 3 := by
    simp only [List.mem_cons, List.not_mem_nil, or_false] at hb
    omega
  split
  · exact hy.putNode hlt rfl
  · exact hy

theorem drained_loadBufs {i : Option Nat} {n : Node} {c : Nat} (h : Drained i (canOf n c)) : Drained i (canOf (loadBufs n c) c) := by
  unfold loadBufs
  split
  · rw [canOf_modCan_self]
    refine drained_startTx ?_ n c
    split
    · exact drained_loadAll (x := { unloadNode (canOf n c) with nodeQ := [] }) (drained_unloadNode h) n c
    · exact drained_loadAll h n c
  · exact h

/-- FLUSH's part on one buffer. -/
def flushBuf (c : Nat) (intx : Option Nat) (n : Node) (b : Nat) : Node :=
  if isHostBuf (getBuf (canOf n c) b) then
    if intx = some b then
      modCan n c (fun x => putBuf x b ((getBuf x b).map (fun t => { t with intx := true, flushed := true })))
    else endBuf n c b 4 0
  else n

theorem flushBuf_leaves {c b : Nat} (hb : b < 3) (intx : Option Nat) (n : Node) :
    Flushed intx (canOf (flushBuf c intx n b) c) b ∧
    (∀ d, d < 3 → d ≠ b → getBuf (canOf (flushBuf c intx n b) c) d = getBuf (canOf n c) d) ∧
    outstanding (canOf (flushBuf c intx n b) c) = outstanding (canOf n c) := by
  unfold flushBuf
  split
  · split
    next hi =>
      rw [canOf_modCan_self]
      refine ⟨fun z hz _ => ?_, fun d hd hdb => getBuf_putBuf_ne hb hd hdb _ _, (loads_putBuf ?_).2⟩
      · rw [getBuf_putBuf_self, Option.map_eq_some_iff] at hz
        obtain ⟨w, -, rfl⟩ := hz
        exact ⟨hi, rfl, rfl⟩
      · cases getBuf (canOf n c) b <;> rfl
    · obtain ⟨hself, hne, hout, -⟩ := endBuf_leaves (n := n) (c := c) hb 4 0
      refine ⟨fun z hz _ => ?_, hne, hout⟩
      rw [hself] at hz
      exact nomatch hz
  next hno =>
    refine ⟨fun z hz hh => ?_, fun _ _ _ => rfl, rfl⟩
    rw [hz] at hno
    exact absurd hh hno

theorem keepsRegs_flushBuf (c : Nat) (intx : Option Nat) (n : Node) (b : Nat) : KeepsRegs n (flushBuf c intx n b) :=
  keepsRegs_ite (keepsRegs_ite (keepsRegs_modCan n c _) (keepsRegs_endBuf n c b 4 0)) (KeepsRegs.refl n)

theorem keepsCan_flushBuf (c : Nat) (intx : Option Nat) (n : Node) (b : Nat) : KeepsCan c n (flushBuf c intx n b) :=
  KeepsCan.ite (KeepsCan.ite (keepsCan_modCan n c (confinement_putBuf _ b _)) (keepsCan_endBuf n c b 4 0)) (KeepsCan.refl c n)

/-- FLUSH's part on the buffers, and then on the host queue. -/
def flushBufs (n : Node) (c : Nat) (intx : Option Nat) : Node :=
  (List.range 3).foldl (flushBuf c intx) (if intx.isSome then loseArb n c intx else n)
def flushQueue (n : Node) (c : Nat) : Node :=
  (canOf n c).hostQ.foldl (fun n m => complete n c m m.attempts 4 0) (modCan n c (fun x => { x with hostQ := [] }))

theorem flush_eq (n : Node) (c : Nat) (intx : Option Nat) : flush n c intx = loadBufs (flushQueue (flushBufs n c intx) c) c := rfl

theorem flushBufs_leaves (n : Node) (c : Nat) (intx : Option Nat) :
    (∀ b, b < 3 → Flushed intx (canOf (flushBufs n c intx) c) b) ∧ outstanding (canOf (flushBufs n c intx) c) = outstanding (canOf n c) ∧
    KeepsRegs n (flushBufs n c intx) ∧ KeepsCan c n (flushBufs n c intx) := by
  have hstart : outstanding (canOf (if intx.isSome then loseArb n c intx else n) c) = outstanding (canOf n c) ∧
      KeepsRegs n (if intx.isSome then loseArb n c intx else n) ∧ KeepsCan c n (if intx.isSome then loseArb n c intx else n) :=
    pred_ite (P := fun u => outstanding (canOf u c) = outstanding (canOf n c) ∧ KeepsRegs n u ∧ KeepsCan c n u)
      ⟨outstanding_loseArb n c intx, keepsRegs_loseArb n c intx, keepsCan_loseArb n c intx⟩ ⟨rfl, KeepsRegs.refl n, KeepsCan.refl c n⟩
  rw [flushBufs]
  generalize (if intx.isSome then loseArb n c intx else n) = m at hstart
  obtain ⟨hout, hregs, hcan⟩ := hstart
  refine ⟨?_, ?_, hregs.trans (keepsRegs_foldl (keepsRegs_flushBuf c intx) _ m), hcan.trans (KeepsCan.foldl (keepsCan_flushBuf c intx) _ m)⟩
  all_goals
    have h0 := flushBuf_leaves (c := c) (b := 0) (by decide) intx m
    have h1 := flushBuf_leaves (c := c) (b := 1) (by decide) intx (flushBuf c intx m 0)
    have h2 := flushBuf_leaves (c := c) (b := 2) (by decide) intx (flushBuf c intx (flushBuf c intx m 0) 1)
  · intro b hb
    show Flushed intx (canOf (flushBuf c intx (flushBuf c intx (flushBuf c intx m 0) 1) 2) c) b
    interval_cases b
    · exact (h0.1.of_getBuf (h1.2.1 0 (by decide) (by decide))).of_getBuf (h2.2.1 0 (by decide) (by decide))
    · exact h1.1.of_getBuf (h2.2.1 1 (by decide) (by decide))
    · exact h2.1
  · exact ((h2.2.2.trans h1.2.2).trans h0.2.2).trans hout

theorem completes_leaves (c : Nat) (l : List HostMsg) (n : Node) :
    outstanding (canOf (l.foldl (fun n m => complete n c m m.attempts 4 0) n) c) = outstanding (canOf n c) + l.length ∧
    KeepsRegs n (l.foldl (fun n m => complete n c m m.attempts 4 0) n) ∧
    { canOf (l.foldl (fun n m => complete n c m m.attempts 4 0) n) c with txc := [] } = { canOf n c with txc := [] } := by
  refine ⟨?_, keepsRegs_foldl (fun n m => keepsRegs_complete n c m _ _ _) l n,
    foldl_same (g := fun k => { canOf k c with txc := [] }) (f := fun n m => complete n c m m.attempts 4 0)
      (fun n m => by rw [canOf_complete]) l n⟩
  induction l generalizing n with
  | nil => rfl
  | cons m r ih =>
    rw [List.foldl_cons, ih, outstanding_complete, List.length_cons]
    omega

/-- FLUSH (13 R311): what it leaves of the controller and of the node. -/
theorem flush_leaves (n : Node) (c : Nat) (intx : Option Nat) :
    KeepsRegs n (flush n c intx) ∧ KeepsCan c n (flush n c intx) ∧ Drained intx (canOf (flush n c intx) c) ∧
    outstanding (canOf (flush n c intx) c) = outstanding (canOf n c) := by
  obtain ⟨hbufs, hout, hregs, hcan⟩ := flushBufs_leaves n c intx
  rw [flush_eq]
  generalize flushBufs n c intx = m at hbufs hout hregs hcan
  obtain ⟨hsum, hkregs, hsame⟩ := completes_leaves c (canOf m c).hostQ (modCan m c (fun x => { x with hostQ := [] }))
  have hkcan : KeepsCan c m (flushQueue m c) :=
    (keepsCan_modCan m c rfl).trans (foldl_rel (KeepsCan.refl c) KeepsCan.trans (fun n h => keepsCan_complete n c h _ _ _) _ _)
  rw [canOf_modCan_self] at hsame hsum
  have hqueue : KeepsRegs m (flushQueue m c) := (keepsRegs_modCan m c _).trans hkregs
  have houtq : outstanding (canOf (flushQueue m c) c) = outstanding (canOf m c) := by
    have hq := outstanding_hostQ (canOf m c) []
    rw [List.length_nil, Nat.add_zero] at hq
    exact hsum.trans hq
  have hdrained : Drained intx (canOf (flushQueue m c) c) := by
    refine ⟨congrArg CanCtl.hostQ hsame, fun b hb => (hbufs b hb).of_getBuf ?_⟩
    have hbuf := congrArg (fun x => getBuf x b) hsame
    exact hbuf
  generalize flushQueue m c = u at *
  exact ⟨(hregs.trans hqueue).trans (keepsRegs_loadBufs u c), (hcan.trans hkcan).trans (keepsCan_loadBufs u c),
    drained_loadBufs hdrained, ((loadBufs_loads u c).1.2.trans houtq).trans hout⟩

/-! The words of CAN_CTRL, as the register takes them apart -/

theorem canCtrlWord_fields {op : Nat} (ho : op < 16) (prio : Bool) (retry : Nat) :
    fld (canCtrlWord op prio retry) 15 12 = op ∧ bit (canCtrlWord op prio retry) 8 = prio ∧
    fld (canCtrlWord op prio retry) 4 0 = retry % 32 := by
  have hn : (canCtrlWord op prio retry).toNat = op * 4096 + b2n prio * 256 + retry % 32 := by
    have hp : b2n prio < 2 := by cases prio <;> decide
    simp only [canCtrlWord, pack, packN, List.foldl_cons, List.foldl_nil, BitVec.toNat_ofNat]
    omega
  have hbit : fld (canCtrlWord op prio retry) 8 8 = b2n prio := by
    have hp : b2n prio < 2 := by cases prio <;> decide
    simp only [fld, hn, Nat.shiftRight_eq_div_pow]
    omega
  refine ⟨?_, ?_, ?_⟩
  · have hp : b2n prio < 2 := by cases prio <;> decide
    simp only [fld, hn, Nat.shiftRight_eq_div_pow]
    omega
  · have htest : bit (canCtrlWord op prio retry) 8 = decide (fld (canCtrlWord op prio retry) 8 8 = 1) := by
      simp only [bit, fld, BitVec.getLsbD, Nat.testBit_eq_decide_div_mod_eq, Nat.shiftRight_eq_div_pow]
      rfl
    rw [htest, hbit]
    cases prio <;> rfl
  · simp only [fld, hn, Nat.shiftRight_eq_div_pow]
    cases prio <;> simp only [b2n] <;> omega

/-- TXPRIO and RETRY as the word gives them. -/
def takeCtrl (prio : Bool) (retry : Nat) (x : CanCtl) : CanCtl := { x with txprio := prio, retry := retry % 32 }

theorem acceptCmd_cans (n : Node) (path p off : Nat) (v : Word) : (acceptCmd n path p off v).cans = n.cans := by
  rw [acceptCmd, touchSession_rest]
  rfl

theorem acceptCmd_regs (n : Node) (path p off : Nat) (v : Word) : (acceptCmd n path p off v).regs = n.regs := by
  rw [acceptCmd, touchSession_rest]
  rfl

theorem canOf_acceptCmd (n : Node) (path p off : Nat) (v : Word) (k : Nat) : canOf (acceptCmd n path p off v) k = canOf n k :=
  congrArg (fun l => tget ({} : CanCtl) l k) (acceptCmd_cans n path p off v)

/-- A record, made or not, reaches no controller. -/
theorem canOf_noteIf (b : Bool) (n : Node) (r : Rec) (k : Nat) : canOf (noteIf b n r) k = canOf n k :=
  pred_ite (P := fun m => canOf m k = canOf n k) (canOf_note n r k) rfl

theorem modCan_modCan (n : Node) (c : Nat) (f g : CanCtl → CanCtl) : modCan (modCan n c f) c g = modCan n c (fun x => g (f x)) := by
  simp only [modCan, tmod, tget_tset_self, tset_tset]

/-- An accepted CAN_CTRL runs on the node with the command accepted. -/
theorem acts_canCtrl {i : Instr} {t c op retry : Nat} {prio : Bool} {intx : Option Nat} {s : State} {P : Node → Node → Prop}
    (hc : c < 24)
    (he : exec i s = .next (onCan s t c (fun n => canCtrlWrite n hostPath c (canCtrlWord op prio retry) intx)))
    (hok : judge (atInstant s t) hostPath (0x40 + c) (canCtrlCheck s.node (canCtrlWord op prio retry)) = .accept)
    (h : ∀ a u, a = acceptCmd (atInstant s t) hostPath (0x40 + c) (at_ (0x40 + c) 0x50) (canCtrlWord op prio retry) →
      u = resolveCmd (canCtrlEff c (canCtrlWord op prio retry) intx a).1 (0x40 + c) (canCtrlEff c (canCtrlWord op prio retry) intx a).2 →
      P (atInstant s t) (settle u)) : Acts i s t P := by
  refine acts_onCan hc he (h _ _ rfl ?_)
  exact runCommand_accept (k := canCtrlCheck s.node (canCtrlWord op prio retry)) hok _

@[simp] theorem canOf_resolveCmd (n : Node) (p : Nat) (b : Option Bool) (k : Nat) : canOf (resolveCmd n p b) k = canOf n k := rfl

theorem resolveCmd_modCan_signals (a : Node) (c p : Nat) (f : CanCtl → CanCtl) (b : Option Bool) :
    SameButSignals (settle (resolveCmd (modCan a c f) p b)) { resolveCmd a p b with
      cans := (settle (resolveCmd (modCan a c f) p b)).cans } := rfl

/-- A record and then changes of the one controller, under a command accepted. -/
theorem canCtrl_leaves {n a : Node} {c op : Nat} {v : Word} (r : Rec) (b : Bool) (f : CanCtl → CanCtl)
    (ha : a = acceptCmd n hostPath (0x40 + c) (at_ (0x40 + c) 0x50) v) :
    SameButRecords (settle (resolveCmd (modCan (noteIf (decide (op ≠ 0)) a r) c f) (0x40 + c) (some b)))
      { accepted n hostPath (0x40 + c) (at_ (0x40 + c) 0x50) v (some b) with
        cans := (settle (resolveCmd (modCan (noteIf (decide (op ≠ 0)) a r) c f) (0x40 + c) (some b))).cans } ∧
    (∀ k, k ≠ c → canOf (settle (resolveCmd (modCan (noteIf (decide (op ≠ 0)) a r) c f) (0x40 + c) (some b))) k = canOf n k) ∧
    canOf (settle (resolveCmd (modCan (noteIf (decide (op ≠ 0)) a r) c f) (0x40 + c) (some b))) c = f (canOf n c) := by
  have hrec : RecFrame a (noteIf (decide (op ≠ 0)) a r) := recFrame_ite (recFrame_note a r) (recFrame_refl a)
  have hcans : ∀ k, canOf a k = canOf n k := fun k => by rw [ha, canOf_acceptCmd]
  obtain ⟨r', l, hd, d, q, he, hh⟩ := hrec
  rw [he, accepted, ← ha]
  refine ⟨⟨rfl, hh⟩, fun k hk => ?_, ?_⟩
  · exact (canOf_modCan_ne _ c f hk).trans (hcans k)
  · exact (canOf_modCan_self _ c f).trans (congrArg f (hcans c))

/-! What each operation takes up -/

theorem canCtrlEff_none (a : Node) (c : Nat) (prio : Bool) (retry : Nat) (intx : Option Nat) :
    canCtrlEff c (canCtrlWord 0 prio retry) intx a =
      (modCan a c (takeCtrl prio retry), some true) := by
  obtain ⟨hop, hp, hr⟩ := canCtrlWord_fields (op := 0) (by decide) prio retry
  simp only [canCtrlEff, hop, hp, hr]
  rfl

theorem canCtrlEff_recover {a : Node} {c : Nat} (h : (canOf a c).state = .busOff) (prio : Bool) (retry : Nat) (intx : Option Nat) :
    canCtrlEff c (canCtrlWord 1 prio retry) intx a =
      (modCan (noteIf (decide (1 ≠ 0)) a (recComm a 8 c (canCtrlWord 1 prio retry))) c
        (fun x => { takeCtrl prio retry x with state := .recovering }), some true) := by
  obtain ⟨hop, hp, hr⟩ := canCtrlWord_fields (op := 1) (by decide) prio retry
  have hx : canOf (noteIf (decide (1 ≠ 0)) a (recComm a 8 c (canCtrlWord 1 prio retry))) c = canOf a c := canOf_noteIf _ a _ c
  simp only [canCtrlEff, hop, hp, hr, hx, h, ne_eq, not_true_eq_false, and_false, if_false, modCan_modCan]
  rfl

theorem canCtrlEff_notOff {a : Node} {c : Nat} (h : (canOf a c).state ≠ .busOff) (prio : Bool) (retry : Nat) (intx : Option Nat) :
    canCtrlEff c (canCtrlWord 1 prio retry) intx a = (note a (recComm a 8 c (canCtrlWord 1 prio retry)), some false) := by
  obtain ⟨hop, hp, hr⟩ := canCtrlWord_fields (op := 1) (by decide) prio retry
  have hx : canOf (noteIf (decide (1 ≠ 0)) a (recComm a 8 c (canCtrlWord 1 prio retry))) c = canOf a c := canOf_noteIf _ a _ c
  simp only [canCtrlEff, hop, hx]
  rw [if_pos ⟨trivial, h⟩]
  rfl

theorem canCtrlEff_clear (a : Node) (c : Nat) (prio : Bool) (retry : Nat) (intx : Option Nat) :
    canCtrlEff c (canCtrlWord 3 prio retry) intx a =
      (modCan (noteIf (decide (3 ≠ 0)) a (recComm a 8 c (canCtrlWord 3 prio retry))) c (fun x => canClear (takeCtrl prio retry x)),
        some true) := by
  obtain ⟨hop, hp, hr⟩ := canCtrlWord_fields (op := 3) (by decide) prio retry
  simp only [canCtrlEff, hop, hp, hr]
  rw [if_neg (fun h => absurd h.1 (by decide)), modCan_modCan]
  rfl

/-! POP -/

theorem unlocked_open {n : Node} {p : Nat} (h : (headerOf n p).locked = false) (path : Nat) (f : Node → Node) :
    unlocked n path p f = f n := by
  rw [unlocked, h]
  rfl

theorem unlocked_locked {n : Node} {p : Nat} (h : (headerOf n p).locked = true) (path : Nat) (f : Node → Node) :
    unlocked n path p f = lockedWrite n path p := by
  rw [unlocked, h]
  rfl

theorem canOf_canPop (n : Node) (c fifo : Nat) : canOf (canPop n c fifo) c = (match fifo with
    | 0 => { canOf n c with fifoA := (canOf n c).fifoA.tail }
    | 1 => { canOf n c with fifoB := (canOf n c).fifoB.tail }
    | 2 => { canOf n c with hpb := (canOf n c).hpb.tail }
    | _ => canOf n c) := by
  rw [canPop, canOf_modCan_self]
  match fifo with
  | 0 => rfl
  | 1 => rfl
  | 2 => rfl
  | k + 3 => rfl

theorem acts_canRxPop {t c fifo : Nat} {s : State} (hc : c < 24) (hopen : (headerOf s.node (0x40 + c)).locked = false) :
    Acts (.canRxPop t c fifo) s t (fun n u => SameButSignals u { n with cans := u.cans } ∧
        (∀ k, k ≠ c → canOf u k = canOf n k) ∧
        canOf u c = (match fifo with
          | 0 => { canOf n c with fifoA := (canOf n c).fifoA.tail }
          | 1 => { canOf n c with fifoB := (canOf n c).fifoB.tail }
          | 2 => { canOf n c with hpb := (canOf n c).hpb.tail }
          | _ => canOf n c) ∧
        (fifo = 2 → (canOf n c).hpb.tail ≠ [] → hpbEnabled n c = true → (vectorOf n (40 + c)).masked = false →
          .msix (40 + c) ∈ u.outs)) := by
  have hthen : (headerOf (atInstant s t) (canPage c)).locked = false := hopen
  have hexec : exec (.canRxPop t c fifo) s =
      .next { s with node := settleWith (if fifo = 2 then popAgain s.node c else []) (canPop (atInstant s t) c fifo) } := by
    have hrun : (if c < 24 then unlocked (atInstant s t) hostPath (canPage c) (fun n => canPop n c fifo) else atInstant s t) =
        canPop (atInstant s t) c fifo := by
      rw [if_pos hc, unlocked_open hthen]
    rw [← hrun]
    rfl
  refine acts_settleWith _ _ hexec ⟨rfl, fun k hk => onlyCan_canPop _ c fifo k hk, canOf_canPop _ c fifo,
    fun h2 hleft hien hmask => ?_⟩
  subst h2
  have hcond : condition (canPop (atInstant s t) c 2) (40 + c) = true := by
    rw [condition_hpb_iff _ hc, hpb_canPop, canReg_canPop, ← hpbEnabled_eq _ hc]
    exact ⟨hleft, hien⟩
  have hagain : 40 + c ∈ (if 2 = 2 then popAgain s.node c else []) := by
    have hs : (headerOf s.node (canPage c)).locked = false := hopen
    rw [if_pos rfl, popAgain, hs]
    exact List.mem_singleton_self _
  exact msix_mem_outs_of_again (by omega) hagain hcond hmask

/-- A POP on a locked page is discarded (02 R42). -/
theorem lockedWrite_leaves (n : Node) (p : Nat) : SameButSignals (settle (lockedWrite n hostPath p)) { n with
      seqs := (settle (lockedWrite n hostPath p)).seqs } ∧
    seqOf (settle (lockedWrite n hostPath p)) hostPath p = { seqOf n hostPath p with cmdRes := 8 } :=
  ⟨rfl, seqOf_modSeq_self n hostPath p (fun q => { q with cmdRes := 8 })⟩

theorem popAgain_locked {n : Node} {c : Nat} (h : (headerOf n (0x40 + c)).locked = true) (fifo : Nat) :
    (if fifo = 2 then popAgain n c else []) = [] := by
  have hl : (headerOf n (canPage c)).locked = true := h
  rw [popAgain, hl, if_pos rfl]
  split <;> rfl

theorem exec_canRxPop_locked {t c fifo : Nat} {s : State} (hc : c < 24) (h : (headerOf s.node (0x40 + c)).locked = true) :
    exec (.canRxPop t c fifo) s = .next { s with node := settle (lockedWrite (atInstant s t) hostPath (0x40 + c)) } := by
  have hthen : (headerOf (atInstant s t) (canPage c)).locked = true := h
  have hrun : (if c < 24 then unlocked (atInstant s t) hostPath (canPage c) (fun n => canPop n c fifo) else atInstant s t) =
      lockedWrite (atInstant s t) hostPath (0x40 + c) := by
    rw [if_pos hc, unlocked_locked hthen]
    rfl
  have hsettle : ∀ m, settle m = settleWith (if fifo = 2 then popAgain s.node c else []) m := fun m => by
    rw [popAgain_locked h]
    rfl
  rw [hsettle, ← hrun]
  rfl

/-! The statement -/

theorem acts_canFlush {t c retry : Nat} {prio : Bool} {intx : Option Nat} {s : State} (hc : c < 24)
    (hok : judge (atInstant s t) hostPath (0x40 + c) (canCtrlCheck s.node (canCtrlWord 2 prio retry)) = .accept) :
    Acts (.canFlush t c prio retry intx) s t (fun n u =>
      u.regs = n.regs ∧ (∀ k, k ≠ c → canOf u k = canOf n k) ∧
      cmdOf u (0x40 + c) = cmdOf (accepted (atInstant s t) hostPath (0x40 + c) (at_ (0x40 + c) 0x50) (canCtrlWord 2 prio retry)
        (some true)) (0x40 + c) ∧ (canOf u c).hostQ = [] ∧
      (∀ b z, b < 3 → getBuf (canOf u c) b = some z → isHostBuf (some z) = true → intx = some b ∧ z.flushed = true) ∧
      outstanding (canOf u c) = outstanding (canOf n c) ∧ (canOf u c).tec = (canOf n c).tec) := by
  refine acts_canCtrl hc rfl hok (fun a u ha hu => ?_)
  obtain ⟨hop, hp, hr⟩ := canCtrlWord_fields (op := 2) (by decide) prio retry
  have hcans : ∀ k, canOf a k = canOf (atInstant s t) k := fun k => by rw [ha, canOf_acceptCmd]
  have haregs : a.regs = (atInstant s t).regs := by rw [ha, acceptCmd_regs]
  have hacc : accepted (atInstant s t) hostPath (0x40 + c) (at_ (0x40 + c) 0x50) (canCtrlWord 2 prio retry) (some true) =
      resolveCmd a (0x40 + c) (some true) := by rw [ha]; rfl
  rw [hacc]
  generalize atInstant s t = n at hcans haregs
  have hnote : KeepsRegs a (noteIf (decide (fld (canCtrlWord 2 prio retry) 15 12 ≠ 0)) a (recComm a 8 c (canCtrlWord 2 prio retry))) :=
    keepsRegs_ite (keepsRegs_note a _) (KeepsRegs.refl a)
  have hnoted : ∀ k, canOf (noteIf (decide (fld (canCtrlWord 2 prio retry) 15 12 ≠ 0)) a
      (recComm a 8 c (canCtrlWord 2 prio retry))) k = canOf n k := fun k => (canOf_noteIf _ a _ k).trans (hcans k)
  simp only [canCtrlEff, hop] at hu
  rw [if_neg (fun h => absurd h.1 (by decide))] at hu
  rw [hop] at hnote hnoted
  generalize noteIf (decide (2 ≠ 0)) a (recComm a 8 c (canCtrlWord 2 prio retry)) = m at hu hnote hnoted
  dsimp only at hu
  have hset := onlyCan_modCan m c
    (fun x => { x with txprio := bit (canCtrlWord 2 prio retry) 8, retry := fld (canCtrlWord 2 prio retry) 4 0 })
  have hself := canOf_modCan_self m c
    (fun x => { x with txprio := bit (canCtrlWord 2 prio retry) 8, retry := fld (canCtrlWord 2 prio retry) 4 0 })
  have hkeep := keepsRegs_modCan m c
    (fun x => { x with txprio := bit (canCtrlWord 2 prio retry) 8, retry := fld (canCtrlWord 2 prio retry) 4 0 })
  have hout := congrArg outstanding hself
  have htec := congrArg CanCtl.tec hself
  generalize modCan m c
    (fun x => { x with txprio := bit (canCtrlWord 2 prio retry) 8, retry := fld (canCtrlWord 2 prio retry) 4 0 }) = k at *
  obtain ⟨hregs, hcan, ⟨hq, hflushed⟩, hsum⟩ := flush_leaves k c intx
  generalize flush k c intx = w at *
  have hall := (hnote.trans hkeep).trans hregs
  have hcansu : ∀ j, canOf (settle u) j = canOf w j := fun j => by rw [hu]; rfl
  refine ⟨?_, fun j hj => ?_, ?_, ?_, fun b z hb hz hh => ?_, ?_, ?_⟩
  · rw [hu]
    exact hall.regs.trans haregs
  · rw [hcansu, hcan.1 j hj, hset j hj, hnoted]
  · rw [hu]
    show cmdOf (resolveCmd w _ _) _ = _
    simp only [resolveCmd, cmdOf, setCmd, hall.cmds]
  · rw [hcansu, hq]
  · rw [hcansu] at hz
    obtain ⟨hi, -, hf⟩ := hflushed b hb z hz hh
    exact ⟨hi, hf⟩
  · rw [hcansu, hsum]
    refine hout.trans ?_
    rw [hnoted]
    rfl
  · have htecw := congrArg Confinement.tec hcan.2
    rw [hcansu]
    refine htecw.trans (htec.trans ?_)
    rw [hnoted]

theorem acts_canTxcPop {t c : Nat} {s : State} (hc : c < 24) (hopen : (headerOf s.node (0x40 + c)).locked = false) :
    Acts (.canTxcPop t c) s t (fun n u => SameButSignals u { n with cans := u.cans } ∧
        (∀ k, k ≠ c → canOf u k = canOf n k) ∧ canOf u c = { canOf n c with txc := (canOf n c).txc.tail }) := by
  have hthen : (headerOf (atInstant s t) (canPage c)).locked = false := hopen
  refine acts_onCan hc (f := fun n => unlocked n hostPath (canPage c) (fun n => modCan n c (fun x => { x with txc := x.txc.tail }))) rfl ?_
  rw [unlocked_open hthen]
  generalize atInstant s t = n
  exact ⟨rfl, fun k hk => canOf_modCan_ne _ c (fun x => { x with txc := x.txc.tail }) hk,
    canOf_modCan_self _ c (fun x => { x with txc := x.txc.tail })⟩

theorem acts_pop_locked {i : Instr} {t c fifo : Nat} {s : State} (hc : c < 24) (hlocked : (headerOf s.node (0x40 + c)).locked = true)
    (hi : i ∈ [Instr.canRxPop t c fifo, .canTxcPop t c]) : Acts i s t (fun n u => SameButSignals u { n with seqs := u.seqs } ∧
      seqOf u hostPath (0x40 + c) = { seqOf n hostPath (0x40 + c) with cmdRes := 8 }) := by
  have hthen : (headerOf (atInstant s t) (canPage c)).locked = true := hlocked
  have hpop : exec (.canTxcPop t c) s = .next { s with node := settle (lockedWrite (atInstant s t) hostPath (0x40 + c)) } := by
    have hrun : (if c < 24 then unlocked (atInstant s t) hostPath (canPage c) (fun n => modCan n c (fun x => { x with txc := x.txc.tail }))
        else atInstant s t) = lockedWrite (atInstant s t) hostPath (0x40 + c) := by
      rw [if_pos hc, unlocked_locked hthen]
      rfl
    rw [← hrun]
    rfl
  simp only [List.mem_cons, List.not_mem_nil, or_false] at hi
  rcases hi with rfl | rfl
  · exact acts_settleWith [] _ (exec_canRxPop_locked hc hlocked) (lockedWrite_leaves _ _)
  · exact acts_settleWith [] _ hpop (lockedWrite_leaves _ _)

section command
variable {t c retry : Nat} {prio : Bool} {s : State} (hc : c < 24)
include hc

theorem acts_canCtrlNone
    (hok : judge (atInstant s t) hostPath (0x40 + c) (canCtrlCheck s.node (canCtrlWord 0 prio retry)) = .accept) :
    Acts (.canCtrlNone t c prio retry) s t (fun n u =>
      SameButSignals u { accepted n hostPath (0x40 + c) (at_ (0x40 + c) 0x50) (canCtrlWord 0 prio retry) (some true) with
        cans := u.cans } ∧
      (∀ k, k ≠ c → canOf u k = canOf n k) ∧ canOf u c = takeCtrl prio retry (canOf s.node c)) := by
  refine acts_canCtrl hc rfl hok (fun a u ha hu => ?_)
  rw [hu, canCtrlEff_none]
  have hcans : ∀ k, canOf a k = canOf (atInstant s t) k := fun k => by rw [ha, canOf_acceptCmd]
  have hself : canOf (modCan a c (takeCtrl prio retry)) c = takeCtrl prio retry (canOf s.node c) := by
    rw [canOf_modCan_self, hcans c]
    rfl
  rw [accepted, ← ha]
  refine ⟨resolveCmd_modCan_signals a c _ _ _, fun k hk => ?_, ?_⟩
  · rw [canOf_settle, canOf_resolveCmd, canOf_modCan_ne a c _ hk, hcans]
  · rw [canOf_settle, canOf_resolveCmd, hself]

theorem acts_canRecover (hoff : (canOf s.node c).state = .busOff)
    (hok : judge (atInstant s t) hostPath (0x40 + c) (canCtrlCheck s.node (canCtrlWord 1 prio retry)) = .accept) :
    Acts (.canRecover t c prio retry) s t (fun n u =>
      SameButRecords u { accepted n hostPath (0x40 + c) (at_ (0x40 + c) 0x50) (canCtrlWord 1 prio retry) (some true) with
        cans := u.cans } ∧
      (∀ k, k ≠ c → canOf u k = canOf n k) ∧ canOf u c = { takeCtrl prio retry (canOf s.node c) with state := .recovering }) := by
  refine acts_canCtrl hc rfl hok (fun a u ha hu => ?_)
  have hx : (canOf a c).state = .busOff := by
    rw [ha, canOf_acceptCmd]
    exact hoff
  rw [hu, canCtrlEff_recover hx]
  exact canCtrl_leaves (op := 1) _ true (fun x => { takeCtrl prio retry x with state := .recovering }) ha

theorem acts_canRecover_failed (hon : (canOf s.node c).state ≠ .busOff)
    (hok : judge (atInstant s t) hostPath (0x40 + c) (canCtrlCheck s.node (canCtrlWord 1 prio retry)) = .accept) :
    Acts (.canRecover t c prio retry) s t (fun n u =>
      SameButRecords u (accepted n hostPath (0x40 + c) (at_ (0x40 + c) 0x50) (canCtrlWord 1 prio retry) (some false))) := by
  refine acts_canCtrl hc rfl hok (fun a u ha hu => ?_)
  have hx : (canOf a c).state ≠ .busOff := by
    rw [ha, canOf_acceptCmd]
    exact hon
  rw [hu, canCtrlEff_notOff hx]
  obtain ⟨r', l, hd, d, q, he, hh⟩ := recFrame_note a (recComm a 8 c (canCtrlWord 1 prio retry))
  dsimp only
  rw [he, accepted, ← ha]
  exact ⟨rfl, hh⟩

theorem acts_canClear
    (hok : judge (atInstant s t) hostPath (0x40 + c) (canCtrlCheck s.node (canCtrlWord 3 prio retry)) = .accept) :
    Acts (.canClear t c prio retry) s t (fun n u =>
      SameButRecords u { accepted n hostPath (0x40 + c) (at_ (0x40 + c) 0x50) (canCtrlWord 3 prio retry) (some true) with
        cans := u.cans } ∧
      (∀ k, k ≠ c → canOf u k = canOf n k) ∧ canOf u c = canClear (takeCtrl prio retry (canOf s.node c))) := by
  refine acts_canCtrl hc rfl hok (fun a u ha hu => ?_)
  rw [hu, canCtrlEff_clear]
  exact canCtrl_leaves (op := 3) _ true (fun x => canClear (takeCtrl prio retry x)) ha

end command

/-- Settles O51: a command of CAN_CTRL is a change of the one controller under the command accepted; FLUSH ends each host
buffer in turn, the one in transmission apart, and what the engine loads after it comes from the node queue. -/
theorem controllerCommands : Obligations.ControllerCommands := by
  intro t c fifo retry prio intx s hc
  exact ⟨fun hopen => ⟨acts_canRxPop hc hopen, acts_canTxcPop hc hopen⟩, fun hlocked i hi => acts_pop_locked hc hlocked hi,
    acts_canCtrlNone hc, fun hok => ⟨fun hoff => acts_canRecover hc hoff hok, fun hon => acts_canRecover_failed hc hon hok⟩,
    acts_canFlush hc, acts_canClear hc⟩

end Sys2Proof.Machine
end

section
/-! PROOF. Host messages are pushed, sent and completed (13 R308, R310, R312, R316). -/

namespace Sys2Proof.Machine

/-! The headers of a controller's page -/

theorem bit_raise {n : Node} {p b : Nat} (hb : b < 32) : bit (headerOf (raise n p b) p).irqStat b = true := by
  have hirq : (headerOf (raise n p b) p).irqStat = (headerOf n p).irqStat ||| BitVec.ofNat 32 (2 ^ b) :=
    congrArg Header.irqStat (raised_raise n p b)
  rw [hirq, bit, BitVec.getLsbD_or, BitVec.getLsbD_ofNat, Nat.testBit_two_pow_self]
  simp [hb]

/-! Loading -/

/-- A field of a controller that loading does not reach stays. -/
theorem Loads.field {α : Type} {x y : CanCtl} (h : Loads x y) {g : CanCtl → α} (hg : ∀ z, g (unloaded z) = g z) : g y = g x := by
  rw [← hg y, h.1, hg x]

theorem headerOf_loadBufs (n : Node) (c p : Nat) : headerOf (loadBufs n c) p = headerOf n p := by
  rw [(loadBufs_loads n c).2]
  rfl

/-! A push -/

theorem canPush_taken {n : Node} {c : Nat} (h : pushOk n c = true) : CtlFrame c n (canPush n c) ∧
    outstanding (canOf (canPush n c) c) = outstanding (canOf n c) + 1 ∧ (canOf (canPush n c) c).txc = (canOf n c).txc ∧
    (canOf (canPush n c) c).rejs = (canOf n c).rejs := by
  have hadd : outstanding { canOf n c with hostQ := (canOf n c).hostQ ++ [stagedMsg n c] } = outstanding (canOf n c) + 1 := by
    have hq := outstanding_hostQ (canOf n c) ((canOf n c).hostQ ++ [stagedMsg n c])
    rw [List.length_append, List.length_singleton] at hq
    exact Nat.add_right_cancel (hq.trans (by omega))
  have hself := canOf_modCan_self n c (fun x => { x with hostQ := x.hostQ ++ [stagedMsg n c] })
  rw [canPush, if_pos h]
  have hctl := ctl_modCan n c (fun x => { x with hostQ := x.hostQ ++ [stagedMsg n c] })
  generalize modCan n c (fun x => { x with hostQ := x.hostQ ++ [stagedMsg n c] }) = m at hself hctl
  have hload := (loadBufs_loads m c).1
  refine ⟨hctl.trans (ctl_loadBufs m c), ?_, ?_, ?_⟩
  · rw [hload.2, hself, hadd]
  · rw [hload.field (g := CanCtl.txc) (fun _ => rfl), hself]
  · rw [hload.field (g := CanCtl.rejs) (fun _ => rfl), hself]

theorem canPush_refused {n : Node} {c : Nat} (h : pushOk n c = false) : CtlFrame c n (canPush n c) ∧
    canOf (canPush n c) c = { canOf n c with rejs := min 255 ((canOf n c).rejs + 1) } ∧
    bit (headerOf (canPush n c) (0x40 + c)).irqStat 5 = true := by
  have hpush : canPush n c = raise (modCan n c (fun x => { x with rejs := sat 255 (x.rejs + 1) })) (canPage c) 5 := by
    rw [canPush, h]
    rfl
  rw [hpush]
  refine ⟨(ctl_modCan n c _).trans (ctl_raise _ c 5), ?_, bit_raise (by decide)⟩
  rw [canOf_raise, canOf_modCan_self]
  rfl

/-! A frame sent -/

theorem loseArb_same {n : Node} {c : Nat} {keep : Option Nat}
    (h : ∀ d z, d < 3 → getBuf (canOf n c) d = some z → keep = some d ∨ z.intx = false) : loseArb n c keep = n := by
  refine List.foldlRecOn (motive := fun m => m = n) _ _ rfl (fun m hm b hb => ?_)
  subst hm
  split
  next z hz => rw [if_pos (h b z (List.mem_range.mp hb) hz)]
  · rfl

/-- What the counters confine where TEC is no more than 255: the state alone, told where it becomes ERROR_PASSIVE. -/
theorem confine_leaves {n : Node} {c : Nat} (h : (canOf n c).tec ≤ 255) : CtlFrame c n (confine n c) ∧
    KeepsRegs n (confine n c) ∧ (∃ st, canOf (confine n c) c = { canOf n c with state := st }) ∧
    ∀ p, headerOf (confine n c) p = headerOf n p := by
  simp only [confine]
  split
  · exact ⟨CtlFrame.refl c n, KeepsRegs.refl n, ⟨_, rfl⟩, fun _ => rfl⟩
  · rw [if_neg (by omega)]
    split
    · split
      · refine ⟨(ctl_modCan n c _).trans (ctl_raiseB _ c _ 7), (keepsRegs_modCan n c _).trans (keepsRegs_raiseB _ _ 7),
          ⟨.passive, ?_⟩, fun _ => rfl⟩
        rw [canOf_raiseB, canOf_modCan_self]
      · exact ⟨CtlFrame.refl c n, KeepsRegs.refl n, ⟨_, rfl⟩, fun _ => rfl⟩
    · exact ⟨ctl_modCan n c _, keepsRegs_modCan n c _, ⟨.active, canOf_modCan_self n c _⟩, fun _ => rfl⟩

theorem afterTx_loads {n : Node} {c : Nat} (h : (canOf n c).cfgPend = false) : afterTx n c = loadBufs n c := by
  rw [afterTx, h]
  rfl

/-- Confinement, and what the engine loads then, where no configuration waits. -/
theorem confined_leaves {n : Node} {c : Nat} (htec : (canOf n c).tec ≤ 255) (hcfg : (canOf n c).cfgPend = false) :
    CtlFrame c n (afterTx (confine n c) c) ∧ KeepsRegs n (afterTx (confine n c) c) ∧
    (∃ st, Loads { canOf n c with state := st } (canOf (afterTx (confine n c) c) c)) ∧
    ∀ p, headerOf (afterTx (confine n c) c) p = headerOf n p := by
  obtain ⟨hctl, hregs, ⟨st, hst⟩, hh⟩ := confine_leaves htec
  generalize confine n c = m at *
  have hpend : (canOf m c).cfgPend = false := by
    rw [hst]
    exact hcfg
  rw [afterTx_loads hpend]
  exact ⟨hctl.trans (ctl_loadBufs m c), hregs.trans (keepsRegs_loadBufs m c), ⟨st, hst ▸ (loadBufs_loads m c).1⟩,
    fun p => (headerOf_loadBufs m c p).trans (hh p)⟩

/-- What a frame that buffer b sent makes of the controller, before its counters confine it. -/
def sentFrame (b : Nat) (x : CanCtl) : CanCtl :=
  clearAlone { putBuf x b none with lastDone := b, cntTx := x.cntTx + 1, tec := if x.mode = 1 then x.tec - 1 else x.tec }

section sent
variable {n : Node} {c b : Nat} {z : TxBuf} (hz : getBuf (canOf n c) b = some z) (htx : mayTx n c (canOf n c) b = true)
  (hcfg : (canOf n c).cfgPend = false) (hother : ∀ d y, d ≠ b → getBuf (canOf n c) d = some y → y.intx = false)
  (htec : (canOf n c).tec ≤ 256)
include htx

theorem mode_of_mayTx : (canOf n c).mode = 1 := by
  rw [mayTx, Bool.and_eq_true, canSends, Bool.and_eq_true] at htx
  exact of_decide_eq_true htx.1.1

include hz hother

theorem txDone_eq (sof : Nat) : txDone n c b sof =
    afterTx (confine (match z.body with
      | .host m _ => complete (modCan n c (sentFrame b)) c m z.attempts 1 (tsAt n sof)
      | .node m => if m.typ = 1 then modTb (modCan n c (sentFrame b)) (fun w =>
          { w with sent := tset none w.sent c (some (m.sub, some (taiPast n sof))) }) else modCan n c (sentFrame b)) c) c := by
  have hsame : loseArb n c (some b) = n := loseArb_same (fun d y _ hy => by
    by_cases hd : d = b
    · exact .inl (by rw [hd])
    · exact .inr (hother d y hd hy))
  rw [txDone, htx, if_pos rfl, hz]
  dsimp only
  rw [hsame]
  rfl

omit htx hother in
theorem sentFrame_leaves (hmode : (canOf n c).mode = 1) : (sentFrame b (canOf n c)).cfgPend = (canOf n c).cfgPend ∧
    (sentFrame b (canOf n c)).tec = (canOf n c).tec - 1 ∧
    (sentFrame b (canOf n c)).txc = (canOf n c).txc ∧ (sentFrame b (canOf n c)).rec_ = (canOf n c).rec_ ∧
    outstanding (sentFrame b (canOf n c)) + b2n (isHostBuf (some z)) = outstanding (canOf n c) := by
  have hun := unloaded_putBuf (canOf n c) b none
  have hout := outstanding_putBuf (canOf n c) b none
  rw [hosts, hz] at hout
  have hpend := congrArg CanCtl.cfgPend hun
  have htxc := congrArg CanCtl.txc hun
  have hrec := congrArg CanCtl.rec_ hun
  exact ⟨hpend, if_pos hmode, htxc, hrec, hout⟩

include hcfg htec

/-- A host message sent gives its completion entry (13 R310). -/
theorem txDone_host {m : HostMsg} {r : Nat} (hbody : z.body = .host m r) (sof : Nat) :
    CtlFrame c n (txDone n c b sof) ∧
    (canOf (txDone n c b sof) c).cntTx = (canOf n c).cntTx + 1 ∧ (canOf (txDone n c b sof) c).alone = false ∧
    (canOf (txDone n c b sof) c).tec = (canOf n c).tec - 1 ∧ (canOf (txDone n c b sof) c).rec_ = (canOf n c).rec_ ∧
    (canOf (txDone n c b sof) c).lastDone = b ∧
    (canOf (txDone n c b sof) c).txc = (canOf n c).txc ++
      [{ tag := m.tag, attempts := min 15 z.attempts, status := 1, ts := tsAt n sof, id := idWord m.frame.ide m.frame.id }] ∧
    outstanding (canOf (txDone n c b sof) c) = outstanding (canOf n c) ∧
    bit (headerOf (txDone n c b sof) (0x40 + c)).irqStat 4 = true := by
  obtain ⟨hpend, htec', htxc, hrec, hout⟩ := sentFrame_leaves hz (mode_of_mayTx htx)
  rw [txDone_eq hz htx hother, hbody]
  dsimp only
  have hctl := (ctl_modCan n c (sentFrame b)).trans (ctl_complete _ c m z.attempts 1 (tsAt n sof))
  have hself := canOf_complete (modCan n c (sentFrame b)) c m z.attempts 1 (tsAt n sof)
  have hsum := outstanding_complete (modCan n c (sentFrame b)) c m z.attempts 1 (tsAt n sof)
  have hbit : bit (headerOf (complete (modCan n c (sentFrame b)) c m z.attempts 1 (tsAt n sof)) (0x40 + c)).irqStat 4 = true :=
    bit_raise (p := 0x40 + c) (by decide)
  rw [canOf_modCan_self] at hself hsum
  generalize complete (modCan n c (sentFrame b)) c m z.attempts 1 (tsAt n sof) = k at *
  rw [isHostBuf, hbody] at hout
  have hktec : (canOf k c).tec ≤ 255 := by
    rw [hself]
    dsimp only
    omega
  have hkcfg : (canOf k c).cfgPend = false := by
    rw [hself]
    exact hpend.trans hcfg
  obtain ⟨hctl', -, ⟨st, hst⟩, hh⟩ := confined_leaves hktec hkcfg
  generalize afterTx (confine k c) c = u at *
  have hy : ∀ {α : Type} (g : CanCtl → α), (∀ w, g (unloaded w) = g w) → g (canOf u c) = g { canOf k c with state := st } :=
    fun g hg => hst.field hg
  refine ⟨hctl.trans hctl', ?_, ?_, ?_, ?_, ?_, ?_, ?_, ?_⟩
  · rw [hy CanCtl.cntTx (fun _ => rfl), hself]
    rfl
  · rw [hy CanCtl.alone (fun _ => rfl), hself]
    rfl
  · rw [hy CanCtl.tec (fun _ => rfl), hself]
    exact htec'
  · rw [hy CanCtl.rec_ (fun _ => rfl), hself]
    exact hrec
  · rw [hy CanCtl.lastDone (fun _ => rfl), hself]
    rfl
  · rw [hy CanCtl.txc (fun _ => rfl), hself]
    show (sentFrame b (canOf n c)).txc ++ _ = _
    rw [htxc]
    rfl
  · have hstate : outstanding { canOf k c with state := st } = outstanding (canOf k c) := rfl
    rw [hst.2, hstate, hsum]
    exact hout
  · rw [hh]
    exact hbit

/-- A node message sent gives no completion; a SYNC keeps its start of frame (13 R318). -/
theorem txDone_node {q : NodeMsg} (hbody : z.body = .node q) (sof : Nat) :
    (txDone n c b sof).regs = n.regs ∧ (∀ k, k ≠ c → canOf (txDone n c b sof) k = canOf n k) ∧
    (canOf (txDone n c b sof) c).cntTx = (canOf n c).cntTx + 1 ∧ (canOf (txDone n c b sof) c).txc = (canOf n c).txc ∧
    (canOf (txDone n c b sof) c).tec = (canOf n c).tec - 1 ∧
    (q.typ = 1 → tget none (txDone n c b sof).tb.sent c = some (q.sub, some (taiPast n sof))) := by
  obtain ⟨hpend, htec', htxc, hrec, hout⟩ := sentFrame_leaves hz (mode_of_mayTx htx)
  rw [txDone_eq hz htx hother, hbody]
  dsimp only
  have hkept : (if q.typ = 1 then modTb (modCan n c (sentFrame b)) (fun w =>
      { w with sent := tset none w.sent c (some (q.sub, some (taiPast n sof))) }) else modCan n c (sentFrame b)).regs = n.regs ∧
      ∀ j, canOf (if q.typ = 1 then modTb (modCan n c (sentFrame b)) (fun w =>
        { w with sent := tset none w.sent c (some (q.sub, some (taiPast n sof))) }) else modCan n c (sentFrame b)) j =
        canOf (modCan n c (sentFrame b)) j :=
    pred_ite (P := fun k : Node => k.regs = n.regs ∧ ∀ j, canOf k j = canOf (modCan n c (sentFrame b)) j)
      ⟨rfl, fun j => canOf_modTb _ _ j⟩ ⟨rfl, fun _ => rfl⟩
  have hsync : q.typ = 1 → tget none (if q.typ = 1 then modTb (modCan n c (sentFrame b)) (fun w =>
      { w with sent := tset none w.sent c (some (q.sub, some (taiPast n sof))) }) else modCan n c (sentFrame b)).tb.sent c =
      some (q.sub, some (taiPast n sof)) := fun h => by
    rw [if_pos h]
    exact tget_tset_self none n.tb.sent c (some (q.sub, some (taiPast n sof)))
  generalize (if q.typ = 1 then modTb (modCan n c (sentFrame b)) (fun w =>
      { w with sent := tset none w.sent c (some (q.sub, some (taiPast n sof))) }) else modCan n c (sentFrame b)) = k at *
  obtain ⟨hregs, hcans⟩ := hkept
  have hself : canOf k c = sentFrame b (canOf n c) := by rw [hcans, canOf_modCan_self]
  have hktec : (canOf k c).tec ≤ 255 := by
    rw [hself]
    omega
  have hkcfg : (canOf k c).cfgPend = false := by
    rw [hself]
    exact hpend.trans hcfg
  obtain ⟨hctl', hregs', ⟨st, hst⟩, hh⟩ := confined_leaves hktec hkcfg
  generalize afterTx (confine k c) c = u at *
  have hy : ∀ {α : Type} (g : CanCtl → α), (∀ w, g (unloaded w) = g w) → g (canOf u c) = g { canOf k c with state := st } :=
    fun g hg => hst.field hg
  obtain ⟨r', l', h', d', q', cs', hu, -, honly⟩ := hctl'
  refine ⟨hregs'.regs.trans hregs, fun j hj => ?_, ?_, ?_, ?_, fun h => ?_⟩
  · have hj' : canOf u j = canOf k j := by
      rw [hu]
      exact honly j hj
    rw [hj', hcans, canOf_modCan_ne n c _ hj]
  · rw [hy CanCtl.cntTx (fun _ => rfl), hself]
    rfl
  · rw [hy CanCtl.txc (fun _ => rfl), hself]
    exact htxc
  · rw [hy CanCtl.tec (fun _ => rfl), hself]
    exact htec'
  · rw [hu]
    exact hsync h

end sent

/-! The statement -/

/-- Settles O47: each row is a change of the one controller; what its engine loads afterwards leaves what is outstanding. -/
theorem framesAreSent : Obligations.FramesAreSent := by
  intro t c b sof w m r s hc hb
  refine ⟨fun hl => ?_, fun hl => ?_, fun hno => ?_, fun z hz htx hcfg hother hbody htec => ?_,
    fun z q hz htx hcfg hother hbody htec => ?_⟩
  · have hthen : (headerOf (atInstant s t) (canPage c)).locked = true := hl
    refine acts_onCan hc (f := fun n => unlocked n hostPath (canPage c) (fun n => canPush n c)) rfl ?_
    rw [unlocked_locked hthen]
    exact lockedWrite_leaves _ _
  · have hthen : (headerOf (atInstant s t) (canPage c)).locked = false := hl
    refine acts_onCan hc (f := fun n => unlocked n hostPath (canPage c) (fun n => canPush n c)) rfl ?_
    rw [unlocked_open hthen, canOf_settle, headerOf_settle]
    cases hp : pushOk (atInstant s t) c with
    | true =>
      obtain ⟨hctl, hout⟩ := canPush_taken hp
      exact ⟨hctl.canOnly, fun _ => hout, nofun⟩
    | false =>
      obtain ⟨hctl, hout⟩ := canPush_refused hp
      exact ⟨hctl.canOnly, nofun, fun _ => hout⟩
  · refine acts_onCan hc (f := fun n => txDone n c b sof) rfl ?_
    have hn : (if mayTx (atInstant s t) c (canOf (atInstant s t) c) b then getBuf (canOf (atInstant s t) c) b else none) = none := by
      rcases hno with h | h
      · exact (pred_ite (P := fun o => o = none) h rfl)
      · exact if_neg (by rw [show mayTx (atInstant s t) c (canOf (atInstant s t) c) b = false from h]; decide)
    rw [txDone, hn]
    exact sameButSignals_settle _
  · refine acts_onCan hc (f := fun n => txDone n c b sof) rfl ?_
    have hall := txDone_host (n := atInstant s t) hz htx hcfg hother htec hbody sof
    rw [canOf_settle, headerOf_settle]
    exact ⟨hall.1.canOnly, hall.2⟩
  · refine acts_onCan hc (f := fun n => txDone n c b sof) rfl ?_
    exact txDone_node (n := atInstant s t) hz htx hcfg hother htec hbody sof

end Sys2Proof.Machine
end

section
/-! PROOF. Errors of a CAN controller: what an error leaves beside the fault confinement, and the entry to BUS_OFF
(13 R310, R312, R313, R316, R317). -/

namespace Sys2Proof.Machine

/-! What traffic leaves -/

/-- The counts of a controller that its traffic leaves, and its transceiver's fault. -/
def tally (x : CanCtl) : Nat × Nat × Bool := (x.errs, x.busoffs, x.trxFlt)

/-- The registers stay, no controller but c changes, and of c the counts stay. -/
structure Errs (c : Nat) (n u : Node) : Prop where
  regs : KeepsRegs n u
  only : OnlyCan c n u
  tally : tally (canOf u c) = tally (canOf n c)

theorem Errs.refl (c : Nat) (n : Node) : Errs c n n := ⟨KeepsRegs.refl n, fun _ _ => rfl, rfl⟩

theorem Errs.trans {c : Nat} {n m u : Node} (h : Errs c n m) (k : Errs c m u) : Errs c n u :=
  ⟨h.regs.trans k.regs, h.only.trans k.only, k.tally.trans h.tally⟩

theorem errs_modCan (n : Node) (c : Nat) {f : CanCtl → CanCtl} (hf : ∀ x, Machine.tally (f x) = Machine.tally x) :
    Errs c n (modCan n c f) :=
  ⟨keepsRegs_modCan n c f, onlyCan_modCan n c f, by rw [canOf_modCan_self, hf]⟩

theorem errs_note (c : Nat) (n : Node) (r : Rec) : Errs c n (note n r) :=
  ⟨keepsRegs_note n r, fun k _ => canOf_note n r k, by rw [canOf_note]⟩

theorem errs_raiseB (c : Nat) (n : Node) (p b : Nat) : Errs c n (raiseB n p b) :=
  ⟨keepsRegs_raiseB n p b, fun _ _ => rfl, rfl⟩

theorem errs_ite {p : Prop} [Decidable p] {c : Nat} {n a b : Node} (ha : Errs c n a) (hb : Errs c n b) :
    Errs c n (if p then a else b) := pred_ite ha hb

theorem tally_putBuf (x : CanCtl) (b : Nat) (v : Option TxBuf) : Machine.tally (putBuf x b v) = Machine.tally x := by
  have h := congrArg Machine.tally (unloaded_putBuf x b v)
  exact h

theorem tally_complete (n : Node) (c : Nat) (m : HostMsg) (attempts status : Nat) (ts : Word) :
    Machine.tally (canOf (complete n c m attempts status ts) c) = Machine.tally (canOf n c) := by
  rw [canOf_complete]
  rfl

theorem errs_endBuf (n : Node) (c b status : Nat) (ts : Word) : Errs c n (endBuf n c b status ts) := by
  refine ⟨keepsRegs_endBuf n c b status ts, (keepsCan_endBuf n c b status ts).1, ?_⟩
  have hput : Machine.tally (canOf (modCan n c fun x => { putBuf x b none with lastDone := b }) c) = Machine.tally (canOf n c) := by
    rw [canOf_modCan_self]
    exact tally_putBuf _ b none
  unfold endBuf
  split
  · rfl
  · dsimp only
    split
    · rw [tally_complete]
      exact hput
    · exact pred_ite (P := fun u : Node => Machine.tally (canOf u c) = Machine.tally (canOf n c)) hput hput

theorem errs_loseArb (n : Node) (c : Nat) (keep : Option Nat) : Errs c n (loseArb n c keep) := by
  refine foldl_rel (R := Errs c) (Errs.refl c) Errs.trans (fun m b => ?_) _ n
  split
  next t _ =>
    have hstop : Errs c m (modCan m c fun x => putBuf x b (some { t with intx := false })) :=
      errs_modCan m c (fun x => tally_putBuf x b _)
    exact errs_ite (Errs.refl c m) (errs_ite (hstop.trans (errs_endBuf _ c b 4 0)) hstop)
  · exact Errs.refl c m

theorem errs_endAllBufs (n : Node) (c status : Nat) : Errs c n (endAllBufs n c status) :=
  ((errs_endBuf n c 0 _ _).trans (errs_endBuf _ c 1 _ _)).trans (errs_endBuf _ c 2 _ _)

theorem errs_loadBufs (n : Node) (c : Nat) : Errs c n (loadBufs n c) :=
  ⟨keepsRegs_loadBufs n c, (keepsCan_loadBufs n c).1, (loadBufs_loads n c).1.field (fun _ => rfl)⟩

theorem errs_rdMove (n : Node) (c : Nat) : Errs c n (rdMove n c) := errs_ite (Errs.refl c n) (errs_modCan n c (fun _ => rfl))

theorem errs_failAttempt (n : Node) (c b code : Nat) : Errs c n (failAttempt n c b code) := by
  unfold failAttempt
  split
  · exact Errs.refl c n
  next t _ =>
    have hfail : Errs c n (modCan n c fun x => putBuf x b (some { t with attempts := t.attempts + 1, intx := false })) :=
      errs_modCan n c (fun x => tally_putBuf x b _)
    exact errs_ite (hfail.trans (errs_endBuf _ c b _ _)) (errs_ite (hfail.trans (errs_endBuf _ c b _ _)) hfail)

theorem errs_countAck (n : Node) (c code : Nat) : Errs c n (countAck n c code) := by
  have hcount : Errs c n (modCan n c fun x => { x with ackRun := if code = 3 then x.ackRun + 1 else 0 }) :=
    errs_modCan n c (fun _ => rfl)
  have halone (m : Node) : Errs c m (modCan m c fun x => { x with alone := true }) := errs_modCan m c (fun _ => rfl)
  exact errs_ite (hcount.trans (((halone _).trans (errs_note c _ _)).trans (errs_raiseB c _ _ _))) hcount

theorem errs_collide (n : Node) (c b : Nat) : Errs c n (collide n c b) := by
  unfold collide
  split
  · exact Errs.refl c n
  next t _ =>
    have hseen (l : List (Word × Nat)) : Errs c n (modCan n c fun x => { x with colls := l }) := errs_modCan n c (fun _ => rfl)
    have htold (m : Node) (w : Word) : Errs c m (modCan m c fun x => { x with idcoll := true, collId := some w }) :=
      errs_modCan m c (fun _ => rfl)
    exact errs_ite ((hseen _).trans (((htold _ _).trans (errs_note c _ _)).trans (errs_raiseB c _ _ _))) (hseen _)

theorem errs_configure (n : Node) (c : Nat) : Errs c n (configure n c) := by
  have hend := errs_endAllBufs n c 6
  unfold configure
  exact hend.trans (errs_modCan _ c (fun _ => rfl))

theorem errs_afterTx (n : Node) (c : Nat) : Errs c n (afterTx n c) := errs_ite (errs_configure n c) (errs_loadBufs n c)

/-! The entry to BUS_OFF -/

theorem endAllBufs_leaves (n : Node) (c status : Nat) : (∀ b, b < 3 → getBuf (canOf (endAllBufs n c status) c) b = none) ∧
    (canOf (endAllBufs n c status) c).hostQ = (canOf n c).hostQ ∧ (canOf (endAllBufs n c status) c).nodeQ = (canOf n c).nodeQ := by
  obtain ⟨h0, -, -, hq0, hn0⟩ := endBuf_leaves (n := n) (c := c) (b := 0) (by decide) status 0
  obtain ⟨h1, hk1, -, hq1, hn1⟩ := endBuf_leaves (n := endBuf n c 0 status 0) (c := c) (b := 1) (by decide) status 0
  obtain ⟨h2, hk2, -, hq2, hn2⟩ :=
    endBuf_leaves (n := endBuf (endBuf n c 0 status 0) c 1 status 0) (c := c) (b := 2) (by decide) status 0
  rw [endAllBufs]
  refine ⟨fun b hb => ?_, (hq2.trans hq1).trans hq0, (hn2.trans hn1).trans hn0⟩
  interval_cases b
  · rw [hk2 0 (by decide) (by decide), hk1 0 (by decide) (by decide), h0]
  · rw [hk2 1 (by decide) (by decide), h1]
  · exact h2

/-- What the entry to BUS_OFF leaves (13 R313). -/
structure OffBus (c : Nat) (n u : Node) : Prop where
  regs : KeepsRegs n u
  only : OnlyCan c n u
  state : (canOf u c).state = .busOff
  tec : (canOf u c).tec = 256
  bufs : (canOf u c).b0 = none ∧ (canOf u c).b1 = none ∧ (canOf u c).b2 = none
  nodeQ : (canOf u c).nodeQ = []
  hostQ : (canOf u c).hostQ = (canOf n c).hostQ
  tally : tally (canOf u c) = ((canOf n c).errs, min 255 ((canOf n c).busoffs + 1), (canOf n c).trxFlt)
  cfgPend : (canOf u c).cfgPend = (canOf n c).cfgPend
  told : (0x40 + c, 8) ∈ u.dueB

/-- The state and the counts that the entry sets. -/
def offBus (x : CanCtl) : CanCtl :=
  { x with state := .busOff, tec := 256, nodeQ := [], busoffs := sat 255 (x.busoffs + 1) }

theorem offBus_enterBusOff (n : Node) (c : Nat) : OffBus c n (enterBusOff n c) := by
  have hset := onlyCan_modCan n c offBus
  have hself := canOf_modCan_self n c offBus
  have hkeep := keepsRegs_modCan n c offBus
  show OffBus c n (raiseB (note (endAllBufs (modCan n c offBus) c 5) (recComm (endAllBufs (modCan n c offBus) c 5) 1 c 0)) (canPage c) 8)
  generalize modCan n c offBus = m at hset hself hkeep
  obtain ⟨hbufs, hhost, hnode⟩ := endAllBufs_leaves m c 5
  have herrs := errs_endAllBufs m c 5
  have hconf := (keepsCan_endAllBufs m c 5).2
  generalize endAllBufs m c 5 = k at *
  have hlast := (errs_note c k (recComm k 1 c 0)).trans (errs_raiseB c _ (canPage c) 8)
  have hcan : canOf (raiseB (note k (recComm k 1 c 0)) (canPage c) 8) c = canOf k c := by rw [canOf_raiseB, canOf_note]
  have htold : (0x40 + c, 8) ∈ (raiseB (note k (recComm k 1 c 0)) (canPage c) 8).dueB := List.mem_append_right _ (List.mem_singleton_self _)
  generalize raiseB (note k (recComm k 1 c 0)) (canPage c) 8 = u at hlast hcan htold
  refine ⟨(hkeep.trans herrs.regs).trans hlast.regs, (hset.trans herrs.only).trans hlast.only, ?_, ?_, ?_, ?_, ?_, ?_, ?_, htold⟩
  · rw [hcan, show (canOf k c).state = (canOf m c).state from congrArg Confinement.state hconf, hself]
    rfl
  · rw [hcan, show (canOf k c).tec = (canOf m c).tec from congrArg Confinement.tec hconf, hself]
    rfl
  · rw [hcan]
    exact ⟨hbufs 0 (by decide), hbufs 1 (by decide), hbufs 2 (by decide)⟩
  · rw [hcan, hnode, hself]
    rfl
  · rw [hcan, hhost, hself]
    rfl
  · rw [hcan, herrs.tally, hself]
    rfl
  · rw [hcan, show (canOf k c).cfgPend = (canOf m c).cfgPend from congrArg Confinement.cfgPend hconf, hself]
    rfl

/-- A controller off the bus loads nothing. -/
theorem canSends_of_state {x : CanCtl} (ha : x.state ≠ .active) (hp : x.state ≠ .passive) : canSends x = false := by
  simp [canSends, ha, hp]

theorem OffBus.loads {c : Nat} {n u : Node} (h : OffBus c n u) (hcfg : (canOf n c).cfgPend = false) : afterTx u c = u := by
  rw [afterTx_loads (h.cfgPend.trans hcfg), loadBufs_of_not_sends (canSends_of_state (by rw [h.state]; decide) (by rw [h.state]; decide))]

/-! Confinement by the counters -/

theorem confine_regs (n : Node) (c : Nat) : KeepsRegs n (confine n c) ∧ OnlyCan c n (confine n c) ∧
    (canOf (confine n c) c).errs = (canOf n c).errs := by
  simp only [confine]
  split
  · exact ⟨KeepsRegs.refl n, fun _ _ => rfl, rfl⟩
  · split
    · have hoff := offBus_enterBusOff n c
      exact ⟨hoff.regs, hoff.only, congrArg Prod.fst hoff.tally⟩
    · split
      · split
        · have hpassive : Errs c n (raiseB (modCan n c fun x => { x with state := .passive }) (canPage c) 7) :=
            (errs_modCan n c (f := fun x => { x with state := .passive }) (fun _ => rfl)).trans (errs_raiseB c _ _ 7)
          exact ⟨hpassive.regs, hpassive.only, congrArg Prod.fst hpassive.tally⟩
        · exact ⟨KeepsRegs.refl n, fun _ _ => rfl, rfl⟩
      · exact ⟨keepsRegs_modCan n c _, onlyCan_modCan n c _, by rw [canOf_modCan_self]⟩

theorem onBus_iff (x : CanCtl) (h : x.mode = 1) : (x.mode ≠ 1 ∨ (x.state ≠ .active ∧ x.state ≠ .passive)) ↔
    ¬ (x.state = .active ∨ x.state = .passive) := by
  simp [h]

theorem confine_off {n : Node} {c : Nat} (hm : (canOf n c).mode = 1) (hs : (canOf n c).state = .active ∨ (canOf n c).state = .passive)
    (h : 255 < (canOf n c).tec) : confine n c = enterBusOff n c := by
  simp only [confine]
  rw [if_neg (fun hn => (onBus_iff _ hm).mp hn hs), if_pos h]

/-- Below 128 in both counters a controller is ERROR_ACTIVE. -/
theorem confine_low {n : Node} {c : Nat} (hm : (canOf n c).mode = 1) (hs : (canOf n c).state = .active ∨ (canOf n c).state = .passive)
    (ht : (canOf n c).tec < 128) (hr : (canOf n c).rec_ < 128) : confine n c = modCan n c (fun x => { x with state := .active }) := by
  simp only [confine]
  rw [if_neg (fun hn => (onBus_iff _ hm).mp hn hs), if_neg (by omega), if_neg (by omega)]

/-- From 128 on in REC a controller is ERROR_PASSIVE, told where it was not. -/
theorem confine_high {n : Node} {c : Nat} (hm : (canOf n c).mode = 1) (hs : (canOf n c).state = .active ∨ (canOf n c).state = .passive)
    (ht : (canOf n c).tec < 128) (hr : 128 ≤ (canOf n c).rec_) :
    canOf (confine n c) c = { canOf n c with state := .passive } ∧
    ((canOf n c).state = .active → (0x40 + c, 7) ∈ (confine n c).dueB) := by
  simp only [confine]
  rw [if_neg (fun hn => (onBus_iff _ hm).mp hn hs), if_neg (by omega), if_pos (.inr hr)]
  split
  · refine ⟨?_, fun _ => List.mem_append_right _ (List.mem_singleton_self _)⟩
    rw [canOf_raiseB, canOf_modCan_self]
  next hna =>
    refine ⟨?_, fun ha => absurd ha hna⟩
    rw [← hs.resolve_left hna]

end Sys2Proof.Machine
end

section
/-! PROOF. Errors, bus-off, recovery, integration and transceiver faults (13 R296, R297, R310 to R317, R323). -/

namespace Sys2Proof.Machine

/-! A detected error -/

/-- What an error makes of a controller before its counters confine it; tx is the buffer of it that was sending. -/
def erred (e : CanErr) (tx : Option Nat) (x : CanCtl) : CanCtl :=
  { x with
    errs := sat 65535 (x.errs + 1), lec := e.code, lecData := e.dataPhase,
    tec := if x.mode = 1 ∧ tx.isSome then x.tec + tecUp (decide (x.state = .passive)) e else x.tec,
    rec_ := if x.mode = 1 ∧ tx = none then sat 255 (x.rec_ + recUp e) else x.rec_,
    state := if x.mode = 2 then .integrating else x.state }

/-- The end of the attempt that the error met. -/
def endErred (e : CanErr) (tx : Option Nat) (n : Node) (c : Nat) : Node :=
  match tx with
  | none => n
  | some b => failAttempt (countAck (if e.collision && (e.code == 4 || e.code == 5) then collide n c b else n) c e.code) c b e.code

theorem canErr_eq {n : Node} {c : Nat} (h : receives n c = true) (e : CanErr) {tx : Option Nat}
    (htx : e.buf.filter (mayTx n c (canOf n c)) = tx) : canErr n c e =
      afterTx (confine (endErred e tx (if (canOf n c).state = .searching then rdMove (modCan (loseArb n c tx) c (erred e tx)) c
        else modCan (loseArb n c tx) c (erred e tx)) c) c) c := by
  subst htx
  simp only [canErr, h, Bool.not_true, Bool.false_eq_true, if_false]
  rfl

theorem endErred_leaves (e : CanErr) (tx : Option Nat) (n : Node) (c : Nat) :
    KeepsCan c n (endErred e tx n c) ∧ Errs c n (endErred e tx n c) := by
  cases tx with
  | none => exact ⟨KeepsCan.refl c n, Errs.refl c n⟩
  | some b =>
    have hcoll : KeepsCan c n (if e.collision && (e.code == 4 || e.code == 5) then collide n c b else n) ∧
        Errs c n (if e.collision && (e.code == 4 || e.code == 5) then collide n c b else n) :=
      ⟨KeepsCan.ite (keepsCan_collide n c b) (KeepsCan.refl c n), errs_ite (errs_collide n c b) (Errs.refl c n)⟩
    rw [endErred]
    generalize (if e.collision && (e.code == 4 || e.code == 5) then collide n c b else n) = v at hcoll
    exact ⟨hcoll.1.trans ((keepsCan_countAck v c e.code).trans (keepsCan_failAttempt _ c b e.code)),
      hcoll.2.trans ((errs_countAck v c e.code).trans (errs_failAttempt _ c b e.code))⟩

/-- An error counts once, whatever becomes of the buffer that was sending. -/
theorem canErr_counts {n : Node} {c : Nat} (h : receives n c = true) (e : CanErr) {tx : Option Nat}
    (htx : e.buf.filter (mayTx n c (canOf n c)) = tx) : ∃ m, canErr n c e = afterTx (confine m c) c ∧
      Confines c (countedError e tx (confinement (canOf n c))) n m ∧ KeepsRegs n m ∧
      tally (canOf m c) = (min 65535 ((canOf n c).errs + 1), (canOf n c).busoffs, (canOf n c).trxFlt) := by
  refine ⟨_, canErr_eq h e htx, ?_⟩
  have hlost := keepsCan_loseArb n c tx
  have herrs := errs_loseArb n c tx
  generalize loseArb n c tx = a at hlost herrs
  have hconf : Confines c (countedError e tx (confinement (canOf n c))) n (modCan a c (erred e tx)) :=
    hlost.confines_modCan (countedError e tx) (fun _ => rfl)
  have hregs := herrs.regs.trans (keepsRegs_modCan a c (erred e tx))
  have htally : tally (canOf (modCan a c (erred e tx)) c) =
      (min 65535 ((canOf n c).errs + 1), (canOf n c).busoffs, (canOf n c).trxFlt) := by
    have ha := herrs.tally
    simp only [tally, Prod.mk.injEq] at ha
    obtain ⟨h1, h2, h3⟩ := ha
    rw [canOf_modCan_self, ← h1, ← h2, ← h3]
    rfl
  generalize modCan a c (erred e tx) = k at hconf hregs htally
  have hmove : KeepsCan c k (if (canOf n c).state = .searching then rdMove k c else k) ∧
      Errs c k (if (canOf n c).state = .searching then rdMove k c else k) :=
    ⟨KeepsCan.ite (keepsCan_rdMove k c) (KeepsCan.refl c k), errs_ite (errs_rdMove k c) (Errs.refl c k)⟩
  generalize (if (canOf n c).state = .searching then rdMove k c else k) = w at hmove
  obtain ⟨hend, hends⟩ := endErred_leaves e tx w c
  exact ⟨(hconf.keeps hmove.1).keeps hend, (hregs.trans hmove.2.regs).trans hends.regs,
    (hends.tally.trans hmove.2.tally).trans htally⟩

/-- What every error on the bus leaves (13 R312). -/
theorem canErr_leaves {n : Node} {c : Nat} (h : receives n c = true) (e : CanErr) :
    (∀ k, k ≠ c → canOf (canErr n c e) k = canOf n k) ∧ (canErr n c e).regs = n.regs ∧
    (canOf (canErr n c e) c).errs = min 65535 ((canOf n c).errs + 1) ∧ (canOf (canErr n c e) c).lec = e.code ∧
    (canOf (canErr n c e) c).lecData = e.dataPhase := by
  have hlec := lastError_canErr h e
  obtain ⟨m, herr, hm, hregs, htally⟩ := canErr_counts h e rfl
  obtain ⟨hcregs, hconly, hcerrs⟩ := confine_regs m c
  have hafter := errs_afterTx (confine m c) c
  rw [← herr] at hafter
  obtain ⟨hl, hld⟩ := Prod.mk.inj hlec
  refine ⟨(hm.1.trans hconly).trans hafter.only, ((hregs.trans hcregs).trans hafter.regs).regs, ?_, hl, hld⟩
  exact ((congrArg Prod.fst hafter.tally).trans hcerrs).trans (congrArg Prod.fst htally)

/-- Where no buffer ends and none goes off the bus, the state after follows from the counters. -/
theorem loads_state {c : Nat} {m : Node} {st : CanState} (hc : canOf (confine m c) c = { canOf m c with state := st })
    (hp : (canOf m c).cfgPend = false) : (canOf (afterTx (confine m c) c) c).state = st ∧
    (canOf (afterTx (confine m c) c) c).tec = (canOf m c).tec ∧ (canOf (afterTx (confine m c) c) c).rec_ = (canOf m c).rec_ ∧
    (confine m c).dueB <+: (afterTx (confine m c) c).dueB := by
  have hpend : (canOf (confine m c) c).cfgPend = false := by
    rw [hc]
    exact hp
  rw [afterTx_loads hpend]
  have hk := (keepsCan_loadBufs (confine m c) c).2
  rw [hc] at hk
  exact ⟨congrArg Confinement.state hk, congrArg Confinement.tec hk, congrArg Confinement.rec_ hk, (keepsRegs_loadBufs _ c).due⟩

theorem sender_filter {n : Node} {c b : Nat} {e : CanErr} (hbuf : e.buf = some b) (htx : mayTx n c (canOf n c) b = true) :
    e.buf.filter (mayTx n c (canOf n c)) = some b := by
  rw [hbuf, Option.filter_some, htx]
  rfl

theorem tecUp_sender {e : CanErr} (hcode : e.code ≠ 3) (harb : e.stuffArb = false) (p : Bool) : tecUp p e = 8 + 8 * e.domRuns := by
  have h3 : (e.code == 3) = false := beq_eq_false_iff_ne.mpr hcode
  simp [tecUp, h3, harb]

section errors
variable {n : Node} {c : Nat} (hs : (canOf n c).state = .active ∨ (canOf n c).state = .passive) (e : CanErr)
include hs

/-- A mode other than NORMAL counts in neither counter. -/
theorem canErr_uncounted (hm : (canOf n c).mode ≠ 1) : (canOf (canErr n c e) c).tec = (canOf n c).tec ∧
    (canOf (canErr n c e) c).rec_ = (canOf n c).rec_ ∧
    (canOf (canErr n c e) c).state = if (canOf n c).mode = 2 then .integrating else (canOf n c).state := by
  obtain ⟨m, herr, hconf, -, -⟩ := canErr_counts (receives_of_onBus hs) e rfl
  have hm1 : (canOf m c).mode ≠ 1 := hconf.mode_eq ▸ hm
  have hall := (hconf.keeps (keepsCan_afterTx (.inl hm1))).2
  rw [herr, confine_of_mode_ne hm1]
  exact ⟨(congrArg Confinement.tec hall).trans (if_neg fun h => hm h.1), (congrArg Confinement.rec_ hall).trans (if_neg fun h => hm h.1),
    congrArg Confinement.state hall⟩

variable (hmode : (canOf n c).mode = 1) (hcfg : (canOf n c).cfgPend = false)
include hmode hcfg

/-- What an error leaves in NORMAL before the counters confine. -/
theorem canErr_normal {tx : Option Nat} (htx : e.buf.filter (mayTx n c (canOf n c)) = tx) : ∃ m, canErr n c e = afterTx (confine m c) c ∧
    (canOf m c).mode = 1 ∧ (canOf m c).state = (canOf n c).state ∧ (canOf m c).cfgPend = false ∧
    (canOf m c).tec = (if tx.isSome then (canOf n c).tec + tecUp (decide ((canOf n c).state = .passive)) e else (canOf n c).tec) ∧
    (canOf m c).rec_ = (if tx = none then min 255 ((canOf n c).rec_ + recUp e) else (canOf n c).rec_) ∧
    tally (canOf m c) = (min 65535 ((canOf n c).errs + 1), (canOf n c).busoffs, (canOf n c).trxFlt) := by
  obtain ⟨m, herr, hconf, -, htally⟩ := canErr_counts (receives_of_onBus hs) e htx
  have hc := hconf.2
  refine ⟨m, herr, (congrArg Confinement.mode hc).trans hmode, (congrArg Confinement.state hc).trans ?_,
    (congrArg Confinement.cfgPend hc).trans hcfg, (congrArg Confinement.tec hc).trans ?_, (congrArg Confinement.rec_ hc).trans ?_, htally⟩
  · exact if_neg (by rw [show (confinement (canOf n c)).mode = 1 from hmode]; decide)
  · show (if (canOf n c).mode = 1 ∧ tx.isSome = true then _ else _) = _
    simp only [hmode, true_and]
    rfl
  · show (if (canOf n c).mode = 1 ∧ tx = none then _ else _) = _
    simp only [hmode, true_and]
    rfl

/-- A receiver's error (ISO 11898-1, log entry 62). -/
theorem canErr_receiver (hbuf : e.buf = none) (htec : (canOf n c).tec < 128) :
    (canOf (canErr n c e) c).tec = (canOf n c).tec ∧
    (canOf (canErr n c e) c).rec_ = min 255 ((canOf n c).rec_ + recUp e) ∧
    (canOf (canErr n c e) c).state = (if (canOf n c).rec_ + recUp e < 128 then .active else .passive) ∧
    ((canOf n c).state = .active → 128 ≤ (canOf n c).rec_ + recUp e → (0x40 + c, 7) ∈ (canErr n c e).dueB) := by
  obtain ⟨m, herr, hmm, hst, hp, ht, hr, -⟩ := canErr_normal hs e hmode hcfg (tx := none) (by rw [hbuf]; rfl)
  rw [if_pos rfl] at hr
  rw [if_neg (by decide)] at ht
  have hsm : (canOf m c).state = .active ∨ (canOf m c).state = .passive := hst ▸ hs
  have htm : (canOf m c).tec < 128 := ht ▸ htec
  rw [herr]
  by_cases hlow : (canOf n c).rec_ + recUp e < 128
  · have hself := confine_low hmm hsm htm (by rw [hr]; omega)
    obtain ⟨h1, h2, h3, -⟩ := loads_state (m := m) (st := .active) (by rw [hself, canOf_modCan_self]) hp
    rw [h1, h2, h3, ht, hr, if_pos hlow]
    exact ⟨rfl, rfl, rfl, fun _ h => absurd hlow (by omega)⟩
  · obtain ⟨hself, htold⟩ := confine_high hmm hsm htm (by rw [hr]; omega)
    obtain ⟨h1, h2, h3, h4⟩ := loads_state hself hp
    rw [h1, h2, h3, ht, hr, if_neg hlow]
    exact ⟨rfl, rfl, rfl, fun ha _ => h4.subset (htold (hst.trans ha))⟩

variable {b : Nat} (hbuf : e.buf = some b) (htx : mayTx n c (canOf n c) b = true) (hcode : e.code ≠ 3) (harb : e.stuffArb = false)
include hbuf htx hcode harb

theorem canErr_sender (hruns : e.domRuns = 0) (htec : (canOf n c).tec < 120) (hrec : (canOf n c).rec_ < 128) :
    (canOf (canErr n c e) c).tec = (canOf n c).tec + 8 ∧ (canOf (canErr n c e) c).rec_ = (canOf n c).rec_ ∧
    (canOf (canErr n c e) c).state = .active := by
  obtain ⟨m, herr, hmm, hst, hp, ht, hr, -⟩ := canErr_normal hs e hmode hcfg (sender_filter hbuf htx)
  rw [if_neg (fun h => nomatch h)] at hr
  rw [Option.isSome_some, if_pos rfl, tecUp_sender hcode harb, hruns] at ht
  have hsm : (canOf m c).state = .active ∨ (canOf m c).state = .passive := hst ▸ hs
  have hself := confine_low hmm hsm (by omega) (by omega)
  obtain ⟨h1, h2, h3, -⟩ := loads_state (m := m) (st := .active) (by rw [hself, canOf_modCan_self]) hp
  rw [herr, h1, h2, h3]
  exact ⟨ht, hr, rfl⟩

theorem canErr_busOff (htec : 255 < (canOf n c).tec + 8 + 8 * e.domRuns) :
    (canOf (canErr n c e) c).state = .busOff ∧ (canOf (canErr n c e) c).tec = 256 ∧ (canOf (canErr n c e) c).b0 = none ∧
    (canOf (canErr n c e) c).b1 = none ∧ (canOf (canErr n c e) c).b2 = none ∧ (canOf (canErr n c e) c).nodeQ = [] ∧
    (canOf (canErr n c e) c).busoffs = min 255 ((canOf n c).busoffs + 1) ∧ (0x40 + c, 8) ∈ (canErr n c e).dueB := by
  obtain ⟨m, herr, hmm, hst, hp, ht, hr, htally⟩ := canErr_normal hs e hmode hcfg (sender_filter hbuf htx)
  rw [Option.isSome_some, if_pos rfl, tecUp_sender hcode harb] at ht
  have hsm : (canOf m c).state = .active ∨ (canOf m c).state = .passive := hst ▸ hs
  have hoff := offBus_enterBusOff m c
  rw [herr, confine_off hmm hsm (by omega), hoff.loads hp]
  obtain ⟨h0, h1, h2⟩ := hoff.bufs
  have hb : (canOf m c).busoffs = (canOf n c).busoffs := congrArg (fun x => x.2.1) htally
  have hb' := congrArg (fun x => x.2.1) hoff.tally
  refine ⟨hoff.state, hoff.tec, h0, h1, h2, hoff.nodeQ, ?_, hoff.told⟩
  rw [← hb]
  exact hb'

end errors

/-! Recovery, integration and protocol exceptions -/

theorem receives_of_off {n : Node} {c : Nat} (h : (canOf n c).state = .off ∨ (canOf n c).state = .busOff ∨
    (canOf n c).state = .recovering ∨ (canOf n c).state = .integrating) : receives n c = false := by
  rcases h with h | h | h | h <;> simp [receives, h]

theorem recoveryDone_of {n : Node} {c : Nat} (hs : (canOf n c).state = .recovering) (ht : (canOf n c).trxFlt = false) :
    CtlFrame c n (recoveryDone n c) ∧ (canOf (recoveryDone n c) c).state = (if (canOf n c).mode = 4 then .searching else .active) ∧
    (canOf (recoveryDone n c) c).tec = 0 ∧ (canOf (recoveryDone n c) c).rec_ = 0 ∧ (0x40 + c, 9) ∈ (recoveryDone n c).dueB := by
  have hrun : recoveryDone n c = loadBufs (raiseB (note (modCan n c (fun x => { x with
      state := if x.mode = 4 then .searching else .active, rdSince := n.now, tec := 0, rec_ := 0 }))
      (recComm (modCan n c (fun x => { x with
        state := if x.mode = 4 then .searching else .active, rdSince := n.now, tec := 0, rec_ := 0 })) 2 c 0)) (canPage c) 9) c := by
    rw [recoveryDone, if_pos ⟨hs, by rw [ht]; rfl⟩]
  rw [hrun]
  have hctl := ctl_modCan n c (fun x => { x with
    state := if x.mode = 4 then .searching else .active, rdSince := n.now, tec := 0, rec_ := 0 })
  have hself := canOf_modCan_self n c (fun x => { x with
    state := if x.mode = 4 then .searching else .active, rdSince := n.now, tec := 0, rec_ := 0 })
  generalize modCan n c (fun x => { x with
    state := if x.mode = 4 then .searching else .active, rdSince := n.now, tec := 0, rec_ := 0 }) = m at hctl hself
  have hctl' := ((recFrame_note m (recComm m 2 c 0)).ctl c).trans (ctl_raiseB (note m (recComm m 2 c 0)) c (canPage c) 9)
  have hcan : canOf (raiseB (note m (recComm m 2 c 0)) (canPage c) 9) c = canOf m c := by rw [canOf_raiseB, canOf_note]
  have htold : (0x40 + c, 9) ∈ (raiseB (note m (recComm m 2 c 0)) (canPage c) 9).dueB :=
    List.mem_append_right _ (List.mem_singleton_self _)
  generalize raiseB (note m (recComm m 2 c 0)) (canPage c) 9 = k at *
  have hconf := (keepsCan_loadBufs k c).2
  rw [hcan, hself] at hconf
  exact ⟨(hctl.trans hctl').trans (ctl_loadBufs k c), congrArg Confinement.state hconf, congrArg Confinement.tec hconf,
    congrArg Confinement.rec_ hconf, (keepsRegs_loadBufs k c).due.subset htold⟩

theorem integrationDone_of {n : Node} {c : Nat} (hs : (canOf n c).state = .integrating) :
    integrationDone n c = { n with cans := (integrationDone n c).cans } ∧ OnlyCan c n (integrationDone n c) ∧
    (canOf (integrationDone n c) c).state =
      (if (canOf n c).mode = 1 ∧ (128 ≤ (canOf n c).tec ∨ 128 ≤ (canOf n c).rec_) then .passive else .active) ∧
    (canOf (integrationDone n c) c).tec = (canOf n c).tec ∧
    outstanding (canOf (integrationDone n c) c) = outstanding (canOf n c) := by
  rw [integrationDone, if_pos hs]
  have honly := onlyCan_modCan n c (fun x => { x with
    wasRx := false, state := if x.mode = 1 ∧ (128 ≤ x.tec ∨ 128 ≤ x.rec_) then .passive else .active })
  have hself := canOf_modCan_self n c (fun x => { x with
    wasRx := false, state := if x.mode = 1 ∧ (128 ≤ x.tec ∨ 128 ≤ x.rec_) then .passive else .active })
  have hrest : modCan n c (fun x => { x with
      wasRx := false, state := if x.mode = 1 ∧ (128 ≤ x.tec ∨ 128 ≤ x.rec_) then .passive else .active }) =
    { n with cans := (modCan n c (fun x => { x with
      wasRx := false, state := if x.mode = 1 ∧ (128 ≤ x.tec ∨ 128 ≤ x.rec_) then .passive else .active })).cans } := rfl
  generalize modCan n c (fun x => { x with
    wasRx := false, state := if x.mode = 1 ∧ (128 ≤ x.tec ∨ 128 ≤ x.rec_) then .passive else .active }) = m at *
  have hconf := (keepsCan_loadBufs m c).2
  obtain ⟨hload, hloadrest⟩ := loadBufs_loads m c
  rw [hself] at hconf hload
  refine ⟨?_, honly.trans (keepsCan_loadBufs m c).1, congrArg Confinement.state hconf, congrArg Confinement.tec hconf, hload.2⟩
  rw [hrest] at hloadrest
  rw [← hrest] at hloadrest
  rw [hloadrest, hrest]

theorem loseArb_idle {n : Node} {c : Nat} (h : intxBuf (canOf n c) = none) : loseArb n c none = n := by
  refine loseArb_same (fun d z hd hz => .inr ?_)
  have hfind := List.find?_eq_none.mp h d (List.mem_range.mpr hd)
  rw [hz] at hfind
  exact Bool.eq_false_iff.mpr hfind

theorem canPxe_not {n : Node} {c : Nat} (h : receives n c = false ∨ fdoe n c = false) : canPxe n c = n := by
  rw [canPxe, if_pos]
  rcases h with h | h <;> simp [h]

theorem canPxe_onBus {n : Node} {c : Nat} (hs : (canOf n c).state = .active ∨ (canOf n c).state = .passive) (hf : fdoe n c = true)
    (hi : intxBuf (canOf n c) = none) (hcfg : (canOf n c).cfgPend = false) :
    canPxe n c = modCan n c (fun x => { x with pxe := sat 255 (x.pxe + 1), state := .integrating }) := by
  have hns : (canOf n c).state ≠ .searching := by rcases hs with h | h <;> rw [h] <;> decide
  simp only [canPxe, receives_of_onBus hs, hf, Bool.not_true, Bool.or_self, Bool.false_eq_true, if_false, loseArb_idle hi,
    decide_eq_false hns, modCan_modCan]
  have hself := canOf_modCan_self n c (fun x => { x with pxe := sat 255 (x.pxe + 1), state := .integrating })
  have hpend := congrArg CanCtl.cfgPend hself
  rw [afterTx_loads (hpend.trans hcfg), loadBufs_of_not_sends]
  rw [hself]
  exact canSends_of_state (fun h => nomatch h) (fun h => nomatch h)

theorem rdCands_modCan (n : Node) (c : Nat) (f : CanCtl → CanCtl) : rdCands (modCan n c f) c = rdCands n c := rfl

theorem canPxe_searching {n : Node} {c : Nat} (hs : (canOf n c).state = .searching) (hr : rdTries n c = true) (hf : fdoe n c = true)
    (hi : intxBuf (canOf n c) = none) : canPxe n c = modCan n c (fun x => { x with
      pxe := sat 255 (x.pxe + 1), rdCand := nextCand n c, rdFrames := 0, rdSince := n.now,
      rdSwitches := sat 65535 (x.rdSwitches + 1) }) := by
  have hrec : receives n c = true := by
    rw [receives, hs]
    exact hr
  have hcands : rdCands n c ≠ [] := fun h => by
    rw [rdTries, h] at hr
    exact nomatch hr
  have hnext : nextCand (modCan n c (fun x => { x with pxe := sat 255 (x.pxe + 1) })) c = nextCand n c := by
    have hself := congrArg CanCtl.rdCand (canOf_modCan_self n c (fun x => { x with pxe := sat 255 (x.pxe + 1) }))
    simp only [nextCand, rdCands_modCan, hself]
  simp only [canPxe, hrec, hf, Bool.not_true, Bool.or_self, Bool.false_eq_true, if_false, loseArb_idle hi, hs, decide_true, if_true]
  rw [rdMove, rdCands_modCan, if_neg hcands, hnext, modCan_modCan]
  rfl

end Sys2Proof.Machine
end

section
/-! PROOF. Transceiver faults, and the statement on fault confinement (13 R296, R297, R323). -/

namespace Sys2Proof.Machine

/-! Transceivers -/

theorem txdTimeout_leaves (n : Node) (c : Nat) :
    SameButRecords (settle (txdTimeout n c)) { n with cans := (settle (txdTimeout n c)).cans } ∧
    (∀ k, k ≠ c → canOf (settle (txdTimeout n c)) k = canOf n k) ∧
    canOf (settle (txdTimeout n c)) c = { canOf n c with txdTmo := true } ∧ (0x40 + c, 13) ∈ (settle (txdTimeout n c)).dueB := by
  have honly := onlyCan_modCan n c (fun x => { x with txdTmo := true })
  have hself := canOf_modCan_self n c (fun x => { x with txdTmo := true })
  have hrest : modCan n c (fun x => { x with txdTmo := true }) = { n with cans := (modCan n c (fun x => { x with txdTmo := true })).cans } := rfl
  rw [txdTimeout]
  dsimp only
  generalize modCan n c (fun x => { x with txdTmo := true }) = m at *
  have hcan : ∀ k, canOf (noteIf (!(canOf n c).txdTmo) m (recComm m 5 c 0)) k = canOf m k := canOf_noteIf _ m _
  have hrec : RecFrame m (noteIf (!(canOf n c).txdTmo) m (recComm m 5 c 0)) := recFrame_ite (recFrame_note m _) (recFrame_refl m)
  have htold : (0x40 + c, 13) ∈ (raiseB (noteIf (!(canOf n c).txdTmo) m (recComm m 5 c 0)) (canPage c) 13).dueB :=
    List.mem_append_right _ (List.mem_singleton_self _)
  refine ⟨?_, fun k hk => ?_, ?_, htold⟩
  · generalize noteIf (!(canOf n c).txdTmo) m (recComm m 5 c 0) = k at hrec
    obtain ⟨r, l, hd, d, q, rfl, hh⟩ := hrec
    rw [hrest]
    refine ⟨rfl, fun p hp => (hh p hp).trans ?_⟩
    rw [hrest]
    rfl
  · rw [canOf_settle, canOf_raiseB, hcan, honly k hk]
  · rw [canOf_settle, canOf_raiseB, hcan, hself]

/-- Of a list without a repetition each key has its step once, on the node as the steps before it leave it; R is what every
step keeps. -/
theorem foldl_at {α : Type} {R : Node → Node → Prop} (refl : ∀ n, R n n) (trans : ∀ {a b c}, R a b → R b c → R a c)
    {f : Node → Nat → Node} {g : Node → Nat → α} (hR : ∀ n c, R n (f n c)) (honly : ∀ n c k, k ≠ c → g (f n c) k = g n k)
    {l : List Nat} (hl : l.Nodup) {k : Nat} (hk : k ∈ l) (n : Node) :
    ∃ m, R n m ∧ g m k = g n k ∧ g (l.foldl f n) k = g (f m k) k ∧ R (f m k) (l.foldl f n) := by
  induction l generalizing n with
  | nil => exact nomatch hk
  | cons c r ih =>
    obtain ⟨hc, hr⟩ := List.nodup_cons.mp hl
    rcases List.mem_cons.mp hk with rfl | hmem
    · refine ⟨n, refl n, rfl, ?_, foldl_rel refl trans hR r _⟩
      exact List.foldlRecOn (motive := fun m => g m k = g (f n k) k) r f rfl
        (fun m hm d hd => (honly m d k (fun h => hc (h ▸ hd))).trans hm)
    · have hne : k ≠ c := fun h => hc (h ▸ hmem)
      obtain ⟨m, hrel, hm, hself, hkeep⟩ := ih hr hmem (f n c)
      exact ⟨m, trans (hR n c) hrel, hm.trans (honly n c k hne), hself, hkeep⟩

/-- A transceiver fault on one controller. -/
def trxOff (n : Node) (c : Nat) : Node :=
  if (canOf n c).state = .off ∨ (canOf n c).state = .busOff then n else enterBusOff n c

def trxStep (n : Node) (c : Nat) : Node :=
  if (canOf n c).trxFlt then n
  else raiseB (note (trxOff (modCan n c (fun x => { x with trxFlt := true })) c)
    (recComm (trxOff (modCan n c (fun x => { x with trxFlt := true })) c) 6 c 0)) (canPage c) 14

/-- What a transceiver fault makes of a controller that had none. -/
structure TrxDown (c : Nat) (n u : Node) : Prop where
  fault : (canOf u c).trxFlt = true
  state : (canOf u c).state = if (canOf n c).state = .off then .off else .busOff
  hostQ : (canOf u c).hostQ = (canOf n c).hostQ
  told : (0x40 + c, 14) ∈ u.dueB
  off : (canOf n c).state ≠ .off → (canOf n c).state ≠ .busOff → (canOf u c).tec = 256 ∧
    (canOf u c).b0 = none ∧ (canOf u c).b1 = none ∧ (canOf u c).b2 = none ∧ (canOf u c).nodeQ = [] ∧
    (canOf u c).busoffs = min 255 ((canOf n c).busoffs + 1) ∧ (0x40 + c, 8) ∈ u.dueB

theorem trxOff_regs (n : Node) (c : Nat) : KeepsRegs n (trxOff n c) ∧ OnlyCan c n (trxOff n c) :=
  pred_ite (P := fun u => KeepsRegs n u ∧ OnlyCan c n u) ⟨KeepsRegs.refl n, fun _ _ => rfl⟩
    ⟨(offBus_enterBusOff n c).regs, (offBus_enterBusOff n c).only⟩

theorem trxStep_regs (n : Node) (c : Nat) : KeepsRegs n (trxStep n c) ∧ OnlyCan c n (trxStep n c) := by
  have hset := onlyCan_modCan n c (fun x => { x with trxFlt := true })
  have hkeep := keepsRegs_modCan n c (fun x => { x with trxFlt := true })
  rw [trxStep]
  generalize modCan n c (fun x => { x with trxFlt := true }) = m at *
  obtain ⟨hregs, honly⟩ := trxOff_regs m c
  generalize trxOff m c = k at *
  have hlast := (errs_note c k (recComm k 6 c 0)).trans (errs_raiseB c _ (canPage c) 14)
  exact pred_ite (P := fun u => KeepsRegs n u ∧ OnlyCan c n u) ⟨KeepsRegs.refl n, fun _ _ => rfl⟩
    ⟨(hkeep.trans hregs).trans hlast.regs, (hset.trans honly).trans hlast.only⟩

theorem trxStep_down {n : Node} {c : Nat} (h : (canOf n c).trxFlt = false) : TrxDown c n (trxStep n c) := by
  have hself := canOf_modCan_self n c (fun x => { x with trxFlt := true })
  rw [trxStep, h, if_neg (by decide)]
  generalize modCan n c (fun x => { x with trxFlt := true }) = m at hself
  have hst : (canOf m c).state = (canOf n c).state := by rw [hself]
  have hhost : (canOf m c).hostQ = (canOf n c).hostQ := by rw [hself]
  have hflt : (canOf m c).trxFlt = true := by rw [hself]
  have hbo : (canOf m c).busoffs = (canOf n c).busoffs := by rw [hself]
  have hdue : ∀ k, k.dueB <+: (raiseB (note k (recComm k 6 c 0)) (canPage c) 14).dueB := fun k =>
    (dueB_note k _).trans (List.prefix_append _ _)
  have htold : ∀ k, (0x40 + c, 14) ∈ (raiseB (note k (recComm k 6 c 0)) (canPage c) 14).dueB := fun k =>
    List.mem_append_right _ (List.mem_singleton_self _)
  have hcan : ∀ k, canOf (raiseB (note k (recComm k 6 c 0)) (canPage c) 14) c = canOf k c := fun k => by rw [canOf_raiseB, canOf_note]
  unfold trxOff
  split
  next hoff =>
    rw [hst] at hoff
    refine ⟨(congrArg CanCtl.trxFlt (hcan m)).trans hflt, (congrArg CanCtl.state (hcan m)).trans ?_,
      (congrArg CanCtl.hostQ (hcan m)).trans hhost, htold m, fun h1 h2 => ?_⟩
    · rw [hst]
      rcases hoff with h | h <;> rw [h] <;> rfl
    · exact absurd hoff (not_or.mpr ⟨h1, h2⟩)
  next hon =>
    rw [hst, not_or] at hon
    have hdown := offBus_enterBusOff m c
    generalize enterBusOff m c = k at hdown
    obtain ⟨h0, h1, h2⟩ := hdown.bufs
    have ht := hdown.tally
    simp only [tally, Prod.mk.injEq] at ht
    obtain ⟨-, htb, htf⟩ := ht
    refine ⟨?_, ?_, ?_, htold k, fun _ _ => ?_⟩
    · rw [hcan, htf, hflt]
    · rw [hcan, hdown.state, if_neg hon.1]
    · rw [hcan, hdown.hostQ, hhost]
    · rw [hcan]
      exact ⟨hdown.tec, h0, h1, h2, hdown.nodeQ, by rw [htb, hbo], (hdue k).subset hdown.told⟩

/-- The controllers of a group. -/
def ofGroup (g : Nat) : List Nat := [4 * g, 4 * g + 1, 4 * g + 2, 4 * g + 3]

theorem mem_ofGroup {g k : Nat} : k ∈ ofGroup g ↔ k / 4 = g := by
  simp only [ofGroup, List.mem_cons, List.not_mem_nil, or_false]
  omega

theorem ofGroup_nodup (g : Nat) : (ofGroup g).Nodup := by
  simp [ofGroup]

theorem trxFault_eq (n : Node) (g : Nat) : trxFault n g = (ofGroup g).foldl trxStep n := rfl

theorem canOf_trxFault_other {n : Node} {g k : Nat} (h : k / 4 ≠ g) : canOf (trxFault n g) k = canOf n k := by
  rw [trxFault_eq]
  refine List.foldlRecOn (motive := fun m => canOf m k = canOf n k) _ _ rfl (fun m hm c hc => ?_)
  refine ((trxStep_regs m c).2 k (fun hkc => h ?_)).trans hm
  rw [hkc]
  exact mem_ofGroup.mp hc

theorem trxFault_member {n : Node} {g k : Nat} (h : k / 4 = g) : ((canOf n k).trxFlt = true → canOf (trxFault n g) k = canOf n k) ∧
    ((canOf n k).trxFlt = false → TrxDown k n (trxFault n g)) := by
  rw [trxFault_eq]
  obtain ⟨m, -, hm, hself, hkeep⟩ := foldl_at KeepsRegs.refl KeepsRegs.trans (g := canOf) (fun n c => (trxStep_regs n c).1)
    (fun n c => (trxStep_regs n c).2) (ofGroup_nodup g) (mem_ofGroup.mpr h) n
  generalize (ofGroup g).foldl trxStep n = u at *
  refine ⟨fun hf => ?_, fun hf => ?_⟩
  · have hsame : trxStep m k = m := by rw [trxStep, hm, hf, if_pos rfl]
    rw [hself, hsame, hm]
  · obtain ⟨h1, h2, h3, h4, h5⟩ := trxStep_down (n := m) (c := k) (by rw [hm]; exact hf)
    rw [← hself, hm] at *
    exact ⟨h1, h2, h3, hkeep.due.subset h4, fun ha hb => by
      obtain ⟨t, b0, b1, b2, q, o, d⟩ := h5 ha hb
      exact ⟨t, b0, b1, b2, q, o, hkeep.due.subset d⟩⟩

/-- The end of a transceiver fault on one controller. -/
def trxCleared (x : CanCtl) : CanCtl := { x with trxFlt := false }
def clearStep (n : Node) (c : Nat) : Node := modCan n c trxCleared

theorem trxClear_eq (n : Node) (g : Nat) : trxClear n g = (ofGroup g).foldl clearStep n := rfl

theorem canOf_clearStep_self (n : Node) (c : Nat) : canOf (clearStep n c) c = trxCleared (canOf n c) := canOf_modCan_self n c trxCleared

theorem canOf_clearStep_ne (n : Node) {k c : Nat} (h : k ≠ c) : canOf (clearStep n c) k = canOf n k := canOf_modCan_ne n c trxCleared h

theorem signals_of_cans {n u : Node} (h : u = { n with cans := u.cans }) : SameButSignals (settle u) { n with cans := (settle u).cans } := by
  rw [h]
  rfl

theorem trxClear_leaves (n : Node) (g : Nat) : SameButSignals (settle (trxClear n g)) { n with cans := (settle (trxClear n g)).cans } ∧
    ∀ k, canOf (settle (trxClear n g)) k = if k / 4 = g then trxCleared (canOf n k) else canOf n k := by
  have hrest : trxClear n g = { n with cans := (trxClear n g).cans } :=
    foldl_rel (R := fun a b : Node => b = { a with cans := b.cans }) (fun _ => rfl)
      (fun {a b c} hab hbc => by rw [hab] at hbc; exact hbc) (f := clearStep) (fun _ _ => rfl) (ofGroup g) n
  refine ⟨signals_of_cans hrest, fun k => ?_⟩
  have honce := foldl_once (f := clearStep) (g := fun m => canOf m k) (h := trxCleared) (p := k) (fun m => canOf_clearStep_self m k)
    (fun m q hq => canOf_clearStep_ne m hq) (ofGroup_nodup g) n
  simp only [mem_ofGroup] at honce
  rw [canOf_settle, trxClear_eq]
  exact honce

/-! The statement -/

theorem acts_canError {t c : Nat} {e : CanErr} {s : State} (hc : c < 24)
    (hs : (canOf s.node c).state = .active ∨ (canOf s.node c).state = .passive) :
    Acts (.canError t c e) s t (fun n u =>
      (∀ k, k ≠ c → canOf u k = canOf n k) ∧ u.regs = n.regs ∧
      (canOf u c).errs = min 65535 ((canOf n c).errs + 1) ∧ (canOf u c).lec = e.code ∧ (canOf u c).lecData = e.dataPhase ∧
      ((canOf n c).mode ≠ 1 → (canOf u c).tec = (canOf n c).tec ∧ (canOf u c).rec_ = (canOf n c).rec_ ∧
        (canOf u c).state = (if (canOf n c).mode = 2 then .integrating else (canOf n c).state)) ∧
      ((canOf n c).mode = 1 → e.buf = none → (canOf n c).tec < 128 → (canOf n c).cfgPend = false →
        (canOf u c).tec = (canOf n c).tec ∧ (canOf u c).rec_ = min 255 ((canOf n c).rec_ + recUp e) ∧
        (canOf u c).state = (if (canOf n c).rec_ + recUp e < 128 then .active else .passive) ∧
        ((canOf n c).state = .active → 128 ≤ (canOf n c).rec_ + recUp e → (0x40 + c, 7) ∈ u.dueB)) ∧
      (∀ b, (canOf n c).mode = 1 → e.buf = some b → mayTx n c (canOf n c) b = true → (canOf n c).cfgPend = false → e.code ≠ 3 →
        e.stuffArb = false → e.domRuns = 0 → (canOf n c).tec < 120 → (canOf n c).rec_ < 128 →
        (canOf u c).tec = (canOf n c).tec + 8 ∧ (canOf u c).rec_ = (canOf n c).rec_ ∧ (canOf u c).state = .active) ∧
      (∀ b, (canOf n c).mode = 1 → e.buf = some b → mayTx n c (canOf n c) b = true → (canOf n c).cfgPend = false → e.code ≠ 3 →
        e.stuffArb = false → 255 < (canOf n c).tec + 8 + 8 * e.domRuns →
        (canOf u c).state = .busOff ∧ (canOf u c).tec = 256 ∧ (canOf u c).b0 = none ∧ (canOf u c).b1 = none ∧ (canOf u c).b2 = none ∧
        (canOf u c).nodeQ = [] ∧ (canOf u c).busoffs = min 255 ((canOf n c).busoffs + 1) ∧ (0x40 + c, 8) ∈ u.dueB)) := by
  refine acts_onCan hc (f := fun n => canErr n c e) rfl ?_
  have hn : (canOf (atInstant s t) c).state = .active ∨ (canOf (atInstant s t) c).state = .passive := hs
  generalize atInstant s t = n at hn
  obtain ⟨honly, hregs, herrs, hlec, hld⟩ := canErr_leaves (receives_of_onBus hn) e
  exact ⟨honly, hregs, herrs, hlec, hld, canErr_uncounted hn e, fun hm hb ht hcfg => canErr_receiver hn e hm hcfg hb ht,
    fun b hm hb htx hcfg h3 ha hr ht hrec => canErr_sender hn e hm hcfg hb htx h3 ha hr ht hrec,
    fun b hm hb htx hcfg h3 ha ht => canErr_busOff hn e hm hcfg hb htx h3 ha ht⟩

theorem acts_trxFltClear {t g : Nat} {s : State} (hg : g < 6) : Acts (.trxFltClear t g) s t (fun n u =>
    SameButSignals u { n with cans := u.cans } ∧
    ∀ k, canOf u k = if k / 4 = g then { canOf n k with trxFlt := false } else canOf n k) := by
  refine acts_leaves (f := fun n => if g < 6 then trxClear n g else n) rfl (fun u hu => ?_)
  rw [if_pos hg] at hu
  rw [hu]
  exact trxClear_leaves _ g

theorem acts_trxFault {t g : Nat} {s : State} (hg : g < 6) : Acts (.trxFault t g) s t (fun n u =>
    u.regs = n.regs ∧ (∀ k, k / 4 ≠ g → canOf u k = canOf n k) ∧
    ∀ k, k / 4 = g → (canOf u k).trxFlt = true ∧
      ((canOf n k).trxFlt = true → canOf u k = canOf n k) ∧
      ((canOf n k).trxFlt = false → (canOf u k).state = (if (canOf n k).state = .off then .off else .busOff) ∧
        (canOf u k).hostQ = (canOf n k).hostQ ∧ (0x40 + k, 14) ∈ u.dueB ∧
        ((canOf n k).state ≠ .off → (canOf n k).state ≠ .busOff → (canOf u k).tec = 256 ∧
          (canOf u k).b0 = none ∧ (canOf u k).b1 = none ∧ (canOf u k).b2 = none ∧ (canOf u k).nodeQ = [] ∧
          (canOf u k).busoffs = min 255 ((canOf n k).busoffs + 1) ∧ (0x40 + k, 8) ∈ u.dueB))) := by
  refine acts_leaves (f := fun n => if g < 6 then trxFault n g else n) rfl (fun u hu => ?_)
  rw [if_pos hg] at hu
  generalize atInstant s t = n at hu ⊢
  have hregs : KeepsRegs n (trxFault n g) := keepsRegs_foldl (fun n c => (trxStep_regs n c).1) (ofGroup g) n
  have hother := fun k (h : k / 4 ≠ g) => canOf_trxFault_other (n := n) h
  have hmember := fun k (h : k / 4 = g) => trxFault_member (n := n) h
  rw [← hu] at hregs hother hmember
  refine ⟨hregs.regs, hother, fun k hk => ?_⟩
  obtain ⟨hon, hoff⟩ := hmember k hk
  rw [canOf_settle]
  refine ⟨?_, hon, fun h => ?_⟩
  · cases hf : (canOf n k).trxFlt with
    | true => rw [hon hf, hf]
    | false => exact (hoff hf).fault
  · obtain ⟨-, hst, hq, htold, hend⟩ := hoff h
    exact ⟨hst, hq, htold, hend⟩

/-- Settles O50: an error counts once and is then confined by the counters; the entry to BUS_OFF ends every buffer, and a group's
controllers are taken there each on its own. -/
theorem faultsAreConfined : Obligations.FaultsAreConfined := by
  refine ⟨fun t c e s hc => ⟨fun hoff => ?_, fun hs => acts_canError hc hs, fun hs ht => ?_, fun hno => ?_, fun hs => ?_,
    fun hs => ?_, fun hno => ?_, fun hs hf hi hcfg => ?_, fun hs hr hf hi => ?_⟩, fun t c g s hc hg => ⟨?_, ?_, ?_⟩⟩
  · refine acts_onCan hc (f := fun n => canErr n c e) rfl ?_
    rw [canErr_of_not_receives (n := atInstant s t) (receives_of_off hoff)]
    exact sameButSignals_settle _
  · refine acts_onCan hc (f := fun n => recoveryDone n c) rfl ?_
    obtain ⟨hctl, hall⟩ := recoveryDone_of (n := atInstant s t) hs ht
    exact ⟨hctl.canOnly, hall⟩
  · refine acts_onCan hc (f := fun n => recoveryDone n c) rfl ?_
    have hsame : recoveryDone (atInstant s t) c = atInstant s t := by
      rw [recoveryDone, if_neg]
      rintro ⟨h1, h2⟩
      rcases hno with h | h
      · exact h h1
      · rw [show (canOf (atInstant s t) c).trxFlt = true from h] at h2
        exact nomatch h2
    rw [hsame]
    exact sameButSignals_settle _
  · refine acts_onCan hc (f := fun n => integrationDone n c) rfl ?_
    obtain ⟨hrest, honly, hst, htec, hout⟩ := integrationDone_of (n := atInstant s t) hs
    exact ⟨signals_of_cans hrest, honly, hst, htec, hout⟩
  · refine acts_onCan hc (f := fun n => integrationDone n c) rfl ?_
    have hn : (canOf (atInstant s t) c).state ≠ .integrating := hs
    rw [integrationDone, if_neg hn]
    exact sameButSignals_settle _
  · refine acts_onCan hc (f := fun n => canPxe n c) rfl ?_
    rw [canPxe_not (n := atInstant s t) hno]
    exact sameButSignals_settle _
  · refine acts_onCan hc (f := fun n => canPxe n c) rfl ?_
    rw [canPxe_onBus (n := atInstant s t) hs hf hi hcfg]
    refine ⟨rfl, fun k hk => canOf_modCan_ne (atInstant s t) c (fun x => { x with pxe := sat 255 (x.pxe + 1), state := .integrating }) hk, ?_⟩
    rw [canOf_settle, canOf_modCan_self]
    rfl
  · refine acts_onCan hc (f := fun n => canPxe n c) rfl ?_
    rw [canPxe_searching (n := atInstant s t) hs hr hf hi]
    refine ⟨rfl, fun k hk => ?_, ?_⟩
    · rw [canOf_settle, canOf_modCan_ne _ c _ hk]
    · rw [canOf_settle, canOf_modCan_self]
      rfl
  · exact acts_onCan hc (f := fun n => txdTimeout n c) rfl (txdTimeout_leaves _ c)
  · exact acts_trxFault hg
  · exact acts_trxFltClear hg

end Sys2Proof.Machine
end

section
/-! PROOF. The trip fabric and the safety outputs: what each operation leaves (10 R216 to R233). -/

namespace Sys2Proof.Machine

/-! What the fabric changes -/

/-- u differs from n in the safety part and in the commands under way. -/
def SafFrame (n u : Node) : Prop := u = { n with safety := u.safety, cmds := u.cmds }

theorem SafFrame.refl (n : Node) : SafFrame n n := rfl

theorem SafFrame.trans {a b c : Node} (h : SafFrame a b) (k : SafFrame b c) : SafFrame a c := by
  rw [SafFrame] at *
  rw [h] at k
  exact k

theorem safFrame_ite {p : Prop} [Decidable p] {n a b : Node} (ha : SafFrame n a) (hb : SafFrame n b) :
    SafFrame n (if p then a else b) := pred_ite ha hb

theorem safFrame_foldl {α : Type} {f : Node → α → Node} (h : ∀ n x, SafFrame n (f n x)) (l : List α) (n : Node) :
    SafFrame n (l.foldl f n) := foldl_rel SafFrame.refl SafFrame.trans h l n

theorem SafFrame.regs {n u : Node} (h : SafFrame n u) : u.regs = n.regs := by
  have k := congrArg Node.regs h
  exact k

theorem SafFrame.signals {n u : Node} (h : SafFrame n u) :
    SameButSignals (settle u) { n with safety := (settle u).safety, cmds := (settle u).cmds } := by
  rw [SafFrame] at h
  rw [h]
  rfl

theorem safFrame_modOutput (n : Node) (o : Nat) (f : Output → Output) : SafFrame n (modOutput n o f) := rfl
theorem safFrame_modFn (n : Node) (k : Nat) (f : SafetyFn → SafetyFn) : SafFrame n (modFn n k f) := rfl
theorem safFrame_modCopy (n : Node) (c : Nat) (f : FabCopy → FabCopy) : SafFrame n (modCopy n c f) := rfl
theorem safFrame_modEval (n : Node) (c k : Nat) (f : Evaluator → Evaluator) : SafFrame n (modEval n c k f) := rfl
theorem safFrame_modPair (n : Node) (k : Nat) (f : PairSt → PairSt) : SafFrame n (modPair n k f) := rfl
theorem safFrame_modSafety (n : Node) (f : Safety → Safety) : SafFrame n (modSafety n f) := rfl
theorem safFrame_resolveCmd (n : Node) (p : Nat) (r : Option Bool) : SafFrame n (resolveCmd n p r) := rfl

/-! Outputs -/

@[simp] theorem outputOf_note (n : Node) (r : Rec) (o : Nat) : outputOf (note n r) o = outputOf n o := by
  obtain ⟨_, _, _, _, _, e, _⟩ := recFrame_note n r
  rw [e]
  rfl
@[simp] theorem outputOf_resolveCmd (n : Node) (p : Nat) (r : Option Bool) (o : Nat) : outputOf (resolveCmd n p r) o = outputOf n o := rfl
@[simp] theorem outputOf_raiseB (n : Node) (p b o : Nat) : outputOf (raiseB n p b) o = outputOf n o := rfl
@[simp] theorem outputOf_settle (n : Node) (o : Nat) : outputOf (settle n) o = outputOf n o := rfl

/-- u differs from n in the outputs and in the commands under way. -/
def OutsFrame (n u : Node) : Prop := u = { n with safety := { n.safety with outs := u.safety.outs }, cmds := u.cmds }

theorem OutsFrame.trans {a b c : Node} (h : OutsFrame a b) (k : OutsFrame b c) : OutsFrame a c := by
  rw [OutsFrame] at *
  rw [h] at k
  exact k

theorem OutsFrame.saf {n u : Node} (h : OutsFrame n u) : SafFrame n u := by
  rw [OutsFrame] at h
  rw [h]
  rfl

/-- A change of one output. -/
structure OnlyOut (o : Nat) (n u : Node) : Prop where
  outs : OutsFrame n u
  other : ∀ k, k ≠ o → outputOf u k = outputOf n k

theorem OnlyOut.frame {o : Nat} {n u : Node} (h : OnlyOut o n u) : SafFrame n u := h.outs.saf

theorem OnlyOut.refl (o : Nat) (n : Node) : OnlyOut o n n := ⟨rfl, fun _ _ => rfl⟩

theorem OnlyOut.trans {o : Nat} {a b c : Node} (h : OnlyOut o a b) (k : OnlyOut o b c) : OnlyOut o a c :=
  ⟨h.outs.trans k.outs, fun j hj => (k.other j hj).trans (h.other j hj)⟩

theorem onlyOut_modOutput (n : Node) (o : Nat) (f : Output → Output) : OnlyOut o n (modOutput n o f) :=
  ⟨rfl, fun _ hk => outputOf_modOutput_ne n f hk⟩

theorem onlyOut_resolveCmd (o : Nat) (n : Node) (p : Nat) (r : Option Bool) : OnlyOut o n (resolveCmd n p r) :=
  ⟨rfl, fun _ _ => rfl⟩

theorem onlyOut_ite {p : Prop} [Decidable p] {o : Nat} {n a b : Node} (ha : OnlyOut o n a) (hb : OnlyOut o n b) :
    OnlyOut o n (if p then a else b) := pred_ite ha hb

/-- The feedback's part of an output, left out. -/
def unsupervised (x : Output) : Output := { x with expect := false, expectAt := 0, fbSeen := false, misSince := none }

theorem fbStep_leaves (n : Node) (o : Nat) : OnlyOut o n (fbStep n o) ∧
    unsupervised (outputOf (fbStep n o) o) = unsupervised (outputOf n o) ∧
    (outputOf (fbStep n o) o).expect = (outputOf n o).expect := by
  unfold fbStep
  split
  · refine ⟨onlyOut_modOutput n o _, ?_, ?_⟩
    · rw [outputOf_modOutput_self]
      rfl
    · rw [outputOf_modOutput_self]
  · exact ⟨OnlyOut.refl o n, rfl, rfl⟩

theorem setExpect_leaves (n : Node) (o : Nat) (v : Bool) : OnlyOut o n (setExpect n o v) ∧
    unsupervised (outputOf (setExpect n o v) o) = unsupervised (outputOf n o) ∧ (outputOf (setExpect n o v) o).expect = v := by
  have honly := onlyOut_modOutput n o (fun x => if x.expect = v then x else { x with expect := v, expectAt := n.now })
  have hself := outputOf_modOutput_self n o (fun x => if x.expect = v then x else { x with expect := v, expectAt := n.now })
  rw [setExpect]
  generalize modOutput n o (fun x => if x.expect = v then x else { x with expect := v, expectAt := n.now }) = m at honly hself
  obtain ⟨honly', hun, hex⟩ := fbStep_leaves m o
  have hm : unsupervised (outputOf m o) = unsupervised (outputOf n o) ∧ (outputOf m o).expect = v := by
    rw [hself]
    split
    next h => exact ⟨rfl, h⟩
    · exact ⟨rfl, rfl⟩
  exact ⟨honly.trans honly', hun.trans hm.1, hex.trans hm.2⟩

/-- The test in progress ends: its command is no more the output's. -/
theorem endTest_leaves (n : Node) (o : Nat) (ok : Bool) : OnlyOut o n (endTest n o ok) ∧
    outputOf (endTest n o ok) o = { outputOf n o with byCmd := false } := by
  unfold endTest
  split
  · refine ⟨(onlyOut_modOutput n o _).trans (onlyOut_resolveCmd o _ 8 _), ?_⟩
    rw [outputOf_resolveCmd, outputOf_modOutput_self]
  next h =>
    refine ⟨OnlyOut.refl o n, ?_⟩
    rw [← Bool.eq_false_iff.mpr h]

/-- What an output keeps when it opens. -/
def keptOpen (x : Output) : Bool × Nat × Bool × Nat × Option Nat := (x.soFlt, x.fltCode, x.cmd, x.cur, x.soTest)

/-- An output that opens (R231). -/
theorem dropOutput_leaves (n : Node) (o : Nat) : OnlyOut o n (dropOutput n o) ∧ (outputOf (dropOutput n o) o).phase = .off ∧
    (outputOf (dropOutput n o) o).hs = false ∧ (outputOf (dropOutput n o) o).ls = false ∧
    keptOpen (outputOf (dropOutput n o) o) = keptOpen (outputOf n o) := by
  unfold dropOutput
  dsimp only
  generalize hr : ((outputOf n o).pulse || (decide ((outputOf n o).pulseEnd ≠ 0) && decide (n.now ≤ (outputOf n o).pulseEnd + 50000))) = recent
  have honly := onlyOut_modOutput n o (fun x => { x with
    phase := .off, hs := false, ls := false, pulse := false, nextDue := none, quick := false, monAt := n.now,
    pulseEnd := 0, verdict := x.verdict && !recent, last := if recent then 3 else x.last, nextLs := if recent then x.pulseLs else x.nextLs,
    passed := if recent && !x.pulse && x.last == 1 then x.passed - 1 else x.passed })
  have hself := outputOf_modOutput_self n o (fun x => { x with
    phase := .off, hs := false, ls := false, pulse := false, nextDue := none, quick := false, monAt := n.now,
    pulseEnd := 0, verdict := x.verdict && !recent, last := if recent then 3 else x.last, nextLs := if recent then x.pulseLs else x.nextLs,
    passed := if recent && !x.pulse && x.last == 1 then x.passed - 1 else x.passed })
  generalize modOutput n o (fun x => { x with
    phase := .off, hs := false, ls := false, pulse := false, nextDue := none, quick := false, monAt := n.now,
    pulseEnd := 0, verdict := x.verdict && !recent, last := if recent then 3 else x.last, nextLs := if recent then x.pulseLs else x.nextLs,
    passed := if recent && !x.pulse && x.last == 1 then x.passed - 1 else x.passed }) = m at honly hself
  obtain ⟨honly1, hend⟩ := endTest_leaves m o true
  generalize endTest m o true = k at honly1 hend
  obtain ⟨honly2, hun, -⟩ := setExpect_leaves k o false
  generalize setExpect k o false = u at honly2 hun
  rw [hend, hself] at hun
  have hphase := congrArg Output.phase hun
  have hhs := congrArg Output.hs hun
  have hls := congrArg Output.ls hun
  have hkept := congrArg keptOpen hun
  exact ⟨(honly.trans honly1).trans honly2, hphase, hhs, hls, hkept⟩

theorem safFrame_dropOutput (n : Node) (o : Nat) : SafFrame n (dropOutput n o) := (dropOutput_leaves n o).1.frame

/-- SO_FLT of an output: a record, and the one output. -/
theorem setSoFlt_leaves (n : Node) (o code : Nat) : (∃ m, OnlyOut o n m ∧ RecFrame m (setSoFlt n o code)) ∧
    (∀ k, k ≠ o → outputOf (setSoFlt n o code) k = outputOf n k) ∧
    outputOf (setSoFlt n o code) o =
      (if (outputOf n o).soFlt then outputOf n o else { outputOf n o with soFlt := true, fltCode := code, monAt := n.now }) := by
  unfold setSoFlt
  split
  · exact ⟨⟨n, OnlyOut.refl o n, recFrame_refl n⟩, fun _ _ => rfl, rfl⟩
  · have honly := onlyOut_modOutput n o (fun x => { x with soFlt := true, fltCode := code, monAt := n.now })
    refine ⟨⟨_, honly, recFrame_trans (recFrame_note _ _) (recFrame_raiseB _ _ _)⟩, fun k hk => ?_, ?_⟩
    · rw [outputOf_raiseB, outputOf_note]
      exact honly.other k hk
    · rw [outputOf_raiseB, outputOf_note, outputOf_modOutput_self]

/-! Safety part and records, at another instant -/

/-- u differs from n in the safety part, the commands under way, the front ends, what a record may change, and its instant. -/
def FabFrame (n u : Node) : Prop :=
  ∃ r l h d q, u = { n with
      now := u.now, safety := u.safety, cmds := u.cmds, fronts := u.fronts, rec_ := r, config := { n.config with log := l },
      headers := h, dueB := d, power := { n.power with sure := q } } ∧
    ∀ p, p ≠ 6 → tget {} h p = tget {} n.headers p

theorem FabFrame.refl (n : Node) : FabFrame n n := ⟨_, _, _, _, _, rfl, fun _ _ => rfl⟩

theorem FabFrame.trans {a b c : Node} (h : FabFrame a b) (k : FabFrame b c) : FabFrame a c := by
  obtain ⟨r, l, hd, d, q, hb, hh⟩ := h
  obtain ⟨r', l', hd', d', q', hc, hh'⟩ := k
  rw [hb] at hc hh'
  exact ⟨r', l', hd', d', q', hc, fun p hp => (hh' p hp).trans (hh p hp)⟩

theorem SafFrame.fab {n u : Node} (h : SafFrame n u) : FabFrame n u := by
  rw [SafFrame] at h
  rw [h]
  exact ⟨_, _, _, _, _, rfl, fun _ _ => rfl⟩

theorem RecFrame.fab {n u : Node} (h : RecFrame n u) : FabFrame n u := by
  obtain ⟨r, l, hd, d, q, rfl, hh⟩ := h
  exact ⟨_, _, _, _, _, rfl, hh⟩

theorem fabFrame_now (n : Node) (t : Nat) : FabFrame n { n with now := t } := ⟨_, _, _, _, _, rfl, fun _ _ => rfl⟩

theorem fabFrame_modFront (n : Node) (ch : Nat) (f : Front → Front) : FabFrame n (modFront n ch f) :=
  ⟨_, _, _, _, _, rfl, fun _ _ => rfl⟩

theorem fabFrame_ite {p : Prop} [Decidable p] {n a b : Node} (ha : FabFrame n a) (hb : FabFrame n b) :
    FabFrame n (if p then a else b) := pred_ite ha hb

theorem fabFrame_foldl {α : Type} {f : Node → α → Node} (h : ∀ n x, FabFrame n (f n x)) (l : List α) (n : Node) :
    FabFrame n (l.foldl f n) := foldl_rel FabFrame.refl FabFrame.trans h l n

/-- What the fabric leaves at the instant at which it began, as an event shows it. -/
theorem FabFrame.records {n u : Node} (h : FabFrame n u) (ht : u.now = n.now) : SameButRecords (settle u) { n with
    safety := (settle u).safety, cmds := (settle u).cmds, fronts := (settle u).fronts } := by
  obtain ⟨r, l, hd, d, q, hu, hh⟩ := h
  rw [ht] at hu
  rw [hu]
  exact ⟨rfl, hh⟩

/-! The fabric's operations -/

theorem safFrame_settleOutputs (n : Node) : SafFrame n (settleOutputs n) :=
  safFrame_foldl (fun n o => safFrame_ite (safFrame_dropOutput n o) (SafFrame.refl n)) _ n

theorem safFrame_dateLatch (t : Nat) (was n : Node) (s : Nat) : SafFrame n (dateLatch t was n s) :=
  safFrame_ite (safFrame_modFn n s _) (SafFrame.refl n)

/-- The latch of one function set in the copies that see its demand. -/
def latchCopies (n : Node) (s : Nat) : Node :=
  (List.range 3).foldl (fun n c => if fastDemand n c s then setCopyLatch n s c else n) n

theorem setLatch_eq (t : Nat) (n : Node) (s : Nat) : setLatch t n s = dateLatch t n (latchCopies n s) s := rfl

theorem safFrame_latchCopies (n : Node) (s : Nat) : SafFrame n (latchCopies n s) :=
  safFrame_foldl (fun n c => safFrame_ite (safFrame_modCopy n c _) (SafFrame.refl n)) _ n

theorem safFrame_setLatch (t : Nat) (n : Node) (s : Nat) : SafFrame n (setLatch t n s) := by
  rw [setLatch_eq]
  exact (safFrame_latchCopies n s).trans (safFrame_dateLatch t n _ s)

theorem safFrame_setLatches (n : Node) (t : Nat) : SafFrame n (setLatches n t) := safFrame_foldl (safFrame_setLatch t) _ n

/-- The evaluators of one pair up to now. -/
def pairTicks (n : Node) (k : Nat) : Node :=
  (List.range 3).foldl (fun n c => modEval n c k (advanceEval n.now (sinDt n k) (pairTested n k))) n

theorem evalTicks_eq (n : Node) : evalTicks n = (enabledPairs n).foldl pairTicks n := rfl

theorem safFrame_pairTicks (n : Node) (k : Nat) : SafFrame n (pairTicks n k) := safFrame_foldl (fun n c => safFrame_modEval n c k _) _ n

theorem safFrame_evalTicks (n : Node) : SafFrame n (evalTicks n) := safFrame_foldl safFrame_pairTicks _ n

theorem SafFrame.now {n u : Node} (h : SafFrame n u) : u.now = n.now := by
  have k := congrArg Node.now h
  exact k

/-- One tick at which evaluators latch. -/
def tickAt (k : Node) (d : Nat) : Node := settleOutputs (setLatches (evalTicks { k with now := d }) d)

theorem fabFrame_tickAt (k : Node) (d : Nat) : FabFrame k (tickAt k d) :=
  (fabFrame_now k d).trans (((safFrame_evalTicks _).trans (safFrame_setLatches _ d)).trans (safFrame_settleOutputs _)).fab

theorem fabricTicks_eq (n : Node) : fabricTicks n = match latchTicks n (evalTicks n) with
    | [] => evalTicks n
    | ds => evalTicks { ds.foldl tickAt n with now := n.now } := rfl

theorem fabricTicks_leaves (n : Node) : FabFrame n (fabricTicks n) ∧ (fabricTicks n).now = n.now := by
  rw [fabricTicks_eq]
  cases latchTicks n (evalTicks n) with
  | nil => exact ⟨(safFrame_evalTicks n).fab, (safFrame_evalTicks n).now⟩
  | cons d r =>
    have hat := fabFrame_foldl fabFrame_tickAt (d :: r) n
    dsimp only
    generalize (d :: r).foldl tickAt n = k at hat
    have hend := safFrame_evalTicks { k with now := n.now }
    exact ⟨(hat.trans (fabFrame_now k n.now)).trans hend.fab, hend.now⟩

/-- The verdict of one output's pulse. -/
def pulseVerdict (n : Node) (o : Nat) : Node :=
  if (outputOf n o).verdict && decide ((outputOf n o).pulseEnd + 50000 < n.now) then
    { setSoFlt (modOutput { n with now := (outputOf n o).pulseEnd } o (fun x => { x with verdict := false })) o 5 with now := n.now }
  else n

theorem pulseVerdicts_eq (n : Node) : pulseVerdicts n = (keys n.safety.outs).foldl pulseVerdict n := rfl

theorem fabFrame_setSoFlt (n : Node) (o code : Nat) : FabFrame n (setSoFlt n o code) := by
  obtain ⟨m, hm, hr⟩ := (setSoFlt_leaves n o code).1
  exact hm.frame.fab.trans hr.fab

theorem pulseVerdict_leaves (n : Node) (o : Nat) : FabFrame n (pulseVerdict n o) ∧ (pulseVerdict n o).now = n.now := by
  unfold pulseVerdict
  split
  · exact ⟨(((fabFrame_now n _).trans (safFrame_modOutput _ o _).fab).trans (fabFrame_setSoFlt _ o 5)).trans (fabFrame_now _ _), rfl⟩
  · exact ⟨FabFrame.refl n, rfl⟩

theorem pulseVerdicts_leaves (n : Node) : FabFrame n (pulseVerdicts n) ∧ (pulseVerdicts n).now = n.now := by
  rw [pulseVerdicts_eq]
  exact ⟨fabFrame_foldl (fun n o => (pulseVerdict_leaves n o).1) _ n,
    foldl_same (g := Node.now) (f := pulseVerdict) (fun n o => (pulseVerdict_leaves n o).2) _ n⟩

/-- One copy's evaluator of a pair with its inputs as they stand. -/
def pairSet (n : Node) (k : Nat) : Node :=
  (List.range 3).foldl (fun n c => modEval n c k (setEval n.now
    (disagrees (sinAnti n k) (cmpCopy n c (2 * k)) (cmpCopy n c (2 * k + 1)))
    (bothSafe (sinAnti n k) (cmpCopy n c (2 * k)) (cmpCopy n c (2 * k + 1))))) n

theorem safFrame_settlePair (n : Node) (k : Nat) : SafFrame n (settlePair n k) := by
  have hset : SafFrame n (pairSet n k) := safFrame_foldl (fun n c => safFrame_modEval n c k _) _ n
  exact hset.trans (safFrame_modPair _ k _)

theorem safFrame_fabricSettle (n : Node) : SafFrame n (fabricSettle n) :=
  ((safFrame_foldl safFrame_settlePair (enabledPairs n) n).trans (safFrame_setLatches _ _)).trans (safFrame_settleOutputs _)

theorem fabFrame_endHolds (n : Node) : FabFrame n (endHolds n) :=
  fabFrame_foldl (fun n ch => fabFrame_modFront n ch _) (holdsEnded n) n

/-- The end of the off-pulse holds at one instant. -/
def releaseAt (n : Node) (t : Nat) : Node := fabricSettle (endHolds (fabricTicks { n with now := t }))

theorem fabFrame_releaseAt (n : Node) (t : Nat) : FabFrame n (releaseAt n t) :=
  (((fabFrame_now n t).trans (fabricTicks_leaves _).1).trans (fabFrame_endHolds _)).trans (safFrame_fabricSettle _).fab

theorem releaseHolds_leaves (n : Node) : FabFrame n (releaseHolds n) ∧ (releaseHolds n).now = n.now :=
  ⟨(fabFrame_foldl fabFrame_releaseAt ((holdsEnded n).foldl (fun l ch => insertNat (frontOf n ch).holdUntil l) []) n).trans
    (fabFrame_now _ _), rfl⟩

/-- The fabric up to now is at its instant. -/
theorem fabricAdvance_leaves (n : Node) : FabFrame n (fabricAdvance n) ∧ (fabricAdvance n).now = n.now := by
  obtain ⟨h1, h2⟩ := releaseHolds_leaves n
  obtain ⟨h3, h4⟩ := fabricTicks_leaves (releaseHolds n)
  obtain ⟨h5, h6⟩ := pulseVerdicts_leaves (fabricTicks (releaseHolds n))
  exact ⟨(h1.trans h3).trans h5, (h6.trans h4).trans h2⟩

end Sys2Proof.Machine
end

section
/-! PROOF. Tests, faults and feedback of safety outputs, and their supplies (10 R227 to R233). -/

namespace Sys2Proof.Machine

/-! The verdict of a pulse (R231) -/

/-- A pulse whose load did not fall, once 50 us have gone by without a demand. -/
def verdictDue (now : Nat) (x : Output) : Bool := x.verdict && decide (x.pulseEnd + 50000 < now)

theorem outputOf_now (n : Node) (t o : Nat) : outputOf { n with now := t } o = outputOf n o := rfl

theorem pulseVerdict_self (n : Node) (o : Nat) : (verdictDue n.now (outputOf n o) = false → pulseVerdict n o = n) ∧
    (verdictDue n.now (outputOf n o) = true → (outputOf (pulseVerdict n o) o).verdict = false ∧
      (outputOf (pulseVerdict n o) o).soFlt = true ∧
      (outputOf (pulseVerdict n o) o).fltCode = (if (outputOf n o).soFlt then (outputOf n o).fltCode else 5)) := by
  refine ⟨fun h => if_neg (by rw [show ((outputOf n o).verdict && decide ((outputOf n o).pulseEnd + 50000 < n.now)) = false from h]; decide),
    fun h => ?_⟩
  have hif : ((outputOf n o).verdict && decide ((outputOf n o).pulseEnd + 50000 < n.now)) = true := h
  rw [pulseVerdict, if_pos hif, outputOf_now]
  have hself := outputOf_modOutput_self { n with now := (outputOf n o).pulseEnd } o (fun x => { x with verdict := false })
  generalize modOutput { n with now := (outputOf n o).pulseEnd } o (fun x => { x with verdict := false }) = m at hself
  rw [(setSoFlt_leaves m o 5).2.2, hself, outputOf_now]
  cases hs : (outputOf n o).soFlt with
  | true => exact ⟨rfl, rfl, rfl⟩
  | false => exact ⟨rfl, rfl, rfl⟩

theorem outputOf_pulseVerdict_ne (n : Node) {o k : Nat} (h : k ≠ o) : outputOf (pulseVerdict n o) k = outputOf n k := by
  unfold pulseVerdict
  split
  · rw [outputOf_now, (setSoFlt_leaves _ o 5).2.1 k h, outputOf_modOutput_ne _ _ h, outputOf_now]
  · rfl

theorem foldl_pulseVerdict (o : Nat) (l : List Nat) (n : Node) :
    (verdictDue n.now (outputOf n o) = false → outputOf (l.foldl pulseVerdict n) o = outputOf n o) ∧
    (verdictDue n.now (outputOf n o) = true → o ∈ l → (outputOf (l.foldl pulseVerdict n) o).verdict = false ∧
      (outputOf (l.foldl pulseVerdict n) o).soFlt = true ∧
      (outputOf (l.foldl pulseVerdict n) o).fltCode = (if (outputOf n o).soFlt then (outputOf n o).fltCode else 5)) := by
  induction l generalizing n with
  | nil => exact ⟨fun _ => rfl, fun _ h => nomatch h⟩
  | cons q r ih =>
    obtain ⟨ihno, ihdue⟩ := ih (pulseVerdict n q)
    rw [(pulseVerdict_leaves n q).2] at ihno ihdue
    rw [List.foldl_cons]
    by_cases hq : o = q
    · subst hq
      obtain ⟨hno, hdue⟩ := pulseVerdict_self n o
      refine ⟨fun h => ?_, fun h _ => ?_⟩
      · rw [hno h] at ihno ⊢
        exact ihno h
      · obtain ⟨h1, h2, h3⟩ := hdue h
        have hdone : verdictDue n.now (outputOf (pulseVerdict n o) o) = false := by rw [verdictDue, h1]; rfl
        rw [ihno hdone]
        exact ⟨h1, h2, h3⟩
    · rw [outputOf_pulseVerdict_ne n hq] at ihno ihdue
      refine ⟨ihno, fun h hmem => ihdue h ?_⟩
      exact (List.mem_cons.mp hmem).resolve_left hq

theorem pulseVerdicts_output (n : Node) (o : Nat) :
    ((outputOf n o).verdict = true → (outputOf n o).pulseEnd + 50000 < n.now → (outputOf (pulseVerdicts n) o).verdict = false ∧
      (outputOf (pulseVerdicts n) o).soFlt = true ∧
      (outputOf (pulseVerdicts n) o).fltCode = (if (outputOf n o).soFlt then (outputOf n o).fltCode else 5)) ∧
    ((outputOf n o).verdict = false ∨ n.now ≤ (outputOf n o).pulseEnd + 50000 → outputOf (pulseVerdicts n) o = outputOf n o) := by
  obtain ⟨hno, hdue⟩ := foldl_pulseVerdict o (keys n.safety.outs) n
  rw [pulseVerdicts_eq]
  refine ⟨fun hv hlate => hdue (by rw [verdictDue, hv, decide_eq_true hlate]; rfl) ?_, fun h => hno ?_⟩
  · by_contra hnot
    have hdef : outputOf n o = {} := tget_of_not_mem_keys ({} : Output) hnot
    rw [hdef] at hv
    exact nomatch hv
  · rw [verdictDue]
    rcases h with h | h
    · rw [h]
      rfl
    · rw [decide_eq_false (by omega), Bool.and_false]

/-! An event of one output -/

/-- u differs from n in one output, in the commands under way and in what a record may change. -/
structure OutFrame (o : Nat) (n u : Node) : Prop where
  frame : FabFrame n u
  now : u.now = n.now
  fronts : u.fronts = n.fronts
  other : ∀ k, k ≠ o → outputOf u k = outputOf n k

theorem OutFrame.trans {o : Nat} {a b c : Node} (h : OutFrame o a b) (k : OutFrame o b c) : OutFrame o a c :=
  ⟨h.frame.trans k.frame, k.now.trans h.now, k.fronts.trans h.fronts, fun j hj => (k.other j hj).trans (h.other j hj)⟩

theorem OnlyOut.out {o : Nat} {n u : Node} (h : OnlyOut o n u) : OutFrame o n u := by
  have hf := congrArg Node.fronts h.frame
  exact ⟨h.frame.fab, h.frame.now, hf, h.other⟩

theorem outFrame_modOutput (n : Node) (o : Nat) (f : Output → Output) : OutFrame o n (modOutput n o f) :=
  (onlyOut_modOutput n o f).out

theorem outFrame_of_rec {o : Nat} {n u : Node} (h : RecFrame n u) : OutFrame o n u := by
  have hf := h.fab
  obtain ⟨r, l, hd, d, q, rfl, -⟩ := h
  exact ⟨hf, rfl, rfl, fun _ _ => rfl⟩

theorem outFrame_setSoFlt (n : Node) (o code : Nat) : OutFrame o n (setSoFlt n o code) := by
  obtain ⟨m, hm, hr⟩ := (setSoFlt_leaves n o code).1
  exact hm.out.trans (outFrame_of_rec hr)

theorem OutFrame.leaves {o : Nat} {n u : Node} (h : OutFrame o n u) :
    SameButRecords (settle u) { n with safety := (settle u).safety, cmds := (settle u).cmds } ∧
    ∀ k, k ≠ o → outputOf (settle u) k = outputOf n k := by
  obtain ⟨⟨r, l, hd, d, q, hu, hh⟩, ht, hf, ho⟩ := h
  rw [ht, hf] at hu
  refine ⟨?_, ho⟩
  rw [hu]
  exact ⟨rfl, hh⟩

theorem acts_onOut {i : Instr} {s : State} {t o : Nat} {f : Node → Node} {m : Node} {P : Node → Node → Prop} (ho : o < 32)
    (hm : fabricAdvance (atInstant s t) = m) (hc : exec i s = .next (onOut s t o f)) (h : P (atInstant s t) (settle (f m))) :
    Acts i s t P := by
  subst hm
  exact acts_of_eq hc (if_pos ho) h

theorem acts_onOut_same {i : Instr} {s : State} {t o : Nat} {f : Node → Node} {m : Node} (ho : o < 32)
    (hm : fabricAdvance (atInstant s t) = m) (hc : exec i s = .next (onOut s t o f)) (h : f m = m) :
    Acts i s t (fun _ u => SameButSignals u m) := by
  refine acts_onOut ho hm hc ?_
  rw [h]
  exact sameButSignals_settle m

/-! The rows, on the fabric as it stands -/

theorem testStart_due {m : Node} {o : Nat} (h : (outputOf m o).phase = .due) : OutFrame o m (testStart m o) ∧
    outputOf (testStart m o) o = { outputOf m o with phase := .testing, etStart := m.now, hs := true, ls := false } := by
  rw [testStart, if_pos h]
  exact ⟨outFrame_modOutput m o _, outputOf_modOutput_self m o _⟩

theorem testDone_passed {m : Node} {o code : Nat} (h : (outputOf m o).phase = .testing) (hc : code ≠ 3 ∧ code ≠ 4) :
    OutFrame o m (testDone m o code) ∧ (outputOf (testDone m o code) o).phase = .on ∧ (outputOf (testDone m o code) o).hs = true ∧
    (outputOf (testDone m o code) o).ls = true ∧ (outputOf (testDone m o code) o).expect = true ∧
    (outputOf (testDone m o code) o).soFlt = (outputOf m o).soFlt := by
  have hcode : ¬ (code = 3 ∨ code = 4) := by omega
  rw [testDone, if_pos h, if_neg hcode]
  have honly := outFrame_modOutput m o (fun x => { x with
    phase := .on, hs := true, ls := true, nextDue := if tpEn m o then some (m.now + tpInt m o * 1000000000) else none })
  have hself := outputOf_modOutput_self m o (fun x => { x with
    phase := .on, hs := true, ls := true, nextDue := if tpEn m o then some (m.now + tpInt m o * 1000000000) else none })
  dsimp only
  generalize modOutput m o (fun x => { x with
    phase := .on, hs := true, ls := true, nextDue := if tpEn m o then some (m.now + tpInt m o * 1000000000) else none }) = k at *
  obtain ⟨honly', hun, hex⟩ := setExpect_leaves k o true
  rw [hself] at hun
  have h1 := congrArg Output.phase hun
  have h2 := congrArg Output.hs hun
  have h3 := congrArg Output.ls hun
  have h4 := congrArg Output.soFlt hun
  exact ⟨honly.trans honly'.out, h1, h2, h3, hex, h4⟩

/-- An output that opens with a fault. -/
theorem dropped_faulty (m : Node) (o code : Nat) : OutFrame o m (setSoFlt (dropOutput m o) o code) ∧
    (outputOf (setSoFlt (dropOutput m o) o code) o).phase = .off ∧ (outputOf (setSoFlt (dropOutput m o) o code) o).hs = false ∧
    (outputOf (setSoFlt (dropOutput m o) o code) o).ls = false ∧ (outputOf (setSoFlt (dropOutput m o) o code) o).soFlt = true ∧
    (outputOf (setSoFlt (dropOutput m o) o code) o).cur = (outputOf m o).cur ∧
    (outputOf (setSoFlt (dropOutput m o) o code) o).fltCode = (if (outputOf m o).soFlt then (outputOf m o).fltCode else code) := by
  obtain ⟨honly, hphase, hhs, hls, hkept⟩ := dropOutput_leaves m o
  generalize dropOutput m o = k at *
  simp only [keptOpen, Prod.mk.injEq] at hkept
  obtain ⟨hflt, hcode, -, hcur, -⟩ := hkept
  refine ⟨honly.out.trans (outFrame_setSoFlt k o code), ?_⟩
  rw [(setSoFlt_leaves k o code).2.2, ← hflt, ← hcode, ← hcur]
  cases hf : (outputOf k o).soFlt with
  | true => exact ⟨hphase, hhs, hls, hf, rfl, rfl⟩
  | false => exact ⟨hphase, hhs, hls, rfl, rfl, rfl⟩

theorem testDone_failed {m : Node} {o code : Nat} (h : (outputOf m o).phase = .testing) (hc : code = 3 ∨ code = 4) :
    testDone m o code = setSoFlt (dropOutput m o) o code := by
  rw [testDone, if_pos h, if_pos hc]

theorem pulseStart_due {m : Node} {o d : Nat} (h : (outputOf m o).phase = .on) (hp : (outputOf m o).pulse = false)
    (htp : tpEn m o = true) (hd : (outputOf m o).nextDue = some d) (hnow : d ≤ m.now) (hw : withheld m o = false)
    (hh : holder m = true) : OutFrame o m (pulseStart m o) ∧ outputOf (pulseStart m o) o = { outputOf m o with
      pulse := true, pulseLs := (outputOf m o).nextLs, byCmd := false, hs := (outputOf m o).nextLs, ls := !(outputOf m o).nextLs,
      quick := false, nextDue := some (m.now + (if (outputOf m o).quick then 0 else tpInt m o * 1000000000)) } := by
  have hrun : pulseStart m o = startPulse m o false := by
    simp only [pulseStart, hd, decide_eq_true hnow]
    rw [if_pos]
    simp [h, hp, htp, hw, hh]
  rw [hrun]
  refine ⟨outFrame_modOutput m o _, ?_⟩
  rw [startPulse, outputOf_modOutput_self, htp]
  rfl

theorem pulseStart_not {m : Node} {o : Nat} (h : (outputOf m o).phase ≠ .on ∨ (outputOf m o).pulse = true ∨ tpEn m o = false ∨
    (∀ d, (outputOf m o).nextDue = some d → m.now < d) ∨ withheld m o = true ∨ holder m = false) : pulseStart m o = m := by
  simp only [pulseStart]
  rw [if_neg]
  rintro ⟨h1, h2, h3, h4, h5, h6⟩
  rcases h with h | h | h | h | h | h
  · exact h h1
  · rw [h] at h2
    exact nomatch h2
  · rw [h] at h3
    exact nomatch h3
  · cases hd : (outputOf m o).nextDue with
    | none =>
      rw [hd] at h4
      exact nomatch h4
    | some d =>
      rw [hd] at h4
      exact absurd (of_decide_eq_true h4) (Nat.not_le.mpr (h d hd))
  · rw [h] at h5
    exact nomatch h5
  · rw [h] at h6
    exact nomatch h6

theorem pulseDone_running {m : Node} {o : Nat} (h : (outputOf m o).pulse = true) (code : Nat) : OutFrame o m (pulseDone m o code) ∧
    (outputOf (pulseDone m o code) o).pulse = false ∧ (outputOf (pulseDone m o code) o).hs = true ∧
    (outputOf (pulseDone m o code) o).ls = true ∧ (outputOf (pulseDone m o code) o).nextLs = !(outputOf m o).pulseLs ∧
    (outputOf (pulseDone m o code) o).pulseEnd = m.now ∧ (outputOf (pulseDone m o code) o).verdict = decide (code ≠ 1) ∧
    (outputOf (pulseDone m o code) o).soFlt = (outputOf m o).soFlt ∧
    (code = 1 → (outputOf (pulseDone m o code) o).last = 1 ∧
      (outputOf (pulseDone m o code) o).passed = min 65535 ((outputOf m o).passed + 1)) ∧
    (code ≠ 1 → (outputOf (pulseDone m o code) o).last = 2 ∧ (outputOf (pulseDone m o code) o).passed = (outputOf m o).passed) := by
  rw [pulseDone, if_pos h]
  dsimp only
  have honly := outFrame_modOutput m o (fun x => { x with
    pulse := false, pulseEnd := m.now, verdict := !decide (code = 1), hs := true, ls := true, nextLs := !x.pulseLs,
    last := if decide (code = 1) then 1 else 2, passed := if decide (code = 1) then sat 65535 (x.passed + 1) else x.passed })
  have hself := outputOf_modOutput_self m o (fun x => { x with
    pulse := false, pulseEnd := m.now, verdict := !decide (code = 1), hs := true, ls := true, nextLs := !x.pulseLs,
    last := if decide (code = 1) then 1 else 2, passed := if decide (code = 1) then sat 65535 (x.passed + 1) else x.passed })
  generalize modOutput m o (fun x => { x with
    pulse := false, pulseEnd := m.now, verdict := !decide (code = 1), hs := true, ls := true, nextLs := !x.pulseLs,
    last := if decide (code = 1) then 1 else 2, passed := if decide (code = 1) then sat 65535 (x.passed + 1) else x.passed }) = k at *
  obtain ⟨honly', hend⟩ := endTest_leaves k o true
  rw [hself] at hend
  refine ⟨honly.trans honly'.out, ?_⟩
  rw [hend]
  refine ⟨rfl, rfl, rfl, rfl, rfl, ?_, rfl, fun hc => ?_, fun hc => ?_⟩
  · exact (decide_not (p := code = 1)).symm
  · simp [hc, sat]
  · simp [hc]

/-- The monitor's measurement of an output. -/
def soMeasured (plus minus cur : Nat) (x : Output) : Output :=
  { x with vplus := min plus 4000, vminus := min minus 4000, cur := min cur 10000 }

theorem partnerEnergised_modOutput (m : Node) (o : Nat) (f : Output → Output) :
    partnerEnergised (modOutput m o f) o = partnerEnergised m o := rfl

theorem monitorFault_told {m : Node} {o plus minus cur : Nat} {low : Bool} (h : (outputOf m o).phase = .off)
    (hp : partnerEnergised m o = false) : OutFrame o m (monitorFault m o low plus minus cur) ∧
    outputOf (monitorFault m o low plus minus cur) o = { outputOf m o with
      vplus := min plus 4000, vminus := min minus 4000, cur := min cur 10000, soFlt := true, monAt := m.now,
      fltCode := if (outputOf m o).soFlt then (outputOf m o).fltCode else if low then 2 else 1 } := by
  have honly := outFrame_modOutput m o (soMeasured plus minus cur)
  have hself := outputOf_modOutput_self m o (soMeasured plus minus cur)
  have hrun : monitorFault m o low plus minus cur = modOutput (setSoFlt (modOutput m o (soMeasured plus minus cur)) o
      (if low then 2 else 1)) o (fun x => { x with monAt := (modOutput m o (soMeasured plus minus cur)).now }) := by
    simp only [monitorFault, partnerEnergised_modOutput, h, hp]
    rfl
  rw [hrun]
  have hnow : (modOutput m o (soMeasured plus minus cur)).now = m.now := rfl
  rw [hnow]
  generalize modOutput m o (soMeasured plus minus cur) = k at honly hself
  refine ⟨(honly.trans (outFrame_setSoFlt k o _)).trans (outFrame_modOutput _ o _), ?_⟩
  rw [outputOf_modOutput_self, (setSoFlt_leaves k o _).2.2, hself]
  cases hf : (outputOf m o).soFlt with
  | true => simp [soMeasured, hf]
  | false => simp [soMeasured, hf]

theorem monitorFault_not {m : Node} {o plus minus cur : Nat} {low : Bool}
    (h : (outputOf m o).phase ≠ .off ∨ partnerEnergised m o = true) :
    monitorFault m o low plus minus cur = modOutput m o (soMeasured plus minus cur) := by
  have hno : ¬ (decide ((outputOf m o).phase = .off) && !partnerEnergised m o) = true := fun hc => by
    simp only [Bool.and_eq_true, decide_eq_true_eq, Bool.not_eq_true'] at hc
    rcases h with h | h
    · exact h hc.1
    · rw [h] at hc
      exact nomatch hc.2
  exact if_neg hno

theorem overload_of {m : Node} {o : Nat} (cur : Nat) (h : (outputOf m o).hs = true ∨ (outputOf m o).ls = true) :
    OutFrame o m (overload m o cur) ∧ (outputOf (overload m o cur) o).phase = .off ∧ (outputOf (overload m o cur) o).hs = false ∧
    (outputOf (overload m o cur) o).ls = false ∧ (outputOf (overload m o cur) o).soFlt = true ∧
    (outputOf (overload m o cur) o).cur = min cur 10000 ∧
    (outputOf (overload m o cur) o).fltCode = (if (outputOf m o).soFlt then (outputOf m o).fltCode else 6) := by
  have hor : ((outputOf m o).hs || (outputOf m o).ls) = true := by
    rcases h with h | h <;> simp [h]
  rw [overload, if_pos hor]
  have honly := outFrame_modOutput m o (fun x => { x with cur := min cur 10000 })
  have hself := outputOf_modOutput_self m o (fun x => { x with cur := min cur 10000 })
  generalize modOutput m o (fun x => { x with cur := min cur 10000 }) = k at honly hself
  obtain ⟨hframe, h1, h2, h3, h4, h5, h6⟩ := dropped_faulty k o 6
  rw [hself] at h5 h6
  exact ⟨honly.trans hframe, h1, h2, h3, h4, h5, h6⟩

theorem overload_not {m : Node} {o : Nat} (cur : Nat) (h1 : (outputOf m o).hs = false) (h2 : (outputOf m o).ls = false) :
    overload m o cur = m := by
  rw [overload, if_neg (by simp [h1, h2])]

theorem fbDue_due {m : Node} {o a : Nat} (h : (outputOf m o).misSince = some a) (hen : fbEn m o = true)
    (hf : (outputOf m o).fbFlt = false) (hh : holder m = true)
    (hd : max a (outputOf m o).expectAt + fld (soFb m o) 8 0 * 1000000 ≤ m.now) : OutFrame o m (fbDue m o) ∧
    outputOf (fbDue m o) o = { outputOf m o with fbFlt := true } ∧ (0x64 + o / 8, 1) ∈ (fbDue m o).dueB := by
  have hrun : fbDue m o = raiseB (note (modOutput m o (fun x => { x with fbFlt := true })) (recSafety
      (taiNow (modOutput m o (fun x => { x with fbFlt := true }))) 3 true o 0 (soutPage o)
      (soSt (modOutput m o (fun x => { x with fbFlt := true })) o))) (soutPage o) 1 := by
    simp only [fbDue, h]
    exact if_pos (by simp only [hen, hf, hh, decide_eq_true hd]; rfl)
  rw [hrun]
  have honly := outFrame_modOutput m o (fun x => { x with fbFlt := true })
  have hself := outputOf_modOutput_self m o (fun x => { x with fbFlt := true })
  generalize modOutput m o (fun x => { x with fbFlt := true }) = k at honly hself
  refine ⟨honly.trans (outFrame_of_rec (recFrame_trans (recFrame_note k _) (recFrame_raiseB _ _ 1))), ?_,
    List.mem_append_right _ (List.mem_singleton_self _)⟩
  rw [outputOf_raiseB, outputOf_note, hself]

theorem fbDue_not {m : Node} {o : Nat} (h : (outputOf m o).misSince = none ∨ fbEn m o = false ∨ (outputOf m o).fbFlt = true ∨
    holder m = false ∨ (∀ a, (outputOf m o).misSince = some a →
      m.now < max a (outputOf m o).expectAt + fld (soFb m o) 8 0 * 1000000)) : fbDue m o = m := by
  simp only [fbDue]
  split
  next a ha =>
    rw [if_neg]
    rintro hc
    simp only [Bool.and_eq_true, Bool.not_eq_true', decide_eq_true_eq] at hc
    obtain ⟨⟨⟨hen, hf⟩, hh⟩, hd⟩ := hc
    rcases h with h | h | h | h | h
    · rw [ha] at h
      exact nomatch h
    · rw [h] at hen
      exact nomatch hen
    · rw [h] at hf
      exact nomatch hf
    · rw [h] at hh
      exact nomatch hh
    · exact absurd hd (Nat.not_le.mpr (h a ha))
  · rfl

/-! Supplies and feedback inputs -/

theorem vsChange_leaves (n : Node) (k volt : Nat) :
    SameButSignals (settle (vsChange n k volt)) { n with
      safety := { n.safety with vs := (settle (vsChange n k volt)).safety.vs }, dueB := (settle (vsChange n k volt)).dueB } ∧
    (∀ j, j ≠ k → tget {} (settle (vsChange n k volt)).safety.vs j = tget {} n.safety.vs j) ∧
    tget {} (settle (vsChange n k volt)).safety.vs k = { volt := min volt 4000, low := decide (volt < 1600) } ∧
    (settle (vsChange n k volt)).dueB =
      (if volt < 1600 ∧ (tget {} n.safety.vs k).low = false then n.dueB ++ [(0x64 + k, 2)] else n.dueB) := by
  have hrun : vsChange n k volt = raiseBIf (decide (volt < 1600) && !(tget {} n.safety.vs k).low)
      (modSafety n (fun s => { s with vs := tset {} s.vs k { volt := min volt 4000, low := decide (volt < 1600) } })) (0x64 + k) 2 := rfl
  have hvs : (vsChange n k volt).safety.vs = tset {} n.safety.vs k { volt := min volt 4000, low := decide (volt < 1600) } := by
    rw [hrun, raiseBIf]
    split <;> rfl
  refine ⟨?_, fun j hj => ?_, ?_, ?_⟩
  · rw [hrun, raiseBIf]
    split <;> rfl
  · show tget {} (vsChange n k volt).safety.vs j = _
    rw [hvs, tget_tset_ne _ _ _ hj]
  · show tget {} (vsChange n k volt).safety.vs k = _
    rw [hvs, tget_tset_self]
  · show (vsChange n k volt).dueB = _
    rw [hrun, raiseBIf]
    by_cases hv : volt < 1600 <;> cases (tget {} n.safety.vs k).low <;> simp [hv] <;> rfl

/-- The feedback's view of an output: released as FB_VAL and its configuration give it. -/
theorem fbStep_supervised {n : Node} {o : Nat} (hen : fbEn n o = true) : outputOf (fbStep n o) o = { outputOf n o with
    fbSeen := (outputOf n o).fbSeen || fbReleased n o,
    misSince := if fbReleased n o == (outputOf n o).expect then some ((outputOf n o).misSince.getD n.now) else none } := by
  rw [fbStep, if_pos hen, outputOf_modOutput_self]

/-- The registers, the feedback levels and the instant, which the steps of the outputs leave. -/
structure SameFb (n u : Node) : Prop where
  frame : SafFrame n u
  fb : u.safety.fb = n.safety.fb

theorem SameFb.released {n u : Node} (h : SameFb n u) (o : Nat) : fbReleased u o = fbReleased n o ∧ fbEn u o = fbEn n o := by
  have hr : ∀ k, reg u k = reg n k := reg_of_regs h.frame.regs
  simp only [fbReleased, fbVal, fbInput, fbEn, soFb, h.fb, hr, and_self]

theorem sameFb_fbStep (n : Node) (o : Nat) : SameFb n (fbStep n o) :=
  pred_ite (P := SameFb n) ⟨safFrame_modOutput n o _, rfl⟩ ⟨SafFrame.refl n, rfl⟩

/-- One output's part in a feedback input that has settled. -/
def fbStepOf (k : Nat) (n : Node) (o : Nat) : Node := if fbInput n o = k then fbStep n o else n

theorem fbSettle_eq (n : Node) (k : Nat) (level : Bool) : fbSettle n k level =
    (fbOuts n).foldl (fbStepOf k) (modSafety n (fun s => { s with fb := tset false s.fb k level })) := rfl

theorem sameFb_fbStepOf (k : Nat) (n : Node) (o : Nat) : SameFb n (fbStepOf k n o) :=
  pred_ite (P := SameFb n) (sameFb_fbStep n o) ⟨SafFrame.refl n, rfl⟩

theorem SameFb.trans {a b c : Node} (h : SameFb a b) (k : SameFb b c) : SameFb a c := ⟨h.frame.trans k.frame, k.fb.trans h.fb⟩

theorem outputOf_fbStepOf_ne (k : Nat) (n : Node) (o j : Nat) (h : j ≠ o) : outputOf (fbStepOf k n o) j = outputOf n j :=
  pred_ite (P := fun u => outputOf u j = outputOf n j) ((fbStep_leaves n o).1.other j h) rfl

theorem fbOuts_nodup (n : Node) : (fbOuts n).Nodup := List.nodup_range.filter _

theorem mem_fbOuts {n : Node} {o : Nat} : o ∈ fbOuts n ↔ o < 32 ∧ fbEn n o = true := by
  simp [fbOuts]

theorem fbSettle_leaves (n : Node) (k : Nat) (level : Bool) :
    SafFrame n (fbSettle n k level) ∧ (fbSettle n k level).cmds = n.cmds ∧
    fbVal (fbSettle n k level) k = level ∧ (∀ j, j ≠ k → fbVal (fbSettle n k level) j = fbVal n j) ∧
    (∀ o, 32 ≤ o ∨ fbInput n o ≠ k ∨ fbEn n o = false → outputOf (fbSettle n k level) o = outputOf n o) ∧
    ∀ o, o < 32 → fbInput n o = k → fbEn n o = true → outputOf (fbSettle n k level) o = { outputOf n o with
      fbSeen := (outputOf n o).fbSeen || (level != bit (soFb n o) 30),
      misSince := if (level != bit (soFb n o) 30) == (outputOf n o).expect then some ((outputOf n o).misSince.getD n.now)
        else none } := by
  have hset : SafFrame n (modSafety n (fun s => { s with fb := tset false s.fb k level })) := rfl
  have hfb : (modSafety n (fun s => { s with fb := tset false s.fb k level })).safety.fb = tset false n.safety.fb k level := rfl
  have hout : ∀ o, outputOf (modSafety n (fun s => { s with fb := tset false s.fb k level })) o = outputOf n o := fun _ => rfl
  have hcmds : (modSafety n (fun s => { s with fb := tset false s.fb k level })).cmds = n.cmds := rfl
  rw [fbSettle_eq]
  generalize modSafety n (fun s => { s with fb := tset false s.fb k level }) = m at *
  have hrefl : ∀ a : Node, SameFb a a := fun a => ⟨SafFrame.refl a, rfl⟩
  have hall : SameFb m ((fbOuts n).foldl (fbStepOf k) m) :=
    foldl_rel hrefl SameFb.trans (sameFb_fbStepOf k) _ m
  have hc : ((fbOuts n).foldl (fbStepOf k) m).cmds = m.cmds := foldl_same (g := Node.cmds) (f := fbStepOf k)
    (fun a o => pred_ite (P := fun u : Node => u.cmds = a.cmds)
      (pred_ite (P := fun u : Node => u.cmds = a.cmds) rfl rfl) rfl) _ m
  have hin : ∀ a : Node, SafFrame n a → ∀ o, fbInput a o = fbInput n o := fun a ha o => by
    simp only [fbInput, soFb, reg_of_regs ha.regs]
  refine ⟨hset.trans hall.frame, hc.trans hcmds, ?_, fun j hj => ?_, fun o ho => ?_, fun o ho hi hen => ?_⟩
  · rw [fbVal, hall.fb, hfb, tget_tset_self]
  · rw [fbVal, hall.fb, hfb, tget_tset_ne _ _ _ hj]
    rfl
  · by_cases hmem : o ∈ fbOuts n
    · obtain ⟨h32, hen⟩ := mem_fbOuts.mp hmem
      have hi : fbInput n o ≠ k := by
        rcases ho with h | h | h
        · omega
        · exact h
        · rw [h] at hen
          exact nomatch hen
      obtain ⟨a, hrel, hsame, hself, -⟩ := foldl_at hrefl SameFb.trans (g := outputOf) (sameFb_fbStepOf k)
        (fun a c j hj => outputOf_fbStepOf_ne k a c j hj) (fbOuts_nodup n) hmem m
      have hidle : fbStepOf k a o = a := if_neg (by rw [hin a (hset.trans hrel.frame)]; exact hi)
      rw [hself, hidle, hsame, hout]
    · have hskip := List.foldlRecOn (motive := fun a : Node => outputOf a o = outputOf m o) (fbOuts n) (fbStepOf k) rfl
        (fun a ha c hc => (outputOf_fbStepOf_ne k a c o (fun h => hmem (h ▸ hc))).trans ha)
      exact hskip.trans (hout o)
  · obtain ⟨a, hrel, hsame, hself, -⟩ := foldl_at hrefl SameFb.trans (g := outputOf) (sameFb_fbStepOf k)
      (fun a c j hj => outputOf_fbStepOf_ne k a c j hj) (fbOuts_nodup n) (mem_fbOuts.mpr ⟨ho, hen⟩) m
    have hna := hset.trans hrel.frame
    have hstep : fbStepOf k a o = fbStep a o := if_pos (by rw [hin a hna]; exact hi)
    have hreg : ∀ key, reg a key = reg n key := reg_of_regs hna.regs
    have hena : fbEn a o = true := by
      simp only [fbEn, soFb, hreg] at hen ⊢
      exact hen
    have hrela : fbReleased a o = (level != bit (soFb n o) 30) := by
      have hval : fbVal a k = level := by rw [fbVal, hrel.fb, hfb, tget_tset_self]
      rw [fbReleased, hin a hna, hi, hval]
      simp only [soFb, hreg]
    rw [hself, hstep, fbStep_supervised hena, hrela, hsame, hout, hna.now]

theorem acts_fbSettle {t k : Nat} {level : Bool} {s : State} (hk : k < 32) : Acts (.fbSettle t k level) s t (fun n u =>
    SameButSignals u { n with safety := u.safety } ∧ fbVal u k = level ∧ (∀ j, j ≠ k → fbVal u j = fbVal n j) ∧
    (∀ o, 32 ≤ o ∨ fbInput n o ≠ k ∨ fbEn n o = false → outputOf u o = outputOf n o) ∧
    ∀ o, o < 32 → fbInput n o = k → fbEn n o = true →
      (outputOf u o).fbSeen = ((outputOf n o).fbSeen || (level != bit (soFb n o) 30)) ∧
      ((level != bit (soFb n o) 30) ≠ (outputOf n o).expect → (outputOf u o).misSince = none) ∧
      ((level != bit (soFb n o) 30) = (outputOf n o).expect →
        (outputOf u o).misSince = some ((outputOf n o).misSince.getD n.now))) := by
  refine acts_leaves (f := fun n => if k < 32 then fbSettle n k level else n) rfl (fun u hu => ?_)
  rw [if_pos hk] at hu
  generalize atInstant s t = n at hu ⊢
  obtain ⟨hframe, hcmds, hval, hvals, hno, hyes⟩ := fbSettle_leaves n k level
  rw [← hu] at hframe hcmds hval hvals hno hyes
  refine ⟨?_, hval, hvals, hno, fun o ho hi hen => ?_⟩
  · rw [SafFrame, hcmds] at hframe
    rw [hframe]
    rfl
  · rw [outputOf_settle, hyes o ho hi hen]
    exact ⟨rfl, fun h => if_neg (fun hb => h (eq_of_beq hb)), fun h => if_pos (beq_iff_eq.mpr h)⟩

/-- Settles O42: each row is a change of the one output on the fabric as it stands; the feedback's steps and the pulses' verdicts
reach each output once. -/
theorem safetyOutputsAndSupplies : Obligations.SafetyOutputsAndSupplies := by
  refine ⟨⟨pulseVerdicts_output, fun t o code plus minus cur low s ho => ?_⟩, fun t k volt level s => ⟨fun hk => ?_, acts_fbSettle,
    fun hk => ?_, fun hk => ?_⟩⟩
  · intro m
    have hm : fabricAdvance (atInstant s t) = m := rfl
    have hnow : m.now = (atInstant s t).now := (fabricAdvance_leaves _).2
    clear_value m
    intro x frame
    refine ⟨fun h => ?_, fun h => ?_, fun h => ?_, fun h => ?_, fun d h1 h2 h3 h4 h5 h6 h7 => ?_, fun h => ?_, fun h => ?_, fun h => ?_,
      fun h1 h2 => ?_, fun h => ?_, fun h => ?_, fun h1 h2 => ?_, fun a h1 h2 h3 h4 h5 => ?_, fun h => ?_⟩
    · obtain ⟨hf, hy⟩ := testStart_due h
      rw [hnow] at hy
      exact acts_onOut ho hm (f := fun n => testStart n o) rfl ⟨hf.leaves, hy⟩
    · exact acts_onOut_same ho hm (f := fun n => testStart n o) rfl (if_neg h)
    · refine acts_onOut ho hm (f := fun n => testDone n o code) rfl ?_
      by_cases hc : code = 3 ∨ code = 4
      · rw [testDone_failed h hc]
        obtain ⟨hf, h1, h2, h3, h4, -, h6⟩ := dropped_faulty m o code
        exact ⟨hf.leaves, fun hn => by omega, fun _ => ⟨h1, h2, h3, h4, h6⟩⟩
      · obtain ⟨hf, hall⟩ := testDone_passed h (code := code) (by omega)
        exact ⟨hf.leaves, fun _ => hall, fun hn => absurd hn hc⟩
    · exact acts_onOut_same ho hm (f := fun n => testDone n o code) rfl (if_neg h)
    · obtain ⟨hf, hy⟩ := pulseStart_due h1 h2 h3 h4 h5 h6 h7
      rw [hnow] at hy
      exact acts_onOut ho hm (f := fun n => pulseStart n o) rfl ⟨hf.leaves, hy⟩
    · exact acts_onOut_same ho hm (f := fun n => pulseStart n o) rfl (pulseStart_not h)
    · obtain ⟨hf, hy⟩ := pulseDone_running h code
      rw [hnow] at hy
      exact acts_onOut ho hm (f := fun n => pulseDone n o code) rfl ⟨hf.leaves, hy⟩
    · have hno : ¬ (outputOf m o).pulse = true := Bool.eq_false_iff.mp h
      exact acts_onOut_same ho hm (f := fun n => pulseDone n o code) rfl (if_neg hno)
    · obtain ⟨hf, hy⟩ := monitorFault_told h1 h2 (low := low) (plus := plus) (minus := minus) (cur := cur)
      rw [hnow] at hy
      exact acts_onOut ho hm (f := fun n => monitorFault n o low plus minus cur) rfl ⟨hf.leaves, hy⟩
    · refine acts_onOut ho hm (f := fun n => monitorFault n o low plus minus cur) rfl ?_
      rw [monitorFault_not h]
      exact ⟨(outFrame_modOutput m o _).leaves, outputOf_modOutput_self m o _⟩
    · obtain ⟨hf, hy⟩ := overload_of cur h
      exact acts_onOut ho hm (f := fun n => overload n o cur) rfl ⟨hf.leaves, hy⟩
    · exact acts_onOut_same ho hm (f := fun n => overload n o cur) rfl (overload_not cur h1 h2)
    · obtain ⟨hf, hy⟩ := fbDue_due h1 h2 h3 h4 h5
      exact acts_onOut ho hm (f := fun n => fbDue n o) rfl ⟨hf.leaves, hy⟩
    · exact acts_onOut_same ho hm (f := fun n => fbDue n o) rfl (fbDue_not h)
  · exact acts_of_eq (f := fun n => if k < 4 then vsChange n k volt else n) rfl (if_pos hk) (vsChange_leaves _ k volt)
  · exact acts_of_eq (f := fun n => if k < 4 then vsChange n k volt else n) rfl (if_neg (by omega)) (sameButSignals_settle _)
  · exact acts_of_eq (f := fun n => if k < 32 then fbSettle n k level else n) rfl (if_neg (by omega)) (sameButSignals_settle _)

end Sys2Proof.Machine
end

section
/-! PROOF. What the trip fabric keeps at every event of its inputs (10 R218, R219). -/

namespace Sys2Proof.Machine

/-- Of a list each key has a step, on a node that the steps before it leave; R is what every step keeps. -/
theorem foldl_reach {α : Type} {R : Node → Node → Prop} (refl : ∀ n, R n n) (trans : ∀ {a b c}, R a b → R b c → R a c)
    {f : Node → α → Node} (hR : ∀ n c, R n (f n c)) {l : List α} {k : α} (hk : k ∈ l) (n : Node) :
    ∃ m, R n m ∧ R (f m k) (l.foldl f n) := by
  induction l generalizing n with
  | nil => exact nomatch hk
  | cons c r ih =>
    rcases List.mem_cons.mp hk with rfl | hmem
    · exact ⟨n, refl n, foldl_rel refl trans hR r _⟩
    · obtain ⟨m, hm, hend⟩ := ih hmem (f n c)
      exact ⟨m, trans (hR n c) hm, hend⟩

/-! Latches -/

/-- The fast demands stay, and no latch is cleared. -/
structure Latching (n u : Node) : Prop where
  regs : u.regs = n.regs
  fronts : u.fronts = n.fronts
  evals : u.safety.evals = n.safety.evals
  latch : ∀ c, c < 3 → ∀ s, (copyOf n c).latch.getLsbD s = true → (copyOf u c).latch.getLsbD s = true

theorem Latching.refl (n : Node) : Latching n n := ⟨rfl, rfl, rfl, fun _ _ _ h => h⟩

theorem Latching.trans {a b c : Node} (h : Latching a b) (k : Latching b c) : Latching a c :=
  ⟨k.regs.trans h.regs, k.fronts.trans h.fronts, k.evals.trans h.evals, fun x hx s hs => k.latch x hx s (h.latch x hx s hs)⟩

theorem fastDemand_of {n u : Node} (hr : u.regs = n.regs) (hf : u.fronts = n.fronts) (he : u.safety.evals = n.safety.evals)
    (c s : Nat) : fastDemand u c s = fastDemand n c s := by
  have hreg : ∀ k, reg u k = reg n k := reg_of_regs hr
  have hcmp : ∀ ch, cmpCopy u c ch = cmpCopy n c ch := fun ch => by simp only [cmpCopy, frontOf, hf]
  have hsel : ∀ ch, chnSel u ch = chnSel n ch := fun ch => by simp only [chnSel, chnMode, hreg]
  have hdemand : ∀ ch, cmpDemand u c ch = cmpDemand n c ch := fun ch => by simp only [cmpDemand, hsel, hcmp]
  have hpair : ∀ k, pairDemand u c k = pairDemand n c k := fun k => by
    simp only [pairDemand, pairPermit, sinEn, sinAnti, sinCfg, hreg, hcmp, evalOf, he]
  simp only [fastDemand, mapChs, mapPairs, tripCmp, tripSin, hreg, funext hdemand, funext hpair]

theorem Latching.demand {n u : Node} (h : Latching n u) (c s : Nat) : fastDemand u c s = fastDemand n c s :=
  fastDemand_of h.regs h.fronts h.evals c s

theorem copyOf_modCopy_self {c : Nat} (hc : c < 3) (n : Node) (f : FabCopy → FabCopy) : copyOf (modCopy n c f) c = f (copyOf n c) := by
  interval_cases c <;> rfl

theorem copyOf_modCopy_ne {c d : Nat} (hc : c < 3) (hd : d < 3) (h : d ≠ c) (n : Node) (f : FabCopy → FabCopy) :
    copyOf (modCopy n c f) d = copyOf n d := by
  interval_cases c <;> interval_cases d <;> simp_all [modCopy, copyOf, modSafety]

/-- A change of one copy that clears no latch. -/
theorem latching_modCopy {c : Nat} (hc : c < 3) (n : Node) {f : FabCopy → FabCopy}
    (hf : ∀ x s, x.latch.getLsbD s = true → (f x).latch.getLsbD s = true) : Latching n (modCopy n c f) := by
  have hrest : (modCopy n c f).safety.evals = n.safety.evals := by
    unfold modCopy modSafety
    dsimp only
    split
    · rfl
    · split <;> rfl
  refine ⟨rfl, rfl, hrest, fun d hd s hs => ?_⟩
  by_cases h : d = c
  · subst h
    rw [copyOf_modCopy_self hc]
    exact hf _ s hs
  · rw [copyOf_modCopy_ne hc hd h]
    exact hs

theorem latching_setCopyLatch {c : Nat} (hc : c < 3) (n : Node) (s : Nat) : Latching n (setCopyLatch n s c) :=
  latching_modCopy hc n (fun x j hx => by rw [BitVec.getLsbD_or, hx, Bool.true_or])

/-- One copy's part in the latch of a function. -/
def latchCopy (s : Nat) (n : Node) (c : Nat) : Node := if fastDemand n c s then setCopyLatch n s c else n

theorem latching_latchCopy {c : Nat} (hc : c < 3) (n : Node) (s : Nat) : Latching n (latchCopy s n c) :=
  pred_ite (P := Latching n) (latching_setCopyLatch hc n s) (Latching.refl n)

theorem latchCopies_eq (n : Node) (s : Nat) : latchCopies n s = latchCopy s (latchCopy s (latchCopy s n 0) 1) 2 := rfl

theorem latching_latchCopies (n : Node) (s : Nat) : Latching n (latchCopies n s) := by
  rw [latchCopies_eq]
  exact ((latching_latchCopy (by decide) n s).trans (latching_latchCopy (by decide) _ s)).trans (latching_latchCopy (by decide) _ s)

theorem latched_latchCopy {c s : Nat} (hc : c < 3) (hs : s < 64) {n : Node} (h : fastDemand n c s = true) :
    (copyOf (latchCopy s n c) c).latch.getLsbD s = true := by
  rw [latchCopy, if_pos h, setCopyLatch, copyOf_modCopy_self hc, BitVec.getLsbD_or, BitVec.getLsbD_ofNat, Nat.testBit_two_pow_self]
  simp [hs]

/-- Each copy that sees the demand has the latch set. -/
theorem latched_latchCopies {c s : Nat} (hc : c < 3) (hs : s < 64) {n : Node} (h : fastDemand n c s = true) :
    (copyOf (latchCopies n s) c).latch.getLsbD s = true := by
  have h0 := latching_latchCopy (c := 0) (by decide) n s
  have h1 := latching_latchCopy (c := 1) (by decide) (latchCopy s n 0) s
  have h2 := latching_latchCopy (c := 2) (by decide) (latchCopy s (latchCopy s n 0) 1) s
  rw [latchCopies_eq]
  interval_cases c
  · exact h2.latch 0 (by decide) s (h1.latch 0 (by decide) s (latched_latchCopy (by decide) hs h))
  · exact h2.latch 1 (by decide) s (latched_latchCopy (by decide) hs ((h0.demand 1 s).trans h))
  · exact latched_latchCopy (by decide) hs (((h0.trans h1).demand 2 s).trans h)

theorem latching_dateLatch (t : Nat) (was n : Node) (s : Nat) : Latching n (dateLatch t was n s) :=
  pred_ite (P := Latching n) ⟨rfl, rfl, rfl, fun _ _ _ h => h⟩ (Latching.refl n)

theorem latching_setLatch (t : Nat) (n : Node) (s : Nat) : Latching n (setLatch t n s) := by
  rw [setLatch_eq]
  exact (latching_latchCopies n s).trans (latching_dateLatch t n _ s)

theorem lt_of_enabledFns {n : Node} {s : Nat} (h : s ∈ enabledFns n) : s < 64 := by
  obtain ⟨e, -, he⟩ := List.mem_filterMap.mp h
  rw [Option.ite_none_right_eq_some] at he
  obtain ⟨⟨h1, h2, -⟩, he⟩ := he
  cases he
  omega

/-- The latches set by the demands that stand. -/
theorem setLatches_leaves (n : Node) (t : Nat) : Latching n (setLatches n t) ∧
    ∀ s ∈ enabledFns n, ∀ c, c < 3 → fastDemand (setLatches n t) c s = true → (copyOf (setLatches n t) c).latch.getLsbD s = true := by
  have hall : Latching n (setLatches n t) := foldl_rel Latching.refl Latching.trans (latching_setLatch t) _ n
  refine ⟨hall, fun s hs c hc hd => ?_⟩
  obtain ⟨m, hm, hend⟩ := foldl_reach Latching.refl Latching.trans (latching_setLatch t) hs n
  refine hend.latch c hc s ?_
  rw [setLatch_eq]
  refine (latching_dateLatch t m _ s).latch c hc s (latched_latchCopies hc (lt_of_enabledFns hs) ?_)
  rw [hm.demand, ← hall.demand]
  exact hd

/-! Outputs -/

/-- An output that is not off is one whose switches may conduct. -/
def Permitted (n : Node) (o : Nat) : Prop := (outputOf n o).phase ≠ .off → maySwitch n o = true

theorem maySwitch_of {n u : Node} {o : Nat} (h : OutsFrame n u) (hc : (outputOf u o).cmd = (outputOf n o).cmd) :
    maySwitch u o = maySwitch n o := by
  have hrest : fabricPermits u o = fabricPermits n o ∧ drives u = drives n := by
    rw [OutsFrame] at h
    rw [h]
    exact ⟨rfl, rfl⟩
  rw [maySwitch, maySwitch, hrest.1, hrest.2, hc]

theorem cmd_dropOutput (n : Node) (o k : Nat) : (outputOf (dropOutput n o) k).cmd = (outputOf n k).cmd := by
  obtain ⟨honly, -, -, -, hkept⟩ := dropOutput_leaves n o
  by_cases h : k = o
  · subst h
    exact congrArg (fun x => x.2.2.1) hkept
  · rw [honly.other k h]

/-- One output's part in the settling. -/
def settleOutput (n : Node) (o : Nat) : Node := if (outputOf n o).phase ≠ .off ∧ !maySwitch n o then dropOutput n o else n

theorem settleOutputs_eq (n : Node) : settleOutputs n = (keys n.safety.outs).foldl settleOutput n := rfl

theorem settleOutput_permitted (n : Node) (o : Nat) : Permitted (settleOutput n o) o := by
  unfold settleOutput
  split
  · exact fun h => absurd (dropOutput_leaves n o).2.1 h
  next hno =>
    intro h
    by_contra hm
    exact hno ⟨h, by rw [Bool.eq_false_iff.mpr hm]; rfl⟩

/-- The settling of one output keeps what the others may do. -/
def KeepsPermitted (n u : Node) : Prop := ∀ o, Permitted n o → Permitted u o

theorem keepsPermitted_settleOutput (n : Node) (o : Nat) : KeepsPermitted n (settleOutput n o) := by
  intro k hk
  by_cases h : k = o
  · rw [h]
    exact settleOutput_permitted n o
  · refine pred_ite (P := fun u => Permitted u k) (fun hphase => ?_) hk
    obtain ⟨honly, -⟩ := dropOutput_leaves n o
    rw [maySwitch_of honly.outs (cmd_dropOutput n o k)]
    rw [honly.other k h] at hphase
    exact hk hphase

theorem settleOutputs_permitted (n : Node) (o : Nat) : Permitted (settleOutputs n) o := by
  have refl : ∀ m, KeepsPermitted m m := fun _ _ h => h
  have trans : ∀ {a b c}, KeepsPermitted a b → KeepsPermitted b c → KeepsPermitted a c := fun h k o ho => k o (h o ho)
  rw [settleOutputs_eq]
  by_cases h : o ∈ keys n.safety.outs
  · obtain ⟨m, -, hend⟩ := foldl_reach refl trans keepsPermitted_settleOutput h n
    exact hend o (settleOutput_permitted m o)
  · refine foldl_rel refl trans keepsPermitted_settleOutput _ n o (fun hphase => ?_)
    have hdef : outputOf n o = {} := tget_of_not_mem_keys ({} : Output) h
    rw [hdef] at hphase
    exact absurd rfl hphase

theorem outsFrame_settleOutputs (n : Node) : OutsFrame n (settleOutputs n) :=
  foldl_rel (R := OutsFrame) (f := settleOutput) (fun _ => rfl) OutsFrame.trans
    (fun n o => pred_ite (P := OutsFrame n) (dropOutput_leaves n o).1.outs rfl) (keys n.safety.outs) n

/-! The whole -/

theorem copyOf_of_outs {n u : Node} (h : OutsFrame n u) (c : Nat) : copyOf u c = copyOf n c := by
  rw [OutsFrame] at h
  rw [h]
  rfl

theorem enabledFns_of_regs {n u : Node} (h : u.regs = n.regs) : enabledFns u = enabledFns n := by
  rw [enabledFns, h]
  rfl

/-- What the settling of the fabric leaves it keeping, whatever it was. -/
theorem fabricHolds_fabricSettle (n : Node) : fabricHolds (settle (fabricSettle n)) := by
  have hpairs : SafFrame n ((enabledPairs n).foldl settlePair n) := safFrame_foldl safFrame_settlePair _ n
  show fabricHolds (settle (settleOutputs (setLatches ((enabledPairs n).foldl settlePair n) ((enabledPairs n).foldl settlePair n).now)))
  generalize (enabledPairs n).foldl settlePair n = m
  obtain ⟨hl, hset⟩ := setLatches_leaves m m.now
  generalize setLatches m m.now = k at hl hset
  have houts := outsFrame_settleOutputs k
  have hperm := settleOutputs_permitted k
  generalize settleOutputs k = u at houts hperm
  have hregs := houts.saf.regs
  have hf := congrArg Node.fronts houts
  have he := congrArg (fun x : Node => x.safety.evals) houts
  refine ⟨fun s hs c hc hd => ?_, fun o ho => hperm o ho⟩
  have hs' : s ∈ enabledFns m := by
    rw [← enabledFns_of_regs (hregs.trans hl.regs)]
    exact hs
  have hd' : fastDemand k c s = true := by
    rw [← fastDemand_of hregs hf he]
    exact hd
  show (copyOf u c).latch.getLsbD s = true
  rw [copyOf_of_outs houts]
  exact hset s hs' c hc hd'

end Sys2Proof.Machine
end

section
/-! PROOF. Crossings and diagnostic slots reach the trip fabric (04 R95, R96, 07 R146, R148, R159, 10 R218 to R220, R224). -/

namespace Sys2Proof.Machine

/-! A crossing -/

theorem frontOf_of_saf {n u : Node} (h : SafFrame n u) (ch : Nat) : frontOf u ch = frontOf n ch := by
  have hf := congrArg Node.fronts h
  simp only [frontOf, hf]

/-- u differs from n in the front ends. -/
def FrontFrame (n u : Node) : Prop := u = { n with fronts := u.fronts }

theorem FrontFrame.trans {a b c : Node} (h : FrontFrame a b) (k : FrontFrame b c) : FrontFrame a c := by
  rw [FrontFrame] at *
  rw [h] at k
  exact k

/-- The front end after a crossing, before its copies follow. -/
def crossed (n : Node) (ch : Nat) (sigHi sigLo : Int) (copies : Nat) (f : Front) : Front :=
  { cmpSides n ch sigHi sigLo f with follow := copies }

theorem cmpOut_of_regs {n u : Node} (h : u.regs = n.regs) (ch : Nat) (f : Front) : cmpOut u ch f = cmpOut n ch f := by
  have hd : isDi u ch = isDi n ch := by simp only [isDi, chnSel, chnMode, reg_of_regs h]
  have hc : chnCmp u ch = chnCmp n ch := reg_of_regs h _
  simp only [cmpOut, hd, hc]

theorem setComparator_leaves {n : Node} {ch : Nat} (hw : watched n ch = true) (hc : hasCmp n ch = true) (sigHi sigLo : Int) (copies : Nat) :
    FrontFrame n (setComparator n ch sigHi sigLo copies) ∧
    (∀ k, k ≠ ch → frontOf (setComparator n ch sigHi sigLo copies) k = frontOf n k) ∧
    frontOf (setComparator n ch sigHi sigLo copies) ch =
      (if n.now < (crossed n ch sigHi sigLo copies (frontOf n ch)).holdUntil then crossed n ch sigHi sigLo copies (frontOf n ch)
       else setCopies (cmpOut n ch (crossed n ch sigHi sigLo copies (frontOf n ch))) (crossed n ch sigHi sigLo copies (frontOf n ch))) := by
  have hself := frontOf_modFront_self n ch (crossed n ch sigHi sigLo copies)
  have hother := fun k (hk : k ≠ ch) => frontOf_modFront_ne n (crossed n ch sigHi sigLo copies) hk
  have hrest : FrontFrame n (modFront n ch (crossed n ch sigHi sigLo copies)) := rfl
  have hnow : (modFront n ch (crossed n ch sigHi sigLo copies)).now = n.now := rfl
  have hout := cmpOut_of_regs (n := n) (u := modFront n ch (crossed n ch sigHi sigLo copies)) rfl ch
  have hrun : setComparator n ch sigHi sigLo copies =
      if (modFront n ch (crossed n ch sigHi sigLo copies)).now < (frontOf (modFront n ch (crossed n ch sigHi sigLo copies)) ch).holdUntil
      then modFront n ch (crossed n ch sigHi sigLo copies)
      else modFront (modFront n ch (crossed n ch sigHi sigLo copies)) ch
        (setCopies (cmpOut (modFront n ch (crossed n ch sigHi sigLo copies)) ch
          (frontOf (modFront n ch (crossed n ch sigHi sigLo copies)) ch))) := by
    rw [setComparator, hw, hc]
    rfl
  rw [hrun]
  generalize modFront n ch (crossed n ch sigHi sigLo copies) = k at *
  rw [hnow, hself, hout]
  split
  · exact ⟨hrest, hother, hself⟩
  · refine ⟨hrest.trans rfl, fun j hj => ?_, ?_⟩
    · rw [frontOf_modFront_ne k _ hj, hother j hj]
    · rw [frontOf_modFront_self, hself]

theorem setComparator_not {n : Node} {ch : Nat} (h : watched n ch = false ∨ hasCmp n ch = false) (sigHi sigLo : Int) (copies : Nat) :
    setComparator n ch sigHi sigLo copies = n := by
  rw [setComparator, if_neg]
  rcases h with h | h <;> simp [h]

/-- What the comparator's sides come to (04 R95, R96). -/
theorem crossed_sides (n : Node) (ch : Nat) (sigHi sigLo : Int) (copies : Nat) (f : Front) :
    (isDi n ch = true → ((crossed n ch sigHi sigLo copies f).hiSet = true ↔ 21000 ≤ sigHi ∨ (f.hiSet = true ∧ 12000 < sigHi)) ∧
      (crossed n ch sigHi sigLo copies f).loSet = false) ∧
    (isDi n ch = false →
      ((crossed n ch sigHi sigLo copies f).hiSet = true ↔ thrValue n ch (fld (chnCmp n ch) 27 16) < 40960 * sigHi ∨
        (f.hiSet = true ∧ thrValue n ch (fld (chnCmp n ch) 27 16) -
          hystSteps n ch * (thrValue n ch 1 - thrValue n ch 0) < 40960 * sigHi)) ∧
      ((crossed n ch sigHi sigLo copies f).loSet = true ↔ 40960 * sigLo < thrValue n ch (fld (chnCmp n ch) 11 0) ∨
        (f.loSet = true ∧ 40960 * sigLo < thrValue n ch (fld (chnCmp n ch) 11 0) +
          hystSteps n ch * (thrValue n ch 1 - thrValue n ch 0)))) := by
  refine ⟨fun h => ?_, fun h => ?_⟩
  · simp only [crossed, cmpSides, h, if_true, sideNext, Bool.or_eq_true, Bool.and_eq_true, decide_eq_true_eq, Bool.not_eq_true',
      decide_eq_false_iff_not, Int.not_le, and_self]
  · simp only [crossed, cmpSides, h, Bool.false_eq_true, if_false, sideNext, Bool.or_eq_true, Bool.and_eq_true, decide_eq_true_eq,
      Bool.not_eq_true', decide_eq_false_iff_not, Int.not_le, Int.mul_comm, and_self]

theorem crossed_holdUntil (n : Node) (ch : Nat) (sigHi sigLo : Int) (copies : Nat) (f : Front) :
    (crossed n ch sigHi sigLo copies f).holdUntil = f.holdUntil ∧ (crossed n ch sigHi sigLo copies f).follow = copies ∧
    (crossed n ch sigHi sigLo copies f).cmp0 = f.cmp0 ∧ (crossed n ch sigHi sigLo copies f).cmp1 = f.cmp1 ∧
    (crossed n ch sigHi sigLo copies f).cmp2 = f.cmp2 := by
  simp only [crossed, cmpSides]
  split <;> simp

/-- The copy of a comparator at the fabric. -/
def copyAt (c : Nat) (f : Front) : Bool := if c = 0 then f.cmp0 else if c = 1 then f.cmp1 else f.cmp2

theorem cmpCopy_eq (n : Node) (c ch : Nat) : cmpCopy n c ch = copyAt c (frontOf n ch) := rfl

theorem copyAt_setCopies {c : Nat} (hc : c < 3) (o : Bool) (f : Front) :
    copyAt c (setCopies o f) = if nbit f.follow c = false then copyAt c f else o := by
  interval_cases c
  · cases h : nbit f.follow 0 <;> simp [copyAt, setCopies, h]
  · cases h : nbit f.follow 1 <;> simp [copyAt, setCopies, h]
  · cases h : nbit f.follow 2 <;> simp [copyAt, setCopies, h]

theorem copyAt_crossed (n : Node) (ch : Nat) (sigHi sigLo : Int) (copies c : Nat) (f : Front) :
    copyAt c (crossed n ch sigHi sigLo copies f) = copyAt c f := by
  obtain ⟨-, -, h0, h1, h2⟩ := crossed_holdUntil n ch sigHi sigLo copies f
  simp only [copyAt, h0, h1, h2]

theorem watched_of_fab {n u : Node} (h : FabFrame n u) (ch : Nat) : watched u ch = watched n ch := by
  obtain ⟨r, l, hd, d, q, hu, -⟩ := h
  rw [hu]
  rfl

theorem FabFrame.regs {n u : Node} (h : FabFrame n u) : u.regs = n.regs := by
  obtain ⟨r, l, hd, d, q, hu, -⟩ := h
  rw [hu]

theorem SafFrame.fronts {n u : Node} (h : SafFrame n u) : u.fronts = n.fronts := by
  have k := congrArg Node.fronts h
  exact k

theorem acts_comparatorCrossing (t ch : Nat) (sigHi sigLo : Int) (copies : Nat) (s : State) :
    Acts (.comparatorCrossing t ch sigHi sigLo copies) s t (fun n u =>
    SameButSignals u { fabricAdvance n with fronts := u.fronts, safety := u.safety, cmds := u.cmds } ∧ fabricHolds u ∧
    (∀ k, k ≠ ch → frontOf u k = frontOf (fabricAdvance n) k) ∧
    (watched n ch = false ∨ hasCmp n ch = false → u.fronts = (fabricAdvance n).fronts) ∧
    (watched n ch = true → hasCmp n ch = true →
      (isDi n ch = true → ((frontOf u ch).hiSet = true ↔
          21000 ≤ sigHi ∨ ((frontOf (fabricAdvance n) ch).hiSet = true ∧ 12000 < sigHi)) ∧ (frontOf u ch).loSet = false) ∧
      (isDi n ch = false →
        ((frontOf u ch).hiSet = true ↔ thrValue n ch (fld (chnCmp n ch) 27 16) < 40960 * sigHi ∨
          ((frontOf (fabricAdvance n) ch).hiSet = true ∧ thrValue n ch (fld (chnCmp n ch) 27 16) -
            hystSteps n ch * (thrValue n ch 1 - thrValue n ch 0) < 40960 * sigHi)) ∧
        ((frontOf u ch).loSet = true ↔ 40960 * sigLo < thrValue n ch (fld (chnCmp n ch) 11 0) ∨
          ((frontOf (fabricAdvance n) ch).loSet = true ∧ 40960 * sigLo < thrValue n ch (fld (chnCmp n ch) 11 0) +
            hystSteps n ch * (thrValue n ch 1 - thrValue n ch 0)))) ∧
      ∀ c, c < 3 → cmpCopy u c ch =
        (if n.now < (frontOf (fabricAdvance n) ch).holdUntil ∨ nbit copies c = false then cmpCopy (fabricAdvance n) c ch
         else cmpOut u ch (frontOf u ch)))) := by
  refine acts_leaves (f := withFabric (fun n => setComparator n ch sigHi sigLo copies)) rfl (fun u hu => ?_)
  generalize atInstant s t = n at hu ⊢
  obtain ⟨hfab, hnow⟩ := fabricAdvance_leaves n
  rw [withFabric] at hu
  generalize fabricAdvance n = m at *
  have hwatch := watched_of_fab hfab ch
  have hreg : ∀ k, reg m k = reg n k := reg_of_regs hfab.regs
  have hcmp : hasCmp m ch = hasCmp n ch := by simp only [hasCmp, chnSel, chnMode, hreg]
  have hsafe := safFrame_fabricSettle (setComparator m ch sigHi sigLo copies)
  have hholds := fabricHolds_fabricSettle (setComparator m ch sigHi sigLo copies)
  rw [← hu] at hsafe hholds
  have hfront : ∀ k, frontOf u k = frontOf (setComparator m ch sigHi sigLo copies) k := frontOf_of_saf hsafe
  have hfronts : u.fronts = (setComparator m ch sigHi sigLo copies).fronts := hsafe.fronts
  have hframe : FrontFrame m (setComparator m ch sigHi sigLo copies) ∧
      (∀ k, k ≠ ch → frontOf (setComparator m ch sigHi sigLo copies) k = frontOf m k) := by
    by_cases hon : watched m ch = true ∧ hasCmp m ch = true
    · obtain ⟨h1, h2, -⟩ := setComparator_leaves hon.1 hon.2 sigHi sigLo copies
      exact ⟨h1, h2⟩
    · have hoff : watched m ch = false ∨ hasCmp m ch = false := by
        rw [not_and_or] at hon
        exact hon.imp Bool.eq_false_iff.mpr Bool.eq_false_iff.mpr
      rw [setComparator_not hoff]
      exact ⟨rfl, fun _ _ => rfl⟩
  have hregs : u.regs = n.regs := by
    rw [hsafe.regs, hframe.1]
    exact hfab.regs
  refine ⟨?_, hholds, fun k hk => (hfront k).trans (hframe.2 k hk), fun hoff => ?_, fun hw hc => ?_⟩
  · rw [SafFrame] at hsafe
    rw [hsafe, hframe.1]
    rfl
  · rw [← hwatch, ← hcmp] at hoff
    rw [settle_fronts, hfronts, setComparator_not hoff]
  · rw [← hwatch] at hw
    rw [← hcmp] at hc
    obtain ⟨-, -, hself⟩ := setComparator_leaves hw hc sigHi sigLo copies
    obtain ⟨hhold, hfollow, -⟩ := crossed_holdUntil m ch sigHi sigLo copies (frontOf m ch)
    have hsides := crossed_sides m ch sigHi sigLo copies (frontOf m ch)
    have hcopy := fun c => copyAt_crossed m ch sigHi sigLo copies c (frontOf m ch)
    have hcmpOut := cmpOut_of_regs (hregs.trans hfab.regs.symm) ch
    generalize crossed m ch sigHi sigLo copies (frontOf m ch) = y at *
    have hthr : ∀ k, thrValue m ch k = thrValue n ch k := fun k => by
      simp only [thrValue, bridgeRange, chnSel, chnMode, chnRange, hreg]
    have hhyst : hystSteps m ch = hystSteps n ch := by simp only [hystSteps, chnCmp, hreg]
    have hdi : isDi m ch = isDi n ch := by simp only [isDi, chnSel, chnMode, hreg]
    have hw2 : chnCmp m ch = chnCmp n ch := hreg _
    rw [hdi, hw2, hhyst] at hsides
    simp only [hthr] at hsides
    rw [← hfront ch, hhold, hnow] at hself
    have hhi : (frontOf u ch).hiSet = y.hiSet ∧ (frontOf u ch).loSet = y.loSet := by
      rw [hself]
      split <;> exact ⟨rfl, rfl⟩
    have hsettle : ∀ k, frontOf (settle u) k = frontOf u k := fun _ => rfl
    rw [hsettle, hhi.1, hhi.2]
    refine ⟨hsides.1, hsides.2, fun c hc3 => ?_⟩
    rw [cmpCopy_eq, cmpCopy_eq, hsettle]
    show copyAt c (frontOf u ch) = if _ then _ else cmpOut u ch (frontOf u ch)
    have hval : cmpOut u ch (frontOf u ch) = cmpOut m ch y := by
      rw [hcmpOut]
      simp only [cmpOut, hhi.1, hhi.2]
    rw [hval, hself]
    by_cases hlate : n.now < (frontOf m ch).holdUntil
    · rw [if_pos hlate, if_pos (.inl hlate), hcopy]
    · rw [if_neg hlate, copyAt_setCopies hc3, hfollow, hcopy]
      simp only [hlate, false_or]

end Sys2Proof.Machine
end

section
/-! PROOF. Diagnostic slots, discrepancies and the statement on fast inputs (07 R146, R148, R159, 10 R220, R224). -/

namespace Sys2Proof.Machine

/-! Diagnostic slots -/

/-- u differs from n in the front ends and the diagnostics. -/
def SlotFrame (n u : Node) : Prop := u = { n with fronts := u.fronts, diags := u.diags }

theorem SlotFrame.trans {a b c : Node} (h : SlotFrame a b) (k : SlotFrame b c) : SlotFrame a c := by
  rw [SlotFrame] at *
  rw [h] at k
  exact k

theorem diagOf_modDiag_self (n : Node) (ch : Nat) (f : Diag → Diag) : diagOf (modDiag n ch f) ch = f (diagOf n ch) :=
  tget_tmod_self _ _ _ _

theorem diagOf_modDiag_ne (n : Node) {ch k : Nat} (f : Diag → Diag) (h : k ≠ ch) : diagOf (modDiag n ch f) k = diagOf n k :=
  tget_tmod_ne _ _ _ h

/-- What the judgement of a slot's measurement leaves: the slots' kinds and the holds stay, and no front end but the channel's
changes. -/
structure Judged (ch : Nat) (n u : Node) : Prop where
  rest : SlotFrame n u
  slot : ∀ k, (diagOf u k).lastSlot = (diagOf n k).lastSlot
  hold : ∀ k, (frontOf u k).holdUntil = (frontOf n k).holdUntil
  other : ∀ k, k ≠ ch → frontOf u k = frontOf n k

theorem Judged.refl (ch : Nat) (n : Node) : Judged ch n n := ⟨rfl, fun _ => rfl, fun _ => rfl, fun _ _ => rfl⟩

theorem Judged.trans {ch : Nat} {a b c : Node} (h : Judged ch a b) (k : Judged ch b c) : Judged ch a c :=
  ⟨h.rest.trans k.rest, fun j => (k.slot j).trans (h.slot j), fun j => (k.hold j).trans (h.hold j),
    fun j hj => (k.other j hj).trans (h.other j hj)⟩

theorem judged_ite {p : Prop} [Decidable p] {ch : Nat} {n a b : Node} (ha : Judged ch n a) (hb : Judged ch n b) :
    Judged ch n (if p then a else b) := pred_ite ha hb

theorem judged_modDiag (ch : Nat) (n : Node) (k : Nat) {f : Diag → Diag} (hf : ∀ d, (f d).lastSlot = d.lastSlot) :
    Judged ch n (modDiag n k f) := by
  refine ⟨rfl, fun j => ?_, fun _ => rfl, fun _ _ => rfl⟩
  by_cases h : j = k
  · subst h
    rw [diagOf_modDiag_self, hf]
  · rw [diagOf_modDiag_ne n f h]

theorem judged_modFront (n : Node) (ch : Nat) {f : Front → Front} (hf : ∀ x, (f x).holdUntil = x.holdUntil) :
    Judged ch n (modFront n ch f) := by
  refine ⟨rfl, fun _ => rfl, fun j => ?_, fun j hj => frontOf_modFront_ne n f hj⟩
  by_cases h : j = ch
  · subst h
    rw [frontOf_modFront_self, hf]
  · rw [frontOf_modFront_ne n f h]

/-- The runs of failed and of passing pulses of a pair (07 R159). -/
def pulseRow (m : SlotResult) (d : Diag) : Diag :=
  { d with failRow := if decide (12000 ≤ m.a ∨ 12000 ≤ m.b) then sat 2 (d.failRow + 1) else 0,
           passRow := if decide (m.a < 1500 ∧ m.b < 1500) then sat 8 (d.passRow + 1) else 0 }

/-- XSHORT as the runs of pulses give it. -/
def pulseXshort (n : Node) (e : Nat) : Node :=
  if (diagOf n e).failRow = 2 then setXshort n e true
  else if (diagOf n e).passRow = 8 then setXshort n e false
  else n

theorem slotPulse_eq (n : Node) (ch : Nat) (m : SlotResult) :
    slotPulse n ch m = pulseXshort (modDiag n (ch / 2 * 2) (pulseRow m)) (ch / 2 * 2) := rfl

theorem judged_setXshort (ch : Nat) (n : Node) (e : Nat) (v : Bool) : Judged ch n (setXshort n e v) :=
  (judged_modDiag ch n e (f := fun d => { d with xshort := v }) (fun _ => rfl)).trans
    (judged_modDiag ch _ (e + 1) (f := fun d => { d with xshort := v }) (fun _ => rfl))

theorem judged_slotPulse (n : Node) (ch : Nat) (m : SlotResult) : Judged ch n (slotPulse n ch m) := by
  have hrow : Judged ch n (modDiag n (ch / 2 * 2) (pulseRow m)) := judged_modDiag ch n _ (fun _ => rfl)
  rw [slotPulse_eq]
  exact hrow.trans (judged_ite (judged_setXshort ch _ _ true) (judged_ite (judged_setXshort ch _ _ false) (Judged.refl ch _)))

theorem judged_slotExc (n : Node) (ch : Nat) (m : SlotResult) : Judged ch n (slotExc n ch m) := by
  have hread : Judged ch n (if chnSel n ch = 6 then modDiag n ch (fun d => { d with exc := m.a }) else n) :=
    judged_ite (judged_modDiag ch n ch (fun _ => rfl)) (Judged.refl ch n)
  have hset : ∀ (a : Node) (r : Option Nat) (b : Bool), Judged ch a (modDiag a ch (fun d => { d with repeat_ := r, excTol := b })) :=
    fun a _ _ => judged_modDiag ch a ch (fun _ => rfl)
  have hrep : ∀ (a : Node) (r : Option Nat), Judged ch a (modDiag a ch (fun d => { d with repeat_ := r })) :=
    fun a _ => judged_modDiag ch a ch (fun _ => rfl)
  have hstamp : ∀ (a : Node) (t : Nat), Judged ch a (timestamped a ch t) := fun a t => judged_modFront a ch (fun _ => rfl)
  unfold slotExc
  dsimp only
  generalize (if chnSel n ch = 6 then modDiag n ch (fun d => { d with exc := m.a }) else n) = a at hread
  refine hread.trans (judged_ite (Judged.refl ch a) (judged_ite ?_ (judged_ite (Judged.refl ch a)
    (judged_ite (hrep a _) (hset a _ _)))))
  exact judged_ite ((hset a _ _).trans (hstamp _ _)) (hset a _ _)

theorem judged_slotCmp (n : Node) (ch : Nat) (m : SlotResult) : Judged ch n (slotCmp n ch m) :=
  judged_ite (Judged.refl ch n) (judged_ite (judged_modDiag ch n ch (fun _ => rfl))
    (judged_ite (judged_modDiag ch n ch (fun _ => rfl)) (judged_modDiag ch n ch (fun _ => rfl))))

theorem judged_slotRef (n : Node) (ch kind : Nat) (m : SlotResult) : Judged ch n (slotRef n ch kind m) :=
  judged_ite (Judged.refl ch n) (judged_ite (judged_modDiag ch n ch (fun _ => rfl))
    (judged_ite (judged_modDiag ch n ch (fun _ => rfl)) (judged_modDiag ch n ch (fun _ => rfl))))

theorem judged_slotLead (n : Node) (ch : Nat) (m : SlotResult) : Judged ch n (slotLead n ch m) :=
  judged_ite (judged_modFront n ch (fun _ => rfl)) (Judged.refl ch n)

/-- A slot begins. -/
def startSlot (n : Node) (ch : Nat) : Node :=
  let m := modDiag n ch (fun d => { d with lastSlot := slotKind n ch, slotEnd := n.now + 40000 })
  if chnSel n ch = 9 then modFront m ch (fun f => { f with holdUntil := n.now + 50000 }) else m

/-- What a slot leaves is what its beginning leaves, its measurement judged. -/
theorem runSlot_leaves (results : List (Nat × SlotResult)) (n : Node) (ch : Nat) : Judged ch (startSlot n ch) (runSlot results n ch) ∧
    (lookup results ch = none → runSlot results n ch = startSlot n ch) := by
  have hstart : runSlot results n ch = match lookup results ch with
      | none => startSlot n ch
      | some m => if chnSel (startSlot n ch) ch = 9 then slotPulse (startSlot n ch) ch m
        else match slotKind n ch with
          | 3 => slotExc (startSlot n ch) ch m
          | 4 => slotLead (startSlot n ch) ch m
          | 7 => slotCmp (startSlot n ch) ch m
          | k => slotRef (startSlot n ch) ch k m := rfl
  rw [hstart]
  generalize startSlot n ch = a
  cases lookup results ch with
  | none => exact ⟨Judged.refl ch a, fun _ => rfl⟩
  | some m =>
    refine ⟨judged_ite (judged_slotPulse a ch m) ?_, fun h => nomatch h⟩
    split
    · exact judged_slotExc a ch m
    · exact judged_slotLead a ch m
    · exact judged_slotCmp a ch m
    · exact judged_slotRef a ch _ m

theorem startSlot_leaves (n : Node) (ch : Nat) : SlotFrame n (startSlot n ch) ∧
    (∀ k, k ≠ ch → diagOf (startSlot n ch) k = diagOf n k ∧ frontOf (startSlot n ch) k = frontOf n k) ∧
    diagOf (startSlot n ch) ch = { diagOf n ch with lastSlot := slotKind n ch, slotEnd := n.now + 40000 } ∧
    (chnSel n ch = 9 → (frontOf (startSlot n ch) ch).holdUntil = n.now + 50000) := by
  have hself := diagOf_modDiag_self n ch (fun d => { d with lastSlot := slotKind n ch, slotEnd := n.now + 40000 })
  have hother := fun k (hk : k ≠ ch) => diagOf_modDiag_ne n (fun d => { d with lastSlot := slotKind n ch, slotEnd := n.now + 40000 }) hk
  have hrest : SlotFrame n (modDiag n ch (fun d => { d with lastSlot := slotKind n ch, slotEnd := n.now + 40000 })) := rfl
  have hfront : ∀ k, frontOf (modDiag n ch (fun d => { d with lastSlot := slotKind n ch, slotEnd := n.now + 40000 })) k = frontOf n k :=
    fun _ => rfl
  rw [startSlot]
  dsimp only
  generalize modDiag n ch (fun d => { d with lastSlot := slotKind n ch, slotEnd := n.now + 40000 }) = a at *
  split
  · refine ⟨hrest.trans rfl, fun k hk => ⟨hother k hk, ?_⟩, hself, fun _ => ?_⟩
    · rw [frontOf_modFront_ne a _ hk, hfront]
    · rw [frontOf_modFront_self]
  next h9 => exact ⟨hrest, fun k hk => ⟨hother k hk, hfront k⟩, hself, fun h => absurd h h9⟩

/-- What a slot leaves of the other channels and of its own. -/
theorem runSlot_other (results : List (Nat × SlotResult)) (n : Node) {ch k : Nat} (h : k ≠ ch) :
    (diagOf (runSlot results n ch) k).lastSlot = (diagOf n k).lastSlot ∧ frontOf (runSlot results n ch) k = frontOf n k := by
  obtain ⟨hj, -⟩ := runSlot_leaves results n ch
  obtain ⟨-, hother, -⟩ := startSlot_leaves n ch
  exact ⟨(hj.slot k).trans (congrArg Diag.lastSlot (hother k h).1), (hj.other k h).trans (hother k h).2⟩

theorem slotFrame_runSlot (results : List (Nat × SlotResult)) (n : Node) (ch : Nat) : SlotFrame n (runSlot results n ch) :=
  (startSlot_leaves n ch).1.trans (runSlot_leaves results n ch).1.rest

theorem SlotFrame.keeps {n u : Node} (h : SlotFrame n u) : u.regs = n.regs ∧ u.frame = n.frame ∧ u.now = n.now := by
  have hr := congrArg Node.regs h
  have hf := congrArg Node.frame h
  have hn := congrArg Node.now h
  exact ⟨hr, hf, hn⟩

/-- A pair's channel whose slot has been is held for 50 us. -/
def Pulsed (n u : Node) : Prop := SlotFrame n u ∧ ∀ k, chnSel n k = 9 →
  (diagOf n k).lastSlot = n.frame / 8 % 8 ∧ (frontOf n k).holdUntil = n.now + 50000 →
  (diagOf u k).lastSlot = n.frame / 8 % 8 ∧ (frontOf u k).holdUntil = n.now + 50000

theorem chnSel_of_regs {n u : Node} (h : u.regs = n.regs) (ch : Nat) : chnSel u ch = chnSel n ch := by
  simp only [chnSel, chnMode, reg_of_regs h]

theorem Pulsed.trans {a b c : Node} (h : Pulsed a b) (k : Pulsed b c) : Pulsed a c := by
  obtain ⟨hr, hf, hn⟩ := h.1.keeps
  refine ⟨h.1.trans k.1, fun j hj hx => ?_⟩
  have hk := k.2 j ((chnSel_of_regs hr j).trans hj)
  rw [hf, hn] at hk
  exact hk (h.2 j hj hx)

theorem runSlot_pulsed (results : List (Nat × SlotResult)) (n : Node) {ch : Nat} (h9 : chnSel n ch = 9) :
    (diagOf (runSlot results n ch) ch).lastSlot = n.frame / 8 % 8 ∧ (frontOf (runSlot results n ch) ch).holdUntil = n.now + 50000 := by
  obtain ⟨hj, -⟩ := runSlot_leaves results n ch
  obtain ⟨-, -, hself, hhold⟩ := startSlot_leaves n ch
  have hkind : slotKind n ch = n.frame / 8 % 8 := if_pos h9
  refine ⟨(hj.slot ch).trans ?_, (hj.hold ch).trans (hhold h9)⟩
  rw [hself]
  exact hkind

theorem pulsed_runSlot (results : List (Nat × SlotResult)) (n : Node) (ch : Nat) : Pulsed n (runSlot results n ch) := by
  refine ⟨slotFrame_runSlot results n ch, fun k hk hx => ?_⟩
  by_cases h : k = ch
  · subst h
    exact runSlot_pulsed results n hk
  · obtain ⟨h1, h2⟩ := runSlot_other results n h
    rw [h1, h2]
    exact hx

theorem diagSlot_pulsed (results : List (Nat × SlotResult)) (n : Node) {k : Nat} (hk : k ∈ slotChs n) (h9 : chnSel n k = 9) :
    (diagOf (diagSlot n results) k).lastSlot = n.frame / 8 % 8 ∧ (frontOf (diagSlot n results) k).holdUntil = n.now + 50000 := by
  have refl : ∀ a, Pulsed a a := fun _ => ⟨rfl, fun _ _ h => h⟩
  obtain ⟨a, ⟨hrest, -⟩, hend⟩ := foldl_reach refl Pulsed.trans (pulsed_runSlot results) hk n
  obtain ⟨hr, hf, hn⟩ := hrest.keeps
  obtain ⟨hr', hf', hn'⟩ := (slotFrame_runSlot results a k).keeps
  have h9a : chnSel a k = 9 := (chnSel_of_regs hr k).trans h9
  have hp := runSlot_pulsed results a h9a
  have hlast := hend.2 k ((chnSel_of_regs hr' k).trans h9a)
  rw [hf', hn'] at hlast
  rw [← hf, ← hn]
  exact hlast hp

/-- Where nothing is measured a slot shows its kind, which no other slot changes. -/
def Kinds (n u : Node) : Prop := (∀ k, slotKind u k = slotKind n k) ∧
  ∀ k, (diagOf n k).lastSlot = slotKind n k → (diagOf u k).lastSlot = slotKind n k

theorem Kinds.trans {a b c : Node} (h : Kinds a b) (k : Kinds b c) : Kinds a c := by
  refine ⟨fun j => (k.1 j).trans (h.1 j), fun j hj => ?_⟩
  have hk := k.2 j
  rw [h.1 j] at hk
  exact hk (h.2 j hj)

theorem slotKind_startSlot (n : Node) (ch k : Nat) : slotKind (startSlot n ch) k = slotKind n k := by
  obtain ⟨hrest, hother, hself, -⟩ := startSlot_leaves n ch
  obtain ⟨hr, hf, -⟩ := hrest.keeps
  have hd : (diagOf (startSlot n ch) k).excTol = (diagOf n k).excTol ∧ (diagOf (startSlot n ch) k).repeat_ = (diagOf n k).repeat_ := by
    by_cases h : k = ch
    · subst h
      rw [hself]
      exact ⟨rfl, rfl⟩
    · rw [(hother k h).1]
      exact ⟨rfl, rfl⟩
  simp only [slotKind, hd.1, hd.2, hf, chnSel_of_regs hr]

theorem runSlot_nil (n : Node) (ch : Nat) : runSlot [] n ch = startSlot n ch := (runSlot_leaves [] n ch).2 rfl

theorem lastSlot_startSlot (n : Node) (ch : Nat) : (diagOf (startSlot n ch) ch).lastSlot = slotKind n ch := by
  rw [(startSlot_leaves n ch).2.2.1]

theorem kinds_runSlot (n : Node) (ch : Nat) : Kinds n (runSlot [] n ch) := by
  rw [runSlot_nil]
  refine ⟨slotKind_startSlot n ch, fun k hk => ?_⟩
  by_cases h : k = ch
  · rw [h, lastSlot_startSlot]
  · rw [((startSlot_leaves n ch).2.1 k h).1]
    exact hk

theorem diagSlot_kinds (n : Node) {k : Nat} (hk : k ∈ slotChs n) : (diagOf (diagSlot n []) k).lastSlot = slotKind n k := by
  have refl : ∀ a, Kinds a a := fun _ => ⟨fun _ => rfl, fun _ h => h⟩
  obtain ⟨a, ⟨hkind, -⟩, hend⟩ := foldl_reach refl Kinds.trans kinds_runSlot hk n
  have hrun : (diagOf (runSlot [] a k) k).lastSlot = slotKind (runSlot [] a k) k := by
    rw [runSlot_nil, lastSlot_startSlot, slotKind_startSlot]
  have hlast := hend.2 k hrun
  rw [runSlot_nil, slotKind_startSlot, hkind] at hlast
  exact hlast

theorem diagSlot_other (results : List (Nat × SlotResult)) (n : Node) {k : Nat} (hk : k ∉ slotChs n) :
    (diagOf (diagSlot n results) k).lastSlot = (diagOf n k).lastSlot ∧ frontOf (diagSlot n results) k = frontOf n k := by
  refine List.foldlRecOn (motive := fun a => (diagOf a k).lastSlot = (diagOf n k).lastSlot ∧ frontOf a k = frontOf n k)
    (slotChs n) (runSlot results) ⟨rfl, rfl⟩ (fun a ha ch hch => ?_)
  obtain ⟨h1, h2⟩ := runSlot_other results a (ch := ch) (k := k) (fun h => hk (h ▸ hch))
  exact ⟨h1.trans ha.1, h2.trans ha.2⟩

theorem slotFrame_diagSlot (results : List (Nat × SlotResult)) (n : Node) : SlotFrame n (diagSlot n results) :=
  foldl_rel (R := SlotFrame) (fun _ => rfl) SlotFrame.trans (slotFrame_runSlot results) _ n

/-! An off-pulse (log entry 92) -/

theorem xshort_setXshort (n : Node) (e : Nat) (v : Bool) : diagOf (setXshort n e v) e = { diagOf n e with xshort := v } := by
  rw [setXshort, diagOf_modDiag_ne _ _ (by omega), diagOf_modDiag_self]

theorem slotPulse_leaves (n : Node) (ch : Nat) (r : SlotResult) :
    (12000 ≤ r.a ∨ 12000 ≤ r.b → (diagOf (slotPulse n ch r) (ch / 2 * 2)).xshort =
      (decide (1 ≤ (diagOf n (ch / 2 * 2)).failRow) || (diagOf n (ch / 2 * 2)).xshort)) ∧
    (r.a < 1500 → r.b < 1500 → (diagOf (slotPulse n ch r) (ch / 2 * 2)).xshort =
      (decide ((diagOf n (ch / 2 * 2)).passRow < 7) && (diagOf n (ch / 2 * 2)).xshort)) ∧
    (r.a < 12000 → r.b < 12000 → 1500 ≤ r.a ∨ 1500 ≤ r.b →
      (diagOf (slotPulse n ch r) (ch / 2 * 2)).xshort = (diagOf n (ch / 2 * 2)).xshort ∧
      (diagOf (slotPulse n ch r) (ch / 2 * 2)).failRow = 0 ∧ (diagOf (slotPulse n ch r) (ch / 2 * 2)).passRow = 0) := by
  have hself := diagOf_modDiag_self n (ch / 2 * 2) (pulseRow r)
  rw [slotPulse_eq]
  generalize modDiag n (ch / 2 * 2) (pulseRow r) = a at hself
  generalize ch / 2 * 2 = e at *
  rw [pulseXshort, hself, pulseRow]
  dsimp only
  refine ⟨fun h => ?_, fun h1 h2 => ?_, fun h1 h2 h3 => ?_⟩
  · have hp : ¬ (r.a < 1500 ∧ r.b < 1500) := by omega
    rw [decide_eq_true h, decide_eq_false hp]
    by_cases hf : 1 ≤ (diagOf n e).failRow
    · rw [if_pos (by simp only [if_true, sat]; omega), xshort_setXshort, decide_eq_true hf]
      rfl
    · rw [if_neg (by simp only [if_true, sat]; omega), if_neg (by simp), hself, decide_eq_false hf]
      rfl
  · have hf : ¬ (12000 ≤ r.a ∨ 12000 ≤ r.b) := by omega
    rw [decide_eq_false hf, decide_eq_true (⟨h1, h2⟩ : r.a < 1500 ∧ r.b < 1500), if_neg (by simp)]
    by_cases hp : (diagOf n e).passRow < 7
    · rw [if_neg (by simp only [if_true, sat]; omega), hself, decide_eq_true hp]
      rfl
    · rw [if_pos (by simp only [if_true, sat]; omega), xshort_setXshort, decide_eq_false hp]
      rfl
  · have hf : ¬ (12000 ≤ r.a ∨ 12000 ≤ r.b) := by omega
    have hp : ¬ (r.a < 1500 ∧ r.b < 1500) := by omega
    rw [decide_eq_false hf, decide_eq_false hp, if_neg (by simp), if_neg (by simp), hself, pulseRow, decide_eq_false hf,
      decide_eq_false hp]
    exact ⟨rfl, rfl, rfl⟩

end Sys2Proof.Machine
end

section
/-! PROOF. Discrepancies of pairs, and the statement on fast inputs (10 R220, R224). -/

namespace Sys2Proof.Machine

/-! The evaluators' ticks -/

theorem evalOf_modEval_self (n : Node) (c k : Nat) (f : Evaluator → Evaluator) : evalOf (modEval n c k f) c k = f (evalOf n c k) :=
  tget_tmod_self _ _ _ _

theorem evalOf_modEval_ne (n : Node) {c k c' k' : Nat} (f : Evaluator → Evaluator) (h : 256 * c' + k' ≠ 256 * c + k) :
    evalOf (modEval n c k f) c' k' = evalOf n c' k' := tget_tmod_ne _ _ _ h

theorem lt_of_enabledPairs {n : Node} {k : Nat} (h : k ∈ enabledPairs n) : k < 256 := by
  obtain ⟨e, -, he⟩ := List.mem_filterMap.mp h
  rw [Option.ite_none_right_eq_some] at he
  obtain ⟨⟨h1, h2, h3, h4, -⟩, he⟩ := he
  cases he
  omega

theorem pairTicks_eq (n : Node) (k : Nat) : pairTicks n k =
    modEval (modEval (modEval n 0 k (advanceEval n.now (sinDt n k) (pairTested n k))) 1 k (advanceEval n.now (sinDt n k) (pairTested n k)))
      2 k (advanceEval n.now (sinDt n k) (pairTested n k)) := rfl

theorem evalOf_pairTicks_self {c : Nat} (hc : c < 3) (n : Node) (k : Nat) :
    evalOf (pairTicks n k) c k = advanceEval n.now (sinDt n k) (pairTested n k) (evalOf n c k) := by
  rw [pairTicks_eq]
  generalize advanceEval n.now (sinDt n k) (pairTested n k) = f
  interval_cases c
  · rw [evalOf_modEval_ne _ _ (by omega), evalOf_modEval_ne _ _ (by omega), evalOf_modEval_self]
  · rw [evalOf_modEval_ne _ _ (by omega), evalOf_modEval_self, evalOf_modEval_ne _ _ (by omega)]
  · rw [evalOf_modEval_self, evalOf_modEval_ne _ _ (by omega), evalOf_modEval_ne _ _ (by omega)]

theorem evalOf_pairTicks_ne {c k q : Nat} (hk : k < 256) (hq : q < 256) (h : k ≠ q) (n : Node) :
    evalOf (pairTicks n q) c k = evalOf n c k := by
  rw [pairTicks_eq]
  rw [evalOf_modEval_ne _ _ (by omega), evalOf_modEval_ne _ _ (by omega), evalOf_modEval_ne _ _ (by omega)]

/-! A disagreement that lasts -/

/-- The pair has disagreed since d and its copy has not latched: it will at a. -/
def Disagreeing (d a : Nat) (e : Evaluator) : Prop := e.disSince = some d ∧ e.agreeAt = none ∧ e.discFlt = false ∧ e.discAt < a

/-- The pair has disagreed since d and its copy has latched. -/
def Latched (d : Nat) (e : Evaluator) : Prop := e.disSince = some d ∧ e.agreeAt = none ∧ e.discFlt = true

theorem latched_advanceEval {d now dt : Nat} {tested : Bool} {e : Evaluator} (h : Latched d e) : Latched d (advanceEval now dt tested e) := by
  obtain ⟨ds, ag, flt, at_, seen, ok, okAt, since⟩ := e
  obtain ⟨rfl, rfl, rfl⟩ := h
  cases since <;> exact ⟨rfl, rfl, rfl⟩

theorem advanceEval_due {d now dt : Nat} {tested : Bool} {e : Evaluator} (h : Disagreeing d ((d / 10000 + dt) * 10000) e)
    (ht : (d / 10000 + dt) * 10000 ≤ now) : Latched d (advanceEval now dt tested e) := by
  obtain ⟨ds, ag, flt, at_, seen, ok, okAt, since⟩ := e
  obtain ⟨rfl, rfl, rfl, h4⟩ := h
  have hc : (!false && decide ((d / 10000 + dt) * 10000 ≤ now) && decide (at_ < (d / 10000 + dt) * 10000)) = true := by
    simp only [decide_eq_true ht, decide_eq_true h4, Bool.not_false, Bool.and_self]
  unfold advanceEval
  dsimp only
  rw [if_pos hc]
  cases since <;> exact ⟨rfl, rfl, rfl⟩

theorem advanceEval_early {d now dt : Nat} {tested : Bool} {e : Evaluator} (h : Disagreeing d ((d / 10000 + dt) * 10000) e)
    (ht : now < (d / 10000 + dt) * 10000) : Disagreeing d ((d / 10000 + dt) * 10000) (advanceEval now dt tested e) := by
  obtain ⟨ds, ag, flt, at_, seen, ok, okAt, since⟩ := e
  obtain ⟨rfl, rfl, rfl, h4⟩ := h
  have hc : ¬ (!false && decide ((d / 10000 + dt) * 10000 ≤ now) && decide (at_ < (d / 10000 + dt) * 10000)) = true := by
    simp only [decide_eq_false (Nat.not_le_of_lt ht), Bool.and_false, Bool.false_and, Bool.false_eq_true, not_false_eq_true]
  unfold advanceEval
  dsimp only
  rw [if_neg hc]
  cases since <;> exact ⟨rfl, rfl, rfl, h4⟩

/-- No latch of a copy is dated after the ticks. -/
def DatedBy (now : Nat) (e : Evaluator) : Prop := e.discFlt = true → e.discAt ≤ now

/-- The latch of a disagreement that has lasted by lim. -/
def latchDue (lim dt : Nat) (e : Evaluator) : Evaluator :=
  match e.disSince with
  | some d =>
    if !e.discFlt && decide ((d / 10000 + dt) * 10000 ≤ lim) && decide (e.discAt < (d / 10000 + dt) * 10000) then
      { e with discFlt := true, discAt := (d / 10000 + dt) * 10000, safeSeen := false } else e
  | none => e

/-- The tick that sees the end of a disagreement. -/
def endSeen (tick : Nat) (e : Evaluator) : Evaluator :=
  match e.agreeAt with
  | some a => if a < tick then { e with disSince := none, agreeAt := none } else e
  | none => e

/-- The ticks that see both channels in their safe states. -/
def safeTick (tick : Nat) (tested : Bool) (e : Evaluator) : Evaluator :=
  match e.safeSince with
  | some s => { e with safeSeen := e.safeSeen || (e.discFlt && decide (max s e.discAt < tick)),
                       stupOk := e.stupOk || (tested && decide (max s e.stupAt < tick)) }
  | none => e

/-- Up to which instant the inputs disagree. -/
def disagreeTo (now : Nat) (e : Evaluator) : Nat :=
  match e.agreeAt with
  | some a => min a now
  | none => now

theorem advanceEval_eq (now dt : Nat) (tested : Bool) (e : Evaluator) : advanceEval now dt tested e =
    safeTick (now / 10000 * 10000) tested (endSeen (now / 10000 * 10000) (latchDue (disagreeTo now e) dt e)) := rfl

theorem disagreeTo_le (now : Nat) (e : Evaluator) : disagreeTo now e ≤ now := by
  unfold disagreeTo
  cases e.agreeAt with
  | none => exact Nat.le_refl now
  | some a => exact Nat.min_le_right a now

theorem datedBy_latchDue {now lim dt : Nat} {e : Evaluator} (hlim : lim ≤ now) (h : DatedBy now e) : DatedBy now (latchDue lim dt e) := by
  unfold latchDue
  split
  · split
    next hc =>
      simp only [Bool.and_eq_true, decide_eq_true_eq] at hc
      exact fun _ => Nat.le_trans hc.1.2 hlim
    · exact h
  · exact h

theorem datedBy_endSeen {now tick : Nat} {e : Evaluator} (h : DatedBy now e) : DatedBy now (endSeen tick e) := by
  unfold endSeen
  split
  · exact pred_ite (P := DatedBy now) h h
  · exact h

theorem datedBy_advanceEval {now dt : Nat} {tested : Bool} {e : Evaluator} (h : DatedBy now e) :
    DatedBy now (advanceEval now dt tested e) := by
  have hseen := datedBy_endSeen (tick := now / 10000 * 10000) (datedBy_latchDue (dt := dt) (disagreeTo_le now e) h)
  rw [advanceEval_eq]
  unfold safeTick
  split
  · exact hseen
  · exact hseen

/-! The ticks of a whole event -/

theorem sinDt_of_regs {n u : Node} (h : u.regs = n.regs) (k : Nat) : sinDt u k = sinDt n k := by
  simp only [sinDt, sinCfg, reg_of_regs h]

section ticks
variable {c k : Nat}

theorem pairTicks_evalOf {S : Evaluator → Prop} {q : Nat} (hc : c < 3) (hk : k < 256) (hq : q < 256) {n : Node}
    (hS : ∀ tested e, S e → S (advanceEval n.now (sinDt n k) tested e)) (h : S (evalOf n c k)) : S (evalOf (pairTicks n q) c k) := by
  by_cases hqk : k = q
  · subst hqk
    rw [evalOf_pairTicks_self hc]
    exact hS _ _ h
  · rw [evalOf_pairTicks_ne hk hq hqk]
    exact h

/-- What a tick keeps of an evaluator, every pair's ticks keep. -/
theorem pairsTicks_evalOf {S : Evaluator → Prop} (hc : c < 3) (hk : k < 256) {l : List Nat} (hl : ∀ q ∈ l, q < 256) {n : Node}
    (hS : ∀ tested e, S e → S (advanceEval n.now (sinDt n k) tested e)) (h : S (evalOf n c k)) :
    S (evalOf (l.foldl pairTicks n) c k) := by
  induction l generalizing n with
  | nil => exact h
  | cons q r ih =>
    have hsaf := safFrame_pairTicks n q
    have hat : S (evalOf (pairTicks n q) c k) := pairTicks_evalOf (S := S) hc hk (hl q List.mem_cons_self) hS h
    rw [List.foldl_cons]
    generalize pairTicks n q = m at hsaf hat ⊢
    refine ih (fun x hx => hl x (List.mem_cons_of_mem q hx)) ?_ hat
    rw [hsaf.now, sinDt_of_regs hsaf.regs]
    exact hS

theorem evalTicks_evalOf {S : Evaluator → Prop} (hc : c < 3) (hk : k < 256) {n : Node}
    (hS : ∀ tested e, S e → S (advanceEval n.now (sinDt n k) tested e)) (h : S (evalOf n c k)) : S (evalOf (evalTicks n) c k) :=
  pairsTicks_evalOf hc hk (fun _ => lt_of_enabledPairs) hS h

/-- What its own pair's ticks make of an evaluator, and every tick keeps, stands after them all. -/
theorem evalTicks_makes {S T : Evaluator → Prop} (hc : c < 3) {n : Node} (hk : k ∈ enabledPairs n)
    (hS : ∀ tested e, S e → S (advanceEval n.now (sinDt n k) tested e)) (hT : ∀ tested e, T e → T (advanceEval n.now (sinDt n k) tested e))
    (hST : ∀ tested e, S e → T (advanceEval n.now (sinDt n k) tested e)) (h : S (evalOf n c k)) : T (evalOf (evalTicks n) c k) := by
  have hpairs : ∀ q ∈ enabledPairs n, q < 256 := fun _ => lt_of_enabledPairs
  rw [evalTicks_eq]
  obtain ⟨l, r, hlr⟩ := List.append_of_mem hk
  rw [hlr] at hpairs ⊢
  rw [List.foldl_append, List.foldl_cons]
  have hbefore := safFrame_foldl safFrame_pairTicks l n
  have hm := pairsTicks_evalOf hc (hpairs k (by simp)) (fun q hq => hpairs q (List.mem_append_left _ hq)) hS h
  generalize l.foldl pairTicks n = m at hbefore hm
  have hat := hbefore.trans (safFrame_pairTicks m k)
  have hown : T (evalOf (pairTicks m k) c k) := by
    rw [evalOf_pairTicks_self hc, hbefore.now, sinDt_of_regs hbefore.regs]
    exact hST _ _ hm
  refine pairsTicks_evalOf hc (hpairs k (by simp)) (fun q hq => hpairs q (by simp [hq])) ?_ hown
  rw [hat.now, sinDt_of_regs hat.regs]
  exact hT

theorem evals_settleOutputs (n : Node) : (settleOutputs n).safety.evals = n.safety.evals := by
  have h := congrArg (fun x : Node => x.safety.evals) (outsFrame_settleOutputs n)
  exact h

/-- A tick at which others latch keeps of an evaluator what its ticks keep. -/
theorem tickAt_evalOf {S : Evaluator → Prop} (hc : c < 3) (hk : k < 256) {d : Nat} {n : Node}
    (hS : ∀ tested e, S e → S (advanceEval d (sinDt n k) tested e)) (h : S (evalOf n c k)) : S (evalOf (tickAt n d) c k) := by
  have hticks : S (evalOf (evalTicks { n with now := d }) c k) := evalTicks_evalOf hc hk hS h
  have hevals : (tickAt n d).safety.evals = (evalTicks { n with now := d }).safety.evals :=
    (evals_settleOutputs _).trans (setLatches_leaves _ d).1.evals
  rw [evalOf, hevals]
  exact hticks

theorem ticksAt_evalOf {S : Evaluator → Prop} (hc : c < 3) (hk : k < 256) {ds : List Nat} {n : Node}
    (hS : ∀ d ∈ ds, ∀ tested e, S e → S (advanceEval d (sinDt n k) tested e)) (h : S (evalOf n c k)) :
    S (evalOf (ds.foldl tickAt n) c k) := by
  induction ds generalizing n with
  | nil => exact h
  | cons d r ih =>
    refine ih (fun x hx => ?_) (tickAt_evalOf hc hk (hS d List.mem_cons_self) h)
    rw [sinDt_of_regs (fabFrame_tickAt n d).regs]
    exact hS x (List.mem_cons_of_mem d hx)

/-- The instant of each tick at which an evaluator latches is not after the event. -/
theorem latchTicks_le {n : Node} {d : Nat} (hd : d ∈ latchTicks n (evalTicks n)) : d ≤ n.now := by
  have hdated : ∀ q ∈ enabledPairs n, ∀ x, x < 3 → (evalOf n x q).discFlt = false →
      (evalOf (evalTicks n) x q).discFlt = true → (evalOf (evalTicks n) x q).discAt ≤ n.now := fun q hq x hx hno =>
    evalTicks_evalOf (S := DatedBy n.now) hx (lt_of_enabledPairs hq) (fun _ _ => datedBy_advanceEval)
      (fun hyes => absurd (hno.symm.trans hyes) (by decide))
  unfold latchTicks at hd
  generalize evalTicks n = m at hd hdated
  have hrow : ∀ q ∈ enabledPairs n, ∀ x, x < 3 → ∀ l : List Nat, (∀ d ∈ l, d ≤ n.now) →
      ∀ d ∈ (if (evalOf m x q).discFlt && !(evalOf n x q).discFlt then insertNat (evalOf m x q).discAt l else l), d ≤ n.now := by
    intro q hq x hx l hl d hd
    split at hd
    next hc =>
      rw [Bool.and_eq_true, Bool.not_eq_true'] at hc
      rcases mem_insertNat.mp hd with rfl | hmem
      · exact hdated q hq x hx hc.2 hc.1
      · exact hl d hmem
    · exact hl d hd
  refine (List.foldlRecOn (motive := fun l : List Nat => ∀ d ∈ l, d ≤ n.now) (enabledPairs n) _
    (fun _ h => absurd h List.not_mem_nil) (fun l hl q hq => ?_)) d hd
  exact List.foldlRecOn (motive := fun l : List Nat => ∀ d ∈ l, d ≤ n.now) (List.range 3) _ hl
    (fun l hl x hx => hrow q hq x (List.mem_range.mp hx) l hl)

theorem enabledPairs_of_regs {n u : Node} (h : u.regs = n.regs) : enabledPairs u = enabledPairs n := by
  rw [enabledPairs, h]
  rfl

/-- A copy's discrepancy has latched after the ticks exactly where its tick has come (10 R220). -/
theorem discFlt_fabricTicks {d : Nat} (hc : c < 3) {n : Node} (hk : k ∈ enabledPairs n)
    (h : Disagreeing d ((d / 10000 + sinDt n k) * 10000) (evalOf n c k)) :
    (evalOf (fabricTicks n) c k).discFlt = decide ((d / 10000 + sinDt n k) * 10000 ≤ n.now) := by
  have hk' := lt_of_enabledPairs hk
  by_cases hdue : (d / 10000 + sinDt n k) * 10000 ≤ n.now
  · rw [decide_eq_true hdue]
    have hlast : ∀ m : Node, m.now = n.now → m.regs = n.regs → Disagreeing d ((d / 10000 + sinDt n k) * 10000) (evalOf m c k) ∨
        Latched d (evalOf m c k) → Latched d (evalOf (evalTicks m) c k) := by
      intro m hnow hregs hm
      have hmk : k ∈ enabledPairs m := by
        rw [enabledPairs_of_regs hregs]
        exact hk
      refine evalTicks_makes (S := fun e => Disagreeing d ((d / 10000 + sinDt n k) * 10000) e ∨ Latched d e) (T := Latched d)
        hc hmk ?_ (fun _ _ => latched_advanceEval) ?_ hm
      · rw [hnow, sinDt_of_regs hregs]
        exact fun _ _ he => .inr (he.elim (fun h => advanceEval_due h hdue) latched_advanceEval)
      · rw [hnow, sinDt_of_regs hregs]
        exact fun _ _ he => he.elim (fun h => advanceEval_due h hdue) latched_advanceEval
    have heither : ∀ now tested e, Disagreeing d ((d / 10000 + sinDt n k) * 10000) e ∨ Latched d e →
        Disagreeing d ((d / 10000 + sinDt n k) * 10000) (advanceEval now (sinDt n k) tested e) ∨
        Latched d (advanceEval now (sinDt n k) tested e) := by
      intro now tested e he
      rcases he with he | he
      · by_cases ht : (d / 10000 + sinDt n k) * 10000 ≤ now
        · exact .inr (advanceEval_due he ht)
        · exact .inl (advanceEval_early he (Nat.lt_of_not_le ht))
      · exact .inr (latched_advanceEval he)
    rw [fabricTicks_eq]
    cases latchTicks n (evalTicks n) with
    | nil => exact (hlast n rfl rfl (.inl h)).2.2
    | cons x r =>
      have hticks := ticksAt_evalOf (S := fun e => Disagreeing d ((d / 10000 + sinDt n k) * 10000) e ∨ Latched d e)
        (ds := x :: r) hc hk' (fun y _ tested e => heither y tested e) (.inl h)
      have hfab := fabFrame_foldl fabFrame_tickAt (x :: r) n
      dsimp only
      generalize (x :: r).foldl tickAt n = m at hticks hfab
      exact (hlast { m with now := n.now } rfl hfab.regs hticks).2.2
  · rw [decide_eq_false hdue]
    have hearly : ∀ now, now ≤ n.now → ∀ tested e, Disagreeing d ((d / 10000 + sinDt n k) * 10000) e →
        Disagreeing d ((d / 10000 + sinDt n k) * 10000) (advanceEval now (sinDt n k) tested e) :=
      fun now hle _ _ he => advanceEval_early he (Nat.lt_of_le_of_lt hle (Nat.lt_of_not_le hdue))
    have hds := fun x => latchTicks_le (n := n) (d := x)
    rw [fabricTicks_eq]
    generalize latchTicks n (evalTicks n) = ds at hds
    cases ds with
    | nil => exact (evalTicks_evalOf hc hk' (hearly n.now (Nat.le_refl _)) h).2.2.1
    | cons x r =>
      have hticks := ticksAt_evalOf (ds := x :: r) hc hk' (fun y hy => hearly y (hds y hy)) h
      have hfab := fabFrame_foldl fabFrame_tickAt (x :: r) n
      dsimp only
      generalize (x :: r).foldl tickAt n = m at hticks hfab
      refine (evalTicks_evalOf (n := { m with now := n.now }) hc hk' ?_ hticks).2.2.1
      rw [sinDt_of_regs (n := n) (u := { m with now := n.now }) hfab.regs]
      exact hearly n.now (Nat.le_refl _)

end ticks

theorem evals_setSoFlt (n : Node) (o code : Nat) : (setSoFlt n o code).safety.evals = n.safety.evals := by
  obtain ⟨m, hm, hr⟩ := (setSoFlt_leaves n o code).1
  obtain ⟨r, l, h, d, q, hr, -⟩ := hr
  have h1 := congrArg (fun x : Node => x.safety.evals) hm.outs
  rw [hr]
  exact h1

theorem evals_pulseVerdicts (n : Node) : (pulseVerdicts n).safety.evals = n.safety.evals := by
  rw [pulseVerdicts_eq]
  refine foldl_same (g := fun x : Node => x.safety.evals) (f := pulseVerdict) (fun m o => ?_) _ n
  unfold pulseVerdict
  split
  · exact evals_setSoFlt _ o 5
  · rfl

theorem releaseHolds_of_none {n : Node} (h : holdsEnded n = []) : releaseHolds n = n := by
  unfold releaseHolds
  rw [h]
  rfl

theorem acts_discrepancyTimeout (t pair copy : Nat) (s : State) : Acts (.discrepancyTimeout t pair copy) s t (fun n u =>
    SameButRecords u { n with safety := u.safety, cmds := u.cmds, fronts := u.fronts } ∧
    (holdsEnded n = [] → ∀ k ∈ enabledPairs n, ∀ c d, c < 3 → (evalOf n c k).disSince = some d →
      (evalOf n c k).agreeAt = none → (evalOf n c k).discFlt = false →
      (evalOf n c k).discAt < (d / 10000 + sinDt n k) * 10000 →
      (evalOf u c k).discFlt = decide ((d / 10000 + sinDt n k) * 10000 ≤ n.now))) := by
  refine acts_leaves rfl (fun u hu => ?_)
  generalize atInstant s t = n at hu ⊢
  obtain ⟨hfab, hnow⟩ := fabricAdvance_leaves n
  refine ⟨?_, fun hno k hk c d hc hsince hagree hflt hat => ?_⟩
  · rw [hu]
    exact hfab.records hnow
  · show (evalOf u c k).discFlt = _
    have hevals : u.safety.evals = (fabricTicks n).safety.evals := by
      rw [hu]
      unfold fabricAdvance
      rw [releaseHolds_of_none hno]
      exact evals_pulseVerdicts _
    rw [evalOf, hevals]
    exact discFlt_fabricTicks hc hk ⟨hsince, hagree, hflt, hat⟩

end Sys2Proof.Machine
end

section
/-! PROOF. A diagnostic slot as the fabric sees it, and the statement on fast inputs (07 R146, 10 R220). -/

namespace Sys2Proof.Machine

/-- What a change of XSHORT leaves: the front ends, the instant and all that the fabric's frame names. -/
structure XshortFrame (n u : Node) : Prop where
  fab : FabFrame n u
  now : u.now = n.now
  fronts : u.fronts = n.fronts

theorem XshortFrame.refl (n : Node) : XshortFrame n n := ⟨FabFrame.refl n, rfl, rfl⟩

theorem XshortFrame.trans {a b c : Node} (h : XshortFrame a b) (k : XshortFrame b c) : XshortFrame a c :=
  ⟨h.fab.trans k.fab, k.now.trans h.now, k.fronts.trans h.fronts⟩

theorem xshortFrame_of_saf {n u : Node} (h : SafFrame n u) : XshortFrame n u := ⟨h.fab, h.now, h.fronts⟩

theorem xshortFrame_note (n : Node) (p : Rec) : XshortFrame n (note n p) := by
  have h := recFrame_note n p
  refine ⟨h.fab, ?_, ?_⟩ <;>
  · obtain ⟨r, l, hd, d, q, hu, -⟩ := h
    rw [hu]

/-- The latch of a cross-short in one copy's evaluator. -/
def xshortLatch (k : Nat) (n : Node) (c : Nat) : Node :=
  modEval n c k (fun e => if e.discFlt then e else { e with discFlt := true, discAt := n.now, safeSeen := false })

theorem xshortFrame_step (before n : Node) (k : Nat) : XshortFrame n (xshortStep before n k) := by
  have hstep : xshortStep before n k = if pairXshort before k = pairXshort n k then n
      else
        let m := note n (recSafety (taiNow n) 4 (pairXshort n k) k 0 (0x68 + k / 64) (sinSt n k))
        if pairXshort n k && sinEn m k then (List.range 3).foldl (xshortLatch k) m else m := rfl
  rw [hstep]
  refine pred_ite (P := XshortFrame n) (XshortFrame.refl n) ?_
  have hnote := xshortFrame_note n (recSafety (taiNow n) 4 (pairXshort n k) k 0 (0x68 + k / 64) (sinSt n k))
  generalize note n (recSafety (taiNow n) 4 (pairXshort n k) k 0 (0x68 + k / 64) (sinSt n k)) = m at hnote
  exact hnote.trans (pred_ite (xshortFrame_of_saf (safFrame_foldl (fun n c => safFrame_modEval n c k _) _ m)) (XshortFrame.refl m))

theorem acts_diagSlot (t : Nat) (results : List (Nat × SlotResult)) (s : State) : Acts (.diagSlot t results) s t (fun n u =>
    SameButRecords u { fabricAdvance n with fronts := u.fronts, diags := u.diags, safety := u.safety, cmds := u.cmds } ∧ fabricHolds u ∧
    (∀ k ∈ slotChs (fabricAdvance n), chnSel n k = 9 →
      (diagOf u k).lastSlot = n.frame / 8 % 8 ∧ (frontOf u k).holdUntil = n.now + 50000) ∧
    (∀ k ∈ slotChs (fabricAdvance n), results = [] → (diagOf u k).lastSlot = slotKind (fabricAdvance n) k) ∧
    ∀ k, k ∉ slotChs (fabricAdvance n) →
      (diagOf u k).lastSlot = (diagOf (fabricAdvance n) k).lastSlot ∧ frontOf u k = frontOf (fabricAdvance n) k) := by
  refine acts_leaves (f := withFabric (fun n => (shownPairs n).foldl (xshortStep n) (diagSlot n results))) rfl (fun u hu => ?_)
  generalize atInstant s t = n at hu ⊢
  obtain ⟨hfab, hnow⟩ := fabricAdvance_leaves n
  unfold withFabric at hu
  dsimp only at hu
  generalize fabricAdvance n = m at *
  have hslot := slotFrame_diagSlot results m
  have hpulsed := fun k hk => diagSlot_pulsed results m (k := k) hk
  have hkinds := fun k hk => diagSlot_kinds m (k := k) hk
  have hother := fun k hk => diagSlot_other results m (k := k) hk
  have hx : XshortFrame (diagSlot m results) ((shownPairs m).foldl (xshortStep m) (diagSlot m results)) :=
    foldl_rel XshortFrame.refl XshortFrame.trans (xshortFrame_step m) _ _
  have hd0 : ∀ k, results = [] → diagOf (diagSlot m results) k = diagOf (diagSlot m []) k := fun k h => by rw [h]
  generalize diagSlot m results = d at *
  generalize (shownPairs m).foldl (xshortStep m) d = f at *
  have hsafe := safFrame_fabricSettle f
  have hholds := fabricHolds_fabricSettle f
  rw [← hu] at hsafe hholds
  have hend := hx.trans (xshortFrame_of_saf hsafe)
  have hdiags : u.diags = d.diags := by
    obtain ⟨r, l, hd, db, q, he, -⟩ := hend.fab
    rw [he]
  have hdiag : ∀ k, diagOf (settle u) k = diagOf d k := fun k => congrArg (fun x => tget ({} : Diag) x k) hdiags
  have hfront : ∀ k, frontOf (settle u) k = frontOf d k := fun k => congrArg (fun x => tget ({} : Front) x k) hend.fronts
  have hframe : m.frame = n.frame := by
    obtain ⟨r, l, hd, db, q, he, -⟩ := hfab
    rw [he]
  refine ⟨?_, hholds, fun k hk h9 => ?_, fun k hk hr => ?_, fun k hk => ?_⟩
  · have hrec := hend.fab.records hend.now
    have hnode : { m with fronts := (settle u).fronts, diags := (settle u).diags, safety := (settle u).safety, cmds := (settle u).cmds } =
        { d with safety := (settle u).safety, cmds := (settle u).cmds, fronts := (settle u).fronts } := by
      rw [settle_diags, hdiags, hslot]
    rw [hnode]
    exact hrec
  · rw [hdiag, hfront, ← hframe, ← hnow]
    exact hpulsed k hk ((chnSel_of_regs hfab.regs k).trans h9)
  · rw [hdiag, hd0 k hr]
    exact hkinds k hk
  · rw [hdiag, hfront]
    exact hother k hk

theorem acts_fabricTest (t : Nat) (s : State) : Acts (.fabricTest t) s t (fun n u =>
    if (copyOf n 0).excluded || (copyOf n 1).excluded || (copyOf n 2).excluded then SameButSignals u n
    else SameButSignals u { n with safety := { n.safety with testCopy := (n.safety.testCopy + 1) % 3 } }) := by
  refine acts_leaves rfl (fun u hu => ?_)
  generalize atInstant s t = n at hu ⊢
  rw [hu]
  by_cases h : (n.safety.copy0.excluded || n.safety.copy1.excluded || n.safety.copy2.excluded) = true
  · have hrun : fabricTest n = n := if_pos h
    rw [hrun]
    exact (if_pos h).mpr rfl
  · have hrun : fabricTest n = modSafety n (fun s => { s with testCopy := (s.testCopy + 1) % 3 }) := if_neg h
    rw [hrun]
    exact (if_neg h).mpr rfl

/-- Settles O41: every crossing and slot ends with the settling of the fabric; ticks keep a disagreement until its own has come. -/
theorem fastInputsReachTheFabric : Obligations.FastInputsReachTheFabric :=
  ⟨acts_comparatorCrossing, acts_diagSlot, slotPulse_leaves, acts_discrepancyTimeout, acts_fabricTest⟩

end Sys2Proof.Machine
end

section
/-! PROOF. The beginning of a frame (01 R21, 03 R59). -/

namespace Sys2Proof.Machine

/-! What the samples leave -/

/-- Of the frame's head and the counts nothing changes, and of page 2 only what stands to be acknowledged grows. -/
structure HeadKept (n u : Node) : Prop where
  head : (u.frame, u.sampleT, u.sAt, u.laneSt, u.regs, u.late) = (n.frame, n.sampleT, n.sAt, n.laneSt, n.regs, n.late)
  told : ∀ b, bit (headerOf n 2).irqStat b = true → bit (headerOf u 2).irqStat b = true

theorem HeadKept.refl (n : Node) : HeadKept n n := ⟨rfl, fun _ h => h⟩

theorem HeadKept.trans {a b c : Node} (h : HeadKept a b) (k : HeadKept b c) : HeadKept a c :=
  ⟨k.head.trans h.head, fun x hx => k.told x (h.told x hx)⟩

theorem HeadKept.regs {n u : Node} (h : HeadKept n u) : u.regs = n.regs := congrArg (fun x => x.2.2.2.2.1) h.head

theorem headKept_raise (n : Node) (p b : Nat) : HeadKept n (raise n p b) := by
  refine ⟨rfl, fun x hx => ?_⟩
  by_cases h : p = 2
  · subst h
    have hirq : (headerOf (raise n 2 b) 2).irqStat = (headerOf n 2).irqStat ||| BitVec.ofNat 32 (2 ^ b) :=
      congrArg Header.irqStat (raised_raise n 2 b)
    rw [hirq, bit, BitVec.getLsbD_or, Bool.or_eq_true]
    exact .inl hx
  · have hkeep : headerOf (raise n p b) 2 = headerOf n 2 := tget_tmod_ne _ _ _ (fun e => h e.symm)
    rw [hkeep]
    exact hx

theorem headKept_raiseIf (c : Bool) (n : Node) (p b : Nat) : HeadKept n (raiseIf c n p b) :=
  pred_ite (headKept_raise n p b) (HeadKept.refl n)

theorem headKept_foldl {α : Type} {f : Node → α → Node} (h : ∀ n x, HeadKept n (f n x)) (l : List α) (n : Node) :
    HeadKept n (l.foldl f n) := foldl_rel HeadKept.refl HeadKept.trans h l n

theorem headKept_takeRank (n : Node) (x : RankSample) : HeadKept n (takeRank n x) := by
  unfold takeRank
  refine pred_ite (P := HeadKept n) (HeadKept.refl n) ?_
  dsimp only
  generalize hm : modRank n x.rank _ = m
  have hkept : HeadKept n m := by
    rw [← hm]
    exact ⟨rfl, fun _ h => h⟩
  exact (hkept.trans (headKept_raiseIf _ m _ _)).trans (headKept_raiseIf _ _ _ _)

theorem headKept_modCap (n : Node) (k : Nat) (f : Capture → Capture) : HeadKept n (modCap n k f) := ⟨rfl, fun _ h => h⟩

/-- The stream's part in a capture's slot leaves the head and the front ends. -/
def CapsOnly (n u : Node) : Prop := HeadKept n u ∧ u.fronts = n.fronts

theorem capsOnly_foldl {α : Type} {f : Node → α → Node} (h : ∀ n x, CapsOnly n (f n x)) (l : List α) (n : Node) :
    CapsOnly n (l.foldl f n) :=
  foldl_rel (R := CapsOnly) (fun n => ⟨HeadKept.refl n, rfl⟩) (fun h k => ⟨h.1.trans k.1, k.2.trans h.2⟩) h l n

theorem capsOnly_pushStream (n : Node) (ch : Nat) (xs : List (Int × Nat)) : CapsOnly n (pushStream n ch xs) := by
  have refl : ∀ m, CapsOnly m m := fun m => ⟨HeadKept.refl m, rfl⟩
  unfold pushStream
  refine pred_ite (P := CapsOnly n) (refl n) (capsOnly_foldl (fun m d => ?_) _ n)
  refine pred_ite (P := CapsOnly m) (capsOnly_foldl (fun k e => ?_) _ m) (refl m)
  exact pred_ite (P := CapsOnly k) ⟨headKept_modCap k d _, rfl⟩ (refl k)

theorem takeCh_leaves (n : Node) (x : ChSample) : HeadKept n (takeCh n x) ∧
    (∀ k, k ≠ x.ch → frontOf (takeCh n x) k = frontOf n k) ∧
    (x.ch < 512 → chnSel n x.ch ≠ 0 → (frontOf (takeCh n x) x.ch).raw = x.raw ∧ (frontOf (takeCh n x) x.ch).rb = x.rb) := by
  unfold takeCh
  split
  next hoff => exact ⟨HeadKept.refl n, fun _ _ => rfl, fun h1 h2 => (hoff.elim (Nat.not_le_of_lt h1) h2).elim⟩
  · extract_lets was hot k brk ended win m u
    have hkept : HeadKept n m := ⟨rfl, fun _ h => h⟩
    have hother : ∀ j, j ≠ x.ch → frontOf m j = frontOf n j := fun j hj => frontOf_modFront_ne n _ hj
    have hself : (frontOf m x.ch).raw = x.raw ∧ (frontOf m x.ch).rb = x.rb := by
      show (frontOf (modFront n x.ch _) x.ch).raw = x.raw ∧ (frontOf (modFront n x.ch _) x.ch).rb = x.rb
      rw [frontOf_modFront_self]
      exact ⟨rfl, rfl⟩
    have hu : HeadKept m u ∧ u.fronts = m.fronts :=
      pred_ite (P := fun u => HeadKept m u ∧ u.fronts = m.fronts) ⟨⟨rfl, fun _ h => h⟩, rfl⟩ ⟨HeadKept.refl m, rfl⟩
    have hend := capsOnly_pushStream u x.ch x.stream
    have hfront : ∀ j, frontOf (pushStream u x.ch x.stream) j = frontOf m j := fun j =>
      congrArg (fun f => tget ({} : Front) f j) (hend.2.trans hu.2)
    refine ⟨(hkept.trans hu.1).trans hend.1, fun j hj => (hfront j).trans (hother j hj), fun _ _ => ?_⟩
    rw [hfront]
    exact hself

/-- The keys of a rising list differ from its first. -/
theorem lt_of_risingKeys {k : Nat} {l : List Nat} (h : risingKeys (k :: l) = true) : (∀ x ∈ l, k < x) ∧ risingKeys l = true := by
  induction l generalizing k with
  | nil => exact ⟨fun _ hx => absurd hx List.not_mem_nil, rfl⟩
  | cons b r ih =>
    simp only [risingKeys, Bool.and_eq_true, decide_eq_true_eq] at h
    obtain ⟨hlt, hrest⟩ := h
    refine ⟨fun x hx => ?_, hrest⟩
    rcases List.mem_cons.mp hx with rfl | hmem
    · exact hlt
    · exact Nat.lt_trans hlt ((ih hrest).1 x hmem)

theorem takeChs_other {k : Nat} {l : List ChSample} (h : ∀ x ∈ l, k ≠ x.ch) (n : Node) :
    frontOf (l.foldl takeCh n) k = frontOf n k := by
  induction l generalizing n with
  | nil => rfl
  | cons y r ih =>
    rw [List.foldl_cons, ih (fun x hx => h x (List.mem_cons_of_mem y hx))]
    exact (takeCh_leaves n y).2.1 k (h y List.mem_cons_self)

/-- Each channel sampled holds its sample. -/
theorem takeChs_raw {l : List ChSample} (hrise : risingKeys (l.map (·.ch)) = true) (hlow : ∀ x ∈ l, x.ch < 512) {x : ChSample}
    (hx : x ∈ l) {n : Node} (hsel : chnSel n x.ch ≠ 0) :
    (frontOf (l.foldl takeCh n) x.ch).raw = x.raw ∧ (frontOf (l.foldl takeCh n) x.ch).rb = x.rb := by
  induction l generalizing n with
  | nil => exact absurd hx List.not_mem_nil
  | cons y r ih =>
    obtain ⟨hlt, hrest⟩ := lt_of_risingKeys hrise
    obtain ⟨hkept, hother, hself⟩ := takeCh_leaves n y
    rcases List.mem_cons.mp hx with rfl | hmem
    · rw [List.foldl_cons, takeChs_other (fun z hz => Nat.ne_of_lt (hlt _ (List.mem_map_of_mem hz)))]
      exact hself (hlow x List.mem_cons_self) hsel
    · refine ih hrest (fun z hz => hlow z (List.mem_cons_of_mem y hz)) hmem ?_
      rw [chnSel_of_regs hkept.regs]
      exact hsel

/-! The frame's beginning -/

/-- The frame begins on a node that has counted a frame without RESULT_READY. -/
def frameBegun (n : Node) : Node :=
  { n with frame := (taiNow n + n.period / 2) / n.period, sampleT := (taiNow n + n.period / 2) / n.period * n.period, sAt := n.now,
           laneSt := { n.laneSt with
             msgs := [], inDone := false, bDone := false, evalDone := false, voted := false, resolved := false,
             imagesOk := false, ready := false, cmds := if n.laneSt.voted then n.laneSt.cmds else 0 },
           ranks := tmodAll {} n.ranks (keys n.ranks) (fun _ r => { r with good := 0, got := 0 }) }

/-- A frame that had no RESULT_READY counts. -/
def lateCounted (n : Node) : Node :=
  if n.nodeSt.state = .init ∨ n.laneSt.ready then n else raise { n with late := sat 65535 (n.late + 1) } 2 1

/-- A loop output's stage at S. -/
def stageIfAo (n : Node) (ch : Nat) : Node := if isAo n ch then stageAtS n ch else n

theorem headKept_stages (n : Node) (l : List Nat) :
    HeadKept n (l.foldl stageIfAo n) ∧ (l.foldl stageIfAo n).fronts = n.fronts :=
  foldl_rel (R := fun n u => HeadKept n u ∧ u.fronts = n.fronts) (f := stageIfAo) (fun n => ⟨HeadKept.refl n, rfl⟩)
    (fun h k => ⟨h.1.trans k.1, k.2.trans h.2⟩)
    (fun n _ => pred_ite (P := fun u => HeadKept n u ∧ u.fronts = n.fronts) ⟨⟨rfl, fun _ h => h⟩, rfl⟩ ⟨HeadKept.refl n, rfl⟩) l n

theorem sampleInstant_eq (n : Node) (chs : List ChSample) (rks : List RankSample) : sampleInstant n chs rks =
    (fun m => (activeChs m).foldl stageIfAo m)
      (chs.foldl takeCh (cutFronts (rks.foldl takeRank
        { frameBegun (lateCounted n) with
          frame := (taiNow n + n.period / 2) / n.period, sampleT := (taiNow n + n.period / 2) / n.period * (lateCounted n).period }))) := rfl

theorem sampleInstant_leaves (n : Node) (chs : List ChSample) (rks : List RankSample) :
    HeadKept (frameBegun (lateCounted n)) (sampleInstant n chs rks) ∧
    (risingKeys (chs.map (·.ch)) = true → (∀ x ∈ chs, x.ch < 512) → ∀ x ∈ chs, chnSel n x.ch ≠ 0 →
      (frontOf (sampleInstant n chs rks) x.ch).raw = x.raw ∧ (frontOf (sampleInstant n chs rks) x.ch).rb = x.rb) := by
  have hlate : (lateCounted n).regs = n.regs ∧ (lateCounted n).period = n.period ∧ taiNow (lateCounted n) = taiNow n := by
    unfold lateCounted
    split <;> exact ⟨rfl, rfl, rfl⟩
  rw [sampleInstant_eq]
  have hstart : { frameBegun (lateCounted n) with
      frame := (taiNow n + n.period / 2) / n.period, sampleT := (taiNow n + n.period / 2) / n.period * (lateCounted n).period } =
      frameBegun (lateCounted n) := by
    unfold frameBegun
    rw [hlate.2.2, hlate.2.1]
  rw [hstart]
  have hregs : (frameBegun (lateCounted n)).regs = n.regs := hlate.1
  generalize frameBegun (lateCounted n) = a at hregs ⊢
  have hranks := headKept_foldl headKept_takeRank rks a
  generalize rks.foldl takeRank a = b at hranks ⊢
  have hcut : HeadKept b (cutFronts b) := ⟨rfl, fun _ h => h⟩
  generalize cutFronts b = c at hcut ⊢
  have hchs := headKept_foldl (fun n x => (takeCh_leaves n x).1) chs c
  have hraw : risingKeys (chs.map (·.ch)) = true → (∀ x ∈ chs, x.ch < 512) → ∀ x ∈ chs, chnSel n x.ch ≠ 0 → _ :=
    fun h1 h2 x hx hsel => takeChs_raw h1 h2 hx (n := c) (by
      rw [chnSel_of_regs ((hranks.trans hcut).regs.trans hregs)]
      exact hsel)
  generalize chs.foldl takeCh c = d at hchs hraw ⊢
  obtain ⟨hend, hfronts⟩ := headKept_stages d (activeChs d)
  refine ⟨((hranks.trans hcut).trans hchs).trans hend, fun h1 h2 x hx hsel => ?_⟩
  have hfront : frontOf ((activeChs d).foldl stageIfAo d) x.ch = frontOf d x.ch :=
    congrArg (fun f => tget ({} : Front) f x.ch) hfronts
  dsimp only
  rw [hfront]
  exact hraw h1 h2 x hx hsel

theorem headKept_takeFloor (n : Node) : HeadKept n (takeFloor n) ∧ (takeFloor n).fronts = n.fronts := by
  unfold takeFloor
  refine pred_ite (P := fun u => HeadKept n u ∧ u.fronts = n.fronts) ⟨HeadKept.refl n, rfl⟩ ?_
  have hsync : HeadKept n (syncStations n) ∧ (syncStations n).fronts = n.fronts :=
    foldl_rel (R := fun n u => HeadKept n u ∧ u.fronts = n.fronts) (f := syncStation) (fun n => ⟨HeadKept.refl n, rfl⟩)
      (fun h k => ⟨h.1.trans k.1, k.2.trans h.2⟩)
      (fun n k => pred_ite (P := fun u => HeadKept n u ∧ u.fronts = n.fronts) ⟨⟨rfl, fun _ h => h⟩, rfl⟩ ⟨⟨rfl, fun _ h => h⟩, rfl⟩) _ n
  generalize syncStations n = m at hsync
  exact ⟨hsync.1.trans ⟨rfl, fun _ h => h⟩, hsync.2⟩

/-- What precedes the beginning of the frame: the streams' gap, and the fabric up to now. -/
theorem beforeFrame_leaves (n : Node) :
    let m := fabricAdvance (if n.nodeSt.state = .init ∨ n.laneSt.ready then n else trendMissed n)
    m.nodeSt = n.nodeSt ∧ m.laneSt = n.laneSt ∧ m.late = n.late ∧ m.regs = n.regs ∧ m.period = n.period ∧ m.now = n.now ∧ taiNow m = taiNow n := by
  have hmiss : OnlyNet n (if n.nodeSt.state = .init ∨ n.laneSt.ready then n else trendMissed n) :=
    pred_ite (P := OnlyNet n) (OnlyNet.refl n) (onlyNet_trendMissed n)
  dsimp only
  generalize (if n.nodeSt.state = .init ∨ n.laneSt.ready then n else trendMissed n) = k at hmiss
  obtain ⟨hfab, hnow⟩ := fabricAdvance_leaves k
  generalize fabricAdvance k = m at hfab hnow
  obtain ⟨r, l, h, d, q, hm, -⟩ := hfab
  rw [hnow] at hm
  rw [OnlyNet] at hmiss
  rw [hmiss] at hm
  rw [hm]
  exact ⟨rfl, rfl, rfl, rfl, rfl, rfl, rfl⟩

/-- Settles O18: the head of the frame is set once, and nothing of the samples and the fabric after it changes the head. -/
theorem sampleBeginsFrame : Obligations.SampleBeginsFrame := by
  intro t chs rks s
  refine acts_leaves (f := fun n => takeFloor (withFabric (fun n => sampleInstant n chs rks)
    (if n.nodeSt.state = .init ∨ n.laneSt.ready then n else trendMissed n))) rfl (fun u hu => ?_)
  generalize atInstant s t = n at hu ⊢
  obtain ⟨hst, hlane, hlate, hregs, hperiod, hnow, htai⟩ := beforeFrame_leaves n
  unfold withFabric at hu
  dsimp only at hu
  generalize fabricAdvance (if n.nodeSt.state = .init ∨ n.laneSt.ready then n else trendMissed n) = m at *
  obtain ⟨hkept, hraw⟩ := sampleInstant_leaves m chs rks
  generalize sampleInstant m chs rks = k at *
  have hsafe := safFrame_fabricSettle k
  generalize fabricSettle k = v at *
  obtain ⟨hfloor, hfronts⟩ := headKept_takeFloor v
  rw [← hu] at hfloor hfronts
  have hall : HeadKept (frameBegun (lateCounted m)) u := by
    refine (hkept.trans ?_).trans hfloor
    rw [SafFrame] at hsafe
    rw [hsafe]
    exact ⟨rfl, fun _ h => h⟩
  have hhead := hall.head
  simp only [Prod.mk.injEq] at hhead
  obtain ⟨hf, hs, hat, hl, hr, hc⟩ := hhead
  have hcnt : (lateCounted m).regs = m.regs ∧ (lateCounted m).period = m.period ∧ taiNow (lateCounted m) = taiNow m ∧
      (lateCounted m).laneSt = m.laneSt ∧ (lateCounted m).now = m.now := by
    unfold lateCounted
    split <;> exact ⟨rfl, rfl, rfl, rfl, rfl⟩
  obtain ⟨c1, c2, c3, c4, c5⟩ := hcnt
  have hf' : u.frame = (taiNow n + n.period / 2) / n.period := by
    rw [hf, frameBegun, c2, c3, hperiod, htai]
  have hl' : u.laneSt = { n.laneSt with
      msgs := [], inDone := false, bDone := false, evalDone := false, voted := false, resolved := false,
      imagesOk := false, ready := false, cmds := if n.laneSt.voted then n.laneSt.cmds else 0 } := by
    rw [hl, frameBegun, c4, hlane]
  have hfront : ∀ ch, frontOf u ch = frontOf k ch := fun ch =>
    congrArg (fun f => tget ({} : Front) f ch) (hfronts.trans hsafe.fronts)
  show u.frame = _ ∧ u.sampleT = u.frame * n.period ∧ u.sAt = n.now ∧ u.laneSt.msgs = [] ∧ u.laneSt.inDone = false ∧
    u.laneSt.bDone = false ∧ u.laneSt.evalDone = false ∧ u.laneSt.voted = false ∧ u.laneSt.ready = false ∧
    u.laneSt.state = n.laneSt.state ∧ u.regs = n.regs ∧ _
  refine ⟨hf', ?_, ?_, by rw [hl'], by rw [hl'], by rw [hl'], by rw [hl'], by rw [hl'], by rw [hl'], by rw [hl'], ?_,
    fun hninit hready => ?_, fun hor => ?_, fun hwf x hx hsel => ?_⟩
  · rw [hs, hf, frameBegun, c2, hperiod]
  · rw [hat, frameBegun, c5, hnow]
  · rw [hr, frameBegun, c1, hregs]
  · have hlc : lateCounted m = raise { m with late := sat 65535 (m.late + 1) } 2 1 := by
      refine if_neg ?_
      rw [hst, hlane, hready]
      simp [hninit]
    refine ⟨?_, ?_⟩
    · rw [settle_late, hc, frameBegun, hlc, raise_late, hlate, sat]
    · refine hall.told 1 ?_
      rw [hlc]
      exact bit_raise (n := { m with late := sat 65535 (m.late + 1) }) (by decide)
  · have hlc : lateCounted m = m := by
      refine if_pos ?_
      rw [hst, hlane]
      exact hor
    rw [settle_late, hc, frameBegun, hlc, hlate]
  · have hform : ((chs.all fun c => channelOk c.ch) && (rks.all fun r => rankOk r.rank) && risingKeys (chs.map (·.ch)) &&
        risingKeys (rks.map (·.rank))) = true := hwf
    simp only [Bool.and_eq_true, List.all_eq_true, channelOk, decide_eq_true_eq] at hform
    obtain ⟨⟨⟨hch, -⟩, hrise⟩, -⟩ := hform
    show (frontOf u x.ch).raw = x.raw ∧ (frontOf u x.ch).rb = x.rb
    rw [hfront]
    refine hraw hrise hch x hx ?_
    rw [chnSel_of_regs hregs]
    exact hsel

end Sys2Proof.Machine
end

section
/-! PROOF. The input exchange and the ranks it chooses (11 R249). -/

namespace Sys2Proof.Machine

/-- A node in TMR whose table of ranks holds a powered one numbered 16: the exchange runs over the ranks 0 to 15 alone. -/
def rankBeyond : Node := { ranks := [(16, { powered := true })], laneSt := { state := 0 } }

theorem rankBeyond_meets : rankBeyond.laneSt.state < 3 ∧ rankBeyond.laneSt.inDone = false ∧ rankBeyond.laneSt.bDone = false ∧
    (rankOf rankBeyond 16).powered = true := by decide +kernel

/-- No lane holds a copy of its content. -/
theorem not_contentChosen_rankBeyond : ¬ Sys2Proof.contentChosen rankBeyond [] 16 := by
  unfold contentChosen
  decide +kernel

theorem noUse_inputExchange_rankBeyond : (rankOf (inputExchange rankBeyond []) 16).noUse = false := by decide +kernel

theorem bDone_inputExchange_rankBeyond : (inputExchange rankBeyond []).laneSt.bDone = false := by decide +kernel

/-- The input exchange as an event, with the evaluation where the boundary has passed. -/
def exchanged (n : Node) : Node :=
  if (inputExchange n []).laneSt.bDone then evaluate (inputExchange n []) else inputExchange n []

/-- Refutes O19: it says of every powered rank that the exchange settles whether its content can be used, and leaves the number
of the rank free: a rank beyond the 16 that exist is settled by none. -/
theorem not_transfersAndExchanges : ¬ Obligations.TransfersAndExchanges := by
  rintro ⟨-, exchanges⟩
  obtain ⟨hstate, hin, hb, hpower⟩ := rankBeyond_meets
  obtain ⟨-, -, choose, -⟩ := exchanges 0 0 [] { lane := 0, frame := 0 } { node := rankBeyond }
  obtain ⟨u, hu, -, -, -, settles⟩ := choose hstate hin (.inl hb)
  have hexec : exec (.inputExchange 0 []) { node := rankBeyond } = .next (onNode { node := rankBeyond } 0
      exchanged) := rfl
  injection hexec.symm.trans hu with hu
  subst hu
  have hrun : exchanged rankBeyond = inputExchange rankBeyond [] := if_neg (by rw [bDone_inputExchange_rankBeyond]; decide)
  have hinst : atInstant { node := rankBeyond } 0 = rankBeyond := rfl
  have hbegin : begin_ rankBeyond 0 = rankBeyond := rfl
  have hsettle : ∀ m, rankOf (settle m) 16 = rankOf m 16 := fun _ => rfl
  have hchosen := settles 16
  rw [hinst, onNode_node, hbegin, hrun, hsettle] at hchosen
  exact not_contentChosen_rankBeyond ((hchosen hpower).mp noUse_inputExchange_rankBeyond)

end Sys2Proof.Machine
end

section
/-! PROOF. What the operations of the functions and of the records leave of the node: its head, its registers and its ranks. -/

namespace Sys2Proof.Machine

/-- What the frame's work leaves: instants and numbers of the frame, lanes, node state, registers and ranks; and the interrupts
that wait for the boundary only grow. -/
structure Steady (n u : Node) : Prop where
  head : (u.now, u.frame, u.sampleT, u.sAt, u.bAt, u.taiOff, u.period, u.laneSt, u.nodeSt) =
    (n.now, n.frame, n.sampleT, n.sAt, n.bAt, n.taiOff, n.period, n.laneSt, n.nodeSt)
  regs : u.regs = n.regs
  ranks : u.ranks = n.ranks
  due : n.dueB <+: u.dueB

theorem Steady.refl (n : Node) : Steady n n := ⟨rfl, rfl, rfl, List.prefix_rfl⟩

theorem Steady.trans {a b c : Node} (h : Steady a b) (k : Steady b c) : Steady a c :=
  ⟨k.head.trans h.head, k.regs.trans h.regs, k.ranks.trans h.ranks, h.due.trans k.due⟩

theorem Steady.nodeSt {n u : Node} (h : Steady n u) : u.nodeSt = n.nodeSt := congrArg (fun x => x.2.2.2.2.2.2.2.2) h.head

theorem Steady.laneSt {n u : Node} (h : Steady n u) : u.laneSt = n.laneSt := congrArg (fun x => x.2.2.2.2.2.2.2.1) h.head

theorem Steady.bAt {n u : Node} (h : Steady n u) : u.bAt = n.bAt := congrArg (fun x => x.2.2.2.2.1) h.head

theorem steady_ite {p : Prop} [Decidable p] {n a b : Node} (ha : Steady n a) (hb : Steady n b) : Steady n (if p then a else b) :=
  pred_ite ha hb

theorem steady_foldl {α : Type} {f : Node → α → Node} (h : ∀ n x, Steady n (f n x)) (l : List α) (n : Node) : Steady n (l.foldl f n) :=
  foldl_rel Steady.refl Steady.trans h l n

theorem steady_note (n : Node) (r : Rec) : Steady n (note n r) := by
  obtain ⟨q, l, h, d, x, hu, -⟩ := recFrame_note n r
  have hdue := dueB_note n r
  generalize note n r = u at hu hdue
  subst hu
  exact ⟨rfl, rfl, rfl, hdue⟩

/-- What leaves those fields leaves the node steady. -/
theorem steady_of_saf {n u : Node} (h : SafFrame n u) : Steady n u := by
  rw [SafFrame] at h
  rw [h]
  exact ⟨rfl, rfl, rfl, List.prefix_rfl⟩

theorem steady_raise (n : Node) (p b : Nat) : Steady n (raise n p b) := ⟨rfl, rfl, rfl, List.prefix_rfl⟩

theorem steady_raiseB (n : Node) (p b : Nat) : Steady n (raiseB n p b) := ⟨rfl, rfl, rfl, List.prefix_append _ _⟩

theorem steady_raiseR (n : Node) (p b : Nat) : Steady n (raiseR n p b) := ⟨rfl, rfl, rfl, List.prefix_rfl⟩

theorem steady_raiseRIf (c : Bool) (n : Node) (p b : Nat) : Steady n (raiseRIf c n p b) := steady_ite (steady_raiseR n p b) (Steady.refl n)

theorem steady_modCap (n : Node) (k : Nat) (f : Capture → Capture) : Steady n (modCap n k f) := ⟨rfl, rfl, rfl, List.prefix_rfl⟩

theorem steady_modFn (n : Node) (k : Nat) (f : SafetyFn → SafetyFn) : Steady n (modFn n k f) := ⟨rfl, rfl, rfl, List.prefix_rfl⟩

theorem steady_modSafety (n : Node) (f : Safety → Safety) : Steady n (modSafety n f) := ⟨rfl, rfl, rfl, List.prefix_rfl⟩

theorem steady_modCall (n : Node) (f : Call → Call) : Steady n (modCall n f) := ⟨rfl, rfl, rfl, List.prefix_rfl⟩

theorem steady_modPoint (n : Node) (k : Nat) (f : Point → Point) : Steady n (modPoint n k f) := ⟨rfl, rfl, rfl, List.prefix_rfl⟩

theorem steady_modOutput (n : Node) (k : Nat) (f : Output → Output) : Steady n (modOutput n k f) := ⟨rfl, rfl, rfl, List.prefix_rfl⟩

theorem steady_setCmd (n : Node) (p : Nat) (c : Option Command) : Steady n (setCmd n p c) := ⟨rfl, rfl, rfl, List.prefix_rfl⟩

theorem steady_resolveCmd (n : Node) (p : Nat) (r : Option Bool) : Steady n (resolveCmd n p r) := steady_setCmd n p _

/-! The recorder's captures -/

/-- The parts of one slot of a capture. -/
theorem steady_flushCapture (n : Node) (d : Nat) : Steady n (flushCapture n d) := by
  unfold flushCapture
  refine steady_foldl (fun m e => ?_) _ n
  refine (steady_foldl (fun k q => ?_) _ m).trans (steady_modCap _ d _)
  exact (steady_note k _).trans (steady_modCap _ d _)

theorem steady_triggerCap (n : Node) (d kind t : Nat) : Steady n (triggerCap n d kind t) := by
  unfold triggerCap
  refine steady_ite (Steady.refl n) ?_
  extract_lets sl slots nparts payload m k
  exact (((steady_modCap n d _).trans (steady_note m _)).trans (steady_flushCapture k d)).trans (steady_raiseB _ 6 0)

/-! The change log and the image in work -/

theorem steady_logChange (n : Node) (e : LogEntry) (origin : Nat) : Steady n (logChange n e origin) := by
  have hlog : ∀ c : Config, Steady n { n with config := c } := fun _ => ⟨rfl, rfl, rfl, List.prefix_rfl⟩
  exact (hlog _).trans (steady_note _ _)

theorem steady_logDiscards (n : Node) (who : LogBy) : Steady n (logDiscards n who) := by
  unfold logDiscards
  refine steady_foldl (fun m e => ?_) _ n
  split
  · exact steady_ite (Steady.refl m) (steady_logChange m _ _)
  · exact Steady.refl m

theorem steady_dropStages (n : Node) : Steady n (dropStages n) := by
  have hacts : Steady n { n with acts := n.acts.filter (fun w => !isStage w) } := ⟨rfl, rfl, rfl, List.prefix_rfl⟩
  exact hacts.trans (steady_foldl (fun m (w : Waiting) => steady_resolveCmd m w.page _) _ _)

theorem steady_dropValues (n : Node) (who : LogBy) : Steady n (dropValues n who) := by
  have h := (steady_logDiscards n who).trans (steady_dropStages _)
  unfold dropValues
  generalize dropStages (logDiscards n who) = m at h
  exact h.trans ⟨rfl, rfl, rfl, List.prefix_rfl⟩

theorem steady_failCommit (n : Node) : Steady n (failCommit n) := by
  unfold failCommit
  split
  · refine steady_ite ?_ (Steady.refl n)
    have hreason : ∀ path, Steady n (setReason n path 8) := fun _ => ⟨rfl, rfl, rfl, List.prefix_rfl⟩
    exact (hreason _).trans (steady_resolveCmd _ 5 _)
  · exact Steady.refl n

theorem steady_discardImage (n : Node) (account level : Nat) (who : LogBy) : Steady n (discardImage n account level who) := by
  unfold discardImage
  split
  · refine steady_ite (Steady.refl n) ?_
    have h := (steady_dropValues n who).trans (steady_failCommit _)
    generalize failCommit (dropValues n who) = m at h
    have hpend : Steady m { m with config := { m.config with pend := none } } := ⟨rfl, rfl, rfl, List.prefix_rfl⟩
    exact (h.trans hpend).trans (steady_note _ _)
  · exact steady_dropValues n who

theorem steady_discardEdit (n : Node) : Steady n (discardEdit n) := by
  unfold discardEdit
  split <;> exact steady_discardImage n _ _ _

/-! Launches and time -/

theorem steady_voidEntry (n : Node) (e : Nat) : Steady n (voidEntry n e) := by
  rw [voidEntry_eq]
  refine steady_ite ?_ (Steady.refl n)
  have hvoided : Steady n (voided n e) := ⟨rfl, rfl, rfl, List.prefix_rfl⟩
  exact (hvoided.trans (steady_note _ _)).trans (steady_raiseR _ _ _)

theorem steady_launchVoids (n : Node) : Steady n (launchVoids n) :=
  steady_foldl (f := fun n e => if inStates n (lchStates (fld (launchOf n e).act 3 0)) then n else voidEntry n e)
    (fun m e => steady_ite (Steady.refl m) (steady_voidEntry m e)) _ n

theorem steady_stepToFar (n : Node) : Steady n (stepToFar n) := by
  unfold stepToFar
  split
  next off _ =>
    have hfar : Steady n (modTb (modTb n (fun t => { t with stepPend := none })) (fun t => { t with timeFar := some off, state := .acquiring })) :=
      ⟨rfl, rfl, rfl, List.prefix_rfl⟩
    exact (hfar.trans (steady_note _ _)).trans (steady_raiseB _ _ _)
  · exact Steady.refl n

/-! Safety functions and outputs -/

theorem steady_tripped (n : Node) (s cause time : Nat) : Steady n (tripped n s cause time) := by
  unfold tripped
  extract_lets m
  refine (steady_note n _).trans (steady_foldl (fun k d => ?_) _ m)
  exact steady_ite (steady_triggerCap k d 2 time) (Steady.refl k)

theorem steady_raiseFn (n : Node) (old new : SfState) : Steady n (raiseFn n old new) := by
  have h := steady_raiseRIf (decide (old ≠ new)) n 8 0
  unfold raiseFn
  generalize raiseRIf (decide (old ≠ new)) n 8 0 = m at h
  cases new with
  | locked => exact h.trans (steady_raiseR m 8 3)
  | tripped => exact h.trans (steady_raiseR m 8 2)
  | active => exact h.trans (steady_raiseR m 8 1)
  | _ => exact h

theorem steady_enterFn (n : Node) (s : Nat) (st : SfState) (cause time : Nat) : Steady n (enterFn n s st cause time) := by
  unfold enterFn
  extract_lets old m k
  have hk : Steady n k := (steady_modFn n s _).trans (steady_raiseFn m old st)
  exact hk.trans (steady_ite (steady_tripped k s cause time) (Steady.refl k))

theorem steady_lockFns (n : Node) (fs : List Nat) (cause : Nat) : Steady n (lockFns n fs cause) := by
  unfold lockFns
  refine steady_foldl (fun m s => ?_) fs n
  exact steady_ite (steady_modFn m s _) ((steady_enterFn m s _ _ _).trans (steady_modFn _ s _))

theorem steady_setAllLatches (n : Node) : Steady n (setAllLatches n) := by
  have hcopies := safFrame_foldl (f := fun n c => modCopy n c (fun x => { x with latch := BitVec.allOnes 64 }))
    (fun n c => (rfl : SafFrame n (modCopy n c _))) (List.range 3) n
  unfold setAllLatches
  dsimp only
  generalize (List.range 3).foldl (fun n c => modCopy n c (fun x => { x with latch := BitVec.allOnes 64 })) n = m at hcopies
  exact (steady_of_saf hcopies).trans (steady_of_saf (safFrame_foldl (safFrame_dateLatch m.now n) _ m))

theorem steady_offOutputs (n : Node) : Steady n (offOutputs n) := by
  unfold offOutputs
  refine steady_foldl (fun m o => ?_) _ n
  extract_lets k
  exact (steady_modOutput m o _).trans (steady_ite (Steady.refl k) (steady_of_saf (safFrame_dropOutput k o)))

theorem steady_lockAll (n : Node) (cause : Nat) : Steady n (lockAll n cause) :=
  ((steady_lockFns n _ cause).trans (steady_setAllLatches _)).trans (steady_offOutputs _)

theorem steady_dropResets (n : Node) : Steady n (dropResets n) :=
  steady_ite ((steady_modSafety n _).trans (steady_resolveCmd _ 8 _)) (Steady.refl n)

theorem steady_dropSafCmd (n : Node) : Steady n (dropSafCmd n) :=
  (steady_dropResets n).trans (steady_foldl (f := fun n o =>
    if (outputOf n o).soTest.isSome then resolveCmd (modOutput n o (fun x => { x with soTest := none })) 8 (some false) else n)
    (fun m o => steady_ite ((steady_modOutput m o _).trans (steady_resolveCmd _ 8 _)) (Steady.refl m)) _ _)

theorem steady_resetChannel (n : Node) (s : Nat) : Steady n (resetChannel n s).1 := by
  unfold resetChannel
  dsimp only
  split
  · exact Steady.refl n
  · split
    · exact steady_modFn n s _
    · split <;> exact steady_modFn n s _

theorem steady_trackResets (n : Node) : Steady n (trackResets n) := steady_foldl steady_resetChannel _ n

theorem steady_quietSafety (n : Node) : Steady n (quietSafety n) := by
  have h1 := (steady_dropSafCmd n).trans (steady_trackResets _)
  unfold quietSafety
  dsimp only
  generalize trackResets (dropSafCmd n) = a at h1 ⊢
  have h2 : Steady n ((enabledFns a).foldl (fun n s => modFn n s (fun x => { x with
      stupWait := stupWaits n s, fbWait := fbWaits n s, slow := false, dem := votedDemand n s })) a) :=
    h1.trans (steady_foldl (fun m s => steady_modFn m s _) _ a)
  generalize (enabledFns a).foldl (fun n s => modFn n s (fun x => { x with
      stupWait := stupWaits n s, fbWait := fbWaits n s, slow := false, dem := votedDemand n s })) a = b at h2 ⊢
  generalize (enabledFns b).filter (fun s => decide ((fnOf b s).state ≠ .locked)) = new
  have h3 : Steady n (if new = [] then b else lockFns b new 12) := h2.trans (steady_ite (Steady.refl b) (steady_lockFns b new 12))
  generalize (if new = [] then b else lockFns b new 12) = c at h3 ⊢
  have h4 : Steady n (if c.safety.failed then (enabledFns c).foldl failCause c else c) :=
    h3.trans (steady_ite (steady_foldl (fun m s => steady_modFn m s _) _ c) (Steady.refl c))
  exact h4.trans (steady_modSafety _ _)

/-! Points and the call -/

theorem steady_markChange (n : Node) (k : Nat) : Steady n (markChange n k) := ⟨rfl, rfl, rfl, List.prefix_rfl⟩

theorem steady_setState (n : Node) (k : Nat) (a : AlertState) (event source : Nat) : Steady n (setState n k a event source) := by
  unfold setState
  refine steady_ite (Steady.refl n) ?_
  extract_lets m u
  exact (((steady_modPoint n k _).trans (steady_note m _)).trans (steady_markChange u k)).trans (steady_raiseR _ _ _)

theorem steady_countAlarms (n : Node) : Steady n (countAlarms n) := ⟨rfl, rfl, rfl, List.prefix_rfl⟩

theorem steady_quietPoints (n : Node) : Steady n (quietPoints n) :=
  (steady_foldl (f := quietPoint) (fun m k => (steady_setState m k _ _ _).trans (steady_modPoint _ k _)) _ n).trans (steady_countAlarms _)

theorem steady_setWatch (n : Node) (w : Watch) (source : Nat) : Steady n (setWatch n w source) := by
  unfold setWatch
  extract_lets old m
  have hm := steady_modCall n (fun c => { c with watch := w, watchCnt := 0, watchNew := true })
  exact hm.trans (steady_ite (Steady.refl m) ((steady_note m _).trans (steady_raiseR _ _ _)))

theorem steady_setStage (n : Node) (st : Nat) : Steady n (setStage n st) := by
  unfold setStage
  extract_lets old
  exact steady_ite (Steady.refl n) (((steady_modCall n _).trans (steady_note _ _)).trans (steady_raiseR _ _ _))

theorem steady_quietCall (n : Node) : Steady n (quietCall n) := by
  have h1 : Steady n (watchOff n 255) := steady_ite (Steady.refl n) (steady_setWatch n .off 255)
  have h2 := h1.trans (steady_setStage _ 0)
  unfold quietCall
  dsimp only
  generalize setStage (watchOff n 255) 0 = m at h2 ⊢
  refine h2.trans ?_
  exact ⟨rfl, rfl, rfl, List.prefix_rfl⟩

end Sys2Proof.Machine
end

section
/-! PROOF. State commands and PWR_RANK_EN at their boundary (17 R389 to R394). -/

namespace Sys2Proof.Machine

/-! Ranks -/

/-- As `Steady`, but that ranks may change. -/
structure RanksMove (n u : Node) : Prop where
  head : (u.now, u.frame, u.sampleT, u.sAt, u.bAt, u.taiOff, u.period, u.laneSt, u.nodeSt) =
    (n.now, n.frame, n.sampleT, n.sAt, n.bAt, n.taiOff, n.period, n.laneSt, n.nodeSt)
  regs : u.regs = n.regs
  due : n.dueB <+: u.dueB

theorem RanksMove.refl (n : Node) : RanksMove n n := ⟨rfl, rfl, List.prefix_rfl⟩

theorem RanksMove.trans {a b c : Node} (h : RanksMove a b) (k : RanksMove b c) : RanksMove a c :=
  ⟨k.head.trans h.head, k.regs.trans h.regs, h.due.trans k.due⟩

theorem RanksMove.nodeSt {n u : Node} (h : RanksMove n u) : u.nodeSt = n.nodeSt := congrArg (fun x => x.2.2.2.2.2.2.2.2) h.head

theorem Steady.ranksMove {n u : Node} (h : Steady n u) : RanksMove n u := ⟨h.head, h.regs, h.due⟩

theorem ranksMove_modRank (n : Node) (k : Nat) (f : Rank → Rank) : RanksMove n (modRank n k f) := ⟨rfl, rfl, List.prefix_rfl⟩

theorem rankOf_modRank_self (n : Node) (k : Nat) (f : Rank → Rank) : rankOf (modRank n k f) k = f (rankOf n k) := tget_tmod_self _ _ _ _

theorem rankOf_modRank_ne (n : Node) {k j : Nat} (f : Rank → Rank) (h : j ≠ k) : rankOf (modRank n k f) j = rankOf n j :=
  tget_tmod_ne _ _ _ h

theorem rankOf_of_ranks {n u : Node} (h : u.ranks = n.ranks) (k : Nat) : rankOf u k = rankOf n k :=
  congrArg (fun x => tget ({} : Rank) x k) h

/-- A change of one rank's entry. -/
def OneRank (r : Nat) (n u : Node) : Prop := RanksMove n u ∧ ∀ k, k ≠ r → rankOf u k = rankOf n k

theorem OneRank.trans {r : Nat} {a b c : Node} (h : OneRank r a b) (k : OneRank r b c) : OneRank r a c :=
  ⟨h.1.trans k.1, fun j hj => (k.2 j hj).trans (h.2 j hj)⟩

theorem oneRank_modRank (n : Node) (r : Nat) (f : Rank → Rank) : OneRank r n (modRank n r f) :=
  ⟨ranksMove_modRank n r f, fun _ h => rankOf_modRank_ne n f h⟩

theorem Steady.oneRank {n u : Node} (h : Steady n u) (r : Nat) : OneRank r n u := ⟨h.ranksMove, fun k _ => rankOf_of_ranks h.ranks k⟩

theorem unpowerRank_leaves (n : Node) (r : Nat) : OneRank r n (unpowerRank n r) ∧
    rankOf (unpowerRank n r) r = { failed := (rankOf n r).failed, selftest := (rankOf n r).selftest } := by
  unfold unpowerRank
  extract_lets old m k ds ss
  have hm : OneRank r n m := oneRank_modRank n r _
  have hself : rankOf m r = { failed := old.failed, selftest := old.selftest } := rankOf_modRank_self n r _
  have hk : Steady m k := steady_foldl (f := fun n c => { n with acqs := erase n.acqs c, fronts := erase n.fronts c })
    (fun _ _ => ⟨rfl, rfl, rfl, List.prefix_rfl⟩) (chsOfRank m r) m
  have hend : Steady k { k with
      diags := tmodAll {} k.diags ds (fun _ => coldDiag),
      stages := tmodAll {} k.stages ss (fun _ s => { set := s.set, pend := s.pend }) } := ⟨rfl, rfl, rfl, List.prefix_rfl⟩
  have hrest := hk.trans hend
  exact ⟨hm.trans (hrest.oneRank r), (rankOf_of_ranks hrest.ranks r).trans hself⟩

/-- Every rank is unpowered. -/
theorem unpowerRanks_leaves (n : Node) : RanksMove n (unpowerRanks n) ∧ ∀ k, (rankOf (unpowerRanks n) k).powered = false := by
  have hmove : ∀ m r, RanksMove m (unpowerRank m r) := fun m r => (unpowerRank_leaves m r).1.1
  refine ⟨foldl_rel RanksMove.refl RanksMove.trans hmove _ n, fun k => ?_⟩
  have hkeeps : ∀ m r, (rankOf m k).powered = false → (rankOf (unpowerRank m r) k).powered = false := by
    intro m r hoff
    obtain ⟨⟨-, hother⟩, hself⟩ := unpowerRank_leaves m r
    by_cases h : k = r
    · rw [h, hself]
    · rw [hother k h]
      exact hoff
  have hkeep : ∀ (l : List Nat) m, (rankOf m k).powered = false → (rankOf (l.foldl unpowerRank m) k).powered = false := fun l =>
    foldl_rel (R := fun m u => (rankOf m k).powered = false → (rankOf u k).powered = false) (fun _ h => h)
      (fun h g x => g (h x)) hkeeps l
  unfold unpowerRanks
  by_cases hk : k ∈ keys n.ranks
  · obtain ⟨l, r, hlr⟩ := List.append_of_mem hk
    rw [hlr, List.foldl_append, List.foldl_cons]
    refine hkeep r _ ?_
    rw [(unpowerRank_leaves _ k).2]
  · refine hkeep _ n ?_
    have hdef : rankOf n k = {} := tget_of_not_mem_keys ({} : Rank) hk
    rw [hdef]

theorem powerObserve_leaves (n : Node) (r : Nat) : OneRank r n (powerObserve n r) ∧
    (rankOf (powerObserve n r) r).powered = (rankOf n r).powered := by
  have hm : OneRank r n (modRank n r (fun x => { x with observe := paired n })) := oneRank_modRank n r _
  have hself : (rankOf (modRank n r (fun x => { x with observe := paired n })) r).powered = (rankOf n r).powered := by
    rw [rankOf_modRank_self]
  unfold powerObserve
  dsimp only
  generalize modRank n r (fun x => { x with observe := paired n }) = m at *
  have hend : Steady m (if paired m && nbit m.duplex.carried r then
      raiseB (note (modDpx m (fun d => { d with carried := setBit d.carried r false }))
        (recDuplex (modDpx m (fun d => { d with carried := setBit d.carried r false })) 6 1 0 0 r
          (dpxStat (modDpx m (fun d => { d with carried := setBit d.carried r false }))))) 4 5 else m) := by
    refine steady_ite ?_ (Steady.refl m)
    have hdpx : Steady m (modDpx m (fun d => { d with carried := setBit d.carried r false })) := ⟨rfl, rfl, rfl, List.prefix_rfl⟩
    exact (hdpx.trans (steady_note _ _)).trans (steady_raiseB _ _ _)
  exact ⟨hm.trans (hend.oneRank r), (congrArg Rank.powered (rankOf_of_ranks hend.ranks r)).trans hself⟩

theorem safFrame_armRank (n : Node) (r : Nat) : SafFrame n (armRank n r) :=
  safFrame_foldl (fun m k => safFrame_foldl (fun m c => safFrame_modEval m c k _) _ m) _ n

theorem powerRank_leaves (n : Node) (r : Nat) : OneRank r n (powerRank n r) ∧
    ((rankOf n r).failed = false → (rankOf (powerRank n r) r).powered = true) := by
  unfold powerRank
  extract_lets x m cs
  split
  next h =>
    refine ⟨(Steady.refl n).oneRank r, fun hf => ?_⟩
    rw [hf, Bool.or_false] at h
    exact h
  · have hon := oneRank_modRank n r (fun _ => ({ powered := true } : Rank))
    have hself := rankOf_modRank_self n r (fun _ => ({ powered := true } : Rank))
    obtain ⟨hobs, hpow⟩ := powerObserve_leaves (modRank n r (fun _ => ({ powered := true } : Rank))) r
    have hm : OneRank r n m := hon.trans hobs
    have hmp : (rankOf m r).powered = true := hpow.trans (congrArg Rank.powered hself)
    have hwarm : Steady m { m with diags := tmodAll {} m.diags cs (fun _ => warmDiag) } := ⟨rfl, rfl, rfl, List.prefix_rfl⟩
    have hend := hwarm.trans (steady_of_saf (safFrame_armRank _ r))
    exact ⟨hm.trans (hend.oneRank r), fun _ => (congrArg Rank.powered (rankOf_of_ranks hend.ranks r)).trans hmp⟩

theorem ranksMove_powerRanks (n : Node) : RanksMove n (powerRanks n) :=
  foldl_rel RanksMove.refl RanksMove.trans (fun m r => (powerRank_leaves m r).1.1) _ n

/-! Entry to a state -/

theorem changeState_leaves {n : Node} {new : NodeState} (h : n.nodeSt.state ≠ new) :
    (changeState n new).nodeSt = { n.nodeSt with state := new } ∧ (changeState n new).regs = n.regs ∧
    (changeState n new).ranks = n.ranks ∧ (0, 1) ∈ (changeState n new).dueB := by
  have hedit : Steady n (if n.nodeSt.state = .config then discardEdit n else n) := steady_ite (steady_discardEdit n) (Steady.refl n)
  unfold changeState
  dsimp only
  rw [if_neg h]
  generalize (if n.nodeSt.state = .config then discardEdit n else n) = m at hedit ⊢
  have hst : (modNode m (fun s => { s with state := new })).nodeSt = { n.nodeSt with state := new } := by
    show { m.nodeSt with state := new } = _
    rw [hedit.nodeSt]
  have hregs : (modNode m (fun s => { s with state := new })).regs = n.regs := hedit.regs
  have hranks : (modNode m (fun s => { s with state := new })).ranks = n.ranks := hedit.ranks
  generalize modNode m (fun s => { s with state := new }) = k at hst hregs hranks ⊢
  have hnote := steady_note k (recPower k 6 (stateCode new) (stateCode n.nodeSt.state) k.nodeSt.safeCause 0 0)
  generalize note k (recPower k 6 (stateCode new) (stateCode n.nodeSt.state) k.nodeSt.safeCause 0 0) = v at hnote ⊢
  have hend := (hnote.trans (steady_raiseB v 0 1)).trans (steady_launchVoids _)
  exact ⟨hend.nodeSt.trans hst, hend.regs.trans hregs, hend.ranks.trans hranks,
    (steady_launchVoids (raiseB v 0 1)).due.subset (List.mem_append_right _ (List.mem_singleton_self _))⟩

theorem enterRun_leaves {n : Node} (h : n.nodeSt.state ≠ .run) :
    (enterRun n).nodeSt = { n.nodeSt with safeCause := 0, hwdogFault := false, kickAt := n.now, state := .run } ∧
    (enterRun n).regs = n.regs ∧ (0, 1) ∈ (enterRun n).dueB := by
  have hstep := steady_stepToFar (modNode n (fun s => { s with safeCause := 0, hwdogFault := false, kickAt := n.now }))
  unfold enterRun
  generalize stepToFar (modNode n (fun s => { s with safeCause := 0, hwdogFault := false, kickAt := n.now })) = m at hstep ⊢
  have hst : m.nodeSt = { n.nodeSt with safeCause := 0, hwdogFault := false, kickAt := n.now } := hstep.nodeSt
  obtain ⟨h1, h2, -, h4⟩ := changeState_leaves (n := m) (new := .run) (by rw [hst]; exact h)
  refine ⟨?_, h2.trans hstep.regs, h4⟩
  rw [h1, hst]

theorem enterSafe_leaves {n : Node} (h : n.nodeSt.state ≠ .safe) (cause : Nat) :
    (enterSafe n cause).nodeSt = { n.nodeSt with safeCause := cause, state := .safe } ∧ (enterSafe n cause).regs = n.regs ∧
    (0, 1) ∈ (enterSafe n cause).dueB := by
  obtain ⟨h1, h2, -, h4⟩ := changeState_leaves (n := modNode n (fun s => { s with safeCause := cause })) (new := .safe) h
  exact ⟨h1, h2, h4⟩

theorem enterConfig_leaves {n : Node} (h : n.nodeSt.state ≠ .config) :
    (enterConfig n).nodeSt = { n.nodeSt with state := .config } ∧ (enterConfig n).regs = n.regs ∧ (0, 1) ∈ (enterConfig n).dueB := by
  obtain ⟨h1, h2, -, h4⟩ := changeState_leaves (n := n) (new := .config) h
  unfold enterConfig
  dsimp only
  generalize changeState n .config = m at h1 h2 h4 ⊢
  have hend := ((ranksMove_powerRanks m).trans (steady_quietSafety _).ranksMove).trans (steady_lockAll _ 12).ranksMove
  exact ⟨hend.nodeSt.trans h1, hend.regs.trans h2, hend.due.subset h4⟩

theorem enterStandby_leaves {n : Node} (h : n.nodeSt.state ≠ .standby) :
    (enterStandby n).nodeSt = { n.nodeSt with state := .standby } ∧ (enterStandby n).regs = n.regs ∧
    ∀ k, (rankOf (enterStandby n) k).powered = false := by
  obtain ⟨hoff, hpow⟩ := unpowerRanks_leaves n
  obtain ⟨h1, h2, h3, -⟩ := changeState_leaves (n := unpowerRanks n) (new := .standby) (by rw [hoff.nodeSt]; exact h)
  unfold enterStandby
  dsimp only
  generalize changeState (unpowerRanks n) .standby = m at h1 h2 h3 ⊢
  have hend := (((steady_quietPoints m).trans (steady_quietCall _)).trans (steady_quietSafety _)).trans (steady_lockAll _ 12)
  refine ⟨?_, (hend.regs.trans h2).trans hoff.regs, fun k => ?_⟩
  · rw [hend.nodeSt, h1, hoff.nodeSt]
  · rw [rankOf_of_ranks (hend.ranks.trans h3)]
    exact hpow k

/-! A state command -/

/-- One that Table 17.2 names, where nothing refuses it. -/
def gotoTaken (g : Nat) (n : Node) : Node × Option Bool :=
  match g with
  | 1 => (enterStandby n, some true)
  | 2 => (enterConfig n, if nodeCode n = 1 ∧ !ranksDone (enterConfig n) then none else some true)
  | 3 =>
    match runRefuse n with
    | some c => (modNode n (fun s => { s with refuse := c }), some false)
    | none => (enterRun n, some true)
  | _ => (enterSafe n 1, some true)

theorem gotoTaken_standby (n : Node) : gotoTaken 1 n = (enterStandby n, some true) := rfl

theorem gotoTaken_config (n : Node) : gotoTaken 2 n =
    (enterConfig n, if nodeCode n = 1 ∧ !ranksDone (enterConfig n) then none else some true) := rfl

theorem gotoTaken_refused {n : Node} {c : Nat} (h : runRefuse n = some c) :
    gotoTaken 3 n = ({ n with nodeSt := { n.nodeSt with refuse := c } }, some false) := by
  simp only [gotoTaken, h]
  rfl

theorem gotoTaken_run {n : Node} (h : runRefuse n = none) : gotoTaken 3 n = (enterRun n, some true) := by
  simp only [gotoTaken, h]

theorem gotoTaken_safe (n : Node) : gotoTaken 4 n = (enterSafe n 1, some true) := rfl

theorem actEff_goto (g : Nat) (auto : Bool) (n : Node) : actEff auto (.goto g) n =
    if n.power.pfail || leavesConfirm n g then (n, some false)
    else if nodeCode n = g then (n, some true)
    else if g = 3 ∧ auto then (modNode n (fun s => { s with refuse := 6 }), some false)
    else if !transition (nodeCode n) g then (n, some false)
    else gotoTaken g n := by
  have hgoto : actEff auto (.goto g) n = gotoEff g auto n := by
    unfold actEff
    rw [if_neg (by simp [needsLanes])]
  rw [hgoto]
  rfl

/-- A transition of Table 17.2 that nothing refuses. -/
theorem actEff_goto_taken {n : Node} {g c : Nat} {auto : Bool} (hp : n.power.pfail = false) (hl : leavesConfirm n g = false)
    (hc : nodeCode n = c) (hcg : c ≠ g) (hauto : g = 3 → auto = false) (ht : transition c g = true) :
    actEff auto (.goto g) n = gotoTaken g n := by
  rw [actEff_goto, hp, hl, hc, if_neg (by decide), if_neg hcg, if_neg (by rintro ⟨h1, h2⟩; rw [hauto h1] at h2; exact absurd h2 (by decide)),
    ht, if_neg (by decide)]

theorem goto_leaves (n : Node) (g : Nat) (auto : Bool) :
    let r := actEff auto (.goto g) n
    (n.power.pfail = true ∨ leavesConfirm n g = true → r = (n, some false)) ∧
    (n.power.pfail = false → leavesConfirm n g = false →
      (nodeCode n = g → r = (n, some true)) ∧
      (nodeCode n ≠ g → (g ≠ 3 ∨ auto = false) → transition (nodeCode n) g = false → r = (n, some false)) ∧
      (nodeCode n ≠ g → g = 3 → auto = true → r = ({ n with nodeSt := { n.nodeSt with refuse := 6 } }, some false)) ∧
      (g = 3 → (n.nodeSt.state = .config ∨ n.nodeSt.state = .safe) → auto = false →
        (∀ c, runRefuse n = some c → r = ({ n with nodeSt := { n.nodeSt with refuse := c } }, some false)) ∧
        (runRefuse n = none → r.2 = some true ∧ r.1.nodeSt.state = .run ∧ r.1.nodeSt.safeCause = 0 ∧
          r.1.nodeSt.kickAt = n.now ∧ r.1.regs = n.regs ∧ (0, 1) ∈ r.1.dueB)) ∧
      (g = 4 → (n.nodeSt.state = .config ∨ n.nodeSt.state = .run) →
        r.2 = some true ∧ r.1.nodeSt.state = .safe ∧ r.1.nodeSt.safeCause = 1 ∧ r.1.regs = n.regs ∧ (0, 1) ∈ r.1.dueB) ∧
      (g = 2 → (n.nodeSt.state = .standby ∨ n.nodeSt.state = .run ∨ n.nodeSt.state = .safe) →
        r.1.nodeSt.state = .config ∧ r.1.regs = n.regs ∧ (0, 1) ∈ r.1.dueB ∧
        (n.nodeSt.state ≠ .standby ∨ ranksDone r.1 = true → r.2 = some true) ∧
        (n.nodeSt.state = .standby → ranksDone r.1 = false → r.2 = none)) ∧
      (g = 1 → n.nodeSt.state = .config →
        r.2 = some true ∧ r.1.nodeSt.state = .standby ∧ r.1.regs = n.regs ∧ ∀ k, (rankOf r.1 k).powered = false)) := by
  intro r
  have hr : r = actEff auto (.goto g) n := rfl
  clear_value r
  refine ⟨fun h => ?_, fun hp hl => ⟨fun hc => ?_, fun hc hg ht => ?_, fun hc hg ha => ?_, fun hg hst ha => ?_, fun hg hst => ?_,
    fun hg hst => ?_, fun hg hst => ?_⟩⟩
  · rw [hr, actEff_goto, if_pos (by rw [Bool.or_eq_true]; exact h)]
  · rw [hr, actEff_goto, hp, hl, if_neg (by decide), if_pos hc]
  · rw [hr, actEff_goto, hp, hl, if_neg (by decide), if_neg hc, if_neg, ht, if_pos (by decide)]
    rintro ⟨h3, h4⟩
    rcases hg with h | h
    · exact h h3
    · rw [h] at h4
      exact absurd h4 (by decide)
  · rw [hr, actEff_goto, hp, hl, if_neg (by decide), if_neg hc, if_pos ⟨hg, ha⟩]
    rfl
  · subst hg
    obtain ⟨c, hc, hc3, ht⟩ : ∃ c, nodeCode n = c ∧ c ≠ 3 ∧ transition c 3 = true := by
      rcases hst with h | h
      · exact ⟨2, by rw [nodeCode, h]; rfl, by decide, by decide⟩
      · exact ⟨4, by rw [nodeCode, h]; rfl, by decide, by decide⟩
    rw [hr, actEff_goto_taken hp hl hc hc3 (fun _ => ha) ht]
    refine ⟨fun c h => gotoTaken_refused h, fun h => ?_⟩
    · obtain ⟨h1, h2, h3⟩ := enterRun_leaves (n := n) (by rcases hst with h | h <;> rw [h] <;> decide)
      rw [gotoTaken_run h]
      dsimp only
      rw [h1]
      exact ⟨rfl, rfl, rfl, rfl, h2, h3⟩
  · subst hg
    obtain ⟨c, hc, hc4, ht⟩ : ∃ c, nodeCode n = c ∧ c ≠ 4 ∧ transition c 4 = true := by
      rcases hst with h | h
      · exact ⟨2, by rw [nodeCode, h]; rfl, by decide, by decide⟩
      · exact ⟨3, by rw [nodeCode, h]; rfl, by decide, by decide⟩
    obtain ⟨h1, h2, h3⟩ := enterSafe_leaves (n := n) (by rcases hst with h | h <;> rw [h] <;> decide) 1
    rw [hr, actEff_goto_taken hp hl hc hc4 (fun h => absurd h (by decide)) ht]
    rw [gotoTaken_safe]
    dsimp only
    rw [h1]
    exact ⟨rfl, rfl, rfl, h2, h3⟩
  · subst hg
    obtain ⟨c, hc, hc2, ht⟩ : ∃ c, nodeCode n = c ∧ c ≠ 2 ∧ transition c 2 = true := by
      rcases hst with h | h | h
      · exact ⟨1, by rw [nodeCode, h]; rfl, by decide, by decide⟩
      · exact ⟨3, by rw [nodeCode, h]; rfl, by decide, by decide⟩
      · exact ⟨4, by rw [nodeCode, h]; rfl, by decide, by decide⟩
    obtain ⟨h1, h2, h3⟩ := enterConfig_leaves (n := n) (by rcases hst with h | h | h <;> rw [h] <;> decide)
    rw [hr, actEff_goto_taken hp hl hc hc2 (fun h => absurd h (by decide)) ht]
    rw [gotoTaken_config]
    dsimp only
    have hcode : nodeCode n = 1 ↔ n.nodeSt.state = .standby := by
      rcases hst with h | h | h <;> rw [nodeCode, h] <;> decide
    refine ⟨by rw [h1], h2, h3, fun h => if_neg ?_, fun h4 h5 => if_pos ⟨hcode.mpr h4, by rw [h5]; rfl⟩⟩
    rintro ⟨h4, h5⟩
    rcases h with h | h
    · exact h (hcode.mp h4)
    · rw [h] at h5
      exact absurd h5 (by decide)
  · subst hg
    have hc : nodeCode n = 2 := by rw [nodeCode, hst]; rfl
    obtain ⟨h1, h2, h3⟩ := enterStandby_leaves (n := n) (by rw [hst]; decide)
    rw [hr, actEff_goto_taken hp hl hc (by decide) (fun h => absurd h (by decide)) (by decide)]
    rw [gotoTaken_standby]
    dsimp only
    rw [h1]
    exact ⟨rfl, rfl, h2, h3⟩

/-! PWR_RANK_EN -/

theorem operational_of_nodeSt {n u : Node} (h : u.nodeSt = n.nodeSt) : operational u = operational n := by
  unfold operational nodeCode
  rw [h]


/-- A rank that loses its bit. -/
def disableRank (n : Node) (r : Nat) : Node := modRank (unpowerRank n r) r (fun x => { x with failed := false })

theorem disableRank_leaves (n : Node) (r : Nat) : OneRank r n (disableRank n r) ∧
    (rankOf (disableRank n r) r).powered = false ∧ (rankOf (disableRank n r) r).failed = false := by
  obtain ⟨hone, hself⟩ := unpowerRank_leaves n r
  refine ⟨hone.trans (oneRank_modRank _ r _), ?_⟩
  unfold disableRank
  rw [rankOf_modRank_self, hself]
  exact ⟨rfl, rfl⟩

/-- Of a list of ranks each gets its change, and no other changes. -/
theorem ranks_foldl {f : Node → Nat → Node} {P : Rank → Prop} (hone : ∀ n r, OneRank r n (f n r))
    {Q : Rank → Prop} (hP : ∀ n r, Q (rankOf n r) → P (rankOf (f n r) r)) (hQ : ∀ x, P x → Q x) {l : List Nat} (n : Node) (k : Nat) :
    (k ∉ l → rankOf (l.foldl f n) k = rankOf n k) ∧ (k ∈ l → Q (rankOf n k) → P (rankOf (l.foldl f n) k)) := by
  induction l generalizing n with
  | nil => exact ⟨fun _ => rfl, fun h => absurd h List.not_mem_nil⟩
  | cons r l ih =>
    obtain ⟨hout, hin⟩ := ih (f n r)
    refine ⟨fun h => ?_, fun h hq => ?_⟩
    · rw [List.mem_cons, not_or] at h
      exact (hout h.2).trans ((hone n r).2 k h.1)
    · rw [List.foldl_cons]
      by_cases hk : k ∈ l
      · refine hin hk ?_
        by_cases hr : k = r
        · subst hr
          exact hQ _ (hP n k hq)
        · rw [(hone n r).2 k hr]
          exact hq
      · rcases List.mem_cons.mp h with rfl | hmem
        · rw [hout hk]
          exact hP n k hq
        · exact absurd hmem hk

theorem ranksMove_endGotoConfig (n : Node) : Steady n (endGotoConfig n) := by
  unfold endGotoConfig
  split
  · exact steady_ite (steady_setCmd n 0 _) (Steady.refl n)
  · exact Steady.refl n

theorem rankEnable_leaves (n : Node) (v : Word) : (reg (rankEnable n v) (at_ 0x0D 0x50) = v) ∧
    (∀ k, k < 16 → (reg n (at_ 0x0D 0x50)).getLsbD k = true → v.getLsbD k = false →
      (rankOf (rankEnable n v) k).powered = false ∧ (rankOf (rankEnable n v) k).failed = false) ∧
    (operational n = true → ∀ k, k < 16 → v.getLsbD k = true → (rankOf n k).failed = false →
      (rankOf (rankEnable n v) k).powered = true) := by
  unfold rankEnable
  extract_lets old m c off d
  have hreg : reg c (at_ 0x0D 0x50) = v := reg_setReg_self n _ v
  have hranks : ∀ k, rankOf c k = rankOf n k := fun _ => rfl
  have hop : operational c = operational n := rfl
  have hoff : ∀ k, k ∈ off ↔ k < 16 ∧ (reg n (at_ 0x0D 0x50)).getLsbD k = true ∧ v.getLsbD k = false := fun k => by
    show k ∈ (members (rankEn n) 16).filter (fun r => !bit v r) ↔ _
    rw [List.mem_filter, mem_members, Bool.not_eq_true', rankEn, BitVec.testBit_toNat, bit, and_assoc]
  clear_value c
  have hmove : RanksMove c d := foldl_rel RanksMove.refl RanksMove.trans (fun m r => (disableRank_leaves m r).1.1) off c
  have hdis := fun k => ranks_foldl (f := disableRank) (P := fun x => x.powered = false ∧ x.failed = false) (Q := fun _ => True)
    (fun m r => (disableRank_leaves m r).1) (fun m r _ => (disableRank_leaves m r).2) (fun _ _ => trivial) (l := off) c k
  have hd : d = off.foldl disableRank c := rfl
  rw [← hd] at hdis
  have hopd : operational d = operational n := (operational_of_nodeSt hmove.nodeSt).trans hop
  have hregd : reg d (at_ 0x0D 0x50) = v := (reg_of_regs hmove.regs _).trans hreg
  clear_value d
  have hpower : RanksMove d (if operational d then powerRanks d else d) := pred_ite (ranksMove_powerRanks d) (RanksMove.refl d)
  have hon := fun k => ranks_foldl (f := powerRank) (P := fun x => x.powered = true) (Q := fun x => x.failed = false ∨ x.powered = true)
    (fun m r => (powerRank_leaves m r).1) (fun m r hq => ?_) (fun _ h => .inr h) (l := members (rankEn d) 16) d k
  · have hend := ranksMove_endGotoConfig (if operational d then powerRanks d else d)
    have hfinal : ∀ k, rankOf (endGotoConfig (if operational d then powerRanks d else d)) k =
        rankOf (if operational d then powerRanks d else d) k := rankOf_of_ranks hend.ranks
    have hin : ∀ k, k ∈ members (rankEn d) 16 ↔ k < 16 ∧ v.getLsbD k = true := fun k => by
      rw [mem_members, rankEn, hregd, BitVec.testBit_toNat]
    refine ⟨?_, fun k hk hwas hno => ?_, fun ho k hk hyes hf => ?_⟩
    · rw [reg_of_regs (hend.regs.trans hpower.regs)]
      exact hregd
    · have hk' : rankOf (if operational d then powerRanks d else d) k = rankOf d k :=
        pred_ite (P := fun u => rankOf u k = rankOf d k)
          ((hon k).1 (fun h => by rw [((hin k).mp h).2] at hno; exact absurd hno (by decide))) rfl
      rw [hfinal, hk']
      exact (hdis k).2 ((hoff k).mpr ⟨hk, hwas, hno⟩) trivial
    · rw [hfinal, if_pos (hopd.trans ho)]
      have hd' : rankOf d k = rankOf n k :=
        ((hdis k).1 (fun h => by rw [((hoff k).mp h).2.2] at hyes; exact absurd hyes (by decide))).trans (hranks k)
      exact (hon k).2 ((hin k).mpr ⟨hk, hyes⟩) (.inl (by rw [hd']; exact hf))
  · obtain ⟨-, hpow⟩ := powerRank_leaves m r
    rcases hq with h | h
    · exact hpow h
    · have hrun : powerRank m r = m := if_pos (by rw [h]; rfl)
      rw [hrun]
      exact h

theorem paramEff_rankEn (n : Node) (v : Word) (acc : Nat) (h : BitVec 16) : paramEff (at_ 0x0D 0x50) v acc h n =
    (rankEnable { logChange n (takenEntry n (at_ 0x0D 0x50) (reg n (at_ 0x0D 0x50)) v acc 0 h) oMp with
      unshown := stillShows (logChange n (takenEntry n (at_ 0x0D 0x50) (reg n (at_ 0x0D 0x50)) v acc 0 h) oMp).unshown (at_ 0x0D 0x50)
        (reg n (at_ 0x0D 0x50)) } v, some true) := by
  unfold paramEff
  rw [if_pos rfl]

theorem rankEn_takenUp (v : Word) (auto : Bool) (acc : Nat) (h : BitVec 16) (n : Node) (hl : n.laneSt.state ≠ 3) :
    let r := actEff auto (.param (at_ 0x0D 0x50) v acc h) n
    r.2 = some true ∧ reg r.1 (at_ 0x0D 0x50) = v ∧
    (∀ k, k < 16 → (reg n (at_ 0x0D 0x50)).getLsbD k = true → v.getLsbD k = false →
      (rankOf r.1 k).powered = false ∧ (rankOf r.1 k).failed = false) ∧
    (operational n = true → ∀ k, k < 16 → v.getLsbD k = true → (rankOf n k).failed = false →
      (rankOf r.1 k).powered = true) := by
  have hact : actEff auto (.param (at_ 0x0D 0x50) v acc h) n = paramEff (at_ 0x0D 0x50) v acc h n := by
    unfold actEff
    rw [lanesNone_of_ne hl]
    rfl
  rw [hact, paramEff_rankEn]
  have hlog := steady_logChange n (takenEntry n (at_ 0x0D 0x50) (reg n (at_ 0x0D 0x50)) v acc 0 h) oMp
  generalize logChange n (takenEntry n (at_ 0x0D 0x50) (reg n (at_ 0x0D 0x50)) v acc 0 h) oMp = m at hlog ⊢
  have hm : Steady n { m with unshown := stillShows m.unshown (at_ 0x0D 0x50) (reg n (at_ 0x0D 0x50)) } :=
    hlog.trans ⟨rfl, rfl, rfl, List.prefix_rfl⟩
  generalize { m with unshown := stillShows m.unshown (at_ 0x0D 0x50) (reg n (at_ 0x0D 0x50)) } = k at hm ⊢
  obtain ⟨h1, h2, h3⟩ := rankEnable_leaves k v
  rw [reg_of_regs hm.regs] at h2
  have hop : operational k = operational n := operational_of_nodeSt hm.nodeSt
  rw [hop] at h3
  exact ⟨rfl, h1, h2, fun ho r hr hv hf => h3 ho r hr hv (by rw [rankOf_of_ranks hm.ranks]; exact hf)⟩

theorem pathAccount_acceptCmd (n : Node) (path p off : Nat) (v : Word) : pathAccount (acceptCmd n path p off v) path = pathAccount n path := by
  unfold acceptCmd
  extract_lets h a b
  have hb : sessionOf b path = sessionOf n path := rfl
  clear_value b
  unfold touchSession pathAccount
  rw [hb]
  cases hs : sessionOf n path with
  | none => simp only [hb, hs]
  | some x =>
    have hset : sessionOf (setSession b path (some { x with last := b.now })) path = some { x with last := b.now } :=
      tget_tset_self none b.config.sessions path (some { x with last := b.now })
    simp only [hset]

theorem echo_acceptCmd (n : Node) (path p off : Nat) (v : Word) : (seqOf (acceptCmd n path p off v) path p).echo = (seqOf n path p).hseq := by
  have hseq : seqOf (acceptCmd n path p off v) path p =
      seqOf (modSeq n path p (fun q => { q with echo := (seqOf n path p).hseq, cmdRes := 1 })) path p := by
    rw [acceptCmd, touchSession_rest]
    rfl
  rw [hseq, seqOf_modSeq_self]

theorem acts_rankEnableWrite (t : Nat) (v : Word) (s : State) (h : judge (atInstant s t) hostPath 0x0D
      { state := inStates s.node 30 && rankEnOk (atInstant s t) v, level := levelOk s.node hostPath 2 } = .accept) :
    Acts (.rankEnableWrite t v) s t (fun n u => SameButSignals u (deferred n hostPath 0x0D (at_ 0x0D 0x50) v
      (.param (at_ 0x0D 0x50) (v &&& 0xFFFF) (pathAccount n hostPath) (seqOf n hostPath 0x0D).hseq))) := by
  refine acts_leaves rfl (fun u hu => ?_)
  have hst : inStates s.node 30 = inStates (atInstant s t) 30 := rfl
  have hlev : levelOk s.node hostPath 2 = levelOk (atInstant s t) hostPath 2 := rfl
  rw [hst, hlev] at h
  generalize atInstant s t = n at h hu ⊢
  have hrun : rankEnWrite n hostPath v = runCommand n hostPath 0x0D (at_ 0x0D 0x50) v
      { state := inStates n 30 && rankEnOk n v, level := levelOk n hostPath 2 }
      (defer 0x0D (.param (at_ 0x0D 0x50) (v &&& 0xFFFF) (pathAccount n hostPath) (seqOf n hostPath 0x0D).hseq)) := by
    unfold rankEnWrite
    rw [runCommand_accept h, runCommand_accept h, pathAccount_acceptCmd, echo_acceptCmd]
  rw [hu, hrun, runCommand_deferred h]
  exact sameButSignals_settle _

/-- Settles O28: state commands by the cases of Table 17.2, each entry by what it leaves of the state, the registers and the
ranks; PWR_RANK_EN by what it does to each rank's bit. -/
theorem stateCommandsTakenUp : Obligations.StateCommandsTakenUp :=
  ⟨goto_leaves, fun t v s => ⟨acts_rankEnableWrite t v s, rankEn_takenUp v⟩⟩

end Sys2Proof.Machine
end

section
/-! PROOF. Launch, call, lane and acquisition commands at their boundary (03 R79, 09 R207, 11 R266). -/

namespace Sys2Proof.Machine

/-! Launches -/

theorem launchOf_setLaunch_self (n : Node) (e : Nat) (x : Launch) : launchOf (setLaunch n e x) e = x :=
  tget_tmod_self ({} : Launch) n.launches e (fun _ => x)

theorem launchOf_setLaunch_ne (n : Node) {e k : Nat} (x : Launch) (h : k ≠ e) : launchOf (setLaunch n e x) k = launchOf n k :=
  tget_tmod_ne ({} : Launch) n.launches (fun _ => x) h

theorem actEff_launch {n : Node} (h : n.laneSt.state ≠ 3) (auto : Bool) (op e tgt : Nat) (act arg : Word) :
    actEff auto (.launch op e tgt act arg) n = lchEff op e tgt act arg n := by
  unfold actEff
  rw [lanesNone_of_ne h]
  rfl

theorem launch_takenUp (n : Node) (auto : Bool) (e tgt : Nat) (act arg : Word) (hl : n.laneSt.state ≠ 3) :
    (inStates n (lchStates (fld act 3 0)) = true →
      let r := actEff auto (.launch 1 e tgt act arg) n
      (∀ k, k ≠ e → launchOf r.1 k = launchOf n k) ∧
      (n.frame + 2 ≤ tgt → r.2 = some true ∧ launchOf r.1 e = { state := .armed, tgt := tgt, act := act, arg := arg }) ∧
      (tgt < n.frame + 2 →
        r.2 = some false ∧ launchOf r.1 e = { state := .late, tgt := tgt, act := act, arg := arg } ∧ (0x0A, 1) ∈ r.1.dueR)) ∧
    (inStates n (lchStates (fld act 3 0)) = false → actEff auto (.launch 1 e tgt act arg) n = (n, some false)) ∧
    ((launchOf n e).state = .armed →
      let r := actEff auto (.launch 2 e tgt act arg) n
      r.2 = some true ∧ launchOf r.1 e = { launchOf n e with state := .cancelled } ∧
      ∀ k, k ≠ e → launchOf r.1 k = launchOf n k) ∧
    ((launchOf n e).state ≠ .armed → actEff auto (.launch 2 e tgt act arg) n = (n, some false)) := by
  simp only [actEff_launch hl]
  have harm : lchEff 1 e tgt act arg n = if !inStates n (lchStates (fld act 3 0)) then (n, some false)
      else if n.frame + 2 ≤ tgt then (setLaunch n e { state := .armed, tgt := tgt, act := act, arg := arg }, some true)
      else (raiseR (setLaunch n e { state := .late, tgt := tgt, act := act, arg := arg }) 0x0A 1, some false) := if_pos rfl
  have hcancel : lchEff 2 e tgt act arg n = if (launchOf n e).state = .armed then
      (setLaunch n e { launchOf n e with state := .cancelled }, some true) else (n, some false) := if_neg (by decide)
  refine ⟨fun hst => ?_, fun hst => ?_, fun ha => ?_, fun ha => ?_⟩
  · rw [harm, hst, if_neg (by decide)]
    by_cases htgt : n.frame + 2 ≤ tgt
    · rw [if_pos htgt]
      exact ⟨fun k hk => launchOf_setLaunch_ne n _ hk, fun _ => ⟨rfl, launchOf_setLaunch_self n e _⟩, fun h => absurd h (by omega)⟩
    · rw [if_neg htgt]
      have hself := launchOf_setLaunch_self n e { state := .late, tgt := tgt, act := act, arg := arg }
      have hother := fun k (hk : k ≠ e) => launchOf_setLaunch_ne n { state := .late, tgt := tgt, act := act, arg := arg } hk
      generalize setLaunch n e { state := .late, tgt := tgt, act := act, arg := arg } = m at hself hother ⊢
      exact ⟨hother, fun h => absurd h htgt, fun _ => ⟨rfl, hself, List.mem_append_right _ (List.mem_singleton_self _)⟩⟩
  · rw [harm, hst, if_pos (by decide)]
  · rw [hcancel, if_pos ha]
    exact ⟨rfl, launchOf_setLaunch_self n e _, fun k hk => launchOf_setLaunch_ne n _ hk⟩
  · rw [hcancel, if_neg ha]

/-! The call -/

theorem actEff_call {n : Node} (h : n.laneSt.state ≠ 3) (auto : Bool) (op : Nat) :
    actEff auto (.call op) n = if operational n then (callEff op n, some true) else (n, some false) := by
  unfold actEff
  rw [lanesNone_of_ne h]
  rfl

theorem call_takenUp {n : Node} (hl : n.laneSt.state ≠ 3) (ho : operational n = true) (auto : Bool) :
    (let r := actEff auto (.call 1) n
     r.2 = some true ∧ r.1.call.watch = (if n.call.watch = .off then .running else n.call.watch)) ∧
    (let r := actEff auto (.call 2) n
     r.2 = some true ∧ r.1.call.watch = .off) ∧
    (let r := actEff auto (.call 3) n
     r.2 = some true ∧ (n.call.watch = .off ∨ n.call.watch = .alarm → r.1 = n) ∧
     (n.call.watch = .running ∨ n.call.watch = .prewarn → r.1.call.watch = .running ∧ r.1.call.watchCnt = 0)) := by
  simp only [actEff_call hl, ho, if_true, true_and]
  refine ⟨?_, ?_, fun h => ?_, fun h => ?_⟩
  · have hrun : callEff 1 n = if n.call.watch = .off then setWatch n .running 31 else n := rfl
    rw [hrun]
    split
    · rw [setWatch_call]
    · rfl
  · have hrun : callEff 2 n = if n.call.watch = .off then n else setWatch n .off 31 := rfl
    rw [hrun]
    split
    · assumption
    · rw [setWatch_call]
  · show watchReset n false 31 = n
    unfold watchReset
    rcases h with h | h <;> simp only [h, Bool.false_eq_true, if_false]
  · have hrun : callEff 3 n = setWatch n .running 31 := by
      show watchReset n false 31 = _
      unfold watchReset
      rcases h with h | h <;> simp only [h]
    rw [hrun, setWatch_call]
    exact ⟨rfl, rfl⟩

theorem duty_takenUp {n : Node} (hl : n.laneSt.state ≠ 3) (auto : Bool) {e : Nat} (he : e < 32) :
    let r := actEff auto (.duty e) n
    r.2 = some true ∧ dutyEng r.1 = e ∧ (∀ k, k ≠ at_ 7 0x58 → reg r.1 k = reg n k) := by
  have hact : actEff auto (.duty e) n =
      (setDuty { n with unshown := stillShows n.unshown (at_ 7 0x58) (callReg n 0x58) } e 31, some true) := by
    unfold actEff
    rw [lanesNone_of_ne hl]
    rfl
  rw [hact]
  have hregs : ∀ k, reg { n with unshown := stillShows n.unshown (at_ 7 0x58) (callReg n 0x58) } k = reg n k := fun _ => rfl
  generalize { n with unshown := stillShows n.unshown (at_ 7 0x58) (callReg n 0x58) } = m at hregs ⊢
  refine ⟨rfl, dutyEng_setDuty m he 31, fun k hk => ?_⟩
  unfold setDuty
  dsimp only
  split
  · exact hregs k
  · have hreg := reg_setReg_ne m (BitVec.ofNat 32 e) hk
    simp only [reg, raiseR_regs, note_regs]
    exact hreg.trans (hregs k)

/-! Lanes -/

theorem laneOf_noteLane (n : Node) (r : Rec) (k : Nat) : laneOf (noteLane n r) k = laneOf n k :=
  congrArg (fun x => tget ({} : Lane) x k) (note_lanes n _)

/-- A lane that enters another phase. -/
theorem laneOf_setPhase {n : Node} {l p : Nat} (h : (laneOf n l).phase ≠ p) :
    laneOf (setPhase n l p) l = { laneOf n l with phase := p, since := n.now } ∧
    ∀ k, k ≠ l → laneOf (setPhase n l p) k = laneOf n k := by
  unfold setPhase
  dsimp only
  rw [if_neg h]
  have hlane := laneOf_noteLane n (recLane n 3 l (laneOf n l).phase p (laneOf n l).cause 0 0)
  have hnow : (noteLane n (recLane n 3 l (laneOf n l).phase p (laneOf n l).cause 0 0)).now = n.now := note_now _ _
  generalize noteLane n (recLane n 3 l (laneOf n l).phase p (laneOf n l).cause 0 0) = m at hlane hnow ⊢
  refine ⟨?_, fun k hk => (laneOf_modLane_ne m _ hk).trans (hlane k)⟩
  rw [laneOf_modLane_self, hlane, hnow]

theorem actEff_lane {n : Node} (h : n.laneSt.state ≠ 3) (auto : Bool) (v : Word) : actEff auto (.lane v) n = laneCmdEff v n := by
  unfold actEff
  rw [lanesNone_of_ne h]
  rfl

theorem laneCmdEff_retry {n : Node} {l : Nat} (hl : l < 3) : laneCmdEff (laneCmdWord 1 l) n =
    if (laneOf n l).phase = 6 then (setPhase (modLane n l (fun x => { x with attempts := [] })) l 1, some true) else (n, some false) := by
  obtain ⟨h2, h1⟩ := laneCmdWord_fields (op := 1) (by decide) (Nat.lt_succ_of_lt hl)
  unfold laneCmdEff
  dsimp only
  simp only [h1, h2]

theorem laneCmdEff_exclude {n : Node} {l : Nat} (hl : l < 3) : laneCmdEff (laneCmdWord 2 l) n =
    if comingState n = 0 then (modLane n l (fun x => { x with host := some n.frame }), none) else (n, some false) := by
  obtain ⟨h2, h1⟩ := laneCmdWord_fields (op := 2) (by decide) (Nat.lt_succ_of_lt hl)
  unfold laneCmdEff
  dsimp only
  simp only [h1, h2]

/-- The counts of one lane are cleared. -/
def laneCleared (n : Node) (l : Nat) : Node := modLane n l (fun x => { x with ce := 0, ue := 0, pass := 0 })

theorem laneCmdEff_clear (n : Node) : laneCmdEff (laneCmdWord 3 0) n =
    (modLaneSt (laneCleared (laneCleared (laneCleared n 0) 1) 2) (fun s => { s with
      unres := 0, excl := 0, diff := none, l01 := { s.l01 with err := 0 }, l12 := { s.l12 with err := 0 },
      l20 := { s.l20 with err := 0 } }), some true) := by
  obtain ⟨h, -⟩ := laneCmdWord_fields (op := 3) (l := 0) (by decide) (by decide)
  unfold laneCmdEff
  rw [h]
  rfl

theorem laneOf_laneCleared_self (n : Node) (l : Nat) : laneOf (laneCleared n l) l = { laneOf n l with ce := 0, ue := 0, pass := 0 } :=
  laneOf_modLane_self n l _

theorem laneOf_laneCleared_ne (n : Node) {l k : Nat} (h : k ≠ l) : laneOf (laneCleared n l) k = laneOf n k := laneOf_modLane_ne n _ h

theorem lane_takenUp {n : Node} (hn : n.laneSt.state ≠ 3) (auto : Bool) {l : Nat} (hl : l < 3) :
    ((laneOf n l).phase = 6 → let r := actEff auto (.lane (laneCmdWord 1 l)) n
      r.2 = some true ∧ (laneOf r.1 l).phase = 1 ∧ (laneOf r.1 l).attempts = [] ∧ ∀ k, k ≠ l → laneOf r.1 k = laneOf n k) ∧
    ((laneOf n l).phase ≠ 6 → actEff auto (.lane (laneCmdWord 1 l)) n = (n, some false)) ∧
    (comingState n ≠ 0 → actEff auto (.lane (laneCmdWord 2 l)) n = (n, some false)) ∧
    (comingState n = 0 → let r := actEff auto (.lane (laneCmdWord 2 l)) n
     r.2 = none ∧ laneOf r.1 l = { laneOf n l with host := some n.frame } ∧ ∀ k, k ≠ l → laneOf r.1 k = laneOf n k) ∧
    (let r := actEff auto (.lane (laneCmdWord 3 0)) n
     r.2 = some true ∧ laneOf r.1 l = { laneOf n l with ce := 0, ue := 0, pass := 0 } ∧ r.1.laneSt.unres = 0 ∧
     r.1.laneSt.excl = 0 ∧ r.1.laneSt.state = n.laneSt.state) := by
  simp only [actEff_lane hn, laneCmdEff_retry hl, laneCmdEff_exclude hl, laneCmdEff_clear]
  refine ⟨fun h => ?_, fun h => if_neg h, fun h => if_neg h, fun h => ?_, trivial, ?_, rfl, rfl, rfl⟩
  · rw [if_pos h]
    have hself := laneOf_modLane_self n l (fun x => { x with attempts := [] })
    have hother := fun k (hk : k ≠ l) => laneOf_modLane_ne n (fun x => { x with attempts := [] }) hk
    generalize modLane n l (fun x => { x with attempts := [] }) = m at hself hother ⊢
    obtain ⟨h1, h2⟩ := laneOf_setPhase (n := m) (l := l) (p := 1) (by rw [hself]; show (laneOf n l).phase ≠ 1; omega)
    refine ⟨rfl, ?_, ?_, fun k hk => (h2 k hk).trans (hother k hk)⟩
    · rw [h1]
    · rw [h1, hself]
  · rw [if_pos h]
    exact ⟨rfl, laneOf_modLane_self n l _, fun k hk => laneOf_modLane_ne n _ hk⟩
  · rw [laneOf_modLaneSt]
    interval_cases l
    · rw [laneOf_laneCleared_ne _ (by decide), laneOf_laneCleared_ne _ (by decide), laneOf_laneCleared_self]
    · rw [laneOf_laneCleared_ne _ (by decide), laneOf_laneCleared_self, laneOf_laneCleared_ne _ (by decide)]
    · rw [laneOf_laneCleared_self, laneOf_laneCleared_ne _ (by decide), laneOf_laneCleared_ne _ (by decide)]

/-- Settles O29: each command by the effect that the boundary gives it. -/
theorem launchCallAndLaneCommandsTakenUp : Obligations.LaunchCallAndLaneCommandsTakenUp := by
  refine ⟨launch_takenUp, fun n auto e l hn => ?_⟩
  refine ⟨fun ho op => ?_, fun ho => call_takenUp hn ho auto, fun he => duty_takenUp hn auto he, ?_, ?_, fun r => ?_,
    fun hl => lane_takenUp hn auto hl⟩
  · rw [actEff_call hn, ho]
    rfl
  · unfold actEff
    rw [lanesNone_of_ne hn]
    rfl
  · unfold actEff
    rw [lanesNone_of_ne hn]
    rfl
  · have hrank : actEff auto (.rnkClear r) n = (rnkClear n r, some true) := by
      unfold actEff
      rw [lanesNone_of_ne hn]
      rfl
    rw [hrank]
    exact ⟨rfl, fun k hk => rankOf_modRank_ne n _ hk, rfl, rankOf_modRank_self n r _⟩

end Sys2Proof.Machine
end

section
/-! PROOF. Claims, presence, the carrier's take and CLAMP of a pair (12 R277 to R280, R284, R289). -/

namespace Sys2Proof.Machine

/-! Claim lines -/

/-- A line's change is told where it enters FAULT. -/
theorem lineEvent_leaves (n : Node) (index old new : Nat) : RecFrame n (lineEvent n index old new) ∧
    n.dueB <+: (lineEvent n index old new).dueB ∧ (old ≠ 2 → new = 2 → (4, 6) ∈ (lineEvent n index old new).dueB) := by
  unfold lineEvent
  split
  next h => exact ⟨recFrame_refl n, List.prefix_rfl, fun h1 h2 => absurd (h ▸ h2) h1⟩
  · have hrec := recFrame_note n (recDuplex n 5 old new 0 index (dpxStat n))
    have hdue := dueB_note n (recDuplex n 5 old new 0 index (dpxStat n))
    dsimp only
    generalize note n (recDuplex n 5 old new 0 index (dpxStat n)) = m at hrec hdue ⊢
    by_cases h2 : new = 2
    · have hrun : raiseBIf (decide (new = 2)) m 4 6 = raiseB m 4 6 := if_pos (decide_eq_true h2)
      rw [hrun]
      exact ⟨recFrame_trans hrec (recFrame_raiseB m 4 6), hdue.trans (List.prefix_append _ _),
        fun _ _ => List.mem_append_right _ (List.mem_singleton_self _)⟩
    · have hrun : raiseBIf (decide (new = 2)) m 4 6 = m := if_neg (by rw [decide_eq_false h2]; decide)
      rw [hrun]
      exact ⟨hrec, hdue, fun _ h => absurd h h2⟩

/-- Both lines' changes. -/
theorem lineEvents_leaves (n : Node) (a b a' b' : Nat) : RecFrame n (lineEvent (lineEvent n 0 a a') 1 b b') ∧
    (a ≠ 2 → a' = 2 → (4, 6) ∈ (lineEvent (lineEvent n 0 a a') 1 b b').dueB) ∧
    (b ≠ 2 → b' = 2 → (4, 6) ∈ (lineEvent (lineEvent n 0 a a') 1 b b').dueB) := by
  obtain ⟨h1, -, h3⟩ := lineEvent_leaves n 0 a a'
  obtain ⟨k1, k2, k3⟩ := lineEvent_leaves (lineEvent n 0 a a') 1 b b'
  exact ⟨recFrame_trans h1 k1, fun ha ha' => k2.subset (h3 ha ha'), k3⟩

theorem lineResult_says (hist code peer own : Nat) : (lineResult hist code peer own).2 = Sys2Proof.lineSays own hist code peer := by
  unfold lineResult lineSays
  by_cases h1 : code = 0
  · by_cases h2 : hist = 7 <;> simp [h1, h2]
  · simp [h1]

theorem paired_of_regs {n u : Node} (h : u.regs = n.regs) : paired u = paired n := by
  unfold paired
  rw [reg_of_regs h]

/-- The duplex part as an output arbitration leaves it. -/
def outArbitrated (n : Node) (l : LineSense) (d : Duplex) (own peer : Nat) : Duplex :=
  { d with
    claim := own, arbO := some n.frame, pclaim := peer,
    lineA := { d.lineA with oCode := (lineResult d.lineA.hist l.aCode l.aPeer own).1, oRes := (lineResult d.lineA.hist l.aCode l.aPeer own).2 },
    lineB := { d.lineB with oCode := (lineResult d.lineB.hist l.bCode l.bPeer own).1, oRes := (lineResult d.lineB.hist l.bCode l.bPeer own).2 } }

/-- The partner's number as the lines give it. -/
def lostTo (d : Duplex) (l : LineSense) (own was : Nat) : Nat :=
  if (lineResult d.lineA.hist l.aCode l.aPeer own).2 = 1 then l.aPeer
  else if (lineResult d.lineB.hist l.bCode l.bPeer own).2 = 1 then l.bPeer else was

theorem outArbitration_eq {n : Node} (hp : paired n = true) (l : LineSense) : outArbitration n l =
    (fun m => lineEvent (lineEvent (modDpx m (fun d => outArbitrated m l d (outClaim m) (lostTo m.duplex l (outClaim m) m.duplex.pclaim)))
      0 m.duplex.lineA.oRes (lineResult m.duplex.lineA.hist l.aCode l.aPeer (outClaim m)).2)
      1 m.duplex.lineB.oRes (lineResult m.duplex.lineB.hist l.bCode l.bPeer (outClaim m)).2)
      (modDpx n (fun d => { d with yield_ := d.handover.isSome && d.handB.isNone })) := by
  unfold outArbitration
  rw [hp, if_neg (by decide)]
  rfl

theorem acts_outputArbitration {t : Nat} {s : State} (hp : paired s.node = true) (l : LineSense) :
    Acts (.outputArbitration t l) s t (fun n u =>
      let m := { n with duplex := { n.duplex with yield_ := n.duplex.handover.isSome && n.duplex.handB.isNone } }
      let own := outClaim m
      SameButRecords u { n with duplex := u.duplex } ∧
      u.duplex = { m.duplex with
        claim := own, arbO := some n.frame, pclaim := u.duplex.pclaim,
        lineA := { n.duplex.lineA with oCode := u.duplex.lineA.oCode, oRes := Sys2Proof.lineSays own n.duplex.lineA.hist l.aCode l.aPeer },
        lineB := { n.duplex.lineB with oCode := u.duplex.lineB.oCode, oRes := Sys2Proof.lineSays own n.duplex.lineB.hist l.bCode l.bPeer } } ∧
      (u.duplex.lineA.oRes = 1 → u.duplex.pclaim = l.aPeer) ∧
      (n.duplex.lineA.oRes ≠ 2 → u.duplex.lineA.oRes = 2 → (4, 6) ∈ u.dueB) ∧
      (n.duplex.lineB.oRes ≠ 2 → u.duplex.lineB.oRes = 2 → (4, 6) ∈ u.dueB)) := by
  refine acts_leaves rfl (fun u hu => ?_)
  have hp' : paired (atInstant s t) = true := hp
  generalize atInstant s t = n at hu hp' ⊢
  rw [outArbitration_eq hp'] at hu
  dsimp only at hu
  intro m own
  have hm : m = modDpx n (fun d => { d with yield_ := d.handover.isSome && d.handB.isNone }) := rfl
  have hown : own = outClaim m := rfl
  rw [← hm, ← hown] at hu
  have hlA : m.duplex.lineA = n.duplex.lineA := rfl
  have hlB : m.duplex.lineB = n.duplex.lineB := rfl
  have hrest : { m with duplex := n.duplex } = n := rfl
  have hframe : m.frame = n.frame := rfl
  clear_value own
  clear_value m
  obtain ⟨hrec, hA, hB⟩ := lineEvents_leaves (modDpx m (fun d => outArbitrated m l d own (lostTo m.duplex l own m.duplex.pclaim)))
    m.duplex.lineA.oRes m.duplex.lineB.oRes (lineResult m.duplex.lineA.hist l.aCode l.aPeer own).2
    (lineResult m.duplex.lineB.hist l.bCode l.bPeer own).2
  rw [← hu] at hrec hA hB
  have hdpx : u.duplex = outArbitrated m l m.duplex own (lostTo m.duplex l own m.duplex.pclaim) := by
    obtain ⟨r, l', h, d, q, he, -⟩ := hrec
    rw [he]
    rfl
  have hsettle : (settle u).duplex = u.duplex := rfl
  have hdue : (settle u).dueB = u.dueB := rfl
  rw [hsettle, hdue]
  refine ⟨?_, ?_, ?_, fun ha ha' => hA (by rw [hlA]; exact ha) ?_, fun hb hb' => hB (by rw [hlB]; exact hb) ?_⟩
  · have hsame := sameButRecords_settle hrec
    have hnode : modDpx m (fun d => outArbitrated m l d own (lostTo m.duplex l own m.duplex.pclaim)) = { n with duplex := u.duplex } := by
      rw [hdpx, ← hrest]
      rfl
    rw [hnode] at hsame
    exact hsame
  · rw [hdpx, outArbitrated, lineResult_says, lineResult_says, hlA, hlB, hframe]
  · rw [hdpx]
    exact fun h => if_pos h
  · rw [hdpx] at ha'
    exact ha'
  · rw [hdpx] at hb'
    exact hb'

/-- The duplex part as a time arbitration leaves it. -/
def timeArbitrated (n : Node) (l : LineSense) (d : Duplex) (own peer : Nat) : Duplex :=
  { d with
    tclaim := own, arbT := some n.frame, ptclaim := peer,
    lineA := { d.lineA with tCode := (lineResult d.lineA.hist l.aCode l.aPeer own).1, tRes := (lineResult d.lineA.hist l.aCode l.aPeer own).2 },
    lineB := { d.lineB with tCode := (lineResult d.lineB.hist l.bCode l.bPeer own).1, tRes := (lineResult d.lineB.hist l.bCode l.bPeer own).2 } }

theorem timeArbitration_eq {n : Node} (hp : paired n = true) (l : LineSense) : timeArbitration n l =
    lineEvent (lineEvent (modDpx n (fun d => timeArbitrated n l d (timeClaim n) (lostTo n.duplex l (timeClaim n) n.duplex.ptclaim)))
      0 n.duplex.lineA.tRes (lineResult n.duplex.lineA.hist l.aCode l.aPeer (timeClaim n)).2)
      1 n.duplex.lineB.tRes (lineResult n.duplex.lineB.hist l.bCode l.bPeer (timeClaim n)).2 := by
  unfold timeArbitration
  rw [hp, if_neg (by decide)]
  rfl

theorem acts_timeArbitration {t : Nat} {s : State} (hp : paired s.node = true) (l : LineSense) :
    Acts (.timeArbitration t l) s t (fun n u =>
      let own := timeClaim n
      SameButRecords u { n with duplex := u.duplex } ∧
      u.duplex = { n.duplex with
        tclaim := own, arbT := some n.frame, ptclaim := u.duplex.ptclaim,
        lineA := { n.duplex.lineA with tCode := u.duplex.lineA.tCode, tRes := Sys2Proof.lineSays own n.duplex.lineA.hist l.aCode l.aPeer },
        lineB := { n.duplex.lineB with tCode := u.duplex.lineB.tCode, tRes := Sys2Proof.lineSays own n.duplex.lineB.hist l.bCode l.bPeer } }) := by
  refine acts_leaves rfl (fun u hu => ?_)
  have hp' : paired (atInstant s t) = true := hp
  generalize atInstant s t = n at hu hp' ⊢
  rw [timeArbitration_eq hp'] at hu
  intro own
  have hown : own = timeClaim n := rfl
  rw [← hown] at hu
  clear_value own
  obtain ⟨hrec, -, -⟩ := lineEvents_leaves (modDpx n (fun d => timeArbitrated n l d own (lostTo n.duplex l own n.duplex.ptclaim)))
    n.duplex.lineA.tRes n.duplex.lineB.tRes (lineResult n.duplex.lineA.hist l.aCode l.aPeer own).2
    (lineResult n.duplex.lineB.hist l.bCode l.bPeer own).2
  rw [← hu] at hrec
  have hdpx : u.duplex = timeArbitrated n l n.duplex own (lostTo n.duplex l own n.duplex.ptclaim) := by
    obtain ⟨r, l', h, d, q, he, -⟩ := hrec
    rw [he]
    rfl
  have hsettle : (settle u).duplex = u.duplex := rfl
  rw [hsettle]
  refine ⟨?_, ?_⟩
  · have hsame := sameButRecords_settle hrec
    have hnode : modDpx n (fun d => timeArbitrated n l d own (lostTo n.duplex l own n.duplex.ptclaim)) = { n with duplex := u.duplex } := by
      rw [hdpx]
      rfl
    rw [hnode] at hsame
    exact hsame
  · rw [hdpx, timeArbitrated, lineResult_says, lineResult_says]

theorem acts_presencePulse {t : Nat} {s : State} (hp : paired s.node = true) (a b x y : Bool) :
    Acts (.presencePulse t a b x y) s t (fun n u => SameButSignals u { n with duplex := { n.duplex with
      lineA := { n.duplex.lineA with pres := a, hist := (2 * n.duplex.lineA.hist + b2n (a || x)) % 8 },
      lineB := { n.duplex.lineB with pres := b, hist := (2 * n.duplex.lineB.hist + b2n (b || y)) % 8 } } }) := by
  refine acts_of_eq rfl ?_ (sameButSignals_settle _)
  unfold presence
  rw [show paired (atInstant s t) = true from hp, if_neg (by decide)]
  rfl

/-- A single module takes part in no arbitration. -/
theorem claims_single {s : State} (hp : paired s.node = false) (t : Nat) (l : LineSense) (a b x y : Bool) :
    Acts (.outputArbitration t l) s t (fun n u => SameButSignals u n) ∧
    Acts (.timeArbitration t l) s t (fun n u => SameButSignals u n) ∧
    Acts (.presencePulse t a b x y) s t (fun n u => SameButSignals u n) := by
  have hno : (!paired (atInstant s t)) = true := by
    rw [show paired (atInstant s t) = false from hp]
    rfl
  exact ⟨acts_same rfl (if_pos hno), acts_same rfl (if_pos hno), acts_same rfl (if_pos hno)⟩

/-! The carrier's role -/

/-- What a change of the carrier role leaves. -/
theorem setCarrier_leaves (n : Node) (r : Nat) (on : Bool) :
    RecFrame { n with duplex := (setCarrier n r on).duplex, acqs := (setCarrier n r on).acqs } (setCarrier n r on) ∧
    (setCarrier n r on).duplex = { n.duplex with
      carried := setBit n.duplex.carried r on, released := setBit n.duplex.released r (!on),
      pHad := if on then setBit n.duplex.pHad r false else n.duplex.pHad } ∧ (4, 5) ∈ (setCarrier n r on).dueB := by
  unfold setCarrier
  extract_lets m k v
  have hk : k = { m with acqs := k.acqs } :=
    foldl_rel (R := fun a b => b = { a with acqs := b.acqs }) (f := fun n c => settleAt n c (n.sAt + 250000)) (fun _ => rfl)
      (fun h g => by rw [h] at g; exact g) (fun _ _ => rfl) _ m
  have hm : m = modDpx n (fun d => { d with
    carried := setBit d.carried r on, released := setBit d.released r (!on), pHad := if on then setBit d.pHad r false else d.pHad }) := rfl
  have hrec : RecFrame k (raiseB v 4 5) := recFrame_trans (recFrame_note k _) (recFrame_raiseB v 4 5)
  have hdue : (4, 5) ∈ (raiseB v 4 5).dueB := List.mem_append_right _ (List.mem_singleton_self _)
  clear_value v k
  obtain ⟨q, l, h, d, w, he, hh⟩ := hrec
  have hdpx : (raiseB v 4 5).duplex = m.duplex := by
    rw [he, hk]
  have hacqs : (raiseB v 4 5).acqs = k.acqs := by rw [he]
  refine ⟨?_, hdpx, hdue⟩
  have hnode : { n with duplex := (raiseB v 4 5).duplex, acqs := (raiseB v 4 5).acqs } = k := by
    rw [hdpx, hacqs, hk, hm]
    rfl
  rw [hnode]
  exact ⟨q, l, h, d, w, he, hh⟩

theorem rankOf_setObserve (n : Node) (r : Nat) : (rankOf (setObserve n) r).observe =
    if r ∈ keys n.ranks then paired n && !nbit n.duplex.carried r else false := by
  have hrank : rankOf (setObserve n) r = if r ∈ keys n.ranks then
      { rankOf n r with observe := paired n && !nbit n.duplex.carried r } else rankOf n r :=
    tget_tmodAll_of_idem ({} : Rank) n.ranks (keys n.ranks)
      (f := fun r x => { x with observe := paired n && !nbit n.duplex.carried r }) (fun _ _ => rfl) r
  rw [hrank]
  split
  · rfl
  next h =>
    have hdef : rankOf n r = {} := tget_of_not_mem_keys ({} : Rank) h
    rw [hdef]

/-- The partner's last heartbeat tells that it carries the rank. -/
def partnerCarries (n : Node) (r : Nat) : Bool :=
  match n.duplex.hb with
  | some h => nbit h.head.inrole r
  | none => false

theorem carrierTimeout_eq (n : Node) (r : Nat) : carrierTimeout n r =
    if paired n ∧ n.duplex.posB ∧ r < 16 ∧ !nbit n.duplex.carried r ∧ !partnerCarries n r ∧ nbit (readyRanks n) r ∧
      16 ≤ tget 0 n.duplex.notReady r then setObserve (setCarrier n r true) else n := rfl

theorem acts_carrierTake {t r : Nat} {s : State} (hp : paired s.node = true) (hB : s.node.duplex.posB = true) (hr : r < 16)
    (hc : nbit s.node.duplex.carried r = false)
    (ht : partnerCarries s.node r = false)
    (hready : nbit (readyRanks s.node) r = true) (hlong : 16 ≤ tget 0 s.node.duplex.notReady r) :
    Acts (.carrierTakeTimeout t r) s t (fun n u =>
      SameButRecords u { n with duplex := u.duplex, ranks := u.ranks, acqs := u.acqs } ∧
      nbit u.duplex.carried r = true ∧ (∀ k, k ≠ r → nbit u.duplex.carried k = nbit n.duplex.carried k) ∧
      (rankOf u r).observe = false ∧ (4, 5) ∈ u.dueB) := by
  have hrun : carrierTimeout (atInstant s t) r = setObserve (setCarrier (atInstant s t) r true) :=
    (carrierTimeout_eq _ r).trans (if_pos ⟨hp, hB, hr, by rw [show nbit (atInstant s t).duplex.carried r = false from hc]; rfl,
      by rw [show partnerCarries (atInstant s t) r = false from ht]; rfl, hready, hlong⟩)
  refine acts_of_eq rfl hrun ?_
  generalize atInstant s t = n at *
  obtain ⟨hrec, hdpx, hdue⟩ := setCarrier_leaves n r true
  generalize setCarrier n r true = m at *
  have hcar : ∀ k, nbit m.duplex.carried k = if k = r then true else nbit n.duplex.carried k := fun k => by
    rw [hdpx]
    exact nbit_setBit _ r true k
  refine ⟨?_, ?_, fun k hk => ?_, ?_, hdue⟩
  · obtain ⟨q, l, h, d, w, he, hh⟩ := hrec
    have hset : setObserve m = { m with ranks := (setObserve m).ranks } := rfl
    generalize setObserve m = v at hset ⊢
    rw [he] at hset hh
    rw [hset]
    exact ⟨rfl, hh⟩
  · exact (hcar r).trans (if_pos rfl)
  · exact (hcar k).trans (if_neg hk)
  · show (rankOf (setObserve m) r).observe = false
    rw [rankOf_setObserve, hcar r, if_pos rfl]
    simp

theorem acts_carrierStands {t r : Nat} {s : State} (h : paired s.node = false ∨ s.node.duplex.posB = false ∨ 16 ≤ r ∨
      nbit s.node.duplex.carried r = true ∨
      partnerCarries s.node r = true ∨ tget 0 s.node.duplex.notReady r < 16) :
    Acts (.carrierTakeTimeout t r) s t (fun n u => SameButSignals u n) := by
  refine acts_same rfl ((carrierTimeout_eq _ r).trans (if_neg ?_))
  rintro ⟨h1, h2, h3, h4, h5, -, h7⟩
  rcases h with h | h | h | h | h | h
  · exact absurd (h1.symm.trans h) (by decide)
  · exact absurd (h2.symm.trans h) (by decide)
  · exact absurd h3 (Nat.not_lt_of_le h)
  · rw [show nbit (atInstant s t).duplex.carried r = true from h] at h4
    exact absurd h4 (by decide)
  · rw [show partnerCarries (atInstant s t) r = true from h] at h5
    exact absurd h5 (by decide)
  · exact absurd h7 (Nat.not_le_of_lt h)

/-! CLAMP -/

theorem stagesOff_leaves (l : List Nat) (n : Node) :
    l.foldl (fun n c => modStage n c (stageOff .standby)) n =
      { n with stages := (l.foldl (fun n c => modStage n c (stageOff .standby)) n).stages } ∧
    ∀ c, stageOf (l.foldl (fun n c => modStage n c (stageOff .standby)) n) c =
      if c ∈ l then stageOff .standby (stageOf n c) else stageOf n c := by
  induction l generalizing n with
  | nil => exact ⟨rfl, fun _ => rfl⟩
  | cons k r ih =>
    obtain ⟨h1, h2⟩ := ih (modStage n k (stageOff .standby))
    refine ⟨h1, fun c => ?_⟩
    rw [List.foldl_cons, h2 c]
    by_cases hk : c = k
    · subst hk
      rw [stageOf_modStage_self, if_pos List.mem_cons_self]
      split <;> rfl
    · rw [stageOf_modStage_ne n _ hk]
      simp only [List.mem_cons, hk, false_or]

theorem aoChs_of_regs {n u : Node} (h : u.regs = n.regs) : aoChs u = aoChs n := by
  have hao : isAo u = isAo n := funext fun ch => by simp only [isAo, chnSel, chnMode, reg_of_regs h]
  unfold aoChs activeChs
  rw [h, hao]

theorem acts_clampTimeout {t : Nat} {s : State} (hp : paired s.node = true) (hd : s.node.duplex.drive = .clamp)
    (hlate : s.node.duplex.clampAt + 3 * s.node.period ≤ max s.node.now t) :
    Acts (.clampTimeout t) s t (fun n u =>
      SameButRecords u { n with duplex := { n.duplex with drive := .off }, stages := u.stages } ∧
      ∀ c, stageOf u c = if c ∈ aoChs n then stageOff .standby (stageOf n c) else stageOf n c) := by
  refine acts_leaves rfl (fun u hu => ?_)
  have hrun : clampTimeout (atInstant s t) = (fun m => (aoChs m).foldl (fun n c => modStage n c (stageOff .standby)) m)
      ((fun k => note k (recDuplex k 3 2 0 k.duplex.swCause 0 (dpxStat k))) (modDpx (atInstant s t) (fun d => { d with drive := .off }))) :=
    if_pos ⟨hp, hd, hlate⟩
  rw [hrun] at hu
  generalize atInstant s t = n at hu ⊢
  dsimp only at hu
  have hk : modDpx n (fun d => { d with drive := .off }) = { n with duplex := { n.duplex with drive := .off } } := rfl
  generalize modDpx n (fun d => { d with drive := .off }) = k at hu hk
  have hrec := recFrame_note k (recDuplex k 3 2 0 k.duplex.swCause 0 (dpxStat k))
  generalize note k (recDuplex k 3 2 0 k.duplex.swCause 0 (dpxStat k)) = m at hu hrec
  obtain ⟨q, l, h, d, w, he, hh⟩ := hrec
  obtain ⟨hrest, hstage⟩ := stagesOff_leaves (aoChs m) m
  rw [← hu] at hrest hstage
  have hao : aoChs m = aoChs n := aoChs_of_regs (by rw [he, hk])
  have hst : ∀ c, stageOf m c = stageOf n c := fun c => by
    rw [he, hk]
    rfl
  refine ⟨?_, fun c => ?_⟩
  · rw [he, hk] at hrest
    rw [he, hk] at *
    rw [hrest]
    exact ⟨rfl, hh⟩
  · show stageOf u c = _
    rw [hstage, hao, hst]

theorem acts_clampStands {t : Nat} {s : State} (h : paired s.node = false ∨ s.node.duplex.drive ≠ .clamp ∨
      max s.node.now t < s.node.duplex.clampAt + 3 * s.node.period) : Acts (.clampTimeout t) s t (fun n u => SameButSignals u n) := by
  refine acts_same rfl (if_neg ?_)
  rintro ⟨h1, h2, h3⟩
  rcases h with h | h | h
  · exact absurd (h1.symm.trans h) (by decide)
  · exact h h2
  · exact absurd h3 (Nat.not_le_of_lt h)

/-- Settles O44: each event by the operation on the duplex part that it is, and the records after it. -/
theorem claimsAndRoles : Obligations.ClaimsAndRoles := by
  refine ⟨fun t l a b x y s => ⟨fun hp => ⟨acts_outputArbitration hp l, acts_timeArbitration hp l, acts_presencePulse hp a b x y⟩,
    fun hp => claims_single hp t l a b x y⟩, fun t r s => ?_⟩
  exact ⟨acts_carrierTake, acts_carrierStands, fun hp hd => ⟨acts_clampTimeout hp hd, fun hlt =>
    acts_clampStands (.inr (.inr hlt))⟩, fun h => acts_clampStands (h.imp_right .inl)⟩

end Sys2Proof.Machine
end

section
/-! PROOF. The 48 bytes of a heartbeat (12 R281, Table 12.5). -/

namespace Sys2Proof.Machine

/-! Numbers as bytes -/

theorem bytesLE_succ (k n : Nat) : bytesLE (k + 1) n = BitVec.ofNat 8 n :: bytesLE k (n / 256) := by
  unfold bytesLE
  rw [List.range_succ_eq_map, List.map_cons, List.map_map]
  congr 1
  · rw [Nat.pow_zero, Nat.div_one]
  · refine List.map_congr_left (fun i _ => ?_)
    show BitVec.ofNat 8 (n / 256 ^ (i + 1)) = BitVec.ofNat 8 (n / 256 / 256 ^ i)
    rw [Nat.div_div_eq_div_mul, Nat.pow_succ, Nat.mul_comm]

theorem numLE_bytesLE (k n : Nat) : numLE (bytesLE k n) = n % 256 ^ k := by
  induction k generalizing n with
  | zero => simp [bytesLE, numLE, Nat.mod_one]
  | succ k ih =>
    rw [bytesLE_succ, numLE, ih, BitVec.toNat_ofNat, Nat.pow_succ 256 k, Nat.mul_comm (256 ^ k) 256, Nat.mod_mul]

theorem numLE_bytesLE_of_lt {k n : Nat} (h : n < 256 ^ k) : numLE (bytesLE k n) = n := by
  rw [numLE_bytesLE, Nat.mod_eq_of_lt h]

/-! The CRC -/

theorem crcBit_lt {c : Nat} (h : c < 2 ^ 32) : crcBit c < 2 ^ 32 := by
  unfold crcBit
  have hhalf : c / 2 < 2 ^ 32 := Nat.lt_of_le_of_lt (Nat.div_le_self c 2) h
  split
  · exact Nat.xor_lt_two_pow hhalf (by decide)
  · exact hhalf

theorem crcByte_lt {c : Nat} (h : c < 2 ^ 32) (b : Byte) : crcByte c b < 2 ^ 32 := by
  have hb : b.toNat < 2 ^ 32 := Nat.lt_trans b.isLt (by decide)
  unfold crcByte
  exact crcBit_lt (crcBit_lt (crcBit_lt (crcBit_lt (crcBit_lt (crcBit_lt (crcBit_lt (crcBit_lt (Nat.xor_lt_two_pow h hb))))))))

theorem crc32c_lt (bs : List Byte) : crc32c bs < 2 ^ 32 := by
  have hfold : bs.foldl crcByte 0xFFFFFFFF < 2 ^ 32 :=
    List.foldlRecOn (motive := fun c => c < 2 ^ 32) bs crcByte (by decide) (fun c hc b _ => crcByte_lt hc b)
  exact Nat.xor_lt_two_pow hfold (by decide)

/-! The layout of Table 12.5 -/

/-- FLAGS. -/
def hbFlags (h : HbHead) : Nat :=
  packN [(b2n h.posA, 0, 1), (b2n h.ohold, 1, 1), (b2n h.thold, 2, 1), (b2n h.take, 3, 1), (b2n h.seen, 4, 1),
    (b2n h.plost, 5, 1), (b2n h.yield_, 6, 1), (b2n h.synced, 7, 1)]

theorem flags_bits : ∀ a b c d e f g h : Bool,
    let w := packN [(b2n a, 0, 1), (b2n b, 1, 1), (b2n c, 2, 1), (b2n d, 3, 1), (b2n e, 4, 1), (b2n f, 5, 1), (b2n g, 6, 1), (b2n h, 7, 1)]
    w < 256 ∧ nbit w 0 = a ∧ nbit w 1 = b ∧ nbit w 2 = c ∧ nbit w 3 = d ∧ nbit w 4 = e ∧ nbit w 5 = f ∧ nbit w 6 = g ∧ nbit w 7 = h := by
  decide +kernel

theorem length_hbBody (h : HbHead) : (hbBody h).length = 44 := by simp [hbBody]

theorem length_hbBytes (h : HbHead) : (hbBytes h).length = 48 := by simp [hbBytes, length_hbBody]

theorem hbGood_hbBytes (h : HbHead) : hbGood (hbBytes h) = true := by
  have hdrop : (hbBytes h).drop 44 = bytesLE 4 (crc32c (hbBody h)) := List.drop_left' (length_hbBody h)
  have htake : (hbBytes h).take 44 = hbBody h := List.take_left' (length_hbBody h)
  unfold hbGood
  rw [hdrop, htake, numLE_bytesLE_of_lt (crc32c_lt _), length_hbBytes]
  simp

/-- A field of a list that begins at o, and what begins after it. -/
theorem field_of_drop {α : Type} {l x r : List α} {o k : Nat} (h : l.drop o = x ++ r) (hx : x.length = k) :
    (l.drop o).take k = x ∧ l.drop (o + k) = r := by
  rw [← List.drop_drop, h]
  exact ⟨List.take_left' hx, List.drop_left' hx⟩

theorem hbBytes_fields (h : HbHead) :
    ((hbBytes h).drop 0).take 8 = bytesLE 8 h.frame ∧ ((hbBytes h).drop 8).take 2 = bytesLE 2 h.oclaim ∧
    ((hbBytes h).drop 10).take 2 = bytesLE 2 h.tclaim ∧ ((hbBytes h).drop 12).take 1 = bytesLE 1 (hbFlags h) ∧
    ((hbBytes h).drop 13).take 1 = bytesLE 1 h.drive ∧ ((hbBytes h).drop 14).take 1 = bytesLE 1 h.lines ∧
    ((hbBytes h).drop 15).take 1 = bytesLE 1 h.lstate ∧ ((hbBytes h).drop 16).take 4 = bytesLE 4 h.check.toNat ∧
    ((hbBytes h).drop 20).take 2 = bytesLE 2 h.fw ∧ ((hbBytes h).drop 22).take 2 = bytesLE 2 h.inrole ∧
    ((hbBytes h).drop 24).take 8 = bytesLE 8 h.stime ∧ ((hbBytes h).drop 32).take 12 = List.replicate 12 0 := by
  have hrow : (hbBytes h).drop 0 = bytesLE 8 h.frame ++ (bytesLE 2 h.oclaim ++ (bytesLE 2 h.tclaim ++ (bytesLE 1 (hbFlags h) ++
      (bytesLE 1 h.drive ++ (bytesLE 1 h.lines ++ (bytesLE 1 h.lstate ++ (bytesLE 4 h.check.toNat ++ (bytesLE 2 h.fw ++
      (bytesLE 2 h.inrole ++ (bytesLE 8 h.stime ++ (List.replicate 12 0 ++ bytesLE 4 (crc32c (hbBody h))))))))))))) := by
    rw [List.drop_zero, hbBytes]
    generalize crc32c (hbBody h) = c
    simp only [hbBody, hbFlags, List.append_assoc]
  obtain ⟨f0, hrow⟩ := field_of_drop hrow (length_bytesLE 8 _)
  obtain ⟨f1, hrow⟩ := field_of_drop hrow (length_bytesLE 2 _)
  obtain ⟨f2, hrow⟩ := field_of_drop hrow (length_bytesLE 2 _)
  obtain ⟨f3, hrow⟩ := field_of_drop hrow (length_bytesLE 1 _)
  obtain ⟨f4, hrow⟩ := field_of_drop hrow (length_bytesLE 1 _)
  obtain ⟨f5, hrow⟩ := field_of_drop hrow (length_bytesLE 1 _)
  obtain ⟨f6, hrow⟩ := field_of_drop hrow (length_bytesLE 1 _)
  obtain ⟨f7, hrow⟩ := field_of_drop hrow (length_bytesLE 4 _)
  obtain ⟨f8, hrow⟩ := field_of_drop hrow (length_bytesLE 2 _)
  obtain ⟨f9, hrow⟩ := field_of_drop hrow (length_bytesLE 2 _)
  obtain ⟨f10, hrow⟩ := field_of_drop hrow (length_bytesLE 8 _)
  obtain ⟨f11, -⟩ := field_of_drop hrow List.length_replicate
  exact ⟨f0, f1, f2, f3, f4, f5, f6, f7, f8, f9, f10, f11⟩

/-- The fields of a heartbeat as it was sent. -/
theorem hbFields_hbBytes {e : HbHead} (h1 : e.frame < 2 ^ 64) (h2 : e.oclaim < 2 ^ 16) (h3 : e.tclaim < 2 ^ 16) (h4 : e.drive < 2 ^ 8)
    (h5 : e.lines < 2 ^ 8) (h6 : e.lstate < 2 ^ 8) (h7 : e.fw < 2 ^ 16) (h8 : e.inrole < 2 ^ 16) (h9 : e.stime < 2 ^ 64) :
    hbFields (hbBytes e) = e := by
  obtain ⟨f0, f1, f2, f3, f4, f5, f6, f7, f8, f9, f10, -⟩ := hbBytes_fields e
  obtain ⟨hlt, b0, b1, b2, b3, b4, b5, b6, b7⟩ := flags_bits e.posA e.ohold e.thold e.take e.seen e.plost e.yield_ e.synced
  have hflags : numLE (bytesLE 1 (hbFlags e)) = hbFlags e := numLE_bytesLE_of_lt hlt
  unfold hbFields
  dsimp only
  rw [f0, f1, f2, f3, f4, f5, f6, f7, f8, f9, f10, hflags, numLE_bytesLE_of_lt h1, numLE_bytesLE_of_lt h2, numLE_bytesLE_of_lt h3,
    numLE_bytesLE_of_lt h4, numLE_bytesLE_of_lt h5, numLE_bytesLE_of_lt h6, numLE_bytesLE_of_lt e.check.isLt,
    numLE_bytesLE_of_lt h7, numLE_bytesLE_of_lt h8, numLE_bytesLE_of_lt h9, BitVec.ofNat_toNat, BitVec.setWidth_eq]
  unfold hbFlags
  rw [b0, b1, b2, b3, b4, b5, b6, b7]

end Sys2Proof.Machine
end

section
/-! PROOF. What the discipline of the time base leaves of the node (03 R64 to R71, R84). -/

namespace Sys2Proof.Machine

/-- From n to u the time base, node time, the free values and what records change differ, and nothing else. -/
def TimeOnly (n u : Node) : Prop :=
  (∃ r l h d q, u = { n with
      tb := u.tb, taiOff := u.taiOff, slewFrom := u.slewFrom, slewBy := u.slewBy, free := u.free,
      rec_ := r, config := { n.config with log := l }, headers := h, dueB := d, power := { n.power with sure := q } } ∧
    ∀ p, p ≠ 6 → tget {} h p = tget {} n.headers p) ∧ n.dueB <+: u.dueB

theorem TimeOnly.refl (n : Node) : TimeOnly n n := ⟨⟨_, _, _, _, _, rfl, fun _ _ => rfl⟩, List.prefix_rfl⟩

theorem TimeOnly.trans {a b c : Node} (h : TimeOnly a b) (k : TimeOnly b c) : TimeOnly a c := by
  obtain ⟨⟨r, l, hd, d, q, hb, hh⟩, hp⟩ := h
  obtain ⟨⟨r', l', hd', d', q', hc, hh'⟩, hp'⟩ := k
  refine ⟨?_, hp.trans hp'⟩
  rw [hb] at hc hh'
  exact ⟨r', l', hd', d', q', hc, fun p hne => (hh' p hne).trans (hh p hne)⟩

theorem timeOnly_ite {p : Prop} [Decidable p] {n a b : Node} (ha : TimeOnly n a) (hb : TimeOnly n b) : TimeOnly n (if p then a else b) :=
  pred_ite ha hb

theorem timeOnly_note (n : Node) (r : Rec) : TimeOnly n (note n r) := by
  obtain ⟨q, l, h, d, x, hu, hh⟩ := recFrame_note n r
  have hdue := dueB_note n r
  generalize note n r = u at hu hdue
  subst hu
  exact ⟨⟨q, l, h, d, x, rfl, hh⟩, hdue⟩

theorem timeOnly_raiseB (n : Node) (p b : Nat) : TimeOnly n (raiseB n p b) :=
  ⟨⟨_, _, _, _, _, rfl, fun _ _ => rfl⟩, List.prefix_append _ _⟩

theorem timeOnly_modTb (n : Node) (f : TimeBase → TimeBase) : TimeOnly n (modTb n f) :=
  ⟨⟨_, _, _, _, _, rfl, fun _ _ => rfl⟩, List.prefix_rfl⟩

theorem timeOnly_modSource (n : Node) (s : TimeSrc) (f : Source → Source) : TimeOnly n (modSource n s f) := timeOnly_modTb n _

theorem timeOnly_stopSlew (n : Node) : TimeOnly n (stopSlew n) := by
  have hramp : TimeOnly n (endRamp n) := ⟨⟨_, _, _, _, _, rfl, fun _ _ => rfl⟩, List.prefix_rfl⟩
  exact hramp.trans (timeOnly_modTb _ _)

theorem timeOnly_takeFreq (n : Node) : TimeOnly n (takeFreq n) := ⟨⟨_, _, _, _, _, rfl, fun _ _ => rfl⟩, List.prefix_rfl⟩

theorem timeOnly_setFar (n : Node) (off : Int) : TimeOnly n (setFar n off) :=
  ((timeOnly_modTb n _).trans (timeOnly_note _ _)).trans (timeOnly_raiseB _ _ _)

theorem timeOnly_enterLocked (n : Node) (s : TimeSrc) : TimeOnly n (enterLocked n s) :=
  timeOnly_ite (timeOnly_modTb n _) (((timeOnly_modTb n _).trans (timeOnly_note _ _)).trans (timeOnly_raiseB _ _ _))

theorem timeOnly_startSlew (n : Node) (off : Int) : TimeOnly n (startSlew n off) := by
  unfold startSlew
  extract_lets rest
  exact timeOnly_modTb n _

theorem timeOnly_useOffset (n : Node) (s : TimeSrc) (off : Int) : TimeOnly n (useOffset n s off) := by
  unfold useOffset
  extract_lets a b c
  have ha : TimeOnly n a := (timeOnly_modTb n _).trans (timeOnly_takeFreq _)
  clear_value a
  refine ha.trans (timeOnly_ite ?_ (timeOnly_ite ?_ ?_))
  · exact ((timeOnly_modTb a _).trans (timeOnly_enterLocked b s)).trans (timeOnly_startSlew _ off)
  · exact (timeOnly_stopSlew a).trans (timeOnly_ite (timeOnly_modTb c _) (timeOnly_setFar c off))
  · exact (timeOnly_stopSlew a).trans (timeOnly_modTb _ _)

theorem timeOnly_selectSource (n : Node) (s : TimeSrc) : TimeOnly n (selectSource n s) := by
  unfold selectSource
  extract_lets x st a b c
  exact (((timeOnly_modTb n _).trans (timeOnly_note a _)).trans (timeOnly_raiseB b _ _)).trans (timeOnly_useOffset c s _)

theorem timeOnly_afterMeasure (n : Node) (s : TimeSrc) : TimeOnly n (afterMeasure n s) := by
  unfold afterMeasure
  refine timeOnly_ite ((timeOnly_modTb n _).trans (timeOnly_useOffset _ _ _)) ?_
  split
  · exact timeOnly_selectSource n _
  · exact TimeOnly.refl n

theorem timeOnly_enterHoldover (n : Node) : TimeOnly n (enterHoldover n) := by
  rw [enterHoldover_eq]
  have hhold : TimeOnly n (holding n) := by
    unfold holding
    extract_lets f
    exact (timeOnly_stopSlew n).trans (timeOnly_modTb _ _)
  exact (hhold.trans (timeOnly_note _ _)).trans (timeOnly_raiseB _ _ _)

theorem timeOnly_leaveSource (n : Node) : TimeOnly n (leaveSource n) := by
  unfold leaveSource
  split
  · exact timeOnly_selectSource n _
  · exact timeOnly_ite (timeOnly_modTb n _) (timeOnly_enterHoldover n)

theorem timeOnly_loseSource (n : Node) (s : TimeSrc) : TimeOnly n (loseSource n s) := by
  have hlost : TimeOnly n (lost n s) := by
    obtain ⟨hrest, -⟩ := lost_rest n s
    generalize (lost n s).tb = t at hrest
    rw [hrest]
    exact timeOnly_modTb n (fun _ => t)
  rw [loseSource_eq]
  exact timeOnly_ite (hlost.trans (timeOnly_leaveSource _)) hlost

theorem timeOnly_partnerTime (n : Node) (h : HbHead) (delay : Nat) : TimeOnly n (partnerTime n h delay) := by
  unfold partnerTime
  refine timeOnly_ite (TimeOnly.refl n) ?_
  extract_lets vote off a
  exact ((timeOnly_modSource n _ _).trans (timeOnly_modSource a _ _)).trans (timeOnly_afterMeasure _ _)

/-! What the partner's state brings -/

/-- The duplex part, but for the comparison of results, and what the holder's state brings stand. -/
structure PairKept (n u : Node) : Prop where
  dpx : u.duplex = { n.duplex with pmm := u.duplex.pmm }
  state : (u.points, u.groups, u.call, u.stations, u.regs) = (n.points, n.groups, n.call, n.stations, n.regs)

theorem PairKept.refl (n : Node) : PairKept n n := ⟨rfl, rfl⟩

theorem PairKept.trans {a b c : Node} (h : PairKept a b) (k : PairKept b c) : PairKept a c := by
  refine ⟨?_, k.state.trans h.state⟩
  have hk := k.dpx
  rw [h.dpx] at hk
  exact hk

theorem pairKept_ite {p : Prop} [Decidable p] {n a b : Node} (ha : PairKept n a) (hb : PairKept n b) : PairKept n (if p then a else b) :=
  pred_ite ha hb

theorem pairKept_foldl {α : Type} {f : Node → α → Node} (h : ∀ n x, PairKept n (f n x)) (l : List α) (n : Node) :
    PairKept n (l.foldl f n) := foldl_rel PairKept.refl PairKept.trans h l n

theorem pairKept_of_rec {n u : Node} (h : RecFrame n u) : PairKept n u := by
  obtain ⟨r, l, hd, d, q, hu, -⟩ := h
  rw [hu]
  exact ⟨rfl, rfl⟩

theorem TimeOnly.pairKept {n u : Node} (h : TimeOnly n u) : PairKept n u := by
  obtain ⟨⟨r, l, hd, d, q, hu, -⟩, -⟩ := h
  generalize u.tb = t at hu
  generalize u.taiOff = a at hu
  generalize u.slewFrom = b at hu
  generalize u.slewBy = c at hu
  generalize u.free = e at hu
  rw [hu]
  exact ⟨rfl, rfl⟩

theorem pairKept_note (n : Node) (r : Rec) : PairKept n (note n r) := pairKept_of_rec (recFrame_note n r)

theorem pairKept_raiseBIf (c : Bool) (n : Node) (p b : Nat) : PairKept n (raiseBIf c n p b) := pairKept_ite ⟨rfl, rfl⟩ (PairKept.refl n)

theorem pairKept_raiseRIf (c : Bool) (n : Node) (p b : Nat) : PairKept n (raiseRIf c n p b) := pairKept_ite ⟨rfl, rfl⟩ (PairKept.refl n)

theorem pairKept_riseAo (n : Node) (ch stat : Nat) : PairKept n (riseAo n ch stat) := by
  unfold riseAo
  exact pairKept_ite (pairKept_foldl (fun m b => pairKept_raiseBIf _ m _ b) _ n) (PairKept.refl n)

theorem pairKept_observeResult (n : Node) (r : PeerResult) : PairKept n (observeResult n r) := by
  unfold observeResult
  extract_lets stat
  refine pairKept_ite (PairKept.refl n) (pairKept_ite (pairKept_ite (PairKept.refl n) ?_) (pairKept_ite (PairKept.refl n)
    (pairKept_ite ⟨rfl, rfl⟩ (pairKept_ite ⟨rfl, rfl⟩ (PairKept.refl n)))))
  exact (pairKept_riseAo n r.ch stat).trans ⟨rfl, rfl⟩

theorem pairKept_compareResult (n : Node) (r : PeerResult) : PairKept n (compareResult n r) := by
  unfold compareResult
  split
  · exact PairKept.refl n
  · refine pairKept_ite (PairKept.refl n) ?_
    extract_lets diff lim c run agree set m
    have hm : PairKept n m := ⟨rfl, rfl⟩
    exact hm.trans (pairKept_ite (PairKept.refl m) (pairKept_of_rec (recFrame_trans (recFrame_note m _) (recFrame_raiseB _ _ _))))

end Sys2Proof.Machine
end

section
/-! PROOF. A heartbeat sent, and one received with the state that follows it (12 R281 to R284, 06 R141). -/

namespace Sys2Proof.Machine

/-! Captures, as records -/

theorem recFrame_flushCapture (n : Node) (d : Nat) : RecFrame n (flushCapture n d) := by
  unfold flushCapture
  refine foldl_rel recFrame_refl recFrame_trans (fun m e => ?_) _ n
  refine recFrame_trans (foldl_rel recFrame_refl recFrame_trans (fun k q => ?_) _ m) (recFrame_modCap _ d _)
  exact recFrame_trans (recFrame_note k _) (recFrame_modCap _ d _)

theorem recFrame_triggerCap (n : Node) (d kind t : Nat) : RecFrame n (triggerCap n d kind t) := by
  unfold triggerCap
  refine recFrame_ite (recFrame_refl n) ?_
  extract_lets sl slots nparts payload m k
  exact recFrame_trans (recFrame_trans (recFrame_trans (recFrame_modCap n d _) (recFrame_note m _)) (recFrame_flushCapture k d))
    (recFrame_raiseB _ 6 0)

theorem recFrame_tripped (n : Node) (s cause time : Nat) : RecFrame n (tripped n s cause time) := by
  unfold tripped
  extract_lets m
  refine recFrame_trans (recFrame_note n _) (foldl_rel recFrame_refl recFrame_trans (fun k d => ?_) _ m)
  exact recFrame_ite (recFrame_triggerCap k d 2 time) (recFrame_refl k)

/-! What a module takes from the holder -/

theorem pairKept_raiseR (n : Node) (p b : Nat) : PairKept n (raiseR n p b) := ⟨rfl, rfl⟩

theorem pairKept_adoptPoint (new : Tbl Point) (n : Node) (k : Nat) : PairKept n (adoptPoint new n k) := by
  unfold adoptPoint
  extract_lets a b rec_ n1 n2 n3 n4 n5
  have hrec : ∀ m e x y, PairKept m (rec_ m e x y) := fun m _ _ _ => pairKept_note m _
  have h1 : PairKept n n1 := pairKept_ite (PairKept.refl n) (hrec n _ _ _)
  have h2 : PairKept n1 n2 := pairKept_ite (PairKept.refl n1) ((hrec n1 _ _ _).trans (pairKept_raiseR _ _ _))
  have h3 : PairKept n2 n3 := pairKept_raiseRIf _ n2 _ _
  have h4 : PairKept n3 n4 := pairKept_raiseRIf _ n3 _ _
  have h5 : PairKept n4 n5 := pairKept_ite (pairKept_ite ⟨rfl, rfl⟩ (PairKept.refl n4)) (PairKept.refl n4)
  exact ((((h1.trans h2).trans h3).trans h4).trans h5).trans (pairKept_ite ⟨rfl, rfl⟩ (PairKept.refl n5))

theorem pairKept_adoptGroup (new : Tbl AlmGroup) (n : Node) (g : Nat) : PairKept n (adoptGroup new n g) := by
  unfold adoptGroup
  extract_lets a b n1 n2 n3
  have h1 : PairKept n n1 := pairKept_raiseRIf _ n _ _
  have h2 : PairKept n1 n2 := pairKept_raiseRIf _ n1 _ _
  have h3 : PairKept n2 n3 := by
    refine pairKept_ite (PairKept.refl n2) ?_
    exact (pairKept_ite (pairKept_note n2 _) (PairKept.refl n2)).trans (pairKept_raiseR _ _ _)
  have hall := (h1.trans h2).trans h3
  clear_value n3
  split
  · exact hall.trans (pairKept_ite (PairKept.refl n3) ((pairKept_note n3 _).trans (pairKept_raiseR _ _ _)))
  · exact hall

theorem pairKept_pointTriggers (n : Node) (k : Nat) : PairKept n (pointTriggers n k) :=
  pairKept_foldl (f := fun n d => if fld (capCfg n d) 25 24 = 1 ∧ fld (capCfg n d) 20 8 = k then triggerCap n d 1 (pointOf n k).time else n)
    (fun m d => pairKept_ite (pairKept_of_rec (recFrame_triggerCap m d 1 _)) (PairKept.refl m)) (List.range 8) n

theorem adoptAlarms_leaves (n : Node) (points : Tbl Point) (groups : Tbl AlmGroup) (fos : List RemoteFo) :
    (adoptAlarms n points groups fos).duplex = { n.duplex with pmm := (adoptAlarms n points groups fos).duplex.pmm } ∧
    (adoptAlarms n points groups fos).points = points ∧ (adoptAlarms n points groups fos).groups = groups := by
  unfold adoptAlarms
  extract_lets ks gs risen m
  have hm : PairKept n m := (pairKept_foldl (pairKept_adoptPoint points) ks n).trans (pairKept_foldl (pairKept_adoptGroup groups) gs _)
  have hend : PairKept { m with points := points, groups := groups, remoteFos := fos }
      (countAlarms (risen.foldl pointTriggers { m with points := points, groups := groups, remoteFos := fos })) :=
    (pairKept_foldl pairKept_pointTriggers risen _).trans ⟨rfl, rfl⟩
  generalize countAlarms (risen.foldl pointTriggers { m with points := points, groups := groups, remoteFos := fos }) = u at hend ⊢
  obtain ⟨hd, hs⟩ := hend
  simp only [Prod.mk.injEq] at hs
  obtain ⟨h1, h2, -⟩ := hs
  exact ⟨(hm.trans ⟨hd, rfl⟩ : PairKept n { m with duplex := u.duplex }).dpx, h1, h2⟩

/-- The duplex part, the points and the groups stand. -/
def CallTaken (n u : Node) : Prop := (u.duplex, u.points, u.groups) = (n.duplex, n.points, n.groups)

theorem CallTaken.trans {a b c : Node} (h : CallTaken a b) (k : CallTaken b c) : CallTaken a c := Eq.trans k h

theorem callTaken_ite {p : Prop} [Decidable p] {n a b : Node} (ha : CallTaken n a) (hb : CallTaken n b) : CallTaken n (if p then a else b) :=
  pred_ite ha hb

theorem callTaken_note (n : Node) (r : Rec) : CallTaken n (note n r) := by
  obtain ⟨q, l, h, d, x, hu, -⟩ := recFrame_note n r
  rw [hu]
  rfl

theorem callTaken_told (n : Node) (r : Rec) (p b : Nat) : CallTaken n (raiseR (note n r) p b) := callTaken_note n r

theorem adoptCall_leaves (n : Node) (c : Call) (sts : Tbl Station) (duty : Nat) (took : Bool) :
    CallTaken n (adoptCall n c sts duty took) ∧ (adoptCall n c sts duty took).call = c ∧ (adoptCall n c sts duty took).stations = sts := by
  unfold adoptCall
  extract_lets a n1 n2 n3 n4 n5
  have h1 : CallTaken n n1 := by
    refine callTaken_ite rfl ?_
    exact CallTaken.trans rfl (callTaken_told _ _ _ _)
  have h2 : CallTaken n1 n2 := callTaken_ite rfl (callTaken_told n1 _ _ _)
  have h3 : CallTaken n2 n3 := by
    refine foldl_rel (R := CallTaken) (fun _ => rfl) CallTaken.trans (fun m k => ?_) _ n2
    exact callTaken_ite rfl (callTaken_told m _ _ _)
  have h4 : CallTaken n3 n4 := callTaken_ite rfl (callTaken_told n3 _ _ _)
  have h5 : CallTaken n4 n5 := callTaken_ite (callTaken_told n4 _ _ _) rfl
  have hall := (((h1.trans h2).trans h3).trans h4).trans h5
  clear_value n5
  unfold setDuty
  dsimp only
  split
  · exact ⟨hall, rfl, rfl⟩
  · generalize hd : setReg { n5 with call := c, stations := sts } (at_ 7 0x58) (BitVec.ofNat 32 duty) = k
    have hk : CallTaken n5 k ∧ k.call = c ∧ k.stations = sts := by
      rw [← hd]
      exact ⟨rfl, rfl, rfl⟩
    refine ⟨(hall.trans hk.1).trans (callTaken_told { k with config := { k.config with dirty := true } } _ _ _), ?_, ?_⟩
    · simp only [raiseR_call, note_call]
      exact hk.2.1
    · simp only [raiseR_stations, note_stations]
      exact hk.2.2

theorem pairKept_raiseFn (n : Node) (old new : SfState) : PairKept n (raiseFn n old new) := by
  have h := pairKept_raiseRIf (decide (old ≠ new)) n 8 0
  unfold raiseFn
  generalize raiseRIf (decide (old ≠ new)) n 8 0 = m at h
  cases new with
  | locked => exact h.trans (pairKept_raiseR m 8 3)
  | tripped => exact h.trans (pairKept_raiseR m 8 2)
  | active => exact h.trans (pairKept_raiseR m 8 1)
  | _ => exact h

theorem pairKept_adoptFns (n : Node) (h : Heartbeat) : PairKept n (adoptFns n h) := by
  unfold adoptFns
  extract_lets new changed risen n1 n2
  have h1 : PairKept n n1 := pairKept_foldl (fun m s => pairKept_raiseFn m _ _) changed n
  have h2 : PairKept n1 n2 := ⟨rfl, rfl⟩
  exact (h1.trans h2).trans (pairKept_foldl (fun m s => pairKept_of_rec (recFrame_tripped m s _ _)) risen n2)

theorem pairKept_of_saf {n u : Node} (h : SafFrame n u) : PairKept n u := by
  rw [SafFrame] at h
  rw [h]
  exact ⟨rfl, rfl⟩

theorem pairKept_adoptSafety (n : Node) (h : Heartbeat) : PairKept n (adoptSafety n h) := by
  unfold adoptSafety
  extract_lets n1 n2
  have h1 : PairKept n n1 := pairKept_ite (pairKept_adoptFns n h) (PairKept.refl n)
  have h2 : PairKept n1 n2 := by
    refine pairKept_foldl (fun m k => ?_) _ n1
    extract_lets p x pg m1 m2 m3
    have k1 : PairKept m m1 := (pairKept_raiseRIf _ m _ _).trans (pairKept_raiseRIf _ _ _ _)
    have k2 : PairKept m1 m2 := pairKept_of_saf (safFrame_foldl (fun a c => safFrame_modEval a c k _) _ m1)
    have k3 : PairKept m2 m3 := ⟨rfl, rfl⟩
    exact ((k1.trans k2).trans k3).trans (pairKept_ite (PairKept.refl m3) (pairKept_note m3 _))
  refine (h1.trans h2).trans (pairKept_foldl (fun m o => ?_) _ n2)
  extract_lets y x m1 m2 m3
  have k1 : PairKept m m1 := (pairKept_raiseBIf _ m _ _).trans (pairKept_raiseBIf _ _ _ _)
  have k2 : PairKept m1 m2 := ⟨rfl, rfl⟩
  have k3 : PairKept m2 m3 := pairKept_ite (PairKept.refl m2) (pairKept_note m2 _)
  exact ((k1.trans k2).trans k3).trans (pairKept_ite (PairKept.refl m3) (pairKept_note m3 _))

/-- The holder's state, as it is taken. -/
theorem adoptState_leaves (n : Node) (h : Heartbeat) : (adoptState n h).duplex = { n.duplex with pmm := (adoptState n h).duplex.pmm } ∧
    (adoptState n h).points = h.points ∧ (adoptState n h).groups = h.groups ∧ (adoptState n h).call = h.call ∧
    (adoptState n h).stations = h.stations := by
  unfold adoptState
  extract_lets took a b c
  obtain ⟨ha, hap, hag⟩ := adoptAlarms_leaves n h.points h.groups h.remoteFos
  obtain ⟨hb, hbc, hbs⟩ := adoptCall_leaves a h.call h.stations h.duty took
  have hc : PairKept b c := pairKept_foldl (f := fun n e => modStage n e.1 (fun s => { s with set := e.2, pend := [] }))
    (fun _ _ => ⟨rfl, rfl⟩) h.sets b
  have hend := hc.trans (pairKept_adoptSafety c h)
  simp only [CallTaken, Prod.mk.injEq] at hb
  obtain ⟨hb1, hb2, hb3⟩ := hb
  have hs := hend.state
  simp only [Prod.mk.injEq] at hs
  obtain ⟨h1, h2, h3, h4, -⟩ := hs
  refine ⟨?_, h1.trans (hb2.trans hap), h2.trans (hb3.trans hag), h3.trans hbc, h4.trans hbs⟩
  have hd := hend.dpx
  have hbd : b.duplex = a.duplex := hb1
  have had : a.duplex = { n.duplex with pmm := a.duplex.pmm } := ha
  rw [hbd, had] at hd
  exact hd

end Sys2Proof.Machine
end

section
/-! PROOF. Heartbeats are sent, checked and missed (12 R281, R282, R284). -/

namespace Sys2Proof.Machine

/-! Sent -/

/-- The head of the heartbeat that a module sends. -/
def hbHead (n : Node) : HbHead :=
  { frame := n.frame, oclaim := n.duplex.claim, tclaim := n.duplex.tclaim, posA := !n.duplex.posB, ohold := n.duplex.ohold,
    thold := n.duplex.thold, take := takeNow n, seen := n.duplex.seen.contains n.duplex.prevFrame, plost := n.duplex.plost,
    yield_ := n.duplex.yield_, synced := syncedNow n, drive := driveCode n.duplex.drive,
    lines := n.duplex.lineA.oRes + 4 * n.duplex.lineB.oRes, lstate := n.laneSt.state, check := n.config.check,
    fw := 256 + Config.fwMinor.toNat, inrole := n.duplex.carried, stime := n.sampleT }

/-- A TAKE that the heartbeat sets is kept. -/
def takeKept (n : Node) : Node :=
  { n with duplex := { n.duplex with takes := if takeNow n then n.duplex.takes ++ [n.frame] else n.duplex.takes } }

theorem dpxSend_eq {n : Node} (hp : paired n = true) (hv : n.laneSt.voted = true) :
    dpxSend n = emit (takeKept n) (.hb (hbBytes (hbHead n)) (dpxMessage (takeKept n))) := by
  have hrun : dpxSend n = (fun m => emit m (.hb (hbBytes (hbHead n)) (dpxMessage m)))
      (if takeNow n then modDpx n (fun d => { d with takes := d.takes ++ [n.frame] }) else n) := by
    unfold dpxSend
    rw [hp, hv, if_neg (by decide)]
    rfl
  have hkept : (if takeNow n then modDpx n (fun d => { d with takes := d.takes ++ [n.frame] }) else n) = takeKept n := by
    unfold takeKept
    split <;> rfl
  rw [hrun, hkept]

theorem acts_heartbeatSend {t : Nat} {s : State} (hp : paired s.node = true) (hv : s.node.laneSt.voted = true) :
    Acts (.heartbeatSend t) s t (fun n u =>
      SameButSignals u { n with duplex := { n.duplex with takes := if takeNow n then n.duplex.takes ++ [n.frame] else n.duplex.takes } } ∧
      ∃ (e : HbHead) (h : PeerState), .hb (hbBytes e) h ∈ u.outs ∧ e.frame = n.frame ∧ e.oclaim = n.duplex.claim ∧
        e.tclaim = n.duplex.tclaim ∧ e.posA = !n.duplex.posB ∧
        e.ohold = n.duplex.ohold ∧ e.thold = n.duplex.thold ∧ e.take = takeNow n ∧ e.seen = n.duplex.seen.contains n.duplex.prevFrame ∧
        e.plost = n.duplex.plost ∧ e.yield_ = n.duplex.yield_ ∧ e.synced = syncedNow n ∧ e.drive = driveCode n.duplex.drive ∧
        e.lines = n.duplex.lineA.oRes + 4 * n.duplex.lineB.oRes ∧ e.lstate = n.laneSt.state ∧ e.inrole = n.duplex.carried ∧
        e.check = n.config.check ∧ e.stime = n.sampleT ∧
        h.ready = readyRanks n ∧ h.souts = n.safety.outs ∧
        (n.duplex.ohold = true → h.points = n.points ∧ h.groups = n.groups ∧ h.call = n.call ∧ h.stations = n.stations ∧
          h.fns = n.safety.fns ∧ h.pairs = n.safety.pairs ∧ h.sets = (aoChs n).map (fun c => (c, (stageOf n c).set)))) := by
  refine acts_of_eq rfl (dpxSend_eq (n := atInstant s t) hp hv) ?_
  generalize atInstant s t = n
  refine ⟨rfl, hbHead n, dpxMessage (takeKept n), mem_outs_settle (List.mem_append_right _ (List.mem_singleton_self _)), rfl, rfl, rfl,
    rfl, rfl, rfl, rfl, rfl, rfl, rfl, rfl, rfl, rfl, rfl, rfl, rfl, rfl, ?_⟩
  have hmsg : ∀ m : Node, (dpxMessage m).ready = readyRanks m ∧ (dpxMessage m).souts = m.safety.outs := fun m => by
    unfold dpxMessage
    dsimp only
    split <;> exact ⟨rfl, rfl⟩
  refine ⟨(hmsg _).1, (hmsg _).2, fun ho => ?_⟩
  have hhold : (takeKept n).duplex.ohold = true := ho
  unfold dpxMessage
  dsimp only
  rw [if_pos hhold]
  exact ⟨rfl, rfl, rfl, rfl, rfl, rfl, rfl⟩

/-! Received -/

theorem modXl_dpx (n : Node) (i : Nat) (f : XLink → XLink) : modXl n i f =
    { n with duplex := { n.duplex with x0 := (modXl n i f).duplex.x0, x1 := (modXl n i f).duplex.x1 } } := by
  unfold modXl
  split <;> rfl

theorem xlOf_of_links {n u : Node} (h0 : u.duplex.x0 = n.duplex.x0) (h1 : u.duplex.x1 = n.duplex.x1) (i : Nat) : xlOf u i = xlOf n i := by
  unfold xlOf
  rw [h0, h1]

/-- The heartbeat of the frame is kept, with what its head tells. -/
def hbTaken (k : Node) (h : Heartbeat) : Node :=
  modDpx k (fun d => { d with
    hb := some h, pclaim := h.head.oclaim, ptclaim := h.head.tclaim, addrA := if h.head.posA then some h.addr else d.addrA,
    seen := (if h.head.take then d.seen ++ [k.frame] else d.seen).drop ((d.seen.length + 1) - 4) })

theorem takeHeartbeat_eq {k : Node} (h : Heartbeat) (delay : Nat) (hno : hbOf k k.frame = none) : takeHeartbeat k delay h =
    (fun m => h.results.foldl compareResult (h.results.foldl observeResult (if follows m then adoptState m h else m)))
      (partnerTime (hbTaken k h) h.head delay) := by
  unfold takeHeartbeat
  rw [hno]
  rfl

theorem mem_seen {l : List Nat} {f : Nat} : f ∈ (l ++ [f]).drop ((l.length + 1) - 4) := by
  rw [List.drop_append_of_le_length (by omega)]
  exact List.mem_append_right _ (List.mem_singleton_self f)

/-- What the first good copy of the frame leaves. -/
theorem takeHeartbeat_leaves {k : Node} (h : Heartbeat) (delay : Nat) (hno : hbOf k k.frame = none) (hp : paired k = true) :
    (takeHeartbeat k delay h).duplex = { (hbTaken k h).duplex with pmm := (takeHeartbeat k delay h).duplex.pmm } ∧
    (k.duplex.ohold = true ∨ h.head.ohold = false →
      (takeHeartbeat k delay h).points = k.points ∧ (takeHeartbeat k delay h).call = k.call ∧ (takeHeartbeat k delay h).regs = k.regs) ∧
    (k.duplex.ohold = false → h.head.ohold = true →
      (takeHeartbeat k delay h).points = h.points ∧ (takeHeartbeat k delay h).groups = h.groups ∧
      (takeHeartbeat k delay h).call = h.call ∧ (takeHeartbeat k delay h).stations = h.stations) := by
  have htime := (timeOnly_partnerTime (hbTaken k h) h.head delay).pairKept
  rw [takeHeartbeat_eq h delay hno]
  generalize partnerTime (hbTaken k h) h.head delay = m at htime ⊢
  have hfol : follows m = (!k.duplex.ohold && h.head.ohold) := by
    have hd := htime.dpx
    have hs := congrArg (fun x => x.2.2.2.2) htime.state
    have hpm : paired m = true := (paired_of_regs hs).trans hp
    unfold follows
    rw [hpm, hd]
    rfl
  have hkept : ∀ a, PairKept a (h.results.foldl compareResult (h.results.foldl observeResult a)) := fun a =>
    (pairKept_foldl pairKept_observeResult _ a).trans (pairKept_foldl pairKept_compareResult _ _)
  have hall := hkept (if follows m then adoptState m h else m)
  dsimp only
  generalize h.results.foldl compareResult (h.results.foldl observeResult (if follows m then adoptState m h else m)) = u at hall ⊢
  by_cases hf : follows m = true
  · rw [if_pos hf] at hall
    obtain ⟨hd, h1, h2, h3, h4⟩ := adoptState_leaves m h
    rw [hfol, Bool.and_eq_true, Bool.not_eq_true'] at hf
    have hs := hall.state
    simp only [Prod.mk.injEq] at hs
    obtain ⟨s1, s2, s3, s4, -⟩ := hs
    refine ⟨?_, fun hor => ?_, fun _ _ => ⟨s1.trans h1, s2.trans h2, s3.trans h3, s4.trans h4⟩⟩
    · have e := hall.dpx
      rw [hd, htime.dpx] at e
      exact e
    · rw [hf.1, hf.2] at hor
      exact (hor.elim (fun x => absurd x (by decide)) (fun x => absurd x (by decide)))
  · rw [if_neg hf] at hall
    rw [hfol] at hf
    have hs := (htime.trans hall).state
    simp only [Prod.mk.injEq] at hs
    obtain ⟨s1, -, s3, -, s5⟩ := hs
    refine ⟨(htime.trans hall).dpx, fun _ => ⟨s1, s3, s5⟩, fun h1 h2 => ?_⟩
    rw [h1, h2] at hf
    exact absurd rfl hf

/-- The link that brings a copy. -/
def xlHeard (n : Node) (xl : Nat) : Node := modXl n xl (fun x => { x with phy := true, heard := true })

theorem heartbeatReceived_eq {n : Node} (hp : paired n = true) {xl : Nat} (hx : xl < 2) (bytes : List Byte) (delay : Nat) (p : PeerState) :
    heartbeatReceived n xl bytes delay p =
      if !hbGood bytes then modXl (xlHeard n xl) xl (fun x => { x with bad := sat 65535 (x.bad + 1) })
      else if (hbFields bytes).frame ≠ n.frame ∨ n.sAt + n.period < n.now + 10000 then xlHeard n xl
      else takeHeartbeat (modXl (xlHeard n xl) xl (fun x => { x with got := true, delay := delay })) delay { p with head := hbFields bytes } := by
  have hfields : (xlHeard n xl).frame = n.frame ∧ (xlHeard n xl).sAt = n.sAt ∧ (xlHeard n xl).period = n.period ∧
      (xlHeard n xl).now = n.now := by
    unfold xlHeard
    rw [modXl_dpx]
    exact ⟨rfl, rfl, rfl, rfl⟩
  obtain ⟨h1, h2, h3, h4⟩ := hfields
  unfold heartbeatReceived
  rw [hp, if_neg (by simp; omega)]
  unfold xlHeard at *
  dsimp only
  rw [h1, h2, h3, h4]

theorem hbOf_of_hb {n u : Node} (h : u.duplex.hb = n.duplex.hb) (k : Nat) : hbOf u k = hbOf n k := by
  unfold hbOf
  rw [h]

theorem acts_heartbeatReceived {t xl delay : Nat} {bytes : List Byte} {p : PeerState} {s : State} (hp : paired s.node = true) (hx : xl < 2) :
    Acts (.heartbeatReceived t xl bytes delay p) s t (fun n u =>
      let m := fabricAdvance n
      let h : Heartbeat := { p with head := hbFields bytes }
      fabricHolds u ∧
      (xlOf u xl).phy = true ∧ (xlOf u xl).heard = true ∧
      (hbGood bytes = false →
        SameButSignals u { m with duplex := { n.duplex with x0 := u.duplex.x0, x1 := u.duplex.x1 }, safety := u.safety, cmds := u.cmds } ∧
        xlOf u xl = { xlOf n xl with phy := true, heard := true, bad := min 65535 ((xlOf n xl).bad + 1) } ∧
        xlOf u (1 - xl) = xlOf n (1 - xl)) ∧
      (hbGood bytes = true → h.head.frame ≠ n.frame ∨ n.sAt + n.period < n.now + 10000 →
        SameButSignals u { m with duplex := { n.duplex with x0 := u.duplex.x0, x1 := u.duplex.x1 }, safety := u.safety, cmds := u.cmds } ∧
        xlOf u xl = { xlOf n xl with phy := true, heard := true } ∧ xlOf u (1 - xl) = xlOf n (1 - xl)) ∧
      (hbGood bytes = true → h.head.frame = n.frame → n.now + 10000 ≤ n.sAt + n.period →
        (xlOf u xl).got = true ∧ (xlOf u xl).delay = delay ∧
        ((hbOf n n.frame).isSome = true → u.duplex.hb = n.duplex.hb) ∧
        (hbOf n n.frame = none → u.duplex.hb = some h ∧ u.duplex.pclaim = h.head.oclaim ∧ u.duplex.ptclaim = h.head.tclaim ∧
          (h.head.take = true → n.frame ∈ u.duplex.seen) ∧
          (n.duplex.ohold = true ∨ h.head.ohold = false → u.points = n.points ∧ u.call = n.call ∧ u.regs = n.regs) ∧
          (n.duplex.ohold = false → h.head.ohold = true → u.points = h.points ∧ u.groups = h.groups ∧ u.call = h.call ∧
            u.stations = h.stations)))) := by
  refine acts_leaves (f := withFabric (fun n => heartbeatReceived n xl bytes delay p)) rfl (fun u hu => ?_)
  have hp' : paired (atInstant s t) = true := hp
  generalize atInstant s t = n at hu hp' ⊢
  obtain ⟨hfab, hnow⟩ := fabricAdvance_leaves n
  unfold withFabric at hu
  intro m h
  have hm : m = fabricAdvance n := rfl
  rw [← hm] at hu hfab hnow
  clear_value m
  dsimp only at hu
  have hpm : paired m = true := (paired_of_regs hfab.regs).trans hp'
  have hfields : m.duplex = n.duplex ∧ m.frame = n.frame ∧ m.sAt = n.sAt ∧ m.period = n.period ∧ m.points = n.points ∧ m.call = n.call ∧
      m.regs = n.regs := by
    obtain ⟨r, l, hd, d, q, he, -⟩ := hfab
    rw [he]
    exact ⟨rfl, rfl, rfl, rfl, rfl, rfl, rfl⟩
  obtain ⟨hdpx, hframe, hsAt, hper, hpts, hcall, hregs⟩ := hfields
  have hrun := heartbeatReceived_eq hpm hx bytes delay p
  rw [hframe, hsAt, hper, hnow] at hrun
  have hheard := xlOf_modXl hx m (fun x => { x with phy := true, heard := true })
  have hxl : ∀ i, xlOf m i = xlOf n i := fun i => xlOf_of_links (by rw [hdpx]) (by rw [hdpx]) i
  have hk1 := modXl_dpx m xl (fun x => { x with phy := true, heard := true })
  have hk1' : xlHeard m xl = modXl m xl (fun x => { x with phy := true, heard := true }) := rfl
  rw [← hk1', hxl, hxl] at hheard
  rw [← hk1'] at hk1
  clear hk1'
  generalize xlHeard m xl = k at hrun hheard hk1
  have hsafe := safFrame_fabricSettle (heartbeatReceived m xl bytes delay p)
  have hholds := fabricHolds_fabricSettle (heartbeatReceived m xl bytes delay p)
  rw [← hu] at hsafe hholds
  generalize heartbeatReceived m xl bytes delay p = v at hrun hsafe
  have hud : u.duplex = v.duplex := by
    have e := congrArg Node.duplex hsafe
    exact e
  have hlinks : ∀ i, xlOf (settle u) i = xlOf v i := fun i => by
    show xlOf u i = xlOf v i
    exact xlOf_of_links (by rw [hud]) (by rw [hud]) i
  -- A copy that changes the links alone.
  have hlinkOnly : v = { m with duplex := { m.duplex with x0 := v.duplex.x0, x1 := v.duplex.x1 } } →
      SameButSignals (settle u) { m with
        duplex := { n.duplex with x0 := (settle u).duplex.x0, x1 := (settle u).duplex.x1 },
        safety := (settle u).safety, cmds := (settle u).cmds } := by
    intro hv
    have hudx : (settle u).duplex = v.duplex := hud
    rw [hudx, ← hdpx]
    rw [SafFrame] at hsafe
    generalize v.duplex.x0 = a at hv
    generalize v.duplex.x1 = b at hv
    rw [hv] at hsafe
    rw [hsafe]
    rfl
  by_cases hgood : hbGood bytes = true
  · have hngood : ¬ (!hbGood bytes) = true := by rw [hgood]; decide
    rw [if_neg hngood] at hrun
    by_cases hskip : (hbFields bytes).frame ≠ n.frame ∨ n.sAt + n.period < n.now + 10000
    · rw [if_pos hskip] at hrun
      subst hrun
      refine ⟨hholds, ?_, ?_, fun hb => absurd (hb.symm.trans hgood) (by decide), fun _ _ => ⟨hlinkOnly hk1, ?_, ?_⟩,
        fun _ h1 h2 => ?_⟩
      · rw [hlinks, hheard.1]
      · rw [hlinks, hheard.1]
      · rw [hlinks, hheard.1]
      · rw [hlinks, hheard.2]
      · rcases hskip with h3 | h3
        · exact absurd h1 h3
        · exact absurd h3 (Nat.not_lt_of_le h2)
    · rw [if_neg hskip] at hrun
      obtain ⟨hgotX, -⟩ := xlOf_modXl hx k (fun x => { x with got := true, delay := delay })
      have hk2 := modXl_dpx k xl (fun x => { x with got := true, delay := delay })
      rw [hheard.1] at hgotX
      generalize modXl k xl (fun x => { x with got := true, delay := delay }) = g at hrun hgotX hk2
      have hgdpx : g = { m with duplex := { n.duplex with x0 := g.duplex.x0, x1 := g.duplex.x1 } } := by
        generalize g.duplex.x0 = a at hk2 ⊢
        generalize g.duplex.x1 = b at hk2 ⊢
        rw [hk2, hk1, ← hdpx]
      have hhb : g.duplex.hb = n.duplex.hb := by rw [hgdpx]
      have hgf : g.frame = n.frame := by
        rw [hgdpx]
        exact hframe
      have hlink : xlOf v xl = xlOf g xl ∧ ((hbOf n n.frame).isSome = true → v.duplex.hb = n.duplex.hb) ∧
          (hbOf n n.frame = none → v.duplex.hb = some h ∧ v.duplex.pclaim = h.head.oclaim ∧ v.duplex.ptclaim = h.head.tclaim ∧
            (h.head.take = true → n.frame ∈ v.duplex.seen) ∧
            (n.duplex.ohold = true ∨ h.head.ohold = false → v.points = n.points ∧ v.call = n.call ∧ v.regs = n.regs) ∧
            (n.duplex.ohold = false → h.head.ohold = true → v.points = h.points ∧ v.groups = h.groups ∧ v.call = h.call ∧
              v.stations = h.stations)) := by
        have hhbof : hbOf g g.frame = hbOf n n.frame := by rw [hgf, hbOf_of_hb hhb]
        cases hcase : hbOf n n.frame with
        | some x =>
          have hv : v = g := by
            rw [hrun]
            unfold takeHeartbeat
            rw [hhbof, hcase]
            rfl
          rw [hv]
          exact ⟨rfl, fun _ => hhb, fun e => nomatch e⟩
        | none =>
          have hpg : paired g = true := (paired_of_regs (by rw [hgdpx])).trans hpm
          obtain ⟨hd, hown, hfoll⟩ := takeHeartbeat_leaves (k := g) h delay (hhbof.trans hcase) hpg
          have hv : v = takeHeartbeat g delay h := hrun
          rw [← hv] at hd hown hfoll
          have hgo : g.duplex.ohold = n.duplex.ohold := by rw [hgdpx]
          have hgst : g.points = n.points ∧ g.call = n.call ∧ g.regs = n.regs := by
            rw [hgdpx]
            exact ⟨hpts, hcall, hregs⟩
          rw [hgo, hgst.1, hgst.2.1, hgst.2.2] at hown
          rw [hgo] at hfoll
          refine ⟨xlOf_of_links (by rw [hd]; rfl) (by rw [hd]; rfl) xl, fun e => absurd e (by decide), fun _ => ⟨by rw [hd]; rfl,
            by rw [hd]; rfl, by rw [hd]; rfl, fun htake => ?_, hown, hfoll⟩⟩
          have hseen : v.duplex.seen = (if h.head.take then g.duplex.seen ++ [g.frame] else g.duplex.seen).drop ((g.duplex.seen.length + 1) - 4) := by
            rw [hd]
            rfl
          rw [hseen, if_pos htake, hgf]
          exact mem_seen
      obtain ⟨l1, l2, l3⟩ := hlink
      have hx' : xlOf (settle u) xl = { xlOf n xl with phy := true, heard := true, got := true, delay := delay } := by
        rw [hlinks, l1, hgotX]
      have hures : u.points = v.points ∧ u.groups = v.groups ∧ u.call = v.call ∧ u.stations = v.stations ∧ u.regs = v.regs := by
        rw [SafFrame] at hsafe
        rw [hsafe]
        exact ⟨rfl, rfl, rfl, rfl, rfl⟩
      obtain ⟨u1, u2, u3, u4, u5⟩ := hures
      refine ⟨hholds, by rw [hx'], by rw [hx'], fun hb => absurd (hb.symm.trans hgood) (by decide), fun _ hs => absurd hs hskip,
        fun _ _ _ => ⟨by rw [hx'], by rw [hx'], ?_, ?_⟩⟩
      · show _ → u.duplex.hb = _
        rw [hud]
        exact l2
      · show _ → u.duplex.hb = _ ∧ u.duplex.pclaim = _ ∧ u.duplex.ptclaim = _ ∧ (_ → _ ∈ u.duplex.seen) ∧
          (_ → u.points = _ ∧ u.call = _ ∧ u.regs = _) ∧ (_ → _ → u.points = _ ∧ u.groups = _ ∧ u.call = _ ∧ u.stations = _)
        rw [hud, u1, u2, u3, u4, u5]
        exact l3
  · have hbad : hbGood bytes = false := Bool.eq_false_iff.mpr hgood
    rw [hbad, if_pos (by decide)] at hrun
    obtain ⟨hself, hother⟩ := xlOf_modXl hx k (fun x => { x with bad := sat 65535 (x.bad + 1) })
    have hk2 := modXl_dpx k xl (fun x => { x with bad := sat 65535 (x.bad + 1) })
    rw [← hrun] at hself hother hk2
    rw [hheard.1] at hself
    rw [hheard.2] at hother
    refine ⟨hholds, ?_, ?_, fun _ => ⟨hlinkOnly ?_, ?_, ?_⟩, fun hg => absurd hg hgood, fun hg => absurd hg hgood⟩
    · rw [hlinks, hself]
    · rw [hlinks, hself]
    · generalize v.duplex.x0 = a at hk2 ⊢
      generalize v.duplex.x1 = b at hk2 ⊢
      rw [hk2, hk1]
    · rw [hlinks, hself]
      rfl
    · rw [hlinks, hother]

end Sys2Proof.Machine
end

section
/-! PROOF. The check for the partner's heartbeat, and the statement on heartbeats (12 R282). -/

namespace Sys2Proof.Machine

/-- The links' counts and the interrupts alone change. -/
structure LinksOnly (n u : Node) : Prop where
  dpx : u.duplex = { n.duplex with x0 := u.duplex.x0, x1 := u.duplex.x1 }
  state : (u.points, u.regs, u.frame) = (n.points, n.regs, n.frame)
  due : n.dueB <+: u.dueB

theorem LinksOnly.trans {a b c : Node} (h : LinksOnly a b) (k : LinksOnly b c) : LinksOnly a c := by
  refine ⟨?_, k.state.trans h.state, h.due.trans k.due⟩
  have hk := k.dpx
  rw [h.dpx] at hk
  exact hk

theorem linksOnly_raiseBIf (c : Bool) (n : Node) (p b : Nat) : LinksOnly n (raiseBIf c n p b) :=
  pred_ite (P := LinksOnly n) ⟨rfl, rfl, List.prefix_append _ _⟩ ⟨rfl, rfl, List.prefix_rfl⟩

theorem linksOnly_modXl (n : Node) (i : Nat) (f : XLink → XLink) : LinksOnly n (modXl n i f) := by
  unfold modXl
  split <;> exact ⟨rfl, rfl, List.prefix_rfl⟩

theorem linksOnly_xlFrame (n : Node) (i : Nat) : LinksOnly n (xlFrame n i) := by
  unfold xlFrame
  extract_lets x good bad up quiet m
  have hm : LinksOnly n m := linksOnly_modXl n i _
  exact (hm.trans (linksOnly_raiseBIf _ m _ _)).trans (linksOnly_raiseBIf _ _ _ _)

/-- The frame's check of the links, before the heartbeat is looked for. -/
def linksChecked (n : Node) : Node := xlFrame (xlFrame (modDpx n (fun d => { d with checked := some n.frame })) 0) 1

theorem linksChecked_leaves (n : Node) :
    (linksChecked n).duplex = { n.duplex with
      checked := some n.frame, x0 := (linksChecked n).duplex.x0, x1 := (linksChecked n).duplex.x1 } ∧
    (linksChecked n).points = n.points ∧ (linksChecked n).regs = n.regs := by
  have h := (linksOnly_xlFrame (modDpx n (fun d => { d with checked := some n.frame })) 0).trans (linksOnly_xlFrame _ 1)
  have hs := h.state
  simp only [Prod.mk.injEq] at hs
  exact ⟨h.dpx, hs.1, hs.2.1⟩

/-- A miss, before PLOST. -/
def hbMissed (m : Node) : Node :=
  modDpx m (fun d => { d with
    wasSynced := if d.consecMiss = 0 then syncedNow m else d.wasSynced, consecMiss := sat 3 (d.consecMiss + 1), consecRx := 0,
    missed := sat 65535 (d.missed + 1), peer := false, syncRun := 0 })

/-- PLOST begins. -/
def lostTold (n : Node) : Node :=
  loseSource (raiseB (note (modDpx n (fun d => { d with plost := true }))
    (recDuplex (modDpx n (fun d => { d with plost := true })) 4 0 1 0 0 (dpxStat (modDpx n (fun d => { d with plost := true }))))) 4 3) .partner

/-- A reception, before the end of PLOST. -/
def hbFound (h : Heartbeat) (m : Node) : Node :=
  modDpx m (fun d => { d with
    consecMiss := 0, consecRx := sat 255 (d.consecRx + 1), peer := true,
    syncRun := if h.head.ohold then sat 255 (d.syncRun + 1) else 0 })

/-- PLOST ends. -/
def foundTold (n : Node) : Node :=
  raiseB (note (modDpx n (fun d => { d with plost := false }))
    (recDuplex (modDpx n (fun d => { d with plost := false })) 4 1 0 0 0 (dpxStat (modDpx n (fun d => { d with plost := false }))))) 4 4

theorem checkHeartbeat_eq {n : Node} (hp : paired n = true) (hc : n.duplex.checked ≠ some n.frame) : checkHeartbeat n n.frame =
    match hbOf n n.frame with
    | none =>
      if (hbMissed (linksChecked n)).duplex.consecMiss = 2 ∧ !(hbMissed (linksChecked n)).duplex.plost then
        lostTold (hbMissed (linksChecked n)) else hbMissed (linksChecked n)
    | some h =>
      if (hbFound h (linksChecked n)).duplex.plost ∧ 2 ≤ (hbFound h (linksChecked n)).duplex.consecRx then
        foundTold (hbFound h (linksChecked n)) else hbFound h (linksChecked n) := by
  have hne : (n.duplex.checked == some n.frame) = false := beq_eq_false_iff_ne.mpr hc
  have hhb : hbOf (linksChecked n) n.frame = hbOf n n.frame := hbOf_of_hb (by rw [(linksChecked_leaves n).1]) _
  unfold checkHeartbeat
  rw [hp, hne, if_neg (by decide)]
  rw [← hhb]
  rfl

theorem lostTold_leaves (n : Node) : (lostTold n).duplex = { n.duplex with plost := true } ∧ (lostTold n).points = n.points ∧
    (lostTold n).regs = n.regs ∧ (4, 3) ∈ (lostTold n).dueB := by
  unfold lostTold
  have hd : modDpx n (fun d => { d with plost := true }) = { n with duplex := { n.duplex with plost := true } } := rfl
  generalize modDpx n (fun d => { d with plost := true }) = a at hd
  have hnote := timeOnly_note a (recDuplex a 4 0 1 0 0 (dpxStat a))
  generalize note a (recDuplex a 4 0 1 0 0 (dpxStat a)) = b at hnote
  have hlose := timeOnly_loseSource (raiseB b 4 3) .partner
  have hmem : (4, 3) ∈ (raiseB b 4 3).dueB := List.mem_append_right _ (List.mem_singleton_self _)
  have hall := (hnote.trans (timeOnly_raiseB b 4 3)).trans hlose
  have hdue := hlose.2.subset hmem
  generalize loseSource (raiseB b 4 3) .partner = u at hall hdue ⊢
  obtain ⟨⟨r, l, h, d, q, he, -⟩, -⟩ := hall
  rw [hd] at he
  refine ⟨?_, ?_, ?_, hdue⟩
  · rw [he]
  · rw [he]
  · rw [he]

theorem foundTold_leaves (n : Node) : (foundTold n).duplex = { n.duplex with plost := false } ∧ (foundTold n).points = n.points ∧
    (foundTold n).regs = n.regs ∧ (4, 4) ∈ (foundTold n).dueB := by
  unfold foundTold
  have hd : modDpx n (fun d => { d with plost := false }) = { n with duplex := { n.duplex with plost := false } } := rfl
  generalize modDpx n (fun d => { d with plost := false }) = a at hd
  have hnote := timeOnly_note a (recDuplex a 4 1 0 0 0 (dpxStat a))
  generalize note a (recDuplex a 4 1 0 0 0 (dpxStat a)) = b at hnote
  obtain ⟨⟨r, l, h, d, q, he, -⟩, -⟩ := hnote
  rw [hd] at he
  have hmem : (4, 4) ∈ (raiseB b 4 4).dueB := List.mem_append_right _ (List.mem_singleton_self _)
  refine ⟨?_, ?_, ?_, hmem⟩
  · rw [raiseB_duplex, he]
  · rw [raiseB_points, he]
  · rw [raiseB_regs, he]

theorem acts_heartbeatMiss {t : Nat} {s : State} (hp : paired s.node = true) (hc : s.node.duplex.checked ≠ some s.node.frame)
    (hlate : s.node.sAt + s.node.period ≤ max s.node.now t + 10000) : Acts (.heartbeatMiss t) s t (fun n u =>
      u.regs = n.regs ∧ u.points = n.points ∧
      (hbOf n n.frame = none → u.duplex.missed = min 65535 (n.duplex.missed + 1) ∧ u.duplex.peer = false ∧
        u.duplex.consecMiss = min 3 (n.duplex.consecMiss + 1) ∧
        (n.duplex.consecMiss = 1 → u.duplex.plost = true ∧ (n.duplex.plost = false → (4, 3) ∈ u.dueB)) ∧
        (n.duplex.consecMiss ≠ 1 → u.duplex.plost = n.duplex.plost)) ∧
      ((hbOf n n.frame).isSome = true → u.duplex.consecMiss = 0 ∧ u.duplex.peer = true ∧
        u.duplex.missed = n.duplex.missed ∧
        (1 ≤ n.duplex.consecRx → u.duplex.plost = false ∧ (n.duplex.plost = true → (4, 4) ∈ u.dueB)))) := by
  have hrun : heartbeatMiss (atInstant s t) = checkHeartbeat (atInstant s t) (atInstant s t).frame := if_pos hlate
  refine acts_of_eq rfl (hrun.trans (checkHeartbeat_eq hp hc)) ?_
  generalize atInstant s t = n
  obtain ⟨hd, hpts, hregs⟩ := linksChecked_leaves n
  generalize linksChecked n = m at hd hpts hregs ⊢
  cases hcase : hbOf n n.frame with
  | none =>
    have hmd : (hbMissed m).duplex.missed = min 65535 (n.duplex.missed + 1) ∧ (hbMissed m).duplex.peer = false ∧
        (hbMissed m).duplex.consecMiss = min 3 (n.duplex.consecMiss + 1) ∧ (hbMissed m).duplex.plost = n.duplex.plost := by
      unfold hbMissed modDpx sat
      rw [hd]
      exact ⟨rfl, rfl, rfl, rfl⟩
    have hmr : (hbMissed m).points = n.points ∧ (hbMissed m).regs = n.regs := ⟨hpts, hregs⟩
    generalize hbMissed m = k at hmd hmr ⊢
    obtain ⟨h1, h2, h3, h4⟩ := hmd
    dsimp only
    by_cases hlost : k.duplex.consecMiss = 2 ∧ (!k.duplex.plost) = true
    · rw [if_pos hlost]
      obtain ⟨e1, e2, e3, e4⟩ := lostTold_leaves k
      have hsd : (settle (lostTold k)).duplex = { k.duplex with plost := true } := e1
      refine ⟨e3.trans hmr.2, e2.trans hmr.1, fun _ => ?_, fun h => absurd h (by decide)⟩
      rw [hsd]
      have hone : n.duplex.consecMiss = 1 := by omega
      exact ⟨h1, h2, h3, fun _ => ⟨rfl, fun _ => e4⟩, fun h => absurd hone h⟩
    · rw [if_neg hlost]
      have hsd : (settle k).duplex = k.duplex := rfl
      refine ⟨hmr.2, hmr.1, fun _ => ?_, fun h => absurd h (by decide)⟩
      rw [hsd]
      refine ⟨h1, h2, h3, fun hone => ?_, fun _ => h4⟩
      have hpl : k.duplex.plost = true := by
        by_contra hno
        exact hlost ⟨by omega, by simp [hno]⟩
      exact ⟨hpl, fun hno => absurd (h4.symm.trans hpl) (by rw [hno]; decide)⟩
  | some x =>
    dsimp only
    have hmd : (hbFound x m).duplex.missed = n.duplex.missed ∧ (hbFound x m).duplex.peer = true ∧
        (hbFound x m).duplex.consecMiss = 0 ∧ (hbFound x m).duplex.plost = n.duplex.plost ∧
        (hbFound x m).duplex.consecRx = min 255 (n.duplex.consecRx + 1) := by
      unfold hbFound modDpx sat
      rw [hd]
      exact ⟨rfl, rfl, rfl, rfl, rfl⟩
    have hmr : (hbFound x m).points = n.points ∧ (hbFound x m).regs = n.regs := ⟨hpts, hregs⟩
    generalize hbFound x m = k at hmd hmr ⊢
    obtain ⟨h1, h2, h3, h4, h5⟩ := hmd
    by_cases hback : k.duplex.plost = true ∧ 2 ≤ k.duplex.consecRx
    · rw [if_pos hback]
      obtain ⟨e1, e2, e3, e4⟩ := foundTold_leaves k
      have hsd : (settle (foundTold k)).duplex = { k.duplex with plost := false } := e1
      refine ⟨e3.trans hmr.2, e2.trans hmr.1, fun h => absurd h (Option.some_ne_none x), fun _ => ?_⟩
      rw [hsd]
      exact ⟨h3, h2, h1, fun _ => ⟨rfl, fun _ => e4⟩⟩
    · rw [if_neg hback]
      have hsd : (settle k).duplex = k.duplex := rfl
      refine ⟨hmr.2, hmr.1, fun h => absurd h (Option.some_ne_none x), fun _ => ?_⟩
      rw [hsd]
      refine ⟨h3, h2, h1, fun hone => ?_⟩
      have hpl : k.duplex.plost = false := by
        by_contra hno
        exact hback ⟨by simpa using hno, by omega⟩
      exact ⟨hpl, fun hyes => absurd (h4.symm.trans hpl) (by rw [hyes]; decide)⟩

theorem acts_heartbeatMiss_stands {t : Nat} {s : State} (h : paired s.node = false ∨ s.node.duplex.checked = some s.node.frame ∨
      max s.node.now t + 10000 < s.node.sAt + s.node.period) : Acts (.heartbeatMiss t) s t (fun n u => SameButSignals u n) := by
  refine acts_same rfl ?_
  by_cases hlate : (atInstant s t).sAt + (atInstant s t).period ≤ (atInstant s t).now + 10000
  · refine (if_pos hlate).trans (if_pos ?_)
    rcases h with h | h | h
    · rw [show paired (atInstant s t) = false from h]
      rfl
    · rw [show (atInstant s t).duplex.checked = some (atInstant s t).frame from h, beq_self_eq_true, Bool.or_true]
    · exact absurd hlate (Nat.not_le_of_lt h)
  · exact if_neg hlate

/-- Settles O45: the head and its bytes as they are sent; a reception by what becomes of its link and of the frame's heartbeat; the
check by its two outcomes. -/
theorem heartbeatsOfThePair : Obligations.HeartbeatsOfThePair := by
  refine ⟨fun t s => ⟨acts_heartbeatSend, fun h => acts_same rfl (if_pos ?_)⟩, fun e => ⟨length_hbBytes e, hbGood_hbBytes e,
    (hbBytes_fields e).2.2.2.2.2.2.2.2.2.2.2, hbFields_hbBytes⟩, fun t xl delay bytes p s hp hx => acts_heartbeatReceived hp hx,
    fun t s => ⟨acts_heartbeatMiss_stands, acts_heartbeatMiss⟩⟩
  rw [Bool.or_eq_true, Bool.not_eq_true', Bool.not_eq_true']
  exact h

end Sys2Proof.Machine
end

section
/-! PROOF. What a vote keeps: the engines and the staging of the frame's records (11 R257, 15 R351). -/

namespace Sys2Proof.Machine

/-- The lanes' state and the registers stand; interrupts of RESULT_READY are only added. -/
structure VoteKept (n u : Node) : Prop where
  same : (u.laneSt, u.regs) = (n.laneSt, n.regs)
  due : n.dueR <+: u.dueR

theorem VoteKept.refl (n : Node) : VoteKept n n := ⟨rfl, List.prefix_rfl⟩

theorem VoteKept.trans {a b c : Node} (h : VoteKept a b) (k : VoteKept b c) : VoteKept a c := ⟨k.same.trans h.same, h.due.trans k.due⟩

theorem VoteKept.laneSt {n u : Node} (h : VoteKept n u) : u.laneSt = n.laneSt := congrArg Prod.fst h.same

theorem VoteKept.regs {n u : Node} (h : VoteKept n u) : u.regs = n.regs := congrArg Prod.snd h.same

theorem voteKept_ite {p : Prop} [Decidable p] {n a b : Node} (ha : VoteKept n a) (hb : VoteKept n b) : VoteKept n (if p then a else b) :=
  pred_ite ha hb

theorem voteKept_foldl {α : Type} {f : Node → α → Node} (h : ∀ n x, VoteKept n (f n x)) (l : List α) (n : Node) : VoteKept n (l.foldl f n) :=
  foldl_rel VoteKept.refl VoteKept.trans h l n

theorem voteKept_of_rec {n u : Node} (h : RecFrame n u) : VoteKept n u := by
  obtain ⟨_, _, _, _, _, rfl, -⟩ := h
  exact ⟨rfl, List.prefix_rfl⟩

theorem voteKept_of_queues {n u : Node} (h : Queues n u) : VoteKept n u := by
  obtain ⟨cs, h⟩ := h
  have k := voteKept_of_rec (n := { n with cans := cs }) h
  exact ⟨k.same, k.due⟩

theorem voteKept_queueOn (n : Node) (mask : Nat) (m : NodeMsg) : VoteKept n (queueOn n mask m) :=
  voteKept_foldl (fun n c => voteKept_of_queues (queues_queueMsg n c m)) _ n

theorem voteKept_net (n : Node) (x : Net) : VoteKept n { n with net := x } := ⟨rfl, List.prefix_rfl⟩

theorem voteKept_sendAlarm (n : Node) (k : Nat) : VoteKept n (sendAlarm n k) :=
  VoteKept.trans (b := { n with net := { n.net with almSeq := (n.net.almSeq + 1) % 65536 } }) (voteKept_net n _) (voteKept_queueOn _ _ _)

theorem voteKept_sendAlarms (n : Node) : VoteKept n (sendAlarms n) :=
  voteKept_ite (VoteKept.trans (b := { n with net := { n.net with almChanges := [] } }) (voteKept_net n _) (voteKept_foldl voteKept_sendAlarm _ _))
    (voteKept_net n _)

theorem voteKept_publishResults (n : Node) : VoteKept n (publishResults n) :=
  voteKept_ite (VoteKept.refl n) (voteKept_foldl (fun n _ => voteKept_queueOn n _ _) _ n)

theorem voteKept_sendReplies (n : Node) : VoteKept n (sendReplies n) :=
  VoteKept.trans (b := { n with net := { n.net with replies := [] } }) (voteKept_net n _)
    (voteKept_foldl (fun n _ => voteKept_of_queues (queues_queueMsg n _ _)) _ _)

theorem voteKept_sendStn (n : Node) (k : Nat) (poll : Bool) : VoteKept n (sendStn n k poll) :=
  VoteKept.trans (b := modStation n k (fun s => { s with due := false })) ⟨rfl, List.prefix_rfl⟩ (voteKept_of_queues (queues_queueMsg _ _ _))

theorem voteKept_sendStations (n : Node) : VoteKept n (sendStations n) :=
  voteKept_ite (voteKept_foldl (fun n _ => voteKept_ite (voteKept_sendStn n _ _) (VoteKept.refl n)) _ n) (VoteKept.refl n)

theorem voteKept_groupDemands (n : Node) : VoteKept n (groupDemands n) :=
  voteKept_foldl (f := fun n r => if (rankOf n r).powered then rankDemand n r else n)
    (fun n _ => voteKept_ite ⟨rfl, List.prefix_rfl⟩ (VoteKept.refl n)) _ n

theorem voteKept_engines (n : Node) : VoteKept n (engines n) := by
  refine voteKept_ite ?_ (voteKept_net n _)
  have hsend := ((voteKept_sendAlarms n).trans (voteKept_publishResults _)).trans (voteKept_sendReplies _)
  exact ((hsend.trans (voteKept_sendStations _)).trans (voteKept_groupDemands _)).trans
    (voteKept_foldl (fun n c => voteKept_of_queues (queues_tellDiscards n c)) _ _)

/-! The staging of the frame -/

theorem voteKept_modRec (n : Node) (f : Recorder → Recorder) : VoteKept n (modRec n f) := ⟨rfl, List.prefix_rfl⟩

theorem voteKept_settleClear (n : Node) : VoteKept n (settleClear n) := by
  unfold settleClear
  split <;> exact ⟨rfl, List.prefix_rfl⟩

/-- A record that waited is staged. -/
def stageKept (n : Node) (r : Rec) : Node := stageRec n (if r.origin = oLanes then laneVote n else 3) r

theorem stageWaiting_eq (n : Node) : stageWaiting n =
    settleClear (n.rec_.waiting.foldl stageKept (modRec n (fun r => { r with waiting := [] }))) := rfl

theorem voteKept_stageWaiting (n : Node) : VoteKept n (stageWaiting n) := by
  rw [stageWaiting_eq]
  have hfold := voteKept_foldl (f := stageKept) (fun n r => voteKept_of_rec (recFrame_stageRec n _ r)) n.rec_.waiting
    (modRec n (fun r => { r with waiting := [] }))
  exact ((voteKept_modRec n _).trans hfold).trans (voteKept_settleClear _)

theorem voteKept_discardLanes (n : Node) : VoteKept n (discardLanes n) :=
  (voteKept_modRec n _).trans
    (voteKept_foldl (fun n r => voteKept_of_rec (recFrame_discardRec n r)) _ _)

/-- The frame's records taken up, before they are staged. -/
def laneRecsTaken (n : Node) : Node := modRec n (fun r => { r with laneRecs := [], frameStaged := true })

theorem stageFrame_eq (n : Node) (resolved : Bool) : stageFrame n resolved =
    (fun m => if (laneRecsTaken m).rec_.ready then stageWaiting (stageRecs (laneRecsTaken m) (laneVote (laneRecsTaken m)) m.rec_.laneRecs)
      else modRec (laneRecsTaken m) (fun r => { r with waiting := r.waiting ++ m.rec_.laneRecs })) (if resolved then n else discardLanes n) := rfl

theorem voteKept_stageFrame (n : Node) (resolved : Bool) : VoteKept n (stageFrame n resolved) := by
  rw [stageFrame_eq]
  have hm : VoteKept n (if resolved then n else discardLanes n) := voteKept_ite (VoteKept.refl n) (voteKept_discardLanes n)
  generalize (if resolved then n else discardLanes n) = m at hm
  have htaken : VoteKept m (laneRecsTaken m) := ⟨rfl, List.prefix_rfl⟩
  refine hm.trans (htaken.trans (voteKept_ite (VoteKept.trans ?_ (voteKept_stageWaiting _)) ⟨rfl, List.prefix_rfl⟩))
  exact voteKept_foldl (fun n r => voteKept_of_rec (recFrame_stageRec n _ r)) _ _

/-! The lanes' list of the frame, which staging leaves -/

theorem laneRecs_raiseIf (c : Bool) (n : Node) (p b : Nat) : (raiseIf c n p b).rec_.laneRecs = n.rec_.laneRecs :=
  pred_ite (P := fun m : Node => m.rec_.laneRecs = n.rec_.laneRecs) rfl rfl

theorem laneRecs_discardRec (n : Node) (r : Rec) : (discardRec n r).rec_.laneRecs = n.rec_.laneRecs := by
  unfold discardRec
  extract_lets tai first o ab o' src m k
  have hk : k.rec_.laneRecs = n.rec_.laneRecs := laneRecs_raiseIf first m 6 3
  clear_value k
  split
  · exact pred_ite (P := fun m : Node => m.rec_.laneRecs = n.rec_.laneRecs) hk hk
  · exact hk

theorem laneRecs_finishClear (n : Node) (q : Option Nat) (r : Rec) : (finishClear n q r).rec_.laneRecs = n.rec_.laneRecs := by
  have hcommit : ∀ k, (commitTo n k).rec_.laneRecs = n.rec_.laneRecs := fun k => by
    unfold commitTo commitSome modRec
    dsimp only
    split <;> rfl
  unfold finishClear
  split
  · rfl
  · cases q with
    | none => rfl
    | some k => exact hcommit k

theorem laneRecs_stageRec (n : Node) (vote : Nat) (r : Rec) : (stageRec n vote r).rec_.laneRecs = n.rec_.laneRecs := by
  have hafter : ∀ (m : Node) q x, (afterStage m q x).rec_.laneRecs = m.rec_.laneRecs := fun m q x => by
    unfold afterStage
    split <;> split <;> rfl
  have hsure : ∀ (m : Node) q, (sureOf m q).rec_.laneRecs = m.rec_.laneRecs := fun m q =>
    pred_ite (P := fun u : Node => u.rec_.laneRecs = m.rec_.laneRecs) rfl rfl
  unfold stageRec
  refine pred_ite (P := fun u : Node => u.rec_.laneRecs = n.rec_.laneRecs) rfl
    (pred_ite (P := fun u : Node => u.rec_.laneRecs = n.rec_.laneRecs) ?_ ?_)
  · rw [laneRecs_finishClear, laneRecs_discardRec]
  · dsimp only
    rw [laneRecs_finishClear, hafter]
    exact hsure _ _

theorem laneRecs_stageFrame (n : Node) (resolved : Bool) : (stageFrame n resolved).rec_.laneRecs = [] := by
  rw [stageFrame_eq]
  generalize (if resolved then n else discardLanes n) = m
  refine pred_ite (P := fun u : Node => u.rec_.laneRecs = []) ?_ rfl
  have hsettle : ∀ k : Node, (settleClear k).rec_.laneRecs = k.rec_.laneRecs := fun k => by
    unfold settleClear
    split <;> rfl
  have hstage := fun (l : List Rec) (k : Node) => foldl_same (g := fun u : Node => u.rec_.laneRecs)
    (f := fun n r => stageRec n (laneVote (laneRecsTaken m)) r) (fun n r => laneRecs_stageRec n _ r) l k
  rw [stageWaiting_eq, hsettle]
  refine (foldl_same (g := fun u : Node => u.rec_.laneRecs) (f := stageKept) (fun n r => laneRecs_stageRec n _ r) _ _).trans ?_
  exact hstage _ _

end Sys2Proof.Machine
end

section
/-! PROOF. The lanes' part of the vote, and the statement on the vote (11 R253 to R259). -/

namespace Sys2Proof.Machine

/-- What the vote decides, and the registers. -/
def voteKey (n : Node) : Nat × Bool × Bool × Nat × Option NextLanes × Bool × Tbl Word :=
  (n.laneSt.state, n.laneSt.voted, n.laneSt.resolved, n.laneSt.unres, n.laneSt.next, n.laneSt.lastUnres, n.regs)

theorem voteKey_ite {p : Prop} [Decidable p] {n a b : Node} (ha : voteKey a = voteKey n) (hb : voteKey b = voteKey n) :
    voteKey (if p then a else b) = voteKey n := pred_ite (P := fun m => voteKey m = voteKey n) ha hb

theorem voteKey_of_kept {n u : Node} (h : VoteKept n u) : voteKey u = voteKey n := by
  unfold voteKey
  rw [h.laneSt, h.regs]

theorem voteKey_noteLane (n : Node) (r : Rec) : voteKey (noteLane n r) = voteKey n := voteKey_of_kept (voteKept_of_rec (recFrame_noteLane n r))

theorem voteKey_raiseRIf (c : Bool) (n : Node) (p b : Nat) : voteKey (raiseRIf c n p b) = voteKey n := voteKey_ite rfl rfl

theorem voteKey_linkFrames (n : Node) : voteKey (linkFrames n) = voteKey n := by
  unfold linkFrames
  extract_lets f s l01 l12 l20 m m1 m2
  have h1 : voteKey m1 = voteKey n := voteKey_raiseRIf _ m 3 6
  have h2 : voteKey m2 = voteKey n := (voteKey_raiseRIf _ m1 3 6).trans h1
  exact (voteKey_raiseRIf _ m2 3 6).trans h2

theorem voteKey_noteDiff (n : Node) : voteKey (noteDiff n) = voteKey n := by
  unfold noteDiff
  split <;> rfl

theorem voteKey_countExcl (m : Node) (e x : Nat) :
    voteKey (raiseR (modLaneSt m (fun s => { s with excl := sat 65535 (s.excl + e), exclT := x })) 3 1) = voteKey m := rfl

theorem voteKey_modLane (m : Node) (l : Nat) (f : Lane → Lane) : voteKey (modLane m l f) = voteKey m := rfl

theorem voteKey_excludeLane (n : Node) (l cause : Nat) : voteKey (excludeLane n l cause) = voteKey n := by
  obtain ⟨m, hm, he⟩ := excludeLane_eq n l cause
  have hkey : voteKey m = voteKey n := by
    rw [voteKey_of_kept (voteKept_of_rec hm), endHostExclude_rest]
    rfl
  rw [he]
  rw [voteKey_raiseRIf, voteKey_countExcl, voteKey_modLane, hkey]

theorem voteKey_setPhase (n : Node) (l p : Nat) : voteKey (setPhase n l p) = voteKey n := by
  unfold setPhase
  exact voteKey_ite rfl (voteKey_noteLane n _)

theorem voteKey_rejoinFrame (n : Node) (l : Nat) (lost donorLost resolved sliceMiss : Bool) :
    voteKey (rejoinFrame n l lost donorLost resolved sliceMiss).1 = voteKey n := by
  have fst : ∀ {p : Prop} [Decidable p] {a b : Node × Bool}, voteKey a.1 = voteKey n → voteKey b.1 = voteKey n →
      voteKey (if p then a else b).1 = voteKey n := fun ha hb => pred_ite (P := fun x : Node × Bool => voteKey x.1 = voteKey n) ha hb
  unfold rejoinFrame
  extract_lets x
  split
  · exact voteKey_excludeLane n l _
  · exact voteKey_excludeLane n l _
  · refine fst (fst rfl ?_) (fst rfl (fst rfl ?_))
    · exact fst (voteKey_setPhase _ l 5) (fst (voteKey_excludeLane _ l _) rfl)
    · exact fst rfl (fst rfl (voteKey_excludeLane n l _))

theorem voteKey_degFrame (n : Node) : voteKey (degFrame n) = voteKey n := by
  have hreset : ∀ m, voteKey (degReset m) = voteKey m := fun m => by
    unfold degReset
    split
    · exact voteKey_ite rfl rfl
    · rfl
  have hreached : ∀ m, voteKey (degReached m) = voteKey m := fun m => voteKey_ite rfl rfl
  unfold degFrame
  dsimp only
  rw [hreached, hreset]
  exact voteKey_ite rfl rfl

/-! No voting lane is left -/

/-- One lane as the lanes enter NONE. -/
def laneToReset (n : Node) (l : Nat) : Node :=
  let n := endHostExclude n l false
  let x := laneOf n l
  if x.phase = 1 ∧ x.cause ≠ 13 ∧ n.laneSt.mask.testBit l then n
  else
    let fresh := decide (x.phase ≠ 1 ∧ x.phase ≠ 6)
    let n := if x.phase = 1 then n else note n { recLane n 3 l x.phase 1 13 0 0 with origin := oScarab }
    let n := modLane n l (resetLane n.now 1 13 (recentAttempts n l))
    if fresh then raiseR (modLaneSt n (fun s => { s with excl := sat 65535 (s.excl + 1), exclT := taiNow n })) 3 1 else n

theorem voteKey_laneToReset (n : Node) (l : Nat) : voteKey (laneToReset n l) = voteKey n := by
  unfold laneToReset
  extract_lets m x fresh r m1 m2
  have hm : voteKey m = voteKey n := by
    simp only [m]
    rw [endHostExclude_rest]
    rfl
  have h1 : voteKey m1 = voteKey n := voteKey_ite hm ((voteKey_of_kept (voteKept_of_rec (recFrame_note m _))).trans hm)
  have h2 : voteKey m2 = voteKey n := (voteKey_modLane m1 l _).trans h1
  exact voteKey_ite hm (voteKey_ite ((voteKey_countExcl m2 1 _).trans h2) h2)

theorem enterNone_leaves (n : Node) : (enterNone n).laneSt.state = 3 ∧ (enterNone n).laneSt.mask = 0 ∧ (enterNone n).laneSt.next = none ∧
    (enterNone n).laneSt.voted = n.laneSt.voted ∧ (enterNone n).laneSt.unres = n.laneSt.unres ∧ (enterNone n).regs = n.regs := by
  unfold enterNone
  extract_lets old m0 m1 m2 d x a b c
  have h1 : voteKey m1 = voteKey n :=
    (foldl_same (g := voteKey) (f := laneToReset) voteKey_laneToReset [0, 1, 2] m0).trans (voteKey_of_kept (voteKept_of_rec (recFrame_note n _)))
  clear_value m1
  have hbase := voteKept_discardLanes m2
  have ha : VoteKept m2 a := ⟨hbase.same, hbase.due⟩
  have hb : VoteKept a b := voteKept_foldl (f := fun n o => modOutput n o (fun x => { x with next := false }))
    (fun n o => ⟨rfl, List.prefix_rfl⟩) _ a
  have hc : VoteKept b c := voteKept_foldl (fun n k => voteKept_of_queues (queues_loadBufs n k)) _ b
  have hall := (ha.trans hb).trans hc
  have hd := steady_dropSafCmd c
  have hlane : (raiseR (dropSafCmd c) 3 0).laneSt = m2.laneSt := hd.laneSt.trans hall.laneSt
  have hregs : (raiseR (dropSafCmd c) 3 0).regs = m2.regs := hd.regs.trans hall.regs
  rw [hlane, hregs]
  simp only [voteKey, Prod.mk.injEq] at h1
  obtain ⟨-, hv, -, hu, -, -, hr⟩ := h1
  exact ⟨rfl, rfl, rfl, hv, hu, hr⟩

/-! The ballot -/

/-- What the vote of a frame leaves, with `res` for a resolved one. -/
structure Voted (res : Bool) (n u : Node) : Prop where
  voted : u.laneSt.voted = true
  regs : u.regs = n.regs
  unres : u.laneSt.unres = if res then n.laneSt.unres else min 65535 (n.laneSt.unres + 1)
  named : (u.laneSt.state = n.laneSt.state ∧ u.laneSt.resolved = res ∧ u.laneSt.lastUnres = !res ∧ u.laneSt.next.isSome = true) ∨
    (u.laneSt.state = 3 ∧ u.laneSt.mask = 0 ∧ u.laneSt.next = none)

/-- The lanes whose self-test or wait asks for their exclusion. -/
def excludeAsked (n : Node) (l : Nat) : Node :=
  if (laneOf n l).phase = 2 ∨ (laneOf n l).phase = 3 then
    (match requested n l with | some c => excludeLane n l c | none => n)
  else n

theorem voteKey_excludeAsked (n : Node) (l : Nat) : voteKey (excludeAsked n l) = voteKey n := by
  unfold excludeAsked
  refine voteKey_ite ?_ rfl
  split
  · exact voteKey_excludeLane n l _
  · rfl

theorem laneBallot_leaves (n : Node) (images : List (Nat × Word)) (sliceMiss : Bool) :
    Voted (resolves n) n (laneBallot n images sliceMiss) := by
  unfold laneBallot
  extract_lets vs isos res n1 n2 image counted imagesOk n3 excl n4 second lost announcedNext donorLost proposals senders r joined n5 n6 n7 n8 left st mask surv n9 got
  have h2 : voteKey n2 = voteKey n := by
    have h1 : voteKey n1 = voteKey n := (voteKey_noteDiff _).trans (voteKey_linkFrames n)
    exact (foldl_same (g := voteKey) (f := runLane) (fun _ _ => rfl) vs n1).trans h1
  clear_value n2
  have h4 : voteKey n4 = (n.laneSt.state, true, res, (if res then n.laneSt.unres else min 65535 (n.laneSt.unres + 1)), n.laneSt.next,
      n.laneSt.lastUnres, n.regs) := by
    simp only [voteKey, Prod.mk.injEq] at h2
    obtain ⟨hs, -, -, hu, hx, hl, hr⟩ := h2
    simp only [n4, n3]
    clear_value res
    cases res with
    | true => simp [voteKey, modLaneSt, hs, hu, hx, hl, hr]
    | false => simp [voteKey, modLaneSt, raiseR, sat, hs, hu, hx, hl, hr]
  clear_value n4
  have hr : voteKey r.1 = voteKey n4 := by
    simp only [r]
    split
    · exact voteKey_rejoinFrame n4 _ _ _ _ _
    · rfl
  clear_value r
  have h5 : voteKey n5 = voteKey r.1 := foldl_same (g := voteKey)
    (f := fun n l => modLane n l (fun x => { x with sent := digestOf n l, held := heldReset n l })) (fun _ _ => rfl) [0, 1, 2] r.1
  clear_value n5
  have h6 : voteKey n6 = voteKey n5 := foldl_same (g := voteKey) (f := excludeAsked) voteKey_excludeAsked [0, 1, 2] n5
  clear_value n6
  have h7 : voteKey n7 = voteKey n6 := voteKey_degFrame n6
  clear_value n7
  have h8 : voteKey n8 = voteKey n7 := foldl_same (g := voteKey) (fun n e => voteKey_excludeLane n e.1 e.2) excl n7
  clear_value n8
  have hall := ((((h8.trans h7).trans h6).trans h5).trans hr).trans h4
  by_cases hnone : second = true ∨ left = []
  · rw [if_pos hnone]
    obtain ⟨hs, hm, hx, hv, hu, hr⟩ := enterNone_leaves n8
    simp only [voteKey, Prod.mk.injEq] at hall
    obtain ⟨-, hv8, -, hu8, -, -, hr8⟩ := hall
    exact ⟨hv.trans hv8, hr.trans hr8, hu.trans hu8, .inr ⟨hs, hm, hx⟩⟩
  · rw [if_neg hnone]
    have h9 : voteKey n9 = voteKey n8 := voteKey_ite rfl (voteKey_noteLane n8 _)
    clear_value n9
    have hend := h9.trans hall
    simp only [voteKey, Prod.mk.injEq] at hend
    obtain ⟨hs, hv, hres, hu, -, -, hr⟩ := hend
    exact ⟨hv, hr, hu, .inl ⟨hs, hres, rfl, rfl⟩⟩

/-! The event -/

theorem dovetail_voted {n : Node} (h : n.laneSt.voted = true) (images : List (Nat × Word)) (sliceMiss : Bool) :
    dovetail images sliceMiss n = n := if_pos h

/-- The links of a frame without a vote. -/
def unvoted (n : Node) : Node := modLaneSt (if n.nodeSt.phase = 1 then n else linkFrames n) (fun s => { s with voted := true })

theorem dovetail_none {n : Node} (hv : n.laneSt.voted = false) (hs : n.laneSt.state = 3) (images : List (Nat × Word)) (sliceMiss : Bool) :
    dovetail images sliceMiss n = stageFrame (unvoted n) false := by
  unfold dovetail
  rw [if_neg (by rw [hv]; decide), if_pos (show lanesNone n = true from decide_eq_true hs)]
  rfl

theorem dovetail_evaluated {n : Node} (hv : n.laneSt.voted = false) (hs : n.laneSt.state < 3) (hi : n.laneSt.inDone = true)
    (he : n.laneSt.evalDone = true) (images : List (Nat × Word)) (sliceMiss : Bool) :
    dovetail images sliceMiss n = stageFrame (engines (laneBallot n images sliceMiss)) (delivers (laneBallot n images sliceMiss)) := by
  unfold dovetail
  rw [if_neg (by rw [hv]; decide), if_neg (by rw [not_lanesNone hs]; decide), if_pos hi]
  have heval : evaluate n = n := if_pos (.inl he)
  dsimp only
  rw [heval]

theorem linkFrames_leaves (n : Node) :
    (linkFrames n).laneSt = { n.laneSt with
      l01 := linkFrame (linkMissing n 0 1) n.laneSt.l01, l12 := linkFrame (linkMissing n 1 2) n.laneSt.l12, l20 := linkFrame (linkMissing n 2 0) n.laneSt.l20 } ∧
    (linkFrames n).regs = n.regs ∧
    (n.laneSt.l01.up = true → (linkFrame (linkMissing n 0 1) n.laneSt.l01).up = false → (3, 6) ∈ (linkFrames n).dueR) := by
  unfold linkFrames
  extract_lets f s l01 l12 l20 m m1 m2
  have more : ∀ c k, VoteKept k (raiseRIf c k 3 6) := fun c k => voteKept_ite ⟨rfl, List.prefix_append _ _⟩ (VoteKept.refl k)
  have h2 : VoteKept m1 (raiseRIf (s.l20.up && !l20.up) m2 3 6) := (more _ m1).trans (more _ m2)
  have h1 : VoteKept m m1 := more _ m
  have hall := h1.trans h2
  refine ⟨hall.laneSt, hall.regs, fun hup hdown => h2.due.subset ?_⟩
  have hfall : (s.l01.up && !l01.up) = true := by
    simp only [Bool.and_eq_true, Bool.not_eq_true']
    exact ⟨hup, hdown⟩
  simp only [m1, raiseRIf]
  rw [if_pos hfall]
  exact List.mem_append_right _ (List.mem_singleton_self _)

theorem unvoted_leaves (n : Node) :
    (unvoted n).laneSt = (if n.nodeSt.phase = 1 then { n.laneSt with voted := true } else { n.laneSt with
      voted := true, l01 := linkFrame (linkMissing n 0 1) n.laneSt.l01, l12 := linkFrame (linkMissing n 1 2) n.laneSt.l12,
      l20 := linkFrame (linkMissing n 2 0) n.laneSt.l20 }) ∧
    (unvoted n).regs = n.regs ∧ ((n.nodeSt.phase ≠ 1 ∧ n.laneSt.l01.up = true ∧ 1 ≤ n.laneSt.l01.bad ∧ n.laneSt.msgs = []) →
      (unvoted n).laneSt.l01.up = false ∧ (3, 6) ∈ (unvoted n).dueR) := by
  by_cases hp : n.nodeSt.phase = 1
  · simp only [unvoted, if_pos hp]
    exact ⟨rfl, rfl, fun h => absurd hp h.1⟩
  · simp only [unvoted, if_neg hp]
    obtain ⟨hl, hr, hdue⟩ := linkFrames_leaves n
    refine ⟨?_, hr, fun ⟨_, hup, hbad, hmsgs⟩ => ?_⟩
    · simp only [modLaneSt]
      rw [hl]
    · have hdown : (linkFrame (linkMissing n 0 1) n.laneSt.l01).up = false := by
        have hmiss : linkMissing n 0 1 = 2 := by simp [linkMissing, hmsgs, b2n]
        simp only [linkFrame, hmiss, hup]
        simp
        omega
      have hlane : (modLaneSt (linkFrames n) (fun s => { s with voted := true })).laneSt.l01.up = (linkFrames n).laneSt.l01.up := rfl
      refine ⟨?_, hdue hup hdown⟩
      rw [hlane, hl]
      exact hdown

/-- Settles O20: a frame already voted; the links of a frame without a vote; the ballot, which the engines and the staging of the
frame's records leave. -/
theorem voteOncePerFrame : Obligations.VoteOncePerFrame := by
  refine fun t image0 image1 image2 sliceMiss s => ⟨fun hv => acts_same rfl (dovetail_voted (n := atInstant s t) hv _ _), fun hv hs => ?_,
    fun hv hs hi he => ?_⟩
  · refine acts_of_eq (f := dovetail [(0, image0), (1, image1), (2, image2)] sliceMiss) rfl (dovetail_none (n := atInstant s t) hv hs _ _) ?_
    generalize atInstant s t = n
    obtain ⟨hl, hr, hdown⟩ := unvoted_leaves n
    have hk := voteKept_stageFrame (unvoted n) false
    have hrecs := laneRecs_stageFrame (unvoted n) false
    generalize stageFrame (unvoted n) false = u at hk hrecs ⊢
    refine ⟨hk.laneSt.trans hl, fun h => ?_, hrecs, hk.regs.trans hr⟩
    obtain ⟨hup, hdue⟩ := hdown h
    have hlane : (settle u).laneSt = (unvoted n).laneSt := hk.laneSt
    rw [hlane]
    exact ⟨hup, hk.due.subset hdue⟩
  · refine acts_of_eq (f := dovetail [(0, image0), (1, image1), (2, image2)] sliceMiss) rfl (dovetail_evaluated (n := atInstant s t) hv hs hi he _ _) ?_
    have hs' : (atInstant s t).laneSt.state < 3 := hs
    generalize atInstant s t = n at hs' ⊢
    have hb := laneBallot_leaves n [(0, image0), (1, image1), (2, image2)] sliceMiss
    generalize laneBallot n [(0, image0), (1, image1), (2, image2)] sliceMiss = b at hb ⊢
    have hk := (voteKept_engines b).trans (voteKept_stageFrame (engines b) (delivers b))
    have hrecs := laneRecs_stageFrame (engines b) (delivers b)
    generalize stageFrame (engines b) (delivers b) = u at hk hrecs ⊢
    have hlane : (settle u).laneSt = b.laneSt := hk.laneSt
    have hregs : (settle u).regs = b.regs := hk.regs
    rw [hlane, hregs]
    refine ⟨hb.voted, hrecs, hb.regs, hb.unres, fun h => ?_, fun h => ?_⟩
    · rcases hb.named with ⟨-, h1, h2, h3⟩ | ⟨h1, -, -⟩
      · exact ⟨h1, h2, h3⟩
      · omega
    · rcases hb.named with ⟨h1, -, -, -⟩ | h1
      · exact absurd h1 h
      · exact h1

end Sys2Proof.Machine
end

section
/-! PROOF. A CLEAR while an earlier one waits for its end refutes the statement on the recorder's commands (15 R359). -/

namespace Sys2Proof.Machine

/-- A node whose host has a session of level 4 and the token in force, before READY, and that still keeps how an earlier CLEAR
ended. -/
def clearKept : Node :=
  { seqs := [(6, { hseq := 1 })], mgt := { state := .run },
    config := { sessions := [(0, some { account := 0, level := 4, last := 0 })] },
    rec_ := { token := some { value := 0, deadline := 1, path := 0 }, clearDone := some true } }

theorem clearKept_meets : judge (atInstant { node := clearKept } 0) hostPath 6
      (recCmdCheck (atInstant { node := clearKept } 0) hostPath (recWord 2 0)) = .accept ∧
    tokenOk (atInstant { node := clearKept } 0) hostPath = true ∧
    ((atInstant { node := clearKept } 0).rec_.frameStaged && (atInstant { node := clearKept } 0).rec_.ready) = false := by
  decide +kernel

/-- The command is given the end of the one before it. -/
theorem result_clear_clearKept : (cmdOf (recCmdWrite clearKept hostPath (recWord 2 0)) 6).map (·.result) = some (some true) := by
  decide +kernel

theorem result_accepted_clearKept : (cmdOf (accepted clearKept hostPath 6 (at_ 6 0x74) (recWord 2 0) none) 6).map (·.result) = some none := by
  decide +kernel

/-- Refutes O53: before READY, a CLEAR that is accepted while the end of an earlier one is still kept (`clearDone`) takes that end as
its own at once, where the statement has it wait. -/
theorem not_freezeReadClearAndCapture : ¬ Obligations.FreezeReadClearAndCapture := by
  rintro ⟨-, -, -, commands⟩
  obtain ⟨hjudge, htoken, hstaged⟩ := clearKept_meets
  obtain ⟨-, -, -, -, clear, -⟩ := commands 0 0 { node := clearKept } (by decide)
  obtain ⟨u, hu, -, ⟨hsame, -⟩, -⟩ := (clear hjudge htoken).1 hstaged
  have hexec : exec (.recClear 0) { node := clearKept } =
      .next (onNode { node := clearKept } 0 (fun n => recCmdWrite n hostPath (recWord 2 0))) := rfl
  injection hexec.symm.trans hu with hu
  subst hu
  have hcmds := congrArg (fun n => (cmdOf n 6).map (·.result)) hsame
  have hsettle : ∀ m, cmdOf (settle m) 6 = cmdOf m 6 := fun _ => rfl
  have hbegin : begin_ clearKept 0 = clearKept := rfl
  rw [onNode_node, hbegin] at hcmds
  have hleft := hcmds.trans result_accepted_clearKept
  have hright := result_clear_clearKept
  rw [hsettle, hright] at hleft
  exact absurd hleft (by decide)

end Sys2Proof.Machine
end

section
/-! PROOF. What the fabric leaves of the functions' states, and how a function is locked (10 R222, R234). -/

namespace Sys2Proof.Machine

/-- The fabric's failure, and each function's state with its cause. -/
def fnKey (n : Node) : Bool × (Nat → SfState × Nat) := (n.safety.failed, fun k => ((fnOf n k).state, (fnOf n k).cause))

theorem fnKey_ite {p : Prop} [Decidable p] {n a b : Node} (ha : fnKey a = fnKey n) (hb : fnKey b = fnKey n) :
    fnKey (if p then a else b) = fnKey n := pred_ite (P := fun m => fnKey m = fnKey n) ha hb

theorem fnKey_foldl {α : Type} {f : Node → α → Node} (h : ∀ n x, fnKey (f n x) = fnKey n) (l : List α) (n : Node) :
    fnKey (l.foldl f n) = fnKey n := foldl_same (g := fnKey) h l n

theorem fnKey_of_rec {n u : Node} (h : RecFrame n u) : fnKey u = fnKey n := by
  obtain ⟨_, _, _, _, _, rfl, -⟩ := h
  rfl

theorem fnKey_of_outs {n u : Node} (h : OutsFrame n u) : fnKey u = fnKey n := by
  rw [OutsFrame] at h
  rw [h]
  rfl

theorem fnKey_modCopy (n : Node) (c : Nat) (f : FabCopy → FabCopy) : fnKey (modCopy n c f) = fnKey n := by
  unfold modCopy modSafety
  dsimp only
  split
  · rfl
  · split <;> rfl

theorem fnKey_modEval (n : Node) (c k : Nat) (f : Evaluator → Evaluator) : fnKey (modEval n c k f) = fnKey n := rfl

theorem fnOf_modFn_self (n : Node) (s : Nat) (f : SafetyFn → SafetyFn) : fnOf (modFn n s f) s = f (fnOf n s) := tget_tmod_self _ _ _ _

theorem fnOf_modFn_ne (n : Node) {s k : Nat} (f : SafetyFn → SafetyFn) (h : k ≠ s) : fnOf (modFn n s f) k = fnOf n k :=
  tget_tmod_ne _ _ _ h

theorem fnKey_dateLatch (t : Nat) (was n : Node) (s : Nat) : fnKey (dateLatch t was n s) = fnKey n := by
  refine fnKey_ite (Prod.ext rfl (funext fun k => ?_)) rfl
  by_cases hk : k = s
  · subst hk
    simp only [fnKey, fnOf_modFn_self]
  · simp only [fnKey, fnOf_modFn_ne n _ hk]

theorem fnKey_setLatch (t : Nat) (n : Node) (s : Nat) : fnKey (setLatch t n s) = fnKey n := by
  rw [setLatch_eq, fnKey_dateLatch]
  exact fnKey_foldl (f := fun n c => if fastDemand n c s then setCopyLatch n s c else n)
    (fun n c => fnKey_ite (fnKey_modCopy n c _) rfl) _ n

theorem fnKey_setLatches (n : Node) (t : Nat) : fnKey (setLatches n t) = fnKey n := fnKey_foldl (fnKey_setLatch t) _ n

theorem fnKey_settleOutputs (n : Node) : fnKey (settleOutputs n) = fnKey n :=
  fnKey_foldl (fun n o => fnKey_ite (fnKey_of_outs (dropOutput_leaves n o).1.outs) rfl) _ n

theorem fnKey_pairTicks (n : Node) (k : Nat) : fnKey (pairTicks n k) = fnKey n :=
  fnKey_foldl (f := fun n c => modEval n c k (advanceEval n.now (sinDt n k) (pairTested n k))) (fun n c => fnKey_modEval n c k _) _ n

theorem fnKey_evalTicks (n : Node) : fnKey (evalTicks n) = fnKey n := fnKey_foldl fnKey_pairTicks _ n

theorem fnKey_tickAt (k : Node) (d : Nat) : fnKey (tickAt k d) = fnKey k := by
  unfold tickAt
  rw [fnKey_settleOutputs, fnKey_setLatches, fnKey_evalTicks]
  rfl

theorem fnKey_fabricTicks (n : Node) : fnKey (fabricTicks n) = fnKey n := by
  rw [fabricTicks_eq]
  cases latchTicks n (evalTicks n) with
  | nil => exact fnKey_evalTicks n
  | cons d r => exact (fnKey_evalTicks _).trans (fnKey_foldl fnKey_tickAt (d :: r) n)

theorem fnKey_settlePair (n : Node) (k : Nat) : fnKey (settlePair n k) = fnKey n := by
  have hset : fnKey (pairSet n k) = fnKey n := fnKey_foldl (f := fun n c => modEval n c k (setEval n.now
    (disagrees (sinAnti n k) (cmpCopy n c (2 * k)) (cmpCopy n c (2 * k + 1)))
    (bothSafe (sinAnti n k) (cmpCopy n c (2 * k)) (cmpCopy n c (2 * k + 1))))) (fun n c => fnKey_modEval n c k _) _ n
  exact hset

theorem fnKey_fabricSettle (n : Node) : fnKey (fabricSettle n) = fnKey n := by
  unfold fabricSettle
  rw [fnKey_settleOutputs, fnKey_setLatches]
  exact fnKey_foldl fnKey_settlePair _ n

theorem fnKey_endHolds (n : Node) : fnKey (endHolds n) = fnKey n := fnKey_foldl (f := fun n ch => modFront n ch (setCopies (cmpOut n ch (frontOf n ch)))) (fun _ _ => rfl) (holdsEnded n) n

theorem fnKey_releaseAt (n : Node) (t : Nat) : fnKey (releaseAt n t) = fnKey n := by
  unfold releaseAt
  rw [fnKey_fabricSettle, fnKey_endHolds, fnKey_fabricTicks]
  rfl

theorem fnKey_releaseHolds (n : Node) : fnKey (releaseHolds n) = fnKey n :=
  fnKey_foldl fnKey_releaseAt ((holdsEnded n).foldl (fun l ch => insertNat (frontOf n ch).holdUntil l) []) n

theorem fnKey_setSoFlt (n : Node) (o code : Nat) : fnKey (setSoFlt n o code) = fnKey n := by
  obtain ⟨m, hm, hr⟩ := (setSoFlt_leaves n o code).1
  exact (fnKey_of_rec hr).trans (fnKey_of_outs hm.outs)

theorem fnKey_pulseVerdict (n : Node) (o : Nat) : fnKey (pulseVerdict n o) = fnKey n := by
  unfold pulseVerdict
  refine fnKey_ite ?_ rfl
  exact fnKey_setSoFlt (modOutput { n with now := (outputOf n o).pulseEnd } o (fun x => { x with verdict := false })) o 5

theorem fnKey_fabricAdvance (n : Node) : fnKey (fabricAdvance n) = fnKey n := by
  unfold fabricAdvance
  rw [pulseVerdicts_eq, fnKey_foldl fnKey_pulseVerdict, fnKey_fabricTicks, fnKey_releaseHolds]

/-! Locking -/

/-- The function is LOCKED with a cause. -/
def lockedBy (cause s : Nat) (n : Node) : Prop := (fnOf n s).state = .locked ∧ (fnOf n s).cause = cause

/-- One function locked, as `lockFns` goes through them. -/
def lockFn (cause : Nat) (n : Node) (s : Nat) : Node :=
  if (fnOf n s).state = .locked ∧ cause ≠ 13 then
    modFn n s (fun x => { x with cause := cause, time := n.sampleT, clearPend := false, slow := false, dem := votedDemand n s })
  else modFn (enterFn n s .locked cause n.sampleT) s (fun x => { x with slow := false, dem := votedDemand n s })

theorem lockFns_eq (n : Node) (fs : List Nat) (cause : Nat) :
    lockFns n fs cause = fs.foldl (lockFn (if n.safety.failed && cause == 12 then 11 else cause)) n := rfl

theorem fns_raiseFn (n : Node) (old new : SfState) : (raiseFn n old new).safety = n.safety := by
  unfold raiseFn
  have h : (raiseRIf (decide (old ≠ new)) n 8 0).safety = n.safety := pred_ite (P := fun m : Node => m.safety = n.safety) rfl rfl
  generalize raiseRIf (decide (old ≠ new)) n 8 0 = m at h
  cases new <;> exact h

theorem fnOf_enterLocked (n : Node) (s cause time k : Nat) : fnOf (enterFn n s .locked cause time) k =
    fnOf (modFn n s (fun x => { x with state := .locked, cause := cause, time := time, clearPend := false })) k := by
  unfold enterFn
  dsimp only
  rw [if_neg (by decide)]
  unfold fnOf
  rw [fns_raiseFn]
  rfl

theorem lockFn_locks (cause s : Nat) (n : Node) : lockedBy cause s (lockFn cause n s) := by
  unfold lockFn lockedBy
  split
  next h =>
    rw [fnOf_modFn_self]
    exact ⟨h.1, rfl⟩
  · rw [fnOf_modFn_self, fnOf_enterLocked, fnOf_modFn_self]
    exact ⟨rfl, rfl⟩

theorem fnOf_lockFn_ne {k s : Nat} (h : k ≠ s) (cause : Nat) (n : Node) : fnOf (lockFn cause n s) k = fnOf n k := by
  unfold lockFn
  split
  · rw [fnOf_modFn_ne n _ h]
  · rw [fnOf_modFn_ne _ _ h, fnOf_enterLocked, fnOf_modFn_ne n _ h]

theorem lockFn_keeps {cause k : Nat} {n : Node} (h : lockedBy cause k n) (s : Nat) : lockedBy cause k (lockFn cause n s) := by
  by_cases hk : k = s
  · subst hk
    exact lockFn_locks cause k n
  · unfold lockedBy
    rw [fnOf_lockFn_ne hk]
    exact h

theorem lockedBy_foldl {cause : Nat} (fs : List Nat) {s : Nat} (h : s ∈ fs) (n : Node) : lockedBy cause s (fs.foldl (lockFn cause) n) := by
  induction fs generalizing n with
  | nil => exact nomatch h
  | cons k r ih =>
    rcases List.mem_cons.mp h with rfl | hr
    · exact List.foldlRecOn (motive := lockedBy cause s) r (lockFn cause) (lockFn_locks cause s n) (fun m hm j _ => lockFn_keeps hm j)
    · exact ih hr _

/-- Every enabled function is LOCKED, with cause 11 after a fabric failure. -/
theorem lockFns_locks (n : Node) (fs : List Nat) {s : Nat} (h : s ∈ fs) :
    lockedBy (if n.safety.failed then 11 else 12) s (lockFns n fs 12) := by
  rw [lockFns_eq]
  have hc : (if n.safety.failed && 12 == 12 then 11 else 12) = (if n.safety.failed then 11 else 12) := by simp
  rw [hc]
  exact lockedBy_foldl fs h n

end Sys2Proof.Machine
end

section
/-! PROOF. Lanes that take up service, the host watchdog and the return from NONE (11 R259, R261, 17 R391, R393). -/

namespace Sys2Proof.Machine

/-! The lanes move -/

/-- The lanes and their state, the time base's lane counters, commands, the interrupts of RESULT_READY and what a record changes
move, and nothing else. -/
def LanesMove (n u : Node) : Prop := ∃ ls st tb dr cm, RecFrame { n with lanes := ls, laneSt := st, tb := tb, dueR := dr, cmds := cm } u

theorem LanesMove.refl (n : Node) : LanesMove n n := ⟨n.lanes, n.laneSt, n.tb, n.dueR, n.cmds, recFrame_refl n⟩

theorem LanesMove.trans {a b c : Node} (h : LanesMove a b) (k : LanesMove b c) : LanesMove a c := by
  obtain ⟨ls, st, tb, dr, cm, r, l, hd, d, q, rfl, hh⟩ := h
  obtain ⟨ls', st', tb', dr', cm', r', l', hd', d', q', rfl, hh'⟩ := k
  exact ⟨ls', st', tb', dr', cm', r', l', hd', d', q', rfl, fun p hp => (hh' p hp).trans (hh p hp)⟩

theorem lanesMove_foldl {α : Type} {f : Node → α → Node} (h : ∀ n x, LanesMove n (f n x)) (l : List α) (n : Node) : LanesMove n (l.foldl f n) :=
  foldl_rel LanesMove.refl LanesMove.trans h l n

theorem lanesMove_of_rec {n u : Node} (h : RecFrame n u) : LanesMove n u := ⟨n.lanes, n.laneSt, n.tb, n.dueR, n.cmds, h⟩

theorem lanesMove_modLane (n : Node) (l : Nat) (f : Lane → Lane) : LanesMove n (modLane n l f) :=
  ⟨_, n.laneSt, n.tb, n.dueR, n.cmds, recFrame_refl _⟩

theorem lanesMove_modLaneSt (n : Node) (f : LaneSt → LaneSt) : LanesMove n (modLaneSt n f) :=
  ⟨n.lanes, _, n.tb, n.dueR, n.cmds, recFrame_refl _⟩

theorem lanesMove_raiseR (n : Node) (p b : Nat) : LanesMove n (raiseR n p b) := ⟨n.lanes, n.laneSt, n.tb, _, n.cmds, recFrame_refl _⟩

theorem lanesMove_loadLane (n : Node) (l : Nat) : LanesMove n (loadLane n l) := ⟨n.lanes, n.laneSt, _, n.dueR, n.cmds, recFrame_refl _⟩

theorem lanesMove_setPhase (n : Node) (l p : Nat) : LanesMove n (setPhase n l p) := by
  unfold setPhase
  exact pred_ite (P := LanesMove n) (LanesMove.refl n) ((lanesMove_of_rec (recFrame_noteLane n _)).trans (lanesMove_modLane _ l _))

/-- The part of the node that lanes do not move. -/
def besideLanes (n : Node) :=
  ((n.now, n.points, n.groups, n.call, n.launches), (n.regs, n.nodeSt, n.duplex, n.ranks, n.safety), n.config.accounts)

theorem LanesMove.beside {n u : Node} (h : LanesMove n u) : besideLanes u = besideLanes n := by
  obtain ⟨_, _, _, _, _, _, _, _, _, _, rfl, -⟩ := h
  rfl

/-! Lanes take up service -/

/-- A lane in service, its state afresh. -/
def laneServes (n : Node) (l : Nat) : Node :=
  setPhase (modLane (loadLane n l) l (fun x => { x with
    lastMsg := some n.now, request := none, carried := false, wdog := false, tested := false, held := false })) l 0

/-- The state that the lanes in service name. -/
def serviceSt (good : List Nat) (now : Nat) (s : LaneSt) : LaneSt :=
  { s with
    state := 3 - good.length, mask := bitSet good, counted := bitSet good, next := none,
    tmrSince := if good.length = 3 then some now else none, evalDone := true, voted := true }

/-- The lanes' state and its interrupt, before the lanes themselves. -/
def serviceTold (n : Node) (good : List Nat) : Node :=
  let m := modLaneSt n (serviceSt good n.now)
  raiseR (noteLane m (recLane m 1 0xFF 3 m.laneSt.state 0 0 0)) 3 0

theorem lanesVote_eq (n : Node) (good : List Nat) : lanesVote n good = good.foldl laneServes (serviceTold n good) := rfl

theorem lanesMove_laneServes (n : Node) (l : Nat) : LanesMove n (laneServes n l) :=
  ((lanesMove_loadLane n l).trans (lanesMove_modLane _ l _)).trans (lanesMove_setPhase _ l 0)

theorem phase_setPhase (n : Node) (l p : Nat) : (laneOf (setPhase n l p) l).phase = p ∧
    ∀ k, k ≠ l → laneOf (setPhase n l p) k = laneOf n k := by
  by_cases h : (laneOf n l).phase = p
  · rw [show setPhase n l p = n from if_pos h]
    exact ⟨h, fun _ _ => rfl⟩
  · obtain ⟨hself, hother⟩ := laneOf_setPhase h
    exact ⟨by rw [hself], hother⟩

theorem phase_laneServes (n : Node) (l : Nat) : (laneOf (laneServes n l) l).phase = 0 ∧
    ∀ k, k ≠ l → laneOf (laneServes n l) k = laneOf n k := by
  obtain ⟨hself, hother⟩ := phase_setPhase (modLane (loadLane n l) l (fun x => { x with
    lastMsg := some n.now, request := none, carried := false, wdog := false, tested := false, held := false })) l 0
  refine ⟨hself, fun k hk => (hother k hk).trans ?_⟩
  exact laneOf_modLane_ne _ _ hk

theorem phase_foldl_laneServes (good : List Nat) (n : Node) :
    (∀ l ∈ good, (laneOf (good.foldl laneServes n) l).phase = 0) ∧ ∀ k, k ∉ good → laneOf (good.foldl laneServes n) k = laneOf n k := by
  induction good generalizing n with
  | nil => exact ⟨fun _ h => absurd h List.not_mem_nil, fun _ _ => rfl⟩
  | cons a r ih =>
    obtain ⟨hin, hout⟩ := ih (laneServes n a)
    obtain ⟨hself, hother⟩ := phase_laneServes n a
    refine ⟨fun l hl => ?_, fun k hk => ?_⟩
    · by_cases hr : l ∈ r
      · exact hin l hr
      · rcases List.mem_cons.mp hl with rfl | hmem
        · rw [List.foldl_cons, hout l hr]
          exact hself
        · exact absurd hmem hr
    · obtain ⟨hka, hkr⟩ := not_or.mp (fun h => hk (List.mem_cons.mpr h))
      rw [List.foldl_cons, hout k hkr]
      exact hother k hka

theorem voteKept_setPhase (n : Node) (l p : Nat) : VoteKept n (setPhase n l p) := by
  unfold setPhase
  refine voteKept_ite (VoteKept.refl n) ((voteKept_of_rec (recFrame_noteLane n _)).trans ⟨rfl, List.prefix_rfl⟩)

theorem voteKept_laneServes (n : Node) (l : Nat) : VoteKept n (laneServes n l) := by
  have hset : VoteKept n (modLane (loadLane n l) l (fun x => { x with
    lastMsg := some n.now, request := none, carried := false, wdog := false, tested := false, held := false })) := ⟨rfl, List.prefix_rfl⟩
  exact hset.trans (voteKept_setPhase _ l 0)

/-- What lanes that take up service leave. -/
theorem lanesVote_leaves (n : Node) (good : List Nat) :
    LanesMove n (lanesVote n good) ∧ (lanesVote n good).laneSt = serviceSt good n.now n.laneSt ∧ (3, 0) ∈ (lanesVote n good).dueR ∧
    (∀ l ∈ good, (laneOf (lanesVote n good) l).phase = 0) ∧ ∀ k, k ∉ good → laneOf (lanesVote n good) k = laneOf n k := by
  rw [lanesVote_eq]
  have hnote := recFrame_noteLane (modLaneSt n (serviceSt good n.now)) (recLane (modLaneSt n (serviceSt good n.now)) 1 0xFF 3
    (modLaneSt n (serviceSt good n.now)).laneSt.state 0 0 0)
  have htold : LanesMove n (serviceTold n good) ∧ (serviceTold n good).laneSt = serviceSt good n.now n.laneSt ∧
      (3, 0) ∈ (serviceTold n good).dueR ∧ ∀ k, laneOf (serviceTold n good) k = laneOf n k := by
    unfold serviceTold
    dsimp only
    refine ⟨((lanesMove_modLaneSt n _).trans (lanesMove_of_rec hnote)).trans (lanesMove_raiseR _ 3 0), ?_,
      List.mem_append_right _ (List.mem_singleton_self _), fun k => laneOf_noteLane _ _ k⟩
    exact (voteKept_of_rec hnote).laneSt
  obtain ⟨hmove, hst, hdue, hlane⟩ := htold
  generalize serviceTold n good = m at hmove hst hdue hlane ⊢
  have hkept := voteKept_foldl voteKept_laneServes good m
  obtain ⟨hin, hout⟩ := phase_foldl_laneServes good m
  exact ⟨hmove.trans (lanesMove_foldl lanesMove_laneServes good m), hkept.laneSt.trans hst, hkept.due.subset hdue, hin,
    fun k hk => (hout k hk).trans (hlane k)⟩

/-! Locking leaves the rest -/

/-- The safety part moves, and interrupts of RESULT_READY are added. -/
def FnsMove (n u : Node) : Prop := ∃ sf dr, u = { n with safety := sf, dueR := n.dueR ++ dr }

theorem FnsMove.refl (n : Node) : FnsMove n n := ⟨n.safety, [], by rw [List.append_nil]⟩

theorem FnsMove.trans {a b c : Node} (h : FnsMove a b) (k : FnsMove b c) : FnsMove a c := by
  obtain ⟨sf, dr, rfl⟩ := h
  obtain ⟨sf', dr', rfl⟩ := k
  exact ⟨sf', dr ++ dr', by rw [List.append_assoc]⟩

theorem fnsMove_modFn (n : Node) (s : Nat) (f : SafetyFn → SafetyFn) : FnsMove n (modFn n s f) := ⟨_, [], by rw [List.append_nil]; rfl⟩

theorem fnsMove_raiseR (n : Node) (p b : Nat) : FnsMove n (raiseR n p b) := ⟨n.safety, [(p, b)], rfl⟩

theorem fnsMove_raiseFn (n : Node) (old new : SfState) : FnsMove n (raiseFn n old new) := by
  have h : FnsMove n (raiseRIf (decide (old ≠ new)) n 8 0) := pred_ite (P := FnsMove n) (fnsMove_raiseR n 8 0) (FnsMove.refl n)
  unfold raiseFn
  generalize raiseRIf (decide (old ≠ new)) n 8 0 = m at h
  cases new with
  | locked => exact h.trans (fnsMove_raiseR m 8 3)
  | tripped => exact h.trans (fnsMove_raiseR m 8 2)
  | active => exact h.trans (fnsMove_raiseR m 8 1)
  | _ => exact h

theorem fnsMove_lockFn (cause : Nat) (n : Node) (s : Nat) : FnsMove n (lockFn cause n s) := by
  have henter : FnsMove n (enterFn n s .locked cause n.sampleT) := by
    unfold enterFn
    extract_lets old m k
    have hk : FnsMove n k := (fnsMove_modFn n s _).trans (fnsMove_raiseFn m old _)
    rw [if_neg (by decide)]
    exact hk
  exact pred_ite (P := FnsMove n) (fnsMove_modFn n s _) (henter.trans (fnsMove_modFn _ s _))

theorem fnsMove_lockFns (n : Node) (fs : List Nat) (cause : Nat) : FnsMove n (lockFns n fs cause) := by
  rw [lockFns_eq]
  exact foldl_rel FnsMove.refl FnsMove.trans (fnsMove_lockFn _) fs n

/-! LANES_RESUME -/

/-- The lanes in service again, before an operational node asks for SAFE. -/
def resumed (n : Node) : Node :=
  let m := lanesVote (lanesCold n) [0, 1, 2]
  lockFns m (enabledFns m) 12

theorem lanesResume_eq {n : Node} (h : n.laneSt.state = 3) (hp : n.nodeSt.state ≠ .init ∨ n.nodeSt.phase ≠ 1) : lanesResume n =
    if operational (resumed n) then modNode (resumed n) (fun s => { s with safePend := some 2 }) else resumed n := by
  refine if_neg ?_
  rw [show lanesNone n = true from decide_eq_true h]
  simp only [Bool.not_true, Bool.false_eq_true, false_or, not_and_or]
  exact hp

theorem lanesResume_of_not {n : Node} (h : n.laneSt.state ≠ 3 ∨ (n.nodeSt.state = .init ∧ n.nodeSt.phase = 1)) : lanesResume n = n := by
  refine if_pos (h.imp (fun h => ?_) id)
  rw [show lanesNone n = false from decide_eq_false h]
  rfl

theorem resumed_leaves (n : Node) :
    (resumed n).laneSt = serviceSt [0, 1, 2] n.now n.laneSt ∧ (∀ l, l < 3 → (laneOf (resumed n) l).phase = 0) ∧ (3, 0) ∈ (resumed n).dueR ∧
    ((resumed n).points = [] ∧ (resumed n).groups = [] ∧ (resumed n).call = { lastHbt := n.call.lastHbt, brLost := n.call.brLost } ∧
      (resumed n).launches = []) ∧ (resumed n).regs = n.regs ∧ (resumed n).nodeSt = n.nodeSt ∧
    ∀ fn ∈ enabledFns n, lockedBy (if n.safety.failed then 11 else 12) fn (resumed n) := by
  unfold resumed
  dsimp only
  obtain ⟨hmove, hst, hdue, hin, -⟩ := lanesVote_leaves (lanesCold n) [0, 1, 2]
  generalize lanesVote (lanesCold n) [0, 1, 2] = m at hmove hst hdue hin ⊢
  have hb := hmove.beside
  simp only [besideLanes, Prod.mk.injEq] at hb
  obtain ⟨⟨-, hpts, hgrp, hcall, hlaunch⟩, ⟨hregs, hnode, -, -, hsaf⟩, -⟩ := hb
  have hfns : enabledFns m = enabledFns n := enabledFns_of_regs hregs
  have hfail : m.safety.failed = n.safety.failed := (congrArg Safety.failed hsaf).trans rfl
  have hlock := fun fn (hfn : fn ∈ enabledFns n) => lockFns_locks m (enabledFns m) (s := fn) (by rw [hfns]; exact hfn)
  rw [hfail] at hlock
  obtain ⟨sf, dr, hl⟩ := fnsMove_lockFns m (enabledFns m) 12
  generalize lockFns m (enabledFns m) 12 = u at hl hlock ⊢
  refine ⟨?_, fun l hl3 => ?_, ?_, ⟨?_, ?_, ?_, ?_⟩, ?_, ?_, hlock⟩
  · rw [hl]; exact hst
  · rw [hl]; exact hin l (by interval_cases l <;> decide)
  · rw [hl]; exact List.mem_append_left _ hdue
  · rw [hl]; exact hpts
  · rw [hl]; exact hgrp
  · rw [hl]; exact hcall
  · rw [hl]; exact hlaunch
  · rw [hl]; exact hregs
  · rw [hl]; exact hnode

end Sys2Proof.Machine
end

section
/-! PROOF. The statement on the host watchdog and the return from NONE (17 R391, R393, 11 R261). -/

namespace Sys2Proof.Machine

theorem acts_hwdogExpire {t : Nat} {s : State} (hs : s.node.nodeSt.state = .run) (ht : fld (reg s.node (at_ 0 0x60)) 15 0 ≠ 0)
    (hp : s.node.nodeSt.safePend ≠ some 3)
    (hk : s.node.nodeSt.kickAt + fld (reg s.node (at_ 0 0x60)) 15 0 * 100000000 ≤ max s.node.now t) :
    Acts (.hwdogExpire t) s t (fun n u => SameButSignals u { n with
      nodeSt := { n.nodeSt with hwdogFault := true, safePend := some (n.nodeSt.safePend.getD 3) }, dueB := n.dueB ++ [(0, 3)] }) :=
  acts_of_eq (f := hwdogExpire) rfl (if_pos ⟨decide_eq_true hs, ht, hp, hk⟩) rfl

theorem acts_hwdogExpire_not {t : Nat} {s : State} (h : s.node.nodeSt.state ≠ .run ∨ fld (reg s.node (at_ 0 0x60)) 15 0 = 0 ∨
      s.node.nodeSt.safePend = some 3 ∨ max s.node.now t < s.node.nodeSt.kickAt + fld (reg s.node (at_ 0 0x60)) 15 0 * 100000000) :
    Acts (.hwdogExpire t) s t (fun n u => SameButSignals u n) := by
  refine acts_same (f := hwdogExpire) rfl (if_neg ?_)
  rintro ⟨hs, ht, hp, hk⟩
  rcases h with h | h | h | h
  · exact h (of_decide_eq_true hs)
  · exact ht h
  · exact hp h
  · exact absurd hk (Nat.not_le_of_lt h)

/-- What the fabric's settling leaves. -/
theorem settled_leaves (n : Node) : (fabricSettle n).laneSt = n.laneSt ∧ (∀ l, laneOf (fabricSettle n) l = laneOf n l) ∧
    (fabricSettle n).dueR = n.dueR ∧ (fabricSettle n).points = n.points ∧ (fabricSettle n).groups = n.groups ∧
    (fabricSettle n).call = n.call ∧ (fabricSettle n).launches = n.launches ∧ (fabricSettle n).regs = n.regs ∧
    (fabricSettle n).nodeSt = n.nodeSt := by
  have h := safFrame_fabricSettle n
  rw [SafFrame] at h
  rw [h]
  exact ⟨rfl, fun _ => rfl, rfl, rfl, rfl, rfl, rfl, rfl, rfl⟩

/-- What the fabric's way up to the instant leaves. -/
theorem advanced_leaves (n : Node) : (fabricAdvance n).laneSt = n.laneSt ∧ (fabricAdvance n).now = n.now ∧
    (fabricAdvance n).call = n.call ∧ (fabricAdvance n).regs = n.regs ∧ (fabricAdvance n).nodeSt = n.nodeSt ∧
    (fabricAdvance n).safety.failed = n.safety.failed := by
  have hkey := congrArg Prod.fst (fnKey_fabricAdvance n)
  obtain ⟨hfab, hnow⟩ := fabricAdvance_leaves n
  obtain ⟨r, l, h, d, q, hm, -⟩ := hfab
  refine ⟨?_, hnow, ?_, ?_, ?_, hkey⟩ <;> rw [hm]

theorem acts_lanesResume {t : Nat} {s : State} (h : s.node.laneSt.state = 3)
    (hp : s.node.nodeSt.state ≠ .init ∨ s.node.nodeSt.phase ≠ 1) :
    Acts (.lanesResume t) s t (fun n u => fabricHolds u ∧ u.laneSt.state = 0 ∧ u.laneSt.mask = 7 ∧
        u.laneSt.counted = 7 ∧ u.laneSt.tmrSince = some n.now ∧ (∀ l, l < 3 → (laneOf u l).phase = 0) ∧ (3, 0) ∈ u.dueR ∧ u.points = [] ∧ u.groups = [] ∧
        u.call = { lastHbt := n.call.lastHbt, brLost := n.call.brLost } ∧ u.launches = [] ∧ u.regs = n.regs ∧
        (∀ fn ∈ enabledFns n, (fnOf u fn).state = .locked ∧ (fnOf u fn).cause = (if n.safety.failed then 11 else 12)) ∧
        u.nodeSt.safePend = (if operational n then some 2 else n.nodeSt.safePend) ∧ u.nodeSt.state = n.nodeSt.state) := by
  refine acts_leaves (f := withFabric lanesResume) rfl (fun u hu => ?_)
  have h' : (atInstant s t).laneSt.state = 3 := h
  have hp' : (atInstant s t).nodeSt.state ≠ .init ∨ (atInstant s t).nodeSt.phase ≠ 1 := hp
  generalize atInstant s t = n at hu h' hp' ⊢
  obtain ⟨hlane, hnow, hcall, hregs, hnode, hfail⟩ := advanced_leaves n
  unfold withFabric at hu
  generalize fabricAdvance n = m at hu hlane hnow hcall hregs hnode hfail
  rw [lanesResume_eq (n := m) (by rw [hlane]; exact h') (by rw [hnode]; exact hp')] at hu
  obtain ⟨rst, rphase, rdue, ⟨rpts, rgrp, rcall, rlaunch⟩, rregs, rnode, rfns⟩ := resumed_leaves m
  rw [enabledFns_of_regs hregs, hfail] at rfns
  generalize resumed m = k at hu rst rphase rdue rpts rgrp rcall rlaunch rregs rnode rfns
  have hop : operational k = operational n := operational_of_nodeSt (rnode.trans hnode)
  have hask : ∀ x, x = (if operational k then modNode k (fun s => { s with safePend := some 2 }) else k) →
      fnKey x = fnKey k ∧ x.laneSt = k.laneSt ∧ (∀ l, laneOf x l = laneOf k l) ∧ x.dueR = k.dueR ∧ x.points = k.points ∧ x.groups = k.groups ∧
      x.call = k.call ∧ x.launches = k.launches ∧ x.regs = k.regs ∧
      x.nodeSt.safePend = (if operational n then some 2 else n.nodeSt.safePend) ∧ x.nodeSt.state = n.nodeSt.state := by
    rintro x rfl
    rw [hop]
    cases operational n with
    | true => exact ⟨rfl, rfl, fun _ => rfl, rfl, rfl, rfl, rfl, rfl, rfl, rfl, by rw [← hnode, ← rnode]; rfl⟩
    | false => exact ⟨rfl, rfl, fun _ => rfl, rfl, rfl, rfl, rfl, rfl, rfl, by rw [← hnode, ← rnode]; rfl, by rw [← hnode, ← rnode]; rfl⟩
  generalize (if operational k then modNode k (fun s => { s with safePend := some 2 }) else k) = x at hu hask
  obtain ⟨akey, ast, aphase, adue, apts, agrp, acall, alaunch, aregs, apend, astate⟩ := hask x rfl
  have hholds := fabricHolds_fabricSettle x
  have hkey := fnKey_fabricSettle x
  obtain ⟨bst, bphase, bdue, bpts, bgrp, bcall, blaunch, bregs, bnode⟩ := settled_leaves x
  rw [← hu] at hholds hkey bst bphase bdue bpts bgrp bcall blaunch bregs bnode
  have hst : (settle u).laneSt = serviceSt [0, 1, 2] m.now m.laneSt := (bst.trans ast).trans rst
  refine ⟨hholds, ?_, ?_, ?_, ?_, fun l hl => ?_, ?_, (bpts.trans apts).trans rpts, (bgrp.trans agrp).trans rgrp, ?_,
    (blaunch.trans alaunch).trans rlaunch, ((bregs.trans aregs).trans rregs).trans hregs, fun fn hfn => ?_, ?_, ?_⟩
  · rw [hst]; rfl
  · rw [hst]; exact (by decide : bitSet [0, 1, 2] = 7)
  · rw [hst]; exact (by decide : bitSet [0, 1, 2] = 7)
  · rw [hst, hnow]; rfl
  · have hsl : laneOf (settle u) l = laneOf k l := (bphase l).trans (aphase l)
    rw [hsl]
    exact rphase l hl
  · have hsd : (settle u).dueR = k.dueR := bdue.trans adue
    rw [hsd]
    exact rdue
  · rw [← hcall]
    exact (bcall.trans acall).trans rcall
  · have hfn' := congrFun (congrArg Prod.snd (hkey.trans akey)) fn
    obtain ⟨hs1, hc1⟩ := rfns fn hfn
    exact ⟨(congrArg Prod.fst hfn').trans hs1, (congrArg Prod.snd hfn').trans hc1⟩
  · exact (congrArg NodeSt.safePend bnode).trans apend
  · exact (congrArg NodeSt.state bnode).trans astate

theorem acts_lanesResume_not {t : Nat} {s : State} (h : s.node.laneSt.state ≠ 3 ∨ (s.node.nodeSt.state = .init ∧ s.node.nodeSt.phase = 1)) :
    Acts (.lanesResume t) s t (fun n u =>
      SameButSignals u { fabricAdvance n with safety := u.safety, cmds := u.cmds } ∧ fabricHolds u) := by
  refine acts_leaves (f := withFabric lanesResume) rfl (fun u hu => ?_)
  have h' : (atInstant s t).laneSt.state ≠ 3 ∨ ((atInstant s t).nodeSt.state = .init ∧ (atInstant s t).nodeSt.phase = 1) := h
  generalize atInstant s t = n at hu h' ⊢
  obtain ⟨hlane, -, -, -, hnode, -⟩ := advanced_leaves n
  unfold withFabric at hu
  generalize fabricAdvance n = m at hu hlane hnode ⊢
  rw [lanesResume_of_not (n := m) (by rw [hlane, hnode]; exact h')] at hu
  rw [hu]
  exact ⟨(safFrame_fabricSettle m).signals, fabricHolds_fabricSettle m⟩

/-! The entry to SAFE -/

/-- The automatic entry taken from where it waits. -/
def safeTaken (n : Node) : Node := modNode n (fun s => { s with safePend := none })

theorem autoSafe_eq {n : Node} {c : Nat} (hc : n.nodeSt.safePend = some c) (hp : n.power.pfail = false) : autoSafe n =
    if (safeTaken n).nodeSt.state = .safe ∧ c = 2 then (modNode (safeTaken n) (fun s => { s with safeCause := 2 }), false)
    else if isRun (safeTaken n) ∨ (isConfig (safeTaken n) ∧ c = 2) then (raiseB (enterSafe (safeTaken n) c) 0 2, true)
    else (safeTaken n, false) := by
  unfold autoSafe
  rw [hc]
  dsimp only
  rw [if_neg (by rw [hp]; decide)]
  rfl

theorem autoSafe_leaves {n : Node} {c : Nat} (hc : n.nodeSt.safePend = some c) (hp : n.power.pfail = false) :
    (autoSafe n).1.nodeSt.safePend = none ∧ (autoSafe n).1.regs = n.regs ∧
    (n.nodeSt.state = .run ∨ (n.nodeSt.state = .config ∧ c = 2) →
      (autoSafe n).2 = true ∧ (autoSafe n).1.nodeSt.state = .safe ∧ (autoSafe n).1.nodeSt.safeCause = c ∧ (0, 2) ∈ (autoSafe n).1.dueB) ∧
    (n.nodeSt.state = .safe → (autoSafe n).2 = false ∧ (autoSafe n).1.nodeSt.state = .safe ∧
      (autoSafe n).1.nodeSt.safeCause = (if c = 2 then 2 else n.nodeSt.safeCause)) ∧
    (n.nodeSt.state = .init ∨ n.nodeSt.state = .standby ∨ (n.nodeSt.state = .config ∧ c ≠ 2) →
      (autoSafe n).2 = false ∧ (autoSafe n).1.nodeSt.state = n.nodeSt.state) := by
  rw [autoSafe_eq hc hp]
  have hst : (safeTaken n).nodeSt = { n.nodeSt with safePend := none } := rfl
  have hregs : (safeTaken n).regs = n.regs := rfl
  have hrun : isRun (safeTaken n) = decide (n.nodeSt.state = .run) := rfl
  have hconf : isConfig (safeTaken n) = decide (n.nodeSt.state = .config) := rfl
  generalize safeTaken n = m at hst hregs hrun hconf ⊢
  have hsafe : m.nodeSt.state = n.nodeSt.state := by rw [hst]
  by_cases h1 : m.nodeSt.state = .safe ∧ c = 2
  · rw [if_pos h1]
    have hs := hsafe.symm.trans h1.1
    refine ⟨by rw [show (modNode m _).nodeSt = { m.nodeSt with safeCause := 2 } from rfl, hst], hregs, fun h => ?_,
      fun _ => ⟨rfl, h1.1, by rw [if_pos h1.2]; rfl⟩, fun h => ?_⟩
    · rw [hs] at h
      simp at h
    · rw [hs] at h
      simp at h
  · rw [if_neg h1]
    by_cases h2 : isRun m = true ∨ (isConfig m = true ∧ c = 2)
    · rw [if_pos h2]
      rw [hrun, hconf, decide_eq_true_iff, decide_eq_true_iff] at h2
      have hne : m.nodeSt.state ≠ .safe := by
        rw [hsafe]
        rcases h2 with h | ⟨h, -⟩ <;> rw [h] <;> decide
      obtain ⟨e1, e2, -⟩ := enterSafe_leaves hne c
      generalize enterSafe m c = k at e1 e2
      have hk : (raiseB k 0 2).nodeSt = { m.nodeSt with safeCause := c, state := .safe } := e1
      refine ⟨by rw [hk, hst], e2.trans hregs, fun _ => ⟨rfl, by rw [hk], by rw [hk], List.mem_append_right _ (List.mem_singleton_self _)⟩,
        fun h => absurd h (by rw [← hsafe]; exact hne), fun h => ?_⟩
      rcases h2 with h2 | ⟨h2, hc2⟩ <;> rw [h2] at h <;> simp [*] at h
    · rw [if_neg h2]
      rw [hrun, hconf, decide_eq_true_iff, decide_eq_true_iff] at h2
      refine ⟨by rw [hst], hregs, fun h => absurd h h2, fun h => ⟨rfl, hsafe.trans h, ?_⟩, fun _ => ⟨rfl, hsafe⟩⟩
      have hc2 : c ≠ 2 := fun he => h1 ⟨hsafe.trans h, he⟩
      rw [if_neg hc2, hst]

/-- Settles O59: the watchdog by its conditions; the return from NONE by what each of its steps leaves; the entry to SAFE by the
state in which it is applied. -/
theorem watchdogAndResume : Obligations.WatchdogAndResume := by
  refine ⟨fun t s => ⟨acts_hwdogExpire, acts_hwdogExpire_not, fun h => ?_, fun h => ?_, acts_lanesResume, acts_lanesResume_not⟩,
    fun n c => autoSafe_leaves⟩
  · exact acts_of_eq (f := fun n => unlocked n hostPath 0 kick) rfl (if_neg (ne_true_of_eq_false h)) rfl
  · refine acts_of_eq (f := fun n => unlocked n hostPath 0 kick) rfl (if_pos (c := (headerOf (atInstant s t) 0).locked = true) h) ?_
    exact lockedWrite_leaves _ 0

end Sys2Proof.Machine
end

section
/-! PROOF. What the staging of a record leaves of the recorder (15 R347, R351, R359). -/

namespace Sys2Proof.Machine

/-- The recorder but for what the staging of records changes. -/
def stagedOnly (r : Recorder) : Recorder :=
  { r with nextRseq := 0, lastRseq := 0, lastCrc := 0, staging := [], waiting := [], laneRecs := [], disc := 0, overrun := none,
           stagedAt := [], ratePeak := 0, caps := [], token := none }

/-- What a record that clears nothing leaves of the recorder. -/
def keptRec (n : Node) : Recorder := stagedOnly n.rec_

/-- What any record leaves of the recorder. -/
def heldRec (n : Node) : Recorder := { keptRec n with flash := [], mram := [], committed := 0, clearDone := none }

theorem keptRec_discardRec (n : Node) (r : Rec) : keptRec (discardRec n r) = keptRec n := by
  have hraise : ∀ c (m : Node) p b, keptRec (raiseIf c m p b) = keptRec m := fun c m p b =>
    pred_ite (P := fun k : Node => keptRec k = keptRec m) rfl rfl
  unfold discardRec
  extract_lets tai first o ab o' src m k
  have hk : keptRec k = keptRec n := hraise first m 6 3
  clear_value k
  split
  · exact pred_ite (P := fun m : Node => keptRec m = keptRec n) hk hk
  · exact hk

theorem keptRec_afterStage (n : Node) (q : Nat) (r : Rec) : keptRec (afterStage n q r) = keptRec n := by
  unfold afterStage
  split <;> split <;> rfl

theorem keptRec_sureOf (n : Node) (q : Nat) : keptRec (sureOf n q) = keptRec n :=
  pred_ite (P := fun u : Node => keptRec u = keptRec n) rfl rfl

theorem heldRec_of_kept {n u : Node} (h : keptRec u = keptRec n) : heldRec u = heldRec n := by
  unfold heldRec
  rw [h]

theorem heldRec_finishClear (n : Node) (q : Option Nat) (r : Rec) : heldRec (finishClear n q r) = heldRec n := by
  have hcommit : ∀ k, heldRec (commitTo n k) = heldRec n := fun k => by
    unfold commitTo commitSome modRec
    dsimp only
    split <;> rfl
  unfold finishClear
  split
  · rfl
  · cases q with
    | none => rfl
    | some k => exact hcommit k

theorem clearTo_withCapId (n : Node) (q : Nat) (r : Rec) : (withCapId n q r).clearTo = r.clearTo := by
  unfold withCapId
  split <;> rfl

theorem finishClear_of_none {r : Rec} (h : r.clearTo = none) (n : Node) (q : Option Nat) : finishClear n q r = n := by
  unfold finishClear
  rw [h]

theorem withRange_of_none {r : Rec} (h : r.clearTo = none) (n : Node) : withRange n r = r := by
  unfold withRange
  rw [h]

/-- A record that has got its RSEQ, before what follows from it (15 R347). -/
def stagedAs (n : Node) (vote : Nat) (r : Rec) : Node :=
  let q := n.rec_.nextRseq
  let s : SRec := { rseq := q, link := n.rec_.lastCrc, crc := 0, flags := recFlags n r vote, mram := decide (n.rec_.store = .mram),
                    body := withRange n (withCapId n q r) }
  { n with rec_ := { n.rec_ with
    nextRseq := q + 1, lastRseq := q, lastCrc := crc32c (recBody s), staging := n.rec_.staging ++ [{ s with crc := crc32c (recBody s) }] } }

theorem stageRec_eq (n : Node) (vote : Nat) (r : Rec) : stageRec n vote r =
    if cancelled n r then n
    else if !admits n r then finishClear (discardRec n r) none r
    else finishClear (afterStage (countStaged (sureOf (stagedAs n vote r) n.rec_.nextRseq)) n.rec_.nextRseq
      (withRange n (withCapId n n.rec_.nextRseq r))) (some n.rec_.nextRseq) (withRange n (withCapId n n.rec_.nextRseq r)) := rfl

theorem keptRec_counted (n : Node) (vote : Nat) (r : Rec) (q : Nat) (x : Rec) :
    keptRec (afterStage (countStaged (sureOf (stagedAs n vote r) q)) q x) = keptRec n := by
  rw [keptRec_afterStage]
  exact keptRec_sureOf (stagedAs n vote r) q

theorem heldRec_stageRec (n : Node) (vote : Nat) (r : Rec) : heldRec (stageRec n vote r) = heldRec n := by
  rw [stageRec_eq]
  refine pred_ite (P := fun u : Node => heldRec u = heldRec n) rfl (pred_ite (P := fun u : Node => heldRec u = heldRec n) ?_ ?_)
  · rw [heldRec_finishClear, heldRec_of_kept (keptRec_discardRec n r)]
  · rw [heldRec_finishClear, heldRec_of_kept (keptRec_counted n vote r _ _)]

theorem keptRec_stageRec {r : Rec} (h : r.clearTo = none) (n : Node) (vote : Nat) : keptRec (stageRec n vote r) = keptRec n := by
  have hrange := withRange_of_none ((clearTo_withCapId n n.rec_.nextRseq r).trans h) n
  rw [stageRec_eq, hrange, finishClear_of_none h, finishClear_of_none ((clearTo_withCapId n n.rec_.nextRseq r).trans h)]
  exact pred_ite (P := fun u : Node => keptRec u = keptRec n) rfl (pred_ite (P := fun u : Node => keptRec u = keptRec n)
    (keptRec_discardRec n r) (keptRec_counted n vote r _ _))

theorem waiting_finishClear (n : Node) (q : Option Nat) (r : Rec) : (finishClear n q r).rec_.waiting = n.rec_.waiting := by
  have hcommit : ∀ k, (commitTo n k).rec_.waiting = n.rec_.waiting := fun k => by
    unfold commitTo commitSome modRec
    dsimp only
    split <;> rfl
  unfold finishClear
  split
  · rfl
  · cases q with
    | none => rfl
    | some k => exact hcommit k

theorem waiting_discardRec (n : Node) (r : Rec) : (discardRec n r).rec_.waiting = n.rec_.waiting := by
  have hraise : ∀ c (m : Node) p b, (raiseIf c m p b).rec_.waiting = m.rec_.waiting := fun c m p b =>
    pred_ite (P := fun k : Node => k.rec_.waiting = m.rec_.waiting) rfl rfl
  unfold discardRec
  extract_lets tai first o ab o' src m k
  have hk : k.rec_.waiting = n.rec_.waiting := hraise first m 6 3
  clear_value k
  split
  · exact pred_ite (P := fun m : Node => m.rec_.waiting = n.rec_.waiting) hk hk
  · exact hk

theorem waiting_stageRec (n : Node) (vote : Nat) (r : Rec) : (stageRec n vote r).rec_.waiting = n.rec_.waiting := by
  have hafter : ∀ (m : Node) q x, (afterStage m q x).rec_.waiting = m.rec_.waiting := fun m q x => by
    unfold afterStage
    split <;> split <;> rfl
  have hsure : ∀ (m : Node) q, (sureOf m q).rec_.waiting = m.rec_.waiting := fun m q =>
    pred_ite (P := fun u : Node => u.rec_.waiting = m.rec_.waiting) rfl rfl
  rw [stageRec_eq]
  refine pred_ite (P := fun u : Node => u.rec_.waiting = n.rec_.waiting) rfl
    (pred_ite (P := fun u : Node => u.rec_.waiting = n.rec_.waiting) ?_ ?_)
  · rw [waiting_finishClear, waiting_discardRec]
  · rw [waiting_finishClear, hafter]
    exact hsure _ _

/-! Steps that bring no CLEAR -/

/-- What the recorder keeps where no record that comes is a CLEAR: its settings and stores, and every CLEAR that waits. -/
structure NoClear (n u : Node) : Prop where
  kept : keptRec u = keptRec n
  waiting : ∀ w ∈ u.rec_.waiting, w ∈ n.rec_.waiting ∨ w.clearTo = none

theorem NoClear.refl (n : Node) : NoClear n n := ⟨rfl, fun _ h => .inl h⟩

theorem NoClear.trans {a b c : Node} (h : NoClear a b) (k : NoClear b c) : NoClear a c :=
  ⟨k.kept.trans h.kept, fun w hw => (k.waiting w hw).elim (h.waiting w) .inr⟩

theorem noClear_foldl {α : Type} {f : Node → α → Node} (h : ∀ n x, NoClear n (f n x)) (l : List α) (n : Node) : NoClear n (l.foldl f n) :=
  foldl_rel NoClear.refl NoClear.trans h l n

theorem noClear_of_rec {n u : Node} (h : u.rec_ = n.rec_) : NoClear n u := by
  refine ⟨by rw [keptRec, h]; rfl, fun w hw => ?_⟩
  rw [h] at hw
  exact .inl hw

theorem NoClear.flash {n u : Node} (h : NoClear n u) : u.rec_.flash = n.rec_.flash := by
  have k := congrArg Recorder.flash h.kept
  exact k

theorem noClear_stageRec {r : Rec} (h : r.clearTo = none) (n : Node) (vote : Nat) : NoClear n (stageRec n vote r) :=
  ⟨keptRec_stageRec h n vote, fun w hw => by rw [waiting_stageRec] at hw; exact .inl hw⟩

theorem noClear_note {r : Rec} (h : r.clearTo = none) (n : Node) : NoClear n (note n r) := by
  unfold note
  refine pred_ite (P := NoClear n) ⟨rfl, fun _ hw => .inl hw⟩ (pred_ite (P := NoClear n) (noClear_stageRec h n 3) ⟨rfl, fun w hw => ?_⟩)
  · rcases List.mem_append.mp hw with hw | hw
    · exact .inl hw
    · exact .inr (by rw [List.mem_singleton.mp hw]; exact h)

end Sys2Proof.Machine
end

section
/-! PROOF. What every reset leaves (17 R395, R396). -/

namespace Sys2Proof.Machine

/-! The records of a reset bring no CLEAR -/

theorem noClear_ite {p : Prop} [Decidable p] {n a b : Node} (ha : NoClear n a) (hb : NoClear n b) : NoClear n (if p then a else b) :=
  pred_ite ha hb

theorem noClear_logChange (n : Node) (e : LogEntry) (origin : Nat) : NoClear n (logChange n e origin) :=
  (noClear_of_rec (n := n) (u := { n with config := { n.config with
    log := tset none n.config.log (n.config.logCount % 2048) (some e), logCount := (n.config.logCount + 1) % 4294967296 } }) rfl).trans
    (noClear_note rfl _)

theorem noClear_logDiscards (n : Node) (who : LogBy) : NoClear n (logDiscards n who) := by
  refine noClear_foldl (fun n e => ?_) _ n
  split
  · exact noClear_ite (NoClear.refl n) (noClear_logChange n _ _)
  · exact NoClear.refl n

theorem rec_dropStages (n : Node) : (dropStages n).rec_ = n.rec_ :=
  foldl_same (g := Node.rec_) (f := fun n (w : Waiting) => resolveCmd n w.page (some false)) (fun _ _ => rfl) _ _

theorem noClear_dropValues (n : Node) (who : LogBy) : NoClear n (dropValues n who) :=
  (noClear_logDiscards n who).trans (noClear_of_rec (rec_dropStages _))

theorem rec_failCommit (n : Node) : (failCommit n).rec_ = n.rec_ := by
  unfold failCommit
  split
  · exact pred_ite (P := fun m : Node => m.rec_ = n.rec_) rfl rfl
  · rfl

theorem noClear_discardImage (n : Node) (account level : Nat) (who : LogBy) : NoClear n (discardImage n account level who) := by
  unfold discardImage
  split
  · refine noClear_ite (NoClear.refl n) ?_
    have hdrop : NoClear n (failCommit (dropValues n who)) := (noClear_dropValues n who).trans (noClear_of_rec (rec_failCommit _))
    generalize failCommit (dropValues n who) = m at hdrop
    have hpend : NoClear m { m with config := { m.config with pend := none } } := noClear_of_rec rfl
    exact (hdrop.trans hpend).trans (noClear_note rfl _)
  · exact noClear_dropValues n who

theorem noClear_raiseIf (c : Bool) (n : Node) (p b : Nat) : NoClear n (raiseIf c n p b) :=
  noClear_ite (noClear_of_rec rfl) (NoClear.refl n)

theorem noClear_endSession (n : Node) (path event : Nat) (close : Bool) (who : LogBy) : NoClear n (endSession n path event close who) := by
  unfold endSession
  split
  · exact NoClear.refl n
  next x =>
    extract_lets a b c src d
    have ha : NoClear n a := noClear_ite (noClear_discardImage n _ _ who) (NoClear.refl n)
    have hb : NoClear a b := noClear_note rfl a
    have hd : NoClear b d := ⟨rfl, fun _ h => .inl h⟩
    exact ((ha.trans hb).trans hd).trans (noClear_raiseIf _ d 5 2)

theorem noClear_endAllSessions (n : Node) (event : Nat) : NoClear n (endAllSessions n event) :=
  noClear_foldl (fun n p => noClear_endSession n p event false byNode) _ n

theorem noClear_watchOff (n : Node) (source : Nat) : NoClear n (watchOff n source) := by
  unfold watchOff setWatch
  refine noClear_ite (NoClear.refl n) ?_
  dsimp only
  have hcall : NoClear n (modCall n (fun c => { c with watch := .off, watchCnt := 0, watchNew := true })) := noClear_of_rec rfl
  generalize modCall n (fun c => { c with watch := .off, watchCnt := 0, watchNew := true }) = m at hcall
  refine noClear_ite hcall (hcall.trans ((noClear_note rfl m).trans (noClear_of_rec rfl)))

/-! A node that has been reset -/

/-- The node's part of what a reset leaves. -/
structure IsReset (d : Nat) (n u : Node) : Prop where
  state : u.nodeSt.state = .init
  empty : (u.regs, u.staged, u.headers, u.seqs, u.cmds) = ([], [], [], [], [])
  gone : (u.config.sessions, u.rec_.staging, u.laneSt, u.points) = ([], [], {}, [])
  copyA : u.config.copyA = laterCopy d n.config.copyA
  copyB : u.config.copyB = laterCopy d n.config.copyB
  flash : (∀ w ∈ n.rec_.waiting, w.clearTo = none) → n.rec_.flash <+: u.rec_.flash

theorem laterCopy_zero (x : FlashCopy) : laterCopy 0 x = x := by
  have hacc : ∀ e : Nat × Account, (e.1, { e.2 with lockUntil := e.2.lockUntil.map (· + 0) }) = e := by
    rintro ⟨k, a⟩
    cases h : a.lockUntil <;> simp [← h]
  simp only [laterCopy, hacc, List.map_id']

/-- What a cold node keeps, told of the node as its sessions end. -/
theorem coldNode_eq (n : Node) (cause : Nat) : coldNode n cause =
    { now := (endAllSessions n 2).now, frame := (endAllSessions n 2).frame, sampleT := (endAllSessions n 2).sampleT,
      sAt := (endAllSessions n 2).sAt, taiOff := (endAllSessions n 2).taiOff,
      rec_ := coldRecorder (endAllSessions n 2).rec_, tb := { stored := (endAllSessions n 2).tb.stored },
      safety := coldSafety (endAllSessions n 2).safety, duplex := { posB := (endAllSessions n 2).duplex.posB },
      tsRef := { zero := (endAllSessions n 2).now }, config := coldConfig (endAllSessions n 2).config,
      mgt := { downAt := (endAllSessions n 2).now },
      nodeSt := { boot := (endAllSessions n 2).nodeSt.boot, rstCause := cause, held := (endAllSessions n 2).nodeSt.held },
      power := (endAllSessions n 2).power, free := (endAllSessions n 2).free, outs := (endAllSessions n 2).outs } := rfl

/-- A cold start of a node that kept its copies, with the locks d later. -/
theorem isReset_coldNode {d : Nat} {n m : Node} (ha : m.config.copyA = laterCopy d n.config.copyA) (hb : m.config.copyB = laterCopy d n.config.copyB)
    (hf : (∀ w ∈ n.rec_.waiting, w.clearTo = none) → n.rec_.flash <+: m.rec_.flash) (cause : Nat) : IsReset d n (coldNode m cause) := by
  obtain ⟨hsess, -⟩ := sessFrame_endAllSessions m 2
  have hflash := (noClear_endAllSessions m 2).flash
  rw [coldNode_eq]
  generalize endAllSessions m 2 = k at hsess hflash
  refine ⟨rfl, rfl, rfl, ?_, ?_, fun h => ?_⟩
  · rw [← ha]
    have e := congrArg (fun x : Node => x.config.copyA) hsess
    exact e
  · rw [← hb]
    have e := congrArg (fun x : Node => x.config.copyB) hsess
    exact e
  · have e : (coldRecorder k.rec_).flash = m.rec_.flash := hflash
    rw [e]
    exact hf h

/-- What the cold start keeps of the node's state and power, and what it leaves of the pair. -/
theorem coldNode_leaves (m : Node) (cause : Nat) :
    (coldNode m cause).nodeSt = { boot := m.nodeSt.boot, rstCause := cause, held := m.nodeSt.held } ∧
    (coldNode m cause).power = { m.power with sure := (coldNode m cause).power.sure } ∧ (coldNode m cause).now = m.now ∧
    (coldNode m cause).duplex = { posB := m.duplex.posB } ∧ (coldNode m cause).rec_.flash = m.rec_.flash := by
  obtain ⟨hsess, -⟩ := sessFrame_endAllSessions m 2
  have hflash := (noClear_endAllSessions m 2).flash
  rw [coldNode_eq]
  generalize endAllSessions m 2 = k at hsess hflash
  refine ⟨?_, ?_, ?_, ?_, hflash⟩
  · rw [hsess]
  · have e := congrArg Node.power hsess
    exact e
  · have e := congrArg Node.now hsess
    exact e
  · rw [hsess]

/-! Start-up begins -/

theorem endReset_held {n : Node} (h : n.nodeSt.held = true ∨ n.power.off = true) : endReset n = n := if_pos (by simpa using h)

theorem endReset_free {n : Node} (hh : n.nodeSt.held = false) (ho : n.power.off = false) : endReset n = beginStart n n.nodeSt.rstCause :=
  if_neg (by simp [hh, ho])

theorem endReset_leaves (n : Node) :
    (endReset n).regs = n.regs ∧ (endReset n).power = n.power ∧ (endReset n).duplex = n.duplex ∧ (endReset n).rec_ = n.rec_ ∧
    (endReset n).nodeSt.rstCause = n.nodeSt.rstCause ∧ (endReset n).nodeSt.held = n.nodeSt.held ∧ (endReset n).nodeSt.state = n.nodeSt.state ∧
    (n.nodeSt.held = false → n.power.off = false →
      (endReset n).nodeSt.phase = 1 ∧ (endReset n).nodeSt.boot = (n.nodeSt.boot + 1) % 4294967296) ∧
    (n.nodeSt.held = true ∨ n.power.off = true → (endReset n).nodeSt.phase = n.nodeSt.phase ∧ (endReset n).nodeSt.boot = n.nodeSt.boot) := by
  by_cases h : n.nodeSt.held = true ∨ n.power.off = true
  · rw [endReset_held h]
    refine ⟨rfl, rfl, rfl, rfl, rfl, rfl, rfl, fun hh ho => ?_, fun _ => ⟨rfl, rfl⟩⟩
    rw [hh, ho] at h
    simp at h
  · have h' : n.nodeSt.held = false ∧ n.power.off = false := by simpa using h
    rw [endReset_free h'.1 h'.2]
    exact ⟨rfl, rfl, rfl, rfl, rfl, rfl, rfl, fun _ _ => ⟨rfl, rfl⟩, fun hno => absurd hno h⟩

theorem IsReset.endReset {d : Nat} {n u : Node} (h : IsReset d n u) : IsReset d n (endReset u) := by
  by_cases hh : u.nodeSt.held = true ∨ u.power.off = true
  · rw [endReset_held hh]
    exact h
  · have hf : u.nodeSt.held = false ∧ u.power.off = false := by simpa using hh
    rw [endReset_free hf.1 hf.2]
    exact ⟨h.state, h.empty, h.gone, h.copyA, h.copyB, h.flash⟩

theorem IsReset.modPower {d : Nat} {n u : Node} (h : IsReset d n u) (f : Power → Power) : IsReset d n (modPower u f) :=
  ⟨h.state, h.empty, h.gone, h.copyA, h.copyB, h.flash⟩

/-- The machine around a node that has been reset. -/
theorem wasReset_of {d : Nat} {s : State} {t : Nat} {u : Node} (h : IsReset d (begin_ s.node t) u) :
    wasReset d s { resetState { s with node := begin_ s.node t } u with node := settle u } := by
  obtain ⟨hst, hempty, hgone, ha, hb, hf⟩ := h
  simp only [Prod.mk.injEq] at hempty hgone
  obtain ⟨h1, h2, h3, h4, h5⟩ := hempty
  obtain ⟨g1, g2, g3, g4⟩ := hgone
  exact ⟨hst, h1, h2, h3, h4, h5, g1, g2, g3, g4, ha, hb, hf, fun _ => rfl, fun _ => rfl, rfl, rfl, rfl⟩

end Sys2Proof.Machine
end

section
/-! PROOF. The resets of the node by their causes (17 R395 to R398). -/

namespace Sys2Proof.Machine

/-- An event that resets the machine around a node. -/
theorem yields_reset {c : Instr} {s : State} {t : Nat} {f : State → State} {u : Node} {P : State → Prop}
    (hc : exec c s = .next (onState s t f)) (hf : f { s with node := begin_ s.node t } = resetState { s with node := begin_ s.node t } u)
    (h : P { resetState { s with node := begin_ s.node t } u with node := settle u }) : Yields c s P := by
  refine ⟨_, hc, ?_⟩
  unfold onState
  dsimp only
  rw [hf]
  exact h

/-! The commanded reset -/

theorem flash_commitAll (n : Node) : n.rec_.flash <+: (commitAll n).rec_.flash := by
  unfold commitAll commitSome modRec
  dsimp only
  split
  · exact List.prefix_rfl
  · exact List.prefix_append _ _
  · exact List.prefix_rfl

theorem rec_settleClear_flash (n : Node) : (settleClear n).rec_.flash = n.rec_.flash := by
  unfold settleClear
  split <;> rfl

theorem flash_stageWaiting {n : Node} (h : ∀ w ∈ n.rec_.waiting, w.clearTo = none) : (stageWaiting n).rec_.flash = n.rec_.flash := by
  rw [stageWaiting_eq, rec_settleClear_flash]
  refine List.foldlRecOn (motive := fun m : Node => m.rec_.flash = n.rec_.flash) n.rec_.waiting stageKept rfl (fun m hm r hr => ?_)
  exact (noClear_stageRec (h r hr) m _).flash.trans hm

/-- What a reset reads of the node beside its recorder and sessions. -/
def resetKey (n : Node) := (n.config.copyA, n.config.copyB, n.nodeSt, n.power.off)

theorem resetKey_of_rec {n u : Node} (h : RecFrame n u) : resetKey u = resetKey n := by
  obtain ⟨_, _, _, _, _, rfl, -⟩ := h
  rfl

theorem resetKey_endAllSessions (n : Node) (event : Nat) : resetKey (endAllSessions n event) = resetKey n := by
  obtain ⟨h, -⟩ := sessFrame_endAllSessions n event
  rw [h]
  rfl

theorem resetKey_watchOff (n : Node) (source : Nat) : resetKey (watchOff n source) = resetKey n := by
  unfold watchOff setWatch
  dsimp only
  have hcall : resetKey (modCall n (fun c => { c with watch := .off, watchCnt := 0, watchNew := true })) = resetKey n := rfl
  generalize modCall n (fun c => { c with watch := .off, watchCnt := 0, watchNew := true }) = m at hcall
  refine pred_ite (P := fun m : Node => resetKey m = resetKey n) rfl (pred_ite (P := fun m : Node => resetKey m = resetKey n) hcall ?_)
  have hnote := fun r => (resetKey_of_rec (recFrame_note m r)).trans hcall
  exact hnote _

theorem resetKey_stageWaiting (n : Node) : resetKey (stageWaiting n) = resetKey n := by
  have hsettle : ∀ m, resetKey (settleClear m) = resetKey m := fun m => by
    unfold settleClear
    split <;> rfl
  rw [stageWaiting_eq, hsettle]
  exact foldl_same (g := resetKey) (f := stageKept) (fun m r => resetKey_of_rec (recFrame_stageRec m _ r)) _ _

theorem resetKey_commitAll (n : Node) : resetKey (commitAll n) = resetKey n := rfl

/-- The node with the records of the command and of the reset, the watch off and every session ended. -/
def resetNoted (n : Node) (path : Nat) (v : Word) : Node :=
  endAllSessions (watchOff (note (note n (recPower n 5 4 (nodeCode n) 0 0 0)) (recCommand n 0
    { path := path, off := at_ 0 0x54, value := v, hseq := (seqOf n path 0).hseq, result := some true } 2)) 255) 2

theorem resetNoted_leaves (n : Node) (path : Nat) (v : Word) :
    NoClear n (resetNoted n path v) ∧ resetKey (resetNoted n path v) = resetKey n := by
  unfold resetNoted
  refine ⟨?_, ?_⟩
  · exact (((noClear_note rfl n).trans (noClear_note rfl _)).trans (noClear_watchOff _ 255)).trans (noClear_endAllSessions _ 2)
  · rw [resetKey_endAllSessions, resetKey_watchOff, resetKey_of_rec (recFrame_note _ _), resetKey_of_rec (recFrame_note _ _)]

/-- Every record that waits staged and committed. -/
def resetStored (n : Node) (path : Nat) (v : Word) : Node :=
  commitAll (if (resetNoted n path v).rec_.ready then stageWaiting (resetNoted n path v) else resetNoted n path v)

theorem commandedReset_eq (n : Node) (path : Nat) (v : Word) : commandedReset n path v = endReset (coldNode (resetStored n path v) 4) := by
  unfold commandedReset resetStored resetNoted
  rfl

theorem resetStored_leaves (n : Node) (path : Nat) (v : Word) : resetKey (resetStored n path v) = resetKey n ∧
    ((∀ w ∈ n.rec_.waiting, w.clearTo = none) → n.rec_.flash <+: (resetStored n path v).rec_.flash) := by
  obtain ⟨hno, hkey⟩ := resetNoted_leaves n path v
  unfold resetStored
  generalize resetNoted n path v = m at hno hkey ⊢
  rw [resetKey_commitAll]
  refine ⟨pred_ite (P := fun k : Node => resetKey k = resetKey n) ((resetKey_stageWaiting m).trans hkey) hkey, fun h => ?_⟩
  have hwait : ∀ w ∈ m.rec_.waiting, w.clearTo = none := fun w hw => (hno.waiting w hw).elim (h w) id
  have hflash : (if m.rec_.ready then stageWaiting m else m).rec_.flash = n.rec_.flash :=
    pred_ite (P := fun k : Node => k.rec_.flash = n.rec_.flash) ((flash_stageWaiting hwait).trans hno.flash) hno.flash
  rw [← hflash]
  exact flash_commitAll _

/-- What every cold start leaves of the start-up, once the reset ends. -/
theorem endReset_coldNode (m : Node) (cause : Nat) :
    (endReset (coldNode m cause)).nodeSt.rstCause = cause ∧
    (m.nodeSt.held = false → m.power.off = false → (endReset (coldNode m cause)).nodeSt.boot = (m.nodeSt.boot + 1) % 4294967296) ∧
    (m.nodeSt.held = true ∨ m.power.off = true → (endReset (coldNode m cause)).nodeSt.boot = m.nodeSt.boot) ∧
    (endReset (coldNode m cause)).nodeSt.held = m.nodeSt.held ∧ (endReset (coldNode m cause)).nodeSt.phase = 1 := by
  obtain ⟨hst, hpow, -, -, -⟩ := coldNode_leaves m cause
  have hoff : (coldNode m cause).power.off = m.power.off := by rw [hpow]
  obtain ⟨-, -, -, -, e1, e2, -, e3, e4⟩ := endReset_leaves (coldNode m cause)
  rw [hst, hoff] at e3 e4
  rw [hst] at e1 e2
  refine ⟨e1, fun hh ho => (e3 hh ho).2, fun h => (e4 h).2, e2, ?_⟩
  by_cases h : m.nodeSt.held = true ∨ m.power.off = true
  · exact (e4 h).1
  · have hf : m.nodeSt.held = false ∧ m.power.off = false := by simpa using h
    exact (e3 hf.1 hf.2).1

theorem yields_nodeResetCmd {t : Nat} {s : State} (h : judge (atInstant s t) hostPath 0 { state := !failNow (atInstant s t) } = .accept) :
    Yields (.nodeResetCmd t) s (fun u => wasReset 0 s u ∧ u.node.nodeSt.rstCause = 4 ∧
      (s.node.nodeSt.held = false → s.node.power.off = false → u.node.nodeSt.boot = (s.node.nodeSt.boot + 1) % 4294967296) ∧
      (s.node.nodeSt.held = true ∨ s.node.power.off = true → u.node.nodeSt.boot = s.node.nodeSt.boot) ∧
      u.node.nodeSt.held = s.node.nodeSt.held ∧ u.node.nodeSt.phase = 1) := by
  have hrun : nodeCtrlWrite { s with node := begin_ s.node t } hostPath 0x5AFE0000 =
      resetState { s with node := begin_ s.node t } (endReset (coldNode (resetStored (begin_ s.node t) hostPath 0x5AFE0000) 4)) := by
    unfold nodeCtrlWrite
    rw [if_pos (by decide)]
    dsimp only
    rw [show judge (begin_ s.node t) hostPath 0 { state := !failNow (begin_ s.node t) } = .accept from h]
    exact congrArg (resetState _) (commandedReset_eq _ _ _)
  refine yields_reset (f := fun s => nodeCtrlWrite s hostPath 0x5AFE0000) rfl hrun ?_
  obtain ⟨hkey, hflash⟩ := resetStored_leaves (begin_ s.node t) hostPath 0x5AFE0000
  generalize resetStored (begin_ s.node t) hostPath 0x5AFE0000 = m at hkey hflash
  simp only [resetKey, Prod.mk.injEq] at hkey
  obtain ⟨hA, hB, hst, hoff⟩ := hkey
  have hreset : IsReset 0 (begin_ s.node t) (coldNode m 4) :=
    isReset_coldNode (by rw [laterCopy_zero]; exact hA) (by rw [laterCopy_zero]; exact hB) hflash 4
  have hstart := endReset_coldNode m 4
  rw [hst, hoff] at hstart
  exact ⟨wasReset_of hreset.endReset, hstart⟩

theorem acts_nodeResetCmd_dup {t : Nat} {s : State}
    (h : judge (atInstant s t) hostPath 0 { state := !failNow (atInstant s t) } = .duplicate) :
    Acts (.nodeResetCmd t) s t (fun n u => SameButSignals u n) := by
  have hrun : nodeCtrlWrite { s with node := begin_ s.node t } hostPath 0x5AFE0000 = { s with node := begin_ s.node t } := by
    unfold nodeCtrlWrite
    rw [if_pos (by decide)]
    dsimp only
    rw [show judge (begin_ s.node t) hostPath 0 { state := !failNow (begin_ s.node t) } = .duplicate from h]
  refine ⟨_, rfl, ?_⟩
  unfold onState
  dsimp only
  rw [hrun]
  exact ⟨nodeOnly_mk _ _, sameButSignals_settle _⟩

theorem acts_nodeResetCmd_refused {t c : Nat} {s : State}
    (h : judge (atInstant s t) hostPath 0 { state := !failNow (atInstant s t) } = .refuse c) :
    Acts (.nodeResetCmd t) s t (fun n u =>
       SameButSignals u { n with seqs := u.seqs } ∧ seqOf u hostPath 0 = { seqOf n hostPath 0 with cmdRes := c }) := by
  have hrun : nodeCtrlWrite { s with node := begin_ s.node t } hostPath 0x5AFE0000 =
      { s with node := setCmdRes (begin_ s.node t) hostPath 0 c } := by
    unfold nodeCtrlWrite
    rw [if_pos (by decide)]
    dsimp only
    rw [show judge (begin_ s.node t) hostPath 0 { state := !failNow (begin_ s.node t) } = .refuse c from h]
  refine ⟨_, rfl, ?_⟩
  unfold onState
  dsimp only
  rw [hrun]
  exact ⟨nodeOnly_mk _ _, rfl, seqOf_modSeq_self (atInstant s t) hostPath 0 (fun q => { q with cmdRes := c })⟩

/-! RST_N and PERST_N -/

theorem isReset_cold (s : State) (t cause : Nat) : IsReset 0 (begin_ s.node t) (coldNode (begin_ s.node t) cause) :=
  isReset_coldNode (by rw [laterCopy_zero]) (by rw [laterCopy_zero]) (fun _ => List.prefix_rfl) cause

theorem yields_rstNAssert (t : Nat) (s : State) : Yields (.rstNAssert t) s (fun u => wasReset 0 s u ∧ u.node.nodeSt.held = true ∧
    u.node.nodeSt.rstCause = 2 ∧ u.node.nodeSt.boot = s.node.nodeSt.boot) := by
  refine yields_reset (f := fun s => resetState s (rstAssert s.node)) rfl rfl ?_
  have hcold := isReset_cold s t 2
  have hreset : IsReset 0 (begin_ s.node t) (rstAssert (begin_ s.node t)) :=
    ⟨hcold.state, hcold.empty, hcold.gone, hcold.copyA, hcold.copyB, hcold.flash⟩
  have hst : (rstAssert (begin_ s.node t)).nodeSt = { (coldNode (begin_ s.node t) 2).nodeSt with held := true } := rfl
  rw [(coldNode_leaves (begin_ s.node t) 2).1] at hst
  generalize rstAssert (begin_ s.node t) = u at hreset hst
  refine ⟨wasReset_of hreset, ?_, ?_, ?_⟩
  · exact (congrArg NodeSt.held hst).trans rfl
  · exact (congrArg NodeSt.rstCause hst).trans rfl
  · exact (congrArg NodeSt.boot hst).trans rfl

theorem yields_rstNRelease {t : Nat} {s : State} (h : s.node.nodeSt.held = true) : Yields (.rstNRelease t) s (fun u =>
    u.node.nodeSt.held = false ∧ u.node.nodeSt.rstCause = s.node.nodeSt.rstCause ∧ u.node.nodeSt.state = s.node.nodeSt.state ∧
    (s.node.power.off = false → u.node.nodeSt.phase = 1 ∧ u.node.nodeSt.boot = (s.node.nodeSt.boot + 1) % 4294967296) ∧
    (s.node.power.off = true → u.node.nodeSt.boot = s.node.nodeSt.boot) ∧ u.node.regs = s.node.regs ∧ u.pending = s.pending) := by
  refine yields_reset (f := fun s => if s.node.nodeSt.held then resetState s (rstRelease s.node) else s)
    (u := endReset (modNode (begin_ s.node t) (fun s => { s with held := false }))) rfl ?_ ?_
  · rw [if_pos (show (begin_ s.node t).nodeSt.held = true from h)]
    exact congrArg (resetState _) (if_pos (show (begin_ s.node t).nodeSt.held = true from h))
  · obtain ⟨e1, -, -, -, e2, e3, e4, e5, e6⟩ := endReset_leaves (modNode (begin_ s.node t) (fun s => { s with held := false }))
    generalize endReset (modNode (begin_ s.node t) (fun s => { s with held := false })) = u at *
    exact ⟨e3, e2, e4, fun ho => e5 rfl ho, fun ho => (e6 (.inr ho)).2, e1, rfl⟩

theorem acts_rstNRelease_free {t : Nat} {s : State} (h : s.node.nodeSt.held = false) :
    Acts (.rstNRelease t) s t (fun n u => SameButSignals u n) := by
  have hrun : (if (begin_ s.node t).nodeSt.held then
      resetState { s with node := begin_ s.node t } (rstRelease (begin_ s.node t)) else { s with node := begin_ s.node t }) =
      { s with node := begin_ s.node t } := if_neg (ne_true_of_eq_false (show (begin_ s.node t).nodeSt.held = false from h))
  refine ⟨_, rfl, ?_⟩
  unfold onState
  dsimp only
  rw [hrun]
  exact ⟨nodeOnly_mk _ _, sameButSignals_settle _⟩

theorem yields_perstNAssert {t : Nat} {s : State} (h : bit (reg s.node (at_ 0 0x70)) 0 = true) :
    Yields (.perstNAssert t) s (fun u => wasReset 0 s u ∧ u.node.nodeSt.rstCause = 3 ∧
      (s.node.nodeSt.held = false → s.node.power.off = false → u.node.nodeSt.boot = (s.node.nodeSt.boot + 1) % 4294967296) ∧
      (s.node.nodeSt.held = true ∨ s.node.power.off = true → u.node.nodeSt.boot = s.node.nodeSt.boot) ∧
      u.node.nodeSt.held = s.node.nodeSt.held ∧ u.node.nodeSt.phase = 1) := by
  refine yields_reset (f := fun s => if bit (reg s.node (at_ 0 0x70)) 0 then resetState s (endReset (coldNode s.node 3))
    else { s with node := endpointReset s.node }) rfl (if_pos (show bit (reg (begin_ s.node t) (at_ 0 0x70)) 0 = true from h)) ?_
  exact ⟨wasReset_of (isReset_cold s t 3).endReset, endReset_coldNode (begin_ s.node t) 3⟩

theorem acts_perstNAssert {t : Nat} {s : State} (h : bit (reg s.node (at_ 0 0x70)) 0 = false) : Acts (.perstNAssert t) s t (fun n u =>
    SameButSignals u { n with mirror := { n.mirror with linkUp := false }, endpoint := {} } ∧ ∀ v, v < 64 → (vectorOf u v).masked = true) := by
  have hrun : (if bit (reg (begin_ s.node t) (at_ 0 0x70)) 0 then resetState { s with node := begin_ s.node t } (endReset (coldNode (begin_ s.node t) 3))
      else { s with node := endpointReset (begin_ s.node t) }) = { s with node := endpointReset (begin_ s.node t) } :=
    if_neg (ne_true_of_eq_false (show bit (reg (begin_ s.node t) (at_ 0 0x70)) 0 = false from h))
  refine ⟨_, rfl, ?_⟩
  unfold onState
  dsimp only
  rw [hrun]
  refine ⟨nodeOnly_mk _ _, rfl, fun v hv => ?_⟩
  have hvec := vectorOf_settleWith [] (endpointReset (atInstant s t)) hv
  exact (congrArg Vector_.masked hvec).trans rfl

end Sys2Proof.Machine
end

section
/-! PROOF. Feeds, power-fail and shutdown, and the statement on resets (17 R402, R403, R432, 15 R363). -/

namespace Sys2Proof.Machine

/-! The loss of a feed -/

/-- A step that leaves what the supervision of feeds reads, and only adds interrupts for the boundary. -/
structure PowerKept (n u : Node) : Prop where
  same : (u.regs, u.nodeSt, u.now) = (n.regs, n.nodeSt, n.now)
  power : u.power = { n.power with sure := u.power.sure }
  due : n.dueB <+: u.dueB

theorem PowerKept.trans {a b c : Node} (h : PowerKept a b) (k : PowerKept b c) : PowerKept a c := by
  refine ⟨k.same.trans h.same, ?_, h.due.trans k.due⟩
  have hk := k.power
  rw [h.power] at hk
  exact hk

theorem PowerKept.refl (n : Node) : PowerKept n n := ⟨rfl, rfl, List.prefix_rfl⟩

theorem powerKept_note (n : Node) (r : Rec) : PowerKept n (note n r) := by
  have hdue := (steady_note n r).due
  obtain ⟨_, _, _, _, _, he, -⟩ := recFrame_note n r
  refine ⟨?_, ?_, hdue⟩ <;> rw [he]

theorem powerKept_raiseB (n : Node) (p b : Nat) : PowerKept n (raiseB n p b) := ⟨rfl, rfl, List.prefix_append _ _⟩

theorem powerKept_modRec (n : Node) (f : Recorder → Recorder) : PowerKept n (modRec n f) := ⟨rfl, rfl, List.prefix_rfl⟩

theorem powerKept_ite {p : Prop} [Decidable p] {n a b : Node} (ha : PowerKept n a) (hb : PowerKept n b) : PowerKept n (if p then a else b) :=
  pred_ite ha hb

theorem powerKept_pinFail (n : Node) : PowerKept n (pinFail n) := powerKept_ite (powerKept_modRec n _) (PowerKept.refl n)

theorem powerKept_thaw (n : Node) (cause : Nat) : PowerKept n (thaw n cause) := by
  unfold thaw
  split
  · exact PowerKept.refl n
  · exact (((powerKept_modRec n _).trans (powerKept_pinFail _)).trans (powerKept_note _ _)).trans (powerKept_raiseB _ 6 2)

/-- The power-fail told: its record, the end of a freeze, its interrupt. -/
def failTold (n : Node) : Node :=
  raiseB (if (note n (recPower n 3 0 (nodeCode n) 0 0 0)).rec_.frozen.isSome then thaw (note n (recPower n 3 0 (nodeCode n) 0 0 0)) 2
    else note n (recPower n 3 0 (nodeCode n) 0 0 0)) 0x0D 4

/-- The power-fail's own marks. -/
def failMarked (n : Node) : Node :=
  modPower n (fun p => { p with
    pfail := true, pfailAt := n.now, backlogOk := decide (stagedBytes n ≤ 262144),
    sure := if decide (stagedBytes n ≤ 262144) then n.rec_.nextRseq - 1 else 0 })

theorem powerFail_eq (n : Node) : powerFail n = failTold (failMarked n) := rfl

theorem powerKept_failTold (n : Node) : PowerKept n (failTold n) ∧ (0x0D, 4) ∈ (failTold n).dueB := by
  unfold failTold
  have hnote := powerKept_note n (recPower n 3 0 (nodeCode n) 0 0 0)
  generalize note n (recPower n 3 0 (nodeCode n) 0 0 0) = m at hnote ⊢
  have hthaw : PowerKept n (if m.rec_.frozen.isSome then thaw m 2 else m) := powerKept_ite (hnote.trans (powerKept_thaw m 2)) hnote
  exact ⟨hthaw.trans (powerKept_raiseB _ 0x0D 4), List.mem_append_right _ (List.mem_singleton_self _)⟩

/-- The feed's loss told. -/
def lossTold (n : Node) (b : Bool) : Node :=
  raiseB (note (setFeed n b false) (recPower (setFeed n b false) 1 (b2n b) (nodeCode (setFeed n b false)) 0 0 0)) 0x0D (if b then 2 else 0)

theorem feedLost_eq {n : Node} {b : Bool} (h : feedOk n b = true) : feedLost n b =
    if !(lossTold n b).power.aOk && !(lossTold n b).power.bOk then powerFail (lossTold n b) else lossTold n b := by
  unfold feedLost
  rw [if_neg (by rw [h]; decide)]
  rfl

theorem acts_feedLost {t : Nat} {b : Bool} {s : State} (h : (if b then s.node.power.bOk else s.node.power.aOk) = true) :
    Acts (.feedLost t b) s t (fun n u =>
      u.regs = n.regs ∧ u.nodeSt = n.nodeSt ∧ (if b then u.power.bOk else u.power.aOk) = false ∧
      (if b then u.power.aOk else u.power.bOk) = (if b then s.node.power.aOk else s.node.power.bOk) ∧ (0x0D, if b then 2 else 0) ∈ u.dueB ∧
      ((if b then s.node.power.aOk else s.node.power.bOk) = true → u.power.pfail = s.node.power.pfail) ∧
      ((if b then s.node.power.aOk else s.node.power.bOk) = false → u.power.pfail = true ∧ u.power.pfailAt = n.now ∧ (0x0D, 4) ∈ u.dueB)) := by
  have hp : (atInstant s t).power = s.node.power := rfl
  refine acts_of_eq (f := fun n => feedLost n b) rfl (feedLost_eq (n := atInstant s t) (b := b) h) ?_
  rw [← hp] at h ⊢
  generalize atInstant s t = n at h ⊢
  have hset : (setFeed n b false).power = (if b then { n.power with bOk := false } else { n.power with aOk := false }) ∧
      (setFeed n b false).regs = n.regs ∧ (setFeed n b false).nodeSt = n.nodeSt ∧ (setFeed n b false).now = n.now := ⟨rfl, rfl, rfl, rfl⟩
  have htold : PowerKept (setFeed n b false) (lossTold n b) := (powerKept_note _ _).trans (powerKept_raiseB _ _ _)
  have hdue : (0x0D, if b then 2 else 0) ∈ (lossTold n b).dueB := List.mem_append_right _ (List.mem_singleton_self _)
  generalize setFeed n b false = k at hset htold
  generalize lossTold n b = m at htold hdue ⊢
  obtain ⟨hpow, hregs, hst, hnow⟩ := hset
  have hsame := htold.same
  simp only [Prod.mk.injEq] at hsame
  obtain ⟨g1, g2, g3⟩ := hsame
  have hm := htold.power
  rw [hpow] at hm
  generalize m.power.sure = q at hm
  have hend : ∀ u, u = (if !m.power.aOk && !m.power.bOk then powerFail m else m) → (u.regs, u.nodeSt, u.now) = (m.regs, m.nodeSt, m.now) ∧
      m.dueB <+: u.dueB ∧ u.power.aOk = m.power.aOk ∧ u.power.bOk = m.power.bOk ∧
      ((m.power.aOk = true ∨ m.power.bOk = true) → u.power.pfail = m.power.pfail) ∧
      (m.power.aOk = false → m.power.bOk = false → u.power.pfail = true ∧ u.power.pfailAt = m.now ∧ (0x0D, 4) ∈ u.dueB) := by
    rintro u rfl
    by_cases hboth : (!m.power.aOk && !m.power.bOk) = true
    · rw [if_pos hboth, powerFail_eq]
      obtain ⟨hk, hd⟩ := powerKept_failTold (failMarked m)
      have hmark : (failMarked m).power.aOk = m.power.aOk ∧ (failMarked m).power.bOk = m.power.bOk ∧ (failMarked m).power.pfail = true ∧
          (failMarked m).power.pfailAt = m.now := ⟨rfl, rfl, rfl, rfl⟩
      have hrest : ((failMarked m).regs, (failMarked m).nodeSt, (failMarked m).now) = (m.regs, m.nodeSt, m.now) := rfl
      have hpre : (failMarked m).dueB = m.dueB := rfl
      generalize failMarked m = x at hk hd hmark hrest hpre ⊢
      have hx := hk.power
      obtain ⟨x1, x2, x3, x4⟩ := hmark
      refine ⟨hk.same.trans hrest, hpre ▸ hk.due, by rw [hx]; exact x1, by rw [hx]; exact x2, fun h => ?_, fun _ _ => ⟨by rw [hx]; exact x3, by rw [hx]; exact x4, hd⟩⟩
      simp only [Bool.and_eq_true, Bool.not_eq_true'] at hboth
      rw [hboth.1, hboth.2] at h
      simp at h
    · rw [if_neg hboth]
      refine ⟨rfl, List.prefix_rfl, rfl, rfl, fun _ => rfl, fun ha hb => absurd ?_ hboth⟩
      rw [ha, hb]
      rfl
  generalize (if !m.power.aOk && !m.power.bOk then powerFail m else m) = u at hend ⊢
  obtain ⟨e1, e2, e3, e4, e5, e6⟩ := hend u rfl
  simp only [Prod.mk.injEq] at e1
  obtain ⟨f1, f2, -⟩ := e1
  have hsp : (settle u).power = u.power := rfl
  rw [hsp]
  refine ⟨f1.trans (g1.trans hregs), f2.trans (g2.trans hst), ?_, ?_, e2.subset hdue, ?_, ?_⟩
  · cases b
    · exact e3.trans (by rw [hm]; rfl)
    · exact e4.trans (by rw [hm]; rfl)
  · cases b
    · exact e4.trans (by rw [hm]; rfl)
    · exact e3.trans (by rw [hm]; rfl)
  · intro ho
    cases b
    · exact (e5 (.inr (by rw [hm]; exact ho))).trans (by rw [hm]; rfl)
    · exact (e5 (.inl (by rw [hm]; exact ho))).trans (by rw [hm]; rfl)
  · intro ho
    cases b
    · obtain ⟨r1, r2, r3⟩ := e6 (by rw [hm]; rfl) (by rw [hm]; exact ho)
      exact ⟨r1, r2.trans (g3.trans hnow), r3⟩
    · obtain ⟨r1, r2, r3⟩ := e6 (by rw [hm]; exact ho) (by rw [hm]; rfl)
      exact ⟨r1, r2.trans (g3.trans hnow), r3⟩

end Sys2Proof.Machine
end

section
/-! PROOF. Starts from the feeds and the shutdown, and the statement on resets (17 R399, R402, R403, R432, 15 R363). -/

namespace Sys2Proof.Machine

theorem acts_onState_same {c : Instr} {s : State} {t : Nat} {f : State → State} (hc : exec c s = .next (onState s t f))
    (hf : f { s with node := begin_ s.node t } = { s with node := begin_ s.node t }) : Acts c s t (fun n u => SameButSignals u n) := by
  refine ⟨_, hc, ?_⟩
  unfold onState
  dsimp only
  rw [hf]
  exact ⟨nodeOnly_mk _ _, sameButSignals_settle _⟩

/-! A feed comes back -/

/-- The feed's return told. -/
def returnTold (n : Node) (b : Bool) : Node :=
  let m := modPower (setFeed n b true) (fun p => { p with pfail := false })
  raiseB (note m (recPower m 2 (b2n b) (nodeCode m) 0 0 0)) 0x0D (if b then 3 else 1)

theorem feedPresent_told {n : Node} {b : Bool} (ho : n.power.off = false) (hf : feedOk n b = false) : feedPresent n b = returnTold n b := by
  unfold feedPresent
  rw [if_neg (by rw [ho]; decide), if_neg (by rw [hf]; decide)]
  rfl

theorem execFeedPresent_on {s : State} {t : Nat} {b : Bool} (ho : s.node.power.off = false) :
    exec (.feedPresent t b) s = .next (onState s t (fun s => { s with node := feedPresent s.node b })) := by
  have hrun : (if (begin_ s.node t).power.off then resetState { s with node := begin_ s.node t } (feedPresent (begin_ s.node t) b)
      else { s with node := feedPresent (begin_ s.node t) b }) = { s with node := feedPresent (begin_ s.node t) b } :=
    if_neg (ne_true_of_eq_false (show (begin_ s.node t).power.off = false from ho))
  have hexec : exec (.feedPresent t b) s = .next (onState s t (fun s =>
      if s.node.power.off then resetState s (feedPresent s.node b) else { s with node := feedPresent s.node b })) := rfl
  rw [hexec]
  unfold onState
  dsimp only
  rw [hrun]

theorem acts_feedPresent_same {t : Nat} {b : Bool} {s : State} (ho : s.node.power.off = false)
    (h : (if b then s.node.power.bOk else s.node.power.aOk) = true) : Acts (.feedPresent t b) s t (fun n u => SameButSignals u n) := by
  refine acts_onState_same (execFeedPresent_on ho) ?_
  have hrun : feedPresent (begin_ s.node t) b = begin_ s.node t := by
    unfold feedPresent
    rw [if_neg (ne_true_of_eq_false (show (begin_ s.node t).power.off = false from ho)), if_pos (show feedOk (begin_ s.node t) b = true from h)]
  dsimp only
  rw [hrun]

theorem acts_feedPresent_told {t : Nat} {b : Bool} {s : State} (ho : s.node.power.off = false)
    (h : (if b then s.node.power.bOk else s.node.power.aOk) = false) : Acts (.feedPresent t b) s t (fun n u =>
      SameButRecords u { n with power := u.power } ∧ (if b then u.power.bOk else u.power.aOk) = true ∧
      (if b then u.power.aOk else u.power.bOk) = (if b then s.node.power.aOk else s.node.power.bOk) ∧ u.power.pfail = false ∧
      (0x0D, if b then 3 else 1) ∈ u.dueB) := by
  refine acts_onState (f := fun s => feedPresent s.node b) (execFeedPresent_on ho) ?_
  have hp : (atInstant s t).power = s.node.power := rfl
  dsimp only
  rw [feedPresent_told (n := atInstant s t) ho h, ← hp]
  generalize atInstant s t = n
  unfold returnTold
  dsimp only
  have hm : modPower (setFeed n b true) (fun p => { p with pfail := false }) = { n with
      power := { (if b then { n.power with bOk := true } else { n.power with aOk := true }) with pfail := false } } := rfl
  generalize modPower (setFeed n b true) (fun p => { p with pfail := false }) = m at hm ⊢
  have hrec : RecFrame m (raiseB (note m (recPower m 2 (b2n b) (nodeCode m) 0 0 0)) 0x0D (if b then 3 else 1)) :=
    recFrame_trans (recFrame_note m _) (recFrame_raiseB _ _ _)
  have hdue : (0x0D, if b then 3 else 1) ∈ (raiseB (note m (recPower m 2 (b2n b) (nodeCode m) 0 0 0)) 0x0D (if b then 3 else 1)).dueB :=
    List.mem_append_right _ (List.mem_singleton_self _)
  generalize raiseB (note m (recPower m 2 (b2n b) (nodeCode m) 0 0 0)) 0x0D (if b then 3 else 1) = u at hrec hdue ⊢
  obtain ⟨r, l, hd, d, q, hu, hh⟩ := hrec
  subst hm
  refine ⟨?_, ?_, ?_, ?_, hdue⟩
  · rw [hu]
    exact ⟨rfl, hh⟩
  · rw [hu]
    cases b <;> rfl
  · rw [hu]
    cases b <;> rfl
  · rw [hu]
    rfl

/-! A start from the feeds -/

/-- The instants of the marker decide the cause of a start, but between 1 s and 3 s (17 R403). -/
theorem markerCause_cases (n : Node) : (n.power.offAt = none → markerCause n = 1) ∧
    (∀ a, n.power.offAt = some a → (n.now ≤ a + 1000000000 → markerCause n = 5) ∧ (a + 3000000000 < n.now → markerCause n = 1)) := by
  refine ⟨fun h => ?_, fun a h => ⟨fun hle => ?_, fun hlt => ?_⟩⟩
  · simp only [markerCause, h]
  · simp only [markerCause, h]
    rw [if_pos hle]
  · simp only [markerCause, h]
    rw [if_neg (by omega), if_pos hlt]

/-- The power part as a start leaves it. -/
def startPower (a b : Bool) (p : Power) : Power :=
  { aOk := a, bOk := b, va := p.va, vb := p.vb, inW := p.inW, loopW := p.loopW, holdV := p.holdV, holdOk := p.holdOk }

theorem startFrom_eq (n : Node) (a b : Bool) : startFrom n a b = endReset (modPower
    (coldNode (drawn (rebaseLocks n (n.now - n.power.offAt.getD n.now))) (markerCause n)) (startPower a b)) := rfl

theorem rebased_leaves (n : Node) (off : Nat) : (drawn (rebaseLocks n off)).config.copyA = laterCopy off n.config.copyA ∧
    (drawn (rebaseLocks n off)).config.copyB = laterCopy off n.config.copyB ∧ (drawn (rebaseLocks n off)).rec_ = n.rec_ ∧
    (drawn (rebaseLocks n off)).nodeSt = n.nodeSt ∧ (drawn (rebaseLocks n off)).duplex = n.duplex := ⟨rfl, rfl, rfl, rfl, rfl⟩

/-- What a start from the feeds leaves (17 R399). -/
def startedWith (s : State) (t : Nat) (a b : Bool) (u : State) : Prop :=
  wasReset (max s.node.now t - s.node.power.offAt.getD (max s.node.now t)) s u ∧ u.node.nodeSt.phase = 1 ∧
  u.node.nodeSt.held = s.node.nodeSt.held ∧
  u.node.nodeSt.boot = (if s.node.nodeSt.held then s.node.nodeSt.boot else (s.node.nodeSt.boot + 1) % 4294967296) ∧
  u.node.power.aOk = a ∧ u.node.power.bOk = b ∧ u.node.power.off = false ∧ u.node.duplex = { posB := s.node.duplex.posB } ∧
  (s.node.power.offAt = none → u.node.nodeSt.rstCause = 1) ∧
  (∀ a, s.node.power.offAt = some a → (max s.node.now t ≤ a + 1000000000 → u.node.nodeSt.rstCause = 5) ∧
    (a + 3000000000 < max s.node.now t → u.node.nodeSt.rstCause = 1))

theorem startedWith_startFrom (s : State) (t : Nat) (a b : Bool) : startedWith s t a b
    { resetState { s with node := begin_ s.node t } (startFrom (begin_ s.node t) a b) with
      node := settle (startFrom (begin_ s.node t) a b) } := by
  have hcause := markerCause_cases (begin_ s.node t)
  rw [startFrom_eq]
  have hoff : (begin_ s.node t).now - (begin_ s.node t).power.offAt.getD (begin_ s.node t).now =
      max s.node.now t - s.node.power.offAt.getD (max s.node.now t) := rfl
  rw [hoff]
  obtain ⟨hA, hB, hrec, hst, hdup⟩ := rebased_leaves (begin_ s.node t) (max s.node.now t - s.node.power.offAt.getD (max s.node.now t))
  generalize drawn (rebaseLocks (begin_ s.node t) (max s.node.now t - s.node.power.offAt.getD (max s.node.now t))) = m at hA hB hrec hst hdup ⊢
  generalize markerCause (begin_ s.node t) = c at hcause ⊢
  have hcold : IsReset (max s.node.now t - s.node.power.offAt.getD (max s.node.now t)) (begin_ s.node t) (coldNode m c) :=
    isReset_coldNode hA hB (fun _ => by rw [hrec]) c
  obtain ⟨e1, -, -, e2, -⟩ := coldNode_leaves m c
  generalize coldNode m c = k at hcold e1 e2 ⊢
  have hreset := (hcold.modPower (startPower a b)).endReset
  have hk : (modPower k (startPower a b)).nodeSt = k.nodeSt ∧ (modPower k (startPower a b)).duplex = k.duplex ∧
      (modPower k (startPower a b)).power.aOk = a ∧ (modPower k (startPower a b)).power.bOk = b ∧
      (modPower k (startPower a b)).power.off = false := ⟨rfl, rfl, rfl, rfl, rfl⟩
  generalize modPower k (startPower a b) = x at hk hreset ⊢
  obtain ⟨hxst, hxdup, hxa, hxb, hxo⟩ := hk
  rw [e1, hst] at hxst
  have hxst' : x.nodeSt = { boot := s.node.nodeSt.boot, rstCause := c, held := s.node.nodeSt.held } := hxst
  obtain ⟨-, f1, f2, -, f3, f4, -, f5, f6⟩ := endReset_leaves x
  generalize endReset x = u at hreset f1 f2 f3 f4 f5 f6 ⊢
  have hcu : u.nodeSt.rstCause = c := by rw [f3, hxst']
  refine ⟨wasReset_of hreset, ?_, ?_, ?_, ?_, ?_, ?_, ?_, fun h => ?_, fun y h => ⟨fun hle => ?_, fun hlt => ?_⟩⟩
  · cases hh : s.node.nodeSt.held with
    | true => exact ((f6 (.inl (by rw [hxst']; exact hh))).1).trans (by rw [hxst'])
    | false => exact (f5 (by rw [hxst']; exact hh) hxo).1
  · exact f4.trans (by rw [hxst'])
  · cases hh : s.node.nodeSt.held with
    | true => exact ((f6 (.inl (by rw [hxst']; exact hh))).2).trans (by rw [hxst']; rfl)
    | false => exact ((f5 (by rw [hxst']; exact hh) hxo).2).trans (by rw [hxst']; rfl)
  · exact (congrArg Power.aOk f1).trans hxa
  · exact (congrArg Power.bOk f1).trans hxb
  · exact (congrArg Power.off f1).trans hxo
  · exact f2.trans (hxdup.trans (e2.trans (by rw [hdup]; rfl)))
  · exact hcu.trans (hcause.1 h)
  · exact hcu.trans ((hcause.2 y h).1 hle)
  · exact hcu.trans ((hcause.2 y h).2 hlt)

theorem yields_feedPresent_off {t : Nat} {b : Bool} {s : State} (ho : s.node.power.off = true) :
    Yields (.feedPresent t b) s (startedWith s t (!b) b) := by
  have hrun : feedPresent (begin_ s.node t) b = startFrom (begin_ s.node t) (!b) b := if_pos ho
  refine yields_reset (f := fun s => if s.node.power.off then resetState s (feedPresent s.node b) else { s with node := feedPresent s.node b })
    (u := startFrom (begin_ s.node t) (!b) b) rfl ?_ (startedWith_startFrom s t (!b) b)
  dsimp only
  rw [if_pos (show (begin_ s.node t).power.off = true from ho), hrun]

theorem yields_powerUp {t : Nat} {a b : Bool} {s : State} (hab : (a || b) = true)
    (h : s.node.power.off = true ∨ (s.node.power.aOk = false ∧ s.node.power.bOk = false ∧ s.node.power.pfail = false)) :
    Yields (.powerUp t a b) s (startedWith s t a b) := by
  have hstart : startable (begin_ s.node t) = true := by
    unfold startable
    rcases h with h | ⟨h1, h2, h3⟩
    · rw [show (begin_ s.node t).power.off = true from h]
      rfl
    · rw [show (begin_ s.node t).power.aOk = false from h1, show (begin_ s.node t).power.bOk = false from h2,
        show (begin_ s.node t).power.pfail = false from h3]
      exact Bool.or_true _
  refine yields_reset (f := fun s => if (a || b) && startable s.node then resetState s (startFrom s.node a b) else s)
    (u := startFrom (begin_ s.node t) a b) rfl ?_ (startedWith_startFrom s t a b)
  exact if_pos (by rw [hab, hstart]; rfl)

theorem acts_powerUp_not {t : Nat} {a b : Bool} {s : State} (h : (a || b) = false ∨
      (s.node.power.off = false ∧ (s.node.power.aOk = true ∨ s.node.power.bOk = true ∨ s.node.power.pfail = true))) :
    Acts (.powerUp t a b) s t (fun n u => SameButSignals u n) := by
  refine acts_onState_same (f := fun s => if (a || b) && startable s.node then resetState s (startFrom s.node a b) else s) rfl (if_neg ?_)
  rw [Bool.and_eq_true]
  rintro ⟨hab, hs⟩
  rcases h with h | ⟨ho, hp⟩
  · rw [h] at hab
    exact absurd hab (by decide)
  · have hs' : (s.node.power.off || !(s.node.power.aOk || s.node.power.bOk || s.node.power.pfail)) = true := hs
    rw [ho] at hs'
    rcases hp with hp | hp | hp <;> simp [hp] at hs'

/-! The shutdown -/

/-- Records that fit whole are all taken. -/
theorem fitting_all {l : List SRec} {room : Nat} (h : bytesOf l ≤ room) : fitting room l = l := by
  induction l generalizing room with
  | nil => rfl
  | cons x r ih =>
    have hsum : recLen x.body + bytesOf r ≤ room := by simpa [bytesOf] using h
    rw [fitting, if_pos (by omega), ih (by omega)]

theorem bytesOf_append (a b : List SRec) : bytesOf (a ++ b) = bytesOf a + bytesOf b := by simp [bytesOf]

theorem bytesOf_filter_le (p : SRec → Bool) (l : List SRec) : bytesOf (l.filter p) ≤ bytesOf l := by
  induction l with
  | nil => exact le_refl _
  | cons x r ih =>
    have hx : bytesOf (x :: r) = recLen x.body + bytesOf r := by simp [bytesOf]
    rw [List.filter_cons, hx]
    split
    · have hy : bytesOf (x :: r.filter p) = recLen x.body + bytesOf (r.filter p) := by simp [bytesOf]
      omega
    · omega

theorem flash_commitTo {n : Node} (hs : n.rec_.store = .flash) {q : Nat}
    (hfit : bytesOf (n.rec_.flash ++ n.rec_.staging) ≤ n.rec_.segs * 1048576) :
    (commitTo n q).rec_.flash = n.rec_.flash ++ n.rec_.staging.filter (fun x => decide (x.rseq ≤ q)) := by
  rw [bytesOf_append] at hfit
  have hle := bytesOf_filter_le (fun x => decide (x.rseq ≤ q)) n.rec_.staging
  unfold commitTo commitSome modRec
  dsimp only
  rw [hs]
  dsimp only
  rw [fitting_all (by unfold flashRoom; omega)]

theorem prefix_commitTo (n : Node) (q : Nat) : n.rec_.flash <+: (commitTo n q).rec_.flash := by
  unfold commitTo commitSome modRec
  dsimp only
  split
  · exact List.prefix_rfl
  · exact List.prefix_append _ _
  · exact List.prefix_rfl

/-- The stores as a shutdown leaves them, before the cold node. -/
def shutStored (n : Node) : Node := commitTo (storedTimeWrite n) (storedTimeWrite n).power.sure

theorem storedTimeWrite_leaves (n : Node) : (storedTimeWrite n).rec_ = n.rec_ ∧ (storedTimeWrite n).config = n.config ∧
    (storedTimeWrite n).power = n.power ∧ (storedTimeWrite n).now = n.now := by
  unfold storedTimeWrite
  split <;> exact ⟨rfl, rfl, rfl, rfl⟩

theorem shutdown_eq {n : Node} (h : holdupOver n = true) : shutdown n =
    modPower (coldNode (shutStored n) (shutStored n).nodeSt.rstCause) (fun p => { p with
      pfail := false, off := true, offAt := some (coldNode (shutStored n) (shutStored n).nodeSt.rstCause).now }) := by
  unfold shutdown
  rw [if_neg (by rw [h]; decide)]
  rfl

theorem yields_shutdown {t : Nat} {s : State} (hf : s.node.power.pfail = true) (hlate : s.node.power.pfailAt + 30000000 ≤ max s.node.now t) :
    Yields (.shutdown t) s (fun u => wasReset 0 s u ∧ u.node.power.off = true ∧
       u.node.power.pfail = false ∧ u.node.power.offAt = some (max s.node.now t) ∧
       (s.node.rec_.store = .flash →
         bytesOf (s.node.rec_.flash ++ s.node.rec_.staging) ≤ s.node.rec_.segs * 1048576 →
         u.node.rec_.flash = s.node.rec_.flash ++ s.node.rec_.staging.filter (fun x => decide (x.rseq ≤ s.node.power.sure)))) := by
  have hover : holdupOver (begin_ s.node t) = true := by
    rw [holdupOver, Bool.and_eq_true]
    exact ⟨hf, decide_eq_true hlate⟩
  refine yields_reset (f := fun s => if holdupOver s.node then resetState s (shutdown s.node) else s)
    (u := shutdown (begin_ s.node t)) rfl (if_pos hover) ?_
  rw [shutdown_eq hover]
  obtain ⟨w1, w2, w3, w4⟩ := storedTimeWrite_leaves (begin_ s.node t)
  have hstored : (shutStored (begin_ s.node t)).config = s.node.config ∧ (shutStored (begin_ s.node t)).now = max s.node.now t ∧
      s.node.rec_.flash <+: (shutStored (begin_ s.node t)).rec_.flash ∧
      (s.node.rec_.store = .flash → bytesOf (s.node.rec_.flash ++ s.node.rec_.staging) ≤ s.node.rec_.segs * 1048576 →
        (shutStored (begin_ s.node t)).rec_.flash = s.node.rec_.flash ++ s.node.rec_.staging.filter (fun x => decide (x.rseq ≤ s.node.power.sure))) := by
    unfold shutStored
    have hpre := prefix_commitTo (storedTimeWrite (begin_ s.node t)) (storedTimeWrite (begin_ s.node t)).power.sure
    have hall := fun hs hfit => flash_commitTo (n := storedTimeWrite (begin_ s.node t)) hs (q := (storedTimeWrite (begin_ s.node t)).power.sure) hfit
    rw [w1] at hpre hall
    rw [w3] at hall ⊢
    rw [w3] at hpre
    exact ⟨w2, w4, hpre, hall⟩
  generalize shutStored (begin_ s.node t) = m at hstored ⊢
  obtain ⟨hconf, hnow, hpre, hall⟩ := hstored
  have hcold : IsReset 0 (begin_ s.node t) (coldNode m m.nodeSt.rstCause) :=
    isReset_coldNode (n := begin_ s.node t) ((congrArg Config.copyA hconf).trans (laterCopy_zero _).symm)
      ((congrArg Config.copyB hconf).trans (laterCopy_zero _).symm) (fun _ => hpre) _
  obtain ⟨-, -, e3, -, e5⟩ := coldNode_leaves m m.nodeSt.rstCause
  generalize coldNode m m.nodeSt.rstCause = k at hcold e3 e5 ⊢
  refine ⟨wasReset_of (hcold.modPower _), rfl, rfl, congrArg some (e3.trans hnow), fun hs hfit => ?_⟩
  exact e5.trans (hall hs hfit)

theorem acts_shutdown_not {t : Nat} {s : State} (h : s.node.power.pfail = false ∨ max s.node.now t < s.node.power.pfailAt + 30000000) :
    Acts (.shutdown t) s t (fun n u => SameButSignals u n) := by
  refine acts_onState_same (f := fun s => if holdupOver s.node then resetState s (shutdown s.node) else s) rfl (if_neg ?_)
  dsimp only
  rw [holdupOver, Bool.and_eq_true, decide_eq_true_eq]
  rintro ⟨hf, hlate⟩
  rcases h with h | h
  · exact absurd (h.symm.trans hf) (by decide)
  · exact absurd hlate (Nat.not_le_of_lt h)

/-- Settles O57: each reset by the cold node it leaves, the start-up it begins or not, and the feeds by what they read. -/
theorem resetsAndFeeds : Obligations.ResetsAndFeeds :=
  ⟨fun t s => ⟨yields_nodeResetCmd, acts_nodeResetCmd_dup, fun _ => acts_nodeResetCmd_refused, yields_rstNAssert t s, yields_rstNRelease,
      acts_rstNRelease_free, yields_perstNAssert, acts_perstNAssert⟩,
    fun t a b s => ⟨acts_feedLost, fun h => acts_same (f := fun n => feedLost n b) rfl
        (if_pos (by rw [show feedOk (atInstant s t) b = false from h]; rfl)), acts_feedPresent_same, acts_feedPresent_told, yields_feedPresent_off,
      yields_powerUp, acts_powerUp_not, yields_shutdown, acts_shutdown_not⟩⟩

end Sys2Proof.Machine
end

section
/-! PROOF. Commits, the overrun record and the failures of stores (15 R352, R353, R361, R362). -/

namespace Sys2Proof.Machine

/-! Commits -/

theorem fitting_prefix (room : Nat) (l : List SRec) : fitting room l <+: l := by
  induction l generalizing room with
  | nil => exact List.prefix_rfl
  | cons x r ih =>
    rw [fitting]
    split
    · exact (List.prefix_cons_inj x).mpr (ih _)
    · exact List.nil_prefix

/-- The records pinned in the MRAM are never overwritten (15 R361). -/
theorem mem_mramTrim_of_pinned {x : SRec} (hp : pinned x = true) (k : Nat) {l : List SRec} (h : x ∈ l) : x ∈ mramTrim k l := by
  induction k generalizing l with
  | zero => exact h
  | succ k ih =>
    rw [mramTrim]
    split
    · exact h
    · split
      next y hy =>
        have hne : x ≠ y := by
          rintro rfl
          have hfree := List.find?_some hy
          rw [hp] at hfree
          exact absurd hfree (by decide)
        exact ih ((List.mem_erase_of_ne hne).mpr h)
      · exact h

theorem recordCommit_stands {n : Node} (h : n.rec_.frozen.isSome = true ∨ n.rec_.ready = false) : recordCommit n = n := by
  refine if_pos ?_
  rw [Bool.or_eq_true, Bool.not_eq_true']
  exact h

theorem recordCommit_runs {n : Node} (hf : n.rec_.frozen = none) (hr : n.rec_.ready = true) : recordCommit n = commitAll n := by
  refine if_neg ?_
  rw [hf, hr]
  decide

theorem commitAll_flash {n : Node} (hs : n.rec_.store = .flash) : commitAll n = { n with rec_ := { n.rec_ with
    flash := n.rec_.flash ++ fitting (flashRoom n) n.rec_.staging,
    staging := n.rec_.staging.drop (fitting (flashRoom n) n.rec_.staging).length ++ [],
    committed := ((fitting (flashRoom n) n.rec_.staging).getLast?.map (·.rseq)).getD n.rec_.committed } } := by
  unfold commitAll commitSome modRec
  dsimp only
  rw [hs]

theorem commitAll_mram {n : Node} (hs : n.rec_.store = .mram) : commitAll n = { n with rec_ := { n.rec_ with
    mram := mramTrim (n.rec_.mram ++ n.rec_.staging).length (n.rec_.mram ++ n.rec_.staging), staging := [],
    committed := (n.rec_.staging.getLast?.map (·.rseq)).getD n.rec_.committed } } := by
  unfold commitAll commitSome modRec
  dsimp only
  rw [hs]

theorem acts_recordCommit_flash {t : Nat} {s : State} (hf : s.node.rec_.frozen = none) (hr : s.node.rec_.ready = true)
    (hs : s.node.rec_.store = .flash) : Acts (.recordCommit t) s t (fun n u =>
      SameButSignals u { n with rec_ := { s.node.rec_ with flash := u.rec_.flash, staging := u.rec_.staging, committed := u.rec_.committed } } ∧
      u.rec_.flash ++ u.rec_.staging = s.node.rec_.flash ++ s.node.rec_.staging ∧
      (bytesOf (s.node.rec_.flash ++ s.node.rec_.staging) ≤ s.node.rec_.segs * 1048576 → u.rec_.staging = [] ∧
        ∀ x, s.node.rec_.staging.getLast? = some x → u.rec_.committed = x.rseq)) := by
  refine acts_of_eq (f := recordCommit) rfl ((recordCommit_runs (n := atInstant s t) hf hr).trans (commitAll_flash hs)) ⟨rfl, ?_, fun hfit => ?_⟩
  · have hpre := List.prefix_iff_eq_append.mp (fitting_prefix (flashRoom (atInstant s t)) s.node.rec_.staging)
    have hrest : s.node.rec_.flash ++ fitting (flashRoom (atInstant s t)) s.node.rec_.staging ++
        (s.node.rec_.staging.drop (fitting (flashRoom (atInstant s t)) s.node.rec_.staging).length ++ []) =
        s.node.rec_.flash ++ s.node.rec_.staging := by rw [List.append_nil, List.append_assoc, hpre]
    exact hrest
  · rw [bytesOf_append] at hfit
    have hall : fitting (flashRoom (atInstant s t)) (atInstant s t).rec_.staging = s.node.rec_.staging :=
      fitting_all (by
        show bytesOf s.node.rec_.staging ≤ s.node.rec_.segs * 1048576 - bytesOf s.node.rec_.flash
        omega)
    rw [hall]
    refine ⟨?_, fun x hx => ?_⟩
    · have hnil : s.node.rec_.staging.drop s.node.rec_.staging.length ++ [] = [] := by simp
      exact hnil
    · have hlast : (s.node.rec_.staging.getLast?.map (·.rseq)).getD s.node.rec_.committed = x.rseq := by rw [hx]; rfl
      exact hlast

theorem acts_recordCommit_mram {t : Nat} {s : State} (hf : s.node.rec_.frozen = none) (hr : s.node.rec_.ready = true)
    (hs : s.node.rec_.store = .mram) : Acts (.recordCommit t) s t (fun n u =>
      SameButSignals u { n with rec_ := { s.node.rec_ with mram := u.rec_.mram, staging := [], committed := u.rec_.committed } } ∧
      ∀ x ∈ s.node.rec_.mram ++ s.node.rec_.staging, pinned x = true → x ∈ u.rec_.mram) :=
  acts_of_eq (f := recordCommit) rfl ((recordCommit_runs (n := atInstant s t) hf hr).trans (commitAll_mram hs))
    ⟨rfl, fun _ hx hp => mem_mramTrim_of_pinned hp _ hx⟩

/-! The overrun record -/

/-- A record of no capture and no log entry, that clears nothing and that staging admits, is staged behind the others. -/
theorem stageRec_plain {n : Node} {r : Rec} (hcap : r.cap = none) (hlog : r.logSlot = none) (hclear : r.clearTo = none)
    (hadmit : admits n r = true) (vote : Nat) : stageRec n vote r = countStaged (sureOf (stagedAs n vote r) n.rec_.nextRseq) := by
  have hid : withCapId n n.rec_.nextRseq r = r := by
    unfold withCapId
    rw [hcap]
  have hcancel : cancelled n r = false := by
    unfold cancelled
    rw [hcap]
  rw [stageRec_eq, if_neg (by rw [hcancel]; decide), if_neg (by rw [hadmit]; decide), hid, withRange_of_none hclear,
    finishClear_of_none hclear]
  unfold afterStage
  rw [hcap, hlog]

theorem sureOf_rec (n : Node) (q : Nat) : (sureOf n q).rec_ = n.rec_ := pred_ite (P := fun m : Node => m.rec_ = n.rec_) rfl rfl

theorem length_padded_le (p : List Byte) : (padded p).length ≤ p.length + 3 := by
  simp only [padded, List.length_append, List.length_replicate]
  omega

theorem recLen_overrun (n : Node) (o : Overrun) : recLen (recOverrun n o) ≤ 63 := by
  have h := length_padded_le (recOverrun n o).payload
  have hlen : (recOverrun n o).payload.length = 28 := by simp [recOverrun, length_bytesLE]
  unfold recLen
  omega

theorem admits_overrun {n : Node} (h : 1048576 ≤ freeStaging n) (o : Overrun) : admits n (recOverrun n o) = true := by
  have hlen := recLen_overrun n o
  have hout : ¬ ([1, 9, 13, 14, 15, 16].contains (recOverrun n o).typ = true) := by
    show ¬ ([1, 9, 13, 14, 15, 16].contains 12 = true)
    decide
  unfold admits
  dsimp only
  rw [if_neg (show ¬ (recOverrun n o).typ = 11 by show ¬ 12 = 11; decide), if_neg hout]
  exact decide_eq_true (by omega)

/-- The node without its overrun, before the record of it. -/
def overrunTaken (n : Node) : Node := modRec n (fun r => { r with overrun := none })

theorem overrunRecord_runs {n : Node} {o : Overrun} (ho : n.rec_.overrun = some o) (hf : n.rec_.frozen = none) (hr : n.rec_.ready = true)
    (hfree : 1048576 ≤ freeStaging n) : overrunRecord n =
      countStaged (sureOf (stagedAs (overrunTaken n) 3 (recOverrun (overrunTaken n) o)) n.rec_.nextRseq) := by
  have hrun : overrunRecord n = stageRec (overrunTaken n) 3 (recOverrun (overrunTaken n) o) := by
    unfold overrunRecord
    rw [ho]
    dsimp only
    rw [if_pos (by rw [hf, hr]; simpa using hfree)]
    rfl
  exact hrun.trans (stageRec_plain (n := overrunTaken n) rfl rfl rfl (admits_overrun (n := overrunTaken n) hfree o) 3)

theorem overrunRecord_stands {n : Node} (h : n.rec_.overrun = none ∨ n.rec_.frozen.isSome = true ∨ n.rec_.ready = false ∨
    freeStaging n < 1048576) : overrunRecord n = n := by
  unfold overrunRecord
  split
  next o ho =>
    refine if_neg ?_
    rw [Bool.and_eq_true, Bool.and_eq_true, decide_eq_true_eq]
    rintro ⟨⟨h1, h2⟩, h3⟩
    rcases h with h | h | h | h
    · rw [ho] at h
      exact absurd h (by simp)
    · cases hf : n.rec_.frozen <;> simp [hf] at h h1
    · rw [h] at h2
      exact absurd h2 (by decide)
    · omega
  · rfl

theorem recFrame_overrunRecord (n : Node) : RecFrame n (overrunRecord n) := by
  unfold overrunRecord
  split
  · exact recFrame_ite (recFrame_trans (recFrame_rec n _) (recFrame_stageRec _ _ _)) (recFrame_refl n)
  · exact recFrame_refl n

theorem acts_overrunRecord {t : Nat} {o : Overrun} {s : State} (ho : s.node.rec_.overrun = some o) (hf : s.node.rec_.frozen = none)
    (hr : s.node.rec_.ready = true) (hfree : 1048576 ≤ freeStaging s.node) : Acts (.overrunRecord t) s t (fun n u =>
      SameButRecords u n ∧ u.rec_.overrun = none ∧ ∃ x, u.rec_.staging = s.node.rec_.staging ++ [x] ∧ x.body.typ = 12 ∧
        x.rseq = s.node.rec_.nextRseq ∧ x.link = s.node.rec_.lastCrc) := by
  have hframe := recFrame_overrunRecord (atInstant s t)
  have hrun := overrunRecord_runs (n := atInstant s t) ho hf hr hfree
  refine acts_of_eq (f := overrunRecord) rfl rfl ⟨sameButRecords_settle hframe, ?_⟩
  have hrec : (settle (overrunRecord (atInstant s t))).rec_ = (countStaged (sureOf (stagedAs (overrunTaken (atInstant s t)) 3
      (recOverrun (overrunTaken (atInstant s t)) o)) s.node.rec_.nextRseq)).rec_ := by
    have k := congrArg Node.rec_ hrun
    exact k
  rw [hrec]
  have hcount : ∀ m : Node, (countStaged m).rec_.overrun = m.rec_.overrun ∧ (countStaged m).rec_.staging = m.rec_.staging := fun _ => ⟨rfl, rfl⟩
  rw [(hcount _).1, (hcount _).2, sureOf_rec]
  exact ⟨rfl, _, rfl, rfl, rfl, rfl⟩

end Sys2Proof.Machine
end

section
/-! PROOF. Stores that fail, retired blocks and erasures (15 R360 to R362). -/

namespace Sys2Proof.Machine

theorem noClear_rec (n : Node) (b : Nat) (p : Nat) : NoClear n (raiseB n p b) := noClear_of_rec rfl

/-! The flash fails -/

/-- The failure's record, with the MRAM in use. -/
def failNoted (n : Node) (reason : Nat) : Node :=
  let m := modRec n (fun r => { r with store := .mram })
  if m.rec_.ready then stageRec m 3 (recRecorder m 1 reason 0) else note m (recRecorder m 1 reason 0)

/-- The staged records made ready for the MRAM. -/
def rechained (n : Node) : Node :=
  modRec n (fun r => { r with
    staging := rechain (newestCrc n) n.rec_.staging
    lastCrc := ((rechain (newestCrc n) n.rec_.staging).getLast?.map (·.crc)).getD r.lastCrc })

theorem flashFail_mram {n : Node} (hs : n.rec_.store = .flash) (hm : n.rec_.mramOk = true) (reason : Nat) :
    flashFail n reason = raiseB (pinFail (rechained (failNoted n reason))) 6 4 := by
  unfold flashFail
  rw [if_neg (by rw [hs]; decide), if_pos hm]
  rfl

/-- No store is left, and the failure has its record. -/
def failAll (n : Node) (reason : Nat) : Node :=
  let m := modRec n (fun r => { r with store := .none })
  raiseB (note m (recRecorder m 1 reason 0)) 6 4

theorem flashFail_none {n : Node} (hs : n.rec_.store = .flash) (hm : n.rec_.mramOk = false) (reason : Nat) :
    flashFail n reason = failAll n reason := by
  unfold flashFail
  rw [if_neg (by rw [hs]; decide), if_neg (by rw [hm]; decide)]
  rfl

theorem flashFail_other {n : Node} (hs : n.rec_.store ≠ .flash) (reason : Nat) : flashFail n reason = n := if_pos hs

/-- The recorder but for what the failure of its flash changes. -/
def failKept (r : Recorder) : Recorder := { stagedOnly r with mram := [], store := .none }

theorem mem_rechain {link : Nat} {l : List SRec} {x : SRec} (h : x ∈ rechain link l) : x.mram = true := by
  induction l generalizing link with
  | nil => exact absurd h List.not_mem_nil
  | cons y r ih =>
    rcases List.mem_cons.mp h with rfl | h
    · rfl
    · exact ih h

theorem failNoted_leaves (n : Node) (reason : Nat) : RecFrame n (failNoted n reason) ∧
    keptRec (failNoted n reason) = { keptRec n with store := .mram } ∧
    (n.rec_.ready = true → (failNoted n reason).rec_.waiting = n.rec_.waiting) := by
  have hm : RecFrame n (modRec n (fun r => { r with store := .mram })) ∧ keptRec (modRec n (fun r => { r with store := .mram })) =
      { keptRec n with store := .mram } ∧ (modRec n (fun r => { r with store := .mram })).rec_.ready = n.rec_.ready ∧
      (modRec n (fun r => { r with store := .mram })).rec_.waiting = n.rec_.waiting := ⟨recFrame_rec n _, rfl, rfl, rfl⟩
  unfold failNoted
  dsimp only
  generalize modRec n (fun r => { r with store := .mram }) = m at hm ⊢
  obtain ⟨h1, h2, h3, h4⟩ := hm
  by_cases hr : m.rec_.ready = true
  · rw [if_pos hr]
    exact ⟨recFrame_trans h1 (recFrame_stageRec m 3 _), (keptRec_stageRec rfl m 3).trans h2, fun _ => (waiting_stageRec m 3 _).trans h4⟩
  · rw [if_neg hr]
    exact ⟨recFrame_trans h1 (recFrame_note m _), ((noClear_note rfl m).kept).trans h2, fun h => absurd (h3.trans h) hr⟩

theorem pinFail_leaves (n : Node) : RecFrame n (pinFail n) ∧ failKept (pinFail n).rec_ = failKept n.rec_ ∧
    (pinFail n).rec_.store = n.rec_.store ∧ (pinFail n).rec_.waiting = n.rec_.waiting ∧
    ∀ x ∈ (pinFail n).rec_.staging, x ∈ n.rec_.staging := by
  unfold pinFail
  split
  · exact ⟨recFrame_rec n _, rfl, rfl, rfl, fun x hx => (List.mem_filter.mp hx).1⟩
  · exact ⟨recFrame_refl n, rfl, rfl, rfl, fun x hx => hx⟩

/-- What the failure of the flash leaves. -/
structure FlashFailed (n u : Node) : Prop where
  frame : RecFrame n u
  kept : failKept u.rec_ = failKept n.rec_
  store : u.rec_.store = if n.rec_.mramOk then .mram else .none
  told : (6, 4) ∈ u.dueB
  marked : n.rec_.mramOk = true → ∀ x ∈ u.rec_.staging, x.mram = true
  mram : n.rec_.mramOk = false → u.rec_.mram = n.rec_.mram
  waiting : n.rec_.mramOk = true → n.rec_.ready = true → u.rec_.waiting = n.rec_.waiting

theorem flashFail_leaves {n : Node} (hs : n.rec_.store = .flash) (reason : Nat) : FlashFailed n (flashFail n reason) := by
  cases hm : n.rec_.mramOk with
  | true =>
    rw [flashFail_mram hs hm]
    obtain ⟨h1, h2, h3⟩ := failNoted_leaves n reason
    generalize failNoted n reason = m at h1 h2 h3 ⊢
    have hre : RecFrame m (rechained m) ∧ failKept (rechained m).rec_ = failKept m.rec_ ∧ (rechained m).rec_.store = m.rec_.store ∧
        (rechained m).rec_.waiting = m.rec_.waiting ∧ (∀ x ∈ (rechained m).rec_.staging, x.mram = true) :=
      ⟨recFrame_rec m _, rfl, rfl, rfl, fun x hx => mem_rechain hx⟩
    generalize rechained m = k at hre ⊢
    obtain ⟨r1, r2, r3, r4, r5⟩ := hre
    obtain ⟨p1, p2, p3, p4, p5⟩ := pinFail_leaves k
    generalize pinFail k = u at p1 p2 p3 p4 p5 ⊢
    have hkept : failKept m.rec_ = failKept n.rec_ := by
      have e := congrArg (fun r : Recorder => ({ r with mram := [], store := .none } : Recorder)) h2
      exact e
    have hstore : m.rec_.store = .mram := by
      have e := congrArg Recorder.store h2
      exact e
    refine ⟨recFrame_trans (recFrame_trans (recFrame_trans h1 r1) p1) (recFrame_raiseB u 6 4), (p2.trans r2).trans hkept, ?_,
      List.mem_append_right _ (List.mem_singleton_self _), fun _ x hx => r5 x (p5 x hx), fun h => absurd (h.symm.trans hm) (by decide),
      fun _ hr => (p4.trans r4).trans (h3 hr)⟩
    rw [hm]
    exact (p3.trans r3).trans hstore
  | false =>
    rw [flashFail_none hs hm]
    unfold failAll
    dsimp only
    have hset : RecFrame n (modRec n (fun r => { r with store := .none })) ∧
        keptRec (modRec n (fun r => { r with store := .none })) = { keptRec n with store := .none } := ⟨recFrame_rec n _, rfl⟩
    generalize modRec n (fun r => { r with store := .none }) = m at hset ⊢
    obtain ⟨h1, h2⟩ := hset
    have hnote := (noClear_note (r := recRecorder m 1 reason 0) rfl m).kept.trans h2
    have hframe := recFrame_trans h1 (recFrame_note m (recRecorder m 1 reason 0))
    generalize note m (recRecorder m 1 reason 0) = k at hnote hframe ⊢
    refine ⟨recFrame_trans hframe (recFrame_raiseB k 6 4), ?_, ?_, List.mem_append_right _ (List.mem_singleton_self _),
      fun h => absurd (h.symm.trans hm) (by decide), fun _ => ?_, fun h => absurd (h.symm.trans hm) (by decide)⟩
    · have e := congrArg (fun r : Recorder => ({ r with mram := [], store := .none } : Recorder)) hnote
      exact e
    · rw [hm]
      have e := congrArg Recorder.store hnote
      exact e
    · have e := congrArg Recorder.mram hnote
      exact e

theorem FlashFailed.flash {n u : Node} (h : FlashFailed n u) : u.rec_.flash = n.rec_.flash := by
  have e := congrArg Recorder.flash h.kept
  exact e

theorem acts_flashFail {t k : Nat} {s : State} (hs : s.node.rec_.store = .flash) (hk : k ∈ [1, 2, 4]) : Acts (.flashFail t k) s t (fun n u =>
      SameButRecords u n ∧ u.rec_.flash = s.node.rec_.flash ∧ u.rec_.store = (if s.node.rec_.mramOk then .mram else .none) ∧
      (6, 4) ∈ u.dueB ∧ (s.node.rec_.mramOk = true → ∀ x ∈ u.rec_.staging, x.mram = true)) := by
  have hmem : [1, 2, 4].contains k = true := List.contains_iff_mem.mpr hk
  have h := flashFail_leaves (n := atInstant s t) hs k
  exact acts_of_eq (f := fun n => flashFails n k) rfl (if_pos hmem) ⟨sameButRecords_settle h.frame, h.flash, h.store, h.told, h.marked⟩

theorem acts_flashFail_not {t k : Nat} {s : State} (h : s.node.rec_.store ≠ .flash ∨ k ∉ [1, 2, 4]) :
    Acts (.flashFail t k) s t (fun n u => SameButSignals u n) := by
  refine acts_same (f := fun n => flashFails n k) rfl ?_
  unfold flashFails
  rcases h with h | h
  · exact pred_ite (P := fun m : Node => m = atInstant s t) (flashFail_other (n := atInstant s t) h k) rfl
  · exact if_neg (fun hc => h (List.contains_iff_mem.mp hc))

/-! The MRAM fails -/

/-- The MRAM marked failed, before its record. -/
def mramGone (n : Node) : Node :=
  modRec n (fun r => { r with mramOk := false, mram := [], store := if r.store = .mram then .none else r.store })

theorem mramFail_eq {n : Node} (h : n.rec_.mramOk = true) : mramFail n = raiseBIf (decide (n.rec_.store = .mram))
    { note (mramGone n) (recRecorder (mramGone n) 2 0 0) with
      tb := { (note (mramGone n) (recRecorder (mramGone n) 2 0 0)).tb with stored := none } } 6 4 := by
  unfold mramFail
  rw [if_neg (by rw [h]; decide)]
  rfl

theorem acts_mramFail {t : Nat} {s : State} (h : s.node.rec_.mramOk = true) : Acts (.mramFail t) s t (fun n u =>
      SameButRecords u { n with tb := { n.tb with stored := none } } ∧
      u.rec_.mramOk = false ∧ u.rec_.mram = [] ∧ u.rec_.flash = s.node.rec_.flash ∧
      u.rec_.store = (if s.node.rec_.store = .mram then .none else s.node.rec_.store) ∧ (s.node.rec_.store = .mram → (6, 4) ∈ u.dueB)) := by
  have hrec : s.node.rec_ = (atInstant s t).rec_ := rfl
  refine acts_of_eq (f := mramFail) rfl (mramFail_eq (n := atInstant s t) h) ?_
  rw [hrec]
  generalize atInstant s t = n
  have hgone : RecFrame n (mramGone n) ∧ keptRec (mramGone n) = { keptRec n with
      mramOk := false, mram := [], store := if n.rec_.store = .mram then .none else n.rec_.store } := ⟨recFrame_rec n _, rfl⟩
  generalize mramGone n = m at hgone ⊢
  obtain ⟨h1, h2⟩ := hgone
  have hnote := (noClear_note (r := recRecorder m 2 0 0) rfl m).kept.trans h2
  have hframe := recFrame_trans h1 (recFrame_note m (recRecorder m 2 0 0))
  generalize note m (recRecorder m 2 0 0) = k at hnote hframe ⊢
  have e1 := congrArg Recorder.mramOk hnote
  have e2 := congrArg Recorder.mram hnote
  have e3 := congrArg Recorder.flash hnote
  have e4 := congrArg Recorder.store hnote
  have hsame : ∀ u : Node, (u = raiseB { k with tb := { k.tb with stored := none } } 6 4 ∨ u = { k with tb := { k.tb with stored := none } }) →
      SameButRecords (settle u) { n with tb := { n.tb with stored := none } } ∧ u.rec_ = k.rec_ := by
    obtain ⟨r, l, hd, d, q, rfl, hh⟩ := hframe
    rintro u (rfl | rfl) <;> exact ⟨⟨rfl, hh⟩, rfl⟩
  unfold raiseBIf
  by_cases hs : n.rec_.store = .mram
  · rw [if_pos (decide_eq_true hs)]
    exact ⟨(hsame _ (.inl rfl)).1, e1, e2, e3, e4, fun _ => List.mem_append_right _ (List.mem_singleton_self _)⟩
  · rw [if_neg (by simpa using hs)]
    exact ⟨(hsame _ (.inr rfl)).1, e1, e2, e3, e4, fun h => absurd h hs⟩

/-! A block is retired -/

/-- A block less, and a segment where no spare is left, with the record. -/
def blockNoted (n : Node) (block : Nat) (spare : Bool) : Node :=
  let m := modRec n (fun r => { r with retired := sat 65535 (r.retired + 1), segs := if spare ∧ r.segs = 8192 then r.segs else r.segs - 1 })
  note m (recRecorder m 4 0 block)

theorem blockRetire_eq (n : Node) (block : Nat) (spare : Bool) : blockRetire n block spare =
    if (blockNoted n block spare).rec_.segs < 1024 then flashFail (blockNoted n block spare) 3 else blockNoted n block spare := rfl

theorem acts_blockRetire (t k : Nat) (a : Bool) (s : State) : Acts (.blockRetire t k a) s t (fun n u =>
      SameButRecords u n ∧ u.rec_.retired = min 65535 (s.node.rec_.retired + 1) ∧
      u.rec_.segs = (if a = true ∧ s.node.rec_.segs = 8192 then s.node.rec_.segs else s.node.rec_.segs - 1) ∧ u.rec_.flash = s.node.rec_.flash ∧
      (1024 ≤ u.rec_.segs ∨ s.node.rec_.store ≠ .flash → u.rec_.mram = s.node.rec_.mram ∧ u.rec_.store = s.node.rec_.store) ∧
      (u.rec_.segs < 1024 → s.node.rec_.store = .flash →
        u.rec_.store = (if s.node.rec_.mramOk then .mram else .none) ∧ (6, 4) ∈ u.dueB)) := by
  have hrec : s.node.rec_ = (atInstant s t).rec_ := rfl
  refine acts_of_eq (f := fun n => blockRetire n k a) rfl (blockRetire_eq (atInstant s t) k a) ?_
  rw [hrec]
  generalize atInstant s t = n
  have hnoted : RecFrame n (blockNoted n k a) ∧ keptRec (blockNoted n k a) = { keptRec n with
      retired := sat 65535 (n.rec_.retired + 1), segs := if a = true ∧ n.rec_.segs = 8192 then n.rec_.segs else n.rec_.segs - 1 } := by
    have hm : RecFrame n (modRec n (fun r => { r with retired := sat 65535 (r.retired + 1), segs := if a ∧ r.segs = 8192 then r.segs else r.segs - 1 })) ∧
        keptRec (modRec n (fun r => { r with retired := sat 65535 (r.retired + 1), segs := if a ∧ r.segs = 8192 then r.segs else r.segs - 1 })) =
        { keptRec n with retired := sat 65535 (n.rec_.retired + 1), segs := if a = true ∧ n.rec_.segs = 8192 then n.rec_.segs else n.rec_.segs - 1 } :=
      ⟨recFrame_rec n _, rfl⟩
    unfold blockNoted
    dsimp only
    generalize modRec n (fun r => { r with retired := sat 65535 (r.retired + 1), segs := if a ∧ r.segs = 8192 then r.segs else r.segs - 1 }) = m at hm ⊢
    exact ⟨recFrame_trans hm.1 (recFrame_note m _), ((noClear_note rfl m).kept).trans hm.2⟩
  generalize blockNoted n k a = m at hnoted ⊢
  obtain ⟨hframe, hkept⟩ := hnoted
  have e1 := congrArg Recorder.retired hkept
  have e2 := congrArg Recorder.segs hkept
  have e3 := congrArg Recorder.flash hkept
  have e4 := congrArg Recorder.store hkept
  have e5 := congrArg Recorder.mram hkept
  have e6 := congrArg Recorder.mramOk hkept
  have hstore : m.rec_.store = n.rec_.store := e4
  have hok : m.rec_.mramOk = n.rec_.mramOk := e6
  by_cases hlow : m.rec_.segs < 1024
  · rw [if_pos hlow]
    by_cases hs : m.rec_.store = .flash
    · have h := flashFail_leaves hs 3
      generalize flashFail m 3 = u at h ⊢
      have f1 := (congrArg Recorder.retired h.kept).trans e1
      have f2 : u.rec_.segs = m.rec_.segs := by
        have e := congrArg Recorder.segs h.kept
        exact e
      have hsegs : (settle u).rec_.segs = m.rec_.segs := f2
      rw [hsegs]
      refine ⟨sameButRecords_settle (recFrame_trans hframe h.frame), f1, e2, h.flash.trans e3, fun hor => ?_, fun _ _ => ⟨?_, h.told⟩⟩
      · rcases hor with hor | hor
        · omega
        · exact absurd (hstore.symm.trans hs) hor
      · rw [← hok]
        exact h.store
    · rw [flashFail_other hs]
      exact ⟨sameButRecords_settle hframe, e1, e2, e3, fun _ => ⟨e5, e4⟩, fun _ hno => absurd (hstore.trans hno) hs⟩
  · rw [if_neg hlow]
    exact ⟨sameButRecords_settle hframe, e1, e2, e3, fun _ => ⟨e5, e4⟩, fun hno => absurd hno hlow⟩

end Sys2Proof.Machine
end

section
/-! PROOF. Erasures, the recorder's start, REC_RATE, and the statement on the recorder's stores (15 R360, R435). -/

namespace Sys2Proof.Machine

/-! Erasures -/

theorem dropMiB_drop (fuel left : Nat) (l : List SRec) : ∃ j, dropMiB fuel left l = l.drop j := by
  induction fuel generalizing left l with
  | zero => exact ⟨0, rfl⟩
  | succ f ih =>
    cases l with
    | nil => exact ⟨0, rfl⟩
    | cons x r =>
      rw [dropMiB]
      split
      · obtain ⟨j, hj⟩ := ih (left - recLen x.body) r
        exact ⟨j + 1, hj⟩
      · exact ⟨0, rfl⟩

theorem skipErased_leaves (was n : Node) : RecFrame n (skipErased was n) ∧
    ∃ b, (skipErased was n).rec_ = { n.rec_ with readBuf := b } := by
  unfold skipErased
  split
  · exact ⟨recFrame_refl n, n.rec_.readBuf, rfl⟩
  · dsimp only
    split
    · exact ⟨recFrame_rec n _, _, rfl⟩
    · exact ⟨recFrame_refl n, n.rec_.readBuf, rfl⟩

/-- The oldest records gone, with the counts of the erasure. -/
def segmentGone (n : Node) (cycles : Nat) : Node :=
  modRec n (fun r => { r with
    flash := dropMiB r.flash.length 1048576 r.flash, erases := r.erases + 1,
    wear := max n.rec_.wear (sat 255 (wearPct { r with erases := r.erases + 1 } cycles)) })

theorem segmentErase_eq {n : Node} (h : eraseDue n = true) (cycles : Nat) : segmentErase n cycles =
    if n.rec_.wear < 80 ∧ 80 ≤ (skipErased n (segmentGone n cycles)).rec_.wear then
      raiseB (note (skipErased n (segmentGone n cycles)) (recRecorder (skipErased n (segmentGone n cycles)) 7 0
        (skipErased n (segmentGone n cycles)).rec_.wear)) 6 5
    else skipErased n (segmentGone n cycles) := by
  unfold segmentErase
  rw [if_neg (by rw [h]; decide)]
  rfl

theorem acts_segmentErase_not {t k : Nat} {s : State} (h : s.node.rec_.frozen.isSome = true ∨ s.node.rec_.store ≠ .flash ∨
      usedSegs s.node + 2 < s.node.rec_.segs) : Acts (.segmentErase t k) s t (fun n u => SameButSignals u n) := by
  refine acts_same (f := fun n => segmentErase n k) rfl (if_pos ?_)
  have hdue : eraseDue (atInstant s t) = (s.node.rec_.frozen.isNone && decide (s.node.rec_.store = .flash) &&
      decide (s.node.rec_.segs ≤ usedSegs s.node + 2)) := rfl
  rw [hdue]
  rcases h with h | h | h
  · cases hf : s.node.rec_.frozen <;> simp [hf] at h ⊢
  · simp [h]
  · have hle : ¬ s.node.rec_.segs ≤ usedSegs s.node + 2 := by omega
    simp [hle]

theorem acts_segmentErase {t k : Nat} {s : State} (hf : s.node.rec_.frozen = none) (hs : s.node.rec_.store = .flash)
    (hu : s.node.rec_.segs ≤ usedSegs s.node + 2) : Acts (.segmentErase t k) s t (fun n u => SameButRecords u n ∧
        (∃ j, u.rec_.flash = s.node.rec_.flash.drop j) ∧ u.rec_.mram = s.node.rec_.mram ∧ u.rec_.erases = s.node.rec_.erases + 1 ∧
        u.rec_.wear = max s.node.rec_.wear (min 255 (max k (divUp (s.node.rec_.erases + 1) s.node.rec_.segs) * 100 / 30000)) ∧
        (s.node.rec_.wear < 80 → 80 ≤ u.rec_.wear → (6, 5) ∈ u.dueB)) := by
  have hdue : eraseDue (atInstant s t) = true := by
    have e : eraseDue (atInstant s t) = (s.node.rec_.frozen.isNone && decide (s.node.rec_.store = .flash) &&
      decide (s.node.rec_.segs ≤ usedSegs s.node + 2)) := rfl
    rw [e]
    simp [hf, hs, hu]
  refine acts_of_eq (f := fun n => segmentErase n k) rfl (segmentErase_eq hdue k) ?_
  have hrec : s.node.rec_ = (atInstant s t).rec_ := rfl
  rw [hrec]
  generalize atInstant s t = n
  obtain ⟨j, hj⟩ := dropMiB_drop n.rec_.flash.length 1048576 n.rec_.flash
  have hgone : RecFrame n (segmentGone n k) ∧ (segmentGone n k).rec_ = { n.rec_ with
      flash := n.rec_.flash.drop j, erases := n.rec_.erases + 1,
      wear := max n.rec_.wear (min 255 (max k (divUp (n.rec_.erases + 1) n.rec_.segs) * 100 / 30000)) } := by
    refine ⟨recFrame_rec n _, ?_⟩
    rw [← hj]
    rfl
  generalize segmentGone n k = m at hgone ⊢
  obtain ⟨h1, h2⟩ := hgone
  obtain ⟨h3, b, h4⟩ := skipErased_leaves n m
  generalize skipErased n m = x at h3 h4 ⊢
  have hx : RecFrame n x := recFrame_trans h1 h3
  rw [h2] at h4
  have hlast : ∀ u : Node, RecFrame n u → keptRec u = keptRec x → ((n.rec_.wear < 80 → 80 ≤ x.rec_.wear → (6, 5) ∈ u.dueB)) →
      SameButRecords (settle u) n ∧ (∃ j, u.rec_.flash = n.rec_.flash.drop j) ∧ u.rec_.mram = n.rec_.mram ∧ u.rec_.erases = n.rec_.erases + 1 ∧
        u.rec_.wear = max n.rec_.wear (min 255 (max k (divUp (n.rec_.erases + 1) n.rec_.segs) * 100 / 30000)) ∧
        (n.rec_.wear < 80 → 80 ≤ u.rec_.wear → (6, 5) ∈ u.dueB) := by
    intro u hu hkept htold
    have e1 : u.rec_.flash = x.rec_.flash := by
      have e := congrArg Recorder.flash hkept
      exact e
    have e2 : u.rec_.mram = x.rec_.mram := by
      have e := congrArg Recorder.mram hkept
      exact e
    have e3 : u.rec_.erases = x.rec_.erases := by
      have e := congrArg Recorder.erases hkept
      exact e
    have e4 : u.rec_.wear = x.rec_.wear := by
      have e := congrArg Recorder.wear hkept
      exact e
    rw [e1, e2, e3, e4]
    exact ⟨sameButRecords_settle hu, ⟨j, by rw [h4]⟩, by rw [h4], by rw [h4], by rw [h4], htold⟩
  by_cases hw : n.rec_.wear < 80 ∧ 80 ≤ x.rec_.wear
  · rw [if_pos hw]
    exact hlast _ (recFrame_trans hx (recFrame_trans (recFrame_note x _) (recFrame_raiseB _ 6 5))) (noClear_note rfl x).kept
      (fun _ _ => List.mem_append_right _ (List.mem_singleton_self _))
  · rw [if_neg hw]
    exact hlast x hx rfl (fun h1 h2 => absurd ⟨h1, h2⟩ hw)

/-! The recorder's start -/

/-- What the opening of the stores leaves. -/
structure Opened (n u : Node) (flashOk : Bool) : Prop where
  regs : u.regs = n.regs
  store : u.rec_.store = if flashOk then .flash else if n.rec_.mramOk then .mram else .none
  held : (u.rec_.ready, u.rec_.mramOk, u.rec_.flash) = (n.rec_.ready, n.rec_.mramOk, n.rec_.flash)
  mram : n.rec_.mramOk = false → u.rec_.mram = n.rec_.mram
  waiting : n.rec_.ready = true → flashOk = true ∨ n.rec_.mramOk = true ∨ n.rec_.store ≠ .flash → u.rec_.waiting = n.rec_.waiting
  same : flashOk = true → n.rec_.store = .flash → u = n

theorem regs_of_rec {n u : Node} (h : RecFrame n u) : u.regs = n.regs := by
  obtain ⟨_, _, _, _, _, rfl, -⟩ := h
  rfl

/-- The flash in use again, with its record. -/
def flashBack (n : Node) : Node :=
  raiseB (stageRec (modRec n (fun r => { r with store := .flash })) 3 (recRecorder n 3 0 0)) 6 4

theorem opened_flashBack {n : Node} (hs : n.rec_.store ≠ .flash) : Opened n (flashBack n) true := by
  have hm : (modRec n (fun r => { r with store := .flash })).regs = n.regs ∧
      keptRec (modRec n (fun r => { r with store := .flash })) = { keptRec n with store := .flash } ∧
      (modRec n (fun r => { r with store := .flash })).rec_.waiting = n.rec_.waiting := ⟨rfl, rfl, rfl⟩
  unfold flashBack
  generalize modRec n (fun r => { r with store := .flash }) = m at hm ⊢
  obtain ⟨h1, h2, h3⟩ := hm
  have hkept := (keptRec_stageRec (r := recRecorder n 3 0 0) rfl m 3).trans h2
  have hwait := (waiting_stageRec m 3 (recRecorder n 3 0 0)).trans h3
  have hregs := (regs_of_rec (recFrame_stageRec m 3 (recRecorder n 3 0 0))).trans h1
  generalize stageRec m 3 (recRecorder n 3 0 0) = u at hkept hwait hregs ⊢
  have e1 := congrArg Recorder.store hkept
  have e2 := congrArg Recorder.ready hkept
  have e3 := congrArg Recorder.mramOk hkept
  have e4 := congrArg Recorder.flash hkept
  have e5 := congrArg Recorder.mram hkept
  exact ⟨hregs, e1, Prod.ext e2 (Prod.ext e3 e4), fun _ => e5, fun _ _ => hwait, fun _ h => absurd h hs⟩

theorem opened_openStores (n : Node) (flashOk : Bool) : Opened n (openStores n flashOk) flashOk := by
  unfold openStores
  dsimp only
  cases flashOk with
  | true =>
    rw [if_pos rfl]
    split
    next hs => exact ⟨rfl, hs, rfl, fun _ => rfl, fun _ _ => rfl, fun _ _ => rfl⟩
    next hs => exact opened_flashBack hs
  | false =>
    rw [if_neg (by decide)]
    split
    next hs =>
      have h := flashFail_leaves hs 4
      have e1 := congrArg Recorder.ready h.kept
      have e2 := congrArg Recorder.mramOk h.kept
      refine ⟨regs_of_rec h.frame, h.store, Prod.ext e1 (Prod.ext e2 h.flash), h.mram, fun hr hor => ?_, fun hno => absurd hno (by decide)⟩
      rcases hor with hor | hor | hor
      · exact absurd hor (by decide)
      · exact h.waiting hor hr
      · exact absurd hs hor
    next hs =>
      unfold raiseBIf
      refine pred_ite (P := fun u => Opened n u false) ?_ ?_ <;>
        exact ⟨rfl, rfl, rfl, fun _ => rfl, fun _ _ => rfl, fun hno => absurd hno (by decide)⟩

/-- The MRAM taken or lost, and the numbers of the start, before the records that waited. -/
def readyNumbers (n : Node) (mramOk : Bool) : Node :=
  let m := if mramOk then n else loseMram n
  modRec m (fun r => { r with
    ready := true, mramOk := mramOk, lastCrc := newestCrc m, committed := newestCommitted m,
    nextRseq := if mramOk && n.rec_.mramOk then m.rec_.nextRseq else newestCommitted m + 1048576,
    lastRseq := if mramOk && n.rec_.mramOk then (if mramOk && n.rec_.mramOk then m.rec_.nextRseq else newestCommitted m + 1048576) - 1
      else newestCommitted m })

/-- The records of the start staged, before the stores open. -/
def readyStaged (n : Node) (mramOk : Bool) : Node :=
  let m := stageWaiting (readyNumbers n mramOk)
  if n.rec_.mramOk && !mramOk then stageRec m 3 (recRecorder m 2 0 0) else m

theorem recorderReady_eq {n : Node} (h : n.rec_.ready = false) (flashOk mramOk : Bool) :
    recorderReady n flashOk mramOk = openStores (readyStaged n mramOk) flashOk := by
  unfold recorderReady
  rw [if_neg (by rw [h]; decide)]
  rfl

theorem readyNumbers_leaves (n : Node) (mramOk : Bool) : (readyNumbers n mramOk).regs = n.regs ∧
    ((readyNumbers n mramOk).rec_.ready, (readyNumbers n mramOk).rec_.mramOk, (readyNumbers n mramOk).rec_.flash,
      (readyNumbers n mramOk).rec_.store, (readyNumbers n mramOk).rec_.waiting, (readyNumbers n mramOk).rec_.staging) =
      (true, mramOk, n.rec_.flash, n.rec_.store, n.rec_.waiting, n.rec_.staging) ∧
    (mramOk = false → (readyNumbers n mramOk).rec_.mram = []) ∧
    (readyNumbers n mramOk).rec_.nextRseq = if mramOk && n.rec_.mramOk then n.rec_.nextRseq
      else newestCommitted { n with rec_ := { n.rec_ with mram := if mramOk then n.rec_.mram else [] } } + 1048576 := by
  cases mramOk with
  | true => exact ⟨rfl, rfl, fun h => absurd h (by decide), rfl⟩
  | false =>
    have hlose : (loseMram n).regs = n.regs ∧ (loseMram n).rec_ = { n.rec_ with mramOk := false, mram := [] } := by
      unfold loseMram restartTime
      split <;> exact ⟨rfl, rfl⟩
    unfold readyNumbers
    dsimp only
    rw [if_neg (by decide)]
    generalize loseMram n = m at hlose ⊢
    obtain ⟨h1, h2⟩ := hlose
    have hnew : newestCommitted m = newestCommitted { n with rec_ := { n.rec_ with mram := [] } } := by
      unfold newestCommitted
      rw [h2]
    simp only [modRec, h2, hnew]
    exact ⟨h1, trivial, fun _ => trivial, rfl⟩

/-- What the records that waited leave as they are staged, a CLEAR or not. -/
theorem stageWaiting_leaves (n : Node) : (stageWaiting n).regs = n.regs ∧
    ((stageWaiting n).rec_.ready, (stageWaiting n).rec_.mramOk, (stageWaiting n).rec_.store, (stageWaiting n).rec_.waiting) =
      (n.rec_.ready, n.rec_.mramOk, n.rec_.store, []) := by
  have hsettle : ∀ m, (settleClear m).regs = m.regs ∧ heldRec (settleClear m) = heldRec m ∧ (settleClear m).rec_.waiting = m.rec_.waiting := fun m => by
    unfold settleClear
    split <;> exact ⟨rfl, rfl, rfl⟩
  rw [stageWaiting_eq]
  have hregs := foldl_same (g := Node.regs) (f := stageKept) (fun m r => regs_of_rec (recFrame_stageRec m _ r)) n.rec_.waiting
    (modRec n (fun r => { r with waiting := [] }))
  have hheld := foldl_same (g := heldRec) (f := stageKept) (fun m r => heldRec_stageRec m _ r) n.rec_.waiting
    (modRec n (fun r => { r with waiting := [] }))
  have hwait := foldl_same (g := fun m : Node => m.rec_.waiting) (f := stageKept) (fun m r => waiting_stageRec m _ r) n.rec_.waiting
    (modRec n (fun r => { r with waiting := [] }))
  generalize n.rec_.waiting.foldl stageKept (modRec n (fun r => { r with waiting := [] })) = m at hregs hheld hwait ⊢
  obtain ⟨s1, s2, s3⟩ := hsettle m
  generalize settleClear m = u at s1 s2 s3 ⊢
  have hh := s2.trans hheld
  have e1 := congrArg Recorder.ready hh
  have e2 := congrArg Recorder.mramOk hh
  have e3 := congrArg Recorder.store hh
  exact ⟨s1.trans hregs, Prod.ext e1 (Prod.ext e2 (Prod.ext e3 (s3.trans hwait)))⟩

theorem mram_stageWaiting {n : Node} (h : ∀ w ∈ n.rec_.waiting, w.clearTo = none) : (stageWaiting n).rec_.mram = n.rec_.mram := by
  have hsettle : ∀ m, (settleClear m).rec_.mram = m.rec_.mram := fun m => by
    unfold settleClear
    split <;> rfl
  rw [stageWaiting_eq, hsettle]
  refine List.foldlRecOn (motive := fun m : Node => m.rec_.mram = n.rec_.mram) n.rec_.waiting stageKept rfl (fun m hm r hr => ?_)
  have e := congrArg Recorder.mram (noClear_stageRec (h r hr) m (if r.origin = oLanes then laneVote m else 3)).kept
  exact Eq.trans e hm

theorem staged_stageWaiting {n : Node} (h : n.rec_.waiting = []) : (stageWaiting n).rec_.staging = n.rec_.staging ∧
    (stageWaiting n).rec_.nextRseq = n.rec_.nextRseq := by
  have hsettle : ∀ m, (settleClear m).rec_.staging = m.rec_.staging ∧ (settleClear m).rec_.nextRseq = m.rec_.nextRseq := fun m => by
    unfold settleClear
    split <;> exact ⟨rfl, rfl⟩
  rw [stageWaiting_eq, h]
  exact hsettle _

theorem readyStaged_leaves (n : Node) (b : Bool) : (readyStaged n b).regs = n.regs ∧
    ((readyStaged n b).rec_.ready, (readyStaged n b).rec_.mramOk, (readyStaged n b).rec_.store, (readyStaged n b).rec_.waiting) =
      (true, b, n.rec_.store, []) ∧
    ((∀ w ∈ n.rec_.waiting, w.clearTo = none) → (readyStaged n b).rec_.flash = n.rec_.flash ∧ (b = false → (readyStaged n b).rec_.mram = [])) ∧
    (n.rec_.waiting = [] → b = true ∨ n.rec_.mramOk = false → (readyStaged n b).rec_.staging = n.rec_.staging ∧
      (readyStaged n b).rec_.nextRseq = if b && n.rec_.mramOk then n.rec_.nextRseq
        else newestCommitted { n with rec_ := { n.rec_ with mram := if b then n.rec_.mram else [] } } + 1048576) := by
  obtain ⟨r1, r2, r3, r4⟩ := readyNumbers_leaves n b
  unfold readyStaged
  dsimp only
  generalize readyNumbers n b = m at r1 r2 r3 r4 ⊢
  simp only [Prod.mk.injEq] at r2
  obtain ⟨q1, q2, q3, q4, q5, q6⟩ := r2
  obtain ⟨w1, w2⟩ := stageWaiting_leaves m
  have hflash := fun h => flash_stageWaiting (n := m) h
  have hmram := fun h => mram_stageWaiting (n := m) h
  have hstaged := fun h => staged_stageWaiting (n := m) h
  rw [q5] at hflash hmram hstaged
  rw [q1, q2, q4] at w2
  generalize stageWaiting m = k at w1 w2 hflash hmram hstaged ⊢
  simp only [Prod.mk.injEq] at w2
  obtain ⟨v1, v2, v3, v4⟩ := w2
  by_cases hlost : (n.rec_.mramOk && !b) = true
  · rw [if_pos hlost]
    have hkept := keptRec_stageRec (r := recRecorder k 2 0 0) rfl k 3
    have hwait := waiting_stageRec k 3 (recRecorder k 2 0 0)
    have hregs := regs_of_rec (recFrame_stageRec k 3 (recRecorder k 2 0 0))
    generalize stageRec k 3 (recRecorder k 2 0 0) = u at hkept hwait hregs ⊢
    have e1 := congrArg Recorder.ready hkept
    have e2 := congrArg Recorder.mramOk hkept
    have e3 := congrArg Recorder.store hkept
    have e4 : u.rec_.flash = k.rec_.flash := by
      have e := congrArg Recorder.flash hkept
      exact e
    have e5 : u.rec_.mram = k.rec_.mram := by
      have e := congrArg Recorder.mram hkept
      exact e
    refine ⟨hregs.trans (w1.trans r1), Prod.ext (Eq.trans e1 v1) (Prod.ext (Eq.trans e2 v2) (Prod.ext (Eq.trans e3 v3) (hwait.trans v4))),
      fun h => ⟨e4.trans ((hflash h).trans q3), fun hb => e5.trans ((hmram h).trans (r3 hb))⟩, fun _ hor => ?_⟩
    rw [Bool.and_eq_true, Bool.not_eq_true'] at hlost
    rcases hor with hor | hor
    · exact absurd (hlost.2.symm.trans hor) (by decide)
    · exact absurd (hlost.1.symm.trans hor) (by decide)
  · rw [if_neg hlost]
    exact ⟨w1.trans r1, Prod.ext v1 (Prod.ext v2 (Prod.ext v3 v4)),
      fun h => ⟨(hflash h).trans q3, fun hb => (hmram h).trans (r3 hb)⟩,
      fun h _ => ⟨(hstaged h).1.trans q6, (hstaged h).2.trans r4⟩⟩

theorem acts_recorderReady {t : Nat} {a b : Bool} {s : State} (hr : s.node.rec_.ready = false) (hw : ∀ w ∈ s.node.rec_.waiting, w.clearTo = none) :
    Acts (.recorderReady t a b) s t (fun n u =>
      u.rec_.ready = true ∧ u.rec_.store = (if a then .flash else if b then .mram else .none) ∧ u.rec_.mramOk = b ∧
      u.rec_.flash = s.node.rec_.flash ∧ u.regs = n.regs ∧ (b = false → u.rec_.mram = []) ∧
      (a = true ∨ b = true ∨ s.node.rec_.store ≠ .flash → u.rec_.waiting = []) ∧
      (s.node.rec_.waiting = [] → a = true → s.node.rec_.store = .flash → b = true ∨ s.node.rec_.mramOk = false →
        u.rec_.staging = s.node.rec_.staging ∧
        u.rec_.nextRseq = (if b && s.node.rec_.mramOk then s.node.rec_.nextRseq
          else newestCommitted { n with rec_ := { s.node.rec_ with mram := if b then s.node.rec_.mram else [] } } + 1048576))) := by
  refine acts_of_eq (f := fun n => recorderReady n a b) rfl (recorderReady_eq (n := atInstant s t) hr a b) ?_
  have hrec : s.node.rec_ = (atInstant s t).rec_ := rfl
  rw [hrec] at hw ⊢
  generalize atInstant s t = n at hw ⊢
  obtain ⟨r1, r2, r3, r4⟩ := readyStaged_leaves n b
  generalize readyStaged n b = m at r1 r2 r3 r4 ⊢
  simp only [Prod.mk.injEq] at r2
  obtain ⟨v1, v2, v3, v4⟩ := r2
  have h := opened_openStores m a
  generalize openStores m a = u at h ⊢
  have hheld := h.held
  simp only [Prod.mk.injEq] at hheld
  obtain ⟨h1, h2, h3⟩ := hheld
  have hstore := h.store
  rw [v2] at hstore
  refine ⟨h1.trans v1, hstore, h2.trans v2, h3.trans (r3 hw).1, h.regs.trans r1, fun hb => (h.mram (v2.trans hb)).trans ((r3 hw).2 hb),
    fun hor => (h.waiting v1 (by rw [v2, v3]; exact hor)).trans v4, fun hnil ha hs hor => ?_⟩
  have hsame := h.same ha (v3.trans hs)
  rw [hsame]
  exact r4 hnil hor

/-! REC_RATE -/

theorem exec_recRateRead {path : Nat} (h : path ≠ 0) (t : Nat) (s : State) :
    exec (.recRateRead t path) s = exec (.mgmtRead t path { off := 0x6064 }) s := by
  have hrun : rateRead { s with node := begin_ s.node t } path = mgmtRead { s with node := begin_ s.node t } path { off := 0x6064 } :=
    if_neg h
  rw [exec_mgmtRead]
  have hexec : exec (.recRateRead t path) s = .next (onState s t (fun s => { s with node := rateRead s path })) := rfl
  rw [hexec]
  unfold onState
  dsimp only
  rw [hrun]

theorem acts_recRateRead (t : Nat) (s : State) : Acts (.recRateRead t 0) s t (fun n u =>
      SameButSignals u { n with rec_ := { s.node.rec_ with ratePeak := rateNow n } } ∧
      .read (pack [(min 65535 ((viewB s 6).rec_.ratePeak / 10), 16, 16), (min 65535 (rateNow (viewB s 6) / 10), 0, 16)]) ∈ u.outs) := by
  refine acts_onState (f := fun s => rateRead s 0) rfl ⟨rfl, ?_⟩
  refine mem_outs_settle (List.mem_append_right _ (List.mem_singleton.mpr ?_))
  rfl

/-- Settles O52: the commits by the store in use; each failure and each change of the stores by what its records leave. -/
theorem storesOfTheRecorder : Obligations.StoresOfTheRecorder := by
  intro t k a b s
  exact ⟨fun h => acts_same (f := recordCommit) rfl (recordCommit_stands (n := atInstant s t) h), acts_recordCommit_flash, acts_recordCommit_mram,
    fun _ => acts_overrunRecord, fun h => acts_same (f := overrunRecord) rfl (overrunRecord_stands (n := atInstant s t) h), acts_flashFail_not,
    acts_flashFail, fun h => acts_same (f := mramFail) rfl (if_pos (by rw [show (atInstant s t).rec_.mramOk = false from h]; rfl)), acts_mramFail,
    acts_blockRetire t k a s, acts_segmentErase_not, acts_segmentErase,
    fun h => acts_same (f := fun n => recorderReady n a b) rfl (if_pos h), acts_recorderReady, fun _ h => exec_recRateRead h t s, acts_recRateRead t s⟩

end Sys2Proof.Machine
end

section
/-! PROOF. Commands of the CFG page as a path gives them, and the command in progress while sessions end (16 R372 to R378). -/

namespace Sys2Proof.Machine

/-! From the request to the effect -/

/-- A request that a path carries, or that opens a session, is done, with its response apart. -/
theorem served_reaches {n : Node} {p : Nat} {opens : Bool} (h : carries n p ∨ (opens = true ∧ mgmtUp n p = true)) (f : Node → Node) :
    ∃ o, served n p opens f = { f n with outs := o } := by
  unfold served
  by_cases hp : p = hostPath
  · rw [if_pos hp]
    exact ⟨_, rfl⟩
  have hup : mgmtUp n p = true := by
    rcases h with (h | h) | h
    · exact absurd h hp
    · exact h.1
    · exact h.2
  have hst : mgmtStatus n p 0 opens ≠ 2 := by
    rcases h with (h | h) | h
    · exact absurd h hp
    · rw [mgmtStatus_of_session h.2]
      decide
    · simp [mgmtStatus, h.1]
  rw [if_neg hp, if_neg (by simp [hup])]
  dsimp only
  rw [if_neg hst]
  exact ⟨_, rfl⟩

/-- The passwords of a refused command's path clear; nothing else can change at the end of a write. -/
theorem clearRefused_eq (was : Option Command) (path : Nat) (n : Node) :
    ∃ pw, clearRefused was path n = { n with config := { n.config with pw := pw } } := by
  unfold clearRefused
  split <;> exact ⟨_, rfl⟩

/-- A number that is the last one's is a duplicate. -/
theorem hseq_ne_of_accept {n : Node} {path p : Nat} {k : CmdCheck} (h : judge n path p k = .accept) :
    (seqOf n path p).hseq ≠ (seqOf n path p).echo := by
  intro heq
  simp [judge, heq] at h

theorem cfgCmdWriteAs_accept {n : Node} {p : Nat} {v : Word} (h : judge n p 5 (cfgCmdCheck n p v) = .accept) (agree : Bool) :
    cfgCmdWriteAs agree n p v = clearRefused (cmdOf n 5) p (resolveCmd (cfgCmdEff agree p v (acceptCmd n p 5 (at_ 5 0x5C) v)).1 5
      (cfgCmdEff agree p v (acceptCmd n p 5 (at_ 5 0x5C) v)).2) := by
  rw [cfgCmdWriteAs, if_neg (hseq_ne_of_accept h), runCommand_accept h]

/-- A command's outcome r on the CFG page, but for the passwords of its path and for signals. -/
def besidesReply (r : Node) (ve : Tbl Vector_) (o : List Out) (pw : Tbl Word) : Node :=
  { r with vectors := ve, outs := o, config := { r.config with pw := pw } }

/-- An accepted write of the CFG page has the effect of its command. -/
theorem acts_cfgWrite {c : Instr} {s : State} {t p : Nat} {opens : Bool} {f : Node → Node} {r : Node} {was : Option Command}
    {P : Node → Node → Prop} (hc : exec c s = .next (onNode s t (fun n => served n p opens f)))
    (hreach : carries (atInstant s t) p ∨ (opens = true ∧ mgmtUp (atInstant s t) p = true))
    (hf : f (atInstant s t) = clearRefused was p r) (hP : ∀ ve o pw, P (atInstant s t) (besidesReply r ve o pw)) : Acts c s t P := by
  refine acts_onNode hc ?_
  obtain ⟨o, ho⟩ := served_reaches hreach f
  obtain ⟨pw, hpw⟩ := clearRefused_eq was p r
  have hsettled := sameButSignals_settle (served (atInstant s t) p opens f)
  rw [SameButSignals] at hsettled
  rw [hsettled, ho, hf, hpw]
  exact hP _ _ _

/-- A command of CFG_CMD, accepted. -/
theorem acts_cfgOp {c : Instr} {s : State} {t p op : Nat} {r : Node × Option Bool} {P : Node → Node → Prop}
    (hc : exec c s = .next (cfgOp t p op s))
    (hok : reaches (atInstant s t) p op ∧
      judge (atInstant s t) p 5 (cfgCmdCheck (atInstant s t) p (BitVec.ofNat 32 op)) = .accept)
    (hr : cfgCmdEff true p (BitVec.ofNat 32 op) (acceptCmd (atInstant s t) p 5 (at_ 5 0x5C) (BitVec.ofNat 32 op)) = r)
    (hP : ∀ ve o pw, P (atInstant s t) (besidesReply (resolveCmd r.1 5 r.2) ve o pw)) : Acts c s t P := by
  subst hr
  obtain ⟨hreach, hacc⟩ := hok
  refine acts_cfgWrite (f := fun n => cfgCmdWriteAs true n p (BitVec.ofNat 32 op)) hc ?_ (cfgCmdWriteAs_accept hacc true) hP
  exact hreach.imp_right fun h => ⟨by simp [h.1], h.2⟩

/-! What acceptance leaves -/

/-- Acceptance writes the path's numbers, the page's command, and the instant of the path's session. -/
def acceptedWith (n : Node) (sq : Tbl PathSeq) (cs : Tbl (Option Command)) (ss : Tbl (Option Session)) : Node :=
  { n with seqs := sq, cmds := cs, config := { n.config with sessions := ss } }

theorem acceptCmd_eq (n : Node) (p off : Nat) (v : Word) : ∃ sq cs ss, acceptCmd n p 5 off v = acceptedWith n sq cs ss ∧
    (tget none cs 5).map (fun x => (x.path, x.off, x.value, x.result)) = some (p, off, v, none) ∧
    (∀ q, tget none ss q = (sessionOf n q).map (fun x => if q = p then { x with last := n.now } else x)) ∧
    (sessionOf n p = none → ss = n.config.sessions) := by
  have hcmd := cmdOf_acceptCmd n p 5 off v
  have hsess : ∀ q, sessionOf (acceptCmd n p 5 off v) q = (sessionOf n q).map (fun x => if q = p then { x with last := n.now } else x) :=
    touchSession_path _ p
  have hnone : sessionOf n p = none → (acceptCmd n p 5 off v).config.sessions = n.config.sessions := by
    intro h
    have hm : ∀ m : Node, sessionOf m p = none → touchSession m p = m := by
      intro m hm
      simp only [touchSession, hm]
    rw [acceptCmd, hm]
    · rfl
    · exact h
  have hrest : acceptCmd n p 5 off v =
      acceptedWith n (acceptCmd n p 5 off v).seqs (acceptCmd n p 5 off v).cmds (acceptCmd n p 5 off v).config.sessions := by
    rw [acceptCmd, touchSession_rest]
    rfl
  refine ⟨_, _, _, hrest, ?_, hsess, hnone⟩
  exact (congrArg (Option.map _) hcmd).trans rfl

/-! The command in progress -/

/-- The command in progress on the CFG page stands, its outcome apart. -/
def Stands (n u : Node) : Prop :=
  (cmdOf u 5).map (fun x => { x with result := none }) = (cmdOf n 5).map (fun x => { x with result := none })

theorem Stands.trans {a b c : Node} (h : Stands a b) (k : Stands b c) : Stands a c := Eq.trans k h

theorem stands_of_cmds {n u : Node} (h : u.cmds = n.cmds) : Stands n u := by
  rw [Stands, cmdOf, cmdOf, h]

theorem stands_resolveCmd (n : Node) (p : Nat) (r : Option Bool) : Stands n (resolveCmd n p r) := by
  by_cases hp : p = 5
  · subst hp
    rw [Stands, cmdOf_resolveCmd, Option.map_map]
    rfl
  · exact congrArg (Option.map _) (tget_tset_ne none n.cmds _ (Ne.symm hp))

theorem stands_note (n : Node) (r : Rec) : Stands n (note n r) := by
  obtain ⟨_, _, _, _, _, heq, -⟩ := recFrame_note n r
  exact stands_of_cmds (by rw [heq])

theorem stands_logDiscards (n : Node) (who : LogBy) : Stands n (logDiscards n who) := by
  refine foldl_rel (R := Stands) (fun _ => rfl) Stands.trans (fun n e => ?_) _ n
  split
  · exact pred_ite (P := fun u => Stands n u) rfl (Stands.trans (stands_of_cmds rfl) (stands_note _ _))
  · rfl

theorem stands_dropValues (n : Node) (who : LogBy) : Stands n (dropValues n who) := by
  have hstages : Stands (logDiscards n who) (dropStages (logDiscards n who)) :=
    Stands.trans (b := { logDiscards n who with acts := (logDiscards n who).acts.filter (fun w => !isStage w) }) (stands_of_cmds rfl)
      (foldl_rel (R := Stands) (f := fun n (w : Waiting) => resolveCmd n w.page (some false)) (fun _ => rfl) Stands.trans
        (fun n w => stands_resolveCmd n w.page _) _ _)
  exact ((stands_logDiscards n who).trans hstages).trans (stands_of_cmds rfl)

theorem stands_failCommit (n : Node) : Stands n (failCommit n) := by
  unfold failCommit
  split
  · exact pred_ite (P := fun u => Stands n u) (Stands.trans (stands_of_cmds rfl) (stands_resolveCmd _ 5 _)) rfl
  · rfl

theorem stands_discardImage (n : Node) (account level : Nat) (who : LogBy) : Stands n (discardImage n account level who) := by
  unfold discardImage
  split
  · refine pred_ite (P := fun u => Stands n u) rfl ?_
    have hfail := (stands_dropValues n who).trans (stands_failCommit _)
    exact (hfail.trans (stands_of_cmds rfl)).trans (stands_note _ _)
  · exact stands_dropValues n who

theorem stands_endSession (n : Node) (path event : Nat) (close : Bool) (who : LogBy) : Stands n (endSession n path event close who) := by
  cases hx : sessionOf n path with
  | none =>
    rw [endSession_of_none hx]
    rfl
  | some x =>
    obtain ⟨m, r, hm, -, heq⟩ := endSession_eq hx event close who
    have hdiscard : Stands n m := by
      rcases hm with rfl | rfl
      · rfl
      · exact stands_discardImage _ _ _ _
    rw [heq]
    refine (hdiscard.trans (stands_note m r)).trans (stands_of_cmds ?_)
    cases close <;> rfl

/-! The outcome that a command leaves -/

/-- A command that stands ends with its outcome. -/
theorem ends_of_stands {n u : Node} (h : Stands n u) (hn : (cmdOf n 5).isSome = true) (r : Option Bool) :
    (cmdOf (resolveCmd u 5 r) 5).map (·.result) = some r := by
  have hu : (cmdOf u 5).isSome = true := by
    have hs := congrArg Option.isSome h
    rwa [Option.isSome_map, Option.isSome_map, hn] at hs
  obtain ⟨x, hx⟩ := Option.isSome_iff_exists.mp hu
  rw [cmdOf_resolveCmd, hx]
  rfl

/-- The earliest end that a command was given. -/
theorem notBefore_resolveCmd (n : Node) (r : Option Bool) :
    (cmdOf (resolveCmd n 5 r) 5).map (·.notBefore) = (cmdOf n 5).map (·.notBefore) := by
  rw [cmdOf_resolveCmd, Option.map_map]
  rfl

end Sys2Proof.Machine
end

section
/-! PROOF. Sessions open and end, and failed passwords count (16 R369, R372 to R375). -/

namespace Sys2Proof.Machine

/-- What acceptance on the CFG page leaves of a node n: its numbers, its command and its sessions apart, n itself. -/
structure Taken (n : Node) (p off : Nat) (v : Word) (cs : Tbl (Option Command)) (ss : Tbl (Option Session)) : Prop where
  cmd : (tget none cs 5).map (fun x => (x.path, x.off, x.value, x.result)) = some (p, off, v, none)
  sessions : ∀ q, tget none ss q = (sessionOf n q).map (fun x => if q = p then { x with last := n.now } else x)
  closed : sessionOf n p = none → ss = n.config.sessions

theorem Taken.busy {n : Node} {p off : Nat} {v : Word} {cs : Tbl (Option Command)} {ss : Tbl (Option Session)}
    (h : Taken n p off v cs ss) : (tget none cs 5).isSome = true := by
  have hcmd := congrArg Option.isSome h.cmd
  rwa [Option.isSome_map] at hcmd

theorem Taken.others {n : Node} {p off : Nat} {v : Word} {cs : Tbl (Option Command)} {ss : Tbl (Option Session)}
    (h : Taken n p off v cs ss) {q : Nat} (hq : q ≠ p) : tget none ss q = sessionOf n q := by
  rw [h.sessions q]
  simp only [if_neg hq, Option.map_id']

theorem Taken.own_isSome {n : Node} {p off : Nat} {v : Word} {cs : Tbl (Option Command)} {ss : Tbl (Option Session)}
    (h : Taken n p off v cs ss) : (tget none ss p).isSome = (sessionOf n p).isSome := by
  rw [h.sessions p, Option.isSome_map]

/-- An accepted command of CFG_CMD, with what acceptance leaves put in. -/
theorem acts_taken {c : Instr} {s : State} {t p op : Nat} {P : Node → Node → Prop} (hc : exec c s = .next (cfgOp t p op s))
    (hok : reaches (atInstant s t) p op ∧
      judge (atInstant s t) p 5 (cfgCmdCheck (atInstant s t) p (BitVec.ofNat 32 op)) = .accept)
    (eff : Node → Node × Option Bool) (heff : ∀ n, cfgCmdEff true p (BitVec.ofNat 32 op) n = eff n)
    (hP : ∀ sq cs ss, Taken (atInstant s t) p (at_ 5 0x5C) (BitVec.ofNat 32 op) cs ss →
      ∀ r, eff (acceptedWith (atInstant s t) sq cs ss) = r →
        ∀ ve o pw, P (atInstant s t) (besidesReply (resolveCmd r.1 5 r.2) ve o pw)) : Acts c s t P := by
  obtain ⟨sq, cs, ss, hm, hcmd, hsess, hnone⟩ := acceptCmd_eq (atInstant s t) p (at_ 5 0x5C) (BitVec.ofNat 32 op)
  refine acts_cfgOp hc hok ?_ (hP sq cs ss ⟨hcmd, hsess, hnone⟩ _ rfl)
  rw [heff, hm]

/-- FAILED with a reason: the command ends so, and the reason is the path's. -/
theorem failWith_leaves {m : Node} (hm : (cmdOf m 5).isSome = true) (p reason : Nat) :
    (cmdOf (resolveCmd (failWith m p reason).1 5 (failWith m p reason).2) 5).map (·.result) = some (some false) ∧
    tget 0 (resolveCmd (failWith m p reason).1 5 (failWith m p reason).2).config.result p = reason :=
  ⟨ends_of_stands (n := m) rfl hm (some false), tget_tset_self 0 m.config.result p reason⟩

/-- FAILED no earlier than an instant: the command keeps that instant. -/
theorem delayed_leaves {m : Node} (hm : (cmdOf m 5).isSome = true) (p reason at_ : Nat) (r : Node)
    (hr : r = resolveCmd (failWith (delayCmd m 5 at_) p reason).1 5 (failWith (delayCmd m 5 at_) p reason).2) :
    (cmdOf r 5).map (·.result) = some (some false) ∧ (cmdOf r 5).map (·.notBefore) = some at_ ∧
    tget 0 r.config.result p = reason := by
  subst hr
  obtain ⟨x, hx⟩ := Option.isSome_iff_exists.mp hm
  have hcmd : cmdOf (delayCmd m 5 at_) 5 = some { x with notBefore := at_ } := by
    rw [delayCmd, cmdOf_setCmd_self, hx]
    rfl
  obtain ⟨hends, hreason⟩ := failWith_leaves (m := delayCmd m 5 at_) (by rw [hcmd]; rfl) p reason
  refine ⟨hends, ?_, hreason⟩
  rw [notBefore_resolveCmd]
  exact congrArg (Option.map _) hcmd

/-! Failed attempts and locks -/

theorem accountOf_setLock_self (n : Node) (a k : Nat) (e : Option Nat) :
    accountOf (setLock n a k e) a = { accountOf n a with fails := k, lockUntil := e } := by
  exact tget_tmod_self {} n.config.accounts a (fun x : Account => { x with fails := k, lockUntil := e })

theorem accountOf_setLock_ne (n : Node) {a j : Nat} (k : Nat) (e : Option Nat) (h : j ≠ a) :
    accountOf (setLock n a k e) j = accountOf n j := by
  exact tget_tmod_ne {} n.config.accounts (fun x : Account => { x with fails := k, lockUntil := e }) h

theorem accountOf_of_accounts {u n : Node} (h : u.config.accounts = n.config.accounts) (k : Nat) : accountOf u k = accountOf n k := by
  rw [accountOf, accountOf, h]

/-- The attempts of an account with the one that failed just now. -/
def attempts (n : Node) (a : Nat) : Nat := (if lockOver n a then 0 else (accountOf n a).fails) + 1

/-- What a record leaves of the configuration and of the command in progress. -/
theorem note_beside (n : Node) (r : Rec) : (note n r).config.accounts = n.config.accounts ∧
    (note n r).config.sessions = n.config.sessions ∧ (note n r).cmds = n.cmds ∧ (note n r).now = n.now ∧
    (note n r).config.pend = n.config.pend := by
  obtain ⟨_, _, _, _, _, heq, -⟩ := recFrame_note n r
  rw [heq]
  exact ⟨rfl, rfl, rfl, rfl, rfl⟩

/-- A failed attempt counts; the fifth locks the account and tells it. -/
theorem failedAttempt_leaves (n : Node) (a : Nat) :
    (failedAttempt n a).cmds = n.cmds ∧ (failedAttempt n a).config.sessions = n.config.sessions ∧ (failedAttempt n a).now = n.now ∧
    (∀ k, k ≠ a → accountOf (failedAttempt n a) k = accountOf n k) ∧
    (attempts n a < 5 → accountOf (failedAttempt n a) a = { accountOf n a with fails := attempts n a, lockUntil := none }) ∧
    (5 ≤ attempts n a →
      accountOf (failedAttempt n a) a = { accountOf n a with fails := 5, lockUntil := some (n.now + 900000000000) } ∧
      bit (headerOf (failedAttempt n a) 5).irqStat 3 = true) := by
  obtain ⟨hacc, hsess, hcmds, hnow, -⟩ := note_beside n (recSession n 4 (accountOf n a).level a 0 0 0)
  have heq : failedAttempt n a = if attempts n a < 5 then
        setLock (note n (recSession n 4 (accountOf n a).level a 0 0 0)) a (attempts n a) none
      else
        let m := setLock (note n (recSession n 4 (accountOf n a).level a 0 0 0)) a 5
          (some ((note n (recSession n 4 (accountOf n a).level a 0 0 0)).now + 900000000000))
        raise (note m (recSession m 5 (accountOf n a).level a 0 0 0)) 5 3 := rfl
  rw [heq]
  generalize note n (recSession n 4 (accountOf n a).level a 0 0 0) = m at hacc hsess hcmds hnow ⊢
  have haccount : ∀ k, accountOf m k = accountOf n k := accountOf_of_accounts hacc
  by_cases hk : attempts n a < 5
  · rw [if_pos hk]
    refine ⟨hcmds, hsess, hnow, fun k hne => ?_, fun _ => ?_, fun h5 => absurd hk (Nat.not_lt.mpr h5)⟩
    · rw [accountOf_setLock_ne m _ _ hne, haccount]
    · rw [accountOf_setLock_self, haccount]
  · rw [if_neg hk]
    dsimp only
    obtain ⟨kacc, ksess, kcmds, know, -⟩ := note_beside (setLock m a 5 (some (m.now + 900000000000)))
      (recSession (setLock m a 5 (some (m.now + 900000000000))) 5 (accountOf n a).level a 0 0 0)
    generalize note (setLock m a 5 (some (m.now + 900000000000)))
      (recSession (setLock m a 5 (some (m.now + 900000000000))) 5 (accountOf n a).level a 0 0 0) = u at kacc ksess kcmds know ⊢
    have kaccount : ∀ k, accountOf (raise u 5 3) k = accountOf (setLock m a 5 (some (m.now + 900000000000))) k :=
      accountOf_of_accounts (u := raise u 5 3) kacc
    refine ⟨kcmds.trans hcmds, ksess.trans hsess, know.trans hnow, fun k hne => ?_, fun h => absurd h hk, fun _ => ⟨?_, bit_raise (by decide)⟩⟩
    · rw [kaccount, accountOf_setLock_ne m _ _ hne, haccount]
    · rw [kaccount, accountOf_setLock_self, haccount, hnow]

/-! OPEN -/

/-- The tests of OPEN in their order, on account a with the values x: locked or not, the password right or not, another editing
session open or not. -/
def openTests (p a lv : Nat) (x : Account) (locked right edit : Bool) (n : Node) : Node × Option Bool :=
  let late := fun (m : Node) (reason : Nat) => failWith (delayCmd m 5 (m.now + 1000000000)) p reason
  if x.en && locked then late n 2
  else if !x.en then late n 1
  else if !right then late (failedAttempt n a) 1
  else if x.level < lv then late n 5
  else if 2 ≤ lv ∧ edit then late n 3
  else
    let n := if x.fails = 0 then n else setLock n a 0 none
    let n := setSession n p (some { account := a, level := lv, last := n.now })
    (note n (recSession n 1 lv a n.config.check 0 0), some true)

theorem cfgOpenEff_of_none {n : Node} {p : Nat} (h : sessionOf n p = none) : cfgOpenEff p n =
    openTests p (fld (pAcct n) 3 0) (fld (pAcct n) 10 8) (accountOf n (fld (pAcct n) 3 0)) (isLocked n (fld (pAcct n) 3 0))
      (pwMatches (accountOf n (fld (pAcct n) 3 0)) (pwBytes n p 0)) (editPath n).isSome n := by
  unfold cfgOpenEff
  rw [endSession_of_none h]
  rfl

/-- OPEN, accepted on a path without a session: its tests see what they saw before. -/
theorem cfgOpenEff_accepted {n : Node} {p : Nat} (h : sessionOf n p = none) (sq : Tbl PathSeq) (cs : Tbl (Option Command)) :
    cfgOpenEff p (acceptedWith n sq cs n.config.sessions) =
      openTests p (fld (pAcct n) 3 0) (fld (pAcct n) 10 8) (accountOf n (fld (pAcct n) 3 0)) (isLocked n (fld (pAcct n) 3 0))
        (pwMatches (accountOf n (fld (pAcct n) 3 0)) (pwBytes n p 0)) (editPath n).isSome (acceptedWith n sq cs n.config.sessions) :=
  cfgOpenEff_of_none (n := acceptedWith n sq cs n.config.sessions) h

/-- The session that an OPEN opens. -/
theorem opened_leaves {n : Node} {p a lv : Nat} (hcmd : (cmdOf n 5).isSome = true) (m u : Node)
    (hm : m = setSession (if (accountOf n a).fails = 0 then n else setLock n a 0 none) p
      (some { account := a, level := lv, last := (if (accountOf n a).fails = 0 then n else setLock n a 0 none).now }))
    (hu : u = resolveCmd (note m (recSession m 1 lv a m.config.check 0 0)) 5 (some true)) :
    (cmdOf u 5).map (·.result) = some (some true) ∧ (∀ q, q ≠ p → sessionOf u q = sessionOf n q) ∧
    sessionOf u p = some { account := a, level := lv, last := n.now } ∧ (accountOf u a).fails = 0 ∧
    (∀ k, k ≠ a → accountOf u k = accountOf n k) ∧ u.regs = n.regs ∧ u.staged = n.staged := by
  generalize hl : (if (accountOf n a).fails = 0 then n else setLock n a 0 none) = l at hm
  have hlock : l.cmds = n.cmds ∧ l.config.sessions = n.config.sessions ∧ l.now = n.now ∧ l.regs = n.regs ∧ l.staged = n.staged ∧
      (accountOf l a).fails = 0 ∧ ∀ k, k ≠ a → accountOf l k = accountOf n k := by
    subst hl
    split
    · next h => exact ⟨rfl, rfl, rfl, rfl, rfl, h, fun _ _ => rfl⟩
    · exact ⟨rfl, rfl, rfl, rfl, rfl, by rw [accountOf_setLock_self], fun k hk => accountOf_setLock_ne n _ _ hk⟩
  obtain ⟨lcmds, lsess, lnow, lregs, lstaged, lself, lother⟩ := hlock
  obtain ⟨kacc, ksess, kcmds, -, -⟩ := note_beside m (recSession m 1 lv a m.config.check 0 0)
  have kregs : (note m (recSession m 1 lv a m.config.check 0 0)).regs = m.regs := note_regs m _
  have kstaged : (note m (recSession m 1 lv a m.config.check 0 0)).staged = m.staged := note_staged m _
  generalize note m (recSession m 1 lv a m.config.check 0 0) = k at *
  have hmcmds : m.cmds = n.cmds := by rw [hm]; exact lcmds
  have hmacc : m.config.accounts = l.config.accounts := by rw [hm]; rfl
  have hmsess : ∀ q, tget none m.config.sessions q = if q = p then some { account := a, level := lv, last := l.now } else sessionOf n q := by
    intro q
    rw [hm]
    have hset := tget_tset none l.config.sessions p q (some { account := a, level := lv, last := l.now })
    exact hset.trans (by rw [lsess]; rfl)
  have hsess : ∀ q, sessionOf u q = if q = p then some { account := a, level := lv, last := l.now } else sessionOf n q := by
    intro q
    rw [hu, ← hmsess, ← ksess]
    rfl
  have hacc : ∀ j, accountOf u j = accountOf l j := by
    intro j
    rw [hu, accountOf, accountOf, ← hmacc, ← kacc]
    rfl
  refine ⟨?_, fun q hq => by rw [hsess, if_neg hq], by rw [hsess, if_pos rfl, lnow], by rw [hacc, lself],
    fun j hj => by rw [hacc, lother j hj], ?_, ?_⟩
  · rw [hu]
    exact ends_of_stands (stands_of_cmds (kcmds.trans hmcmds)) hcmd _
  · rw [hu]
    refine (kregs.trans ?_).trans lregs
    rw [hm]
    rfl
  · rw [hu]
    refine (kstaged.trans ?_).trans lstaged
    rw [hm]
    rfl

end Sys2Proof.Machine
end

section
/-! PROOF. The commands OPEN, CLOSE, KICK and UNLOCK, and what ends sessions and locks by itself (16 R369, R372 to R375). -/

namespace Sys2Proof.Machine

/-! OPEN that fails, no earlier than 1 s -/

theorem openFails_leaves {n m : Node} {p off : Nat} {v : Word} {cs : Tbl (Option Command)} {ss : Tbl (Option Session)}
    (ht : Taken n p off v cs ss) (hnone : sessionOf n p = none) (hcmds : m.cmds = cs) (hsess : m.config.sessions = ss)
    (hnow : m.now = n.now) (reason : Nat) {r : Node × Option Bool} (hr : failWith (delayCmd m 5 (m.now + 1000000000)) p reason = r)
    {u : Node} {ve : Tbl Vector_} {o : List Out} {pw : Tbl Word} (hu : besidesReply (resolveCmd r.1 5 r.2) ve o pw = u) :
    (cmdOf u 5).map (·.result) = some (some false) ∧ (∀ q, q ≠ p → sessionOf u q = sessionOf n q) ∧ sessionOf u p = none ∧
    (cmdOf u 5).map (·.notBefore) = some (n.now + 1000000000) ∧ tget 0 u.config.result p = reason ∧
    u.config.accounts = m.config.accounts ∧ u.headers = m.headers := by
  subst hr hu
  have hbusy : (cmdOf m 5).isSome = true := by
    rw [cmdOf, hcmds]
    exact ht.busy
  obtain ⟨hends, hlate, hreason⟩ := delayed_leaves hbusy p reason (m.now + 1000000000) _ rfl
  rw [hnow] at hlate
  have hu : ∀ q, sessionOf (besidesReply (resolveCmd (failWith (delayCmd m 5 (m.now + 1000000000)) p reason).1 5
      (failWith (delayCmd m 5 (m.now + 1000000000)) p reason).2) ve o pw) q = sessionOf n q := by
    intro q
    change tget none m.config.sessions q = _
    rw [hsess, ht.closed hnone]
    rfl
  refine ⟨hends, fun q _ => hu q, (hu p).trans hnone, ?_, hreason, rfl, rfl⟩
  rw [hnow] at *
  exact hlate

theorem acts_imp {c : Instr} {s : State} {t : Nat} {P Q : Node → Node → Prop} (h : Acts c s t P)
    (hi : ∀ u, P (atInstant s t) u → Q (atInstant s t) u) : Acts c s t Q := by
  obtain ⟨u, hu, honly, hp⟩ := h
  exact ⟨u, hu, honly, hi _ hp⟩

section Open
variable {t p : Nat} {s : State}

/-- An accepted OPEN of a path. -/
def OpensOn (n : Node) (p : Nat) : Prop :=
  (reaches n p 1 ∧ judge n p 5 (cfgCmdCheck n p (BitVec.ofNat 32 1)) = .accept) ∧ sessionOf n p = none

/-- OPEN ends FAILED with the reason of the first test that fails, no earlier than 1 s. -/
theorem acts_openFails {reason : Nat} (h : OpensOn (atInstant s t) p)
    (hr : ∀ sq cs ss, ss = (atInstant s t).config.sessions → cfgOpenEff p (acceptedWith (atInstant s t) sq cs ss) =
      failWith (delayCmd (acceptedWith (atInstant s t) sq cs ss) 5 ((atInstant s t).now + 1000000000)) p reason) :
    Acts (.cfgOpen t p) s t (fun n u => (cmdOf u 5).map (·.result) = some (some false) ∧
      (∀ q, q ≠ p → sessionOf u q = sessionOf n q) ∧ sessionOf u p = none ∧
      (cmdOf u 5).map (·.notBefore) = some (n.now + 1000000000) ∧ tget 0 u.config.result p = reason ∧
      u.config.accounts = n.config.accounts) := by
  obtain ⟨hok, hnone⟩ := h
  refine acts_taken rfl hok (cfgOpenEff p) (fun _ => rfl) ?_
  generalize atInstant s t = n at *
  intro sq cs ss ht r hopen ve o pw
  rw [hr sq cs ss (ht.closed hnone)] at hopen
  obtain ⟨h1, h2, h3, h4, h5, h6, -⟩ := openFails_leaves (m := acceptedWith n sq cs ss) ht hnone rfl rfl rfl reason hopen
    (ve := ve) (o := o) (pw := pw) rfl
  exact ⟨h1, h2, h3, h4, h5, h6⟩

/-- A disabled account and a locked one are told apart only by the reason. -/
theorem acts_openRefused (h : OpensOn (atInstant s t) p)
    (hx : ((accountOf (atInstant s t) (fld (pAcct (atInstant s t)) 3 0)).en = true ∧
        isLocked (atInstant s t) (fld (pAcct (atInstant s t)) 3 0) = true) ∨
      (accountOf (atInstant s t) (fld (pAcct (atInstant s t)) 3 0)).en = false) :
    Acts (.cfgOpen t p) s t (fun n u => (cmdOf u 5).map (·.result) = some (some false) ∧
      (∀ q, q ≠ p → sessionOf u q = sessionOf n q) ∧ sessionOf u p = none ∧
      (cmdOf u 5).map (·.notBefore) = some (n.now + 1000000000) ∧
      tget 0 u.config.result p = (if (accountOf n (fld (pAcct n) 3 0)).en then 2 else 1) ∧
      u.config.accounts = n.config.accounts) := by
  refine acts_openFails (reason := if (accountOf (atInstant s t) (fld (pAcct (atInstant s t)) 3 0)).en then 2 else 1) h ?_
  obtain ⟨-, hnone⟩ := h
  generalize atInstant s t = n at *
  intro sq cs ss hss
  subst hss
  rw [cfgOpenEff_accepted hnone, openTests]
  rcases hx with ⟨hen, hl⟩ | hen
  · rw [hen, hl]
    rfl
  · rw [hen]
    rfl

/-- The tests after the lock, for an account that is enabled and not locked. -/
theorem openTests_unlocked {x : Account} (hen : x.en = true) (a lv : Nat) (right edit : Bool) (n : Node) :
    openTests p a lv x false right edit n =
      if !right then failWith (delayCmd (failedAttempt n a) 5 ((failedAttempt n a).now + 1000000000)) p 1
      else if x.level < lv then failWith (delayCmd n 5 (n.now + 1000000000)) p 5
      else if 2 ≤ lv ∧ edit then failWith (delayCmd n 5 (n.now + 1000000000)) p 3
      else
        let n := if x.fails = 0 then n else setLock n a 0 none
        let n := setSession n p (some { account := a, level := lv, last := n.now })
        (note n (recSession n 1 lv a n.config.check 0 0), some true) := by
  unfold openTests
  rw [hen]
  rfl

/-- An OPEN of an account that is enabled and not locked. -/
structure OpensAccount (n : Node) (p : Nat) : Prop where
  opens : OpensOn n p
  enabled : (accountOf n (fld (pAcct n) 3 0)).en = true
  unlocked : isLocked n (fld (pAcct n) 3 0) = false

/-- A level above the account's, or a second editing session, fails without an attempt counted. -/
theorem acts_openTooHigh (h : OpensAccount (atInstant s t) p)
    (hpw : pwMatches (accountOf (atInstant s t) (fld (pAcct (atInstant s t)) 3 0)) (pwBytes (atInstant s t) p 0) = true)
    (hlv : (accountOf (atInstant s t) (fld (pAcct (atInstant s t)) 3 0)).level < fld (pAcct (atInstant s t)) 10 8 ∨
      (2 ≤ fld (pAcct (atInstant s t)) 10 8 ∧ (editPath (atInstant s t)).isSome = true)) :
    Acts (.cfgOpen t p) s t (fun n u => (cmdOf u 5).map (·.result) = some (some false) ∧
      (∀ q, q ≠ p → sessionOf u q = sessionOf n q) ∧ sessionOf u p = none ∧ u.config.accounts = n.config.accounts ∧
      (cmdOf u 5).map (·.notBefore) = some (n.now + 1000000000)) := by
  refine acts_imp (acts_openFails (reason := if (accountOf (atInstant s t) (fld (pAcct (atInstant s t)) 3 0)).level <
      fld (pAcct (atInstant s t)) 10 8 then 5 else 3) h.opens ?_) fun u ⟨h1, h2, h3, h4, _, h6⟩ => ⟨h1, h2, h3, h6, h4⟩
  obtain ⟨⟨-, hnone⟩, hen, hlock⟩ := h
  generalize atInstant s t = n at *
  intro sq cs ss hss
  rw [hss, cfgOpenEff_accepted hnone, hlock, openTests_unlocked hen, hpw]
  by_cases hlow : (accountOf n (fld (pAcct n) 3 0)).level < fld (pAcct n) 10 8
  · rw [if_pos hlow, if_pos hlow]
    rfl
  · rw [if_neg hlow, if_neg hlow, if_pos (hlv.resolve_left hlow)]
    rfl

/-- A wrong password counts an attempt on its account; the fifth locks it. -/
theorem acts_openWrong (h : OpensAccount (atInstant s t) p)
    (hpw : pwMatches (accountOf (atInstant s t) (fld (pAcct (atInstant s t)) 3 0)) (pwBytes (atInstant s t) p 0) = false) :
    Acts (.cfgOpen t p) s t (fun n u => (cmdOf u 5).map (·.result) = some (some false) ∧
      (∀ q, q ≠ p → sessionOf u q = sessionOf n q) ∧ sessionOf u p = none ∧
      (cmdOf u 5).map (·.notBefore) = some (n.now + 1000000000) ∧ tget 0 u.config.result p = 1 ∧
      (∀ k, k ≠ fld (pAcct n) 3 0 → accountOf u k = accountOf n k) ∧
      (attempts n (fld (pAcct n) 3 0) < 5 → accountOf u (fld (pAcct n) 3 0) =
        { accountOf n (fld (pAcct n) 3 0) with fails := attempts n (fld (pAcct n) 3 0), lockUntil := none }) ∧
      (5 ≤ attempts n (fld (pAcct n) 3 0) → accountOf u (fld (pAcct n) 3 0) =
          { accountOf n (fld (pAcct n) 3 0) with fails := 5, lockUntil := some (n.now + 900000000000) } ∧
        bit (headerOf u 5).irqStat 3 = true)) := by
  obtain ⟨⟨hok, hnone⟩, hen, hlock⟩ := h
  refine acts_taken rfl hok (cfgOpenEff p) (fun _ => rfl) ?_
  generalize atInstant s t = n at *
  intro sq cs ss ht r hopen ve o pw
  have hss := ht.closed hnone
  rw [hss, cfgOpenEff_accepted hnone, hlock, openTests_unlocked hen, hpw] at hopen
  obtain ⟨hcmds, hsess, hnow, hother, hself, hfifth⟩ := failedAttempt_leaves (acceptedWith n sq cs n.config.sessions) (fld (pAcct n) 3 0)
  generalize failedAttempt (acceptedWith n sq cs n.config.sessions) (fld (pAcct n) 3 0) = m at *
  obtain ⟨h1, h2, h3, h4, h5, h6, h7⟩ := openFails_leaves ht hnone hcmds (hsess.trans hss.symm) hnow 1 hopen
    (ve := ve) (o := o) (pw := pw) rfl
  generalize besidesReply (resolveCmd r.1 5 r.2) ve o pw = u at *
  have hacc : ∀ k, accountOf u k = accountOf m k := accountOf_of_accounts h6
  refine ⟨h1, h2, h3, h4, h5, fun k hk => (hacc k).trans (hother k hk), fun hk => (hacc _).trans (hself hk), fun hk => ?_⟩
  obtain ⟨hlocked, hirq⟩ := hfifth hk
  refine ⟨(hacc _).trans hlocked, ?_⟩
  rw [headerOf, h7]
  exact hirq

/-- OPEN with the password, within the account's level and with no other editing session, opens the session. -/
theorem acts_openPasses (h : OpensAccount (atInstant s t) p)
    (hpw : pwMatches (accountOf (atInstant s t) (fld (pAcct (atInstant s t)) 3 0)) (pwBytes (atInstant s t) p 0) = true)
    (hlv : fld (pAcct (atInstant s t)) 10 8 ≤ (accountOf (atInstant s t) (fld (pAcct (atInstant s t)) 3 0)).level)
    (hedit : fld (pAcct (atInstant s t)) 10 8 < 2 ∨ editPath (atInstant s t) = none) :
    Acts (.cfgOpen t p) s t (fun n u => (cmdOf u 5).map (·.result) = some (some true) ∧
      (∀ q, q ≠ p → sessionOf u q = sessionOf n q) ∧
      sessionOf u p = some { account := fld (pAcct n) 3 0, level := fld (pAcct n) 10 8, last := n.now } ∧
      (accountOf u (fld (pAcct n) 3 0)).fails = 0 ∧ (∀ k, k ≠ fld (pAcct n) 3 0 → accountOf u k = accountOf n k) ∧
      u.regs = n.regs ∧ u.staged = n.staged) := by
  obtain ⟨⟨hok, hnone⟩, hen, hlock⟩ := h
  refine acts_taken rfl hok (cfgOpenEff p) (fun _ => rfl) ?_
  generalize atInstant s t = n at *
  intro sq cs ss ht r hopen ve o pw
  have hss := ht.closed hnone
  rw [hss, cfgOpenEff_accepted hnone, hlock, openTests_unlocked hen, hpw] at hopen
  have hbusyEdit : ¬(2 ≤ fld (pAcct n) 10 8 ∧ (editPath n).isSome = true) := by
    rintro ⟨h2, hsome⟩
    rcases hedit with hlow | hfree
    · omega
    · simp [hfree] at hsome
  rw [if_neg (by decide), if_neg (Nat.not_lt.mpr hlv), if_neg hbusyEdit] at hopen
  have hopened := opened_leaves (n := acceptedWith n sq cs n.config.sessions) (p := p)
    (a := fld (pAcct n) 3 0) (lv := fld (pAcct n) 10 8) ht.busy _ (resolveCmd r.1 5 r.2) rfl (by rw [← hopen]; rfl)
  generalize resolveCmd r.1 5 r.2 = u at hopened ⊢
  exact hopened

end Open

end Sys2Proof.Machine
end

section
/-! PROOF. CLOSE, KICK and UNLOCK, and what ends sessions, locks and connections by itself (16 R369, R372 to R375). -/

namespace Sys2Proof.Machine

theorem endSession_leaves (n : Node) (path event : Nat) (close : Bool) (who : LogBy) :
    (endSession n path event close who).regs = n.regs ∧
    (endSession n path event close who).config.accounts = n.config.accounts := by
  obtain ⟨heq, -⟩ := sessFrame_endSession n path event close who
  rw [heq]
  exact ⟨rfl, rfl⟩

/-- Any end of a session but CLOSE tells it. -/
theorem bit_endSession {n : Node} {path : Nat} (h : (sessionOf n path).isSome = true) (event : Nat) (who : LogBy) :
    bit (headerOf (endSession n path event false who) 5).irqStat 2 = true := by
  obtain ⟨x, hx⟩ := Option.isSome_iff_exists.mp h
  obtain ⟨m, r, -, -, heq⟩ := endSession_eq hx event false who
  rw [heq]
  exact bit_raise (by decide)

section Commands
variable {t p : Nat} {s : State}

/-- An accepted command of CFG_CMD. -/
abbrev Accepts (n : Node) (p op : Nat) : Prop :=
  reaches n p op ∧ judge n p 5 (cfgCmdCheck n p (BitVec.ofNat 32 op)) = .accept

theorem acts_cfgClose (hok : Accepts (atInstant s t) p 2) : Acts (.cfgClose t p) s t (fun n u =>
    (cmdOf u 5).map (·.result) = some (some true) ∧ (∀ q, q ≠ p → sessionOf u q = sessionOf n q) ∧ sessionOf u p = none ∧
    u.regs = n.regs ∧ u.config.accounts = n.config.accounts) := by
  refine acts_taken rfl hok (cfgCloseEff p) (fun _ => rfl) ?_
  generalize atInstant s t = n at *
  intro sq cs ss ht r hr ve o pw
  subst hr
  generalize hm : acceptedWith n sq cs ss = m
  have hbusy : (cmdOf m 5).isSome = true := by
    rw [← hm]
    exact ht.busy
  have hsess : ∀ q, q ≠ p → sessionOf m q = sessionOf n q := by
    rw [← hm]
    exact fun q hq => ht.others hq
  have hregs : m.regs = n.regs ∧ m.config.accounts = n.config.accounts := by
    rw [← hm]
    exact ⟨rfl, rfl⟩
  have hends := ends_of_stands (stands_endSession m p 2 true (byPath m p)) hbusy (some true)
  obtain ⟨eregs, eacc⟩ := endSession_leaves m p 2 true (byPath m p)
  have esess := sessionOf_endSession m p 2 true (byPath m p)
  rw [cfgCloseEff]
  generalize endSession m p 2 true (byPath m p) = e at *
  refine ⟨hends, fun q hq => ?_, ?_, eregs.trans hregs.1, eacc.trans hregs.2⟩
  · exact (esess q).trans ((if_neg hq).trans (hsess q hq))
  · exact (esess p).trans (if_pos rfl)

/-- KICK ends the session of the path it names. -/
theorem acts_cfgKick {q : Nat} {x : Session} (hok : Accepts (atInstant s t) p 8) (hq : q = fld (pAcct (atInstant s t)) 26 24)
    (hqp : q ≠ p) (hx : sessionOf (atInstant s t) q = some x) : Acts (.cfgKick t p) s t (fun n u =>
    (cmdOf u 5).map (·.result) = some (some true) ∧ sessionOf u q = none ∧
    (∀ j, j ≠ q → j ≠ p → sessionOf u j = sessionOf n j) ∧ (sessionOf u p).isSome = (sessionOf n p).isSome ∧
    bit (headerOf u 5).irqStat 2 = true ∧ u.regs = n.regs) := by
  refine acts_taken rfl hok (cfgKickEff p) (fun _ => rfl) ?_
  generalize atInstant s t = n at *
  intro sq cs ss ht r hr ve o pw
  subst hr
  generalize hm : acceptedWith n sq cs ss = m
  have hbusy : (cmdOf m 5).isSome = true := by
    rw [← hm]
    exact ht.busy
  have hother : ∀ j, j ≠ p → sessionOf m j = sessionOf n j := by
    rw [← hm]
    exact fun j hj => ht.others hj
  have hown : (sessionOf m p).isSome = (sessionOf n p).isSome := by
    rw [← hm]
    exact ht.own_isSome
  have hregs : m.regs = n.regs := by rw [← hm]; rfl
  have hnamed : fld (pAcct m) 26 24 = q := by
    rw [hq, ← hm]
    rfl
  have hthere : (sessionOf m q).isSome = true := by
    rw [hother q hqp, hx]
    rfl
  have heff : cfgKickEff p m = (endSession m q 2 false (byPath m p), some true) := by
    rw [cfgKickEff, hnamed]
    exact if_neg (by simp [hqp, Option.isSome_iff_ne_none.mp hthere])
  rw [heff]
  have hends := ends_of_stands (stands_endSession m q 2 false (byPath m p)) hbusy (some true)
  have eregs := (endSession_leaves m q 2 false (byPath m p)).1
  have esess := sessionOf_endSession m q 2 false (byPath m p)
  have ebit := bit_endSession hthere 2 (byPath m p)
  generalize endSession m q 2 false (byPath m p) = e at *
  refine ⟨hends, (esess q).trans (if_pos rfl), fun j hj hjp => (esess j).trans ((if_neg hj).trans (hother j hjp)), ?_, ebit,
    eregs.trans hregs⟩
  exact (congrArg Option.isSome ((esess p).trans (if_neg (Ne.symm hqp)))).trans hown

/-- KICK of the own path, or of one without a session, ends FAILED with NO_SESSION. -/
theorem acts_cfgKick_none (hok : Accepts (atInstant s t) p 8)
    (h : fld (pAcct (atInstant s t)) 26 24 = p ∨ sessionOf (atInstant s t) (fld (pAcct (atInstant s t)) 26 24) = none) :
    Acts (.cfgKick t p) s t (fun n u => (cmdOf u 5).map (·.result) = some (some false) ∧ tget 0 u.config.result p = 12 ∧
      (∀ q, q ≠ p → sessionOf u q = sessionOf n q) ∧ (sessionOf u p).isSome = (sessionOf n p).isSome) := by
  refine acts_taken rfl hok (cfgKickEff p) (fun _ => rfl) ?_
  generalize atInstant s t = n at *
  intro sq cs ss ht r hr ve o pw
  have hnone : fld (pAcct n) 26 24 = p ∨ (tget none ss (fld (pAcct n) 26 24)).isNone = true := by
    by_cases hp : fld (pAcct n) 26 24 = p
    · exact .inl hp
    · refine .inr ?_
      rw [ht.others hp, h.resolve_left hp]
      rfl
  have heff : cfgKickEff p (acceptedWith n sq cs ss) = failWith (acceptedWith n sq cs ss) p 12 := by
    rw [cfgKickEff]
    exact if_pos hnone
  rw [heff] at hr
  subst hr
  obtain ⟨hends, hreason⟩ := failWith_leaves (m := acceptedWith n sq cs ss) ht.busy p 12
  exact ⟨hends, hreason, fun q hq => ht.others hq, ht.own_isSome⟩

theorem acts_cfgUnlock (hok : Accepts (atInstant s t) p 9) : Acts (.cfgUnlock t p) s t (fun n u =>
    (cmdOf u 5).map (·.result) = some (some true) ∧
    accountOf u (fld (pAcct n) 3 0) = { accountOf n (fld (pAcct n) 3 0) with fails := 0, lockUntil := none } ∧
    (∀ k, k ≠ fld (pAcct n) 3 0 → accountOf u k = accountOf n k) ∧ u.regs = n.regs) := by
  refine acts_taken rfl hok (cfgUnlockEff p) (fun _ => rfl) ?_
  generalize atInstant s t = n at *
  intro sq cs ss ht r hr ve o pw
  subst hr
  have hends := ends_of_stands (n := acceptedWith n sq cs ss) (u := setLock (acceptedWith n sq cs ss) (fld (pAcct n) 3 0) 0 none)
    rfl ht.busy (some true)
  exact ⟨hends, accountOf_setLock_self (acceptedWith n sq cs ss) _ 0 none,
    fun k hk => accountOf_setLock_ne (acceptedWith n sq cs ss) 0 none hk, rfl⟩

end Commands

/-! What nothing commands -/

section Expiries
variable {t p : Nat} {s : State}

theorem lockoutExpire_due {n : Node} {e : Nat} (he : (accountOf n p).lockUntil = some e) (hrun : n.mgt.state = .run) (hdue : e ≤ n.now) :
    lockoutExpire n p = setLock n p 0 none := by
  simp [lockoutExpire, mpRun, hrun, lockOver, he, hdue]

theorem lockoutExpire_stands {n : Node} {e : Nat} (he : (accountOf n p).lockUntil = some e)
    (h : n.mgt.state ≠ .run ∨ n.now < e) : lockoutExpire n p = n := by
  refine if_neg ?_
  rcases h with hdown | hbefore
  · simp [mpRun, hdown]
  · simp [lockOver, he, hbefore]

theorem acts_lockoutExpire {e : Nat} (he : (accountOf (atInstant s t) p).lockUntil = some e)
    (hrun : (atInstant s t).mgt.state = .run) (hdue : e ≤ (atInstant s t).now) :
    Acts (.lockoutExpire t p) s t (fun n u => SameButSignals u { n with config := u.config } ∧
      accountOf u p = { accountOf n p with fails := 0, lockUntil := none } ∧
      (∀ k, k ≠ p → accountOf u k = accountOf n k) ∧ u.config.sessions = n.config.sessions) := by
  refine acts_of_eq (f := fun n => lockoutExpire n p) rfl (lockoutExpire_due he hrun hdue) ?_
  generalize atInstant s t = n
  have hsettled := sameButSignals_settle (setLock n p 0 none)
  rw [SameButSignals] at hsettled
  rw [hsettled]
  exact ⟨rfl, accountOf_setLock_self n p 0 none, fun k hk => accountOf_setLock_ne n 0 none hk, rfl⟩

theorem sessionTimeout_due {n : Node} {e : Nat} (he : timeoutAt n p = some e) (hdue : e ≤ n.now) :
    sessionTimeout n p = endSession n p 3 false byNode := by
  simp [sessionTimeout, he, hdue]

theorem sessionTimeout_stands {n : Node} (h : ∀ e, timeoutAt n p = some e → n.now < e) : sessionTimeout n p = n := by
  unfold sessionTimeout
  split
  · next e he => exact if_neg (Nat.not_le.mpr (h e he))
  · rfl

/-- Only an open session has an instant at which it times out. -/
theorem isSome_of_timeoutAt {n : Node} {e : Nat} (he : timeoutAt n p = some e) : (sessionOf n p).isSome = true := by
  cases hx : sessionOf n p with
  | none => simp [timeoutAt, hx] at he
  | some x => rfl

theorem acts_sessionTimeout {e : Nat} (he : timeoutAt (atInstant s t) p = some e) (hdue : e ≤ (atInstant s t).now) :
    Acts (.sessionTimeout t p) s t (fun n u => sessionOf u p = none ∧ (∀ q, q ≠ p → sessionOf u q = sessionOf n q) ∧
      bit (headerOf u 5).irqStat 2 = true ∧ u.regs = n.regs ∧ u.config.accounts = n.config.accounts) := by
  refine acts_of_eq (f := fun n => sessionTimeout n p) rfl (sessionTimeout_due he hdue) ?_
  generalize atInstant s t = n at *
  obtain ⟨eregs, eacc⟩ := endSession_leaves n p 3 false byNode
  have esess := sessionOf_endSession n p 3 false byNode
  have ebit := bit_endSession (isSome_of_timeoutAt he) 3 byNode
  generalize endSession n p 3 false byNode = m at *
  have hsettled := sameButSignals_settle m
  rw [SameButSignals] at hsettled
  rw [hsettled]
  exact ⟨(esess p).trans (if_pos rfl), fun q hq => (esess q).trans (if_neg hq), ebit, eregs, eacc⟩

theorem acts_tlsClose (hp : 1 ≤ p ∧ p ≤ 4) : Acts (.tlsClose t p) s t (fun n u => sessionOf u p = none ∧
    (∀ q, q ≠ p → sessionOf u q = sessionOf n q) ∧ tget false u.config.tls p = false ∧ u.regs = n.regs) := by
  refine acts_of_eq (f := fun n => if 1 ≤ p ∧ p ≤ 4 then tlsClose n p else n) rfl (if_pos hp) ?_
  generalize atInstant s t = n
  obtain ⟨hregs, htls, hrest⟩ := tlsClose_frame n p
  generalize tlsClose n p = m at *
  have hsettled := sameButSignals_settle m
  rw [SameButSignals] at hsettled
  rw [hsettled]
  exact ⟨((hrest p).2).trans (if_pos rfl), fun q hq => ((hrest q).2).trans (if_neg hq), htls, hregs⟩

/-- A connection comes on a port that runs the service, while the processor runs and sheds less than 4. -/
theorem acts_tlsConnect (hp : 1 ≤ p ∧ p ≤ 4) {q : Nat} (hq : q < 4)
    (hen : bit (reg (atInstant s t) (at_ (0x58 + q) 0x58)) 0 = true) (hmgt : bit (reg (atInstant s t) (at_ (0x58 + q) 0x58)) 3 = true)
    (hrun : (atInstant s t).mgt.state = .run) (hshed : (atInstant s t).mgt.shed < 4) :
    Acts (.tlsConnect t p) s t (fun n u => SameButSignals u { n with config := { n.config with tls := u.config.tls } } ∧
      tget false u.config.tls p = true ∧ ∀ j, j ≠ p → tget false u.config.tls j = tget false n.config.tls j) := by
  have hsvc : mgmtSvc (atInstant s t) = true :=
    List.any_eq_true.mpr ⟨q, List.mem_range.mpr hq, Bool.and_eq_true_iff.mpr ⟨hen, hmgt⟩⟩
  refine acts_of_eq (f := fun n => tlsConnect n p) rfl
    (if_pos ⟨hp.1, hp.2, hsvc, decide_eq_true hrun, hshed⟩) ?_
  generalize atInstant s t = n
  have hsettled := sameButSignals_settle { n with config := { n.config with tls := tset false n.config.tls p true } }
  rw [SameButSignals] at hsettled
  rw [hsettled]
  exact ⟨rfl, tget_tset_self false n.config.tls p true, fun j hj => tget_tset_ne false n.config.tls true hj⟩

theorem acts_tlsConnect_refused (h : (atInstant s t).mgt.state ≠ .run ∨ 4 ≤ (atInstant s t).mgt.shed ∨
    ∀ q, q < 4 → bit (reg (atInstant s t) (at_ (0x58 + q) 0x58)) 0 = false ∨ bit (reg (atInstant s t) (at_ (0x58 + q) 0x58)) 3 = false) :
    Acts (.tlsConnect t p) s t (fun n u => SameButSignals u n) := by
  refine acts_same (f := fun n => tlsConnect n p) rfl (if_neg ?_)
  rintro ⟨-, -, hsvc, hrun, hshed⟩
  rcases h with hdown | hfull | hno
  · exact hdown (of_decide_eq_true hrun)
  · exact absurd hshed (Nat.not_lt.mpr hfull)
  · obtain ⟨q, hq, hport⟩ := List.any_eq_true.mp hsvc
    obtain ⟨hen, hmgt⟩ := Bool.and_eq_true_iff.mp hport
    rcases hno q (List.mem_range.mp hq) with hoff | hoff
    · exact Bool.false_ne_true (hoff.symm.trans hen)
    · exact Bool.false_ne_true (hoff.symm.trans hmgt)

end Expiries

/-! Connections that carry nothing -/

/-- On a connection that does not stand nothing is done; without a session all but OPEN are answered NO_SESSION. -/
theorem acts_cfgCommands {t p : Nat} {s : State} {v : Word} {agree : Bool} {c : Instr} (hc : c ∈ cfgCommands t p v agree) :
    ∃ opens f, exec c s = .next (onNode s t (fun n => served n p opens f)) ∧ (opens = true → c = .cfgOpen t p) := by
  simp only [cfgCommands, List.mem_cons, List.not_mem_nil, or_false] at hc
  rcases hc with rfl | rfl | rfl | rfl | rfl | rfl | rfl | rfl | rfl | rfl
  · exact ⟨true, _, rfl, fun _ => rfl⟩
  all_goals exact ⟨false, _, rfl, fun h => absurd h (by decide)⟩

theorem acts_noConnection {t p : Nat} {s : State} {v : Word} {agree : Bool} {c : Instr} (hp : p ≠ 0)
    (hdown : mgmtUp (atInstant s t) p = false) (hc : c ∈ cfgCommands t p v agree) : Acts c s t (fun n u => SameButSignals u n) := by
  obtain ⟨opens, f, hexec, -⟩ := acts_cfgCommands (s := s) hc
  refine acts_same hexec ?_
  have hpath : p ≠ hostPath := hp
  rw [served, if_neg hpath, if_pos (by simp [hdown])]

theorem acts_noSession {t p : Nat} {s : State} {v : Word} {agree : Bool} {c : Instr} (hup : mgmtUp (atInstant s t) p = true)
    (hnone : sessionOf (atInstant s t) p = none) (hc : c ∈ cfgCommands t p v agree) (hopen : c ≠ .cfgOpen t p) :
    Acts c s t (fun n u => SameButSignals u n ∧ .mgmt p 2 0 ∈ u.outs) := by
  obtain ⟨opens, f, hexec, hopens⟩ := acts_cfgCommands (s := s) hc
  have hno : opens = false := Bool.eq_false_iff.mpr fun h => hopen (hopens h)
  have hpath : p ≠ hostPath := by
    rintro rfl
    simp [mgmtUp, hostPath] at hup
  have hserved : served (atInstant s t) p opens f = emit (atInstant s t) (.mgmt p 2 0) := by
    rw [served, if_neg hpath, if_neg (by simp [hup]), hno]
    dsimp only
    rw [mgmtStatus_of_none hnone, if_pos rfl]
  refine acts_of_eq hexec hserved ⟨?_, mem_outs_settle (List.mem_append_right _ (List.mem_singleton.mpr rfl))⟩
  exact sameButSignals_settle (emit (atInstant s t) (.mgmt p 2 0))

/-- Settles O54. -/
theorem sessionsOpenAndEnd : Obligations.SessionsOpenAndEnd := by
  intro t p s
  dsimp only
  refine ⟨fun hp hdown v agree c hc => acts_noConnection hp hdown hc,
    fun hup hnone v agree c hc hopen => acts_noSession hup hnone hc hopen,
    fun hok hnone hen hlock => ⟨fun hpw hlv hedit => acts_openPasses ⟨⟨hok, hnone⟩, hen, hlock⟩ hpw hlv hedit,
      fun hpw hhigh => acts_openTooHigh ⟨⟨hok, hnone⟩, hen, hlock⟩ hpw hhigh,
      fun hpw => acts_openWrong ⟨⟨hok, hnone⟩, hen, hlock⟩ hpw⟩,
    fun hok hnone hx => acts_openRefused ⟨hok, hnone⟩ hx, acts_cfgClose,
    fun hok => ⟨fun q x hq hqp hx => acts_cfgKick hok hq hqp hx, acts_cfgKick_none hok⟩, acts_cfgUnlock,
    fun e he => ⟨acts_lockoutExpire he, fun h => acts_same (f := fun n => lockoutExpire n p) rfl (lockoutExpire_stands he h)⟩,
    fun e he => ⟨acts_sessionTimeout he, fun hlt => acts_same (f := fun n => sessionTimeout n p) rfl (sessionTimeout_stands fun x hx => ?_)⟩,
    fun hnone => acts_same (f := fun n => sessionTimeout n p) rfl (sessionTimeout_stands fun x hx => ?_),
    fun hp => ⟨acts_tlsClose hp, fun q hq hen hmgt hrun hshed => acts_tlsConnect hp hq hen hmgt hrun hshed, acts_tlsConnect_refused⟩⟩
  · rw [he] at hx
    exact Option.some.inj hx ▸ hlt
  · exact absurd (hnone.symm.trans hx) (by simp)

end Sys2Proof.Machine
end

section
/-! PROOF. Passwords and accounts change under their rules (16 R366 to R371). -/

namespace Sys2Proof.Machine

/-! CHPW -/

section Chpw
variable {t p : Nat} {s : State}

/-- An accepted CHPW sees the account of its session as it was. -/
theorem cfgChpwEff_accepted {n : Node} {x : Session} {cs : Tbl (Option Command)} {ss : Tbl (Option Session)}
    (ht : Taken n p (at_ 5 0x5C) (BitVec.ofNat 32 3) cs ss) (hx : sessionOf n p = some x) (sq : Tbl PathSeq) :
    cfgChpwEff p (acceptedWith n sq cs ss) =
      if isLocked n x.account then failWith (acceptedWith n sq cs ss) p 2
      else if !pwMatches (accountOf n x.account) (pwBytes n p 8) then
        failWith (delayCmd (failedAttempt (acceptedWith n sq cs ss) x.account) 5 (n.now + 1000000000)) p 1
      else if !pwRule (pwBytes n p 0) (accountOf n x.account).name || decide (pwBytes n p 0 = pwBytes n p 8) then
        failWith (acceptedWith n sq cs ss) p 4
      else
        ({ drawn (acceptedWith n sq cs ss) with config := { (acceptedWith n sq cs ss).config with chpw := some {
            account := x.account, level := x.level, salt := Config.salt n.free,
            hash := pwHash (pwBytes n p 0) (Config.salt n.free) } } }, none) := by
  have hown : sessionOf (acceptedWith n sq cs ss) p = some { x with last := n.now } := by
    refine (ht.sessions p).trans ?_
    rw [hx]
    exact congrArg some (if_pos rfl)
  unfold cfgChpwEff
  rw [hown]
  rfl

theorem acts_cfgChpw_locked {x : Session} (hok : Accepts (atInstant s t) p 3) (hx : sessionOf (atInstant s t) p = some x)
    (hl : isLocked (atInstant s t) x.account = true) : Acts (.cfgChpw t p) s t (fun n u =>
      (cmdOf u 5).map (·.result) = some (some false) ∧ tget 0 u.config.result p = 2 ∧ u.config.accounts = n.config.accounts) := by
  refine acts_taken rfl hok (cfgChpwEff p) (fun _ => rfl) ?_
  generalize atInstant s t = n at *
  intro sq cs ss ht r hr ve o pw
  rw [cfgChpwEff_accepted ht hx, hl] at hr
  subst hr
  obtain ⟨hends, hreason⟩ := failWith_leaves (m := acceptedWith n sq cs ss) ht.busy p 2
  exact ⟨hends, hreason, rfl⟩

/-- A new password that R368 or the old one rules out ends FAILED. -/
theorem acts_cfgChpw_rule {x : Session} (hok : Accepts (atInstant s t) p 3) (hx : sessionOf (atInstant s t) p = some x)
    (hl : isLocked (atInstant s t) x.account = false)
    (hpw : pwMatches (accountOf (atInstant s t) x.account) (pwBytes (atInstant s t) p 8) = true)
    (hnew : pwRule (pwBytes (atInstant s t) p 0) (accountOf (atInstant s t) x.account).name = false ∨
      pwBytes (atInstant s t) p 0 = pwBytes (atInstant s t) p 8) : Acts (.cfgChpw t p) s t (fun n u =>
      (cmdOf u 5).map (·.result) = some (some false) ∧ u.config.accounts = n.config.accounts ∧ tget 0 u.config.result p = 4) := by
  refine acts_taken rfl hok (cfgChpwEff p) (fun _ => rfl) ?_
  generalize atInstant s t = n at *
  intro sq cs ss ht r hr ve o pw
  have hbad : (!pwRule (pwBytes n p 0) (accountOf n x.account).name || decide (pwBytes n p 0 = pwBytes n p 8)) = true := by
    rcases hnew with h | h <;> simp [h]
  rw [cfgChpwEff_accepted ht hx, hl, hpw] at hr
  rw [if_neg (by decide), if_neg (by decide), if_pos hbad] at hr
  subst hr
  obtain ⟨hends, hreason⟩ := failWith_leaves (m := acceptedWith n sq cs ss) ht.busy p 4
  exact ⟨hends, rfl, hreason⟩

/-- A new password waits for its write of configuration flash. -/
theorem acts_cfgChpw_taken {x : Session} (hok : Accepts (atInstant s t) p 3) (hx : sessionOf (atInstant s t) p = some x)
    (hl : isLocked (atInstant s t) x.account = false)
    (hpw : pwMatches (accountOf (atInstant s t) x.account) (pwBytes (atInstant s t) p 8) = true)
    (hrule : pwRule (pwBytes (atInstant s t) p 0) (accountOf (atInstant s t) x.account).name = true)
    (hdiff : pwBytes (atInstant s t) p 0 ≠ pwBytes (atInstant s t) p 8) : Acts (.cfgChpw t p) s t (fun n u =>
      (cmdOf u 5).map (·.result) = some none ∧ u.regs = n.regs ∧ u.free = n.free + 1 ∧
      u.config.accounts = n.config.accounts ∧ u.config.chpw = some {
        account := x.account, level := x.level, salt := Config.salt n.free,
        hash := pwHash (pwBytes n p 0) (Config.salt n.free) }) := by
  refine acts_taken rfl hok (cfgChpwEff p) (fun _ => rfl) ?_
  generalize atInstant s t = n at *
  intro sq cs ss ht r hr ve o pw
  have hgood : ¬(!pwRule (pwBytes n p 0) (accountOf n x.account).name || decide (pwBytes n p 0 = pwBytes n p 8)) = true := by
    simp [hrule, hdiff]
  rw [cfgChpwEff_accepted ht hx, hl, hpw] at hr
  rw [if_neg (by decide), if_neg (by decide), if_neg hgood] at hr
  subst hr
  exact ⟨ends_of_stands (n := acceptedWith n sq cs ss) rfl ht.busy none, rfl, rfl, rfl, rfl⟩

/-- A wrong password counts an attempt, and the command ends no earlier than 1 s. -/
theorem acts_cfgChpw_wrong {x : Session} (hok : Accepts (atInstant s t) p 3) (hx : sessionOf (atInstant s t) p = some x)
    (hl : isLocked (atInstant s t) x.account = false)
    (hpw : pwMatches (accountOf (atInstant s t) x.account) (pwBytes (atInstant s t) p 8) = false) :
    Acts (.cfgChpw t p) s t (fun n u => (cmdOf u 5).map (·.result) = some (some false) ∧ tget 0 u.config.result p = 1 ∧
      (∀ k, k ≠ x.account → accountOf u k = accountOf n k) ∧
      (accountOf u x.account).hash = (accountOf n x.account).hash ∧
      (cmdOf u 5).map (·.notBefore) = some (n.now + 1000000000) ∧
      (accountOf u x.account).fails = min 5 (attempts n x.account)) := by
  refine acts_taken rfl hok (cfgChpwEff p) (fun _ => rfl) ?_
  generalize atInstant s t = n at *
  intro sq cs ss ht r hr ve o pw
  rw [cfgChpwEff_accepted ht hx, hl, hpw] at hr
  rw [if_neg (by decide), if_pos (by decide)] at hr
  obtain ⟨hcmds, -, -, hother, hself, hfifth⟩ := failedAttempt_leaves (acceptedWith n sq cs ss) x.account
  have hatt : attempts (acceptedWith n sq cs ss) x.account = attempts n x.account := rfl
  rw [hatt] at hself hfifth
  generalize failedAttempt (acceptedWith n sq cs ss) x.account = m at *
  have hbusy : (cmdOf m 5).isSome = true := by
    rw [cmdOf, hcmds]
    exact ht.busy
  obtain ⟨hends, hlate, hreason⟩ := delayed_leaves hbusy p 1 (n.now + 1000000000) _ rfl
  have haccounts : ∀ k, accountOf (resolveCmd (failWith (delayCmd m 5 (n.now + 1000000000)) p 1).1 5
      (failWith (delayCmd m 5 (n.now + 1000000000)) p 1).2) k = accountOf m k := by
    unfold failWith setReason delayCmd resolveCmd setCmd
    exact fun k => rfl
  subst hr
  generalize resolveCmd (failWith (delayCmd m 5 (n.now + 1000000000)) p 1).1 5
      (failWith (delayCmd m 5 (n.now + 1000000000)) p 1).2 = u at *
  have hacc : (accountOf m x.account).hash = (accountOf n x.account).hash ∧
      (accountOf m x.account).fails = min 5 (attempts n x.account) := by
    by_cases hk : attempts n x.account < 5
    · rw [hself hk, Nat.min_eq_right (Nat.le_of_lt hk)]
      exact ⟨rfl, rfl⟩
    · rw [(hfifth (Nat.not_lt.mp hk)).1, Nat.min_eq_left (Nat.not_lt.mp hk)]
      exact ⟨rfl, rfl⟩
  rw [← haccounts] at hacc
  exact ⟨hends, hreason, fun k hk => (haccounts k).trans (hother k hk), hacc.1, hlate, hacc.2⟩

end Chpw

/-! The write of configuration flash that ends CHPW -/

theorem accountOf_modAccount_self (n : Node) (a : Nat) (f : Account → Account) : accountOf (modAccount n a f) a = f (accountOf n a) :=
  tget_tmod_self ({} : Account) n.config.accounts a f

theorem accountOf_modAccount_ne (n : Node) {a k : Nat} (f : Account → Account) (h : k ≠ a) :
    accountOf (modAccount n a f) k = accountOf n k := tget_tmod_ne ({} : Account) n.config.accounts f h

theorem accountOf_newPassword_self (n : Node) (a : Nat) (pw : List Byte) (mustchg : Bool) :
    accountOf (newPassword n a pw mustchg) a =
      { accountOf n a with salt := Config.salt n.free, hash := pwHash pw (Config.salt n.free), mustchg := mustchg } :=
  accountOf_modAccount_self n a (fun x => { x with salt := Config.salt n.free, hash := pwHash pw (Config.salt n.free), mustchg := mustchg })

theorem accountOf_newPassword_ne (n : Node) {a k : Nat} (pw : List Byte) (mustchg : Bool) (h : k ≠ a) :
    accountOf (newPassword n a pw mustchg) k = accountOf n k :=
  accountOf_modAccount_ne n (fun x => { x with salt := Config.salt n.free, hash := pwHash pw (Config.salt n.free), mustchg := mustchg }) h

/-- An account with the hash of an accepted CHPW. -/
def withHash (x : NewPassword) (a : Account) : Account := { a with salt := x.salt, hash := x.hash, mustchg := false }

/-- The node with that hash in its account, and no CHPW that waits. -/
def withPassword (n : Node) (x : NewPassword) : Node :=
  setLock (modConfig (modAccount n x.account (withHash x)) (fun c => { c with chpw := none })) x.account 0 none

theorem storePassword_eq {n : Node} {x : NewPassword} (hx : n.config.chpw = some x) :
    ∃ r, storePassword n = resolveCmd (note (withPassword n x) r) 5 (some true) := by
  unfold storePassword
  rw [hx]
  exact ⟨_, rfl⟩

theorem withPassword_leaves (n : Node) (x : NewPassword) :
    accountOf (withPassword n x) x.account = { accountOf n x.account with
      salt := x.salt, hash := x.hash, mustchg := false, fails := 0, lockUntil := none } ∧
    (∀ k, k ≠ x.account → accountOf (withPassword n x) k = accountOf n k) ∧ (withPassword n x).config.chpw = none ∧
    (withPassword n x).regs = n.regs ∧ (withPassword n x).cmds = n.cmds := by
  refine ⟨?_, fun k hk => ?_, ?_⟩
  · have hmod : accountOf (modConfig (modAccount n x.account (withHash x)) (fun c => { c with chpw := none })) x.account =
        withHash x (accountOf n x.account) := accountOf_modAccount_self n x.account (withHash x)
    rw [withPassword, accountOf_setLock_self, hmod]
    rfl
  · have hmod : accountOf (modConfig (modAccount n x.account (withHash x)) (fun c => { c with chpw := none })) k = accountOf n k :=
      accountOf_modAccount_ne n (withHash x) hk
    rw [withPassword, accountOf_setLock_ne _ 0 none hk, hmod]
  · unfold withPassword setLock modConfig modAccount
    exact ⟨rfl, rfl, rfl⟩

/-- The hash goes into its account, with the attempts forgotten and the command ended. -/
theorem storePassword_leaves {n : Node} {x : NewPassword} (hx : n.config.chpw = some x) :
    (storePassword n).config.chpw = none ∧ (storePassword n).regs = n.regs ∧
    cmdOf (storePassword n) 5 = (cmdOf n 5).map (fun c => { c with result := some true }) ∧
    accountOf (storePassword n) x.account = { accountOf n x.account with
      salt := x.salt, hash := x.hash, mustchg := false, fails := 0, lockUntil := none } ∧
    ∀ k, k ≠ x.account → accountOf (storePassword n) k = accountOf n k := by
  obtain ⟨r, hr⟩ := storePassword_eq hx
  obtain ⟨hself, hother, hchpw, hregs, hcmds⟩ := withPassword_leaves n x
  generalize withPassword n x = m at *
  obtain ⟨_, _, _, _, _, heq, -⟩ := recFrame_note m r
  have hconfig : (note m r).config.chpw = m.config.chpw := by rw [heq]
  obtain ⟨kacc, -, kcmds, -, -⟩ := note_beside m r
  have kregs := note_regs m r
  rw [hr, cmdOf_resolveCmd]
  generalize note m r = u at *
  refine ⟨hconfig.trans hchpw, kregs.trans hregs, ?_, (accountOf_of_accounts kacc _).trans hself,
    fun k hk => (accountOf_of_accounts kacc k).trans (hother k hk)⟩
  rw [cmdOf, cmdOf, kcmds, hcmds]

/-- A copy of what stands now, of the next generation, in flash b; the other is due. -/
def flashWritten (m : Node) (b : Bool) : Node :=
  modConfig m (fun c => { modFlash b (fun _ => {
      valid := true, gen := m.config.gen + 1, regs := flashRegs m, accounts := m.config.accounts, check := m.config.check,
      imagePeriod := m.config.imagePeriod }) c with
    gen := m.config.gen + 1, half := some (!b), dirty := false })

theorem writeDirty_done (n : Node) : writeDirty n true = flashWritten (storePassword n) (firstCopy n.config) := rfl

/-- The first write after a change of parameters, an account or a password. -/
theorem configFlashWrite_dirty {n : Node} (hrun : n.mgt.state = .run) (hpend : n.config.pend = none) (hhalf : n.config.half = none)
    (hdue : writeDue n = true) (ok : Bool) : configFlashWrite n ok = writeDirty n ok := by
  simp [configFlashWrite, mpRun, hrun, hpend, hhalf, hdue]

theorem flashOf_modFlash_self (c : Config) (b : Bool) (f : FlashCopy → FlashCopy) : flashOf (modFlash b f c) b = f (flashOf c b) := by
  cases b <;> rfl

theorem flashOf_modFlash_other (c : Config) (b : Bool) (f : FlashCopy → FlashCopy) : flashOf (modFlash b f c) (!b) = flashOf c (!b) := by
  cases b <;> rfl

theorem flashWritten_leaves (m : Node) (b : Bool) :
    (flashWritten m b).config.chpw = m.config.chpw ∧ (flashWritten m b).config.accounts = m.config.accounts ∧
    (flashOf (flashWritten m b).config b).accounts = m.config.accounts := by
  cases b <;> exact ⟨rfl, rfl, rfl⟩

/-- The write of configuration flash puts the hash that an accepted CHPW left into its account. -/
theorem acts_storePassword {t : Nat} {s : State} {x : NewPassword} (hx : (atInstant s t).config.chpw = some x)
    (hrun : (atInstant s t).mgt.state = .run) (hpend : (atInstant s t).config.pend = none)
    (hhalf : (atInstant s t).config.half = none) : Acts (.configFlashWrite t true) s t (fun n u =>
      u.config.chpw = none ∧ u.regs = n.regs ∧ cmdOf u 5 = (cmdOf n 5).map (fun c => { c with result := some true }) ∧
      accountOf u x.account = { accountOf n x.account with
        salt := x.salt, hash := x.hash, mustchg := false, fails := 0, lockUntil := none } ∧
      (∀ k, k ≠ x.account → accountOf u k = accountOf n k) ∧
      (flashOf u.config (firstCopy n.config)).accounts = u.config.accounts) := by
  have hdue : writeDue (atInstant s t) = true := by simp [writeDue, hx]
  refine acts_of_eq (f := fun n => configFlashWrite n true) rfl
    ((configFlashWrite_dirty hrun hpend hhalf hdue true).trans (writeDirty_done _)) ?_
  generalize atInstant s t = n at *
  obtain ⟨hchpw, hregs, hcmd, hself, hother⟩ := storePassword_leaves hx
  generalize storePassword n = m at *
  generalize firstCopy n.config = b
  obtain ⟨wchpw, wacc, wflash⟩ := flashWritten_leaves m b
  have wregs : (flashWritten m b).regs = m.regs := rfl
  have wcmd : cmdOf (flashWritten m b) 5 = cmdOf m 5 := rfl
  generalize flashWritten m b = w at *
  have hsettled := sameButSignals_settle w
  rw [SameButSignals] at hsettled
  rw [hsettled]
  refine ⟨wchpw.trans hchpw, wregs.trans hregs, wcmd.trans hcmd, (accountOf_of_accounts wacc _).trans hself,
    fun k hk => (accountOf_of_accounts wacc k).trans (hother k hk), wflash.trans wacc.symm⟩

/-! ACCT_SET and ACCT_DEL -/

section Accounts
variable {t p : Nat} {s : State}

/-- The account that ACCT_SET makes of account a, its password apart (16 R366, R367). -/
def accountAsked (n : Node) : Account :=
  { accountOf n (fld (pAcct n) 3 0) with
    en := bit (pAcct n) 16, level := fld (pAcct n) 10 8, name := (nameBytes n).takeWhile (· ≠ 0) }

/-- ACCT_SET, accepted, tests and does what the registers ask for. -/
theorem cfgAcctSetEff_accepted (n : Node) (sq : Tbl PathSeq) (cs : Tbl (Option Command)) (ss : Tbl (Option Session)) :
    cfgAcctSetEff p (acceptedWith n sq cs ss) =
      if !superRemains n (fld (pAcct n) 3 0) (accountAsked n) then failWith (acceptedWith n sq cs ss) p 11
      else if !pwRule (pwBytes n p 0) (accountAsked n).name then failWith (acceptedWith n sq cs ss) p 4
      else
        (if (accountOf n (fld (pAcct n) 3 0)).level ≠ (accountAsked n).level ∨ (accountOf n (fld (pAcct n) 3 0)).en ≠ (accountAsked n).en then
          keepParams (newPassword (modAccount (acceptedWith n sq cs ss) (fld (pAcct n) 3 0) (fun _ => accountAsked n))
            (fld (pAcct n) 3 0) (pwBytes n p 0) true) [fld (pAcct n) 3 0]
        else newPassword (modAccount (acceptedWith n sq cs ss) (fld (pAcct n) 3 0) (fun _ => accountAsked n))
            (fld (pAcct n) 3 0) (pwBytes n p 0) true, some true) := rfl

theorem acts_cfgAcctSet_fails {reason : Nat} (hok : Accepts (atInstant s t) p 6)
    (heff : ∀ sq cs ss, cfgAcctSetEff p (acceptedWith (atInstant s t) sq cs ss) = failWith (acceptedWith (atInstant s t) sq cs ss) p reason) :
    Acts (.cfgAcctSet t p) s t (fun n u => (cmdOf u 5).map (·.result) = some (some false) ∧
      u.config.accounts = n.config.accounts ∧ tget 0 u.config.result p = reason) := by
  refine acts_taken rfl hok (cfgAcctSetEff p) (fun _ => rfl) ?_
  generalize atInstant s t = n at *
  intro sq cs ss ht r hr ve o pw
  rw [heff] at hr
  subst hr
  obtain ⟨hends, hreason⟩ := failWith_leaves (m := acceptedWith n sq cs ss) ht.busy p reason
  exact ⟨hends, rfl, hreason⟩

/-- The accounts whose sessions the end of the command ends change nothing else of it. -/
theorem keepParams_leaves {n : Node} (h : (cmdOf n 5).isSome = true) (l : List Nat) :
    (cmdOf (resolveCmd (keepParams n l) 5 (some true)) 5).map (·.result) = some (some true) := by
  obtain ⟨x, hx⟩ := Option.isSome_iff_exists.mp h
  rw [cmdOf_resolveCmd, keepParams, cmdOf_setCmd_self, hx]
  rfl

theorem acts_cfgAcctSet (hok : Accepts (atInstant s t) p 6)
    (hsuper : superRemains (atInstant s t) (fld (pAcct (atInstant s t)) 3 0) (accountAsked (atInstant s t)) = true)
    (hrule : pwRule (pwBytes (atInstant s t) p 0) (accountAsked (atInstant s t)).name = true) :
    Acts (.cfgAcctSet t p) s t (fun n u => (cmdOf u 5).map (·.result) = some (some true) ∧ u.regs = n.regs ∧
      (∀ k, k ≠ fld (pAcct n) 3 0 → accountOf u k = accountOf n k) ∧
      accountOf u (fld (pAcct n) 3 0) = { accountAsked n with
        salt := Config.salt n.free, hash := pwHash (pwBytes n p 0) (Config.salt n.free), mustchg := true }) := by
  refine acts_taken rfl hok (cfgAcctSetEff p) (fun _ => rfl) ?_
  generalize atInstant s t = n at *
  intro sq cs ss ht r hr ve o pw
  rw [cfgAcctSetEff_accepted, hsuper, hrule, if_neg (by decide), if_neg (by decide)] at hr
  generalize accountAsked n = y at *
  generalize fld (pAcct n) 3 0 = a at *
  have hself : accountOf (newPassword (modAccount (acceptedWith n sq cs ss) a (fun _ => y)) a (pwBytes n p 0) true) a =
      { y with salt := Config.salt n.free, hash := pwHash (pwBytes n p 0) (Config.salt n.free), mustchg := true } := by
    rw [accountOf_newPassword_self, accountOf_modAccount_self]
    rfl
  have hother : ∀ k, k ≠ a →
      accountOf (newPassword (modAccount (acceptedWith n sq cs ss) a (fun _ => y)) a (pwBytes n p 0) true) k = accountOf n k :=
    fun k hk => (accountOf_newPassword_ne _ _ _ hk).trans (accountOf_modAccount_ne (acceptedWith n sq cs ss) _ hk)
  have hregs : (newPassword (modAccount (acceptedWith n sq cs ss) a (fun _ => y)) a (pwBytes n p 0) true).regs = n.regs := by
    unfold newPassword modAccount acceptedWith
    rfl
  have hbusy : (cmdOf (newPassword (modAccount (acceptedWith n sq cs ss) a (fun _ => y)) a (pwBytes n p 0) true) 5).isSome = true := by
    unfold newPassword modAccount acceptedWith
    exact ht.busy
  generalize newPassword (modAccount (acceptedWith n sq cs ss) a (fun _ => y)) a (pwBytes n p 0) true = m at *
  subst hr
  dsimp only
  split
  · exact ⟨keepParams_leaves hbusy [a], hregs, hother, hself⟩
  · exact ⟨ends_of_stands (n := m) rfl hbusy _, hregs, hother, hself⟩

theorem cfgAcctDelEff_accepted (n : Node) (sq : Tbl PathSeq) (cs : Tbl (Option Command)) (ss : Tbl (Option Session)) :
    cfgAcctDelEff p (acceptedWith n sq cs ss) =
      if !superRemains n (fld (pAcct n) 3 0) {} then failWith (acceptedWith n sq cs ss) p 11
      else (keepParams (modConfig (setLock (modAccount (acceptedWith n sq cs ss) (fld (pAcct n) 3 0) (fun _ => {})) (fld (pAcct n) 3 0) 0 none)
        (fun c => { c with dirty := true })) [fld (pAcct n) 3 0], some true) := rfl

theorem acts_cfgAcctDel (hok : Accepts (atInstant s t) p 7)
    (hsuper : superRemains (atInstant s t) (fld (pAcct (atInstant s t)) 3 0) {} = true) :
    Acts (.cfgAcctDel t p) s t (fun n u => (cmdOf u 5).map (·.result) = some (some true) ∧ u.regs = n.regs ∧
      accountOf u (fld (pAcct n) 3 0) = {} ∧ ∀ k, k ≠ fld (pAcct n) 3 0 → accountOf u k = accountOf n k) := by
  refine acts_taken rfl hok (cfgAcctDelEff p) (fun _ => rfl) ?_
  generalize atInstant s t = n at *
  intro sq cs ss ht r hr ve o pw
  rw [cfgAcctDelEff_accepted, hsuper, if_neg (by decide)] at hr
  generalize fld (pAcct n) 3 0 = a at *
  have hself : accountOf (setLock (modAccount (acceptedWith n sq cs ss) a (fun _ => {})) a 0 none) a = {} := by
    rw [accountOf_setLock_self, accountOf_modAccount_self]
  have hother : ∀ k, k ≠ a → accountOf (setLock (modAccount (acceptedWith n sq cs ss) a (fun _ => {})) a 0 none) k = accountOf n k :=
    fun k hk => (accountOf_setLock_ne (modAccount (acceptedWith n sq cs ss) a (fun _ => {})) 0 none hk).trans
      (accountOf_modAccount_ne (acceptedWith n sq cs ss) _ hk)
  have hregs : (setLock (modAccount (acceptedWith n sq cs ss) a (fun _ => {})) a 0 none).regs = n.regs := by
    unfold setLock modAccount acceptedWith
    rfl
  have hbusy : (cmdOf (setLock (modAccount (acceptedWith n sq cs ss) a (fun _ => {})) a 0 none) 5).isSome = true := by
    unfold setLock modAccount acceptedWith
    exact ht.busy
  generalize setLock (modAccount (acceptedWith n sq cs ss) a (fun _ => {})) a 0 none = m at *
  subst hr
  exact ⟨keepParams_leaves (n := modConfig m (fun c => { c with dirty := true })) hbusy [a], hregs, hself, hother⟩

theorem acts_cfgAcctDel_last (hok : Accepts (atInstant s t) p 7)
    (hsuper : superRemains (atInstant s t) (fld (pAcct (atInstant s t)) 3 0) {} = false) :
    Acts (.cfgAcctDel t p) s t (fun n u => (cmdOf u 5).map (·.result) = some (some false) ∧
      u.config.accounts = n.config.accounts ∧ tget 0 u.config.result p = 11) := by
  refine acts_taken rfl hok (cfgAcctDelEff p) (fun _ => rfl) ?_
  generalize atInstant s t = n at *
  intro sq cs ss ht r hr ve o pw
  rw [cfgAcctDelEff_accepted, hsuper, if_pos (by decide)] at hr
  subst hr
  obtain ⟨hends, hreason⟩ := failWith_leaves (m := acceptedWith n sq cs ss) ht.busy p 11
  exact ⟨hends, rfl, hreason⟩

end Accounts

/-- Settles O55. -/
theorem accountsAndPasswords : Obligations.AccountsAndPasswords := by
  intro t p s
  dsimp only
  refine ⟨fun x hok hx hl => ⟨fun hpw => ⟨fun hrule hdiff => acts_cfgChpw_taken hok hx hl hpw hrule hdiff,
      fun hnew => acts_cfgChpw_rule hok hx hl hpw hnew⟩, fun hpw => acts_cfgChpw_wrong hok hx hl hpw⟩,
    fun x hok hx hl => acts_cfgChpw_locked hok hx hl, fun x hx hrun hpend hhalf => acts_storePassword hx hrun hpend hhalf,
    fun hok => ⟨fun hsuper hrule => acts_cfgAcctSet hok hsuper hrule, fun hsuper => acts_cfgAcctSet_fails hok fun sq cs ss => ?_,
      fun hsuper hrule => acts_cfgAcctSet_fails hok fun sq cs ss => ?_⟩,
    fun hok => ⟨acts_cfgAcctDel hok, acts_cfgAcctDel_last hok⟩⟩
  · rw [cfgAcctSetEff_accepted]
    exact if_pos (by rw [accountAsked, hsuper]; rfl)
  · rw [cfgAcctSetEff_accepted, if_neg (by rw [accountAsked, hsuper]; decide)]
    exact if_pos (by rw [accountAsked, hrule]; rfl)

end Sys2Proof.Machine
end

section
/-! PROOF. A verified image takes effect: the staged values become the active ones (16 R379). -/

namespace Sys2Proof.Machine

/-- The registers, the values staged and the image in work stand. -/
structure ImageKept (n u : Node) : Prop where
  regs : u.regs = n.regs
  staged : u.staged = n.staged
  pend : u.config.pend = n.config.pend

theorem ImageKept.refl (n : Node) : ImageKept n n := ⟨rfl, rfl, rfl⟩

theorem ImageKept.trans {a b c : Node} (h : ImageKept a b) (k : ImageKept b c) : ImageKept a c :=
  ⟨k.regs.trans h.regs, k.staged.trans h.staged, k.pend.trans h.pend⟩

theorem imageKept_ite {p : Prop} [Decidable p] {n a b : Node} (ha : ImageKept n a) (hb : ImageKept n b) :
    ImageKept n (if p then a else b) := pred_ite ha hb

theorem imageKept_foldl {α : Type} {f : Node → α → Node} (h : ∀ n x, ImageKept n (f n x)) (l : List α) (n : Node) :
    ImageKept n (l.foldl f n) := foldl_rel ImageKept.refl ImageKept.trans h l n

theorem imageKept_of_rec {n u : Node} (h : RecFrame n u) : ImageKept n u := by
  obtain ⟨_, _, _, _, _, rfl, -⟩ := h
  exact ⟨rfl, rfl, rfl⟩

theorem imageKept_of_saf {n u : Node} (h : SafFrame n u) : ImageKept n u := by
  rw [SafFrame] at h
  rw [h]
  exact ⟨rfl, rfl, rfl⟩

theorem imageKept_of_fns {n u : Node} (h : FnsMove n u) : ImageKept n u := by
  obtain ⟨_, _, rfl⟩ := h
  exact ⟨rfl, rfl, rfl⟩

theorem imageKept_modAcq (n : Node) (ch : Nat) (f : Acq → Acq) : ImageKept n (modAcq n ch f) := ⟨rfl, rfl, rfl⟩
theorem imageKept_modFront (n : Node) (ch : Nat) (f : Front → Front) : ImageKept n (modFront n ch f) := ⟨rfl, rfl, rfl⟩
theorem imageKept_modDiag (n : Node) (ch : Nat) (f : Diag → Diag) : ImageKept n (modDiag n ch f) := ⟨rfl, rfl, rfl⟩
theorem imageKept_modPoint (n : Node) (k : Nat) (f : Point → Point) : ImageKept n (modPoint n k f) := ⟨rfl, rfl, rfl⟩
theorem imageKept_modGroup (n : Node) (g : Nat) (f : AlmGroup → AlmGroup) : ImageKept n (modGroup n g f) := ⟨rfl, rfl, rfl⟩
theorem imageKept_modCap (n : Node) (k : Nat) (f : Capture → Capture) : ImageKept n (modCap n k f) := ⟨rfl, rfl, rfl⟩

theorem imageKept_reconfigureCh (n : Node) (ch : Nat) (newSel : Bool) : ImageKept n (reconfigureCh n ch newSel) := by
  unfold reconfigureCh
  extract_lets off keepOpen exc meas n₁ n₂ o n₃ n₄
  have h₄ : ImageKept n n₄ := (((imageKept_modAcq n ch _).trans (imageKept_modFront n₁ ch _)).trans (imageKept_modFront n₂ ch _)).trans
    (imageKept_modDiag n₃ ch _)
  generalize n₄ = m at h₄
  have hoff : ImageKept m { m with res := erase m.res ch, acqs := erase m.acqs ch, fronts := erase m.fronts ch } := ⟨rfl, rfl, rfl⟩
  exact imageKept_ite (h₄.trans (hoff.trans (imageKept_modDiag _ ch _))) h₄

theorem imageKept_recheck (n : Node) (ks : List Nat) : ImageKept n (recheck n ks) := imageKept_foldl (fun n k => imageKept_modPoint n k _) ks n

theorem imageKept_almParam (n : Node) (key : Nat) (old new : Word) : ImageKept n (almParam n key old new) := by
  unfold almParam
  extract_lets m k
  have h₁ : ImageKept n m := imageKept_ite (.refl n) (imageKept_recheck n _)
  have h₂ : ImageKept n k := by
    simp only [k]
    split
    · exact imageKept_ite (h₁.trans (imageKept_modPoint m _ _)) h₁
    · exact h₁
  split
  · exact imageKept_ite h₂ (h₂.trans (imageKept_modGroup k _ _))
  · exact h₂

theorem imageKept_idleCaptures (chs : List Nat) (n : Node) : ImageKept n (idleCaptures chs n) :=
  imageKept_foldl (f := fun n d =>
    if (capSlots n d).any (fun e => chs.contains e.2) then modCap n d (fun c => { c with state := .idle, slots := [] }) else n)
    (fun n d => imageKept_ite (imageKept_modCap n d _) (.refl n)) (List.range 8) n

theorem imageKept_restartPair (n : Node) (k : Nat) : ImageKept n (restartPair n k) := by
  unfold restartPair
  split
  · exact imageKept_foldl (f := fun n c => modEval n c k _) (fun n c => imageKept_of_saf (safFrame_modEval n c k _)) (List.range 3) n
  · extract_lets had n₁ n₂ n₃
    have h₁ : ImageKept n n₁ :=
      imageKept_foldl (f := fun n c => modEval n c k (fun _ => {})) (fun n c => imageKept_of_saf (safFrame_modEval n c k _)) (List.range 3) n
    have h₂ : ImageKept n n₂ := h₁.trans (imageKept_of_saf (safFrame_modPair n₁ k _))
    have h₃ : ImageKept n n₃ := h₂.trans (imageKept_ite (imageKept_of_rec (recFrame_note n₂ _)) (.refl n₂))
    exact h₃.trans (imageKept_of_saf (safFrame_modPair n₃ k _))

theorem imageKept_offFns (was n : Node) : ImageKept n (offFns was n) :=
  imageKept_foldl (f := fun n s => raiseFn (modFn n s (fun _ => {})) (fnOf n s).state .off)
    (fun n s => (imageKept_of_saf (safFrame_modFn n s _)).trans (imageKept_of_fns (fnsMove_raiseFn _ _ _))) _ n

theorem imageKept_loadMap (n : Node) : ImageKept n (loadMap n) := by
  unfold loadMap
  extract_lets crc n₁ n₂
  have h₁ : ImageKept n n₁ := imageKept_foldl (fun n s => imageKept_of_saf (safFrame_modFn n s _)) _ n
  have h₂ : ImageKept n n₂ := h₁.trans (imageKept_of_saf (safFrame_modSafety n₁ _))
  exact h₂.trans (imageKept_foldl (fun n c => imageKept_of_saf (safFrame_modCopy n c _)) _ n₂)

/-- What the new values make of the node leaves the values themselves. -/
theorem imageKept_takeChanges (was : Node) (ks : List Nat) (n : Node) : ImageKept n (takeChanges was ks n) := by
  unfold takeChanges
  extract_lets chs n₁ n₂ n₃ n₄ n₅ n₆
  have h₁ : ImageKept n n₁ := imageKept_foldl (fun n ch => imageKept_reconfigureCh n ch _) chs n
  have h₂ : ImageKept n n₂ := h₁.trans ((imageKept_idleCaptures chs n₁).trans (imageKept_recheck _ _))
  have h₃ : ImageKept n n₃ := h₂.trans (imageKept_foldl (fun n k => imageKept_almParam n k _ _) ks n₂)
  have h₄ : ImageKept n n₄ := h₃.trans (imageKept_foldl imageKept_restartPair _ n₃)
  have h₅ : ImageKept n n₅ := h₄.trans (imageKept_foldl (fun n o => imageKept_of_saf (safFrame_modOutput n o _)) _ n₄)
  have h₆ : ImageKept n n₆ := h₅.trans (imageKept_offFns was n₅)
  exact h₆.trans ((imageKept_of_fns (fnsMove_lockFns n₆ _ 13)).trans (imageKept_loadMap _))

/-! The values -/

/-- A value takes effect with its entry in the change log. -/
theorem reg_commitKey (account : Nat) (hseq : BitVec 16) (n : Node) (e : Nat × Word) (k : Nat) :
    reg (commitKey account hseq n e) k = if k = e.1 then e.2 else reg n k := by
  have hlog : ∀ x : LogEntry, (logChange n x oMp).regs = n.regs := by
    intro x
    obtain ⟨heq, -⟩ := sessFrame_logChange n x oMp
    rw [heq]
  by_cases hk : k = e.1
  · rw [if_pos hk, hk]
    exact reg_setReg_self _ e.1 e.2
  · rw [if_neg hk]
    exact (reg_setReg_ne _ e.2 hk).trans (reg_of_regs (hlog _) k)

theorem reg_commitKeys_other (account : Nat) (hseq : BitVec 16) {k : Nat} (es : List (Nat × Word)) (n : Node)
    (h : k ∉ es.map Prod.fst) : reg (es.foldl (commitKey account hseq) n) k = reg n k := by
  induction es generalizing n with
  | nil => rfl
  | cons e es ih =>
    rw [List.map_cons, List.mem_cons, not_or] at h
    rw [List.foldl_cons, ih _ h.2, reg_commitKey, if_neg h.1]

theorem reg_commitKeys (account : Nat) (hseq : BitVec 16) (es : List (Nat × Word)) (n : Node) (hnd : (es.map Prod.fst).Nodup) :
    ∀ e ∈ es, reg (es.foldl (commitKey account hseq) n) e.1 = e.2 := by
  induction es generalizing n with
  | nil => simp
  | cons x es ih =>
    rw [List.map_cons, List.nodup_cons] at hnd
    intro e he
    rw [List.foldl_cons]
    rcases List.mem_cons.mp he with rfl | he
    · rw [reg_commitKeys_other account hseq es _ hnd.1, reg_commitKey, if_pos rfl]
    · exact ih _ hnd.2 e he

/-- The values take effect with their entries in the change log, then what they make of the node. -/
theorem applyImage_due {n : Node} {x : Pending} (hx : n.config.pend = some x)
    (h : (x.verified && isConfig n && !lanesNone n) = true) :
    ∃ m, applyImage n = raise (takeChanges n ((stagedChanges (takeStages n)).map Prod.fst) m) 5 4 ∧
      m.regs = ((stagedChanges (takeStages n)).foldl (commitKey (confirmer n).1 (confirmer n).2.2) n).regs ∧
      m.staged = [] ∧ m.config.pend = some { x with verified := false } := by
  unfold applyImage
  rw [hx]
  dsimp only
  rw [if_pos h]
  generalize (stagedChanges (takeStages n)).foldl (commitKey (confirmer n).1 (confirmer n).2.2) n = m
  exact ⟨_, rfl, rfl, rfl, rfl⟩

theorem applyImage_waits {n : Node} {x : Pending} (hx : n.config.pend = some x)
    (h : (x.verified && isConfig n && !lanesNone n) = false) : applyImage n = n := by
  unfold applyImage
  rw [hx]
  dsimp only
  rw [h]
  rfl

/-- Beside its values an image leaves nothing staged, and the rest of its write due. -/
theorem applyImage_taken {n : Node} {x : Pending} (hx : n.config.pend = some x)
    (h : (x.verified && isConfig n && !lanesNone n) = true) :
    ∃ u, applyImage n = raise u 5 4 ∧ u.staged = [] ∧ u.config.pend = some { x with verified := false } ∧
      u.regs = ((stagedChanges (takeStages n)).foldl (commitKey (confirmer n).1 (confirmer n).2.2) n).regs := by
  obtain ⟨m, heq, hmregs, hmstaged, hmpend⟩ := applyImage_due hx h
  obtain ⟨hregs, hstaged, hpend⟩ := imageKept_takeChanges n ((stagedChanges (takeStages n)).map Prod.fst) m
  exact ⟨_, heq, hstaged.trans hmstaged, hpend.trans hmpend, hregs.trans hmregs⟩

/-- An image that is verified takes effect in CONFIG while lanes compute. -/
theorem applyImage_leaves {n : Node} {x : Pending} (hx : n.config.pend = some x) (hv : x.verified = true) (hc : isConfig n = true)
    (hl : lanesNone n = false) : (applyImage n).staged = [] ∧ (applyImage n).config.pend = some { x with verified := false } ∧
    bit (headerOf (applyImage n) 5).irqStat 4 = true ∧
    (((stagedChanges (takeStages n)).map Prod.fst).Nodup → ∀ e ∈ stagedChanges (takeStages n), reg (applyImage n) e.1 = e.2) ∧
    ∀ k, k ∉ (stagedChanges (takeStages n)).map Prod.fst → reg (applyImage n) k = reg n k := by
  obtain ⟨u, heq, hstaged, hpend, hregs⟩ := applyImage_taken hx (by rw [hv, hc, hl]; rfl)
  have hreg : ∀ k, reg (raise u 5 4) k = reg ((stagedChanges (takeStages n)).foldl (commitKey (confirmer n).1 (confirmer n).2.2) n) k :=
    fun k => reg_of_regs (m := raise u 5 4) hregs k
  rw [heq]
  refine ⟨hstaged, hpend, bit_raise (by decide), fun hnd e he => ?_, fun k hk => ?_⟩
  · rw [hreg, reg_commitKeys _ _ _ n hnd e he]
  · rw [hreg, reg_commitKeys_other _ _ _ n hk]

end Sys2Proof.Machine
end

section
/-! PROOF. COMMIT, DISCARD and CONFIRM, and the end of the confirmation window (16 R377 to R379). -/

namespace Sys2Proof.Machine

/-! Discarding -/

/-- An image whose CONFIRM has not been accepted goes with everything staged. -/
theorem discardImage_pending {n : Node} {x : Pending} (hx : n.config.pend = some x) (hc : x.confirmed = false)
    (account level : Nat) (who : LogBy) :
    (discardImage n account level who).staged = [] ∧ (discardImage n account level who).config.pend = none := by
  have hfail : ∀ m : Node, (failCommit m).staged = m.staged := by
    intro m
    unfold failCommit
    split
    · exact pred_ite (P := fun u : Node => u.staged = m.staged) rfl rfl
    · rfl
  unfold discardImage
  rw [hx]
  dsimp only
  rw [if_neg (by simp [hc])]
  generalize hm : failCommit (dropValues n who) = m
  have hstaged : m.staged = [] := by
    rw [← hm, hfail]
    rfl
  obtain ⟨hr, hs, hp⟩ := imageKept_of_rec (recFrame_note { m with config := { m.config with pend := none } }
    (recSession { m with config := { m.config with pend := none } } 8 level account x.check 0 0))
  exact ⟨hs.trans hstaged, hp⟩

theorem regs_discardImage (n : Node) (account level : Nat) (who : LogBy) : (discardImage n account level who).regs = n.regs := by
  obtain ⟨heq, -⟩ := sessFrame_discardImage n account level who
  rw [heq]

section Commands
variable {t p : Nat} {s : State} {x : Pending}

/-! COMMIT -/

/-- A command that its state rules out is not accepted. -/
theorem state_of_accept {n : Node} {q : Nat} {k : CmdCheck} (h : judge n p q k = .accept) : k.state = true := by
  cases hs : k.state with
  | true => rfl
  | false =>
    simp only [judge, hs, Bool.not_false, Bool.true_or, if_true] at h
    repeat' split at h
    all_goals exact Verdict.noConfusion h

/-- A COMMIT that is accepted finds no image in work. -/
theorem pend_of_commit {n : Node} (h : judge n p 5 (cfgCmdCheck n p (BitVec.ofNat 32 4)) = .accept) : n.config.pend = none := by
  have hstate := state_of_accept h
  have hcheck : (cfgCmdCheck n p (BitVec.ofNat 32 4)).state = (isConfig n && !imagePending n) := rfl
  rw [hcheck, Bool.and_eq_true, Bool.not_eq_true', imagePending, Option.isSome_eq_false_iff, Option.isNone_iff_eq_none] at hstate
  exact hstate.2

/-- An accepted COMMIT, with what acceptance leaves put in. -/
theorem acts_commit {agree : Bool} {P : Node → Node → Prop} (hok : Accepts (atInstant s t) p 4)
    (hP : ∀ m, (cmdOf m 5).isSome = true → acceptCmd (atInstant s t) p 5 (at_ 5 0x5C) 4 = m → m.now = (atInstant s t).now →
      m.regs = (atInstant s t).regs → m.staged = (atInstant s t).staged → m.config.pend = none →
      ∀ r, cfgCommitEff agree p m = r →
        ∀ ve o pw, P (atInstant s t) (besidesReply (resolveCmd r.1 5 r.2) ve o pw)) :
    Acts (.cfgCommit t { path := p, agree := agree }) s t P := by
  obtain ⟨hreach, hacc⟩ := hok
  have hcarries : carries (atInstant s t) p := hreach.resolve_right fun h => absurd h.1 (by decide)
  have hpend := pend_of_commit hacc
  refine acts_cfgWrite (f := fun n => cfgCmdWriteAs agree n p 4) rfl (.inl hcarries) (cfgCmdWriteAs_accept hacc agree) ?_
  obtain ⟨sq, cs, ss, hm, hcmd, -, -⟩ := acceptCmd_eq (atInstant s t) p (at_ 5 0x5C) 4
  have hbusy : (tget none cs 5).isSome = true := by
    have h := congrArg Option.isSome hcmd
    rwa [Option.isSome_map] at h
  refine hP (acceptCmd (atInstant s t) p 5 (at_ 5 0x5C) 4) ?_ rfl ?_ ?_ ?_ ?_ _ rfl
  · rw [hm]
    exact hbusy
  · rw [hm]
    rfl
  · rw [hm]
    rfl
  · rw [hm]
    rfl
  · rw [hm]
    exact hpend

/-- The first check that fails ends COMMIT with its number. -/
theorem acts_commit_fails {agree : Bool} {f : Nat × Nat} (hok : Accepts (atInstant s t) p 4)
    (hf : commitFail (stagedView (takeStages (acceptCmd (atInstant s t) p 5 (at_ 5 0x5C) 4))) = some f) :
    Acts (.cfgCommit t { path := p, agree := agree }) s t (fun n u => (cmdOf u 5).map (·.result) = some (some false) ∧
      u.config.cfail = f ∧ u.config.pend = none ∧ tget 0 u.config.result p = 6 ∧ u.regs = n.regs ∧ u.staged = n.staged) := by
  refine acts_commit hok ?_
  intro m hbusy hm hnow hregs hstaged hpend r hr ve o pw
  rw [hm] at hf
  generalize atInstant s t = n at *
  unfold cfgCommitEff at hr
  dsimp only at hr
  rw [hf] at hr
  subst hr
  obtain ⟨_, _, _, _, _, heq, -⟩ := recFrame_note (modConfig m (fun c => { c with cfail := f }))
    (recSession (modConfig m (fun c => { c with cfail := f })) 9 (pathLevel m p) (pathAccount m p) 0 f.1 f.2)
  dsimp only
  generalize note (modConfig m (fun c => { c with cfail := f }))
    (recSession (modConfig m (fun c => { c with cfail := f })) 9 (pathLevel m p) (pathAccount m p) 0 f.1 f.2) = k at *
  subst heq
  obtain ⟨hends, hreason⟩ := failWith_leaves hbusy p 6
  exact ⟨hends, rfl, hpend, tget_tset_self 0 m.config.result p 6, hregs, hstaged⟩

/-- Check values of the lanes that differ end COMMIT. -/
theorem acts_commit_differs (hok : Accepts (atInstant s t) p 4)
    (hf : commitFail (stagedView (takeStages (acceptCmd (atInstant s t) p 5 (at_ 5 0x5C) 4))) = none) :
    Acts (.cfgCommit t { path := p, agree := false }) s t (fun n u => (cmdOf u 5).map (·.result) = some (some false) ∧
      u.config.pend = none ∧ tget 0 u.config.result p = 7 ∧ u.regs = n.regs ∧ u.staged = n.staged) := by
  refine acts_commit hok ?_
  intro m hbusy hm hnow hregs hstaged hpend r hr ve o pw
  rw [hm] at hf
  generalize atInstant s t = n at *
  unfold cfgCommitEff at hr
  dsimp only at hr
  rw [hf] at hr
  subst hr
  obtain ⟨hends, hreason⟩ := failWith_leaves hbusy p 7
  exact ⟨hends, hpend, hreason, hregs, hstaged⟩

/-- An image that passes is PENDING, and its confirmation window opens. -/
theorem acts_commit_passes (hok : Accepts (atInstant s t) p 4)
    (hf : commitFail (stagedView (takeStages (acceptCmd (atInstant s t) p 5 (at_ 5 0x5C) 4))) = none) :
    Acts (.cfgCommit t { path := p }) s t (fun n u => (cmdOf u 5).map (·.result) = some (some true) ∧
      u.config.pend = some {
        check := imageCheck (stagedView (takeStages (acceptCmd (atInstant s t) p 5 (at_ 5 0x5C) 4))), until_ := n.now + 600000000000,
        period := fld (reg (stagedView (takeStages (acceptCmd (atInstant s t) p 5 (at_ 5 0x5C) 4))) (at_ 1 0x64)) 3 0 } ∧
      bit (headerOf u 5).irqStat 1 = true ∧ u.regs = n.regs ∧ u.staged = n.staged) := by
  refine acts_commit hok ?_
  intro m hbusy hm hnow hregs hstaged hpend r hr ve o pw
  rw [hm] at hf ⊢
  generalize atInstant s t = n at *
  unfold cfgCommitEff at hr
  dsimp only at hr
  rw [hf] at hr
  dsimp only at hr
  rw [if_pos rfl, hnow] at hr
  generalize stagedView (takeStages m) = v at *
  have hbeside := note_beside (modConfig m (fun c => { c with pend := some {
    check := imageCheck v, until_ := n.now + 600000000000, period := fld (reg v (at_ 1 0x64)) 3 0 } }))
  have hkept := fun r => imageKept_of_rec (recFrame_note (modConfig m (fun c => { c with pend := some {
    check := imageCheck v, until_ := n.now + 600000000000, period := fld (reg v (at_ 1 0x64)) 3 0 } })) r)
  subst hr
  dsimp only
  specialize hbeside (recSession (modConfig m (fun c => { c with pend := some {
    check := imageCheck v, until_ := n.now + 600000000000, period := fld (reg v (at_ 1 0x64)) 3 0 } })) 6 (pathLevel m p) (pathAccount m p)
    (imageCheck v) 0 0)
  specialize hkept (recSession (modConfig m (fun c => { c with pend := some {
    check := imageCheck v, until_ := n.now + 600000000000, period := fld (reg v (at_ 1 0x64)) 3 0 } })) 6 (pathLevel m p) (pathAccount m p)
    (imageCheck v) 0 0)
  generalize note (modConfig m (fun c => { c with pend := some {
    check := imageCheck v, until_ := n.now + 600000000000, period := fld (reg v (at_ 1 0x64)) 3 0 } })) _ = k at *
  obtain ⟨-, -, kcmds, -, -⟩ := hbeside
  obtain ⟨kregs, kstaged, kpend⟩ := hkept
  have hends := ends_of_stands (u := raise k 5 1) (stands_of_cmds (n := m) kcmds) hbusy (some true)
  exact ⟨hends, kpend, bit_raise (by decide), kregs.trans hregs, kstaged.trans hstaged⟩

/-! DISCARD -/

theorem acts_discard_none (hok : Accepts (atInstant s t) p 5) (hx : (atInstant s t).config.pend = none) :
    Acts (.cfgDiscard t p) s t (fun n u => (cmdOf u 5).map (·.result) = some (some false) ∧
      tget 0 u.config.result p = 8 ∧ u.staged = n.staged ∧ u.regs = n.regs) := by
  refine acts_taken rfl hok (cfgDiscardEff p) (fun _ => rfl) ?_
  generalize atInstant s t = n at *
  intro sq cs ss ht r hr ve o pw
  have heff : cfgDiscardEff p (acceptedWith n sq cs ss) = failWith (acceptedWith n sq cs ss) p 8 := by
    have hpend : (acceptedWith n sq cs ss).config.pend = none := hx
    unfold cfgDiscardEff
    rw [hpend]
  rw [heff] at hr
  subst hr
  obtain ⟨hends, hreason⟩ := failWith_leaves (m := acceptedWith n sq cs ss) ht.busy p 8
  exact ⟨hends, hreason, rfl, rfl⟩

theorem acts_discard (hok : Accepts (atInstant s t) p 5) (hx : (atInstant s t).config.pend = some x) (hc : x.confirmed = false) :
    Acts (.cfgDiscard t p) s t (fun n u => (cmdOf u 5).map (·.result) = some (some true) ∧ u.config.pend = none ∧
      u.staged = [] ∧ u.regs = n.regs) := by
  refine acts_taken rfl hok (cfgDiscardEff p) (fun _ => rfl) ?_
  generalize atInstant s t = n at *
  intro sq cs ss ht r hr ve o pw
  generalize hm : acceptedWith n sq cs ss = m at hr
  have hpend : m.config.pend = some x := by rw [← hm]; exact hx
  have hbusy : (cmdOf m 5).isSome = true := by rw [← hm]; exact ht.busy
  have hregs : m.regs = n.regs := by rw [← hm]; rfl
  have heff : cfgDiscardEff p m =
      (discardImage m (pathAccount m p) ((sessionLevel m p).getD 0) (byPath m p), some true) := by
    unfold cfgDiscardEff
    rw [hpend]
  rw [heff] at hr
  subst hr
  obtain ⟨dstaged, dpend⟩ := discardImage_pending hpend hc (pathAccount m p) ((sessionLevel m p).getD 0) (byPath m p)
  have hends := ends_of_stands (stands_discardImage m (pathAccount m p) ((sessionLevel m p).getD 0) (byPath m p)) hbusy (some true)
  have dregs := regs_discardImage m (pathAccount m p) ((sessionLevel m p).getD 0) (byPath m p)
  dsimp only
  generalize discardImage m (pathAccount m p) ((sessionLevel m p).getD 0) (byPath m p) = d at *
  exact ⟨hends, dpend, dstaged, dregs.trans hregs⟩

/-! CONFIRM -/

/-- The window stands open, so the write is judged as it is. -/
theorem endWindow_open {n : Node} {past : Nat → Bool} (h : windowClosed n past = false) : endWindow n past = n := by
  rw [endWindow, h]
  rfl

/-- The check of a CONFIRM (16 R379). -/
abbrev confirmCheck (n : Node) (p : Nat) : CmdCheck := { state := isConfig n, level := levelOk n p 3 }

/-- An accepted CONFIRM, within the window of an image that waits. -/
theorem acts_confirm {v : Word} {P : Node → Node → Prop} (hcarries : carries (atInstant s t) p)
    (hacc : judge (atInstant s t) p 5 (confirmCheck (atInstant s t) p) = .accept) (hx : (atInstant s t).config.pend = some x)
    (hopen : (atInstant s t).now ≤ x.until_)
    (hP : ∀ m, (cmdOf m 5).isSome = true → m.regs = (atInstant s t).regs → m.staged = (atInstant s t).staged →
      m.config.pend = some x → ∀ r, cfgConfirmEff p v m = r →
        ∀ ve o pw, P (atInstant s t) (besidesReply (resolveCmd r.1 5 r.2) ve o pw)) :
    Acts (.cfgConfirm t p v) s t P := by
  have hwindow : windowClosed (atInstant s t) (fun u => decide (u < (atInstant s t).now)) = false := by
    simp only [windowClosed, hx, Nat.not_lt.mpr hopen, decide_false, Bool.and_false]
  have hf : cfgConfirmWrite (atInstant s t) p v = clearRefused (cmdOf (atInstant s t) 5) p
      (resolveCmd (cfgConfirmEff p v (acceptCmd (atInstant s t) p 5 (at_ 5 0x54) v)).1 5
        (cfgConfirmEff p v (acceptCmd (atInstant s t) p 5 (at_ 5 0x54) v)).2) := by
    unfold cfgConfirmWrite
    dsimp only
    rw [endWindow_open hwindow, if_neg (hseq_ne_of_accept hacc), runCommand_accept hacc]
  refine acts_cfgWrite (f := fun n => cfgConfirmWrite n p v) rfl (.inl hcarries) hf ?_
  obtain ⟨sq, cs, ss, hm, hcmd, -, -⟩ := acceptCmd_eq (atInstant s t) p (at_ 5 0x54) v
  have hbusy : (tget none cs 5).isSome = true := by
    have h := congrArg Option.isSome hcmd
    rwa [Option.isSome_map] at h
  refine hP (acceptCmd (atInstant s t) p 5 (at_ 5 0x54) v) ?_ ?_ ?_ ?_ _ rfl
  · rw [hm]
    exact hbusy
  · rw [hm]
    rfl
  · rw [hm]
    rfl
  · rw [hm]
    exact hx

theorem acts_confirm_equal (hcarries : carries (atInstant s t) p)
    (hacc : judge (atInstant s t) p 5 (confirmCheck (atInstant s t) p) = .accept) (hx : (atInstant s t).config.pend = some x)
    (hopen : (atInstant s t).now ≤ x.until_) : Acts (.cfgConfirm t p x.check) s t (fun n u =>
      (cmdOf u 5).map (·.result) = some none ∧ u.config.pend = some { x with confirmed := true } ∧ u.staged = n.staged ∧
      u.regs = n.regs) := by
  refine acts_confirm hcarries hacc hx hopen ?_
  intro m hbusy hregs hstaged hpend r hr ve o pw
  generalize atInstant s t = n at *
  unfold cfgConfirmEff at hr
  rw [hpend] at hr
  dsimp only at hr
  rw [if_pos rfl] at hr
  subst hr
  obtain ⟨y, hy⟩ := Option.isSome_iff_exists.mp hbusy
  refine ⟨?_, rfl, hstaged, hregs⟩
  change (cmdOf (resolveCmd (keepParams m [pathAccount m p, pathLevel m p]) 5 none) 5).map (·.result) = _
  rw [cmdOf_resolveCmd, keepParams, cmdOf_setCmd_self, hy]
  rfl

theorem acts_confirm_unequal {v : Word} (hcarries : carries (atInstant s t) p)
    (hacc : judge (atInstant s t) p 5 (confirmCheck (atInstant s t) p) = .accept) (hx : (atInstant s t).config.pend = some x)
    (hc : x.confirmed = false) (hopen : (atInstant s t).now ≤ x.until_) (hv : v ≠ x.check) : Acts (.cfgConfirm t p v) s t (fun n u =>
      (cmdOf u 5).map (·.result) = some (some false) ∧ u.regs = n.regs ∧ tget 0 u.config.result p = 9 ∧
      (x.unequal < 2 → u.config.pend = some { x with unequal := x.unequal + 1 } ∧ u.staged = n.staged) ∧
      (2 ≤ x.unequal → u.config.pend = none ∧ u.staged = [])) := by
  refine acts_confirm hcarries hacc hx hopen ?_
  intro m hbusy hregs hstaged hpend r hr ve o pw
  generalize atInstant s t = n at *
  unfold cfgConfirmEff at hr
  rw [hpend] at hr
  dsimp only at hr
  rw [if_neg hv] at hr
  generalize hk : modConfig m (fun c => { c with pend := some { x with unequal := x.unequal + 1 } }) = k at hr
  have kbusy : (cmdOf k 5).isSome = true := by rw [← hk]; exact hbusy
  have kregs : k.regs = n.regs := by rw [← hk]; exact hregs
  have kstaged : k.staged = n.staged := by rw [← hk]; exact hstaged
  have kpend : k.config.pend = some { x with unequal := x.unequal + 1 } := by rw [← hk]; rfl
  by_cases h3 : x.unequal + 1 < 3
  · rw [if_pos h3] at hr
    subst hr
    obtain ⟨hends, hreason⟩ := failWith_leaves kbusy p 9
    exact ⟨hends, kregs, hreason, fun _ => ⟨kpend, kstaged⟩, fun h => absurd h3 (by omega)⟩
  · rw [if_neg h3] at hr
    obtain ⟨dstaged, dpend⟩ := discardImage_pending kpend hc (pathAccount k p) (pathLevel k p) (byPath k p)
    have hstands := stands_discardImage k (pathAccount k p) (pathLevel k p) (byPath k p)
    have dregs := regs_discardImage k (pathAccount k p) (pathLevel k p) (byPath k p)
    generalize discardImage k (pathAccount k p) (pathLevel k p) (byPath k p) = d at *
    subst hr
    have hends := ends_of_stands (u := setReason d p 9) hstands kbusy (some false)
    exact ⟨hends, dregs.trans kregs, tget_tset_self 0 d.config.result p 9, fun h => absurd (by omega) h3, fun _ => ⟨dpend, dstaged⟩⟩

/-! The window -/

theorem discardEdit_eq (n : Node) : ∃ a l, discardEdit n = discardImage n a l byNode := by
  unfold discardEdit
  split <;> exact ⟨_, _, rfl⟩

theorem acts_windowExpires (hx : (atInstant s t).config.pend = some x) (hc : x.confirmed = false)
    (hdue : x.until_ ≤ (atInstant s t).now) : Acts (.confirmWindowExpire t) s t (fun n u =>
      u.config.pend = none ∧ u.staged = [] ∧ bit (headerOf u 5).irqStat 5 = true ∧ u.regs = n.regs) := by
  have hclosed : windowClosed (atInstant s t) (fun u => decide (u ≤ (atInstant s t).now)) = true := by
    simp [windowClosed, hx, hc, hdue]
  refine acts_of_eq (f := confirmWindowExpire) (m := raise (discardEdit (atInstant s t)) 5 5) rfl (if_pos hclosed) ?_
  generalize atInstant s t = n at *
  obtain ⟨a, l, heq⟩ := discardEdit_eq n
  obtain ⟨dstaged, dpend⟩ := discardImage_pending hx hc a l byNode
  have dregs := regs_discardImage n a l byNode
  rw [← heq] at dstaged dpend dregs
  generalize discardEdit n = d at *
  have hsettled := sameButSignals_settle (raise d 5 5)
  rw [SameButSignals] at hsettled
  rw [hsettled]
  exact ⟨dpend, dstaged, bit_raise (p := 5) (by decide), dregs⟩

theorem acts_windowStands (h : windowClosed (atInstant s t) (fun u => decide (u ≤ (atInstant s t).now)) = false) :
    Acts (.confirmWindowExpire t) s t (fun n u => SameButSignals u n) :=
  acts_same (f := confirmWindowExpire) rfl (endWindow_open h)

theorem windowClosed_none {n : Node} (h : n.config.pend = none) (past : Nat → Bool) : windowClosed n past = false := by
  simp only [windowClosed, h]

theorem windowClosed_stands {n : Node} (hx : n.config.pend = some x) {past : Nat → Bool} (h : x.confirmed = true ∨ past x.until_ = false) :
    windowClosed n past = false := by
  rcases h with h | h <;> simp [windowClosed, hx, h]

end Commands

end Sys2Proof.Machine
end

section
/-! PROOF. The writes of configuration flash (16 R383). -/

namespace Sys2Proof.Machine

/-- What an event leaves once the interrupts have settled, told of the node before they do. -/
theorem acts_config {c : Instr} {s : State} {t : Nat} {f : Node → Node} {m : Node} {P : Node → Node → Prop}
    (hc : exec c s = .next (onNode s t f)) (hm : f (atInstant s t) = m)
    (h : ∀ ve o, P (atInstant s t) { m with vectors := ve, outs := o }) : Acts c s t P := by
  refine acts_of_eq hc hm ?_
  have hsettled := sameButSignals_settle m
  rw [SameButSignals] at hsettled
  rw [hsettled]
  exact h _ _

section Writes
variable {t : Nat} {s : State} {x : Pending}

theorem configFlashWrite_down {n : Node} (h : n.mgt.state ≠ .run) (ok : Bool) : configFlashWrite n ok = n :=
  if_pos (by simp [mpRun, h])

theorem configFlashWrite_image {n : Node} (hrun : n.mgt.state = .run) (hx : n.config.pend = some x) (hc : x.confirmed = true)
    (hh : n.config.half = none) (ok : Bool) : configFlashWrite n ok = writeImage n x ok := by
  simp [configFlashWrite, mpRun, hrun, hx, hh, hc]

theorem configFlashWrite_other {n : Node} {b : Bool} (hrun : n.mgt.state = .run) (hh : n.config.half = some b)
    (hx : n.config.pend = none ∨ (n.config.pend = some x ∧ x.first = false)) (ok : Bool) : configFlashWrite n ok = writeOther n b ok := by
  rcases hx with hx | ⟨hx, hf⟩ <;> simp [configFlashWrite, mpRun, *]

theorem configFlashWrite_second {n : Node} {b : Bool} (hrun : n.mgt.state = .run) (hx : n.config.pend = some x) (hf : x.first = true)
    (hv : x.verified = false) (hh : n.config.half = some b) (ok : Bool) : configFlashWrite n ok = writeSecond n x b ok := by
  simp [configFlashWrite, mpRun, hrun, hx, hh, hf, hv]

/-! A copy of the flash -/

/-- The configuration with copy b written as y, and its generation and the copy due noted by g. -/
theorem flash_written (c : Config) (b : Bool) (y : FlashCopy) :
    flashOf (modFlash b (fun _ => y) c) b = y ∧ flashOf (modFlash b (fun _ => y) c) (!b) = flashOf c (!b) :=
  ⟨flashOf_modFlash_self c b _, flashOf_modFlash_other c b _⟩

/-- The first copy of a confirmed image: verified, of the next generation, the other copy due and as it was. -/
theorem acts_writeImage (hrun : (atInstant s t).mgt.state = .run) (hx : (atInstant s t).config.pend = some x)
    (hc : x.confirmed = true) (hh : (atInstant s t).config.half = none) : Acts (.configFlashWrite t true) s t (fun n u =>
      SameButSignals u { n with config := u.config } ∧
      u.config.pend = some { x with verified := true, first := true } ∧ u.config.gen = n.config.gen + 1 ∧
      u.config.half = some (!firstCopy n.config) ∧ (flashOf u.config (firstCopy n.config)).valid = true ∧
      (flashOf u.config (firstCopy n.config)).check = x.check ∧
      flashOf u.config (!firstCopy n.config) = flashOf n.config (!firstCopy n.config)) := by
  refine acts_config (f := fun n => configFlashWrite n true) rfl (configFlashWrite_image hrun hx hc hh true) ?_
  generalize atInstant s t = n
  intro ve o
  unfold writeImage
  dsimp only
  rw [if_pos rfl]
  generalize firstCopy n.config = b
  cases b <;> exact ⟨rfl, rfl, rfl, rfl, rfl, rfl, rfl⟩

theorem acts_writeImage_bad (hrun : (atInstant s t).mgt.state = .run) (hx : (atInstant s t).config.pend = some x)
    (hc : x.confirmed = true) (hh : (atInstant s t).config.half = none) : Acts (.configFlashWrite t false) s t (fun n u =>
      SameButSignals u { n with config := u.config, headers := u.headers } ∧ u.config.pend = some x ∧
      (flashOf u.config (firstCopy n.config)).valid = false ∧ Raised n u 5 0) := by
  refine acts_config (f := fun n => configFlashWrite n false) (m := flashBad (atInstant s t) (firstCopy (atInstant s t).config)) rfl
    (configFlashWrite_image hrun hx hc hh false) ?_
  generalize atInstant s t = n at *
  generalize firstCopy n.config = b
  intro ve o
  have hraised : Raised n (flashBad n b) 5 0 := raised_raise (modConfig n (modFlash b (fun x => { x with valid := false }))) 5 0
  cases b
  · exact ⟨rfl, hx, rfl, hraised⟩
  · exact ⟨rfl, hx, rfl, hraised⟩

/-- The other copy after a change of parameters is that of the first. -/
theorem acts_writeOther {b : Bool} (hrun : (atInstant s t).mgt.state = .run) (hh : (atInstant s t).config.half = some b)
    (hx : (atInstant s t).config.pend = none ∨ ((atInstant s t).config.pend = some x ∧ x.first = false)) :
    Acts (.configFlashWrite t true) s t (fun n u => SameButSignals u { n with config := u.config } ∧
      u.config.half = none ∧ flashOf u.config b = flashOf n.config (!b) ∧ flashOf u.config (!b) = flashOf n.config (!b) ∧
      u.config.pend = n.config.pend ∧ u.config.dirty = n.config.dirty) := by
  refine acts_config (f := fun n => configFlashWrite n true) rfl ((configFlashWrite_other hrun hh hx true).trans (if_pos rfl)) ?_
  generalize atInstant s t = n
  intro ve o
  cases b <;> exact ⟨rfl, rfl, rfl, rfl, rfl, rfl⟩

/-- The other copy of a confirmed image ends its CONFIRM. -/
theorem acts_writeSecond {b : Bool} (hrun : (atInstant s t).mgt.state = .run) (hx : (atInstant s t).config.pend = some x)
    (hf : x.first = true) (hv : x.verified = false) (hh : (atInstant s t).config.half = some b) :
    Acts (.configFlashWrite t true) s t (fun n u => u.config.pend = none ∧ u.config.half = none ∧ u.config.check = x.check ∧
      flashOf u.config b = flashOf n.config (!b) ∧ flashOf u.config (!b) = flashOf n.config (!b) ∧
      cmdOf u 5 = (cmdOf n 5).map (fun c => { c with result := some true }) ∧ u.regs = n.regs) := by
  refine acts_config (f := fun n => configFlashWrite n true) rfl
    ((configFlashWrite_second hrun hx hf hv hh true).trans (if_pos rfl)) ?_
  generalize atInstant s t = n
  intro ve o
  have hwritten := flash_written n.config b (flashOf n.config (!b))
  generalize hm : modConfig n (fun c => { modFlash b (fun _ => flashOf c (!b)) c with check := x.check, pend := none, half := none }) = m
  have hconfig : m.config.pend = none ∧ m.config.half = none ∧ m.config.check = x.check ∧
      flashOf m.config b = flashOf n.config (!b) ∧ flashOf m.config (!b) = flashOf n.config (!b) := by
    subst hm
    cases b <;> exact ⟨rfl, rfl, rfl, rfl, rfl⟩
  have hcmds : m.cmds = n.cmds := by rw [← hm]; rfl
  have hregs : m.regs = n.regs := by rw [← hm]; rfl
  dsimp only
  generalize recSession m 7 (confirmer n).2.1 (confirmer n).1 x.check 0 0 = r
  obtain ⟨_, _, _, _, _, heq, -⟩ := recFrame_note m r
  rw [heq]
  obtain ⟨h1, h2, h3, h4, h5⟩ := hconfig
  refine ⟨h1, h2, h3, ?_, ?_, ?_, hregs⟩
  · exact (by cases b <;> rfl : flashOf _ b = flashOf m.config b).trans h4
  · exact (by cases b <;> rfl : flashOf _ (!b) = flashOf m.config (!b)).trans h5
  · exact (cmdOf_resolveCmd m 5 (some true)).trans (by rw [cmdOf, cmdOf, hcmds])

/-- The first copy after a change of parameters holds the registers as they stand. -/
theorem acts_writeDirty (hrun : (atInstant s t).mgt.state = .run) (hx : (atInstant s t).config.pend = none)
    (hh : (atInstant s t).config.half = none) (hd : (atInstant s t).config.dirty = true) (hp : (atInstant s t).config.chpw = none) :
    Acts (.configFlashWrite t true) s t (fun n u => SameButSignals u { n with config := u.config } ∧
      let b := firstCopy n.config
      u.config.dirty = false ∧ u.config.gen = n.config.gen + 1 ∧ u.config.half = some (!b) ∧
      (flashOf u.config b).regs = flashRegs n ∧ (flashOf u.config b).valid = true ∧
      (flashOf u.config b).gen = n.config.gen + 1 ∧ flashOf u.config (!b) = flashOf n.config (!b) ∧
      u.config.accounts = n.config.accounts) := by
  have hstore : storePassword (atInstant s t) = atInstant s t := by
    unfold storePassword
    rw [hp]
  have hdue : writeDue (atInstant s t) = true := by simp [writeDue, hd]
  refine acts_config (f := fun n => configFlashWrite n true) (m := flashWritten (atInstant s t) (firstCopy (atInstant s t).config)) rfl ?_ ?_
  · refine (configFlashWrite_dirty hrun hx hh hdue true).trans ?_
    rw [writeDirty_done, hstore]
  · generalize atInstant s t = n
    dsimp only
    generalize firstCopy n.config = b
    intro ve o
    cases b <;> exact ⟨rfl, rfl, rfl, rfl, rfl, rfl, rfl, rfl, rfl⟩

end Writes

/-- Settles O56. -/
theorem imagesCommitAndConfirm : Obligations.ImagesCommitAndConfirm := by
  refine ⟨fun n x hx => ⟨fun hv hc hl => applyImage_leaves hx hv hc hl, fun h => applyImage_waits hx ?_⟩, fun t p v x s => ?_⟩
  · rcases h with h | h | h <;> simp [h]
  dsimp only
  refine ⟨fun hok => ⟨fun f agree hf => acts_commit_fails hok hf, acts_commit_differs hok, acts_commit_passes hok⟩,
    acts_discard_none, acts_discard, fun hcarries hacc hx hc hopen => ⟨?_, acts_confirm_unequal hcarries hacc hx hc hopen⟩,
    acts_windowExpires, fun hx => acts_windowStands (windowClosed_none (n := atInstant s t) hx _),
    fun hx h => acts_windowStands (windowClosed_stands (n := atInstant s t) (past := fun u => decide (u ≤ (atInstant s t).now)) hx (h.imp_right fun hlt => decide_eq_false (Nat.not_le.mpr hlt))),
    fun hdown b => acts_same (f := fun n => configFlashWrite n b) rfl (configFlashWrite_down (n := atInstant s t) hdown b),
    fun hrun hx hc hh => ⟨acts_writeImage hrun hx hc hh, acts_writeImage_bad hrun hx hc hh⟩,
    fun b hrun hh hx => acts_writeOther hrun hh hx, fun b hrun hx hf hv hh => acts_writeSecond hrun hx hf hv hh,
    acts_writeDirty⟩
  rintro rfl
  exact acts_confirm_equal hcarries hacc hx hopen

end Sys2Proof.Machine
end

section
/-! PROOF. The end of phase 1 of start-up: the lanes that passed take up service, the others are excluded (17 R399). -/

namespace Sys2Proof.Machine

/-! Events between the fabric's way up to the instant and its settling -/

/-- A node whose fabric, commands and signals have settled. -/
def besideFabric (x : Node) (sf : Safety) (cs : Tbl (Option Command)) (ve : Tbl Vector_) (o : List Out) : Node :=
  { x with safety := sf, cmds := cs, vectors := ve, outs := o }

/-- What an event leaves that the fabric goes around, told of the node before the fabric settles. -/
theorem acts_fabric {c : Instr} {s : State} {t : Nat} {f : Node → Node} {P : Node → Node → Prop}
    (hc : exec c s = .next (onNode s t (withFabric f)))
    (h : ∀ m, fabricAdvance (atInstant s t) = m → FabFrame (atInstant s t) m → m.now = (atInstant s t).now → ∀ sf cs ve o,
      fabricHolds (besideFabric (f m) sf cs ve o) → P (atInstant s t) (besideFabric (f m) sf cs ve o)) : Acts c s t P := by
  refine acts_of_eq hc rfl ?_
  obtain ⟨hfab, hnow⟩ := fabricAdvance_leaves (atInstant s t)
  have hholds := fabricHolds_fabricSettle (f (fabricAdvance (atInstant s t)))
  have hframe := safFrame_fabricSettle (f (fabricAdvance (atInstant s t)))
  have hsettled := sameButSignals_settle (fabricSettle (f (fabricAdvance (atInstant s t))))
  rw [SafFrame] at hframe
  rw [SameButSignals] at hsettled
  unfold withFabric
  generalize settle (fabricSettle (f (fabricAdvance (atInstant s t)))) = u at *
  generalize fabricSettle (f (fabricAdvance (atInstant s t))) = k at *
  have hu : u = besideFabric (f (fabricAdvance (atInstant s t))) k.safety k.cmds u.vectors u.outs := by
    rw [hframe] at hsettled
    exact hsettled
  rw [hu] at hholds ⊢
  exact h _ rfl hfab hnow _ _ _ _ hholds

/-- An event that finds nothing to do between the fabric's steps. -/
theorem acts_fabric_still {c : Instr} {s : State} {t : Nat} {f : Node → Node} (hc : exec c s = .next (onNode s t (withFabric f)))
    (h : f (fabricAdvance (atInstant s t)) = fabricAdvance (atInstant s t)) : Acts c s t (fun n u =>
      SameButSignals u { fabricAdvance n with safety := u.safety, cmds := u.cmds } ∧ fabricHolds u) := by
  refine acts_fabric hc ?_
  intro m hm hfab hnow sf cs ve o hholds
  have hm' : f m = m := by rw [← hm, h]
  rw [hm'] at hholds ⊢
  rw [hm]
  exact ⟨rfl, hholds⟩

/-- What the fabric's way up to the instant leaves of the node. -/
structure BesideFab (n m : Node) : Prop where
  nodeSt : m.nodeSt = n.nodeSt
  regs : m.regs = n.regs
  staged : m.staged = n.staged
  period : m.period = n.period
  lanes : m.lanes = n.lanes
  laneSt : m.laneSt = n.laneSt
  duplex : m.duplex = n.duplex
  ranks : m.ranks = n.ranks
  tb : m.tb = n.tb
  off : m.power.off = n.power.off
  copyA : m.config.copyA = n.config.copyA
  copyB : m.config.copyB = n.config.copyB

theorem FabFrame.beside {n m : Node} (h : FabFrame n m) : BesideFab n m := by
  obtain ⟨_, _, _, _, _, heq, -⟩ := h
  constructor <;> rw [heq]

/-! Exclusion after a failed start -/

theorem lanesMove_excludeLane (n : Node) (l cause : Nat) : LanesMove n (excludeLane n l cause) := by
  obtain ⟨m, hm, heq⟩ := excludeLane_eq n l cause
  rw [endHostExclude_rest] at hm
  have hmove : LanesMove n m := ⟨_, n.laneSt, n.tb, n.dueR, _, hm⟩
  have hlane := (hmove.trans (lanesMove_modLane m l (resetLane n.now (if excludedOut n l cause then 6 else 1) cause (attemptsAfter n l cause)))).trans
    (lanesMove_modLaneSt _ (fun s => { s with excl := sat 65535 (s.excl + 1), exclT := taiNow n }))
  rw [heq]
  exact (hlane.trans (lanesMove_raiseR _ 3 1)).trans (pred_ite (P := LanesMove _) (lanesMove_raiseR _ 3 3) (LanesMove.refl _))

theorem mem_raiseRIf {n : Node} {e : Nat × Nat} (h : e ∈ n.dueR) (c : Bool) (p b : Nat) : e ∈ (raiseRIf c n p b).dueR := by
  cases c
  · exact h
  · exact List.mem_append_left _ h

/-- A lane that failed its start is excluded with cause 11, and that counts and is told. -/
theorem excludeLane_leaves (n : Node) (l : Nat) :
    (excludeLane n l 11).laneSt.state = n.laneSt.state ∧ n.dueR ⊆ (excludeLane n l 11).dueR ∧ (3, 1) ∈ (excludeLane n l 11).dueR ∧
    0 < (excludeLane n l 11).laneSt.excl ∧ (laneOf (excludeLane n l 11) l).cause = 11 ∧
    ((laneOf n l).attempts = [] → (laneOf (excludeLane n l 11) l).phase = 1) ∧
    ∀ k, k ≠ l → laneOf (excludeLane n l 11) k = laneOf n k := by
  obtain ⟨m, hm, heq⟩ := excludeLane_eq n l 11
  have hlanes : ∀ k, laneOf m k = laneOf (endHostExclude n l (decide (11 = 9))) k := laneOf_recFrame hm
  have hst : m.laneSt = n.laneSt ∧ m.dueR = n.dueR := by
    obtain ⟨_, _, _, _, _, rfl, -⟩ := hm
    rw [endHostExclude_rest]
    exact ⟨rfl, rfl⟩
  have hlaneSt : ∀ (c : Bool) (k : Node), (raiseRIf c k 3 3).laneSt = k.laneSt := fun c k => by cases c <;> rfl
  generalize hf : resetLane n.now (if excludedOut n l 11 then 6 else 1) 11 (attemptsAfter n l 11) = f at heq
  have hcause : ∀ x, (f x).cause = 11 := by
    subst hf
    exact fun _ => rfl
  have hphase : (laneOf n l).attempts = [] → ∀ x, (f x).phase = 1 := by
    subst hf
    intro hnone x
    simp [resetLane, excludedOut_eq n l 11 (.inl rfl), hnone]
  have hkself : laneOf (modLane m l f) l = f (laneOf m l) := laneOf_modLane_self m l f
  have hkother : ∀ k, k ≠ l → laneOf (modLane m l f) k = laneOf m k := fun k hk => laneOf_modLane_ne m f hk
  have hkst : (modLane m l f).laneSt = n.laneSt ∧ (modLane m l f).dueR = n.dueR := hst
  generalize modLane m l f = k at *
  rw [heq]
  simp only [laneOf_raiseRIf, laneOf_raiseR, laneOf_modLaneSt, hlaneSt]
  have hstate : k.laneSt.state = n.laneSt.state := congrArg LaneSt.state hkst.1
  refine ⟨hstate, fun e he => mem_raiseRIf (List.mem_append_left _ (hkst.2 ▸ he)) _ 3 3,
    mem_raiseRIf (List.mem_append_right _ (List.mem_singleton_self _)) _ 3 3, ?_, ?_, fun hnone => ?_, fun j hj => ?_⟩
  · change 0 < min 65535 (k.laneSt.excl + 1)
    omega
  · rw [hkself, hcause]
  · rw [hkself, hphase hnone]
  · rw [hkother j hj, hlanes]
    rcases laneOf_endHostExclude n l (decide (11 = 9)) j with h | ⟨h, -⟩
    · exact h
    · exact absurd h hj

/-- Lanes that failed their start. -/
theorem excludeLanes_leaves (L : List Nat) (hnd : L.Nodup) (n : Node) :
    let u := L.foldl (fun n l => excludeLane n l 11) n
    LanesMove n u ∧ u.laneSt.state = n.laneSt.state ∧ n.dueR ⊆ u.dueR ∧ (L ≠ [] → (3, 1) ∈ u.dueR ∧ 0 < u.laneSt.excl) ∧
    (∀ l ∈ L, (laneOf u l).cause = 11 ∧ ((laneOf n l).attempts = [] → (laneOf u l).phase = 1)) ∧
    ∀ k, k ∉ L → laneOf u k = laneOf n k := by
  induction L generalizing n with
  | nil => exact ⟨LanesMove.refl n, rfl, fun _ h => h, fun h => absurd rfl h, fun _ h => absurd h List.not_mem_nil, fun _ _ => rfl⟩
  | cons l L ih =>
    rw [List.nodup_cons] at hnd
    obtain ⟨hl, hL⟩ := hnd
    obtain ⟨kst, ksub, kdue, kexcl, kcause, kphase, kother⟩ := excludeLane_leaves n l
    have kmove := lanesMove_excludeLane n l 11
    obtain ⟨imove, ist, isub, idue, iin, iout⟩ := ih hL (excludeLane n l 11)
    dsimp only at *
    rw [List.foldl_cons]
    generalize hu : L.foldl (fun n l => excludeLane n l 11) (excludeLane n l 11) = u at *
    refine ⟨kmove.trans imove, ist.trans kst, fun e he => isub (ksub he), fun _ => ⟨isub kdue, ?_⟩, fun k hk => ?_, fun k hk => ?_⟩
    · by_cases hnil : L = []
      · subst hnil
        subst hu
        exact kexcl
      · exact (idue hnil).2
    · rcases List.mem_cons.mp hk with rfl | hk
      · rw [iout k hl]
        exact ⟨kcause, kphase⟩
      · have hne : k ≠ l := fun h => hl (h ▸ hk)
        rw [← kother k hne]
        exact iin k hk
    · rw [List.mem_cons, not_or] at hk
      exact (iout k hk.2).trans (kother k hk.1)

/-! The end of phase 1 -/

theorem mem_passed {ok l : Nat} : l ∈ members ok 3 ↔ l < 3 ∧ nbit ok l = true := by
  rw [members, List.mem_filter, List.mem_range]
  rfl

/-- The lanes that did not pass. -/
def failedLanes (ok : Nat) : List Nat := [0, 1, 2].filter (fun l => !(members ok 3).contains l)

theorem mem_failedLanes {ok l : Nat} (hl : l < 3) : l ∈ failedLanes ok ↔ nbit ok l = false := by
  have hmem : l ∈ [0, 1, 2] := by
    have h3 : l = 0 ∨ l = 1 ∨ l = 2 := by omega
    rcases h3 with rfl | rfl | rfl <;> decide
  rw [failedLanes, List.mem_filter]
  simp only [hmem, true_and, Bool.not_eq_true', List.contains_eq_mem, decide_eq_false_iff_not, mem_passed, hl, true_and, Bool.not_eq_true]

theorem lanesStart_eq (n : Node) (ok : Nat) : lanesStart n ok = (failedLanes ok).foldl (fun n l => excludeLane n l 11)
    (if (members ok 3).length < 2 then n else lanesVote n (members ok 3)) := rfl

/-- The lanes that passed take up service where two did; the others are excluded. -/
theorem lanesStart_leaves (n : Node) (ok : Nat) :
    LanesMove n (lanesStart n ok) ∧
    ((members ok 3).length < 2 → (lanesStart n ok).laneSt.state = n.laneSt.state) ∧
    (2 ≤ (members ok 3).length → (lanesStart n ok).laneSt.state = 3 - (members ok 3).length ∧ (3, 0) ∈ (lanesStart n ok).dueR ∧
      ∀ l, l < 3 → nbit ok l = true → (laneOf (lanesStart n ok) l).phase = 0) ∧
    ∀ l, l < 3 → nbit ok l = false → (laneOf (lanesStart n ok) l).cause = 11 ∧ (3, 1) ∈ (lanesStart n ok).dueR ∧
      0 < (lanesStart n ok).laneSt.excl ∧ ((laneOf n l).attempts = [] → (laneOf (lanesStart n ok) l).phase = 1) := by
  obtain ⟨vmove, vst, vdue, vin, vout⟩ := lanesVote_leaves n (members ok 3)
  have hnd : (failedLanes ok).Nodup := (by decide : [0, 1, 2].Nodup).filter _
  rw [lanesStart_eq]
  generalize hm : (if (members ok 3).length < 2 then n else lanesVote n (members ok 3)) = m
  obtain ⟨emove, est, esub, edue, ein, eout⟩ := excludeLanes_leaves (failedLanes ok) hnd m
  have hmmove : LanesMove n m := by
    rw [← hm]
    exact pred_ite (P := LanesMove n) (LanesMove.refl n) vmove
  have hmout : ∀ k, nbit ok k = false → laneOf m k = laneOf n k := by
    intro k hk
    rw [← hm]
    split
    · rfl
    · exact vout k fun h => by rw [(mem_passed.mp h).2] at hk; exact absurd hk (by decide)
  refine ⟨hmmove.trans emove, fun h2 => ?_, fun h2 => ⟨?_, ?_, fun l hl hb => ?_⟩, fun l hl hb => ?_⟩
  · rw [est, ← hm, if_pos h2]
  · rw [est, ← hm, if_neg (Nat.not_lt.mpr h2), vst]
    rfl
  · refine esub ?_
    rw [← hm, if_neg (Nat.not_lt.mpr h2)]
    exact vdue
  · rw [eout l fun h => by rw [(mem_failedLanes hl).mp h] at hb; exact absurd hb (by decide), ← hm, if_neg (Nat.not_lt.mpr h2)]
    exact vin l (mem_passed.mpr ⟨hl, hb⟩)
  · have hmem := (mem_failedLanes hl).mpr hb
    obtain ⟨hdue, hexcl⟩ := edue (List.ne_nil_of_mem hmem)
    obtain ⟨hcause, hphase⟩ := ein l hmem
    rw [hmout l hb] at hphase
    exact ⟨hcause, hdue, hexcl, hphase⟩

end Sys2Proof.Machine
end

section
/-! PROOF. The end of phase 2 of start-up: the load of the configuration (16 R383, 17 R399). -/

namespace Sys2Proof.Machine

/-! The range of a copy's values -/

/-- The registers, the values staged and the period of a node, and nothing else. -/
def bareNode (n : Node) : Node := { regs := n.regs, staged := n.staged, period := n.period }

theorem valueOk_bareNode (n : Node) (p o : Nat) (v : Word) : valueOk n p o v = valueOk (bareNode n) p o v := rfl

/-- Whether a copy's values are in range rests on the registers that no copy holds and on the period alone. -/
theorem copyRangeOk_of {u n : Node} (hr : u.regs = n.regs) (hp : u.period = n.period) (x : FlashCopy) :
    copyRangeOk u x = copyRangeOk n x := by
  have hbare : bareNode { u with regs := mergeRegs u x.regs, staged := [] } = bareNode { n with regs := mergeRegs n x.regs, staged := [] } := by
    rw [bareNode, bareNode, mergeRegs, mergeRegs, hr, hp]
  unfold copyRangeOk
  dsimp only
  refine congrArg (fun f => x.regs.all f) (funext fun e => ?_)
  rw [valueOk_bareNode, hbare, ← valueOk_bareNode]

/-! The test of the two copies -/

/-- A copy tested: one that is not good is invalid and sets FLASH_FLT. -/
def copyTested (n : Node) (b bad : Bool) : Node :=
  let x := flashOf n.config b
  if bad || !x.valid || !copyRangeOk n x then flashBad n b else n

/-- A copy that the load may take (16 R383). -/
def copyGood (n : Node) (b bad : Bool) : Prop :=
  (flashOf n.config b).valid = true ∧ bad = false ∧ copyRangeOk n (flashOf n.config b) = true

/-- What the load of a configuration leaves of the node. -/
structure LoadKept (n u : Node) : Prop where
  nodeSt : u.nodeSt = n.nodeSt
  laneSt : u.laneSt = n.laneSt
  ranks : u.ranks = n.ranks

theorem LoadKept.refl (n : Node) : LoadKept n n := ⟨rfl, rfl, rfl⟩

theorem LoadKept.trans {a b c : Node} (h : LoadKept a b) (k : LoadKept b c) : LoadKept a c :=
  ⟨k.nodeSt.trans h.nodeSt, k.laneSt.trans h.laneSt, k.ranks.trans h.ranks⟩

/-- What the test of copy b leaves: whether it is valid, the copy where it is good, and the other copy. -/
structure Tested (n u : Node) (b bad : Bool) : Prop where
  kept : LoadKept n u
  regs : u.regs = n.regs
  period : u.period = n.period
  other : flashOf u.config (!b) = flashOf n.config (!b)
  valid : (flashOf u.config b).valid = true ↔ copyGood n b bad
  same : copyGood n b bad → flashOf u.config b = flashOf n.config b

theorem tested_copyTested (n : Node) (b bad : Bool) : Tested n (copyTested n b bad) b bad := by
  unfold copyTested
  dsimp only
  split
  next h =>
    have hbad : ¬copyGood n b bad := by
      rintro ⟨hv, hb, hr⟩
      simp [hv, hb, hr] at h
    refine ⟨⟨rfl, rfl, rfl⟩, rfl, rfl, flashOf_modFlash_other n.config b _, ⟨fun hv => ?_, fun hg => absurd hg hbad⟩, fun hg => absurd hg hbad⟩
    have hself : flashOf (flashBad n b).config b = { flashOf n.config b with valid := false } := flashOf_modFlash_self n.config b _
    rw [hself] at hv
    exact Bool.noConfusion hv
  next h =>
    have hgood : copyGood n b bad := by
      simp only [Bool.or_eq_true, not_or, Bool.not_eq_true, Bool.not_eq_true', Bool.not_eq_false] at h
      obtain ⟨⟨hbad, hvalid⟩, hrange⟩ := h
      exact ⟨hvalid, hbad, hrange⟩
    exact ⟨LoadKept.refl n, rfl, rfl, rfl, ⟨fun _ => hgood, fun h => h.1⟩, fun _ => rfl⟩

/-- The load, once both copies have been tested. -/
def configLoaded (n : Node) : Node :=
  let a := n.config.copyA
  let b := n.config.copyB
  if !a.valid && !b.valid then loadFactory n
  else
    let x := if a.valid && (!b.valid || decide (b.gen ≤ a.gen)) then a else b
    let n := { n with regs := mergeRegs n x.regs }
    modConfig n (fun c => { c with
      copyA := if a.valid && decide (x.gen ≤ a.gen) then a else x, copyB := if b.valid && decide (x.gen ≤ b.gen) then b else x,
      accounts := x.accounts, check := x.check, imagePeriod := x.imagePeriod, gen := x.gen, factory := false, loaded := true })

theorem loadConfig_eq (n : Node) (aBad bBad : Bool) : loadConfig n aBad bBad =
    configLoaded (copyTested (copyTested n false aBad) true bBad) := rfl

theorem loadKept_configLoaded (n : Node) : LoadKept n (configLoaded n) := by
  unfold configLoaded
  dsimp only
  split
  · exact ⟨rfl, rfl, rfl⟩
  · exact ⟨rfl, rfl, rfl⟩

/-- The accounts, the check value and the factory mark that a load leaves. -/
def loadedMarks (n : Node) := (n.config.accounts, n.config.check, n.config.factory)

theorem configLoaded_A {n : Node} (ha : n.config.copyA.valid = true)
    (hb : n.config.copyB.valid = false ∨ n.config.copyB.gen ≤ n.config.copyA.gen) :
    loadedMarks (configLoaded n) = (n.config.copyA.accounts, n.config.copyA.check, false) := by
  have hsel : (n.config.copyA.valid && (!n.config.copyB.valid || decide (n.config.copyB.gen ≤ n.config.copyA.gen))) = true := by
    rcases hb with h | h <;> simp [ha, h]
  unfold configLoaded
  dsimp only
  rw [hsel, if_neg (by simp [ha])]
  rfl

theorem configLoaded_B {n : Node} (hb : n.config.copyB.valid = true)
    (ha : n.config.copyA.valid = false ∨ n.config.copyA.gen < n.config.copyB.gen) :
    loadedMarks (configLoaded n) = (n.config.copyB.accounts, n.config.copyB.check, false) := by
  have hsel : (n.config.copyA.valid && (!n.config.copyB.valid || decide (n.config.copyB.gen ≤ n.config.copyA.gen))) = false := by
    rcases ha with h | h
    · simp [h]
    · simp [hb, Nat.not_le.mpr h]
  unfold configLoaded
  dsimp only
  rw [hsel, if_neg (by simp [hb])]
  rfl

/-- Without a good copy the factory configuration is loaded, with account 0 as its label gives it (16 R366). -/
theorem configLoaded_factory {n : Node} (ha : n.config.copyA.valid = false) (hb : n.config.copyB.valid = false) :
    (configLoaded n).config.factory = true ∧ (accountOf (configLoaded n) 0).level = 4 ∧ (accountOf (configLoaded n) 0).mustchg = true := by
  unfold configLoaded
  dsimp only
  rw [if_pos (by simp [ha, hb])]
  exact ⟨rfl, rfl, rfl⟩

/-- The newer good copy is loaded, or the factory configuration where neither is good. -/
theorem loadConfig_leaves (n : Node) (aBad bBad : Bool) :
    LoadKept n (loadConfig n aBad bBad) ∧
    (copyGood n false aBad → ¬copyGood n true bBad ∨ n.config.copyB.gen ≤ n.config.copyA.gen →
      loadedMarks (loadConfig n aBad bBad) = (n.config.copyA.accounts, n.config.copyA.check, false)) ∧
    (copyGood n true bBad → ¬copyGood n false aBad ∨ n.config.copyA.gen < n.config.copyB.gen →
      loadedMarks (loadConfig n aBad bBad) = (n.config.copyB.accounts, n.config.copyB.check, false)) ∧
    (¬copyGood n false aBad → ¬copyGood n true bBad → (loadConfig n aBad bBad).config.factory = true ∧
      (accountOf (loadConfig n aBad bBad) 0).level = 4 ∧ (accountOf (loadConfig n aBad bBad) 0).mustchg = true) := by
  rw [loadConfig_eq]
  have h₁ := tested_copyTested n false aBad
  generalize copyTested n false aBad = m at h₁
  have h₂ := tested_copyTested m true bBad
  generalize copyTested m true bBad = u at h₂
  have hgoodB : copyGood m true bBad ↔ copyGood n true bBad := by
    have hflash : flashOf m.config true = flashOf n.config true := h₁.other
    rw [copyGood, copyGood, hflash, copyRangeOk_of h₁.regs h₁.period]
  have hA : flashOf u.config false = flashOf m.config false := h₂.other
  have hvalidA : u.config.copyA.valid = true ↔ copyGood n false aBad := by
    rw [← h₁.valid, ← hA]
    rfl
  have hvalidB : u.config.copyB.valid = true ↔ copyGood n true bBad := by
    rw [← hgoodB, ← h₂.valid]
    rfl
  have hsameA : copyGood n false aBad → u.config.copyA = n.config.copyA := fun h => hA.trans (h₁.same h)
  have hsameB : copyGood n true bBad → u.config.copyB = n.config.copyB := fun h => (h₂.same (hgoodB.mpr h)).trans h₁.other
  have hoff : ∀ {v : Bool} {p : Prop}, (v = true ↔ p) → ¬p → v = false := fun h hp => Bool.eq_false_iff.mpr fun hv => hp (h.mp hv)
  refine ⟨(h₁.kept.trans h₂.kept).trans (loadKept_configLoaded u), fun hg hb => ?_, fun hg ha => ?_, fun ha hb => ?_⟩
  · rw [configLoaded_A (hvalidA.mpr hg), hsameA hg]
    by_cases hgb : copyGood n true bBad
    · exact .inr (by rw [hsameA hg, hsameB hgb]; exact hb.resolve_left (not_not_intro hgb))
    · exact .inl (hoff hvalidB hgb)
  · rw [configLoaded_B (hvalidB.mpr hg), hsameB hg]
    by_cases hga : copyGood n false aBad
    · exact .inr (by rw [hsameA hga, hsameB hg]; exact ha.resolve_left (not_not_intro hga))
    · exact .inl (hoff hvalidA hga)
  · exact configLoaded_factory (hoff hvalidA ha) (hoff hvalidB hb)

/-! What follows the load -/

/-- The accounts and the marks of a load stand. -/
def MarksKept (n u : Node) : Prop := loadedMarks u = loadedMarks n

theorem MarksKept.trans {a b c : Node} (h : MarksKept a b) (k : MarksKept b c) : MarksKept a c := Eq.trans k h

theorem marksKept_foldl {α : Type} {f : Node → α → Node} (h : ∀ n x, MarksKept n (f n x)) (l : List α) (n : Node) :
    MarksKept n (l.foldl f n) := foldl_rel (R := MarksKept) (fun _ => rfl) MarksKept.trans h l n

theorem marksKept_of_rec {n u : Node} (h : RecFrame n u) : MarksKept n u := by
  obtain ⟨_, _, _, _, _, rfl, -⟩ := h
  rfl

theorem marksKept_of_saf {n u : Node} (h : SafFrame n u) : MarksKept n u := by
  rw [SafFrame] at h
  rw [h]
  rfl

theorem marksKept_powerRank (n : Node) (r : Nat) : MarksKept n (powerRank n r) := by
  have hobserve : ∀ m : Node, MarksKept m (powerObserve m r) := by
    intro m
    unfold powerObserve
    extract_lets k d
    have hk : MarksKept m k := rfl
    refine pred_ite (P := MarksKept m) ?_ hk
    have hd : MarksKept k d := rfl
    exact (hk.trans hd).trans ((marksKept_of_rec (recFrame_note d _)).trans rfl)
  unfold powerRank
  extract_lets x m cs
  have hm : MarksKept n m := MarksKept.trans (b := modRank n r (fun _ => { powered := true })) rfl (hobserve _)
  have hwarm : MarksKept m { m with diags := tmodAll {} m.diags cs (fun _ => warmDiag) } := rfl
  exact pred_ite (P := MarksKept n) rfl ((hm.trans hwarm).trans (marksKept_of_saf (safFrame_armRank _ r)))

theorem loadKept_of_saf {n u : Node} (h : SafFrame n u) : LoadKept n u := by
  rw [SafFrame] at h
  rw [h]
  exact ⟨rfl, rfl, rfl⟩

theorem safFrame_loadMap (n : Node) : SafFrame n (loadMap n) := by
  unfold loadMap
  extract_lets crc n₁ n₂
  have h₁ : SafFrame n n₁ := safFrame_foldl (fun n s => safFrame_modFn n s _) _ n
  have h₂ : SafFrame n n₂ := h₁.trans (safFrame_modSafety n₁ _)
  exact h₂.trans (safFrame_foldl (fun n c => safFrame_modCopy n c _) _ n₂)

/-- The lanes with the map taken up and every enabled function LOCKED. -/
def mapLoaded (n : Node) : Node := lockFns (loadMap n) (enabledFns (loadMap n)) 12

theorem loadKept_of_fns {n u : Node} (h : FnsMove n u) : LoadKept n u := by
  obtain ⟨_, _, rfl⟩ := h
  exact ⟨rfl, rfl, rfl⟩

theorem marksKept_of_fns {n u : Node} (h : FnsMove n u) : MarksKept n u := by
  obtain ⟨_, _, rfl⟩ := h
  rfl

theorem mapLoaded_leaves (n : Node) : LoadKept n (mapLoaded n) ∧ MarksKept n (mapLoaded n) :=
  have hlock := fnsMove_lockFns (loadMap n) (enabledFns (loadMap n)) 12
  ⟨(loadKept_of_saf (safFrame_loadMap n)).trans (loadKept_of_fns hlock), (marksKept_of_saf (safFrame_loadMap n)).trans (marksKept_of_fns hlock)⟩

/-- A period other than 1 ms then waits. -/
theorem loadStart_eq (n : Node) (aBad bBad : Bool) : ∃ tb, loadStart n aBad bBad = { mapLoaded (loadConfig n aBad bBad) with tb := tb } := by
  have hmap : lockFns (loadMap (loadConfig n aBad bBad)) (enabledFns (loadMap (loadConfig n aBad bBad))) 12 =
      mapLoaded (loadConfig n aBad bBad) := rfl
  unfold loadStart
  dsimp only
  rw [hmap]
  exact ⟨_, rfl⟩

theorem loadStart_leaves (n : Node) (aBad bBad : Bool) :
    LoadKept (loadConfig n aBad bBad) (loadStart n aBad bBad) ∧ MarksKept (loadConfig n aBad bBad) (loadStart n aBad bBad) := by
  obtain ⟨tb, htb⟩ := loadStart_eq n aBad bBad
  obtain ⟨hkept, hmarks⟩ := mapLoaded_leaves (loadConfig n aBad bBad)
  rw [htb]
  exact ⟨hkept.trans ⟨rfl, rfl, rfl⟩, hmarks⟩

/-- The enabled ranks are powered, those held unpowered after a failed self-test apart. -/
theorem powered_powerRanks (n : Node) {k : Nat} (hk : k < 16) (hen : nbit (reg n (at_ 0x0D 0x50)).toNat k = true)
    (hf : (rankOf n k).failed = false) : (rankOf (powerRanks n) k).powered = true := by
  have hmem : k ∈ members (rankEn n) 16 := List.mem_filter.mpr ⟨List.mem_range.mpr hk, hen⟩
  obtain ⟨l, l', hl⟩ := List.append_of_mem hmem
  have hnd : (members (rankEn n) 16).Nodup := List.nodup_range.filter _
  rw [hl, List.nodup_append, List.nodup_cons] at hnd
  have hstands : ∀ (L : List Nat) (m : Node), k ∉ L → rankOf (L.foldl powerRank m) k = rankOf m k := by
    intro L
    induction L with
    | nil => exact fun _ _ => rfl
    | cons r L ih =>
      intro m h
      rw [List.mem_cons, not_or] at h
      exact (ih _ h.2).trans ((powerRank_leaves m r).1.2 k h.1)
  have hnot : k ∉ l := fun h => hnd.2.2 k h k List.mem_cons_self rfl
  rw [powerRanks, hl, List.foldl_append, List.foldl_cons, hstands l' _ hnd.2.1.1]
  exact (powerRank_leaves _ k).2 (by rw [hstands l n hnot, hf])

/-- The end of phase 2. -/
theorem phaseTwo_leaves (n : Node) (aBad bBad : Bool) :
    (powerRanks (loadStart n aBad bBad)).nodeSt = n.nodeSt ∧ (powerRanks (loadStart n aBad bBad)).laneSt = n.laneSt ∧
    (∀ k, k < 16 → nbit (reg (powerRanks (loadStart n aBad bBad)) (at_ 0x0D 0x50)).toNat k = true → (rankOf n k).failed = false →
      (rankOf (powerRanks (loadStart n aBad bBad)) k).powered = true) ∧
    loadedMarks (powerRanks (loadStart n aBad bBad)) = loadedMarks (loadConfig n aBad bBad) := by
  obtain ⟨hload, -⟩ := loadConfig_leaves n aBad bBad
  obtain ⟨hstart, hmarks⟩ := loadStart_leaves n aBad bBad
  have hkept := hload.trans hstart
  have hpower := ranksMove_powerRanks (loadStart n aBad bBad)
  have hpmarks : MarksKept (loadStart n aBad bBad) (powerRanks (loadStart n aBad bBad)) := marksKept_foldl marksKept_powerRank _ _
  have hpowered := fun k => powered_powerRanks (loadStart n aBad bBad) (k := k)
  generalize loadStart n aBad bBad = m at *
  refine ⟨hpower.nodeSt.trans hkept.nodeSt, ?_, fun k hk hen hf => ?_, (hmarks.trans hpmarks)⟩
  · have hlane := congrArg (fun x => x.2.2.2.2.2.2.2.1) hpower.head
    exact Eq.trans hlane hkept.laneSt
  · rw [reg_of_regs hpower.regs] at hen
    exact hpowered k hk hen (by rw [rankOf_of_ranks hkept.ranks, hf])

end Sys2Proof.Machine
end

section
/-! PROOF. The end of start-up and the self-tests of the ranks (17 R399, R400). -/

namespace Sys2Proof.Machine

/-! Phase 4: STANDBY, and the controllers start -/

theorem nodeSt_endBuf (n : Node) (c b status : Nat) (ts : Word) : (endBuf n c b status ts).nodeSt = n.nodeSt := by
  unfold endBuf
  split
  · rfl
  · dsimp only
    split
    · unfold complete raise modHeader modCan
      rfl
    · exact pred_ite (P := fun u : Node => u.nodeSt = n.nodeSt) rfl rfl

theorem reconfigure_leaves (n : Node) (c : Nat) : KeepsRegs n (reconfigure n c) ∧ (reconfigure n c).nodeSt = n.nodeSt := by
  have hbufs : KeepsRegs n (endAllBufs n c 6) ∧ (endAllBufs n c 6).nodeSt = n.nodeSt :=
    ⟨((keepsRegs_endBuf n c 0 6 0).trans (keepsRegs_endBuf _ c 1 6 0)).trans (keepsRegs_endBuf _ c 2 6 0),
      (nodeSt_endBuf _ c 2 6 0).trans ((nodeSt_endBuf _ c 1 6 0).trans (nodeSt_endBuf n c 0 6 0))⟩
  unfold reconfigure configure
  dsimp only
  split
  · exact ⟨keepsRegs_modCan n c _, rfl⟩
  · exact ⟨hbufs.1.trans (keepsRegs_modCan _ c _), hbufs.2⟩

theorem startCans_leaves (n : Node) : KeepsRegs n (startCans n) ∧ (startCans n).nodeSt = n.nodeSt := by
  have hone : ∀ (n : Node) (c : Nat), KeepsRegs n (if cfgMode n c = 0 then n else reconfigure n c) ∧
      (if cfgMode n c = 0 then n else reconfigure n c).nodeSt = n.nodeSt := by
    intro n c
    split
    · exact ⟨KeepsRegs.refl n, rfl⟩
    · exact reconfigure_leaves n c
  exact ⟨keepsRegs_foldl (fun n c => (hone n c).1) _ n, foldl_same (g := Node.nodeSt) (fun n c => (hone n c).2) _ n⟩

/-- The registers, the instant and the node state stand while records are written. -/
structure StartKept (n u : Node) : Prop where
  regs : u.regs = n.regs
  now : u.now = n.now
  nodeSt : u.nodeSt = n.nodeSt

theorem startKept_note (n : Node) (r : Rec) : StartKept n (note n r) := ⟨note_regs n r, note_now n r, note_nodeSt n r⟩

theorem StartKept.trans {a b c : Node} (h : StartKept a b) (k : StartKept b c) : StartKept a c :=
  ⟨k.regs.trans h.regs, k.now.trans h.now, k.nodeSt.trans h.nodeSt⟩

theorem standbyStart_leaves (n : Node) : (standbyStart n).nodeSt = { n.nodeSt with state := .standby, phase := 0, upSince := n.now } ∧
    (standbyStart n).regs = n.regs ∧ (0, 1) ∈ (standbyStart n).dueB := by
  unfold standbyStart
  extract_lets l n₁ src n₂ n₃ n₄
  have h₁ : StartKept n n₁ := startKept_note n _
  have h₂ : StartKept n n₂ := h₁.trans (pred_ite (P := StartKept n₁) ⟨rfl, rfl, rfl⟩ ⟨rfl, rfl, rfl⟩)
  have h₃ : n₃.regs = n.regs ∧ n₃.nodeSt = { n.nodeSt with state := .standby, phase := 0, upSince := n.now } := by
    obtain ⟨hr, hn, hs⟩ := h₂
    refine ⟨hr, ?_⟩
    change { n₂.nodeSt with state := .standby, phase := 0, upSince := n₂.now } = _
    rw [hs, hn]
  have h₄ : StartKept n₃ n₄ := startKept_note n₃ _
  clear_value n₄ n₃
  obtain ⟨hcans, hnode⟩ := startCans_leaves { raiseB n₄ 0 1 with laneSt := { (raiseB n₄ 0 1).laneSt with ready := true } }
  have hmem : (0, 1) ∈ (raiseB n₄ 0 1).dueB := List.mem_append_right _ (List.mem_singleton_self _)
  exact ⟨hnode.trans (h₄.nodeSt.trans h₃.2), hcans.regs.trans (h₄.regs.trans h₃.1), hcans.due.subset hmem⟩

/-! The phases -/

theorem phaseEnd_not {n : Node} {ok : Nat} {a b posB : Bool} (h : n.nodeSt.state ≠ .init ∨ n.nodeSt.held = true ∨ n.power.off = true) :
    phaseEnd n ok a b posB = n := if_pos h

/-- Start-up goes on. -/
structure StartsUp (n : Node) : Prop where
  init : n.nodeSt.state = .init
  free : n.nodeSt.held = false
  rails : n.power.off = false

theorem StartsUp.moves {n : Node} (h : StartsUp n) : ¬(n.nodeSt.state ≠ .init ∨ n.nodeSt.held = true ∨ n.power.off = true) := by
  simp [h.init, h.free, h.rails]

theorem phaseEnd_one {n : Node} (h : StartsUp n) (hp : n.nodeSt.phase = 1) (ok : Nat) (a b posB : Bool) : phaseEnd n ok a b posB =
    modNode (lanesStart { n with duplex := { n.duplex with posB := posB } } ok) (fun s => { s with phase := 2 }) := by
  unfold phaseEnd
  rw [if_neg h.moves, hp]
  rfl

theorem phaseEnd_two {n : Node} (h : StartsUp n) (hp : n.nodeSt.phase = 2) (ok : Nat) (a b posB : Bool) : phaseEnd n ok a b posB =
    modNode (powerRanks (loadStart n a b)) (fun s => { s with phase := 3 }) := by
  unfold phaseEnd
  rw [if_neg h.moves, hp]
  rfl

theorem phaseEnd_three {n : Node} (h : StartsUp n) (hp : n.nodeSt.phase = 3) (ok : Nat) (a b posB : Bool) : phaseEnd n ok a b posB =
    if selftestsDone n then
      modNode { unpowerRanks n with tb := { n.tb with acqAt := some n.now } } (fun s => { s with phase := 4, rsDone := 0 })
    else n := by
  unfold phaseEnd
  rw [if_neg h.moves, hp]
  rfl

theorem phaseEnd_four {n : Node} (h : StartsUp n) (hp : n.nodeSt.phase = 4) (ok : Nat) (a b posB : Bool) : phaseEnd n ok a b posB =
    if n.tb.state = .acquiring then n else standbyStart n := by
  unfold phaseEnd
  rw [if_neg h.moves, hp]
  rfl

/-- Every enabled rank has ended its self-test of phase 3. -/
theorem selftestsDone_iff {n : Node} : selftestsDone n = true ↔
    ∀ k, ¬(k < 16 ∧ nbit (reg n (at_ 0x0D 0x50)).toNat k = true ∧ rankTesting n k = true) := by
  simp only [selftestsDone, List.all_eq_true, members, List.mem_filter, List.mem_range, Bool.not_eq_true', not_and, Bool.not_eq_true, and_imp]
  rfl

theorem rankTesting_of {n m : Node} (h : BesideFab n m) (k : Nat) : rankTesting m k = rankTesting n k := by
  rw [rankTesting, rankTesting, rankOf_of_ranks h.ranks, h.nodeSt]

theorem selftestsDone_of {n m : Node} (h : BesideFab n m) : selftestsDone m = selftestsDone n := by
  rw [selftestsDone, selftestsDone, rankEn, rankEn, reg_of_regs h.regs]
  exact congrArg (fun f => (members (reg n (at_ 0x0D 0x50)).toNat 16).all f) (funext fun k => by rw [rankTesting_of h])

section Phases
variable {t ok : Nat} {aBad bBad posB : Bool} {s : State}

/-- Start-up does not move on outside INIT, while the node is held or without its rails, before the self-tests or the time base. -/
theorem acts_phaseEnd_still (h : (atInstant s t).nodeSt.state ≠ .init ∨ (atInstant s t).nodeSt.held = true ∨ (atInstant s t).power.off = true ∨
      ((atInstant s t).nodeSt.phase = 4 ∧ (atInstant s t).tb.state = .acquiring) ∨
      ((atInstant s t).nodeSt.phase = 3 ∧ selftestsDone (atInstant s t) = false)) :
    Acts (.startupPhaseEnd t ok { a := aBad, b := bBad } posB) s t (fun n u =>
      SameButSignals u { fabricAdvance n with safety := u.safety, cmds := u.cmds } ∧ fabricHolds u) := by
  refine acts_fabric_still (f := fun n => phaseEnd n ok aBad bBad posB) rfl ?_
  have hb := (fabricAdvance_leaves (atInstant s t)).1.beside
  generalize fabricAdvance (atInstant s t) = m at *
  generalize atInstant s t = n at *
  rw [← hb.nodeSt, ← hb.off, ← hb.tb, ← selftestsDone_of hb] at h
  by_cases hrun : m.nodeSt.state ≠ .init ∨ m.nodeSt.held = true ∨ m.power.off = true
  · exact phaseEnd_not hrun
  · simp only [not_or, not_not, Bool.not_eq_true] at hrun
    obtain ⟨hs, hh, ho⟩ := hrun
    have hup : StartsUp m := ⟨hs, hh, ho⟩
    rcases h with h | h | h | ⟨hp, hacq⟩ | ⟨hp, hno⟩
    · exact absurd hs h
    · exact absurd (hh.symm.trans h) (by decide)
    · exact absurd (ho.symm.trans h) (by decide)
    · rw [phaseEnd_four hup hp]
      exact if_pos hacq
    · rw [phaseEnd_three hup hp]
      exact if_neg (by simp [hno])

variable (hs : (atInstant s t).nodeSt.state = .init) (hh : (atInstant s t).nodeSt.held = false) (ho : (atInstant s t).power.off = false)
include hs hh ho

/-- The phase that ends, told of the node that the fabric has brought up to the instant. -/
theorem acts_phaseEnd {P : Node → Node → Prop}
    (hP : ∀ m, BesideFab (atInstant s t) m → m.now = (atInstant s t).now → ∀ x, phaseEnd m ok aBad bBad posB = x →
      StartsUp m → ∀ sf cs ve o, fabricHolds (besideFabric x sf cs ve o) → P (atInstant s t) (besideFabric x sf cs ve o)) :
    Acts (.startupPhaseEnd t ok { a := aBad, b := bBad } posB) s t P := by
  refine acts_fabric (f := fun n => phaseEnd n ok aBad bBad posB) rfl ?_
  intro m _ hfab hnow sf cs ve o hholds
  have hb := hfab.beside
  exact hP m hb hnow _ rfl ⟨by rw [hb.nodeSt, hs], by rw [hb.nodeSt, hh], by rw [hb.off, ho]⟩ sf cs ve o hholds

theorem acts_phaseOne (hp : (atInstant s t).nodeSt.phase = 1) :
    Acts (.startupPhaseEnd t ok { a := aBad, b := bBad } posB) s t (fun n u => fabricHolds u ∧
      u.nodeSt = { n.nodeSt with phase := 2 } ∧ u.regs = n.regs ∧ u.duplex = { n.duplex with posB := posB } ∧
      ((members ok 3).length < 2 → u.laneSt.state = n.laneSt.state) ∧
      (2 ≤ (members ok 3).length → u.laneSt.state = 3 - (members ok 3).length ∧ (3, 0) ∈ u.dueR ∧
        ∀ l, l < 3 → nbit ok l = true → (laneOf u l).phase = 0) ∧
      (∀ l, l < 3 → nbit ok l = false → (laneOf u l).cause = 11 ∧ (3, 1) ∈ u.dueR ∧ 0 < u.laneSt.excl ∧
        ((laneOf n l).attempts = [] → (laneOf u l).phase = 1))) := by
  refine acts_phaseEnd hs hh ho ?_
  generalize atInstant s t = n at *
  intro m hb hnow x hx hup sf cs ve o hholds
  rw [← hb.nodeSt] at hp
  rw [phaseEnd_one hup hp] at hx
  obtain ⟨lmove, lfew, lserve, lfail⟩ := lanesStart_leaves { m with duplex := { m.duplex with posB := posB } } ok
  have hbeside := lmove.beside
  have hlanes : ∀ l, laneOf { m with duplex := { m.duplex with posB := posB } } l = laneOf n l :=
    fun l => congrArg (fun z => tget ({} : Lane) z l) hb.lanes
  have hduplex : ({ m with duplex := { m.duplex with posB := posB } } : Node).duplex = { n.duplex with posB := posB } := by
    rw [← hb.duplex]
  have hregs : ({ m with duplex := { m.duplex with posB := posB } } : Node).regs = n.regs := hb.regs
  have hnode : ({ m with duplex := { m.duplex with posB := posB } } : Node).nodeSt = n.nodeSt := hb.nodeSt
  have hlaneSt : ({ m with duplex := { m.duplex with posB := posB } } : Node).laneSt = n.laneSt := hb.laneSt
  generalize ({ m with duplex := { m.duplex with posB := posB } } : Node) = k at *
  have knode : (lanesStart k ok).nodeSt = k.nodeSt := congrArg (fun z => z.2.1.2.1) hbeside
  have kregs : (lanesStart k ok).regs = k.regs := congrArg (fun z => z.2.1.1) hbeside
  have kdpx : (lanesStart k ok).duplex = k.duplex := congrArg (fun z => z.2.1.2.2.1) hbeside
  generalize lanesStart k ok = z at *
  have hxnode : x.nodeSt = { n.nodeSt with phase := 2 } := by
    rw [← hnode, ← knode, ← hx]
    rfl
  subst hx
  refine ⟨hholds, hxnode, kregs.trans hregs, kdpx.trans hduplex, fun h2 => (lfew h2).trans (congrArg LaneSt.state hlaneSt), lserve,
    fun l hl hb => ?_⟩
  have hfailed := lfail l hl hb
  rw [hlanes l] at hfailed
  exact hfailed

theorem acts_phaseTwo (hp : (atInstant s t).nodeSt.phase = 2) :
    Acts (.startupPhaseEnd t ok { a := aBad, b := bBad } posB) s t (fun n u => fabricHolds u ∧
      u.nodeSt = { n.nodeSt with phase := 3 } ∧ u.laneSt = n.laneSt ∧
      (∀ k, k < 16 → nbit (reg u (at_ 0x0D 0x50)).toNat k = true → (rankOf n k).failed = false → (rankOf u k).powered = true) ∧
      (copyGood n false aBad → ¬copyGood n true bBad ∨ n.config.copyB.gen ≤ n.config.copyA.gen →
        loadedMarks u = (n.config.copyA.accounts, n.config.copyA.check, false)) ∧
      (copyGood n true bBad → ¬copyGood n false aBad ∨ n.config.copyA.gen < n.config.copyB.gen →
        loadedMarks u = (n.config.copyB.accounts, n.config.copyB.check, false)) ∧
      (¬copyGood n false aBad → ¬copyGood n true bBad → u.config.factory = true ∧ (accountOf u 0).level = 4 ∧
        (accountOf u 0).mustchg = true)) := by
  refine acts_phaseEnd hs hh ho ?_
  generalize atInstant s t = n at *
  intro m hb hnow x hx hup sf cs ve o hholds
  rw [← hb.nodeSt] at hp
  rw [phaseEnd_two hup hp] at hx
  obtain ⟨hnode, hlane, hpow, hmarks⟩ := phaseTwo_leaves m aBad bBad
  obtain ⟨-, lA, lB, lF⟩ := loadConfig_leaves m aBad bBad
  have hgA : copyGood m false aBad ↔ copyGood n false aBad := by
    have hflash : flashOf m.config false = flashOf n.config false := hb.copyA
    rw [copyGood, copyGood, hflash, copyRangeOk_of hb.regs hb.period]
  have hgB : copyGood m true bBad ↔ copyGood n true bBad := by
    have hflash : flashOf m.config true = flashOf n.config true := hb.copyB
    rw [copyGood, copyGood, hflash, copyRangeOk_of hb.regs hb.period]
  rw [hgA, hgB, hb.copyA, hb.copyB] at lA lB
  rw [hgA, hgB] at lF
  generalize loadConfig m aBad bBad = c at *
  have hranks : ∀ k, rankOf m k = rankOf n k := rankOf_of_ranks hb.ranks
  generalize powerRanks (loadStart m aBad bBad) = z at *
  have hxnode : x.nodeSt = { n.nodeSt with phase := 3 } := by
    rw [← hb.nodeSt, ← hnode, ← hx]
    rfl
  have hxlane : x.laneSt = n.laneSt := by
    rw [← hb.laneSt, ← hlane, ← hx]
    rfl
  have hxranks : ∀ k, rankOf x k = rankOf z k := fun k => by rw [← hx]; rfl
  have hxregs : ∀ k, reg x k = reg z k := fun k => by rw [← hx]; rfl
  have hxmarks : loadedMarks x = loadedMarks c := by
    rw [← hmarks, ← hx]
    rfl
  clear hx
  refine ⟨hholds, hxnode, hxlane, fun k hk hen hf => ?_, fun hg hb => hxmarks.trans (lA hg hb), fun hg ha => hxmarks.trans (lB hg ha),
    fun ha hb => ?_⟩
  · have hen' : nbit (reg z (at_ 0x0D 0x50)).toNat k = true := by
      rw [← hxregs]
      exact hen
    exact (congrArg Rank.powered (hxranks k)).trans (hpow k hk hen' (by rw [hranks, hf]))
  · obtain ⟨hfac, hlev, hchg⟩ := lF ha hb
    have hacc : x.config.accounts = c.config.accounts := congrArg Prod.fst hxmarks
    have hfactory : x.config.factory = c.config.factory := congrArg (fun y => y.2.2) hxmarks
    have haccount : accountOf x 0 = accountOf c 0 := accountOf_of_accounts hacc 0
    rw [← haccount] at hlev hchg
    exact ⟨hfactory.trans hfac, hlev, hchg⟩

theorem acts_phaseThree (hp : (atInstant s t).nodeSt.phase = 3) (hdone : selftestsDone (atInstant s t) = true) :
    Acts (.startupPhaseEnd t ok { a := aBad, b := bBad } posB) s t (fun n u => fabricHolds u ∧
      u.nodeSt = { n.nodeSt with phase := 4, rsDone := 0 } ∧ u.regs = n.regs ∧ ∀ k, (rankOf u k).powered = false) := by
  refine acts_phaseEnd hs hh ho ?_
  generalize atInstant s t = n at *
  intro m hb hnow x hx hup sf cs ve o hholds
  rw [← hb.nodeSt] at hp
  rw [phaseEnd_three hup hp] at hx
  rw [selftestsDone_of hb, hdone, if_pos rfl] at hx
  obtain ⟨hmove, hoff⟩ := unpowerRanks_leaves m
  have hnode := hmove.nodeSt
  have hregs := hmove.regs
  generalize unpowerRanks m = z at *
  have hxnode : x.nodeSt = { n.nodeSt with phase := 4, rsDone := 0 } := by
    rw [← hb.nodeSt, ← hnode, ← hx]
    rfl
  have hxregs : x.regs = n.regs := by
    rw [← hb.regs, ← hregs, ← hx]
    rfl
  have hxranks : ∀ k, (rankOf x k).powered = false := fun k => by
    rw [← hoff k, ← hx]
    rfl
  clear hx
  exact ⟨hholds, hxnode, hxregs, hxranks⟩

theorem acts_phaseFour (hp : (atInstant s t).nodeSt.phase = 4) (hacq : (atInstant s t).tb.state ≠ .acquiring) :
    Acts (.startupPhaseEnd t ok { a := aBad, b := bBad } posB) s t (fun n u => fabricHolds u ∧
      u.nodeSt = { n.nodeSt with state := .standby, phase := 0, upSince := n.now } ∧ u.regs = n.regs ∧ (0, 1) ∈ u.dueB) := by
  refine acts_phaseEnd hs hh ho ?_
  generalize atInstant s t = n at *
  intro m hb hnow x hx hup sf cs ve o hholds
  rw [← hb.nodeSt] at hp
  rw [phaseEnd_four hup hp] at hx
  rw [if_neg (by rw [hb.tb]; exact hacq)] at hx
  obtain ⟨hnode, hregs, hdue⟩ := standbyStart_leaves m
  rw [hx] at hnode hregs hdue
  rw [hb.nodeSt, hnow] at hnode
  exact ⟨hholds, hnode, hregs.trans hb.regs, hdue⟩

end Phases

end Sys2Proof.Machine
end

section
/-! PROOF. The self-tests of the ranks, and the statement on start-up (17 R399, R400). -/

namespace Sys2Proof.Machine

/-- A rank held unpowered after its self-test, told where it was not before. -/
theorem failRank_leaves (n : Node) (r : Nat) : OneRank r n (failRank n r) ∧ (rankOf (failRank n r) r).powered = false ∧
    (rankOf (failRank n r) r).failed = true ∧ ((rankOf n r).failed = false → (0x0D, 5) ∈ (failRank n r).dueB) := by
  obtain ⟨hone, hself⟩ := unpowerRank_leaves n r
  have hmod := oneRank_modRank (unpowerRank n r) r (fun x => { x with failed := true })
  have hrank := rankOf_modRank_self (unpowerRank n r) r (fun x => { x with failed := true })
  have heq : failRank n r = raiseBIf (!(rankOf n r).failed) (modRank (unpowerRank n r) r (fun x => { x with failed := true })) 0x0D 5 := rfl
  rw [heq]
  rw [hself] at hrank
  generalize modRank (unpowerRank n r) r (fun x => { x with failed := true }) = m at hmod hrank ⊢
  have hraise : ∀ c, Steady m (raiseBIf c m 0x0D 5) := fun c => steady_ite (steady_raiseB m 0x0D 5) (Steady.refl m)
  have hranks := rankOf_of_ranks (hraise (!(rankOf n r).failed)).ranks r
  refine ⟨(hone.trans hmod).trans ((hraise _).oneRank r), ?_, ?_, fun hf => ?_⟩
  · rw [hranks, hrank]
  · rw [hranks, hrank]
  · rw [hf]
    exact List.mem_append_right _ (List.mem_singleton_self _)

/-- What follows a self-test leaves the ranks, the node state, the registers and the headers. -/
structure TestKept (n u : Node) : Prop where
  steady : Steady n u
  headers : u.headers = n.headers

theorem testKept_loadRank (n : Node) (r : Nat) : TestKept n (loadRank n r) := by
  unfold loadRank
  exact ⟨steady_foldl (f := fun m c => settleAt m c (m.sAt + 250000)) (fun m c => ⟨rfl, rfl, rfl, List.prefix_rfl⟩) _ n,
    foldl_same (g := Node.headers) (f := fun m c => settleAt m c (m.sAt + 250000)) (fun m c => rfl) _ n⟩

theorem testKept_endGotoConfig (n : Node) : TestKept n (endGotoConfig n) := by
  refine ⟨ranksMove_endGotoConfig n, ?_⟩
  unfold endGotoConfig
  split
  · exact pred_ite (P := fun u : Node => u.headers = n.headers) rfl rfl
  · rfl

/-- The node with the code of a rank's self-test kept. -/
def codeKept (n : Node) (r code : Nat) : Node := modNode n (fun s => { s with rstest := tset 0 s.rstest r code })

theorem rankSelftestDone_eq {n : Node} {r code : Nat} (hr : r < 16) (hc : code < 8) (ht : rankTesting n r = true) :
    rankSelftestDone n r code = endGotoConfig
      (if code = 1 ∨ code = 5 then failRank (codeKept n r code) r
      else if code = 0 ∧ n.nodeSt.phase = 3 then modNode (codeKept n r code) (fun s => { s with rsDone := setBit s.rsDone r true })
      else if code = 0 then
        loadRank (raise (modRank (codeKept n r code) r (fun y => { y with ready := true, selftest := 0 })) (0x10 + r) 4) r
      else raise (modRank (codeKept n r code) r (fun y => { y with ready := true, faulty := true, selftest := code })) (0x10 + r) 1) := by
  have hgo : ¬(16 ≤ r ∨ 8 ≤ code ∨ rankTesting n r = false) := by simp [ht, Nat.not_le.mpr hr, Nat.not_le.mpr hc]
  unfold rankSelftestDone
  rw [if_neg hgo]
  rfl

/-- What a self-test leaves of its rank, by its code. -/
structure TestedRank (n u : Node) (r code : Nat) : Prop where
  regs : u.regs = n.regs
  others : ∀ k, k ≠ r → rankOf u k = rankOf n k
  told : tget 0 u.nodeSt.rstest r = code
  unpowered : code = 1 ∨ code = 5 → (rankOf u r).powered = false ∧ (rankOf u r).failed = true ∧
    ((rankOf n r).failed = false → (0x0D, 5) ∈ u.dueB)
  startUp : code = 0 → n.nodeSt.phase = 3 → rankOf u r = rankOf n r ∧ nbit u.nodeSt.rsDone r = true
  ready : code = 0 → n.nodeSt.phase ≠ 3 → rankOf u r = { rankOf n r with ready := true, selftest := 0 } ∧
    bit (headerOf u (0x10 + r)).irqStat 4 = true
  faulty : code ≠ 0 → code ≠ 1 → code ≠ 5 → rankOf u r = { rankOf n r with ready := true, faulty := true, selftest := code } ∧
    bit (headerOf u (0x10 + r)).irqStat 1 = true

/-- What leaves ranks, registers, node state and headers keeps what a self-test left. -/
theorem TestedRank.kept {n m u : Node} {r code : Nat} (h : TestedRank n m r code) (k : TestKept m u) : TestedRank n u r code := by
  obtain ⟨hregs, hothers, hcode, hunp, hstart, hready, hfaulty⟩ := h
  obtain ⟨⟨hhead, kregs, kranks, kdue⟩, khead⟩ := k
  have knode : u.nodeSt = m.nodeSt := congrArg (fun x => x.2.2.2.2.2.2.2.2) hhead
  have krank : ∀ j, rankOf u j = rankOf m j := rankOf_of_ranks kranks
  have kheader : ∀ p, headerOf u p = headerOf m p := fun p => by rw [headerOf, headerOf, khead]
  refine ⟨kregs.trans hregs, fun j hj => (krank j).trans (hothers j hj), ?_, fun hc => ?_, fun h0 h3 => ?_, fun h0 h3 => ?_, fun h0 h1 h5 => ?_⟩
  · rw [knode, hcode]
  · rw [krank]
    exact ⟨(hunp hc).1, (hunp hc).2.1, fun hf => kdue.subset ((hunp hc).2.2 hf)⟩
  · rw [krank, knode]
    exact hstart h0 h3
  · rw [krank, kheader]
    exact hready h0 h3
  · rw [krank, kheader]
    exact hfaulty h0 h1 h5

theorem rankSelftestDone_leaves {n : Node} {r code : Nat} (hr : r < 16) (hc : code < 8) (ht : rankTesting n r = true) :
    TestedRank n (rankSelftestDone n r code) r code := by
  rw [rankSelftestDone_eq hr hc ht]
  refine TestedRank.kept ?_ (testKept_endGotoConfig _)
  have hkept : (codeKept n r code).regs = n.regs ∧ (∀ k, rankOf (codeKept n r code) k = rankOf n k) ∧
      tget 0 (codeKept n r code).nodeSt.rstest r = code := ⟨rfl, fun _ => rfl, tget_tset_self 0 n.nodeSt.rstest r code⟩
  generalize codeKept n r code = m at hkept ⊢
  obtain ⟨hregs, hranks, hcode⟩ := hkept
  by_cases hbad : code = 1 ∨ code = 5
  · rw [if_pos hbad]
    obtain ⟨⟨hmove, hother⟩, hpow, hfail, hdue⟩ := failRank_leaves m r
    refine ⟨hmove.regs.trans hregs, fun k hk => (hother k hk).trans (hranks k), by rw [hmove.nodeSt, hcode],
      fun _ => ⟨hpow, hfail, fun hf => hdue (by rw [hranks, hf])⟩, fun h0 => ?_, fun h0 => ?_, fun _ h1 h5 => ?_⟩
    · exact absurd hbad (by omega)
    · exact absurd hbad (by omega)
    · exact absurd hbad (by omega)
  rw [if_neg hbad]
  by_cases hstart : code = 0 ∧ n.nodeSt.phase = 3
  · rw [if_pos hstart]
    refine ⟨hregs, fun k _ => hranks k, hcode, fun h => absurd h hbad, fun _ _ => ⟨hranks r, ?_⟩, fun _ h3 => absurd hstart.2 h3,
      fun h0 => absurd hstart.1 h0⟩
    exact (nbit_setBit m.nodeSt.rsDone r true r).trans (if_pos rfl)
  rw [if_neg hstart]
  by_cases h0 : code = 0
  · rw [if_pos h0]
    refine TestedRank.kept ?_ (testKept_loadRank _ r)
    refine ⟨hregs, fun k hk => (rankOf_modRank_ne m (fun y => { y with ready := true, selftest := 0 }) hk).trans (hranks k), hcode,
      fun h => absurd h hbad,
      fun _ h3 => absurd ⟨h0, h3⟩ hstart, fun _ _ => ⟨?_, bit_raise (by decide)⟩, fun h => absurd h0 h⟩
    exact (rankOf_modRank_self m r (fun y => { y with ready := true, selftest := 0 })).trans (by rw [hranks])
  · rw [if_neg h0]
    refine ⟨hregs, fun k hk =>
        (rankOf_modRank_ne m (fun y => { y with ready := true, faulty := true, selftest := code }) hk).trans (hranks k), hcode,
      fun h => absurd h hbad,
      fun h => absurd h h0, fun h => absurd h h0, fun _ _ _ => ⟨?_, bit_raise (by decide)⟩⟩
    exact (rankOf_modRank_self m r (fun y => { y with ready := true, faulty := true, selftest := code })).trans (by rw [hranks])

section Tests
variable {t r code : Nat} {s : State}

theorem acts_rankSelftestDone (hr : r < 16) (hc : code < 8) (ht : rankTesting (atInstant s t) r = true) :
    Acts (.rankSelftestDone t r code) s t (fun n u => fabricHolds u ∧ TestedRank n u r code) := by
  refine acts_fabric (f := fun n => rankSelftestDone n r code) rfl ?_
  generalize atInstant s t = n at *
  intro m _ hfab hnow sf cs ve o hholds
  have hb := hfab.beside
  have htested := rankSelftestDone_leaves hr hc ((rankTesting_of hb r).trans ht)
  generalize rankSelftestDone m r code = u at *
  obtain ⟨hregs, hothers, hcode, hunp, hstart, hready, hfaulty⟩ := htested
  have hranks := rankOf_of_ranks hb.ranks
  rw [hranks] at hunp hstart hready hfaulty
  rw [hb.nodeSt] at hstart hready
  exact ⟨hholds, hregs.trans hb.regs, fun k hk => (hothers k hk).trans (hranks k), hcode, hunp, hstart, hready, hfaulty⟩

theorem acts_rankSelftestDone_not (h : 16 ≤ r ∨ 8 ≤ code ∨ rankTesting (atInstant s t) r = false) :
    Acts (.rankSelftestDone t r code) s t (fun n u =>
      SameButSignals u { fabricAdvance n with safety := u.safety, cmds := u.cmds } ∧ fabricHolds u) := by
  refine acts_fabric_still (f := fun n => rankSelftestDone n r code) rfl (if_pos ?_)
  rw [rankTesting_of (fabricAdvance_leaves (atInstant s t)).1.beside]
  exact h

end Tests

theorem marks_iff {n : Node} {x : Tbl Account} {k : Word} {b : Bool} :
    loadedMarks n = (x, k, b) ↔ n.config.accounts = x ∧ n.config.check = k ∧ n.config.factory = b := by
  rw [loadedMarks, Prod.mk.injEq, Prod.mk.injEq]

/-- Settles O58. -/
theorem startUp : Obligations.StartUp := by
  intro t ok r code aBad bBad posB s
  dsimp only
  refine ⟨fun h => acts_phaseEnd_still ?_, fun hs hh ho => ?_, fun hr hc ht => ?_, fun h => acts_rankSelftestDone_not h⟩
  · rcases h with h | h | h | h | ⟨hp, hk⟩
    · exact .inl h
    · exact .inr (.inl h)
    · exact .inr (.inr (.inl h))
    · exact .inr (.inr (.inr (.inl h)))
    · refine .inr (.inr (.inr (.inr ⟨hp, ?_⟩)))
      refine Bool.eq_false_iff.mpr fun hdone => ?_
      obtain ⟨k, hk⟩ := hk
      exact selftestsDone_iff.mp hdone k hk
  · have none : ∀ {p q : Prop}, ¬p → p → q := fun hn h => absurd h hn
    by_cases h1 : s.node.nodeSt.phase = 1
    · refine acts_imp (acts_phaseOne hs hh ho h1) fun u ⟨hholds, hrest⟩ =>
        ⟨hholds, fun _ => hrest, none ?_, none ?_, none ?_⟩ <;> simp [h1]
    by_cases h2 : s.node.nodeSt.phase = 2
    · refine acts_imp (acts_phaseTwo hs hh ho h2) fun u ⟨hholds, hnode, hlane, hpow, hA, hB, hF⟩ =>
        ⟨hholds, none h1, fun _ => ⟨hnode, hlane, hpow, fun ha hb => marks_iff.mp (hA ha hb), fun ha hb => marks_iff.mp (hB ha hb), hF⟩,
          none ?_, none ?_⟩ <;> simp [h2]
    by_cases h3 : s.node.nodeSt.phase = 3 ∧ selftestsDone (atInstant s t) = true
    · refine acts_imp (acts_phaseThree hs hh ho h3.1 h3.2) fun u ⟨hholds, hrest⟩ =>
        ⟨hholds, none h1, none h2, fun _ _ => hrest, none ?_⟩
      simp [h3.1]
    have hnot3 : s.node.nodeSt.phase = 3 →
        ¬∀ k, ¬(k < 16 ∧ nbit (reg s.node (at_ 0x0D 0x50)).toNat k = true ∧ rankTesting s.node k = true) :=
      fun hp hk => h3 ⟨hp, selftestsDone_iff.mpr hk⟩
    by_cases h4 : s.node.nodeSt.phase = 4 ∧ s.node.tb.state ≠ .acquiring
    · exact acts_imp (acts_phaseFour hs hh ho h4.1 h4.2) fun u ⟨hholds, hrest⟩ =>
        ⟨hholds, none h1, none h2, fun hp hk => absurd hk (hnot3 hp), fun _ _ => hrest⟩
    · refine acts_imp (acts_phaseEnd hs hh ho (P := fun _ u => fabricHolds u) fun _ _ _ _ _ _ _ _ _ _ hholds => hholds) fun u hholds =>
        ⟨hholds, none h1, none h2, fun hp hk => absurd hk (hnot3 hp), fun hp hacq => absurd ⟨hp, hacq⟩ h4⟩
  · refine acts_imp (acts_rankSelftestDone hr hc ht) fun u ⟨hholds, htested⟩ => ?_
    obtain ⟨hregs, hothers, hcode, hunp, hstart, hready, hfaulty⟩ := htested
    exact ⟨hholds, hregs, hothers, hcode, hunp, hstart, hready, hfaulty⟩

end Sys2Proof.Machine
end

section
/-! PROOF. What the evaluation of a frame leaves: how far the frame has come (08 R168, 11 R249). -/

namespace Sys2Proof.Machine

/-- How far the frame has come: its inputs exchanged, its boundary passed, and when. -/
def frameMarks (n : Node) : Bool × Bool × Nat := (n.laneSt.inDone, n.laneSt.bDone, n.bAt)

/-- The frame has come as far. -/
def MarksStand (n u : Node) : Prop := frameMarks u = frameMarks n

theorem MarksStand.refl (n : Node) : MarksStand n n := rfl

theorem MarksStand.trans {a b c : Node} (h : MarksStand a b) (k : MarksStand b c) : MarksStand a c := Eq.trans k h

theorem MarksStand.inDone {n u : Node} (h : MarksStand n u) : u.laneSt.inDone = n.laneSt.inDone := congrArg Prod.fst h

theorem MarksStand.bDone {n u : Node} (h : MarksStand n u) : u.laneSt.bDone = n.laneSt.bDone := congrArg (fun x => x.2.1) h

theorem MarksStand.bAt {n u : Node} (h : MarksStand n u) : u.bAt = n.bAt := congrArg (fun x => x.2.2) h

theorem marks_ite {p : Prop} [Decidable p] {n a b : Node} (ha : MarksStand n a) (hb : MarksStand n b) :
    MarksStand n (if p then a else b) := pred_ite ha hb

theorem marks_foldl {α : Type} {f : Node → α → Node} (h : ∀ n x, MarksStand n (f n x)) (l : List α) (n : Node) :
    MarksStand n (l.foldl f n) := foldl_rel MarksStand.refl MarksStand.trans h l n

theorem marks_of_steady {n u : Node} (h : Steady n u) : MarksStand n u := by
  unfold MarksStand frameMarks
  rw [h.laneSt, h.bAt]

theorem marks_of_rec {n u : Node} (h : RecFrame n u) : MarksStand n u := by
  obtain ⟨_, _, _, _, _, rfl, -⟩ := h
  rfl

theorem marks_of_call {n u : Node} (h : CallFrame n u) : MarksStand n u := by
  obtain ⟨_, _, _, _, _, _, _, _, rfl, -⟩ := h
  rfl

theorem marks_of_saf {n u : Node} (h : SafFrame n u) : MarksStand n u := by
  rw [SafFrame] at h
  rw [h]
  rfl

theorem marks_of_fab {n u : Node} (h : FabFrame n u) : MarksStand n u := by
  obtain ⟨_, _, _, _, _, hu, -⟩ := h
  rw [hu]
  rfl

theorem marks_of_net {n u : Node} (h : OnlyNet n u) : MarksStand n u := by
  rw [OnlyNet] at h
  rw [h]
  rfl

theorem marks_note (n : Node) (r : Rec) : MarksStand n (note n r) := marks_of_rec (recFrame_note n r)

theorem marks_raise (n : Node) (p b : Nat) : MarksStand n (raise n p b) := rfl

theorem marks_raiseB (n : Node) (p b : Nat) : MarksStand n (raiseB n p b) := rfl

theorem marks_raiseR (n : Node) (p b : Nat) : MarksStand n (raiseR n p b) := rfl

theorem marks_raiseBIf (c : Bool) (n : Node) (p b : Nat) : MarksStand n (raiseBIf c n p b) := marks_ite rfl rfl

theorem marks_raiseRIf (c : Bool) (n : Node) (p b : Nat) : MarksStand n (raiseRIf c n p b) := marks_ite rfl rfl

theorem marks_resolveCmd (n : Node) (p : Nat) (r : Option Bool) : MarksStand n (resolveCmd n p r) := rfl

/-! Channels (05 R106, 07 R146) -/

theorem marks_modAcq (n : Node) (ch : Nat) (f : Acq → Acq) : MarksStand n (modAcq n ch f) := rfl

theorem marks_setRes (n : Node) (ch : Nat) (r : Result) : MarksStand n (setRes n ch r) := rfl

theorem marks_superviseCmp (n : Node) (ch : Nat) (y : Int) (valid : Bool) (d : Nat) : MarksStand n (superviseCmp n ch y valid d) := rfl

theorem marks_takeTes (n : Node) (ch : Nat) : MarksStand n (takeTes n ch) := marks_ite rfl rfl

theorem marks_checkInput (n : Node) (ch d : Nat) (x : Int) (skip : Bool) : MarksStand n (checkInput n ch d x skip) := by
  unfold checkInput
  extract_lets f corr m a rb
  have hm : MarksStand n m := marks_modAcq n ch _
  clear_value rb m
  cases skip with
  | true => exact hm.trans (marks_modAcq m ch _)
  | false => cases rb <;> exact hm.trans (marks_modAcq m ch _)

theorem marks_checkOutput (n : Node) (ch : Nat) : MarksStand n (checkOutput n ch) := rfl

theorem marks_riseAo (n : Node) (ch stat : Nat) : MarksStand n (riseAo n ch stat) :=
  marks_ite (marks_foldl (fun m _ => marks_raiseBIf _ m _ _) _ n) rfl

theorem marks_publishCh (n : Node) (ch d : Nat) (settling invalid wire : Bool) (y : Int) :
    MarksStand n (publishCh n ch d settling invalid wire y) := by
  unfold publishCh
  extract_lets a s mm wire' hold v ovr valid stat val m k
  exact (marks_riseAo n ch stat).trans (MarksStand.trans (b := k) rfl rfl)

theorem marks_lostCh (n : Node) (ch d : Nat) : MarksStand n (lostCh n ch d) :=
  ((marks_takeTes n ch).trans (marks_modAcq _ ch _)).trans (marks_publishCh _ ch d _ true _ _)

theorem marks_measuredCh (n : Node) (ch d : Nat) : MarksStand n (measuredCh n ch d) := by
  unfold measuredCh
  extract_lets n1 f settling n2 di brk sht band x n3 n4 exc n5 mm invalid y n6
  have h2 : MarksStand n n2 := (marks_takeTes n ch).trans (marks_ite rfl (marks_modAcq n1 ch _))
  have h4 : MarksStand n n4 := (h2.trans (marks_modAcq n2 ch _)).trans (marks_ite (marks_modAcq n3 ch _) rfl)
  have h5 : MarksStand n n5 := h4.trans (marks_ite (marks_checkOutput n4 ch) (marks_checkInput n4 ch d x _))
  have h6 : MarksStand n n6 := h5.trans (marks_publishCh n5 ch d _ _ _ _)
  exact marks_ite (h6.trans (marks_superviseCmp n6 ch y _ d)) h6

theorem marks_evalCh (n : Node) (ch : Nat) : MarksStand n (evalCh n ch) :=
  marks_ite rfl (marks_ite rfl (marks_ite (marks_lostCh n ch _) (marks_measuredCh n ch _)))

theorem marks_showDg (n : Node) (ch : Nat) : MarksStand n (showDg n ch) := by
  unfold showDg
  extract_lets was now m
  exact MarksStand.trans (b := m) rfl (marks_foldl (fun k _ => marks_raiseRIf _ k _ _) _ m)

theorem marks_evalChannels (n : Node) : MarksStand n (evalChannels n) := by
  unfold evalChannels
  extract_lets chs n1 n2 n3 n4
  have h2 : MarksStand n n2 := (marks_foldl marks_evalCh _ n).trans (marks_foldl marks_evalCh _ n1)
  have h4 : MarksStand n2 n4 := (marks_foldl marks_showDg chs n2).trans (marks_foldl (fun m c => marks_setRes m c _) (offChs n3) n3)
  exact (h2.trans h4).trans rfl

/-! Points and groups (08 R168 to R193) -/

theorem marks_modPoint (n : Node) (k : Nat) (f : Point → Point) : MarksStand n (modPoint n k f) := rfl

theorem marks_modGroup (n : Node) (k : Nat) (f : AlmGroup → AlmGroup) : MarksStand n (modGroup n k f) := rfl

theorem marks_setState (n : Node) (k : Nat) (a : AlertState) (event source : Nat) : MarksStand n (setState n k a event source) :=
  marks_of_steady (steady_setState n k a event source)

theorem marks_command (n : Node) (k : Nat) (e : AlmEvent) (source : Nat) : MarksStand n (command n k e source) :=
  marks_ite rfl (marks_setState n k _ _ _)

theorem marks_dropShelf (n : Node) (k source : Nat) : MarksStand n (dropShelf n k source) := by
  unfold dropShelf
  extract_lets p m
  exact marks_ite (((marks_modPoint n k _).trans (marks_note m _)).trans rfl) rfl

theorem marks_endShelf (n : Node) (k source : Nat) : MarksStand n (endShelf n k source) := by
  unfold endShelf
  extract_lets p m
  have hm := marks_dropShelf n k source
  exact marks_ite (marks_ite ((hm.trans (marks_setState m k _ _ _)).trans (marks_modPoint _ k _)) hm) rfl

theorem marks_disablePt (n : Node) (k : Nat) : MarksStand n (disablePt n k) :=
  ((marks_dropShelf n k 255).trans (marks_setState _ k _ _ _)).trans (marks_modPoint _ k _)

theorem marks_evalSlot (n : Node) (k : Nat) : MarksStand n (evalSlot n k) := by
  unfold evalSlot
  extract_lets ch typ bad roc m p short held raw m'
  have hm : MarksStand n m := marks_ite (marks_modPoint n k _) rfl
  have hm' : MarksStand m m' := marks_ite rfl rfl
  exact marks_ite (hm.trans (marks_modPoint m k _)) ((hm.trans hm').trans (marks_modPoint m' k _))

theorem marks_evalDerived (was : Tbl Point) (n : Node) (k : Nat) : MarksStand n (evalDerived was n k) :=
  marks_ite (marks_modPoint n k _) (marks_modPoint n k _)

theorem marks_raiseCfgErr (n : Node) (k : Nat) : MarksStand n (raiseCfgErr n k) := rfl

theorem marks_checkPt (listed : List Nat) (n : Node) (k : Nat) : MarksStand n (checkPt listed n k) := by
  unfold checkPt
  extract_lets e was m
  have hm : MarksStand n m := marks_ite rfl (marks_modPoint n k _)
  exact marks_ite (hm.trans (marks_raiseCfgErr m k)) hm

theorem marks_settlePt (listed : List Nat) (n : Node) (k : Nat) : MarksStand n (settlePt listed n k) := by
  have h := marks_checkPt listed n k
  exact marks_ite (marks_ite h (h.trans (marks_disablePt _ k))) (h.trans (marks_modPoint _ k _))

theorem marks_evalCond (was : Tbl Point) (listed : List Nat) (n : Node) (k : Nat) : MarksStand n (evalCond was listed n k) := by
  have h := marks_settlePt listed n k
  exact marks_ite h (marks_ite (h.trans (marks_evalSlot _ k)) (h.trans (marks_evalDerived was _ k)))

theorem marks_evalGroup (was : Tbl Point) (b n : Node) (g : Nat) : MarksStand n (evalGroup was b n g) := by
  unfold evalGroup
  extract_lets w old r m
  exact MarksStand.trans (b := m) rfl (marks_ite rfl rfl)

theorem marks_evalActive (n : Node) (k : Nat) : MarksStand n (evalActive n k) := by
  unfold evalActive
  extract_lets p sup act endSup rise m q m'
  have hm : MarksStand n m := marks_ite rfl rfl
  have hm' : MarksStand n m' := hm.trans (marks_modPoint m k _)
  exact marks_ite (hm'.trans (marks_ite rfl rfl)) hm'

theorem marks_evalState (n : Node) (k : Nat) (was : Bool) : MarksStand n (evalState n k was) :=
  marks_ite (marks_setState n k _ _ _) (marks_ite ((marks_setState n k _ _ _).trans (marks_modPoint _ k _))
    (marks_ite (marks_setState n k _ _ _) rfl))

theorem marks_silenceStep (n : Node) (k : Nat) : MarksStand n (silenceStep n k) := by
  unfold silenceStep
  extract_lets p m
  have hm : MarksStand n m := marks_modPoint n k _
  exact marks_ite (marks_ite (hm.trans (marks_setState m k _ _ _)) hm) rfl

theorem marks_expireShelf (n : Node) (k : Nat) : MarksStand n (expireShelf n k) := (marks_endShelf n k 255).trans rfl

theorem marks_shelveStep (n : Node) (k : Nat) : MarksStand n (shelveStep n k) := by
  unfold shelveStep
  extract_lets p m
  have hm : MarksStand n m := marks_modPoint n k _
  exact marks_ite (marks_ite (hm.trans (marks_expireShelf m k)) hm) rfl

theorem marks_evalSupp (n : Node) (k : Nat) : MarksStand n (evalSupp n k) := marks_ite rfl rfl

theorem marks_evalAlert (n : Node) (k : Nat) : MarksStand n (evalAlert n k) := by
  unfold evalAlert
  extract_lets p n1 n2 n3
  have h2 : MarksStand n n2 := (marks_modPoint n k _).trans (marks_evalActive n1 k)
  have h3 : MarksStand n n3 := h2.trans (marks_evalState n2 k _)
  exact marks_ite ((marks_evalSupp n k).trans (marks_shelveStep _ k)) ((h3.trans (marks_silenceStep n3 k)).trans (marks_shelveStep _ k))

theorem marks_candidate (n : Node) (g : Nat) (c : FirstOut) : MarksStand n (candidate n g c) := by
  unfold candidate
  extract_lets x m better
  exact marks_ite rfl ((marks_modGroup n g _).trans (marks_ite (marks_modGroup m g _) rfl))

theorem marks_foChanged (before : Tbl AlmGroup) (n : Node) (g : Nat) : MarksStand n (foChanged before n g) := by
  unfold foChanged
  split
  · exact (marks_note n _).trans (marks_raiseR _ _ _)
  · exact .refl n

theorem marks_foReset (n : Node) (g source s : Nat) : MarksStand n (foReset n g source s) := by
  unfold foReset
  extract_lets had m m'
  have hm' : MarksStand n m' := (marks_modGroup n g _).trans (marks_ite (marks_note m _) rfl)
  exact hm'.trans (marks_raiseR m' _ _)

theorem marks_foStep (n : Node) (changed : List Nat) (g : Nat) : MarksStand n (foStep n changed g) := by
  unfold foStep
  extract_lets x n1 win due n2 all n3
  have h2 : MarksStand n n2 := (marks_modGroup n g _).trans (marks_ite ((marks_modGroup n1 g _).trans (marks_raiseR _ _ _)) rfl)
  have h3 : MarksStand n2 n3 := marks_ite (marks_foReset n2 g _ _) rfl
  exact (h2.trans h3).trans (marks_modGroup n3 g _)

theorem marks_evalFirstOut (n : Node) (risen : List Nat) : MarksStand n (evalFirstOut n risen) := by
  unfold evalFirstOut
  extract_lets before n1 due n2 n3 gs changed n4
  have h1 : MarksStand n n1 := marks_foldl (fun m _ => marks_candidate m _ _) risen n
  have h2 : MarksStand n1 n2 := rfl
  have h3 : MarksStand n2 n3 := marks_foldl (fun m _ => marks_foldl (fun k _ => marks_candidate k _ _) _ m) due n2
  have h4 : MarksStand n3 n4 := marks_foldl (marks_foChanged before) changed n3
  exact (((h1.trans h2).trans h3).trans h4).trans (marks_foldl (fun m g => marks_foStep m changed g) gs n4)

theorem marks_triggerCap (n : Node) (d kind t : Nat) : MarksStand n (triggerCap n d kind t) := marks_of_rec (recFrame_triggerCap n d kind t)

theorem marks_pointTriggers (n : Node) (k : Nat) : MarksStand n (pointTriggers n k) := by
  unfold pointTriggers
  exact marks_foldl (fun m d => marks_ite (marks_triggerCap m d 1 _) rfl) _ n

theorem marks_checkPts (n : Node) : MarksStand n (checkPts n) := marks_foldl (marks_settlePt _) _ n

theorem marks_evalAlarms (n : Node) : MarksStand n (evalAlarms n) := by
  unfold evalAlarms
  extract_lets pts was n1 n2 n3 risen
  have h1 : MarksStand n n1 := marks_foldl (marks_evalCond was _) pts n
  have h2 : MarksStand n1 n2 := marks_foldl (marks_evalGroup was n1) _ n1
  have h3 : MarksStand n2 n3 := marks_foldl marks_evalAlert _ n2
  have h4 := (marks_foldl marks_pointTriggers risen n3).trans (marks_evalFirstOut _ risen)
  exact (((h1.trans h2).trans h3).trans h4).trans rfl

end Sys2Proof.Machine
end

section
/-! PROOF. What the evaluation of a frame leaves: the call, commands from outside, safety functions and loop outputs (09 R204,
10 R222, 06 R140). -/

namespace Sys2Proof.Machine

/-! Commands from outside (08 R185, 14 R334, R338) -/

theorem marks_commandAll (n : Node) (ks : List Nat) (e : AlmEvent) (source : Nat) : MarksStand n (commandAll n ks e source).1 :=
  marks_foldl (f := fun n k => command n k e source) (fun m k => marks_command m k e source) ks n

theorem marks_byRemote {n : Node} (was : Node) (ks : List Nat) {r : Node × Nat} (h : MarksStand n r.1) :
    MarksStand n (byRemote was ks r) := by
  unfold byRemote
  refine marks_ite h ((h.trans (marks_foldl (fun m k => ?_) ks r.1)).trans (marks_raiseR _ _ _))
  exact marks_ite rfl (marks_modPoint m k _)

theorem marks_transferAll (n : Node) (ks : List Nat) (source : Nat) : MarksStand n (transferAll n ks source).1 := by
  unfold transferAll
  have hr := marks_commandAll n ks .transfer source
  generalize commandAll n ks .transfer source = r at hr ⊢
  dsimp only
  split
  · exact hr
  · have hcall : MarksStand r.1 { r.1 with call := { r.1.call with accSrc := source, accValid := true } } := rfl
    exact ((hr.trans hcall).trans (marks_note _ _)).trans (marks_raiseR _ _ _)

theorem marks_rcmdApply (n : Node) (src op tgt index rseq : Nat) : MarksStand n (rcmdApply n src op tgt index rseq).1 := by
  unfold rcmdApply
  split
  · rfl
  split
  · rfl
  split
  · rfl
  split
  · rfl
  dsimp only
  generalize hm : ({ n with net := { n.net with rseqs := tset none n.net.rseqs src (some rseq) } } : Node) = m
  have h : MarksStand n m := by
    rw [← hm]
    rfl
  exact marks_byRemote m _ (h.trans (marks_commandAll m _ _ _))

theorem marks_rcmdEff (n : Node) (ctrl src op tgt index rseq : Nat) : MarksStand n (rcmdEff n ctrl src op tgt index rseq) := by
  unfold rcmdEff
  extract_lets r y
  exact (marks_rcmdApply n src op tgt index rseq).trans rfl

theorem marks_queueAlf (n : Node) (a : Alert) : MarksStand n (queueAlf n a) := marks_of_net (onlyNet_queueAlf n a)

theorem marks_pointAcn {n : Node} (k : Nat) {r : Node × Nat} (h : MarksStand n r.1) :
    MarksStand n (if r.2 = 0 then queueAlf n (.point k) else byRemote n [k] r) :=
  marks_ite (marks_queueAlf n _) (marks_byRemote n [k] h)

theorem marks_acnEff (n : Node) (letter : Nat) (a : Alert) : MarksStand n (acnEff n letter a) := by
  have own (b : Alert) (x y : OwnAlert) : MarksStand n (if y = x then queueAlf n b else setOwn n b y) :=
    marks_ite (marks_queueAlf n b) (marks_of_net (onlyNet_setOwn n b y))
  cases a with
  | point k =>
    unfold acnEff
    refine marks_pointAcn k ?_
    split
    · rfl
    split
    · exact marks_transferAll n [k] 30
    · exact marks_commandAll n [k] _ 30
  | summary => exact own _ _ _
  | callFault => exact own _ _ _
  | watch => exact own _ _ _

/-! The call and the keys of stations (09 R198 to R211) -/

theorem marks_modCall (n : Node) (f : Call → Call) : MarksStand n (modCall n f) := rfl

theorem marks_setWatch (n : Node) (w : Watch) (source : Nat) : MarksStand n (setWatch n w source) := marks_of_steady (steady_setWatch n w source)

theorem marks_watchReset (n : Node) (panel : Bool) (source : Nat) : MarksStand n (watchReset n panel source) := by
  unfold watchReset
  split
  · exact .refl n
  · exact marks_ite (marks_setWatch n _ _) rfl
  · exact marks_setWatch n _ _

theorem marks_watchOn (n : Node) (source : Nat) : MarksStand n (watchOn n source) := marks_ite (marks_setWatch n _ _) rfl

theorem marks_watchOff (n : Node) (source : Nat) : MarksStand n (watchOff n source) := marks_ite rfl (marks_setWatch n _ _)

theorem marks_watchDue (n : Node) : MarksStand n (watchDue n) := by
  unfold watchDue
  split
  · exact marks_ite ((marks_setWatch n _ _).trans (marks_modCall _ _)) rfl
  · exact marks_ite ((marks_setWatch n _ _).trans (marks_modCall _ _)) rfl
  · exact .refl n

theorem marks_watchFrame (n : Node) : MarksStand n (watchFrame n) := (marks_modCall n _).trans (marks_watchDue _)

theorem marks_transferDue (n : Node) (k : Nat) : MarksStand n (transferDue n k) := marks_ite (marks_modPoint n k _) rfl

theorem marks_keyReset (n : Node) (k : Nat) : MarksStand n (keyReset n k) := marks_ite (marks_watchReset n true k) rfl

theorem marks_keyAccept (n : Node) (k : Nat) : MarksStand n (keyAccept n k) :=
  (marks_byRemote n _ (marks_transferAll n (callingPts n) k)).trans (marks_keyReset _ k)

theorem marks_keySilence (n : Node) (k : Nat) : MarksStand n (keySilence n k) :=
  (marks_ite (marks_byRemote n _ (marks_commandAll n (heard n k) .silence k)) rfl).trans (marks_keyReset _ k)

theorem marks_keyAck (n : Node) (k : Nat) : MarksStand n (keyAck n k) :=
  (marks_byRemote n _ (marks_commandAll n (keyAckPts n) .ack k)).trans (marks_keyReset _ k)

theorem marks_setDuty (n : Node) (e source : Nat) : MarksStand n (setDuty n e source) := by
  unfold setDuty
  extract_lets old m config m'
  have hm : MarksStand n m' := rfl
  exact marks_ite rfl ((hm.trans (marks_note m' _)).trans (marks_raiseR _ _ _))

theorem marks_keyEff (n : Node) (k key kseq arg : Nat) : MarksStand n (keyEff n k key kseq arg) := by
  unfold keyEff
  extract_lets ok m
  have hm : MarksStand n m := rfl
  clear_value m ok
  refine marks_ite rfl (hm.trans ?_)
  split
  · exact marks_keyAccept m k
  · exact marks_keySilence m k
  · exact marks_keyAck m k
  · exact marks_watchReset m true k
  · exact marks_watchOn m k
  · exact marks_watchOff m k
  · exact marks_setDuty m arg k

theorem marks_remoteEff (n : Node) (r : Remote) : MarksStand n (remoteEff n r) := by
  unfold remoteEff
  split
  · exact marks_rcmdEff n _ _ _ _ _ _
  · exact marks_ite (marks_keyEff n _ _ _ _) rfl
  · exact marks_acnEff n _ _

theorem marks_applyRemote (n : Node) : MarksStand n (applyRemote n) := by
  unfold applyRemote
  extract_lets due net m
  have hm : MarksStand n m := rfl
  exact marks_ite hm (hm.trans (marks_foldl marks_remoteEff due m))

theorem marks_syncStation (n : Node) (k : Nat) : MarksStand n (syncStation n k) := marks_ite rfl rfl

theorem marks_bridgeLost (n : Node) : MarksStand n (bridgeLost n) :=
  marks_ite (((marks_modCall n _).trans (marks_note _ _)).trans (marks_raiseR _ _ _)) rfl

theorem marks_evalCall (n : Node) : MarksStand n (evalCall n) := by
  unfold evalCall
  extract_lets n1 n2 n3 n4
  have h1 : MarksStand n n1 := marks_foldl marks_syncStation _ n
  have h3 : MarksStand n1 n3 := (marks_modCall n1 _).trans (marks_watchFrame n2)
  have h4 : MarksStand n3 n4 := marks_foldl marks_transferDue _ n3
  exact (((h1.trans h3).trans h4).trans (marks_of_call (callFrame_refreshCall n4))).trans (marks_bridgeLost _)

theorem marks_evalEngine (n : Node) : MarksStand n (evalEngine n) :=
  marks_ite rfl (marks_ite ((marks_evalAlarms n).trans (marks_evalCall _)) ((marks_checkPts n).trans (marks_bridgeLost _)))

/-! Peers (05 R121, R122) -/

theorem marks_agePeer (n : Node) (e : Nat) : MarksStand n (agePeer n e) := by
  unfold agePeer
  extract_lets w p a st m
  have hm : MarksStand n m := rfl
  exact marks_ite (marks_ite (hm.trans (marks_raiseR m _ _)) hm) rfl

theorem marks_modPeer (n : Node) (e : Nat) (f : Peer → Peer) : MarksStand n (modPeer n e f) := rfl

theorem marks_evalPeers (n : Node) : MarksStand n (evalPeers n) := by
  unfold evalPeers
  extract_lets due n1 n2
  have h1 : MarksStand n n1 := rfl
  have h2 : MarksStand n1 n2 :=
    marks_foldl (fun a _ => marks_foldl (fun b _ => marks_foldl (fun c e => marks_modPeer c e _) _ b) _ a) due n1
  exact (h1.trans h2).trans (marks_foldl marks_agePeer _ n2)

/-! Safety functions (10 R220 to R239) -/

theorem marks_faultRec (n : Node) (ch : Nat) (set : Bool) : MarksStand n (faultRec n ch set) := marks_note n _

theorem marks_recordCh (used : Bool) (n : Node) (ch : Nat) : MarksStand n (recordCh used n ch) := by
  unfold recordCh
  extract_lets was now m
  have hm : MarksStand n m := rfl
  exact marks_ite (hm.trans (marks_foldl (fun k i => marks_ite rfl (marks_faultRec k ch _)) _ m)) hm

theorem marks_recordFaults (n : Node) : MarksStand n (recordFaults n) := by
  unfold recordFaults
  extract_lets used
  exact marks_foldl (fun m ch => marks_recordCh _ m ch) _ n

theorem marks_flushCaptures (n : Node) : MarksStand n (flushCaptures n) := by
  unfold flushCaptures
  exact marks_foldl (fun m d => marks_ite (marks_of_steady (steady_flushCapture m d)) rfl) _ n

theorem marks_modFn (n : Node) (s : Nat) (f : SafetyFn → SafetyFn) : MarksStand n (modFn n s f) := rfl

theorem marks_enterFn (n : Node) (s : Nat) (st : SfState) (cause time : Nat) : MarksStand n (enterFn n s st cause time) :=
  marks_of_steady (steady_enterFn n s st cause time)

theorem marks_clearPair {n : Node} {r : Node × Bool} (h : MarksStand n r.1) (k : Nat) : MarksStand n (clearPair r k).1 := by
  unfold clearPair
  extract_lets m p m' shown
  have hm' : MarksStand n m' := h.trans (marks_of_saf (safFrame_foldl (fun a c => safFrame_modEval a c k _) _ m))
  have hnote : MarksStand n (note m' (recSafety (evalTime m') 1 false k 0 (0x68 + k / 64) shown)) := hm'.trans (marks_note m' _)
  clear_value m'
  split
  · exact hnote
  · exact h

theorem marks_clearOut {n : Node} {r : Node × Bool} (h : MarksStand n r.1) (o : Nat) : MarksStand n (clearOut r o).1 := by
  unfold clearOut
  extract_lets m x code m1 r1 m2 m3
  have h1 : MarksStand n r1.1 := by
    have hn : MarksStand n (note m1 (recSafety (evalTime m1) 2 false o code (soutPage o) (soSt m1 o))) :=
      MarksStand.trans (b := m1) (h.trans rfl) (marks_note m1 _)
    clear_value m1
    unfold r1
    split
    · exact hn
    · exact h
  have h3 : MarksStand n (note m3 (recSafety (evalTime m3) 3 false o 0 (soutPage o) (soSt m3 o))) :=
    MarksStand.trans (b := m3) (h1.trans rfl) (marks_note m3 _)
  clear_value r1 m3
  split
  · exact h3
  · exact h1

/-- A fold over a node and what it tells. -/
theorem marks_foldl_fst {α β : Type} {f : Node × β → α → Node × β} {n : Node}
    (hf : ∀ r x, MarksStand n r.1 → MarksStand n (f r x).1) (l : List α) {r : Node × β} (h : MarksStand n r.1) :
    MarksStand n (l.foldl f r).1 := by
  induction l generalizing r with
  | nil => exact h
  | cons x _ ih => exact ih (hf r x h)

theorem marks_clearFaults (n : Node) (s : Nat) : MarksStand n (clearFaults n s).1 :=
  marks_foldl_fst (fun _ o h => marks_clearOut h o) _ (marks_foldl_fst (fun _ k h => marks_clearPair h k) _ (MarksStand.refl n))

theorem marks_failCause (n : Node) (s : Nat) : MarksStand n (failCause n s) := marks_modFn n s _

theorem marks_evalFn (n : Node) (s : Nat) (reset : Option Nat) : MarksStand n (evalFn n s reset).1 := by
  unfold evalFn
  extract_lets old r cleared n1 slow fast causes demand sw fw n2 first trip low n3 activated refused n4
  have h2 : MarksStand n n2 := by
    have h1 : MarksStand n n1 := by
      unfold n1 r
      split
      · exact marks_clearFaults n s
      · rfl
    exact h1.trans (marks_modFn n1 s _)
  have htrip : MarksStand n (trip n2) := h2.trans (marks_enterFn n2 s _ _ _)
  have henter (st : SfState) (cause time : Nat) : MarksStand n (enterFn n2 s st cause time) := h2.trans (marks_enterFn n2 s st cause time)
  have h3 : MarksStand n n3 := by
    have hfail := h2.trans (marks_failCause n2 s)
    unfold n3
    clear_value n2 trip old
    split
    · exact marks_ite (marks_ite hfail h2) (henter _ _ _)
    · split
      · exact marks_ite h2 (marks_ite htrip (henter _ _ _))
      · exact marks_ite h2 (henter _ _ _)
      · exact marks_ite htrip (marks_ite (henter _ _ _) h2)
      · exact marks_ite h2 htrip
      · exact henter _ _ _
  exact marks_ite (h3.trans (marks_note n3 _)) (marks_ite (h3.trans (marks_note n3 _)) h3)

theorem marks_nextCommand (n : Node) (o : Nat) : MarksStand n (nextCommand n o) := rfl

theorem marks_modSafety (n : Node) (f : Safety → Safety) : MarksStand n (modSafety n f) := rfl

theorem marks_pulseVerdicts (n : Node) : MarksStand n (pulseVerdicts n) :=
  marks_of_fab (pulseVerdicts_leaves n).1

theorem marks_evalSafety (n : Node) : MarksStand n (evalSafety n) := by
  unfold evalSafety
  extract_lets n1 host n2 n3 r n4
  have h3 : MarksStand n n3 := ((marks_pulseVerdicts n).trans (marks_ite (marks_modSafety n1 _) rfl)).trans (marks_modSafety n2 _)
  have hr : MarksStand n r.1 := by
    refine marks_foldl_fst (fun r s h => ?_) _ h3
    exact (h.trans (marks_of_steady (steady_resetChannel r.1 s))).trans (marks_evalFn _ s _)
  have h4 : MarksStand n n4 := marks_ite (hr.trans (marks_resolveCmd r.1 8 _)) hr
  exact h4.trans (marks_foldl marks_nextCommand _ n4)

theorem marks_followSafety (n : Node) : MarksStand n (followSafety n) :=
  (marks_of_steady ((steady_dropResets n).trans (steady_trackResets _))).trans (marks_foldl marks_nextCommand _ _)

theorem marks_evalFns (n : Node) : MarksStand n (evalFns n) :=
  marks_ite (marks_ite (marks_followSafety n) (marks_evalSafety n)) (marks_of_steady (steady_quietSafety n))

/-! Loop outputs (06 R140) and the evaluation -/

theorem marks_modStage (n : Node) (ch : Nat) (f : Stage → Stage) : MarksStand n (modStage n ch f) := rfl

theorem marks_computeAo (n : Node) (ch : Nat) : MarksStand n (computeAo n ch) := by
  unfold computeAo
  extract_lets m l v c
  have hm : MarksStand n m := by
    unfold m
    split
    · exact marks_modStage n ch _
    · exact .refl n
  exact marks_ite (hm.trans (marks_modStage m ch _)) (hm.trans (marks_modStage m ch _))

theorem marks_computeAos (n : Node) : MarksStand n (computeAos n) := marks_foldl marks_computeAo _ n

/-- The evaluation changes nothing of how far the frame has come. -/
theorem marks_evaluate (n : Node) : MarksStand n (evaluate n) := by
  unfold evaluate
  extract_lets n1 n2 n3 n4
  have h1 : MarksStand n n1 := rfl
  have h2 : MarksStand n1 n2 := (marks_applyRemote n1).trans (marks_evalChannels _)
  have h3 : MarksStand n2 n3 := marks_recordFaults n2
  have h4 : MarksStand n3 n4 := (((marks_evalPeers n3).trans (marks_evalEngine _)).trans (marks_evalFns _)).trans (marks_flushCaptures _)
  have hall := ((h1.trans h2).trans h3).trans h4
  exact marks_ite rfl (marks_ite (hall.trans (marks_computeAos n4)) hall)

end Sys2Proof.Machine
end

section
/-! PROOF. Events that nothing commands: the exchanges, the slots and the ticks where they act (11 R249, 07 R146, 10 R220). -/

namespace Sys2Proof.Machine

theorem yields_of_acts {c : Instr} {s : State} {t : Nat} {P : Node → Node → Prop} {Q : State → Prop} (h : Acts c s t P)
    (hQ : ∀ u : State, P (atInstant s t) u.node → Q u) : Yields c s Q := by
  obtain ⟨u, hu, -, hp⟩ := h
  exact ⟨u, hu, hQ u hp⟩

/-! The exchanges of the lanes (11 R248 to R251) -/

theorem acts_rankTransfer {t lane rank : Nat} {s : State} (hl : lane < 3) (hr : rank < 16) (hp : (rankOf s.node rank).powered = true)
    (crcOk : Bool) (frame : Nat) : Acts (.rankTransfer t lane rank crcOk frame) s t (fun n u =>
      nbit (rankOf u rank).got lane = true ∧ nbit (rankOf u rank).good lane = (crcOk && decide (frame = n.frame))) := by
  have hgo : ¬ (3 ≤ lane ∨ 16 ≤ rank ∨ (rankOf (atInstant s t) rank).powered = false) := by
    rw [show rankOf (atInstant s t) rank = rankOf s.node rank from rfl, hp]
    simp
    omega
  refine acts_of_eq (f := fun n => rankTransfer n lane rank crcOk frame) rfl (if_neg hgo) ?_
  generalize atInstant s t = n
  dsimp only
  have hranks : ∀ (c : Bool) (m : Node) (p b : Nat), rankOf (settle (raiseIf c m p b)) rank = rankOf m rank := fun c m p b => by
    cases c <;> rfl
  rw [hranks, rankOf_modRank_self]
  simp

theorem inDone_inputExchange {n : Node} (h3 : n.laneSt.state ≠ 3) (hno : n.laneSt.inDone = false) (alt : List (Nat × Nat)) :
    (inputExchange n alt).laneSt.inDone = true := by
  have hgo : ¬ (lanesNone n = true ∨ n.laneSt.inDone = true) := by
    simp [lanesNone, h3, hno]
  exact congrArg (fun m : Node => m.laneSt.inDone) (if_neg hgo)

theorem acts_inputExchange {t : Nat} {s : State} (h3 : s.node.laneSt.state < 3) (hno : s.node.laneSt.inDone = false)
    (alt : List (Nat × Nat)) : Acts (.inputExchange t alt) s t (fun _ u => u.laneSt.inDone = true) := by
  refine acts_leaves (f := fun n => let n := inputExchange n alt; if n.laneSt.bDone then evaluate n else n) rfl (fun u hu => ?_)
  have hin := inDone_inputExchange (n := atInstant s t) (Nat.ne_of_lt h3) hno alt
  generalize inputExchange (atInstant s t) alt = m at hu hin
  have hm : MarksStand m u := by
    rw [hu]
    exact marks_ite (marks_evaluate m) rfl
  exact hm.inDone.trans hin

theorem laneOf_modLane_again (n : Node) (l : Nat) (f g : Lane → Lane) (k : LaneSt → LaneSt) :
    laneOf (modLane (modLaneSt (modLane n l f) k) l g) l = g (f (laneOf n l)) := by
  rw [laneOf_modLane_self, laneOf_modLaneSt, laneOf_modLane_self]

/-- A lane that has sent a message, at its instant. -/
def heardAt (now : Nat) (x : Lane) : Lane := { x with lastMsg := some now }

/-- A lane with the request that its message carried. -/
def requestedBy (m : ExchMsg) (x : Lane) : Lane :=
  { x with request := minCause x.request m.lstate.request, carried := (minCause x.request m.lstate.request).isSome }

theorem outputExchange_taken {n : Node} {dest : Nat} {m : ExchMsg} (hd : dest < 3) (hl : m.lane < 3) (hne : dest ≠ m.lane)
    (h3 : n.laneSt.state < 3) (hph : (laneOf n m.lane).phase = 0) (hw : (laneOf n m.lane).wdog = false)
    (hh : (laneOf n m.lane).held = false) (hg : m.good = true) (hf : m.frame = n.frame) : outputExchange n dest m =
      modLane (modLaneSt (modLane n m.lane (heardAt n.now)) (fun s => { s with msgs := s.msgs ++ [(dest, m)] })) m.lane (requestedBy m) := by
  have hgo : ¬ (3 ≤ dest ∨ 3 ≤ m.lane ∨ dest = m.lane ∨ lanesNone n = true ∨ exchanges n m.lane = false ∨
      (laneOf n m.lane).wdog = true ∨ (laneOf n m.lane).held = true) := by
    have hnone : lanesNone n = false := by
      simp only [lanesNone, beq_eq_false_iff_ne]
      omega
    have hex : exchanges n m.lane = true := by
      simp [exchanges, hph]
    rw [hnone, hex, hw, hh]
    simp
    omega
  have hgood : ¬ ((!m.good) = true ∨ m.frame ≠ n.frame) := by
    rw [hg]
    simpa using hf
  exact (if_neg hgo).trans (if_neg hgood)

theorem acts_outputExchange {t dest : Nat} {m : ExchMsg} {s : State} (hd : dest < 3) (hl : m.lane < 3) (hne : dest ≠ m.lane)
    (h3 : s.node.laneSt.state < 3) (hph : (laneOf s.node m.lane).phase = 0) (hw : (laneOf s.node m.lane).wdog = false)
    (hh : (laneOf s.node m.lane).held = false) (hg : m.good = true) (hf : m.frame = s.node.frame) :
    Acts (.outputExchange t dest m) s t (fun n u =>
      (laneOf u m.lane).lastMsg = some n.now ∧ (dest, m) ∈ u.laneSt.msgs) := by
  refine acts_of_eq (f := fun n => outputExchange n dest m) rfl
    (outputExchange_taken (n := atInstant s t) hd hl hne h3 hph hw hh hg hf) ⟨?_, List.mem_append_right _ (List.mem_singleton_self _)⟩
  generalize atInstant s t = n
  exact congrArg Lane.lastMsg (laneOf_modLane_again n m.lane (heardAt n.now) (requestedBy m) _)

/-! The channel whose slot it is (07 R146) -/

/-- The mode of a channel is 0 at reset. -/
theorem regInit_chnMode {ch : Nat} (h : ch < 512) : regInit (chnKey ch 0) = 0 := by
  have hpage : ∀ p < 16, blockOf (16 + p) = 0x10 := by decide
  have hrow : ∀ i < 32, (rowsRnk.find? (fun r => rowHas r (0x100 + 0x20 * i))).map (·.init) = some 0 := by decide
  have hp := hpage (ch / 32) (by omega)
  have hr := hrow (ch % 32) (by omega)
  have h1 : chnKey ch 0 % 1048576 / 4096 = 16 + ch / 32 := by simp only [chnKey, at_]; omega
  have h2 : chnKey ch 0 % 1048576 % 4096 = 0x100 + 0x20 * (ch % 32) := by simp only [chnKey, at_]; omega
  unfold regInit rowAt rowsOf
  dsimp only
  rw [h1, h2, hp]
  cases hf : rowsRnk.find? (fun r => rowHas r (0x100 + 0x20 * (ch % 32))) with
  | none => rfl
  | some r =>
    rw [hf] at hr
    have hinit : r.init = 0 := Option.some.inj hr
    show BitVec.ofNat 32 r.init = 0
    rw [hinit]
    rfl

theorem chOfKey_chnKey {ch : Nat} (h : ch < 512) : chOfKey (chnKey ch 0) 0 = some ch := by
  have h1 : chnKey ch 0 / 4096 = 16 + ch / 32 := by simp only [chnKey, at_]; omega
  have h2 : chnKey ch 0 % 4096 = 0x100 + 0x20 * (ch % 32) := by simp only [chnKey, at_]; omega
  unfold chOfKey
  rw [h1, h2]
  dsimp only
  rw [if_pos (by omega)]
  exact congrArg some (by omega)

theorem mem_of_lookup {α : Type} {t : Tbl α} {k : Nat} {v : α} (h : lookup t k = some v) : (k, v) ∈ t := by
  induction t with
  | nil => exact absurd h (by simp [lookup])
  | cons e r ih =>
    obtain ⟨j, x⟩ := e
    rw [lookup] at h
    split at h
    next hj =>
      subst hj
      rw [Option.some.inj h]
      exact List.mem_cons_self
    · exact List.mem_cons_of_mem _ (ih h)

theorem mem_activeChs {n : Node} {ch : Nat} (h : ch < 512) (hsel : chnSel n ch ≠ 0) : ch ∈ activeChs n := by
  unfold chnSel chnMode reg at hsel
  cases hl : lookup n.regs (chnKey ch 0) with
  | none =>
    rw [hl, Option.getD_none, regInit_chnMode h] at hsel
    exact absurd rfl hsel
  | some v =>
    rw [hl, Option.getD_some] at hsel
    refine List.mem_filterMap.mpr ⟨(chnKey ch 0, v), mem_of_lookup hl, ?_⟩
    rw [if_neg hsel]
    exact chOfKey_chnKey h

/-- The slot of a frame, on the fabric as it stands. -/
theorem slot_fabricAdvance {n : Node} {ch : Nat} (h : ch < 512) (hsel : chnSel n ch ≠ 0) (hslot : ch % 8 = n.frame % 8)
    (hpow : (rankOf n (ch / 32)).powered = true) (hready : (rankOf n (ch / 32)).ready = true) :
    ch ∈ slotChs (fabricAdvance n) ∧ slotKind (fabricAdvance n) ch = slotKind n ch := by
  have hregs : (fabricAdvance n).regs = n.regs := (fabricAdvance_leaves n).1.regs
  have hsame : (fabricAdvance n).frame = n.frame ∧ (fabricAdvance n).ranks = n.ranks ∧ (fabricAdvance n).diags = n.diags := by
    obtain ⟨_, _, _, _, _, hm, -⟩ := (fabricAdvance_leaves n).1
    rw [hm]
    exact ⟨rfl, rfl, rfl⟩
  obtain ⟨hframe, hranks, hdiags⟩ := hsame
  have hsel' : chnSel (fabricAdvance n) ch = chnSel n ch := chnSel_of_regs hregs ch
  have hrank : rankOf (fabricAdvance n) (rankOfCh ch) = rankOf n (ch / 32) := rankOf_of_ranks hranks _
  refine ⟨List.mem_filter.mpr ⟨mem_activeChs h (hsel'.trans_ne hsel), ?_⟩, ?_⟩
  · rw [hframe, hrank, hpow, hready, decide_eq_true hslot]
    rfl
  · unfold slotKind diagOf
    rw [hframe, hsel', hdiags]

/-! A discrepancy that has latched stands (10 R220) -/

/-- What every tick keeps of an evaluator, the ticks of an event keep. -/
theorem fabricTicks_evalOf {S : Evaluator → Prop} {c k : Nat} (hc : c < 3) (hk : k < 256) {n : Node}
    (hS : ∀ now tested e, S e → S (advanceEval now (sinDt n k) tested e)) (h : S (evalOf n c k)) : S (evalOf (fabricTicks n) c k) := by
  rw [fabricTicks_eq]
  cases latchTicks n (evalTicks n) with
  | nil => exact evalTicks_evalOf hc hk (hS n.now) h
  | cons x r =>
    have hticks := ticksAt_evalOf (ds := x :: r) hc hk (fun d _ => hS d) h
    have hfab := fabFrame_foldl fabFrame_tickAt (x :: r) n
    dsimp only
    generalize (x :: r).foldl tickAt n = m at hticks hfab
    refine evalTicks_evalOf (n := { m with now := n.now }) hc hk ?_ hticks
    rw [sinDt_of_regs (n := n) (u := { m with now := n.now }) hfab.regs]
    exact hS n.now

theorem acts_discrepancyLatches {t pair copy since : Nat} {s : State} (hno : holdsEnded (atInstant s t) = []) (hc : copy < 3)
    (hp : pair ∈ enabledPairs (atInstant s t)) (hs : (evalOf (atInstant s t) copy pair).disSince = some since)
    (ha : (evalOf (atInstant s t) copy pair).agreeAt = none)
    (hat : (evalOf (atInstant s t) copy pair).discAt < (since / 10000 + sinDt (atInstant s t) pair) * 10000)
    (hdue : (since / 10000 + sinDt (atInstant s t) pair) * 10000 ≤ (atInstant s t).now) :
    Acts (.discrepancyTimeout t pair copy) s t (fun _ u => (evalOf u copy pair).discFlt = true) := by
  refine acts_leaves rfl (fun u hu => ?_)
  generalize atInstant s t = n at *
  have hevals : u.safety.evals = (fabricTicks n).safety.evals := by
    rw [hu]
    unfold fabricAdvance
    rw [releaseHolds_of_none hno]
    exact evals_pulseVerdicts _
  show (evalOf u copy pair).discFlt = true
  rw [evalOf, hevals]
  show (evalOf (fabricTicks n) copy pair).discFlt = true
  by_cases hflt : (evalOf n copy pair).discFlt = true
  · exact (fabricTicks_evalOf (S := Latched since) hc (lt_of_enabledPairs hp) (fun _ _ _ => latched_advanceEval) ⟨hs, ha, hflt⟩).2.2
  · rw [discFlt_fabricTicks hc hp ⟨hs, ha, Bool.eq_false_iff.mpr hflt, hat⟩]
    exact decide_eq_true hdue

end Sys2Proof.Machine
end

section
/-! PROOF. Events that nothing commands have their effect. -/

namespace Sys2Proof.Machine

/-! Mirror, link and exchanges -/

theorem yields_mirrorBlock {t : Nat} {s : State} (hrun : s.node.mgt.state = .run) (hp : s.atR.resHead.period ≠ 0)
    (hl : s.node.mirror.last ≠ some s.atR.resHead.frame) : Yields (.mirrorBlockWrite t) s (fun u =>
      u.node.mirror.last = some s.atR.resHead.frame ∧
      memBytes u.bar2 (s.atR.resHead.frame % 1024 * 4096) 8 = bytesLE 8 s.atR.resHead.frame) := by
  obtain ⟨u, hu, -, -, -, -, -, hhead, -, -, -, -, -, -, -, -, hmirror, -⟩ := (mirrorBlocks.1 t s).1 ⟨hrun, hp, hl⟩
  exact ⟨u, hu, by rw [hmirror], hhead⟩

theorem yields_linkLoss (t : Nat) (s : State) : Yields (.pcieLinkLoss t) s (fun u =>
    u.node.mirror.linkUp = false ∧ u.node.regs = s.node.regs) :=
  yields_of_acts ((mirrorBlocks.2 t {} s).1) (fun u hu => by
    rw [SameButSignals] at hu
    rw [hu]
    exact ⟨rfl, rfl⟩)

theorem yields_linkReturn (t : Nat) (cfg : Endpoint) (s : State) : Yields (.pcieLinkReturn t cfg) s (fun u =>
    u.node.mirror.linkUp = true ∧ u.node.endpoint.busMaster = cfg.busMaster) :=
  yields_of_acts ((mirrorBlocks.2 t cfg s).2) (fun u hu => by
    rw [SameButSignals] at hu
    rw [hu]
    exact ⟨rfl, rfl⟩)

/-! Outputs, on a fabric in which nothing is due (10 R227 to R233) -/

section Outputs
variable {t o : Nat} {s : State} (ho : o < 32) (hadv : fabricAdvance (atInstant s t) = atInstant s t)
include ho hadv

theorem yields_onOut {i : Instr} {f : Node → Node} {Q : Output → Prop} (hc : exec i s = .next (onOut s t o f))
    (h : Q (outputOf (f (atInstant s t)) o)) : Yields i s (fun u => Q (outputOf u.node o)) :=
  yields_of_acts (acts_onOut (P := fun _ u => Q (outputOf u o)) ho hadv hc h) (fun _ hu => hu)

theorem yields_energisationTest (h : (outputOf (atInstant s t) o).phase = .due) :
    Yields (.energisationTest t o) s (fun u => (outputOf u.node o).phase = .testing) :=
  yields_onOut (Q := fun x => x.phase = .testing) (f := fun n => testStart n o) ho hadv rfl (by rw [(testStart_due h).2])

theorem yields_energisationDone (h : (outputOf (atInstant s t) o).phase = .testing) :
    Yields (.energisationTestDone t o 0) s (fun u => (outputOf u.node o).phase = .on) ∧
    Yields (.energisationTestDone t o 3) s (fun u => (outputOf u.node o).phase = .off ∧ (outputOf u.node o).soFlt = true) := by
  refine ⟨yields_onOut (Q := fun x => x.phase = .on) (f := fun n => testDone n o 0) ho hadv rfl
    (testDone_passed h (code := 0) (by omega)).2.1, ?_⟩
  refine yields_onOut (Q := fun x => x.phase = .off ∧ x.soFlt = true) (f := fun n => testDone n o 3) ho hadv rfl ?_
  rw [testDone_failed h (.inl rfl)]
  obtain ⟨-, hoff, -, -, hflt, -⟩ := dropped_faulty (atInstant s t) o 3
  exact ⟨hoff, hflt⟩

theorem yields_testPulse {d : Nat} (h : (outputOf (atInstant s t) o).phase = .on) (hp : (outputOf (atInstant s t) o).pulse = false)
    (htp : tpEn (atInstant s t) o = true) (hd : (outputOf (atInstant s t) o).nextDue = some d) (hnow : d ≤ (atInstant s t).now)
    (hl : (atInstant s t).launches = []) (hsingle : paired (atInstant s t) = false) : Yields (.testPulse t o) s (fun u =>
      (outputOf u.node o).pulse = true ∧ (outputOf u.node o).hs = (outputOf (atInstant s t) o).nextLs) := by
  have hwith : withheld (atInstant s t) o = false := by
    rw [withheld, hl]
    rfl
  have hholder : holder (atInstant s t) = true := by
    rw [holder, hsingle]
    rfl
  refine yields_onOut (Q := fun x => x.pulse = true ∧ x.hs = (outputOf (atInstant s t) o).nextLs) (f := fun n => pulseStart n o) ho hadv rfl ?_
  rw [(pulseStart_due h hp htp hd hnow hwith hholder).2]
  exact ⟨rfl, rfl⟩

theorem yields_testPulseEnd (h : (outputOf (atInstant s t) o).pulse = true) : Yields (.testPulseEnd t o 1) s (fun u =>
    (outputOf u.node o).pulse = false ∧ (outputOf u.node o).last = 1) := by
  obtain ⟨-, hpulse, -, -, -, -, -, -, hpassed, -⟩ := pulseDone_running h 1
  exact yields_onOut (Q := fun x => x.pulse = false ∧ x.last = 1) (f := fun n => pulseDone n o 1) ho hadv rfl
    ⟨hpulse, (hpassed rfl).1⟩

theorem yields_monitorFault (h : (outputOf (atInstant s t) o).phase = .off) (hsingle : paired (atInstant s t) = false)
    (low : Bool) (a b c : Nat) : Yields (.soMonitorFault t o low a b c) s (fun u =>
      (outputOf u.node o).soFlt = true ∧ (outputOf u.node o).vplus = min a 4000) := by
  have hpartner : partnerEnergised (atInstant s t) o = false := by
    rw [partnerEnergised, drives, hsingle]
    rfl
  refine yields_onOut (Q := fun x => x.soFlt = true ∧ x.vplus = min a 4000) (f := fun n => monitorFault n o low a b c) ho hadv rfl ?_
  rw [(monitorFault_told h hpartner (low := low) (plus := a) (minus := b) (cur := c)).2]
  exact ⟨rfl, rfl⟩

theorem yields_overload (h : (outputOf (atInstant s t) o).hs = true) (c : Nat) : Yields (.soOverload t o c) s (fun u =>
    (outputOf u.node o).phase = .off ∧ (outputOf u.node o).soFlt = true) := by
  obtain ⟨-, hoff, -, -, hflt, -⟩ := overload_of (m := atInstant s t) (o := o) c (.inl h)
  exact yields_onOut (Q := fun x => x.phase = .off ∧ x.soFlt = true) (f := fun n => overload n o c) ho hadv rfl ⟨hoff, hflt⟩

theorem yields_fbTimeout {d : Nat} (h : (outputOf (atInstant s t) o).misSince = some d) (hen : fbEn (atInstant s t) o = true)
    (hsingle : paired (atInstant s t) = false)
    (hd : max d (outputOf (atInstant s t) o).expectAt + fld (soFb (atInstant s t) o) 8 0 * 1000000 ≤ (atInstant s t).now) :
    Yields (.fbTimeout t o) s (fun u => (outputOf u.node o).fbFlt = true) := by
  have hholder : holder (atInstant s t) = true := by
    rw [holder, hsingle]
    rfl
  refine yields_onOut (Q := fun x => x.fbFlt = true) (f := fun n => fbDue n o) ho hadv rfl ?_
  by_cases hf : (outputOf (atInstant s t) o).fbFlt = true
  · rw [fbDue_not (.inr (.inr (.inl hf)))]
    exact hf
  · rw [(fbDue_due h hen (Bool.eq_false_iff.mpr hf) hholder hd).2.1]

end Outputs

theorem yields_vsLowChange {a : Nat} (h : a < 4) (t b : Nat) (s : State) : Yields (.vsLowChange t a b) s (fun u =>
    tget {} u.node.safety.vs a = { volt := min b 4000, low := decide (b < 1600) }) :=
  yields_of_acts (acts_of_eq (P := fun _ u => tget {} u.safety.vs a = { volt := min b 4000, low := decide (b < 1600) })
    (f := fun n => if a < 4 then vsChange n a b else n) rfl (if_pos h) (vsChange_leaves _ a b).2.2.1) (fun _ hu => hu)

/-! The pair (12 R277 to R289) -/

theorem yields_handoverTimeout {t i : Nat} {s : State} (h : s.node.duplex.handover = some i)
    (hd : i + 8 * s.node.period ≤ max s.node.now t) : Yields (.handoverTimeout t) s (fun u => u.node.duplex.handover = none) :=
  yields_of_acts (acts_of_eq (P := fun _ u => u.duplex.handover = none) (f := handoverTimeout) rfl
    (handoverTimeout_due (n := atInstant s t) h hd) rfl) (fun _ hu => hu)

theorem yields_carrierTake {t r : Nat} {s : State} (hp : paired s.node = true) (hB : s.node.duplex.posB = true)
    (hb : s.node.duplex.hb = none) (hr : r < 16) (hc : nbit s.node.duplex.carried r = false)
    (hready : nbit (readyRanks s.node) r = true) (hlong : 16 ≤ tget 0 s.node.duplex.notReady r) :
    Yields (.carrierTakeTimeout t r) s (fun u => nbit u.node.duplex.carried r = true) := by
  have hpartner : partnerCarries s.node r = false := by
    rw [partnerCarries, hb]
  exact yields_of_acts (acts_carrierTake hp hB hr hc hpartner hready hlong) (fun _ hu => hu.2.1)

/-! The recorder and the images (15 R352 to R362, 16 R379, R383) -/

theorem yields_recordCommit {t : Nat} {s : State} (hf : s.node.rec_.frozen = none) (hr : s.node.rec_.ready = true)
    (hs : s.node.rec_.store = .flash)
    (hroom : bytesOf (s.node.rec_.flash ++ s.node.rec_.staging) ≤ s.node.rec_.segs * 1048576) : Yields (.recordCommit t) s (fun u =>
      u.node.rec_.flash = s.node.rec_.flash ++ s.node.rec_.staging ∧ u.node.rec_.staging = []) :=
  yields_of_acts (acts_recordCommit_flash hf hr hs) (fun u hu => by
    obtain ⟨-, hall, hfit⟩ := hu
    obtain ⟨hnil, -⟩ := hfit hroom
    rw [hnil, List.append_nil] at hall
    exact ⟨hall, hnil⟩)

theorem yields_overrunRecord {t : Nat} {s : State} (hf : s.node.rec_.frozen = none) (hr : s.node.rec_.ready = true)
    (ho : s.node.rec_.overrun.isSome = true) (hs : s.node.rec_.staging = []) : Yields (.overrunRecord t) s (fun u =>
      u.node.rec_.overrun = none ∧ u.node.rec_.staging.length = 1) := by
  obtain ⟨o, ho⟩ := Option.isSome_iff_exists.mp ho
  have hfree : 1048576 ≤ freeStaging s.node := by
    rw [freeStaging, stagedBytes, hs]
    decide
  refine yields_of_acts (acts_overrunRecord ho hf hr hfree) (fun u hu => ?_)
  obtain ⟨-, hnone, x, hx, -⟩ := hu
  rw [hs] at hx
  exact ⟨hnone, by rw [hx]; rfl⟩

theorem yields_recorderReady {t : Nat} {a b : Bool} {s : State} (hr : s.node.rec_.ready = false) :
    Yields (.recorderReady t a b) s (fun u => u.node.rec_.ready = true ∧ u.node.rec_.mramOk = b) := by
  refine yields_of_acts (acts_of_eq (P := fun _ u => u.rec_.ready = true ∧ u.rec_.mramOk = b) (f := fun n => recorderReady n a b) rfl
    (recorderReady_eq (n := atInstant s t) hr a b) ?_) (fun _ hu => hu)
  obtain ⟨-, hready, -⟩ := readyStaged_leaves (atInstant s t) b
  have hheld := (opened_openStores (readyStaged (atInstant s t) b) a).held
  generalize readyStaged (atInstant s t) b = m at *
  simp only [Prod.mk.injEq] at hready hheld
  exact ⟨hheld.1.trans hready.1, hheld.2.1.trans hready.2.1⟩

theorem yields_captureEnd {t d : Nat} {s : State} (hd : d < 8) (h : captureFull s.node d = true) :
    Yields (.captureEnd t d) s (fun u => (capOf u.node d).slots = []) := by
  refine yields_of_acts (acts_of_eq (P := fun _ u => (capOf u d).slots = []) (f := fun n => if d < 8 then captureEnd n d else n) rfl
    ((if_pos hd).trans (if_pos (show captureFull (atInstant s t) d = true from h))) ?_) (fun _ hu => hu)
  generalize atInstant s t = n
  extract_lets rearm m
  have hcap := tget_tmod_self ({} : Capture) n.rec_.caps d (fun c => { c with state := if rearm then .armed else .done, slots := [] })
  have hslots := congrArg Capture.slots hcap
  exact hslots

theorem yields_configWrite {t : Nat} {s : State} (hrun : s.node.mgt.state = .run) (hpend : s.node.config.pend = none)
    (hhalf : s.node.config.half = none) (hdirty : s.node.config.dirty = true) : Yields (.configFlashWrite t true) s (fun u =>
      u.node.config.dirty = false ∧ u.node.config.half = some (!firstCopy s.node.config)) := by
  have hdue : writeDue (atInstant s t) = true := by
    have e : writeDue (atInstant s t) = writeDue s.node := rfl
    rw [e]
    simp [writeDue, hdirty]
  refine yields_of_acts (acts_of_eq (P := fun _ u => u.config.dirty = false ∧ u.config.half = some (!firstCopy s.node.config))
    (f := fun n => configFlashWrite n true) rfl
    ((configFlashWrite_dirty (n := atInstant s t) hrun hpend hhalf hdue true).trans (writeDirty_done _)) ?_) (fun _ hu => hu)
  have hfirst : firstCopy (atInstant s t).config = firstCopy s.node.config := rfl
  rw [hfirst]
  generalize storePassword (atInstant s t) = m
  generalize firstCopy s.node.config = b
  cases b <;> exact ⟨rfl, rfl⟩

/-- Settles O60: each clause by the law of its event, where that event acts. -/
theorem eventsHaveTheirEffect : Obligations.EventsHaveTheirEffect := by
  refine ⟨fun t lane rank dest crcOk frame alt cfg m s => ?_, fun t ch sigHi sigLo copies pair copy since s => ?_,
    fun t o a b c low s ho => ?_, fun t xl delay r l a b x y h s hp => ?_, fun t k d a b s => ?_⟩
  · exact ⟨yields_mirrorBlock, yields_linkLoss t s, yields_linkReturn t cfg s,
      fun hl hr hp => yields_of_acts (acts_rankTransfer hl hr hp crcOk frame) (fun _ hu => hu),
      fun h3 hno => yields_of_acts (acts_inputExchange h3 hno alt) (fun _ hu => hu),
      fun hd hl hne h3 hph hw hh hg hf => yields_of_acts (acts_outputExchange hd hl hne h3 hph hw hh hg hf) (fun _ hu => hu)⟩
  · refine ⟨fun hw hdi hcmp => yields_of_acts (acts_comparatorCrossing t ch sigHi sigLo copies s) (fun u hu => ?_),
      fun h hsel hslot hpow hready => yields_of_acts (acts_diagSlot t [] s) (fun u hu => ?_),
      fun hno hc hpair hs ha hat hdue => yields_of_acts (acts_discrepancyLatches hno hc hpair hs ha hat hdue) (fun _ hu => hu),
      fun h0 h1 h2 => yields_of_acts (acts_fabricTest t s) (fun u hu => ?_)⟩
    · obtain ⟨-, -, -, -, hset⟩ := hu
      obtain ⟨hhi, -⟩ := (hset hw hcmp).1 hdi
      refine ⟨fun hup => hhi.mpr (.inl hup), fun hdown => Bool.eq_false_iff.mpr fun hyes => ?_⟩
      rcases hhi.mp hyes with hup | ⟨-, hup⟩ <;> omega
    · obtain ⟨-, -, -, hkind, -⟩ := hu
      obtain ⟨hmem, hsame⟩ := slot_fabricAdvance h hsel hslot hpow hready
      exact (hkind ch hmem rfl).trans hsame
    · rw [if_neg (by rw [h0, h1, h2]; decide), SameButSignals] at hu
      rw [hu]
  · exact ⟨fun hadv => ⟨yields_energisationTest ho hadv, yields_energisationDone ho hadv, fun _ => yields_testPulse ho hadv,
        yields_testPulseEnd ho hadv, fun hoff hs => yields_monitorFault ho hadv hoff hs low a b c,
        fun _ hhs => yields_overload ho hadv hhs c, fun _ => yields_fbTimeout ho hadv⟩,
      fun ha => yields_vsLowChange ha t b s, yields_of_acts (acts_fbSettle ho) (fun _ hu => hu.2.1)⟩
  · refine ⟨yields_of_acts (acts_outputArbitration hp l) (fun u hu => ?_), yields_of_acts (acts_timeArbitration hp l) (fun u hu => ?_),
      yields_of_acts (acts_presencePulse hp a b x y) (fun u hu => ?_),
      fun hv => yields_of_acts (acts_heartbeatSend hp hv) (fun u hu => ?_),
      fun hx => yields_of_acts (acts_heartbeatReceived hp hx) (fun u hu => ?_),
      fun hc hlate hb => yields_of_acts (acts_heartbeatMiss hp (by rw [hc]; simp) hlate) (fun u hu => ?_),
      fun _ => yields_handoverTimeout, fun hd hlate => yields_of_acts (acts_clampTimeout hp hd hlate) (fun u hu => ?_),
      fun hB hb hr hc => yields_carrierTake hp hB hb hr hc⟩
    · obtain ⟨-, hdup, -⟩ := hu
      rw [hdup]
      rfl
    · obtain ⟨-, hdup⟩ := hu
      rw [hdup]
      rfl
    · rw [SameButSignals] at hu
      rw [hu]
      exact ⟨rfl, rfl⟩
    · obtain ⟨-, e, m, hm, hframe, -⟩ := hu
      exact ⟨e, m, hm, hframe⟩
    · obtain ⟨-, -, -, hbad, -⟩ := hu
      obtain ⟨-, hx', -⟩ := hbad (by decide)
      rw [hx']
      rfl
    · obtain ⟨-, -, hmiss, -⟩ := hu
      have hnone : hbOf (atInstant s t) (atInstant s t).frame = none := by
        have e : (atInstant s t).duplex.hb = none := hb
        rw [hbOf, e]
        rfl
      exact (hmiss hnone).1
    · obtain ⟨hrec, -⟩ := hu
      have hdup := congrArg (fun n : Node => n.duplex.drive) hrec.1
      exact hdup
  · exact ⟨fun hf hr hs => ⟨yields_recordCommit hf hr hs, fun hu => yields_of_acts (acts_segmentErase hf hs hu) (fun _ hu => hu.2.2.2.1),
        fun hk => yields_of_acts (acts_flashFail hs hk) (fun _ hu => hu.2.2.1)⟩,
      yields_overrunRecord, fun h => yields_of_acts (acts_mramFail h) (fun _ hu => ⟨hu.2.1, hu.2.2.1⟩),
      yields_of_acts (acts_blockRetire t k a s) (fun _ hu => hu.2.1), yields_recorderReady, yields_captureEnd,
      yields_of_acts (acts_recRateRead t s) (fun u hu => by
        obtain ⟨hsame, -⟩ := hu
        rw [SameButSignals] at hsame
        rw [hsame]),
      fun _ hx hc hdue => yields_of_acts (acts_windowExpires (s := s) (t := t) hx hc hdue) (fun _ hu => ⟨hu.1, hu.2.1⟩),
      yields_configWrite⟩

end Sys2Proof.Machine
end

section
/-! PROOF. What a voted boundary leaves of the frame's marks: time, the lanes' grids and the pair (03 R64, 12 R281 to R289). -/

namespace Sys2Proof.Machine

/-! Time -/

theorem marks_of_time {n u : Node} (h : TimeOnly n u) : MarksStand n u := by
  obtain ⟨⟨_, _, _, _, _, hu, -⟩, -⟩ := h
  rw [hu]
  rfl

theorem marks_modTb (n : Node) (f : TimeBase → TimeBase) : MarksStand n (modTb n f) := rfl

theorem marks_keepMap (old n : Node) : MarksStand n (keepMap old n) := marks_ite rfl rfl

theorem marks_voidAll (n : Node) : MarksStand n (voidAll n) := marks_foldl (fun m e => marks_of_steady (steady_voidEntry m e)) _ n

theorem marks_shiftFrames (d : Int) (n : Node) : MarksStand n (shiftFrames d n) := rfl

theorem marks_startSlew (n : Node) (off : Int) : MarksStand n (startSlew n off) := rfl

theorem marks_applyStep (n : Node) : MarksStand n (applyStep n) := by
  unfold applyStep
  split
  · exact .refl n
  · extract_lets k d old mirror n1 n2 r n3 n4 n5 n6
    have h2 : MarksStand n n2 := rfl
    have h5 : MarksStand n2 n5 := ((marks_note n2 _).trans (marks_raiseB n3 1 3)).trans (marks_voidAll n4)
    have h6 : MarksStand n5 n6 := by
      unfold n6
      split
      · exact marks_of_time (timeOnly_enterLocked n5 _)
      · exact .refl n5
    exact ((h2.trans h5).trans h6).trans (marks_startSlew n6 _)

theorem marks_timeBoundary (n : Node) : MarksStand n (timeBoundary n) := by
  have h : MarksStand n (endRamp n) := rfl
  refine h.trans (MarksStand.trans (marks_ite ?_ (marks_ite ?_ ?_)) (marks_keepMap n _))
  · rfl
  · exact marks_modTb _ _
  · exact marks_applyStep _

theorem marks_loseSource (n : Node) (s : TimeSrc) : MarksStand n (loseSource n s) := marks_of_time (timeOnly_loseSource n s)

theorem marks_reselect (n : Node) : MarksStand n (reselect n) := by
  unfold reselect
  split
  · exact .refl n
  · exact marks_ite rfl (marks_of_time (timeOnly_leaveSource n))

theorem marks_modLane (n : Node) (l : Nat) (f : Lane → Lane) : MarksStand n (modLane n l f) := rfl

theorem marks_medianGrid (n : Node) : MarksStand n (medianGrid n) := marks_ite rfl rfl

theorem marks_boundaryLanes (n : Node) (inp : BoundaryIn) : MarksStand n (boundaryLanes n inp) := by
  unfold boundaryLanes
  extract_lets out n1 n2 n3 n4
  have h3 : MarksStand n n3 := ((marks_modLane n 0 _).trans (marks_modLane n1 1 _)).trans (marks_modLane n2 2 _)
  have h4 : MarksStand n3 (takePlate n4 inp.plateSteady) := (marks_modTb n3 _).trans (marks_modTb n4 _)
  exact (h3.trans h4).trans (marks_medianGrid _)

/-! The pair -/

theorem marks_modDpx (n : Node) (f : Duplex → Duplex) : MarksStand n (modDpx n f) := rfl

theorem marks_setObserve (n : Node) : MarksStand n (setObserve n) := rfl

theorem marks_tellIf (c : Bool) (n : Node) (event old new index irq : Nat) : MarksStand n (tellIf c n event old new index irq) :=
  marks_ite ((marks_note n _).trans (marks_raiseB _ _ _)) rfl

theorem marks_lineEvent (n : Node) (line old new : Nat) : MarksStand n (lineEvent n line old new) :=
  marks_ite rfl ((marks_note n _).trans (marks_raiseBIf _ _ _ _))

theorem marks_tellUnpaired (was : Duplex) (n : Node) : MarksStand n (tellUnpaired was n) := by
  unfold tellUnpaired
  extract_lets n1 n2 n3 n4 n5 n6 n7 n8
  have h3 : MarksStand n n3 := ((marks_tellIf _ n _ _ _ _ _).trans (marks_tellIf _ n1 _ _ _ _ _)).trans (marks_ite rfl (marks_note n2 _))
  have h4 : MarksStand n3 n4 := marks_tellIf _ n3 _ _ _ _ _
  have h6 : MarksStand n4 n6 := (((marks_lineEvent n4 _ _ _).trans (marks_lineEvent _ _ _ _)).trans (marks_lineEvent n5 _ _ _)).trans
    (marks_lineEvent _ _ _ _)
  have h7 : MarksStand n6 n7 := marks_foldl (fun m _ => marks_tellIf _ m _ _ _ _ _) _ n6
  have h8 : MarksStand n7 n8 := marks_foldl (fun m _ => marks_note m _) _ n7
  exact (((h3.trans h4).trans h6).trans (h7.trans h8)).trans ((marks_raiseBIf _ n8 _ _).trans (marks_raiseBIf _ _ _ _))

theorem marks_modXl (n : Node) (i : Nat) (f : XLink → XLink) : MarksStand n (modXl n i f) := marks_ite rfl rfl

theorem marks_xlFrame (n : Node) (i : Nat) : MarksStand n (xlFrame n i) :=
  ((marks_modXl n i _).trans (marks_raiseBIf _ _ _ _)).trans (marks_raiseBIf _ _ _ _)

theorem marks_checkHeartbeat (n : Node) (k : Nat) : MarksStand n (checkHeartbeat n k) := by
  unfold checkHeartbeat
  extract_lets n1 n2 n3 n4
  have h1 : MarksStand n n1 := ((marks_modDpx n _).trans (marks_xlFrame _ 0)).trans (marks_xlFrame _ 1)
  have h2 : MarksStand n1 n2 := marks_modDpx n1 _
  have h4 : MarksStand n2 n4 := (marks_modDpx n2 _).trans (marks_note n3 _)
  clear_value n1 n2 n4
  refine marks_ite rfl (h1.trans ?_)
  split
  · exact h2.trans (marks_ite (h4.trans ((marks_raiseB n4 4 3).trans (marks_loseSource _ _))) rfl)
  · extract_lets m k1
    have hm : MarksStand n1 m := marks_modDpx n1 _
    clear_value m
    exact hm.trans (marks_ite (((marks_modDpx m _).trans (marks_note _ _)).trans (marks_raiseB _ 4 4)) rfl)

theorem marks_settleAt (n : Node) (ch te : Nat) : MarksStand n (settleAt n ch te) := rfl

theorem marks_setCarrier (n : Node) (r : Nat) (on : Bool) : MarksStand n (setCarrier n r on) := by
  unfold setCarrier
  extract_lets n1 n2 n3
  have h1 : MarksStand n n1 := marks_modDpx n _
  have h2 : MarksStand n1 n2 := marks_foldl (fun m c => marks_settleAt m c _) _ n1
  exact ((h1.trans h2).trans (marks_note n2 _)).trans (marks_raiseB n3 4 5)

theorem marks_carrierStep (hb : Option Heartbeat) (n : Node) (r : Nat) : MarksStand n (carrierStep hb n r) := by
  unfold carrierStep
  extract_lets d ready theirs pReady m named
  have hm : MarksStand n m := marks_modDpx n _
  have hset : ∀ on, MarksStand n (setCarrier m r on) := fun on => hm.trans (marks_setCarrier m r on)
  clear_value m
  exact marks_ite (marks_ite (hset false) hm) (marks_ite hm (marks_ite (hset true) (marks_ite hm (marks_ite (hset true)
    (marks_ite hm (marks_ite (hset true) hm))))))

theorem marks_carriers (n : Node) (k : Nat) : MarksStand n (carriers n k) := by
  unfold carriers
  extract_lets m
  have hm : MarksStand n m := marks_foldl (marks_carrierStep _) _ n
  clear_value m
  split
  · exact hm.trans (marks_ite ((marks_modDpx m _).trans (marks_resolveCmd _ 4 _)) rfl)
  · exact hm

theorem marks_driveStep (n : Node) (k j : Nat) : MarksStand n (driveStep n k j) := by
  unfold driveStep
  extract_lets r n1 old new was on cause n2 n3 n4 n5
  have h2 : MarksStand n n2 := (marks_raiseBIf _ n _ _).trans (marks_modDpx n1 _)
  have h3 : MarksStand n2 n3 := marks_ite rfl (marks_modDpx n2 _)
  have h4 : MarksStand n3 n4 := marks_ite rfl ((marks_note n3 _).trans (marks_raiseB _ _ _))
  have hall := (h2.trans h3).trans h4
  exact marks_ite hall (hall.trans ((marks_note n4 _).trans (marks_raiseBIf _ n5 _ _)))

theorem marks_retime (n : Node) : MarksStand n (retime n) :=
  marks_ite (marks_loseSource n _) ((marks_modTb n _).trans (marks_reselect _))

theorem marks_timeStep (n : Node) (k : Nat) : MarksStand n (timeStep n k) := by
  unfold timeStep
  extract_lets r n1 was new n2 n3
  have h2 : MarksStand n n2 := (marks_raiseBIf _ n _ _).trans (marks_modDpx n1 _)
  exact marks_ite h2 (h2.trans ((((marks_modDpx n2 _).trans (marks_note n3 _)).trans (marks_raiseB _ _ _)).trans (marks_retime _)))

theorem marks_duplexBoundary (n : Node) : MarksStand n (duplexBoundary n) := by
  unfold duplexBoundary
  extract_lets was idle n1 n2 k j m1 m2 m3
  have h2 : MarksStand n n2 := MarksStand.trans (b := n1) rfl (marks_ite (marks_loseSource n1 _) rfl)
  have h3 : MarksStand n m3 := (((marks_checkHeartbeat n k).trans (marks_driveStep m1 k j)).trans (marks_timeStep _ k)).trans
    ((marks_carriers m2 k).trans (marks_setObserve _))
  exact marks_ite (h2.trans (marks_tellUnpaired was n2)) (h3.trans (marks_modDpx m3 _))

end Sys2Proof.Machine
end

section
/-! PROOF. What a voted boundary leaves of the frame's marks: the commands taken up and the image (02 R45, 16 R379). -/

namespace Sys2Proof.Machine

/-! Parameters (16 R376) -/

theorem marks_of_ranks {n u : Node} (h : RanksMove n u) : MarksStand n u := by
  have hlane := congrArg (fun x => x.2.2.2.2.2.2.2.1) h.head
  have hb := congrArg (fun x => x.2.2.2.2.1) h.head
  dsimp only at hlane hb
  unfold MarksStand frameMarks
  rw [hlane, hb]

theorem marks_modCan (n : Node) (c : Nat) (f : CanCtl → CanCtl) : MarksStand n (modCan n c f) := rfl

theorem marks_endBuf (n : Node) (c b status : Nat) (ts : Word) : MarksStand n (endBuf n c b status ts) := by
  unfold endBuf
  split
  · exact .refl n
  · extract_lets m
    have hm : MarksStand n m := marks_modCan n c _
    clear_value m
    split
    · exact hm.trans ((marks_modCan m c _).trans (marks_raise _ _ _))
    · exact hm.trans (marks_ite (marks_modTb m _) rfl)

theorem marks_configure (n : Node) (c : Nat) : MarksStand n (configure n c) := by
  unfold configure
  extract_lets rx m
  have hm : MarksStand n m := ((marks_endBuf n c 0 6 0).trans (marks_endBuf _ c 1 6 0)).trans (marks_endBuf _ c 2 6 0)
  exact hm.trans (marks_modCan m c _)

theorem marks_refollow (n : Node) : MarksStand n (refollow n) := marks_ite rfl (marks_loseSource n _)

theorem marks_afterParam (n : Node) (p o : Nat) : MarksStand n (afterParam n p o) :=
  marks_ite (marks_modTb n _) (marks_ite (marks_reselect n) (marks_ite (marks_refollow n)
    (marks_ite (marks_ite (marks_modCan n _ _) (marks_configure n _)) rfl)))

theorem marks_recheck (n : Node) (ks : List Nat) : MarksStand n (recheck n ks) := marks_foldl (fun m k => marks_modPoint m k _) ks n

theorem marks_almParam (n : Node) (key : Nat) (old new : Word) : MarksStand n (almParam n key old new) := by
  unfold almParam
  extract_lets n1 n2
  have h1 : MarksStand n n1 := marks_ite rfl (marks_recheck n _)
  have h2 : MarksStand n1 n2 := by
    unfold n2
    split
    · exact marks_ite (marks_modPoint n1 _ _) rfl
    · exact .refl n1
  have h := h1.trans h2
  clear_value n2
  split
  · exact marks_ite h (h.trans (marks_modGroup n2 _ _))
  · exact h

theorem marks_keepFilter (n : Node) (key : Nat) (old : Word) : MarksStand n (keepFilter n key old) := marks_ite (marks_modCan n _ _) rfl

theorem marks_unpowerRank (n : Node) (r : Nat) : MarksStand n (unpowerRank n r) := marks_of_ranks (unpowerRank_leaves n r).1.1

theorem marks_modRank (n : Node) (r : Nat) (f : Rank → Rank) : MarksStand n (modRank n r f) := rfl

theorem marks_rankEnable (n : Node) (v : Word) : MarksStand n (rankEnable n v) := by
  unfold rankEnable
  extract_lets old n1 n2 off n3
  have h2 : MarksStand n n2 := rfl
  have h3 : MarksStand n2 n3 := marks_foldl (fun m r => (marks_unpowerRank m r).trans (marks_modRank _ r _)) off n2
  exact (h2.trans h3).trans ((marks_ite (marks_of_ranks (ranksMove_powerRanks n3)) rfl).trans (marks_of_steady (ranksMove_endGotoConfig _)))

theorem marks_logChange (n : Node) (e : LogEntry) (origin : Nat) : MarksStand n (logChange n e origin) :=
  marks_of_steady (steady_logChange n e origin)

theorem marks_paramEff (key : Nat) (v : Word) (account : Nat) (hseq : BitVec 16) (n : Node) :
    MarksStand n (paramEff key v account hseq n).1 := by
  unfold paramEff
  extract_lets old n1 n2 n3
  have h2 : MarksStand n n2 := (marks_logChange n _ _).trans rfl
  have h3 : MarksStand n2 n3 := rfl
  clear_value n2 n3
  split
  · exact h2.trans (marks_rankEnable n2 v)
  · exact (h2.trans h3).trans (((marks_keepFilter n3 key old).trans (marks_almParam _ key old v)).trans (marks_afterParam _ _ _))

theorem marks_stageEff (key : Nat) (v : Word) (account : Nat) (hseq : BitVec 16) (n : Node) :
    MarksStand n (stageEff key v account hseq n).1 := by
  unfold stageEff
  split
  · exact .refl n
  · extract_lets m
    have hm : MarksStand n m := marks_logChange n _ _
    clear_value m
    exact hm.trans rfl

/-! Alarms, call and lanes -/

theorem marks_setAlmCnt (n : Node) (c : Nat) : MarksStand n (setAlmCnt n c) := rfl

theorem marks_shelvePt (frames : Nat) (n : Node) (k : Nat) : MarksStand n (shelvePt frames n k) := by
  unfold shelvePt
  extract_lets p n1 n2
  have h2 : MarksStand n n2 := (marks_modPoint n k _).trans (marks_ite rfl ((marks_note n1 _).trans rfl))
  exact marks_ite (h2.trans (marks_setState n2 k _ _ _)) (marks_ite (h2.trans (marks_setState n2 k _ _ _)) h2)

theorem marks_almEff (op tgt index arg : Nat) (n : Node) : MarksStand n (almEff op tgt index arg n).1 := by
  have hcnt {u : Node} (h : MarksStand n u) (c : Nat) : MarksStand n (setAlmCnt u c) := h.trans (marks_setAlmCnt u c)
  unfold almEff
  dsimp only
  split
  · exact hcnt (marks_commandAll n _ _ _) _
  · exact hcnt (marks_commandAll n _ _ _) _
  · split
    · exact hcnt (.refl n) _
    · exact hcnt (marks_foldl (marks_shelvePt _) _ n) _
  · exact hcnt (marks_foldl (fun m k => marks_endShelf m k 31) _ n) _
  · exact hcnt (marks_foldl (fun m g => marks_foReset m g 31 _) _ n) _
  · exact hcnt (marks_transferAll n _ _) _

theorem marks_callEff (op : Nat) (n : Node) : MarksStand n (callEff op n) := by
  unfold callEff
  split
  · exact marks_watchOn n 31
  · exact marks_watchOff n 31
  · exact marks_watchReset n false 31

theorem marks_noteLane (n : Node) (r : Rec) : MarksStand n (noteLane n r) := marks_note n _

theorem marks_setPhase (n : Node) (l p : Nat) : MarksStand n (setPhase n l p) :=
  marks_ite rfl ((marks_noteLane n _).trans (marks_modLane _ l _))

theorem marks_laneCmdEff (v : Word) (n : Node) : MarksStand n (laneCmdEff v n).1 := by
  unfold laneCmdEff
  dsimp only
  split
  · split
    · exact (marks_modLane n _ _).trans (marks_setPhase _ _ 1)
    · exact .refl n
  · split
    · exact marks_modLane n _ _
    · exact .refl n
  · have h := marks_foldl (f := fun n l => modLane n l (fun x => { x with ce := 0, ue := 0, pass := 0 }))
      (fun m l => marks_modLane m l _) [0, 1, 2] n
    generalize [0, 1, 2].foldl (fun n l => modLane n l (fun x => { x with ce := 0, ue := 0, pass := 0 })) n = m at h ⊢
    exact h.trans rfl

/-! State commands (17 R389 to R392) -/

theorem marks_modNode (n : Node) (f : NodeSt → NodeSt) : MarksStand n (modNode n f) := rfl

theorem marks_changeState (n : Node) (new : NodeState) : MarksStand n (changeState n new) := by
  unfold changeState
  extract_lets old n1 n2 n3
  have h1 : MarksStand n n1 := marks_ite (marks_of_steady (steady_discardEdit n)) rfl
  have h3 : MarksStand n1 n3 := (marks_modNode n1 _).trans (marks_note n2 _)
  exact marks_ite rfl ((h1.trans h3).trans ((marks_raiseB n3 0 1).trans (marks_of_steady (steady_launchVoids _))))

theorem marks_enterSafe (n : Node) (cause : Nat) : MarksStand n (enterSafe n cause) := (marks_modNode n _).trans (marks_changeState _ .safe)

theorem marks_lockAll (n : Node) (cause : Nat) : MarksStand n (lockAll n cause) := marks_of_steady (steady_lockAll n cause)

theorem marks_quietSafety (n : Node) : MarksStand n (quietSafety n) := marks_of_steady (steady_quietSafety n)

theorem marks_enterConfig (n : Node) : MarksStand n (enterConfig n) :=
  (((marks_changeState n .config).trans (marks_of_ranks (ranksMove_powerRanks _))).trans (marks_quietSafety _)).trans (marks_lockAll _ 12)

theorem marks_enterStandby (n : Node) : MarksStand n (enterStandby n) := by
  have h1 := (marks_of_ranks (unpowerRanks_leaves n).1).trans (marks_changeState _ .standby)
  have h2 := h1.trans (marks_of_steady ((steady_quietPoints _).trans (steady_quietCall _)))
  exact (h2.trans (marks_quietSafety _)).trans (marks_lockAll _ 12)

theorem marks_enterRun (n : Node) : MarksStand n (enterRun n) :=
  ((marks_modNode n _).trans (marks_of_steady (steady_stepToFar _))).trans (marks_changeState _ .run)

/-- A node and what it tells. -/
theorem marks_fst {β : Type} {n u : Node} {b : β} (h : MarksStand n u) : MarksStand n (u, b).1 := h

theorem marks_gotoEff (g : Nat) (auto : Bool) (n : Node) : MarksStand n (gotoEff g auto n).1 := by
  unfold gotoEff
  extract_lets cur m
  have hm : MarksStand n m := marks_enterConfig n
  clear_value m
  split
  · exact .refl n
  split
  · exact .refl n
  split
  · exact marks_modNode n _
  split
  · exact .refl n
  split
  · exact marks_fst (marks_enterStandby n)
  · exact marks_fst hm
  · split
    · exact marks_fst (marks_modNode n _)
    · exact marks_fst (marks_enterRun n)
  · exact marks_fst (marks_enterSafe n 1)

theorem marks_autoSafe (n : Node) : MarksStand n (autoSafe n).1 := by
  unfold autoSafe
  split
  · exact .refl n
  split
  · exact .refl n
  extract_lets m
  have hm : MarksStand n m := marks_modNode n _
  clear_value m
  split
  · exact hm.trans (marks_modNode m _)
  split
  · exact hm.trans ((marks_enterSafe m _).trans (marks_raiseB _ 0 2))
  · exact hm

/-! Safety functions, launches and time -/

theorem marks_safTake (op i : Nat) (n : Node) : MarksStand n (safTake op i n).1 := by
  unfold safTake
  split
  · exact marks_modSafety n _
  · exact marks_modSafety n _
  · rfl

theorem marks_setLaunch (n : Node) (e : Nat) (x : Launch) : MarksStand n (setLaunch n e x) := rfl

theorem marks_lchEff (op e tgt : Nat) (act arg : Word) (n : Node) : MarksStand n (lchEff op e tgt act arg n).1 := by
  unfold lchEff
  extract_lets x
  split
  · split
    · exact .refl n
    split
    · exact marks_setLaunch n e _
    · exact (marks_setLaunch n e _).trans (marks_raiseR _ _ _)
  · split
    · exact marks_setLaunch n e _
    · exact .refl n

theorem marks_setTod (n : Node) (tai : Nat) : MarksStand n (setTod n tai) := by
  unfold setTod
  extract_lets same m
  have hm : MarksStand n m := marks_modTb n _
  exact marks_ite hm (hm.trans (marks_of_time (timeOnly_modSource m _ _)))

theorem marks_setTodEff (tai since : Nat) (n : Node) : MarksStand n (setTodEff tai since n).1 := by
  unfold setTodEff
  extract_lets past
  split
  · exact .refl n
  · exact marks_setTod n _

theorem marks_tbStepEff (n : Node) : MarksStand n (tbStepEff n).1 := by
  unfold tbStepEff
  split
  · exact .refl n
  · exact marks_modTb n _

theorem marks_actEff (auto : Bool) (a : LaneAct) (n : Node) : MarksStand n (actEff auto a n).1 := by
  unfold actEff
  split
  · exact .refl n
  cases a with
  | alm op tgt index arg => exact marks_almEff op tgt index arg n
  | call op =>
    dsimp only
    split
    · exact marks_callEff op n
    · exact .refl n
  | duty e => exact MarksStand.trans (b := { n with unshown := _ }) rfl (marks_setDuty _ e 31)
  | lane v => exact marks_laneCmdEff v n
  | acqClear => rfl
  | rnkClear r => exact marks_modRank n r _
  | dpxClear => exact marks_modDpx n _
  | param key v acc hseq => exact marks_paramEff key v acc hseq n
  | stage key v acc hseq => exact marks_stageEff key v acc hseq n
  | tbStep => exact marks_tbStepEff n
  | setTod tai since => exact marks_setTodEff tai since n
  | goto st => exact marks_gotoEff st auto n
  | saf op i => exact marks_safTake op i n
  | capTrig d => exact marks_triggerCap n d 3 _
  | launch op entry tgt act arg => exact marks_lchEff op entry tgt act arg n

theorem marks_takeAct (auto : Bool) (n : Node) (w : Waiting) : MarksStand n (takeAct auto n w) :=
  (marks_actEff auto w.act n).trans (marks_resolveCmd _ w.page _)

theorem marks_takeUp (n : Node) : MarksStand n (takeUp n) := by
  unfold takeUp
  extract_lets due m r
  have hm : MarksStand n m := rfl
  exact (hm.trans (marks_autoSafe m)).trans (marks_foldl (marks_takeAct r.2) due r.1)

/-! The image (16 R379) -/

theorem marks_commitKey (account : Nat) (hseq : BitVec 16) (n : Node) (e : Nat × Word) : MarksStand n (commitKey account hseq n e) :=
  (marks_logChange n _ _).trans rfl

theorem marks_modFront (n : Node) (ch : Nat) (f : Front → Front) : MarksStand n (modFront n ch f) := rfl

theorem marks_modDiag (n : Node) (ch : Nat) (f : Diag → Diag) : MarksStand n (modDiag n ch f) := rfl

theorem marks_reconfigureCh (n : Node) (ch : Nat) (newSel : Bool) : MarksStand n (reconfigureCh n ch newSel) := by
  unfold reconfigureCh
  extract_lets off keepOpen exc meas n1 n2 o n3 n4
  have h2 : MarksStand n n2 := (marks_modAcq n ch _).trans (marks_modFront n1 ch _)
  have h4 : MarksStand n2 n4 := (marks_modFront n2 ch _).trans (marks_modDiag n3 ch _)
  have h := h2.trans h4
  clear_value n4
  refine marks_ite ?_ h
  have hgone : MarksStand n { n4 with res := erase n4.res ch, acqs := erase n4.acqs ch, fronts := erase n4.fronts ch } := h.trans rfl
  exact hgone.trans (marks_modDiag _ ch _)

theorem marks_modPair (n : Node) (k : Nat) (f : PairSt → PairSt) : MarksStand n (modPair n k f) := rfl

theorem marks_restartPair (n : Node) (k : Nat) : MarksStand n (restartPair n k) := by
  have hevals : ∀ (f : Evaluator → Evaluator), MarksStand n ((List.range 3).foldl (fun n c => modEval n c k f) n) := fun f =>
    marks_foldl (f := fun n c => modEval n c k f) (fun _ _ => rfl) _ n
  unfold restartPair
  refine marks_ite (hevals _) ?_
  extract_lets had n1 n2 n3
  have h2 : MarksStand n n2 := (hevals _).trans (marks_modPair n1 k _)
  have h3 : MarksStand n2 n3 := marks_ite (marks_note n2 _) rfl
  exact (h2.trans h3).trans (marks_modPair n3 k _)

theorem marks_offFns (was n : Node) : MarksStand n (offFns was n) := by
  unfold offFns
  exact marks_foldl (fun m s => (marks_modFn m s _).trans (marks_of_steady (steady_raiseFn _ _ _))) _ n

theorem marks_idleCaptures (chs : List Nat) (n : Node) : MarksStand n (idleCaptures chs n) := by
  unfold idleCaptures
  exact marks_foldl (fun m d => marks_ite (marks_of_steady (steady_modCap m d _)) rfl) _ n

theorem marks_modOutput (n : Node) (o : Nat) (f : Output → Output) : MarksStand n (modOutput n o f) := rfl

theorem marks_takeChanges (was : Node) (ks : List Nat) (n : Node) : MarksStand n (takeChanges was ks n) := by
  unfold takeChanges
  extract_lets chs n1 n2 n3 n4 n5 n6
  have h1 : MarksStand n n1 := marks_foldl (fun m ch => marks_reconfigureCh m ch _) chs n
  have h2 : MarksStand n1 n2 := (marks_idleCaptures chs n1).trans (marks_recheck _ _)
  have h3 : MarksStand n2 n3 := marks_foldl (fun m k => marks_almParam m k _ _) ks n2
  have h4 : MarksStand n3 n4 := marks_foldl marks_restartPair _ n3
  have h5 : MarksStand n4 n5 := marks_foldl (fun m o => marks_modOutput m o _) _ n4
  have h6 : MarksStand n5 n6 := marks_offFns was n5
  have h := (((h1.trans h2).trans h3).trans (h4.trans h5)).trans h6
  exact h.trans ((marks_of_steady (steady_lockFns n6 _ 13)).trans (marks_of_saf (safFrame_loadMap _)))

theorem marks_applyImage (n : Node) : MarksStand n (applyImage n) := by
  unfold applyImage
  split
  · exact .refl n
  extract_lets who es was m dueB m'
  have hm : MarksStand n m := marks_foldl (marks_commitKey who.1 who.2.2) es n
  have hm' : MarksStand m m' := rfl
  exact marks_ite ((hm.trans hm').trans ((marks_takeChanges was _ m').trans (marks_raise _ 5 4))) rfl

end Sys2Proof.Machine
end

section
/-! PROOF. What a voted boundary leaves of the frame's marks: the fabric, the outputs and the lanes (10 R218 to R233, 11 R255 to R264). -/

namespace Sys2Proof.Machine

/-! Loop outputs and launches -/

theorem marks_driveStage (exc : List (Nat × Nat × Option Nat)) (on : Bool) (n : Node) (ch : Nat) :
    MarksStand n (driveStage exc on n ch) := by
  unfold driveStage
  extract_lets was m l m'
  have hm : MarksStand n m := marks_modStage n ch _
  have hm' : MarksStand m m' := marks_modStage m ch _
  clear_value m m'
  refine hm.trans (marks_ite (marks_modStage m ch _) (marks_ite (marks_modStage m ch _) (marks_ite (marks_modStage m ch _) ?_)))
  split
  · exact marks_modStage m ch _
  · exact hm'.trans (marks_raiseBIf _ m' _ _)

theorem marks_aoBoundary (n : Node) (exc : List (Nat × Nat × Option Nat)) (on : Bool) : MarksStand n (aoBoundary n exc on) :=
  (marks_foldl (f := takeSets) (fun m ch => marks_modStage m ch _) _ n).trans (marks_foldl (marks_driveStage exc on) _ _)

theorem marks_startPulse (n : Node) (o : Nat) (byCmd : Bool) : MarksStand n (startPulse n o byCmd) := marks_modOutput n o _

theorem marks_givePulse (n : Node) (o : Nat) (byCmd : Bool) : MarksStand n (givePulse n o byCmd).1 := by
  unfold givePulse
  extract_lets x
  split
  · exact marks_startPulse n o byCmd
  · exact marks_modOutput n o _

theorem marks_lchAtB (n : Node) (e : Nat) : MarksStand n (lchAtB n e) := by
  unfold lchAtB
  extract_lets x m i
  have hm : MarksStand n m := rfl
  clear_value m
  refine marks_ite (hm.trans ?_) rfl
  split
  · exact marks_triggerCap m _ _ _
  · exact marks_ite (marks_givePulse m _ _) rfl
  · exact .refl m

theorem marks_launchBoundary (n : Node) : MarksStand n (launchBoundary n) := marks_foldl marks_lchAtB _ n

theorem marks_mirrorBoundary (n : Node) : MarksStand n (mirrorBoundary n) := marks_ite rfl rfl

theorem marks_takeSupply (n : Node) (x : Option SupplySample) : MarksStand n (takeSupply n x) := by
  cases x <;> rfl

/-- What a boundary changes before the fabric's part, once its instant is noted. -/
theorem bAt_boundaryFront (inp : BoundaryIn) (n : Node) : (boundaryFront inp n).bAt = n.now := by
  unfold boundaryFront
  extract_lets early n1 n2 was n3 n4
  have h1 : n1.bAt = n.now := (marks_takeSupply _ _).bAt
  have h2 : MarksStand n1 n2 := ((marks_timeBoundary n1).trans (marks_duplexBoundary _)).trans (marks_boundaryLanes _ inp)
  have h3 : MarksStand n2 n3 := ((marks_applyImage n2).trans (marks_takeUp _)).trans (marks_mirrorBoundary _)
  have h4 : MarksStand n3 n4 := marks_aoBoundary n3 _ _
  exact (((h2.trans h3).trans h4).trans (marks_launchBoundary n4)).bAt.trans h1

/-! The fabric -/

theorem marks_vsChange (n : Node) (v volt : Nat) : MarksStand n (vsChange n v volt) := (marks_modSafety n _).trans (marks_raiseBIf _ _ _ _)

theorem marks_takeSout (n : Node) (x : SoutSample) : MarksStand n (takeSout n x) := marks_ite (marks_modOutput n _ _) rfl

theorem marks_takeSouts (n : Node) (inp : BoundaryIn) : MarksStand n (takeSouts n inp) :=
  (marks_foldl marks_takeSout _ n).trans (marks_foldl (f := fun n (e : Nat × Nat) => if e.1 < 4 then vsChange n e.1 e.2 else n)
    (fun m _ => marks_ite (marks_vsChange m _ _) rfl) _ _)

theorem marks_modCopy (n : Node) (c : Nat) (f : FabCopy → FabCopy) : MarksStand n (modCopy n c f) := marks_of_saf (safFrame_modCopy n c f)

theorem marks_setCopyLatch (n : Node) (s c : Nat) : MarksStand n (setCopyLatch n s c) := marks_modCopy n c _

theorem marks_clearLatch (n : Node) (s : Nat) : MarksStand n (clearLatch n s) := by
  unfold clearLatch
  exact marks_foldl (fun m c => marks_ite rfl (marks_modCopy m c _)) _ n

theorem marks_writeLatch (n : Node) (s : Nat) : MarksStand n (dateLatch n.now n ((List.range 3).foldl (fun n c => setCopyLatch n s c) n) s) :=
  (marks_foldl (fun m c => marks_setCopyLatch m s c) _ n).trans (marks_of_saf (safFrame_dateLatch _ _ _ s))

theorem marks_writeLatches (n : Node) : MarksStand n (writeLatches n) := by
  unfold writeLatches
  extract_lets m
  have hm : MarksStand n m := marks_foldl (fun m s =>
    marks_ite (marks_ite (marks_clearLatch m s) (marks_writeLatch m s)) (marks_ite (marks_clearLatch m s) rfl)) _ n
  exact marks_ite (marks_of_steady (steady_setAllLatches n)) (hm.trans (marks_modSafety m _))

theorem marks_captureCopy (n : Node) (c : Nat) : MarksStand n (captureCopy n c) := marks_modCopy n c _

theorem marks_excludeCopy (n : Node) (c : Nat) : MarksStand n (excludeCopy n c) := by
  unfold excludeCopy
  extract_lets second n1 n2
  have h2 : MarksStand n n2 := (marks_modCopy n c _).trans (marks_modSafety n1 _)
  exact marks_ite rfl ((h2.trans (marks_note n2 _)).trans (marks_raiseR _ 8 4))

theorem marks_superviseCopy (diff bad : Nat) (n : Node) (c : Nat) : MarksStand n (superviseCopy diff bad n c) := by
  unfold superviseCopy
  extract_lets d m
  have hm : MarksStand n m := marks_modCopy n c _
  exact marks_ite (hm.trans (marks_excludeCopy m c)) hm

theorem marks_diffRaise (diff : Nat) (n : Node) : MarksStand n (diffRaise diff n) :=
  marks_ite rfl (marks_foldl (fun m _ => marks_raiseR m _ _) _ n)

theorem marks_latchRaise (old n : Node) : MarksStand n (latchRaise old n) := by
  unfold latchRaise
  exact marks_foldl (fun m _ => marks_raiseRIf _ m _ _) _ n

theorem marks_capturePair (n : Node) (k : Nat) : MarksStand n (capturePair n k) := by
  unfold capturePair
  extract_lets old vote en permit disc seen stup d n1 pg n2 n3
  have h3 : MarksStand n n3 := ((marks_modPair n k _).trans (marks_raiseRIf _ n1 _ _)).trans (marks_raiseRIf _ n2 _ _)
  exact marks_ite (h3.trans ((marks_note n3 _).trans (marks_raiseR _ _ _))) h3

theorem marks_setExpect (n : Node) (o : Nat) (v : Bool) : MarksStand n (setExpect n o v) := marks_of_saf (setExpect_leaves n o v).1.frame

theorem marks_applyOutput (exc : List (Nat × Nat × Option Bool)) (took : Bool) (n : Node) (o : Nat) :
    MarksStand n (applyOutput exc took n o) := by
  unfold applyOutput
  extract_lets old cmd m
  have hm : MarksStand n m := marks_modOutput n o _
  clear_value m
  exact hm.trans (marks_ite (marks_ite (marks_of_saf (safFrame_dropOutput m o)) rfl) (marks_ite
    (marks_ite ((marks_modOutput m o _).trans (marks_setExpect _ o true)) (marks_ite (marks_modOutput m o _) rfl)) rfl))

/-- The test of an output that is due at the boundary. -/
def dueTest (n : Node) (o : Nat) : Node :=
  match (outputOf n o).soTest with
  | some f =>
    if f ≤ n.bAt then
      let r := givePulse (modOutput n o (fun x => { x with soTest := none })) o true
      if r.2 then r.1 else resolveCmd r.1 8 (some false)
    else n
  | none => n

theorem dueTests_eq (n : Node) : dueTests n = (keys n.safety.outs).foldl dueTest n := rfl

theorem marks_dueTest (n : Node) (o : Nat) : MarksStand n (dueTest n o) := by
  unfold dueTest
  split
  · extract_lets r
    have hr : MarksStand n r.1 := (marks_modOutput n o _).trans (marks_givePulse _ o true)
    exact marks_ite (marks_ite hr (hr.trans (marks_resolveCmd r.1 8 _))) rfl
  · exact .refl n

theorem marks_dueTests (n : Node) : MarksStand n (dueTests n) := marks_foldl marks_dueTest _ n

theorem marks_testSwitches (n : Node) (o : Nat) : MarksStand n (testSwitches n o) := marks_ite (marks_modOutput n o _) rfl

theorem marks_fbDue (n : Node) (o : Nat) : MarksStand n (fbDue n o) := by
  unfold fbDue
  extract_lets x m
  have hm : MarksStand n m := marks_modOutput n o _
  clear_value m
  split
  · exact marks_ite (hm.trans ((marks_note m _).trans (marks_raiseB _ _ _))) rfl
  · exact .refl n

theorem marks_outputStep (n : Node) (o : Nat) : MarksStand n (fbDue (fbStep (testSwitches n o) o) o) :=
  ((marks_testSwitches n o).trans (marks_of_saf (fbStep_leaves _ o).1.frame)).trans (marks_fbDue _ o)

theorem marks_safetyBoundary (n : Node) (inp : BoundaryIn) : MarksStand n (safetyBoundary n inp) := by
  unfold safetyBoundary
  extract_lets took n1 old n2 n3 diff n4 n5 n6 n7 n8 n9 n10
  have h2 : MarksStand n n2 := (((marks_takeSouts n inp).trans (marks_of_fab (fabricAdvance_leaves n1).1)).trans
    (marks_writeLatches _)).trans (marks_of_saf (safFrame_fabricSettle _))
  have h3 : MarksStand n2 n3 := marks_foldl marks_captureCopy _ n2
  have h4 : MarksStand n3 n4 := marks_ite rfl ((marks_foldl (marks_superviseCopy diff _) _ n3).trans (marks_diffRaise diff _))
  have h6 : MarksStand n4 n6 := (marks_latchRaise old n4).trans (marks_foldl marks_capturePair _ n5)
  have h7 : MarksStand n6 n7 := marks_foldl (marks_applyOutput _ took) _ n6
  have h9 : MarksStand n7 n9 := (marks_of_saf (safFrame_settleOutputs n7)).trans (marks_dueTests n8)
  have h10 : MarksStand n9 n10 := marks_foldl marks_outputStep _ n9
  exact ((((h2.trans h3).trans h4).trans h6).trans (h7.trans h9)).trans (h10.trans (marks_modSafety n10 _))

/-! The lanes -/

theorem marks_modLaneSt (n : Node) {f : LaneSt → LaneSt} (h : ∀ x, (f x).inDone = x.inDone ∧ (f x).bDone = x.bDone) :
    MarksStand n (modLaneSt n f) := by
  obtain ⟨hin, hb⟩ := h n.laneSt
  exact Prod.ext hin (Prod.ext hb rfl)

theorem marks_degReached (n : Node) : MarksStand n (degReached n) := marks_ite rfl rfl

theorem marks_takeLaneState (n : Node) : MarksStand n (takeLaneState n) := by
  unfold takeLaneState
  split
  · exact .refl n
  · extract_lets old back n1 n2 n3
    have h1 : MarksStand n n1 := marks_foldl (fun m l => ((marks_modLane m l _).trans (marks_setPhase _ l 0)).trans (marks_raiseR _ 3 2)) back n
    have h2 : MarksStand n1 n2 := rfl
    exact (h1.trans h2).trans ((marks_raiseRIf _ n2 3 0).trans (marks_degReached n3))

theorem marks_endHostExclude (n : Node) (l : Nat) (ok : Bool) : MarksStand n (endHostExclude n l ok) :=
  marks_ite ((marks_modLane n l _).trans (marks_resolveCmd _ 3 _)) rfl

theorem marks_excludeLane (n : Node) (l cause : Nat) : MarksStand n (excludeLane n l cause) := by
  unfold excludeLane
  extract_lets n1 x failed att out phase place n2 n3 n4 n5 n6
  have h2 : MarksStand n n2 := (marks_endHostExclude n l _).trans (marks_noteLane n1 _)
  have h3 : MarksStand n2 n3 := marks_ite rfl (marks_noteLane n2 _)
  have h4 : MarksStand n3 n4 := marks_ite (marks_noteLane n3 _) rfl
  have h6 : MarksStand n4 n6 := (marks_modLane n4 l _).trans (marks_modLaneSt n5 fun _ => ⟨rfl, rfl⟩)
  exact (((h2.trans h3).trans h4).trans h6).trans ((marks_raiseR n6 3 1).trans (marks_raiseRIf _ _ 3 3))

theorem marks_beginTransfers (n : Node) : MarksStand n (beginTransfers n) := by
  unfold beginTransfers
  extract_lets ready first m
  have hm : MarksStand n m := marks_foldl (fun k l => marks_excludeLane k l 11) _ n
  refine marks_ite rfl (hm.trans (marks_foldl (fun k l => ?_) ready m))
  exact marks_ite ((marks_modLane k l _).trans (marks_setPhase _ l 4)) (marks_setPhase k l 3)

/-! The boundary -/

theorem marks_takeTsRef (n : Node) : MarksStand n (takeTsRef n) := rfl

/-- The end of a boundary: it has passed, and the frame is evaluated where its inputs are exchanged. -/
def boundaryEnd (n : Node) : Node :=
  let m := modLaneSt n (fun s => { s with bDone := true })
  if m.laneSt.inDone then evaluate m else m

theorem boundary_eq (inp : BoundaryIn) (n : Node) : boundary inp n =
    boundaryEnd (takeTsRef (beginTransfers (takeLaneState (safetyBoundary (withFabric (boundaryFront inp) n) inp)))) := rfl

theorem boundaryEnd_marks (n : Node) : (boundaryEnd n).laneSt.bDone = true ∧ (boundaryEnd n).bAt = n.bAt := by
  unfold boundaryEnd
  extract_lets m
  have hm : m.laneSt.bDone = true ∧ m.bAt = n.bAt := ⟨rfl, rfl⟩
  clear_value m
  have hu : MarksStand m (if m.laneSt.inDone then evaluate m else m) := marks_ite (marks_evaluate m) rfl
  exact ⟨hu.bDone.trans hm.1, hu.bAt.trans hm.2⟩

theorem bAt_withFabric (inp : BoundaryIn) (n : Node) : (withFabric (boundaryFront inp) n).bAt = n.now := by
  obtain ⟨-, hnow⟩ := fabricAdvance_leaves n
  have hsettle := marks_of_saf (safFrame_fabricSettle (boundaryFront inp (fabricAdvance n)))
  exact (hsettle.bAt.trans (bAt_boundaryFront inp _)).trans hnow

/-- The boundary has passed, at its instant. -/
theorem boundary_marks (inp : BoundaryIn) (n : Node) : (boundary inp n).laneSt.bDone = true ∧ (boundary inp n).bAt = n.now := by
  have hfront := bAt_withFabric inp n
  rw [boundary_eq]
  generalize withFabric (boundaryFront inp) n = m at hfront ⊢
  have h := (((marks_safetyBoundary m inp).trans (marks_takeLaneState _)).trans (marks_beginTransfers _)).trans (marks_takeTsRef _)
  generalize takeTsRef (beginTransfers (takeLaneState (safetyBoundary m inp))) = u at h ⊢
  obtain ⟨hdone, hat⟩ := boundaryEnd_marks u
  exact ⟨hdone, (hat.trans h.bAt).trans hfront⟩

end Sys2Proof.Machine
end

section
/-! PROOF. The refresh at a voted boundary (02 R50). -/

namespace Sys2Proof.Machine

/-! What the refresh keeps of a page under HOLD -/

/-- A page's HOLD after a refresh at a boundary. -/
def heldAfter (n : Node) (x : Option HoldSt) : Option HoldSt :=
  x.bind (fun h => if holdOver (holdB n h) then none else some (holdB n h))

theorem heldAfter_first (n : Node) {h : HoldSt} (hh : h.held = true) (hd : h.bDue = true) :
    heldAfter n (some h) = some { h with b := some n, bDue := false } := by
  obtain ⟨b, r, bDue, rDue, held⟩ := h
  subst hh hd
  rfl

theorem heldAfter_keeps (n : Node) {h : HoldSt} (hh : h.held = true) (hd : h.bDue = false) : heldAfter n (some h) = some h := by
  obtain ⟨b, r, bDue, rDue, held⟩ := h
  subst hh hd
  rfl

theorem heldAfter_released (n : Node) {h : HoldSt} (hh : h.held = false) (hd : h.bDue = true) :
    heldAfter n (some h) = if h.r.isNone then none else some { h with b := none } := by
  obtain ⟨b, r, bDue, rDue, held⟩ := h
  subst hh hd
  cases r <;> rfl

/-! The boundary -/

theorem marks_flushDue (n : Node) (due : List (Nat × Nat)) (frozen : Nat → Bool) : MarksStand n (flushDue n due frozen) :=
  marks_foldl (f := fun n (e : Nat × Nat) => if frozen e.1 then n else raise n e.1 e.2) (fun m _ => marks_ite rfl (marks_raise m _ _)) due n

theorem marks_faultRaise (shown n : Node) : MarksStand n (faultRaise shown n) := marks_raiseBIf _ n 0 0

/-- What the refresh at B leaves of the machine. -/
structure RefreshedB (s u : State) : Prop where
  copy : u.atB = u.node
  other : (u.atR, u.bar2, u.pending) = (s.atR, s.bar2, s.pending)
  holds : ∀ p, tget none u.holds p = heldAfter u.node (tget none s.holds p)
  marks : MarksStand s.node u.node

theorem refreshedB_refreshB (s : State) : RefreshedB s (refreshB s) := by
  unfold refreshB
  extract_lets due node n
  exact ⟨rfl, rfl, tget_holdsNow s.holds (holdB_idem n), MarksStand.trans (b := { s.node with dueB := due.filter (fun e => frozenB s e.1) }) rfl
    (marks_flushDue _ _ _)⟩

/-- A voted boundary: the node as it leaves it, and the refresh. -/
def boundaryStep (inp : BoundaryIn) (s : State) : State := refreshB { s with node := faultRaise s.atB (boundary inp s.node) }

theorem refreshedB_boundaryStep (inp : BoundaryIn) (s : State) : (boundaryStep inp s).atB = (boundaryStep inp s).node ∧
    ((boundaryStep inp s).atR, (boundaryStep inp s).bar2, (boundaryStep inp s).pending) = (s.atR, s.bar2, s.pending) ∧
    (∀ p, tget none (boundaryStep inp s).holds p = heldAfter (boundaryStep inp s).node (tget none s.holds p)) ∧
    (boundaryStep inp s).node.laneSt.bDone = true ∧ (boundaryStep inp s).node.bAt = s.node.now := by
  obtain ⟨hdone, hat⟩ := boundary_marks inp s.node
  have hfault := marks_faultRaise s.atB (boundary inp s.node)
  unfold boundaryStep
  generalize faultRaise s.atB (boundary inp s.node) = n at hfault ⊢
  obtain ⟨hcopy, hother, hholds, hmarks⟩ := refreshedB_refreshB { s with node := n }
  have hkept := hfault.trans hmarks
  exact ⟨hcopy, hother, hholds, hkept.bDone.trans hdone, hkept.bAt.trans hat⟩

/-- Settles O7: the refresh copies the node as the boundary leaves it; nothing after the note of its instant changes that it has
passed, or when. -/
theorem boundaryRefreshes : Obligations.BoundaryRefreshes := by
  intro t inp s
  have hexec : exec (.votedBoundary t inp) s = .next (onState s t (boundaryStep inp)) := rfl
  have h := refreshedB_boundaryStep inp { s with node := begin_ s.node t }
  unfold onState at hexec
  dsimp only at hexec
  generalize boundaryStep inp { s with node := begin_ s.node t } = v at hexec h
  obtain ⟨hcopy, hother, hholds, hdone, hat⟩ := h
  simp only [Prod.mk.injEq] at hother
  obtain ⟨hr, hbar, hpending⟩ := hother
  refine ⟨_, hexec, hcopy ▸ sameButSignals_settle v.node, hr, hbar, hpending, hdone, hat, fun p hp => ?_,
    fun p h hp => ⟨fun hh hd => ?_, fun hh hd => ?_, fun hh hd => ?_⟩⟩
  · exact (hholds p).trans (by rw [hp]; rfl)
  · rw [hcopy]
    exact (hholds p).trans (by rw [hp]; exact heldAfter_first v.node hh hd)
  · exact (hholds p).trans (by rw [hp]; exact heldAfter_keeps v.node hh hd)
  · exact (hholds p).trans (by rw [hp]; exact heldAfter_released v.node hh hd)

end Sys2Proof.Machine
end
